-- ==== Sys2Proof/Word.lean ====
section
/-! DEFINITION. The words the device's text is written in: bytes, 32-bit register words, and the units of its
timescale (one DT64 unit is 0.25 ns, spec file 03). -/

namespace Sys2Proof

/-- A byte. -/
abbrev Byte := BitVec 8

/-- A register word (R5). -/
abbrev Word := BitVec 32

/-- Units of 0.25 ns in a nanosecond. -/
abbrev nsUnits : Nat := 4

/-- Units of 0.25 ns in a microsecond. -/
abbrev usUnits : Nat := 4000

/-- Units of 0.25 ns in a millisecond. -/
abbrev msUnits : Nat := 4000000

/-- Units of 0.25 ns in a second. -/
abbrev secUnits : Nat := 4000000000

end Sys2Proof
end

