-- ==== Sys2Proof/Syntax.lean ====
section
/-! DEFINITION. The commands of the device: one constructor for each row of the operation table (opcode_table.json), in the
table's order, with the operands it takes. What the world outside the device supplies (a received byte string, a measured
value, which part failed) is an operand; what the device computes is not. -/

namespace Sys2Proof

/-- The commands. -/
inductive Instr where
  /-- A write to a register that has no row of its own takes the effect its access type defines. (R9) Access path (0, 1 endpoints, 2 SMBus, 3 JTAG, 4 + hart), device address, value. -/
  | registerWrite (path addr v : Nat)
  /-- A register write with partial byte enables has no effect and is logged as a CONTAINED error. (R6) Access path, device address of the word. -/
  | partialWrite (path addr : Nat)
  /-- A read of a _LO register returns the low half, snapshots the high half for the access path and clears RC fields. (R13) Access path, device address. -/
  | readLo (path addr : Nat)
  /-- A read of a _HI register returns the access path's snapshot and clears nothing. (R13) Access path, device address. -/
  | readHi (path addr : Nat)
  /-- A write of a 64-bit _LO register is held as the pending low half of the access path. (R15) Access path, device address, value. -/
  | writeLo (path addr v : Nat)
  /-- A write of a 64-bit _HI register applies the whole value, using the path's pending low half or the current one. (R15) Access path, device address, value. -/
  | writeHi (path addr v : Nat)
  /-- A read of a read-to-clear field returns it and clears it, keeping events that arrive during the read for the next read. (R11) Access path, device address. -/
  | rcRead (path addr : Nat)
  /-- Power-on reset release resets the POR domain and starts stage 0: boot count, key derivation, key store root, stage 1 selection, KEYLOCK and hand-over. (R502) Whether CK_FLASH is present; size of the external flash by its SFDP table, 0 unreadable. -/
  | powerOnReset (clk : Bool) (size : Nat)
  /-- A Peing link completes hardware training and enters UP or DEGRADED. (R576) Dies `a` and `b`, spares that training has used. -/
  | peingLinkTrained (a b spares : Nat)
  /-- A Peing link that has not left DOWN 1 ms after reset release enters FAILED. (R576) Dies `a` and `b`. -/
  | peingTrainTimeout (a b : Nat)
  /-- A Peing link end receives a correctable wire error, counts it and checks the group's threshold. (R23) Received at die `a` from die `b` on wire group `g`. -/
  | peingCorrectableError (a b g : Nat)
  /-- A wire group shows an uncorrectable error or stops handshaking, and moves to a spare or fails the link. (R576) Seen at die `a` on wire group `g` from die `b`. -/
  | peingWireFault (a b g : Nat)
  /-- A parity or ECC fault in a cell is corrected and the operation retried, or passed to the block. (R28) Region `n`, block `b` (0 to 15 cells, above: an engine), cell `c`, whether the fault is uncorrectable, whether the operation has not faulted before, packet `h` in it plus 1 or 0. -/
  | cellFault (n b c : Nat) (uncorrectable fresh : Bool) (h : Nat)
  /-- A region or island voltage moves one step of at most 10 mV toward its target. (R52) Island `k`: 0 to 7 regions, 8 to 11 the common islands of FBD0 to FBD3, 12 to 14 those of IOD0, IOD1 and TMD. -/
  | voltageStep (k : Nat)
  /-- A clock domain shows no edge for its timeout, is marked absent, sets its lost bit and triggers its domain's loss handling. (R61) Clock domain of Table CLK-3, die. -/
  | clockAbsent (k d : Nat)
  /-- A clock domain completes 64 good periods and is marked present. (R61) Clock domain, die, whether the periods are those of 20 MHz (CK_OSC). -/
  | clockPresent (k d : Nat) (hz20 : Bool)
  /-- An access to an island whose clock stays absent for 10 µs ends, reading 0, and is logged CLOCK_ABSENT. (R70) Access path. -/
  | clockAccessTimeout (path : Nat)
  /-- At each 1 ms of DTS a region measures its speed, voltage and temperature into XD_SPEED. (R73) Region `n`, what it measures: relative speed in 1/2,048, junction temperature in 0.25 °C. -/
  | regionSpeedMeasure (n rel tj : Nat)
  /-- A core reads its time CSR, obtaining its die's replica DT64. (R71) Hart, pipeline advances and retired instructions since its last read. -/
  | timeCsrRead (h adv ret : Nat)
  /-- Every 1 µs the TDC measures B minus A, and a divergence beyond 2 ns enters FAULT. (R81) B minus A in 0.0625 ns. -/
  | abDiffMeasure (diff : Int)
  /-- When a die's CK_TS replica returns, its counter is realigned to counter A without ever decreasing. (R82) Die. -/
  | replicaRealign (d : Nat)
  /-- A reference measurement arrives and is judged valid or outlier, updating qualification. (R86) Reference `n`; `off` DTS minus reference in 2^-16 ns, or a frequency in 10^-12; what PTP firmware knows of the parent, its measurement rate in mHz; whether a step can be applied to both counters. -/
  | referenceMeasurement (n : Nat) (off : Int) (parent : Bool) (gm : Nat) (steps : Nat) (utc : Nat) (rate : Nat) (both : Bool)
  /-- An expected reference measurement fails to arrive, counting toward disqualification. (R86) Reference `n`. -/
  | measurementMissing (n : Nat)
  /-- A better reference stays qualified for wtr_s with revertive set and is selected. (R87) Reference `n`. -/
  | wtrExpiry (n : Nat)
  /-- A slew applies its whole offset and u_slew falls to 0. (R88) -/
  | slewComplete
  /-- A write of TS_TOD_SET_UNC loads TS_TOD_SET as a step in FREERUN, or is ignored and counted otherwise. (R90) The written unc16; whether the step can be applied to both counters. -/
  | tsTodSetUnc (unc : Nat) (both : Bool)
  /-- A write that changes servo_en starts or stops discipline as the state table states. (R90) The word written to TS_CTRL; whether a step can be applied to both counters. -/
  | servoEnWrite (v : Nat) (both : Bool)
  /-- fault_resolve 0b01 in FAULT copies counter A into B and returns to FREERUN. (R92) -/
  | faultResolveAToB
  /-- fault_resolve 0b10 in FAULT copies counter B into A as a step and returns to FREERUN. (R92) -/
  | faultResolveBToA
  /-- Every 1 ms in HOLDOVER or FREERUN the device recomputes U_DTS with the holdover growth term. (R104) -/
  | uncUpdateTick
  /-- U_DTS exceeds holdover_max in HOLDOVER and the state becomes FREERUN. (R90) -/
  | holdoverMaxReached
  /-- At each second of holdover the predicted frequency f0 + D·t is applied. (R102) -/
  | holdoverFreqUpdate
  /-- A write changing TS_OSC_CFG mode to EXT_OCXO starts the DAC at code 2^19. (R97) The word written to TS_OSC_CFG. -/
  | oscModeWrite (v : Nat)
  /-- Every 64 s while LOCKED the frequency correction is sampled and the ageing fit updated. (R101) -/
  | learnSample
  /-- After 6 h of continuous LOCKED the learned ageing rate becomes valid. (R101) -/
  | learnValid
  /-- Counter A reaches a second boundary by running and a PERIODIC amber record is issued. (R108) -/
  | periodic
  /-- A signed amber record is written to the time ring, or counted in ring_drops when full. (R112) -/
  | amberRingDeliver
  /-- A signed amber record is programmed into the log, erasing the oldest sector first. (R112) -/
  | amberLogProgram
  /-- A write requests a record from the log, placed byte-identical in the ring or setting fetch_miss. (R116) The seq written. -/
  | tsAmberFetch (seq : Nat)
  /-- A write of TS_CHAIN_DIGEST[11] makes the digest effective and issues a REFERENCE_CHANGE record. (R108) The word written. -/
  | chainDigestCommit (v : Nat)
  /-- The TSU starts calibration of a port's TDCs and lane skew at link-up or every 60 s. (R120) IOD `d`, port `p`. -/
  | tsuCalibrate (d p : Nat)
  /-- A port's calibration completes and cal_done sets. (R120) IOD `d`, port `p`, the largest skew removed. -/
  | tsuCalibrationDone (d p skew : Nat)
  /-- A launch-requested frame reaches the gate and is held, sent late or dropped. (R132) IOD `d`, port `p`, packet `h`. -/
  | launchGateArrival (d p h : Nat)
  /-- A held launch frame is released so its timestamp point crosses the reference plane at launch_dt64. (R130) IOD `d`, port `p`. -/
  | launchRelease (d p : Nat)
  /-- The host time page is updated under its generation count. (R137) Endpoint `e`. -/
  | timePageUpdate (e : Nat)
  /-- An endpoint sends a PTM request at its configured interval. (R138) Endpoint `e`. -/
  | ptmDialogueStart (e : Nat)
  /-- A PTM response arrives and the cross-timestamp pair, rate and page are formed. (R138) Endpoint `e`, the time since the request in 0.25 ns, the master times in ns. -/
  | ptmResponse (e el t2 t3 : Nat)
  /-- A PTM dialogue without response in 100 µs fails and is counted. (R139) Endpoint `e`. -/
  | ptmTimeout (e : Nat)
  /-- At a DTS second boundary an enabled PPS output raises its edge or is squelched. (R143) Output `k`. -/
  | ppsOutEdge (k : Nat)
  /-- The PPS pulse width elapses and the output falls. (R143) Output `k`. -/
  | ppsPulseEnd (k : Nat)
  /-- STAGE reads and verifies the STAGED image and loads the inactive contexts of changed regions. (R158) -/
  | stage
  /-- STAGE finishes its checks and loads, reporting changed_mask or a failure. (R158) -/
  | stageComplete
  /-- SWAP is accepted or rejected and schedules the epoch flip of the named regions. (R160) region_mask. -/
  | swap (mask : Nat)
  /-- At the swap instant the IODs flip the epoch bits, rebuilt tables and common sections go live, and the watchdog starts. (R160) -/
  | epochFlip
  /-- ROLLBACK schedules the flip back of the named regions. (R170) region_mask. -/
  | rollback (mask : Nat)
  /-- At acceptance plus 10 µs the epoch bits flip back and regions enter DRAIN_BACK. (R170) -/
  | epochFlipBack
  /-- COMMIT stops the watchdog, frees retained contexts and writes the slot directory. (R171) -/
  | commit
  /-- ABORT clears the inactive contexts of LOADED regions and returns them to STABLE. (R172) -/
  | strAbort
  /-- COLD_APPLY stops steering and dispatch and lets the regions drain. (R174) 0 STAGED, 1 PREVIOUS. -/
  | coldApply (slot : Nat)
  /-- After the drain COLD_APPLY verifies and loads the chosen image, writes the directory and resumes. (R174) -/
  | coldApplyLoad
  /-- The last packet of the draining epoch leaves a region, which advances its image state. (R165) Region `n`. -/
  | regionDrained (n : Nat)
  /-- STR_DRAIN_LIMIT expires and the remaining packets of the draining epoch are dropped. (R165) Region `n`. -/
  | drainLimitExpiry (n : Nat)
  /-- The rewrite of rebuilt tables from TABLE_INIT completes and the region returns to LOADED. (R215) Region `n`. -/
  | drainBackRewriteDone (n : Nat)
  /-- The commit watchdog expires and rolls back every region in DRAIN_FWD or SWAPPED. (R173) -/
  | commitWatchdogExpiry
  /-- The MAC takes a received frame whole, checks it, timestamps it, verifies MACsec and passes it to steering. (R271) IOD, port, DTS; symbol errors; bytes with FCS; FEC codewords since the frame before, corrected and not correctable. -/
  | frameReceive (d p at_ : Nat) (sym : Bool) (bytes : List Nat) (corr uncorr : Nat)
  /-- A region's parser walks the parse graph over a packet and fills the PHV, or fails. (R184) Region `n`, packet `h`. -/
  | packetParse (n h : Nat)
  /-- A cell executes NOP. (R152) Region `n`, cell, packet `h`. -/
  | nop (n cell h : Nat)
  /-- A cell moves operand B to the destination. (R152) Region `n`, cell, packet `h`. -/
  | mov (n cell h : Nat)
  /-- A cell adds A and B modulo 2^width. (R152) Region `n`, cell, packet `h`. -/
  | add (n cell h : Nat)
  /-- A cell subtracts B from A modulo 2^width. (R152) Region `n`, cell, packet `h`. -/
  | sub (n cell h : Nat)
  /-- A cell writes A AND B. (R152) Region `n`, cell, packet `h`. -/
  | and (n cell h : Nat)
  /-- A cell writes A OR B. (R152) Region `n`, cell, packet `h`. -/
  | or (n cell h : Nat)
  /-- A cell writes A XOR B. (R152) Region `n`, cell, packet `h`. -/
  | xor (n cell h : Nat)
  /-- A cell shifts A left by B[5:0]. (R152) Region `n`, cell, packet `h`. -/
  | shl (n cell h : Nat)
  /-- A cell shifts A right by B[5:0]. (R152) Region `n`, cell, packet `h`. -/
  | shr (n cell h : Nat)
  /-- A cell sets a predicate to A equal B. (R152) Region `n`, cell, packet `h`. -/
  | cmpEq (n cell h : Nat)
  /-- A cell sets a predicate to A less than B, unsigned. (R152) Region `n`, cell, packet `h`. -/
  | cmpLt (n cell h : Nat)
  /-- A cell writes a 32-bit hash of A with seed imm. (R152) Region `n`, cell, packet `h`. -/
  | hash (n cell h : Nat)
  /-- A cell looks up an exact-match table and writes hit, value and port to metadata. (R219) Region `n`, cell, packet `h`. -/
  | lookupEm (n cell h : Nat)
  /-- A cell searches a TCAM table, verifies the winner and writes the result. (R244) Region `n`, cell, packet `h`, units whose match rows wrongly match, units whose match rows wrongly do not. -/
  | lookupTcam (n cell h : Nat) (bad lost : List Nat)
  /-- A cell learns a key and value into a table with the outcome of the learn table. (R234) Region `n`, cell, packet `h`. -/
  | learn (n cell h : Nat)
  /-- A cell applies a two-rate three-colour meter and writes the colour. (R208) Region `n`, cell, packet `h`. -/
  | meter (n cell h : Nat)
  /-- A cell sends the packet to a core punt queue. (R413) Region `n`, cell, packet `h`. -/
  | punt (n cell h : Nat)
  /-- A cell drops the packet with a reason code. (R152) Region `n`, cell, packet `h`. -/
  | drop (n cell h : Nat)
  /-- A cell sets the packet's egress destination in metadata. (R296) Region `n`, cell, packet `h`. -/
  | forward (n cell h : Nat)
  /-- A cell sets the packet's ts_op and PTP header offset. (R152) Region `n`, cell, packet `h`. -/
  | setTsOp (n cell h : Nat)
  /-- A cell executes SET_EPOCH_HINT as NOP. (R152) Region `n`, cell, packet `h`. -/
  | setEpochHint (n cell h : Nat)
  /-- A tree-walk stage walks a decision tree or follows the fragment table and writes the class result. (R192) Region `n`, packet `h`. -/
  | treeWalk (n h : Nat)
  /-- An automata stage scans the packet with a pattern set, or hands it to a core in bypass. (R258) Region `n`, packet `h`. -/
  | automataScan (n h : Nat)
  /-- A region cipher block encrypts or decrypts work, or ends it without output on failure. (R392) Region, packet, slot; encrypt; byte range, nonce, additional data; fault_check agrees. -/
  | cipherOperation (n h slot : Nat) (enc : Bool) (off len : Nat) (nonce aad : List Nat) (agree : Bool)
  /-- A packet leaves its pipeline, takes its disposition or default action, and records fragment entries. (R194) Region `n`, packet `h`. -/
  | pipelineExit (n h : Nat)
  /-- Punt buckets are recomputed and filled after a change of online regions or CLS_PUNT_RATE. (R196) -/
  | puntBucketRecompute
  /-- A CLS_ register write on the CTD is copied to every fabric region. (R199) Region `n`. -/
  | clsRegisterPropagate (n : Nat)
  /-- A held non-first fragment reaches hold_us and is walked on outer fields. (R204) Region `n`, packet `h`. -/
  | fragHoldExpiry (n h : Nat)
  /-- A fragment table entry reaches its lifetime and is removed. (R205) Region `n`, digest of the entry's key. -/
  | fragEntryExpiry (n dig : Nat)
  /-- A write to a policer's PBS word applies the instance and fills both buckets. (R211) Region `n`, policer `k`, the PBS word written. -/
  | policerApply (n k v : Nat)
  /-- The background scanner visits entries and deletes those older than max_age. (R223) Table `t`, place (region, or 8 + stack), slot. -/
  | ageingScan (t pl slot : Nat)
  /-- SEARCH returns an entry's header and value. (R231) Channel `c`, table `t`. -/
  | exmSearch (c t : Nat)
  /-- INSERT places a key, displacing entries if needed, or fails with NO_ROOM. (R224) Channel `c`, table `t`. -/
  | exmInsert (c t : Nat)
  /-- UPDATE replaces an entry's value, static and port. (R231) Channel `c`, table `t`, clear_moves. -/
  | exmUpdate (c t : Nat) (clearMoves : Bool)
  /-- DELETE removes an entry. (R231) Channel `c`, table `t`. -/
  | exmDelete (c t : Nat)
  /-- NEXT returns the next valid entry from the cursor. (R233) Channel `c`, table `t`. -/
  | exmNext (c t : Nat)
  /-- FLUSH_BY_PORT deletes entries learned on a port. (R232) Channel `c`, table `t`, include_static. -/
  | flushByPort (c t : Nat) (static : Bool)
  /-- FLUSH_BY_TENANT deletes entries of a tenant. (R232) Channel `c`, table `t`, include_static. -/
  | flushByTenant (c t : Nat) (static : Bool)
  /-- SHADOW_OPEN allocates a shadow instance with new seeds and size. (R227) Channel `c`, table `t`. -/
  | shadowOpen (c t : Nat)
  /-- SHADOW_COPY copies up to 4,096 entries into the shadow. (R228) Channel `c`, table `t`. -/
  | shadowCopy (c t : Nat)
  /-- SHADOW_SWAP makes the shadow live at one instant. (R229) Channel `c`, table `t`. -/
  | shadowSwap (c t : Nat)
  /-- SHADOW_DISCARD frees the shadow and stops mirroring. (R231) Channel `c`, table `t`. -/
  | shadowDiscard (c t : Nat)
  /-- A damping record lapses after damp_us. (R235) Place (region, or 8 + stack); (table × 2 + instance) × 2^224 + key. -/
  | dampingRecordExpiry (pl i : Nat)
  /-- A TCAM SEARCH command returns the winner from the home replica. (R250) Channel `c`, table `t`, units whose match rows wrongly match, units whose match rows wrongly do not. -/
  | tcmSearch (c t : Nat) (bad lost : List Nat)
  /-- STEP returns the next match after the cursor. (R251) Channel `c`, table `t`, units whose match rows wrongly match, units whose match rows wrongly do not. -/
  | tcmStep (c t : Nat) (bad lost : List Nat)
  /-- WRITE makes a new entry valid after both copies are written. (R250) Channel `c`, table `t`. -/
  | tcmWrite (c t : Nat)
  /-- UPDATE changes an entry's priority and result. (R250) Channel `c`, table `t`. -/
  | tcmUpdate (c t : Nat)
  /-- INVALIDATE removes an entry and cancels a repair. (R250) Channel `c`, table `t`. -/
  | tcmInvalidate (c t : Nat)
  /-- READ returns an entry's ECC copy and status. (R250) Channel `c`, table `t`. -/
  | tcmRead (c t : Nat)
  /-- MOVE copies an entry to a new unit and invalidates the original. (R252) Channel `c`, table `t`. -/
  | tcmMove (c t : Nat)
  /-- A quarantined entry is rewritten and read back, cleared or marked stuck. (R248) Region `n`, unit `u`, whether the row reads back as its copy, whether the copy has an uncorrectable error. -/
  | tcamRepair (n u : Nat) (agree copyBad : Bool)
  /-- LOAD_SET reads, checks and loads a pattern set as the staged version. (R256) Channel `c`, set, region_mask. -/
  | loadSet (c set mask : Nat)
  /-- ACTIVATE_SET schedules the staged version to become active. (R257) Channel `c`, set. -/
  | activateSet (c set : Nat)
  /-- At acceptance plus 10 µs the staged set version becomes active. (R257) Set. -/
  | setActivation (set : Nat)
  /-- DELETE_SET removes both versions of a set in the named regions. (R257) Channel `c`, set, region_mask. -/
  | deleteSet (c set mask : Nat)
  /-- SCAN scans HBM data with a set and writes report records. (R262) Channel `c`, set, region_mask. -/
  | patScan (c set mask : Nat)
  /-- An automata engine fails; the other serves, or the region enters bypass. (R263) Region `n`, engine `e`. -/
  | patEngine (n e : Nat)
  /-- A write of ETH_MODE changes the IOD port mode when all ports are DISABLED, or sets mode_rejected. (R267) IOD, word written. -/
  | ethModeWrite (d v : Nat)
  /-- enable written 1 starts auto-negotiation or training. (R269) IOD, port. -/
  | portEnable (d p : Nat)
  /-- enable written 0 discards the MAC transmit buffer and turns lanes off. (R269) IOD, port. -/
  | portDisable (d p : Nat)
  /-- Block lock, alignment and FEC lock bring a port UP and start calibration. (R269) IOD, port. -/
  | portLinkUp (d p : Nat)
  /-- No lock within 500 ms counts train_fail and restarts training. (R269) IOD, port. -/
  | trainingTimeout (d p : Nat)
  /-- Loss of lock, excess uncorrectable codewords or local fault takes the port DOWN. (R269) IOD, port. -/
  | linkFault (d p : Nat)
  /-- Received remote fault takes the port DOWN and holds its frames. (R269) IOD, port. -/
  | remoteFault (d p : Nat)
  /-- After 10 ms DOWN without fault the port retrains. (R269) IOD, port. -/
  | downRetrain (d p : Nat)
  /-- A received PAUSE or PFC frame stops the named classes for the given quanta. (R272) IOD, port, DTS; PFC or PAUSE, class mask, quanta. -/
  | pfcReceive (d p at_ : Nat) (pfc : Bool) (mask : Nat) (quanta : List Nat)
  /-- A flow-control stop's quanta elapse and the class resumes. (R272) IOD, port, class. -/
  | pauseExpiry (d p c : Nat)
  /-- Every 20 µs above threshold the device repeats its XOFF frame. (R274) IOD, port, class. -/
  | pfcRefresh (d p c : Nat)
  /-- The MAC starts a frame once enough is buffered, applying egress timestamp and one-step correction. (R276) IOD, port, DTS. -/
  | macFrameStart (d p at_ : Nat)
  /-- A started frame runs out of data, ends with a bad FCS and raises the start threshold. (R278) IOD, port, bytes sent, DTS. -/
  | txUnderrun (d p k at_ : Nat)
  /-- A write of reset_thr sets the port's start threshold to 4. (R279) IOD, port. -/
  | resetThr (d p : Nat)
  /-- Setting an SA valid loads its key over the key bus. (R281) IOD, port, SA. -/
  | saValidWrite (d p a : Nat)
  /-- A wake-link frame is examined and a match drives PEn_WAKE_N low. (R287) IOD; bytes with FCS. -/
  | wakeFrameReceive (d : Nat) (bytes : List Nat)
  /-- The NC-SI package answers a command from the management controller. (R290) Control packet from its header to its checksum. -/
  | ncsiCommand (b : List Nat)
  /-- A frame from the management controller enters a port's MAC between frames. (R291) Channel, DTS; bytes without FCS. -/
  | ncsiFrameTransmit (n at_ : Nat) (b : List Nat)
  /-- A port's scheduler picks a frame down the hierarchy and charges deficits, tokens and energy. (R301) IOD, port. -/
  | schedulerDispatch (d p : Nat)
  /-- A write of a node's pbs word applies its shaper configuration and resets its buckets. (R303) IOD, node, word written. -/
  | shaperApply (d n v : Nat)
  /-- A port out of UP for down_hold_ms discards its queued frames. (R307) IOD, port. -/
  | downHoldExpiry (d p : Nat)
  /-- At each sampling period the IOD writes sample records for enabled queues. (R309) IOD. -/
  | queueSample (d : Nat)
  /-- At the end of each 10 µs epoch the reconciler updates debts and region quanta. (R312) -/
  | reconcilerEpoch
  /-- CREATE loads a connection record and makes the context ACTIVE. (R321) Channel `ch`, context `c`. -/
  | silCreate (ch c : Nat)
  /-- MODIFY applies modifiable fields between packets. (R321) Channel `ch`, context `c`. -/
  | silModify (ch c : Nat)
  /-- DESTROY stops sending and completes incomplete messages with FLUSHED. (R340) Channel `ch`, context `c`. -/
  | silDestroy (ch c : Nat)
  /-- Once no packet of a destroyed connection remains, its store entries are released and it becomes FREE. (R340) Context. -/
  | connectionRelease (c : Nat)
  /-- QUERY returns a connection record and state. (R321) Channel `ch`, context `c`. -/
  | silQuery (ch c : Nat)
  /-- An uncached connection context finishes loading from HBM, evicting the least recently used. (R320) Region, context. -/
  | contextCacheFill (n c : Nat)
  /-- The transport block forms and sends the next packet of a connection on its next allowed path. (R323) Context, DTS, fault_check agrees. -/
  | sillagePacketSend (c at_ : Nat) (agree : Bool)
  /-- A received Sillage packet is accepted, key-checked and placed, or dropped, and completion is tracked. (R328) Region, packet, fault_check agrees. -/
  | sillagePacketReceive (n h : Nat) (agree : Bool)
  /-- A RoCEv2 packet is steered by QPN and processed under the RC subset. (R344) Region, packet. -/
  | rocePacketReceive (n h : Nat)
  /-- ack_delay after the first unacknowledged acceptance the receiver sends an ACK. (R332) Context. -/
  | ackDelayExpiry (c : Nat)
  /-- The sender processes an ACK: delay samples, rate control and loss detection. (R335) Region, packet, fault_check agrees. -/
  | ackReceive (n h : Nat) (agree : Bool)
  /-- The sender acts on a NAK syndrome: retry, fail or resend later. (R339) Region, packet, fault_check agrees. -/
  | nakReceive (n h : Nat) (agree : Bool)
  /-- A path's retransmission timeout expires; its outstanding packets are lost and its rate halves. (R333) Context, path. -/
  | retransmitTimeout (c k : Nat)
  /-- retry_us after a RETRY_AFTER or NO_RECV_BUF NAK the sender resends. (R355) Context, PSN. -/
  | retryAfterResend (c psn : Nat)
  /-- Every probe_ms a retired path receives a PROBE. (R333) Context, path, fault_check agrees. -/
  | probe (c k : Nat) (agree : Bool)
  /-- Every base_window_ms each path's delay bases roll over. (R335) Context. -/
  | baseWindowRoll (c : Nat)
  /-- REGISTER writes a key record and makes it VALID. (R350) Channel, key index, variant. -/
  | registerMkey (ch k v : Nat)
  /-- INVALIDATE_MKEY sets revoke_at to acceptance plus 2 µs. (R357) Channel, key index, variant. -/
  | invalidateMkey (ch k v : Nat)
  /-- At revoke_at every region treats the key as INVALID. (R357) Key index. -/
  | revokeAt (k : Nat)
  /-- Once admitted writes are issued, INVALIDATE_MKEY completes and translations are dropped. (R359) Key index. -/
  | mkeyInvalidateComplete (k : Nat)
  /-- QUERY returns a key record. (R349) Channel, key index. -/
  | mkyQuery (ch k : Nat)
  /-- PREFETCH obtains translations for a range of a paged key. (R349) Channel, key index, variant. -/
  | prefetch (ch k v : Nat)
  /-- A missed key record finishes loading into the region cache. (R346) Region, key index. -/
  | keyRecordFill (n k : Nat)
  /-- An ATS translation returns and waiting work proceeds or faults. (R352) Endpoint, function, PASID plus 1 or 0, page number; translated page number, permission (bit 0 read, bit 1 write; 0 not present). -/
  | atsTranslationComplete (e f pasid page addr perm : Nat)
  /-- An ATS invalidation request drops translations and completes after their users are issued. (R352) Endpoint, function, PASID plus 1 or 0, first page, pages. -/
  | atsInvalidation (e f pasid page n : Nat)
  /-- A PRI page response arrives and the page is translated again or waiting operations fail. (R353) Endpoint, function, PASID plus 1 or 0, page; response code: 0 Success, 1 Invalid Request, 15 Response Failure. -/
  | priResponse (e f pasid page code : Nat)
  /-- A page request without response in pri_timeout_ms fails as Invalid Request. (R353) Endpoint, function, PASID plus 1 or 0, page. -/
  | priTimeout (e f pasid page : Nat)
  /-- BE_CREATE writes a backend record and firmware connects its queues. (R367) Channel, index. -/
  | beCreate (ch b : Nat)
  /-- BE_DESTROY disconnects and frees a backend's queues. (R365) Channel, index. -/
  | beDestroy (ch b : Nat)
  /-- NS_CREATE writes a namespace record. (R369) Channel, index. -/
  | nsCreate (ch n : Nat)
  /-- NS_DELETE frees a namespace record. (R365) Channel, index. -/
  | nsDelete (ch n : Nat)
  /-- NS_ATTACH makes a namespace visible to a controller. (R365) Channel, index. -/
  | nsAttach (ch n : Nat)
  /-- NS_DETACH removes a namespace from a controller and completes after its fetched commands. (R370) Channel, index. -/
  | nsDetach (ch n : Nat)
  /-- QUERY returns a backend or namespace record. (R365) Channel, index. -/
  | nveQuery (ch n : Nat)
  /-- CC.EN written 1 sets CSTS.RDY once the device and controller are ready. (R363) Controller, value of CC. -/
  | controllerEnable (k cc : Nat)
  /-- CC.EN cleared stops fetching, removes unsent commands and waits for sent ones. (R379) Controller. -/
  | controllerReset (k : Nat)
  /-- reset_limit_ms elapses; outstanding commands are discarded and CSTS.RDY clears. (R379) Controller. -/
  | resetLimitExpiry (k : Nat)
  /-- CC.SHN stops fetching, completes commands and flushes namespaces. (R382) Controller, 1 normal or 2 abrupt. -/
  | controllerShutdown (k n : Nat)
  /-- The ring fetch engine fetches a submission queue entry and numbers it. (R371) Controller. -/
  | nvmeFetch (k : Nat)
  /-- Create I/O Submission Queue admin command. (R362) Command number. -/
  | createIoSq (id : Nat)
  /-- Delete I/O Submission Queue admin command. (R362) Command number. -/
  | deleteIoSq (id : Nat)
  /-- Create I/O Completion Queue admin command. (R362) Command number. -/
  | createIoCq (id : Nat)
  /-- Delete I/O Completion Queue admin command. (R362) Command number. -/
  | deleteIoCq (id : Nat)
  /-- Get Log Page admin command. (R362) Command number. -/
  | getLogPage (id : Nat)
  /-- Identify admin command. (R362) Command number. -/
  | identify (id : Nat)
  /-- Abort removes a command not yet sent, or reports it not caught. (R378) Command number of the Abort. -/
  | nvmeAbort (id : Nat)
  /-- Set Features admin command. (R362) Command number. -/
  | setFeatures (id : Nat)
  /-- Get Features admin command. (R362) Command number. -/
  | getFeatures (id : Nat)
  /-- Asynchronous Event Request admin command. (R362) Command number. -/
  | asynchronousEventRequest (id : Nat)
  /-- Firmware Image Download on PF1, or Invalid Command Opcode on VFs. (R364) Command `id`. -/
  | firmwareImageDownload (id : Nat)
  /-- Firmware Commit verifies and writes a stage 2 slot, activating it for action 011b. (R520) Command `id`. -/
  | firmwareCommit (id : Nat)
  /-- All fetched commands complete within 600 ms and stage 2 is activated. (R383) -/
  | activationDrainDone
  /-- Commands remain at 600 ms; activation is abandoned with status 0x12. (R383) -/
  | activationDrainTimeout
  /-- Flush waits for covered commands and then flushes each backend namespace. (R377) Command number. -/
  | nvmeFlush (id : Nat)
  /-- Write command enters the storage command path. (R374) Command number. -/
  | nvmeWrite (id : Nat)
  /-- Read command enters the storage command path. (R374) Command number. -/
  | nvmeRead (id : Nat)
  /-- Write Zeroes, as encrypted zero blocks when xts is 1. (R385) Command number. -/
  | writeZeroes (id : Nat)
  /-- Dataset Management deallocate. (R362) Command number. -/
  | datasetManagement (id : Nat)
  /-- A command's data is staged and it enters the overlap check. (R374) Command number, fault_check agrees. -/
  | commandStaged (id : Nat) (agree : Bool)
  /-- A backend response arrives; data is written and the CQE posted, releasing waiting commands. (R374) Backend, queue; over TCP: tag, status type and code, dword 0, data; fault_check agrees. -/
  | backendResponse (b q tag status dw0 : Nat) (agree : Bool) (data : List Nat)
  /-- No backend response in io_timeout_ms resends the command or fails it. (R374) Command number. -/
  | backendTimeout (id : Nat)
  /-- GENERATE fills an empty slot from the DRBG. (R399) Channel, tenant. -/
  | generate (ch t : Nat)
  /-- UNWRAP unwraps key material into an empty slot. (R400) Channel, tenant. -/
  | unwrap (ch t : Nat)
  /-- DERIVE derives a key into an empty slot. (R399) Channel, tenant. -/
  | derive (ch t : Nat)
  /-- DESTROY clears a slot and evicts its key from every engine. (R401) Channel, tenant. -/
  | keyDestroy (ch t : Nat)
  /-- QUERY returns a slot's attr. (R399) Channel, tenant. -/
  | keyQuery (ch t : Nat)
  /-- MAC computes AES-CMAC over HBM data. (R400) Channel, tenant. -/
  | keyMac (ch t : Nat)
  /-- ZEROISE_TENANT destroys every slot of a tenant, with presence only. (R402) Channel, tenant; issued by the Onyx gate. -/
  | keyZeroiseTenant (ch t : Nat) (gate : Bool)
  /-- A key transfer over the key bus completes into a cipher block cache. (R398) Region, slot; transfer intact. -/
  | keyLoad (n k : Nat) (ok : Bool)
  /-- Every 1 ms the CTR_DRBG is reseeded from the entropy source. (R390) -/
  | drbgReseed
  /-- A write of COR_IPI sets an identity pending in a core's file. (R410) The fields written to COR_IPI. -/
  | corIpi (hart file identity : Nat)
  /-- A write of a core queue's cons advances it and may arm the interrupt. (R414) Region `n`, queue `q`, the word written. -/
  | queueConsWrite (n q v : Nat)
  /-- A read of COR_PKT_ALLOC allocates a span to firmware. (R415) Region `n`. -/
  | corPktAlloc (n : Nat)
  /-- An INJECT descriptor returns a packet to a pipeline. (R416) Region `n`, core `i`. -/
  | inject (n i : Nat)
  /-- A SEND descriptor enqueues a frame as FORWARD does. (R416) Region `n`, core `i`. -/
  | injSend (n i : Nat)
  /-- A FREE descriptor frees a span. (R416) Region `n`, core `i`. -/
  | injFree (n i : Nat)
  /-- SCAN_DONE resumes a bypassed packet after its automata stage. (R416) Region `n`, core `i`. -/
  | scanDone (n i : Nat)
  /-- run written 1 starts a core at entry. (R417) Region `n`, core `i`. -/
  | coreRun (n i : Nat)
  /-- halt_req stops a core at the next instruction boundary. (R417) Region `n`, core `i`. -/
  | haltReq (n i : Nat)
  /-- A halting core completes accesses and write-back and becomes HALTED. (R417) Region `n`, core `i`. -/
  | coreHalted (n i : Nat)
  /-- run written 0 in HALTED clears the core to RESET. (R417) Region `n`, core `i`. -/
  | coreReset (n i : Nat)
  /-- time reaches a compare value and the timer interrupt becomes pending. (R408) Hart `h`, compare value `k` (0 mtimecmp, 1 stimecmp, 2 vstimecmp), what the hart has written to that CSR (unused for mtimecmp). -/
  | timerInterrupt (h k v : Nat)
  /-- A configuration request is answered, with Request Retry Status before cfg_ready. (R423) Endpoint, function, offset of the word, write or read, value and byte enables of a write, bus number of the request. -/
  | configRequest (e f off : Nat) (write : Bool) (v be bus : Nat)
  /-- A host memory request to a BAR takes effect or completes as Unsupported Request. (R428) Endpoint, Routing ID of the requester, function, BAR number (0, 2, 4), write or read, offset, length in bytes, the bytes of a write. -/
  | barRequest (e rid f b : Nat) (write : Bool) (o len : Nat) (data : List Nat)
  /-- A read of the expansion ROM BAR returns the flash image. (R427) Endpoint `e`, PF `f`, offset in the window, length. -/
  | expansionRomRead (e f off len : Nat)
  /-- Clearing Bus Master Enable stops the function's requests and its rings. (R436) Endpoint `e`, function `f`. -/
  | bmeClear (e f : Nat)
  /-- Setting Bus Master Enable sends pending unmasked MSI-X vectors. (R436) Endpoint `e`, function `f`. -/
  | bmeSet (e f : Nat)
  /-- Initiating FLR stops the function and applies its reset effects. (R438) Endpoint `e`, function `f`. -/
  | flr (e f : Nat)
  /-- The FLR completes and Function Readiness Status is sent. (R438) Endpoint `e`, function `f`. -/
  | flrComplete (e f : Nat)
  /-- Clearing VF Enable acts on every VF as FLR. (R439) Endpoint `e`, PF `f`. -/
  | vfEnableClear (e f : Nat)
  /-- A PF enters D3hot with the effects of clearing bus mastering. (R440) Endpoint `e`, PF `f`. -/
  | d3hotEntry (e f : Nat)
  /-- A PF returns to D0 keeping its state and sends FRS. (R440) Endpoint `e`, PF `f`. -/
  | d0Return (e f : Nat)
  /-- A completion for a device read arrives and is matched, failed or discarded as late or flushed. (R433) Endpoint `e`, tag, completion status as PCIe numbers it, poisoned, the bytes. -/
  | completionReceive (e tag status : Nat) (poison : Bool) (data : List Nat)
  /-- A non-posted request times out, fails its operation and quarantines its tag. (R433) Endpoint `e`, tag. -/
  | completionTimeout (e tag : Nat)
  /-- quarantine_ms after a timeout the tag becomes free. (R434) Endpoint `e`, tag. -/
  | tagQuarantineExpiry (e tag : Nat)
  /-- Loss of the data link resets every function of the endpoint as FLR. (R441) Endpoint `e`. -/
  | dlDown (e : Nat)
  /-- The link comes up; configuration answers and a pending PME is sent. (R440) Endpoint `e`, the link's speed code and lanes, FLIT mode, whether the partner has DRS enabled. -/
  | dlUp (e speed width : Nat) (flit drs : Bool)
  /-- PEn_PERST_N asserted acts as DL_Down and holds the link in reset. (R441) Endpoint `e`. -/
  | perstAssert (e : Nat)
  /-- PEn_PERST_N deasserted starts link training. (R441) Endpoint `e`. -/
  | perstDeassert (e : Nat)
  /-- SPDM GET_VERSION request. (R443) Endpoint `e`. -/
  | getVersion (e : Nat)
  /-- SPDM GET_CAPABILITIES request. (R443) Endpoint `e`, parameters, bytes after the header. -/
  | getCapabilities (e p1 p2 : Nat) (data : List Nat)
  /-- SPDM NEGOTIATE_ALGORITHMS request. (R443) Endpoint `e`, parameters, bytes after the header. -/
  | negotiateAlgorithms (e p1 p2 : Nat) (data : List Nat)
  /-- SPDM GET_DIGESTS request. (R443) Endpoint `e`, session plus 1 or 0. -/
  | getDigests (e ss : Nat)
  /-- SPDM GET_CERTIFICATE request. (R443) Endpoint `e`, session plus 1 or 0, parameters, bytes after the header. -/
  | getCertificate (e ss p1 p2 : Nat) (data : List Nat)
  /-- SPDM CHALLENGE request. (R443) Endpoint `e`, parameters, bytes after the header. -/
  | challenge (e p1 p2 : Nat) (data : List Nat)
  /-- SPDM GET_MEASUREMENTS returns the measurement blocks. (R523) Endpoint `e`, session plus 1 or 0, parameters, bytes after the header. -/
  | getMeasurements (e ss p1 p2 : Nat) (data : List Nat)
  /-- SPDM KEY_EXCHANGE request. (R443) Endpoint `e`, parameters, bytes after the header. -/
  | keyExchange (e p1 p2 : Nat) (data : List Nat)
  /-- SPDM FINISH request. (R443) Endpoint `e`, session plus 1, parameters, bytes after the header. -/
  | spdmFinish (e ss p1 p2 : Nat) (data : List Nat)
  /-- SPDM HEARTBEAT request. (R443) Endpoint `e`, session plus 1. -/
  | heartbeat (e ss : Nat)
  /-- SPDM KEY_UPDATE request. (R443) Endpoint `e`, session plus 1, operation, tag. -/
  | keyUpdate (e ss p1 p2 : Nat)
  /-- SPDM END_SESSION request. (R443) Endpoint `e`, session plus 1. -/
  | endSession (e ss : Nat)
  /-- A TLP failing IDE integrity is discarded and its stream goes Insecure. (R444) Endpoint `e`, stream: 0 Link, 1 to 4 Selective. -/
  | ideCheckFailed (e stream : Nat)
  /-- A work ring doorbell sets tail. (R449) Endpoint, ring, value. -/
  | doorbellTail (e r v : Nat)
  /-- A CPL or EVT doorbell sets cons and optionally arm, draining overflow. (R449) Endpoint, ring, value. -/
  | doorbellCons (e r v : Nat)
  /-- enable written 1 enables a ring whose configuration is consistent. (R447) Endpoint, ring. -/
  | ringEnable (e r : Nat)
  /-- enable written 0 discards unstarted descriptors and publishes head. (R460) Endpoint, ring. -/
  | ringDisable (e r : Nat)
  /-- A write of RNG_FN_MAP assigns a ring range or sets map_err. (R446) Endpoint, function, ring_base, ring_count. -/
  | fnMapWrite (e f base count : Nat)
  /-- The ring fetch engine runs a weighted round robin round and dispatches descriptors. (R451) IOD. -/
  | ringFetch (e : Nat)
  /-- A descriptor's dispatch over the I/O link completes and it is started. (R452) Endpoint, ring. -/
  | descriptorStart (e r : Nat)
  /-- A frame addressed to an RX ring is written to posted buffers or dropped. (R455) Packet. -/
  | hostRxPlace (h : Nat)
  /-- A completion is written to its CPL ring or held in overflow. (R456) Endpoint, work ring. -/
  | completionPost (e r : Nat)
  /-- stall_ms expires on a PAUSED CPL ring, which enters ERROR. (R459) Endpoint, CPL ring. -/
  | completionStallTimeout (e c : Nat)
  /-- mod_time elapses on an armed ring and its interrupt is sent. (R462) Endpoint, ring. -/
  | moderationTimer (e r : Nat)
  /-- CREATE checks, zeroes windows and makes a tenant ACTIVE. (R472) Tenant `t`. -/
  | tenCreate (t : Nat)
  /-- MODIFY changes an ACTIVE tenant's record. (R474) Tenant `t`. -/
  | tenModify (t : Nat)
  /-- DESTROY zeroes windows and frees a tenant. (R476) Tenant `t`. -/
  | tenDestroy (t : Nat)
  /-- RESUME returns a FATAL tenant to ACTIVE. (R472) Tenant `t`. -/
  | tenResume (t : Nat)
  /-- FORCE_FATAL makes a tenant FATAL and contains it. (R475) Tenant `t`. -/
  | forceFatal (t : Nat)
  /-- QUERY copies a tenant record to TEN_REC. (R472) Tenant `t`. -/
  | tenQuery (t : Nat)
  /-- A write of TEN_FN_OWNER changes a quiet function's owner or sets own_err. (R471) IOD `e`, function `f`, the word written. -/
  | fnOwnerWrite (e f v : Nat)
  /-- A region posts its attributed event charges to tenant accounts. (R479) Region `n`, tenant `t`, its events of the classes of Table ENGY-1, whether received traffic caused them. -/
  | chargePost (n t : Nat) (counts : List Nat) (rx : Bool)
  /-- The CTD reads regulator power and updates the correction factor k. (R483) Bit `k`: rail `k` answered with good PEC; the READ_POUT words. -/
  | pmbusRead (good : Nat) (words : List Nat)
  /-- A rail without a good read for 100 ms sets meas_stale and freezes k. (R484) Rail `k`. -/
  | meterStale (k : Nat)
  /-- Each 1 ms the planner sets region voltages and grants energy credit. (R489) Fixed terms of the overhead in an epoch, µJ. -/
  | plannerEpoch (fixed : Nat)
  /-- A region measures its ageing sentinels in an idle interval and updates the index and alert. (R496) Region `n`, unaged and measured delays of its sentinels, referred to one voltage and temperature. -/
  | ageingMeasure (n : Nat) (d0 d : List Nat)
  /-- After 24 h without an idle interval the planner holds admission for 20 µs. (R496) Region `n`. -/
  | ageingForcedIdle (n : Nat)
  /-- Every hour ageing indices and energy totals are stored in embedded flash. (R497) -/
  | persistentStateWrite
  /-- Stage 1 sets cfg_ready, loads stage 2, trains HBM and applies the structure image. (R504) -/
  | stage1Boot
  /-- Training of an HBM stack completes and hbm_trained sets. (R504) HBM stack `k`. -/
  | hbmTrained (k : Nat)
  /-- Stage 1 finishes applying ACTIVE or PREVIOUS, or sets struct_none. (R507) -/
  | structureImageApplied
  /-- Stage 2 writes fw_alive. (R504) Hart that writes fw_alive. -/
  | fwAlive (h : Nat)
  /-- All boot conditions hold and stage 1 sets device_ready. (R504) -/
  | deviceReady
  /-- fw_alive not written within 2 s; stage 1 tries the other slot or enters RECOVERY. (R506) -/
  | stage2Watchdog
  /-- A write of BOOT_ARB starts blowing rollback fuses or is rejected. (R516) The target written. -/
  | bootArb (v : Nat)
  /-- Anti-rollback fuse programming completes. (R516) -/
  | arbProgramDone
  /-- BEGIN selects and erases an invalid slot. (R518) The kind written. -/
  | recoveryBegin (kind : Nat)
  /-- CHUNK copies buffer data into the slot. (R518) -/
  | recoveryChunk
  /-- FINISH verifies the slot and resets or continues boot. (R518) -/
  | recoveryFinish
  /-- ABORT leaves the slot invalid. (R518) -/
  | recoveryAbort
  /-- A PLDM firmware update component is transferred, verified and applied. (R519) Component identifier, its bytes: the manifest in the first 64 KiB, then the image. -/
  | pldmUpdate (comp : Nat) (image : List Nat)
  /-- submit evaluates the Onyx mailbox command and executes it or opens a window. (R526) -/
  | onyxSubmit
  /-- cancel closes the Onyx window. (R526) -/
  | onyxCancel
  /-- A button press of 100 ms or a fitted jumper executes a waiting command. (R524) The jumper is fitted, the button is down, it has been down for 100 ms. -/
  | presenceEvent (jumper button press : Bool)
  /-- 60 s pass in WAIT and the command expires. (R526) -/
  | onyxWindowExpiry
  /-- DEBUG_UNLOCK sets debug_unlocked until power-on reset. (R527) -/
  | debugUnlock
  /-- REVOKE_KEY blows a boot-key slot's revocation fuse. (R527) Boot-key slot `k`. -/
  | revokeKey (k : Nat)
  /-- TRANSFER_OWNER programs the next owner slot and clears seal_broken. (R527) -/
  | transferOwner
  /-- FUSE_PROVISION programs an empty boot-key slot. (R527) Boot-key slot `k`. -/
  | fuseProvision (k : Nat)
  /-- The Onyx gate issues ZEROISE_TENANT for a tenant. (R527) Tenant `t`. -/
  | onyxZeroiseTenant (t : Nat)
  /-- A missed seal toggle sets seal_broken. (R524) -/
  | sealBreak
  /-- PWR_FAIL_N accepted parks outputs, seals the log and saves persistent state. (R561) Fuse elements blown when a BOOT_ARB program is cut short. -/
  | powerFailWarning (blown : Nat)
  /-- A main rail falls without warning and the warning actions run in the time left. (R562) Rail of Table PINS-7; whether the signed amber record and the persistent state were written in the time left; fuse elements blown. -/
  | railDrop (rail : Nat) (logged saved : Bool) (blown : Nat)
  /-- The last main rail becomes good, ending reset hold and waking PME status. (R559) -/
  | mainRailsGood
  /-- VAUX comes up and the VAUX well starts. (R565) -/
  | vauxUp
  /-- Loss of VAUX resets the VAUX well. (R565) -/
  | vauxLoss
  /-- A die exceeds 110 °C and FRUGAL range is applied. (R567) Die, temperature in 0.25 °C, two's complement. -/
  | thermalWarn (d tj : Nat)
  /-- A die falls below 100 °C and warn clears. (R567) Die, temperature in 0.25 °C, two's complement. -/
  | thermalWarnClear (d tj : Nat)
  /-- A die exceeds 120 °C, CT_THERMTRIP_N asserts and the device goes fatal. (R568) Die, temperature in 0.25 °C, two's complement. -/
  | thermtrip (d tj : Nat)
  /-- OFFLINE is accepted for a region or rejected. (R536) Region `n`, force. -/
  | regionOffline (n : Nat) (force : Bool)
  /-- At acceptance plus 10 µs the region is treated as offline everywhere. (R537) Region `n`. -/
  | regionOfflineEffective (n : Nat)
  /-- An offlining region drains or reaches drain_limit_us, writes back and starts BIST. (R541) Region `n`; after a fault, connections whose cached context could not be written back. -/
  | regionDrainDone (n : Nat) (lost : List Nat)
  /-- BIST ends and the region becomes OFFLINE or FAILED. (R539) Region `n`, cells that failed, block × 17 + cell. -/
  | regionBistEnd (n : Nat) (failed : List Nat)
  /-- ONLINE starts copying TCAM tables and pattern sets into the region. (R540) Region `n`. -/
  | regionOnline (n : Nat)
  /-- Copies complete; SHARD_EMPTY posted, redirect restored and steering resumes. (R541) Region `n`. -/
  | regionReturnComplete (n : Nat)
  /-- A TCAM bank is swapped with the shadow and tested. (R542) Region `n`, whether the bank passed, units of the entries that failed. -/
  | tcamBankTest (n : Nat) (pass : Bool) (stuck : List Nat)
  /-- A cipher datapath runs a known-answer test in an idle slot. (R543) Region 0 to 7, or 8 + IOD for its MACsec engines; whether the answer was right. -/
  | cipherKat (k : Nat) (pass : Bool)
  /-- A scrub pass over SRAM corrects single errors and poisons uncorrectable words. (R544) Die `d`; offset on the die, what was found (0 nothing, 1 a single error, 2 an uncorrectable word), and for a word its reader. -/
  | sramScrub (d o found kind x y : Nat)
  /-- A scrub pass over an HBM stack corrects single errors. (R544) Stack `k`; byte of the stack, what was found, and for a word its reader. -/
  | hbmScrub (k o found kind x y : Nat)
  /-- A pseudo-channel is retired by command or automatically. (R546) Stack, pseudo-channel. -/
  | hbmPcRetire (k pc : Nat)
  /-- The copy of a retired channel to its substitute completes and is remapped. (R547) -/
  | hbmPcSubstituteDone
  /-- TAP BYPASS instruction. (R548) -/
  | bypass
  /-- TAP IDCODE instruction. (R548) -/
  | idcode
  /-- TAP SAMPLE/PRELOAD instruction. (R548) Bits loaded into the boundary register. -/
  | samplePreload (bits : List Nat)
  /-- TAP EXTEST instruction, only below stage 2. (R548) -/
  | extest
  /-- TAP CLAMP instruction, only below stage 2. (R548) -/
  | clamp
  /-- TAP HIGHZ instruction, only below stage 2. (R548) -/
  | highz
  /-- A backend I/O queue finishes connecting (Fabrics Connect, TLS or Sillage connection), raising the backend's connected count and making the queue eligible for commands. (R365) Backend, queue, in-capsule data bytes, MAXH2CDATA. -/
  | backendQueueConnect (b q incap maxh2c : Nat)
  /-- A backend queue's transport connection is lost, so its outstanding commands are resent on another connected queue, and the device later counts a reconnection. (R374) Backend, queue. -/
  | backendQueueDisconnect (b q : Nat)
  /-- An R2T PDU from an NVMe/TCP target arrives, and the device then sends H2CData PDUs for the requested range, each no larger than MAXH2CDATA. (R368) Backend, queue; command tag, transfer tag, offset, length. -/
  | readyToTransferPdu (b q tag ttag off len : Nat)
  /-- The RFC 6298 retransmission timer of an NVMe/TCP queue connection expires and the transport block retransmits. (R368) Backend, queue. -/
  | tcpRetransmitTimeout (b q : Nat)
  /-- An IDE_KM message over a secure SPDM session programs or starts the keys of an IDE stream, re-keying a stream that was left Insecure. (R444) Endpoint `e`, session plus 1, stream, sub-stream, direction, whether the message starts the key or carries it. -/
  | ideKmKeyProgram (e ss stream su dir : Nat) (go : Bool) (key : List Nat)
  /-- A DOE Discovery request in PF0's mailbox is answered with the supported protocols. (R443) Endpoint `e`, index asked for. -/
  | doeDiscovery (e ix : Nat)
  /-- The main rails are removed in an orderly way while VAUX stays: main-rail dies are held in reset, and lane 0 of each IOD runs the wake link when wake_en is 1. (R286) -/
  | mainRailsRemoved
  /-- CT_POR_N is driven low with the rails up, putting every die into reset and its pins into the states of the 'CT_POR_N low' column. (R563) -/
  | powerOnResetAssert
deriving DecidableEq, Repr

end Sys2Proof
end

