-- ==== Sys2Proof/Decode.lean ====
section
/-! DEFINITION. Reading a command from a word. The operation table of this device gives its rows no bits (log entry 20): a
command reaches the device as a register access, a received frame or message, a pin or an event, never as an instruction
word, so no word spells one. -/

namespace Sys2Proof

/-- The command that a word of `_nbits` bits spells: none, for the table gives no row any bits. -/
def decodeTableWord (_nbits _w : Nat) : Option Instr := none

end Sys2Proof
end

