-- ==== Sys2Proof/Config.lean ====
section
/-! DEFINITION. What the spec leaves open, as constants with no body: nothing in Lean can prove a value of them.
Each is named by a log entry (notes/assumptions). -/

namespace Sys2Proof.Config

/-- The free value drawn when the state's counter of draws stands at `n` (log entry 3): a number the spec does not
state. Whoever draws it narrows it to the width of the place it fills. -/
opaque freeValue : Nat → Nat

/-- A cryptographic primitive of a published standard (FIPS 180-4 SHA-384, FIPS 186-5 ECDSA P-384, FIPS 204 ML-DSA-87,
AES in its modes, HKDF, CMAC), named by `alg`, over the byte strings given it: its output bytes (log entry 4). -/
opaque crypto : (alg : Nat) → List (List Nat) → List Nat

/-- Whether a signature or tag of algorithm `alg` over the data verifies (log entry 4). -/
opaque verifies : (alg : Nat) → List (List Nat) → Bool

/-- The 32-bit hash of the HASH opcode, of operand A with seed imm, which the spec does not give (R152; log entry 5). -/
opaque cellHash : Nat → Nat → Nat


/-- Gains of the servo's loop at a damping in thousandths and an effective bandwidth in 0.1 mHz, proportional and integral, in 2^-32 of
10^-12 per 2^-16 ns; the spec names what they follow from and not how (R94; log entry 11). -/
opaque servoGain : Nat → Nat → Nat × Nat

/-- What the DT64 counter of a die gains at the nominal rate of its CK_REF while counter A goes from one DT64 to another: how CK_REF
stands to DTS the spec leaves to the oscillator and its correction (R82; log entry 38). -/
opaque nominalGain : Nat → Nat → Nat → Nat

/-- offsetScaledLogVariance of a list of servo residuals; the spec gives no function (R84; log entry 146). -/
opaque logVariance : List Nat → Nat

/-- MAC address of a port, by IOD and port: source of the flow-control frames the device sends and of its transmit secure
channel. The spec gives a port none (log entry 36). -/
opaque portMac : Nat → Nat → Nat

/-- Quantum that rule R36 gives a tenant in a region, in bytes, before the reconciler; the spec names where it comes from and
not its measure (log entry 37). -/
opaque baseQuantum : Nat → Nat → Nat

/-- Number by which an error record names an access path; the spec names the paths without numbering them (R14, ERR_LOG; log
entry 144). -/
opaque pathNumber : Nat → Nat

/-- What a point of the test multiplexers shows at its n-th sample; for a point that counts samples, where its count stood first (R550; log
entry 165). -/
opaque observed : Nat → Nat → Nat

end Sys2Proof.Config
end

