-- ==== Sys2Proof/Machine/Bits.lean ====
section
/-! DEFINITION. Bit fields, signed readings, byte order and checksums over plain numbers. -/

namespace Sys2Proof.Machine

/-- The `w` bits of `n` from bit `lo` up. -/
def bitsOf (n lo w : Nat) : Nat := n / 2 ^ lo % 2 ^ w

/-- `n` with the `w` bits from bit `lo` up replaced by `v`. -/
def putBits (n lo w v : Nat) : Nat :=
  n % 2 ^ lo + (v % 2 ^ w) * 2 ^ lo + n / 2 ^ (lo + w) * 2 ^ (lo + w)

/-- `v` where bit `k` of `mask` is clear, 0 where it is set, over `w` bits (W1C, R9). -/
def clearBits (w v mask : Nat) : Nat := (BitVec.ofNat w v &&& ~~~ BitVec.ofNat w mask).toNat

/-- Bit `k` of `n`. -/
def bit (n k : Nat) : Bool := n.testBit k

/-- 1 for true, 0 for false. -/
def b2n (b : Bool) : Nat := if b then 1 else 0

/-- `n` with bit `k` made `v`. -/
def setBit (n k : Nat) (v : Bool) : Nat := putBits n k 1 (b2n v)

/-- The two's complement reading of the low `w` bits. -/
def sgn (w n : Nat) : Int := (BitVec.ofNat w n).toInt

/-- The low `w` bits of an integer, two's complement. -/
def unsgn (w : Nat) (z : Int) : Nat := (BitVec.ofInt w z).toNat

/-- Number of ones among the low `w` bits. -/
def popcount : Nat → Nat → Nat
  | 0, _ => 0
  | w + 1, n => n % 2 + popcount w (n / 2)

/-- The set bits of `n` below `w`, rising. -/
def bitList (w n : Nat) : List Nat := (List.range w).filter (fun k => n.testBit k)

/-- Little-endian number of a byte list (R3). -/
def leNat : List Nat → Nat
  | [] => 0
  | b :: r => b % 256 + 256 * leNat r

/-- The `k` low bytes of `n`, little-endian (R3). -/
def leBytes : Nat → Nat → List Nat
  | 0, _ => []
  | k + 1, n => n % 256 :: leBytes k (n / 256)

/-- Big-endian number of a byte list (R4). -/
def beNat (l : List Nat) : Nat := leNat l.reverse

/-- The `k` low bytes of `n`, big-endian (R4). -/
def beBytes (k n : Nat) : List Nat := (leBytes k n).reverse

/-- `n` elements from position `a`. -/
def slice (l : List Nat) (a n : Nat) : List Nat := (l.drop a).take n

/-- The list `l` with the elements from position `a` replaced by those of `v`. -/
def splice (l : List Nat) (a : Nat) (v : List Nat) : List Nat := l.take a ++ v ++ l.drop (a + v.length)

/-- One bit of a reflected CRC step with polynomial `p`. -/
def crcBit (p c : Nat) : Nat := if c % 2 = 1 then (c / 2) ^^^ p else c / 2

/-- Eight bits of a reflected CRC. -/
def crcByte (p c b : Nat) : Nat :=
  crcBit p (crcBit p (crcBit p (crcBit p (crcBit p (crcBit p (crcBit p (crcBit p (c ^^^ (b % 256)))))))))

/-- CRC-32C of the bytes, initialised with `seed` (R575). -/
def crc32c (seed : Nat) (bytes : List Nat) : Nat :=
  (bytes.foldl (crcByte 0x82F63B78) (seed % 2 ^ 32)) ^^^ 0xFFFFFFFF

/-- The Ethernet frame check sequence (IEEE 802.3 clause 3.2.9) of the bytes. -/
def crc32 (bytes : List Nat) : Nat :=
  (bytes.foldl (crcByte 0xEDB88320) 0xFFFFFFFF) ^^^ 0xFFFFFFFF

/-- The smallest multiple of `m` not below `n`. -/
def roundUp (n m : Nat) : Nat := if m = 0 then n else (n + m - 1) / m * m

/-- Whether `n` lies at base `b` or above it by less than `len`. -/
def within (n b len : Nat) : Bool := decide (b ≤ n ∧ n < b + len)

/-- Insertion into a rising list. -/
def insertUp (x : Nat) : List Nat → List Nat
  | [] => [x]
  | y :: r => if x ≤ y then x :: y :: r else y :: insertUp x r

/-- A list in rising order. -/
def sortUp (l : List Nat) : List Nat := l.foldr insertUp []

end Sys2Proof.Machine
end

