-- ==== Sys2Proof/Machine/SMap.lean ====
section
/-! DEFINITION. A sparse map as plain data: a list of (key, value) pairs in one canonical form, the keys strictly rising
and no value equal to what an unlisted key reads as. Writing that value removes the entry, so equal maps are equal
lists. -/

namespace Sys2Proof.Machine

/-- The value at key `k`, `d` where none is listed. -/
def sget {κ α : Type} [DecidableEq κ] (d : α) : List (κ × α) → κ → α
  | [], _ => d
  | (k', v) :: r, k => if k' = k then v else sget d r k

/-- The map without key `k`. -/
def serase {κ α : Type} [DecidableEq κ] : List (κ × α) → κ → List (κ × α)
  | [], _ => []
  | (k', v) :: r, k => if k' = k then serase r k else (k', v) :: serase r k

/-- The pair put before the first key above its own. -/
def sinsert {κ α : Type} (lt : κ → κ → Bool) : List (κ × α) → κ → α → List (κ × α)
  | [], k, v => [(k, v)]
  | (k', v') :: r, k, v => if lt k k' then (k, v) :: (k', v') :: r else (k', v') :: sinsert lt r k v

/-- The map with key `k` reading `v`; `d` is what `k` reads as when unlisted. -/
def sset {κ α : Type} [DecidableEq κ] [DecidableEq α] (lt : κ → κ → Bool) (d : α)
    (m : List (κ × α)) (k : κ) (v : α) : List (κ × α) :=
  if v = d then serase m k else sinsert lt (serase m k) k v

/-- Whether the first key, if any, lies above `k`. -/
def aboveHead {κ α : Type} (lt : κ → κ → Bool) (k : κ) : List (κ × α) → Bool
  | [] => true
  | (k', _) :: _ => lt k k'

/-- The canonical form: keys strictly rising, no entry at its unlisted value. -/
def swf {κ α : Type} [DecidableEq α] (lt : κ → κ → Bool) (d : κ → α) : List (κ × α) → Bool
  | [] => true
  | (k, v) :: r => aboveHead lt k r && decide (v ≠ d k) && swf lt d r

end Sys2Proof.Machine
end

