-- ==== Sys2Proof/Machine/Fields.lean ====
section
/-! DEFINITION. Every piece of scalar state the spec gives the machine, as ONE closed list of names: the fields of
the registers (spec files 01 to 23, one constructor per field, named <REGISTER>_<field>) and, after them, the
machine's own state that the rules name but no register shows. With them the width of each, and its value at reset
(Reset columns of the register tables, R16 and R571).
A name whose doc says `reset 0, none given` takes 0 as the log entry 2 says. -/

namespace Sys2Proof.Machine

/-- die_kind of die `d` (Table PKG-8). -/
def dieKind (d : Nat) : Nat :=
  if d = 0 then 0 else if d = 1 then 1 else if d < 4 then 2 else 3

/-- kind of the Peing link between dies `a` and `b` (Table PKG-3; R19, R44): 0 I/O, 1 mesh, 2 service, 3 none. -/
def peingKind (a b : Nat) : Nat :=
  if a = b then 3
  else if a < 2 ∨ b < 2 then 2
  else if a < 4 ∧ b < 4 then 3
  else if a < 4 ∨ b < 4 then 0
  else if a + b = 11 then 3 else 1

-- Deriving Repr for this many names takes more than the default.
set_option maxHeartbeats 1000000 in
/-- The names of the scalar state. -/
inductive Field where
  /-- Value of Table PKG-1 [RO, 01_package_dies_and_hierarchy.md] -/
  | PKG_DIE_INFO_die_num
  /-- Table PKG-8 [RO, 01_package_dies_and_hierarchy.md] -/
  | PKG_DIE_INFO_die_kind
  /-- Silicon stepping [RO, 01_package_dies_and_hierarchy.md] -/
  | PKG_DIE_INFO_stepping
  /-- An HBM stack attaches to this die [RO, 01_package_dies_and_hierarchy.md] -/
  | PKG_DIE_INFO_hbm_present
  /-- Sets when stage 1 completes training of this die's stack, between stage 2 hand-over and device_ready (Table BOOT-2), each stack on its own; stays 1 until the ne [RO, 01_package_dies_and_hierarchy.md] -/
  | PKG_DIE_INFO_hbm_trained
  /-- 0b00 I/O, 0b01 mesh, 0b10 service, 0b11 none [RO, 01_package_dies_and_hierarchy.md] -/
  | PKG_PEING_LINK_kind
  /-- Table PKG-9 [RO, 01_package_dies_and_hierarchy.md] -/
  | PKG_PEING_LINK_state
  /-- Spare wire groups in use [RO, 01_package_dies_and_hierarchy.md] -/
  | PKG_PEING_LINK_spares_used
  /-- A link exists to die n [RO, 01_package_dies_and_hierarchy.md] -/
  | PKG_PEING_LINK_present
  /-- Correctable wire errors received at this end, 1 per error (R23), saturating at 0xFFFF [RC, 01_package_dies_and_hierarchy.md] -/
  | PKG_PEING_LINK_corrected_count
  /-- Measured relative speed of the region, in units of 1/2,048; updated at each 1 ms boundary of DTS, with the other fields (R73) [RO, 02_handshake_timing_and_clock_islands.md] -/
  | XD_SPEED_rel_speed
  /-- Region supply voltage in mV at the last update [RO, 02_handshake_timing_and_clock_islands.md] -/
  | XD_SPEED_v_mv
  /-- Region junction temperature, two's complement, in units of 0.25 °C [RO, 02_handshake_timing_and_clock_islands.md] -/
  | XD_SPEED_tj_qc
  /-- Bit k is 1 when domain k of Table CLK-3 is present (R61); for a domain on several dies, 1 only when present on all of them [RO, 02_handshake_timing_and_clock_islands.md] -/
  | XD_CLK_PRESENT_present
  /-- Bit k sets on each present-to-absent transition of domain k (R62) [W1C, 02_handshake_timing_and_clock_islands.md] -/
  | XD_CLK_LOST_lost
  /-- Bit k is 1 when domain k is present on die d; a domain not instantiated on die d reads 0 [RO, 02_handshake_timing_and_clock_islands.md] -/
  | XD_CLK_DIE_PRESENT_present
  /-- 1 enables discipline; with 0 the device is FREERUN [RW, 03_device_timescale.md] -/
  | TS_CTRL_servo_en
  /-- 0b01 copy A into B; 0b10 copy B into A; others no effect; acts only in FAULT [WO, 03_device_timescale.md] -/
  | TS_CTRL_fault_resolve
  /-- R87 [RW, 03_device_timescale.md] -/
  | TS_CTRL_revertive
  /-- Table TIME-11 [RO, 03_device_timescale.md] -/
  | TS_STATUS_state
  /-- DTS has been set by software or a time reference since reset or fault [RO, 03_device_timescale.md] -/
  | TS_STATUS_time_set
  /-- As the record field (Table TIME-9); 0xE software, 0xF none [RO, 03_device_timescale.md] -/
  | TS_STATUS_ref_sel
  /-- R95 [RO, 03_device_timescale.md] -/
  | TS_STATUS_freq_limit
  /-- R99 [W1C, 03_device_timescale.md] -/
  | TS_STATUS_osc_lost
  /-- R116 [W1C, 03_device_timescale.md] -/
  | TS_STATUS_fetch_miss
  /-- U_DTS [RO, 03_device_timescale.md] -/
  | TS_STATUS_unc16
  /-- A read of TS_NOW_LO returns DT64 [31:0] of counter A and snapshots DT64 [63:32] and U_DTS (R13). [RO, 03_device_timescale.md] -/
  | TS_NOW
  /-- U_DTS at the last TS_NOW_LO read on this path [RO, 03_device_timescale.md] -/
  | TS_NOW_UNC_unc16
  /-- B − A, two's complement, 0.0625 ns [RO, 03_device_timescale.md] -/
  | TS_AB_DIFF_diff
  /-- Largest \ [RC, 03_device_timescale.md] -/
  | TS_AB_DIFF_max_abs
  /-- The DT64 to load, written as R15 states. [RW, 03_device_timescale.md] -/
  | TS_TOD_SET
  /-- Declared uncertainty of the loaded time; the write loads TS_TOD_SET (R90, R91) [WO, 03_device_timescale.md] -/
  | TS_TOD_SET_UNC_unc16
  /-- Writes ignored under R91 [RC, 03_device_timescale.md] -/
  | TS_TOD_SET_UNC_tod_rejected
  /-- currentUtcOffset, s, two's complement [RO, 03_device_timescale.md] -/
  | TS_UTC_OFFSET_utc_offset
  /-- currentUtcOffsetValid [RO, 03_device_timescale.md] -/
  | TS_UTC_OFFSET_valid
  /-- From the selected PTP reference [RO, 03_device_timescale.md] -/
  | TS_UTC_OFFSET_leap61
  /-- From the selected PTP reference [RO, 03_device_timescale.md] -/
  | TS_UTC_OFFSET_leap59
  /-- Reference may qualify [RW, 03_device_timescale.md] -/
  | TS_REF_CFG_enable
  /-- Lower wins (R87) [RW, 03_device_timescale.md] -/
  | TS_REF_CFG_priority
  /-- Time references: asymmetry bound, 0.25 ns (R106); frequency references: frequency bound, 10^-12 [RW, 03_device_timescale.md] -/
  | TS_REF_CFG_asym_bound
  /-- R86 [RO, 03_device_timescale.md] -/
  | TS_REF_STATUS_qualified
  /-- Last expected measurement was valid [RO, 03_device_timescale.md] -/
  | TS_REF_STATUS_valid
  /-- Outlier measurements, saturating [RC, 03_device_timescale.md] -/
  | TS_REF_STATUS_outliers
  /-- base 0x108, stride 0x10, n = 0 to 7; TMD; no region scope. RW, reset 0. Signed known delay in 0.25 ns, subtracted from each measurement: the [RW, 03_device_timescale.md] -/
  | TS_REF_DELAY
  /-- Ethernet port (Ethernet Ports) [RW, 03_device_timescale.md] -/
  | TS_PTP_CFG_port
  /-- PTP domain number [RW, 03_device_timescale.md] -/
  | TS_PTP_CFG_domain
  /-- 0 UDP/IPv4, 1 UDP/IPv6, 2 Ethernet, 3 reserved [RW, 03_device_timescale.md] -/
  | TS_PTP_CFG_transport
  /-- 1 peer delay, 0 delay request-response [RW, 03_device_timescale.md] -/
  | TS_PTP_CFG_peer_delay
  /-- 0 slave-only OC, 1 master-capable OC, 2 BC port, 3 TC [RW, 03_device_timescale.md] -/
  | TS_PTP_CFG_role
  /-- Table TIME-6 [RW, 03_device_timescale.md] -/
  | TS_SERVO_CFG_acq_bw
  /-- Table TIME-6 [RW, 03_device_timescale.md] -/
  | TS_SERVO_CFG_lock_bw
  /-- Lock threshold, ns [RW, 03_device_timescale.md] -/
  | TS_SERVO_CFG_lock_ns
  /-- Lock time, s [RW, 03_device_timescale.md] -/
  | TS_SERVO_CFG_lock_s
  /-- Qualification time, s [RW, 03_device_timescale.md] -/
  | TS_SERVO_CFG_qual_s
  /-- Wait-to-restore, s [RW, 03_device_timescale.md] -/
  | TS_SERVO_CFG_wtr_s
  /-- step_ns threshold, in µs [RW, 03_device_timescale.md] -/
  | TS_SERVO_LIM_step_us
  /-- Slew limit, ppm (1 to 200) [RW, 03_device_timescale.md] -/
  | TS_SERVO_LIM_slew_ppm
  /-- Outlier bound, ns [RW, 03_device_timescale.md] -/
  | TS_SERVO_LIM_outlier_ns
  /-- 0 DIGITAL, 1 EXT_OCXO [RW, 03_device_timescale.md] -/
  | TS_OSC_CFG_mode
  /-- CK_OSC is 20 MHz; also the frequency of the presence test of R61; a change is ignored while mode is 1 [RW, 03_device_timescale.md] -/
  | TS_OSC_CFG_osc_20m
  /-- Learning window, h (1 to 63) [RW, 03_device_timescale.md] -/
  | TS_OSC_CFG_learn_h
  /-- Full tuning span of the OCXO over DAC codes 0 to 2^20 − 1, 10^-9; values below 400 act as 400 (R97) [RW, 03_device_timescale.md] -/
  | TS_OSC_CFG_dac_span_ppb
  /-- 0: a higher DAC code raises the OCXO frequency; 1: it lowers it (R97) [RW, 03_device_timescale.md] -/
  | TS_OSC_CFG_dac_invert
  /-- Y of R103, 10^-12 [RW, 03_device_timescale.md] -/
  | TS_HOLD_MODEL0_y0_ppt
  /-- T of R103, 10^-12 [RW, 03_device_timescale.md] -/
  | TS_HOLD_MODEL0_temp_ppt
  /-- Per day, 10^-12 [RW, 03_device_timescale.md] -/
  | TS_HOLD_MODEL1_age_resid_ppt
  /-- Per day, 10^-12 [RW, 03_device_timescale.md] -/
  | TS_HOLD_MODEL1_age_max_ppt
  /-- 10^-9 [RW, 03_device_timescale.md] -/
  | TS_HOLD_MODEL1_freerun_ppb
  /-- U_DTS, 0.25 ns, at which HOLDOVER ends [RW, 03_device_timescale.md] -/
  | TS_HOLDOVER_MAX_holdover_max
  /-- Learned rate, two's complement, 10^-12 per day [RO, 03_device_timescale.md] -/
  | TS_LEARN_age_rate
  /-- Hours of data in the fit, saturating at 127 [RO, 03_device_timescale.md] -/
  | TS_LEARN_hours
  /-- R101 [RO, 03_device_timescale.md] -/
  | TS_LEARN_learn_valid
  /-- base 0x400, stride 0x4, k = 0 to 11; TMD; no region scope. RW, reset 0. Bytes 4k to 4k + 3 of chain_digest, little-endian. A write to k = 11 [RW, 03_device_timescale.md] -/
  | TS_CHAIN_DIGEST
  /-- offset 0x500; TMD; no region scope. RWL, locks at KEYLOCK, reset 0. xSPI byte address of the log partition; bits [15:0] must be 0. Reads 0 f [RWL, 03_device_timescale.md] -/
  | TS_AMBER_LOG_BASE
  /-- Bits [11:0] of _LO are reserved: they read 0 and writes to them are ignored, so the base is always 4 KiB aligned. [RW, 03_device_timescale.md] -/
  | TS_RING_BASE
  /-- Ring in use [RW, 03_device_timescale.md] -/
  | TS_RING_CFG_enable
  /-- PF2 of endpoint 0 or 1 [RW, 03_device_timescale.md] -/
  | TS_RING_CFG_endpoint
  /-- 2^n slots, n = 4 to 12; lower values act as 4, higher as 12 (R115) [RW, 03_device_timescale.md] -/
  | TS_RING_CFG_log2_slots
  /-- offset 0x51C; TMD; no region scope. RO, reset 0. [11:0] next slot the device writes, below the ring size (R115); [31:12] reserved. [RO, 03_device_timescale.md] -/
  | TS_RING_PROD
  /-- offset 0x520; TMD; no region scope. RW, reset 0. [11:0] next slot software reads; the device takes it modulo the ring size (R115); [31:12] r [RW, 03_device_timescale.md] -/
  | TS_RING_CONS
  /-- Records not written to a full ring [RC, 03_device_timescale.md] -/
  | TS_RING_STAT_ring_drops
  /-- offset 0x528; TMD; no region scope. RO, reset 0. seq of the last record issued. [RO, 03_device_timescale.md] -/
  | TS_AMBER_SEQ
  /-- offset 0x52C; TMD; no region scope. WO. seq of a record to replay to the ring (R116). [WO, 03_device_timescale.md] -/
  | TS_AMBER_FETCH
  /-- Signed board delay, connector to balls, receive, 0.25 ns [RW, 04_timestamps_launch_and_host_time.md] -/
  | TSU_PORT_CAL_rx_board
  /-- Signed board delay, balls to connector, transmit, 0.25 ns [RW, 04_timestamps_launch_and_host_time.md] -/
  | TSU_PORT_CAL_tx_board
  /-- R120 [RO, 04_timestamps_launch_and_host_time.md] -/
  | TSU_PORT_STATUS_cal_done
  /-- 0 800GbE, 1 400GbE, 2 200GbE, 3 100GbE (Table TSTP-1) [RO, 04_timestamps_launch_and_host_time.md] -/
  | TSU_PORT_STATUS_mode
  /-- Largest lane skew removed at the last calibration, 0.25 ns [RO, 04_timestamps_launch_and_host_time.md] -/
  | TSU_PORT_STATUS_skew_max
  /-- base 0x008, stride 0x10, p = 0 to 7; IOD0, IOD1; P0, P1. RW, reset 0. Mean link delay of the port, written by firmware, unsigned, 0.25 ns (R [RW, 04_timestamps_launch_and_host_time.md] -/
  | TSU_PEER_DELAY
  /-- R128, saturating [RC, 04_timestamps_launch_and_host_time.md] -/
  | TSU_PORT_ERR_onestep_fail
  /-- LAUNCH_FAR drops, saturating [RC, 04_timestamps_launch_and_host_time.md] -/
  | TSU_PORT_ERR_far_dropped
  /-- Late frames sent, saturating [RC, 04_timestamps_launch_and_host_time.md] -/
  | TSU_LATE_CNT_late_sent
  /-- LAUNCH_LATE drops, saturating [RC, 04_timestamps_launch_and_host_time.md] -/
  | TSU_LATE_CNT_late_dropped
  /-- Table TSTP-11 [RW, 04_timestamps_launch_and_host_time.md] -/
  | TSU_LAUNCH_PROF_late_policy
  /-- Late bound, 8 ns units (reset 1,000 ns) [RW, 04_timestamps_launch_and_host_time.md] -/
  | TSU_LAUNCH_PROF_late_bound
  /-- Horizon 2^horizon ms; 11 to 15 act as 10 [RW, 04_timestamps_launch_and_host_time.md] -/
  | TSU_LAUNCH_PROF_horizon
  /-- Start dialogues while PTM Enable is set [RW, 04_timestamps_launch_and_host_time.md] -/
  | TSU_PTM_CFG_enable
  /-- Table TSTP-12 [RW, 04_timestamps_launch_and_host_time.md] -/
  | TSU_PTM_CFG_interval
  /-- R142 [RW, 04_timestamps_launch_and_host_time.md] -/
  | TSU_PTM_CFG_to_ring
  /-- Platform term, 0.25 ns (R140) [RW, 04_timestamps_launch_and_host_time.md] -/
  | TSU_PTM_CFG_platform_unc
  /-- R139 [RO, 04_timestamps_launch_and_host_time.md] -/
  | TSU_PTM_STATUS_ptm_valid
  /-- PTM Enable as set by the host [RO, 04_timestamps_launch_and_host_time.md] -/
  | TSU_PTM_STATUS_ptm_enabled
  /-- Failed dialogues, saturating [RC, 04_timestamps_launch_and_host_time.md] -/
  | TSU_PTM_STATUS_fail_count
  /-- offset 0x408; IOD0, IOD1; P0, P1. RO, reset 0. link_delay_ns of the last good dialogue, 0.25 ns. [RO, 04_timestamps_launch_and_host_time.md] -/
  | TSU_PTM_DELAY
  /-- Output TM_PPS_OUTk driven; low when 0 [RW, 04_timestamps_launch_and_host_time.md] -/
  | TS_PPS_CFG_enable
  /-- R144 [RW, 04_timestamps_launch_and_host_time.md] -/
  | TS_PPS_CFG_squelch_en
  /-- Table TSTP-13 [RW, 04_timestamps_launch_and_host_time.md] -/
  | TS_PPS_CFG_width
  /-- Threshold on U_DTS, 0.25 ns (reset 100 ns) [RW, 04_timestamps_launch_and_host_time.md] -/
  | TS_PPS_CFG_squelch_unc
  /-- Signed advance of the edge for the board path, 0.25 ns [RW, 04_timestamps_launch_and_host_time.md] -/
  | TS_PPS_DELAY_delay
  /-- Seconds without a pulse under R144, saturating [RC, 04_timestamps_launch_and_host_time.md] -/
  | TS_PPS_DELAY_squelched
  /-- Table STRC-8; the write issues the command [WO, 05_structure_images.md] -/
  | STR_CMD_op
  /-- COLD_APPLY: 0 STAGED, 1 PREVIOUS [WO, 05_structure_images.md] -/
  | STR_CMD_slot
  /-- Bit n names Fn, for SWAP and ROLLBACK [WO, 05_structure_images.md] -/
  | STR_CMD_region_mask
  /-- A command is in progress [RO, 05_structure_images.md] -/
  | STR_CMD_STATUS_busy
  /-- Code of the last command [RO, 05_structure_images.md] -/
  | STR_CMD_STATUS_last_op
  /-- Table STRC-10 [RO, 05_structure_images.md] -/
  | STR_CMD_STATUS_result
  /-- Directory index or 64 KiB block number of the failure; 0 when not applicable [RO, 05_structure_images.md] -/
  | STR_CMD_STATUS_detail
  /-- DT64 of the flip, written as R15 states (R160). [RW, 05_structure_images.md] -/
  | STR_SWAP_AT
  /-- Regions changed by STAGED (R158) [RO, 05_structure_images.md] -/
  | STR_STATUS_changed_mask
  /-- Regions in DRAIN_FWD or SWAPPED [RO, 05_structure_images.md] -/
  | STR_STATUS_swapped_mask
  /-- Regions in DRAIN_FWD or DRAIN_BACK [RO, 05_structure_images.md] -/
  | STR_STATUS_draining_mask
  /-- R173 [RO, 05_structure_images.md] -/
  | STR_STATUS_wdog_running
  /-- STAGED slot holds an image that passed STAGE [RO, 05_structure_images.md] -/
  | STR_STATUS_staged_valid
  /-- Table STRC-12 [RO, 05_structure_images.md] -/
  | STR_REGION_STATE_state
  /-- Current ingress epoch bit [RO, 05_structure_images.md] -/
  | STR_REGION_STATE_epoch
  /-- Packets of the draining epoch still in the region, saturating [RO, 05_structure_images.md] -/
  | STR_REGION_STATE_inflight
  /-- Watchdog period, 100 ms units, 1 to 65,535; 0 acts as 1 [RW, 05_structure_images.md] -/
  | STR_WDOG_period
  /-- Time left, 100 ms units, rounded up; 0 when not running [RO, 05_structure_images.md] -/
  | STR_WDOG_remaining
  /-- Drain limit of R165, µs of DTS, 100 to 65,535; lower values act as 100 [RW, 05_structure_images.md] -/
  | STR_DRAIN_LIMIT_limit_us
  /-- Lowest version STAGE and COLD_APPLY accept; locks at KEYLOCK [RWL, 05_structure_images.md] -/
  | STR_MIN_VERSION_min_version
  /-- Image version; 0 when empty [RO, 05_structure_images.md] -/
  | STR_SLOT_version
  /-- Flash partition 0 to 2 [RO, 05_structure_images.md] -/
  | STR_SLOT_partition
  /-- Slot holds no image [RO, 05_structure_images.md] -/
  | STR_SLOT_empty
  /-- Bytes 0 to 3 of content_digest [RO, 05_structure_images.md] -/
  | STR_SLOT_digest_head
  /-- R173 [W1C, 05_structure_images.md] -/
  | STR_EVENTS_wdog_rollback
  /-- A STAGE or COLD_APPLY was rejected after reading the partition [W1C, 05_structure_images.md] -/
  | STR_EVENTS_stage_fail
  /-- A drain reached STR_DRAIN_LIMIT [W1C, 05_structure_images.md] -/
  | STR_EVENTS_drain_expired
  /-- COLD_APPLY reloaded the former ACTIVE (R174) [W1C, 05_structure_images.md] -/
  | STR_EVENTS_cold_fallback
  /-- Packets dropped under R165, saturating [RC, 05_structure_images.md] -/
  | STR_DROP_CNT_epoch_expired
  /-- Learns discarded under R169, saturating [RC, 05_structure_images.md] -/
  | STR_DROP_CNT_stale_learns
  /-- Packets dropped under R174, in units of 65,536, saturating [RC, 05_structure_images.md] -/
  | STR_DROP_CNT_reload_drops
  /-- Table PARS-10 [RW, 06_parsing_and_classification.md] -/
  | CLS_PORT_DEF_nomatch_act
  /-- Table PARS-10 [RW, 06_parsing_and_classification.md] -/
  | CLS_PORT_DEF_parsefail_act
  /-- 0 DROP, 1 FORWARD_DEFAULT (R196) [RW, 06_parsing_and_classification.md] -/
  | CLS_PORT_DEF_secondary
  /-- 0 OUTER_ONLY, 1 FOLLOW_FIRST [RW, 06_parsing_and_classification.md] -/
  | CLS_PORT_DEF_frag_mode
  /-- Core punt queue (Service Cores) [RW, 06_parsing_and_classification.md] -/
  | CLS_PORT_DEF_punt_q
  /-- Device port, or host receive ring [RW, 06_parsing_and_classification.md] -/
  | CLS_PORT_DEST_index
  /-- 0 Ethernet port, 1 host receive ring [RW, 06_parsing_and_classification.md] -/
  | CLS_PORT_DEST_kind
  /-- Traffic class on a port [RW, 06_parsing_and_classification.md] -/
  | CLS_PORT_DEST_tclass
  /-- Punts per second, device-wide [RW, 06_parsing_and_classification.md] -/
  | CLS_PUNT_RATE_rate
  /-- Bucket depth, packets, device-wide [RW, 06_parsing_and_classification.md] -/
  | CLS_PUNT_RATE_burst
  /-- R205, µs; 0 acts as 1 [RW, 06_parsing_and_classification.md] -/
  | CLS_FRAG_CFG_lifetime_us
  /-- R204, µs; 0 disables holding [RW, 06_parsing_and_classification.md] -/
  | CLS_FRAG_CFG_hold_us
  /-- No-match actions applied, saturating [RC, 06_parsing_and_classification.md] -/
  | CLS_DEF_CNT_nomatch
  /-- Parse-failure actions applied, saturating [RC, 06_parsing_and_classification.md] -/
  | CLS_DEF_CNT_parsefail
  /-- Default punts admitted, saturating [RC, 06_parsing_and_classification.md] -/
  | CLS_PUNT_CNT_punted
  /-- Secondary actions taken, saturating [RC, 06_parsing_and_classification.md] -/
  | CLS_PUNT_CNT_excess
  /-- Fragment table entries in use [RO, 06_parsing_and_classification.md] -/
  | CLS_FRAG_STAT_entries
  /-- Hold buffer in use, KiB, rounded up [RO, 06_parsing_and_classification.md] -/
  | CLS_FRAG_STAT_held_kib
  /-- R204, saturating [RC, 06_parsing_and_classification.md] -/
  | CLS_FRAG_CNT0_hold_expired
  /-- R204, saturating [RC, 06_parsing_and_classification.md] -/
  | CLS_FRAG_CNT0_hold_full
  /-- R202, saturating [RC, 06_parsing_and_classification.md] -/
  | CLS_FRAG_CNT1_table_full
  /-- R202, saturating [RC, 06_parsing_and_classification.md] -/
  | CLS_FRAG_CNT1_dup_first
  /-- R206, saturating [RC, 06_parsing_and_classification.md] -/
  | CLS_FRAG_CNT1_epoch_mismatch
  /-- R192, saturating [RC, 06_parsing_and_classification.md] -/
  | CLS_FRAG_CNT1_tree_absent
  /-- Mb/s [RW, 06_parsing_and_classification.md] -/
  | CLS_POLICER_cir
  /-- Meter active [RW, 06_parsing_and_classification.md] -/
  | CLS_POLICER_enable
  /-- R208 [RW, 06_parsing_and_classification.md] -/
  | CLS_POLICER_colour_aware
  /-- Mb/s [RW, 06_parsing_and_classification.md] -/
  | CLS_POLICER_pir
  /-- Bytes [RW, 06_parsing_and_classification.md] -/
  | CLS_POLICER_cbs
  /-- Bytes; the write applies the instance (R211) [RW, 06_parsing_and_classification.md] -/
  | CLS_POLICER_pbs
  /-- Parse failures with reason k, saturating; k = 0 reads 0 [RC, 06_parsing_and_classification.md] -/
  | PAR_FAIL_CNT_count
  /-- Frames dropped under R182, saturating [RC, 06_parsing_and_classification.md] -/
  | CLS_STEER_CNT_no_region
  /-- Key lookups that missed and took default_tenant, saturating [RC, 06_parsing_and_classification.md] -/
  | CLS_STEER_CNT_key_miss
  /-- Tables EXM-4 and EXM-5; the write issues the command (EXM_CH_CMD) [WO, 07_exact_match_tables.md] -/
  | EXM_CH_op
  /-- R232 [WO, 07_exact_match_tables.md] -/
  | EXM_CH_include_static
  /-- R236 [WO, 07_exact_match_tables.md] -/
  | EXM_CH_clear_moves
  /-- Table id [WO, 07_exact_match_tables.md] -/
  | EXM_CH_table
  /-- Command in progress (EXM_CH_STATUS) [RO, 07_exact_match_tables.md] -/
  | EXM_CH_busy
  /-- Table EXM-7 [RO, 07_exact_match_tables.md] -/
  | EXM_CH_result
  /-- Table EXM-6 (EXM_CH_CURSOR) [RW, 07_exact_match_tables.md] -/
  | EXM_CH_cursor
  /-- Entry header, Table EXM-2 (EXM_CH_HDR) [RW, 07_exact_match_tables.md] -/
  | EXM_CH_hdr
  /-- EXM_CH_KEY[0..6], key bytes 0 to 27 (index instance*7 + word) [RW, 07_exact_match_tables.md] -/
  | EXM_CH_key
  /-- EXM_CH_VAL[0..7], value bytes 0 to 31 (index instance*8 + word) [RW, 07_exact_match_tables.md] -/
  | EXM_CH_value
  /-- Valid entries, device-wide; replicas counted once [RO, 07_exact_match_tables.md] -/
  | EXM_TABLE_STAT_entries
  /-- R225 [W1C, 07_exact_match_tables.md] -/
  | EXM_TABLE_STAT_rehash_req
  /-- 0 none, 1 OPEN, 2 FAILED [RO, 07_exact_match_tables.md] -/
  | EXM_TABLE_STAT_shadow
  /-- Regions whose shard is offline [RO, 07_exact_match_tables.md] -/
  | EXM_TABLE_STAT_shard_down
  /-- Seeds in use [RO, 07_exact_match_tables.md] -/
  | EXM_TABLE_STAT_seed0
  /-- — [RO, 07_exact_match_tables.md] -/
  | EXM_TABLE_STAT_seed1
  /-- — [RO, 07_exact_match_tables.md] -/
  | EXM_TABLE_STAT_seed_shard
  /-- Saturating [RC, 07_exact_match_tables.md] -/
  | EXM_TABLE_STAT_learns
  /-- Saturating [RC, 07_exact_match_tables.md] -/
  | EXM_TABLE_STAT_learn_fail
  /-- Saturating [RC, 07_exact_match_tables.md] -/
  | EXM_TABLE_STAT_moves
  /-- Saturating [RC, 07_exact_match_tables.md] -/
  | EXM_TABLE_STAT_move_cands
  /-- Saturating [RC, 07_exact_match_tables.md] -/
  | EXM_TABLE_STAT_static_conflict
  /-- Saturating [RC, 07_exact_match_tables.md] -/
  | EXM_TABLE_STAT_flaps
  /-- Core mailbox queue [RW, 07_exact_match_tables.md] -/
  | EXM_EVT_CFG_queue
  /-- Events posted; with 0 all are discarded and counted [RW, 07_exact_match_tables.md] -/
  | EXM_EVT_CFG_enable
  /-- R237, saturating [RC, 07_exact_match_tables.md] -/
  | EXM_EVT_STAT_evt_drops
  /-- Learns from the entry's own port, saturating [RC, 07_exact_match_tables.md] -/
  | EXM_REGION_CNT_refreshes
  /-- R235, saturating [RC, 07_exact_match_tables.md] -/
  | EXM_REGION_CNT_tracker_full
  /-- R221, saturating [RC, 07_exact_match_tables.md] -/
  | EXM_REGION_CNT_shard_down_miss
  /-- Table ASOC-4; the write issues the command (TCM_CH_CMD) [WO, 08_associative_and_pattern_search.md] -/
  | TCM_CH_op
  /-- Table id [WO, 08_associative_and_pattern_search.md] -/
  | TCM_CH_table
  /-- Command in progress [RO, 08_associative_and_pattern_search.md] -/
  | TCM_CH_busy
  /-- Table ASOC-5 [RO, 08_associative_and_pattern_search.md] -/
  | TCM_CH_result
  /-- SEARCH, STEP: R243 [RO, 08_associative_and_pattern_search.md] -/
  | TCM_CH_multi
  /-- READ: entry quarantined [RO, 08_associative_and_pattern_search.md] -/
  | TCM_CH_quarantined
  /-- READ: ECC copy uncorrectable [RO, 08_associative_and_pattern_search.md] -/
  | TCM_CH_copy_bad
  /-- Entry unit; returned by SEARCH and STEP [RW, 08_associative_and_pattern_search.md] -/
  | TCM_CH_unit
  /-- MOVE destination [RW, 08_associative_and_pattern_search.md] -/
  | TCM_CH_dst
  /-- Table ASOC-2 [RW, 08_associative_and_pattern_search.md] -/
  | TCM_CH_priority
  /-- Table ASOC-2 [RW, 08_associative_and_pattern_search.md] -/
  | TCM_CH_width
  /-- STEP cursor [RW, 08_associative_and_pattern_search.md] -/
  | TCM_CH_cur_priority
  /-- STEP cursor [RW, 08_associative_and_pattern_search.md] -/
  | TCM_CH_cur_unit
  /-- Entry result (R15) [RW, 08_associative_and_pattern_search.md] -/
  | TCM_CH_entry_result
  /-- TCM_CH_KEY[0..19]; word j holds key bytes 4j to 4j + 3, byte 4j in [7:0] (index instance*20 + word) [RW, 08_associative_and_pattern_search.md] -/
  | TCM_CH_key
  /-- TCM_CH_MASK[0..19]; as key (index instance*20 + word) [RW, 08_associative_and_pattern_search.md] -/
  | TCM_CH_mask
  /-- Bits [2b + 1 : 2b] for bank b: Table ASOC-7 [RO, 08_associative_and_pattern_search.md] -/
  | TCM_REGION_STAT_bank_width
  /-- R247, saturating [RC, 08_associative_and_pattern_search.md] -/
  | TCM_REGION_STAT_quarantines
  /-- R247, saturating [RC, 08_associative_and_pattern_search.md] -/
  | TCM_REGION_STAT_verify_fail
  /-- Entries stuck now (R248), saturating at 255 [RO, 08_associative_and_pattern_search.md] -/
  | TCM_REGION_STAT_stuck
  /-- Unit of the last quarantine [RO, 08_associative_and_pattern_search.md] -/
  | TCM_QUAR_LOG_unit
  /-- Its table id [RO, 08_associative_and_pattern_search.md] -/
  | TCM_QUAR_LOG_table
  /-- That entry is stuck [RO, 08_associative_and_pattern_search.md] -/
  | TCM_QUAR_LOG_stuck
  /-- A quarantine has been logged since last cleared [W1C, 08_associative_and_pattern_search.md] -/
  | TCM_QUAR_LOG_logged
  /-- Table ASOC-8; the write issues the command [WO, 08_associative_and_pattern_search.md] -/
  | PAT_CH_op
  /-- Set id, 0 to 63 [WO, 08_associative_and_pattern_search.md] -/
  | PAT_CH_set
  /-- Bit n names Fn [WO, 08_associative_and_pattern_search.md] -/
  | PAT_CH_region_mask
  /-- Command in progress [RO, 08_associative_and_pattern_search.md] -/
  | PAT_CH_busy
  /-- Table ASOC-5 [RO, 08_associative_and_pattern_search.md] -/
  | PAT_CH_result
  /-- SCAN records written [RO, 08_associative_and_pattern_search.md] -/
  | PAT_CH_count
  /-- R262 [RO, 08_associative_and_pattern_search.md] -/
  | PAT_CH_more
  /-- Source device address (R15) [RW, 08_associative_and_pattern_search.md] -/
  | PAT_CH_src
  /-- Bytes [RW, 08_associative_and_pattern_search.md] -/
  | PAT_CH_length
  /-- SCAN destination device address [RW, 08_associative_and_pattern_search.md] -/
  | PAT_CH_dst
  /-- 1 to 4,096 [RW, 08_associative_and_pattern_search.md] -/
  | PAT_CH_max_reports
  /-- Force bypass (R263) [RW, 08_associative_and_pattern_search.md] -/
  | PAT_REGION_CFG_bypass
  /-- Core queue for bypassed scans [RW, 08_associative_and_pattern_search.md] -/
  | PAT_REGION_CFG_scan_q
  /-- Bit e is 1 while engine e is in service [RO, 08_associative_and_pattern_search.md] -/
  | PAT_REGION_STAT_engine_ok
  /-- R263 [RO, 08_associative_and_pattern_search.md] -/
  | PAT_REGION_STAT_bypass_active
  /-- R258, saturating [RC, 08_associative_and_pattern_search.md] -/
  | PAT_REGION_STAT_set_absent
  /-- R261, saturating [RC, 08_associative_and_pattern_search.md] -/
  | PAT_REGION_STAT_nfa_overflow
  /-- Table ETH-1; R267 [RW, 09_ethernet_ports.md] -/
  | ETH_MODE_mode
  /-- R267 [W1C, 09_ethernet_ports.md] -/
  | ETH_MODE_mode_rejected
  /-- R273 [RO, 09_ethernet_ports.md] -/
  | ETH_MODE_hr_overcommit
  /-- Table ETH-3 [RW, 09_ethernet_ports.md] -/
  | ETH_PORT_CFG_enable
  /-- Clause 73 auto-negotiation [RW, 09_ethernet_ports.md] -/
  | ETH_PORT_CFG_an_en
  /-- 0 NONE, 1 PAUSE, 2 PFC, 3 reserved, acts as NONE [RW, 09_ethernet_ports.md] -/
  | ETH_PORT_CFG_fc_mode
  /-- Bit c: class c lossless [RW, 09_ethernet_ports.md] -/
  | ETH_PORT_CFG_lossless
  /-- SecY in use [RW, 09_ethernet_ports.md] -/
  | ETH_PORT_CFG_macsec_en
  /-- Sets threshold to 4 (R279); reads 0 [W1S, 09_ethernet_ports.md] -/
  | ETH_PORT_CFG_reset_thr
  /-- Bytes, 1,518 to 9,728; other values act as 1,518 [RW, 09_ethernet_ports.md] -/
  | ETH_PORT_CFG_max_frame
  /-- 0 DISABLED, 1 TRAINING, 2 UP, 3 DOWN [RO, 09_ethernet_ports.md] -/
  | ETH_PORT_STATUS_state
  /-- R269 [W1C, 09_ethernet_ports.md] -/
  | ETH_PORT_STATUS_link_changed
  /-- Remote fault being received [RO, 09_ethernet_ports.md] -/
  | ETH_PORT_STATUS_remote_fault
  /-- Start threshold, 64-byte units (R276) [RO, 09_ethernet_ports.md] -/
  | ETH_PORT_STATUS_threshold
  /-- Table ETH-3, saturating [RC, 09_ethernet_ports.md] -/
  | ETH_PORT_STATUS_train_fail
  /-- 1 KiB units (R274) [RW, 09_ethernet_ports.md] -/
  | ETH_PFC_CLASS_xoff_thr
  /-- 256-byte units; counts only for a lossless class (R273) [RW, 09_ethernet_ports.md] -/
  | ETH_PFC_CLASS_headroom
  /-- 1 KiB units [RW, 09_ethernet_ports.md] -/
  | ETH_PFC_CLASS_xon_gap
  /-- 0 GCM-AES-128, 1 GCM-AES-256, 2 GCM-AES-XPN-128, 3 GCM-AES-XPN-256 [RW, 09_ethernet_ports.md] -/
  | ETH_MSEC_CFG_suite
  /-- 0, 30, 50 bytes; 3 acts as 0 [RW, 09_ethernet_ports.md] -/
  | ETH_MSEC_CFG_conf_off
  /-- 0 Disabled, 1 Check, 2 Strict, 3 acts as Strict [RW, 09_ethernet_ports.md] -/
  | ETH_MSEC_CFG_validate
  /-- Include SCI in SecTAG [RW, 09_ethernet_ports.md] -/
  | ETH_MSEC_CFG_send_sci
  /-- Transmit SA (R282) [RW, 09_ethernet_ports.md] -/
  | ETH_MSEC_CFG_tx_an
  /-- R282 [W1C, 09_ethernet_ports.md] -/
  | ETH_MSEC_CFG_pn_warn_hit
  /-- Replay window, low 22 bits; larger windows use ETH_MSEC_SA word 0x18 [RW, 09_ethernet_ports.md] -/
  | ETH_MSEC_CFG_replay_win
  /-- SCI bytes 4 to 7 (R15) [RW, 09_ethernet_ports.md] -/
  | ETH_MSEC_RXSC_sci
  /-- SC in use [RW, 09_ethernet_ports.md] -/
  | ETH_MSEC_RXSC_enable
  /-- Key-store slot (R281) [RW, 09_ethernet_ports.md] -/
  | ETH_MSEC_SA_key_slot
  /-- SA in use; a write of 1 loads the key [RW, 09_ethernet_ports.md] -/
  | ETH_MSEC_SA_valid
  /-- Transmit: next PN; receive: lowest acceptable PN (R15) [RW, 09_ethernet_ports.md] -/
  | ETH_MSEC_SA_pn
  /-- Transmit warning PN [RW, 09_ethernet_ports.md] -/
  | ETH_MSEC_SA_pn_warn
  /-- XPN short SCI [RW, 09_ethernet_ports.md] -/
  | ETH_MSEC_SA_ssci
  /-- Bits [29:22] of the replay window [RW, 09_ethernet_ports.md] -/
  | ETH_MSEC_SA_replay_win_hi
  /-- Counter bits [31:0]; snapshots count_hi (R13) [RO, 09_ethernet_ports.md] -/
  | ETH_STAT_count
  /-- Half-full bits of the port counters [W1C, 09_ethernet_ports.md] -/
  | ETH_STAT_HALF
  /-- R286 [RW, 09_ethernet_ports.md] -/
  | ETH_WAKE_CFG_wake_en
  /-- R287 [RW, 09_ethernet_ports.md] -/
  | ETH_WAKE_CFG_magic_en
  /-- Bit k enables pattern k [RW, 09_ethernet_ports.md] -/
  | ETH_WAKE_CFG_pat_en
  /-- R286 [RW, 09_ethernet_ports.md] -/
  | ETH_WAKE_CFG_an_en
  /-- BASE-R FEC on the wake link [RW, 09_ethernet_ports.md] -/
  | ETH_WAKE_CFG_fec_en
  /-- _HI [15:0] holds bytes 0 and 1, with byte 1 in [7:0]. [RW, 09_ethernet_ports.md] -/
  | ETH_WAKE_MAC
  /-- A match occurred (R288) [W1C, 09_ethernet_ports.md] -/
  | ETH_WAKE_STATUS_woke
  /-- The match was a magic packet [RO, 09_ethernet_ports.md] -/
  | ETH_WAKE_STATUS_by_magic
  /-- Pattern k that matched, when by_magic is 0 [RO, 09_ethernet_ports.md] -/
  | ETH_WAKE_STATUS_pattern
  /-- Wake pattern words 0 to 31 (bytes 0 to 127), index k*32+j [RW, 09_ethernet_ports.md] -/
  | ETH_WAKE_PAT_word
  /-- Wake pattern mask words, index k*4+j [RW, 09_ethernet_ports.md] -/
  | ETH_WAKE_PAT_mask
  /-- Package answers NC-SI commands [RW, 09_ethernet_ports.md] -/
  | ETH_NCSI_CFG_enable
  /-- DSP0222 package ID [RW, 09_ethernet_ports.md] -/
  | ETH_NCSI_CFG_package_id
  /-- R292, saturating [RC, 09_ethernet_ports.md] -/
  | ETH_NCSI_STAT_ncsi_drops
  /-- R307; 0 discards at once [RW, 10_traffic_scheduling.md] -/
  | SCH_PORT_CFG_down_hold_ms
  /-- R307, saturating [RC, 10_traffic_scheduling.md] -/
  | SCH_PORT_DROP_link_drops
  /-- BAD_QUEUE and NO_QUEUE (R296), saturating [RC, 10_traffic_scheduling.md] -/
  | SCH_PORT_DROP_queue_errs
  /-- R308, saturating [RC, 10_traffic_scheduling.md] -/
  | SCH_PORT_DROP_reload_drops
  /-- Sampling in use [RW, 10_traffic_scheduling.md] -/
  | SCH_SAMPLE_CFG_enable
  /-- PF2 of endpoint 0 or 1 [RW, 10_traffic_scheduling.md] -/
  | SCH_SAMPLE_CFG_endpoint
  /-- 2^n slots, n = 8 to 16; lower values act as 8, higher as 16 (R310) [RW, 10_traffic_scheduling.md] -/
  | SCH_SAMPLE_CFG_log2_slots
  /-- SAMPLE_PERIOD, µs, 10 to 65,535; lower values act as 10 [RW, 10_traffic_scheduling.md] -/
  | SCH_SAMPLE_CFG_period_us
  /-- Bits [11:0] of _LO are reserved: they read 0 and writes to them are ignored, so the base is always 4 KiB aligned. [RW, 10_traffic_scheduling.md] -/
  | SCH_SAMPLE_RING_BASE
  /-- offset 0x010C; IOD0, IOD1; P0, P1. RO, reset 0. [15:0] next slot the device writes. [RO, 10_traffic_scheduling.md] -/
  | SCH_SAMPLE_PROD
  /-- offset 0x0110; IOD0, IOD1; P0, P1. RW, reset 0. [15:0] next slot software reads. [RW, 10_traffic_scheduling.md] -/
  | SCH_SAMPLE_CONS
  /-- R310, saturating [RC, 10_traffic_scheduling.md] -/
  | SCH_SAMPLE_STAT_sample_drops
  /-- Queue sampled [RW, 10_traffic_scheduling.md] -/
  | SCH_SAMPLE_Q_queue
  /-- Entry in use [RW, 10_traffic_scheduling.md] -/
  | SCH_SAMPLE_Q_enable
  /-- 64-byte units, 1 to 262,144 (64 B to 16 MiB); 0 acts as 1, larger values as 262,144 [RW, 10_traffic_scheduling.md] -/
  | SCH_NODE_quantum
  /-- Committed bucket in use; applied by the pbs write [RW, 10_traffic_scheduling.md] -/
  | SCH_NODE_cir_en
  /-- Peak bucket in use; applied by the pbs write [RW, 10_traffic_scheduling.md] -/
  | SCH_NODE_pir_en
  /-- Table SCHD-5 [RW, 10_traffic_scheduling.md] -/
  | SCH_NODE_reset_mode
  /-- Mb/s [RW, 10_traffic_scheduling.md] -/
  | SCH_NODE_cir
  /-- Mb/s [RW, 10_traffic_scheduling.md] -/
  | SCH_NODE_pir
  /-- Bytes [RW, 10_traffic_scheduling.md] -/
  | SCH_NODE_cbs
  /-- Bytes; the write applies the shaper (R303) [RW, 10_traffic_scheduling.md] -/
  | SCH_NODE_pbs
  /-- A frame is queued beneath the node [RO, 10_traffic_scheduling.md] -/
  | SCH_NODE_backlogged
  /-- Held by its peak bucket [RO, 10_traffic_scheduling.md] -/
  | SCH_NODE_shaped
  /-- In its parent's committed tier [RO, 10_traffic_scheduling.md] -/
  | SCH_NODE_committed
  /-- Held by credit, pause or launch gate (Table SCHD-3) [RO, 10_traffic_scheduling.md] -/
  | SCH_NODE_held
  /-- Queues only: 256-byte units (reset 1 MiB); other nodes read 0 and ignore writes [RW, 10_traffic_scheduling.md] -/
  | SCH_NODE_max_depth
  /-- Current deficit, bytes, two's complement [RO, 10_traffic_scheduling.md] -/
  | SCH_NODE_deficit
  /-- Bytes queued [RO, 10_traffic_scheduling.md] -/
  | SCH_QSTAT_depth_bytes
  /-- QUEUE_FULL drops (R297), saturating [RC, 10_traffic_scheduling.md] -/
  | SCH_QSTAT_drops
  /-- Frames queued, saturating [RO, 10_traffic_scheduling.md] -/
  | SCH_QSTAT_depth_frames
  /-- R312 [RW, 10_traffic_scheduling.md] -/
  | SCH_RECON_CFG_enable
  /-- KiB (reset 1 MiB); 0 acts as 1 [RW, 10_traffic_scheduling.md] -/
  | SCH_RECON_CFG_debt_cap
  /-- Largest \ [RC, 10_traffic_scheduling.md] -/
  | SCH_RECON_STAT_max_debt
  /-- Epochs in which a debt was clamped, saturating [RC, 10_traffic_scheduling.md] -/
  | SCH_RECON_STAT_cap_hits
  /-- R312; 0 acts as 1 [RW, 10_traffic_scheduling.md] -/
  | SCH_TENANT_WEIGHT_weight
  /-- quantum[r][t] in force, bytes (R312); 0 when t is not placed in the region [RO, 10_traffic_scheduling.md] -/
  | SCH_REGION_QUANTUM_quantum
  /-- R314; 0 disables Sillage [RW, 11_sillage_transport.md] -/
  | SIL_CFG_udp_port
  /-- R343 [RW, 11_sillage_transport.md] -/
  | SIL_CFG_roce_en
  /-- Packets per ACK, 1 to 15; 0 acts as 1 [RW, 11_sillage_transport.md] -/
  | SIL_ACK_CFG_ack_every
  /-- 100 ns units (reset 2 µs); 0 acts as 1 [RW, 11_sillage_transport.md] -/
  | SIL_ACK_CFG_ack_delay
  /-- R333 [RW, 11_sillage_transport.md] -/
  | SIL_ACK_CFG_max_retx
  /-- Table SILL-8 [RW, 11_sillage_transport.md] -/
  | SIL_ACK_CFG_rnr_retries
  /-- µs; values below 20 act as 20 [RW, 11_sillage_transport.md] -/
  | SIL_PATH_CFG_min_rto
  /-- µs [RW, 11_sillage_transport.md] -/
  | SIL_PATH_CFG_max_rto
  /-- R333; 0 acts as 1 [RW, 11_sillage_transport.md] -/
  | SIL_PATH_CFG_retire_count
  /-- R333; 0 acts as 1 [RW, 11_sillage_transport.md] -/
  | SIL_PATH_CFG1_probe_ms
  /-- R335; 0 acts as 1 [RW, 11_sillage_transport.md] -/
  | SIL_PATH_CFG1_base_window_ms
  /-- R335 [RW, 11_sillage_transport.md] -/
  | SIL_CC_CFG0_target_ns
  /-- 0.25 ns (reset 100 ns); R334 [RW, 11_sillage_transport.md] -/
  | SIL_CC_CFG0_owd_unc_max
  /-- R335 [RW, 11_sillage_transport.md] -/
  | SIL_CC_CFG1_ai_mbps
  /-- 1/256 units [RW, 11_sillage_transport.md] -/
  | SIL_CC_CFG1_beta
  /-- Mb/s [RW, 11_sillage_transport.md] -/
  | SIL_CC_CFG2_init_rate
  /-- Mb/s; 0 acts as 1 [RW, 11_sillage_transport.md] -/
  | SIL_CC_CFG3_min_rate
  /-- Serving region (R342); writes naming an offline region are ignored [RW, 11_sillage_transport.md] -/
  | SIL_REDIRECT_region
  /-- Table SILL-5; the write issues the command [WO, 11_sillage_transport.md] -/
  | SIL_CH_op
  /-- Context index [WO, 11_sillage_transport.md] -/
  | SIL_CH_index
  /-- Command in progress; a write to op while set is ignored [RO, 11_sillage_transport.md] -/
  | SIL_CH_busy
  /-- Table SILL-12 [RO, 11_sillage_transport.md] -/
  | SIL_CH_result
  /-- QUERY: 0 FREE, 1 ACTIVE, 2 ERROR [RO, 11_sillage_transport.md] -/
  | SIL_CH_state
  /-- QUERY: paths not retired; 0 means 256 when state is ACTIVE [RO, 11_sillage_transport.md] -/
  | SIL_CH_active_paths
  /-- Returned by CREATE and QUERY [RO, 11_sillage_transport.md] -/
  | SIL_CH_conn_id
  /-- SIL_CH_REC[0..23], Table SILL-6, bytes 4j to 4j + 3 (index instance*24 + word) [RW, 11_sillage_transport.md] -/
  | SIL_CH_record
  /-- R328, saturating [RC, 11_sillage_transport.md] -/
  | SIL_RX_CNT0_dup_pkts
  /-- R328, saturating [RC, 11_sillage_transport.md] -/
  | SIL_RX_CNT0_oow_drops
  /-- R336, R343, saturating [RC, 11_sillage_transport.md] -/
  | SIL_RX_CNT1_tag_fail
  /-- R321, saturating [RC, 11_sillage_transport.md] -/
  | SIL_RX_CNT1_conn_unknown
  /-- R318, saturating [RC, 11_sillage_transport.md] -/
  | SIL_RX_CNT1_bad_header
  /-- Retransmissions, saturating [RC, 11_sillage_transport.md] -/
  | SIL_TX_CNT_retx_pkts
  /-- Paths retired, saturating [RC, 11_sillage_transport.md] -/
  | SIL_TX_CNT_path_retire
  /-- R334, in units of 1,024 samples, saturating [RC, 11_sillage_transport.md] -/
  | SIL_TX_CNT_fallback_rtt
  /-- R320, saturating [RC, 11_sillage_transport.md] -/
  | SIL_CACHE_CNT_cache_miss
  /-- retry_us sent in RETRY_AFTER (R354); 0 acts as 1 [RW, 12_memory_registration_and_paging.md] -/
  | MKY_CFG_retry_us
  /-- R353; 0 acts as 1 [RW, 12_memory_registration_and_paging.md] -/
  | MKY_CFG_pri_timeout_ms
  /-- Table MREG-4; the write issues the command [WO, 12_memory_registration_and_paging.md] -/
  | MKY_CH_op
  /-- Key index [WO, 12_memory_registration_and_paging.md] -/
  | MKY_CH_index
  /-- Key variant [WO, 12_memory_registration_and_paging.md] -/
  | MKY_CH_variant
  /-- Command in progress; a write to op while set is ignored [RO, 12_memory_registration_and_paging.md] -/
  | MKY_CH_busy
  /-- Table MREG-5 [RO, 12_memory_registration_and_paging.md] -/
  | MKY_CH_result
  /-- revoke_at of the last INVALIDATE_MKEY (R13) [RO, 12_memory_registration_and_paging.md] -/
  | MKY_CH_revoke_at
  /-- MKY_CH_REC[0..15], Table MREG-1, bytes 4j to 4j + 3; PREFETCH uses the va and length words (index instance*16 + word) [RW, 12_memory_registration_and_paging.md] -/
  | MKY_CH_record
  /-- Inbound ACCESS_ERR NAKs (R348), saturating [RC, 12_memory_registration_and_paging.md] -/
  | MKY_REGION_CNT0_access_err
  /-- Inbound ACCESS_REVOKED NAKs, saturating [RC, 12_memory_registration_and_paging.md] -/
  | MKY_REGION_CNT0_revoked
  /-- RETRY_AFTER NAKs sent (R354), saturating [RC, 12_memory_registration_and_paging.md] -/
  | MKY_REGION_CNT1_retry_after
  /-- R356, saturating [RC, 12_memory_registration_and_paging.md] -/
  | MKY_REGION_CNT1_out_stalls
  /-- R346, in units of 1,024, saturating [RC, 12_memory_registration_and_paging.md] -/
  | MKY_REGION_CNT1_key_miss
  /-- Page requests outstanding [RO, 12_memory_registration_and_paging.md] -/
  | MKY_PRI_STAT_outstanding
  /-- Failed or timed-out page requests (R353), saturating [RC, 12_memory_registration_and_paging.md] -/
  | MKY_PRI_STAT_pri_fail
  /-- R379, 1 to 30,000; 0 acts as 1, larger values as 30,000 [RW, 13_storage_offload.md] -/
  | NVE_CFG_reset_limit_ms
  /-- Backend response timeout, 100 ms units (reset 5 s); 0 acts as 1 [RW, 13_storage_offload.md] -/
  | NVE_CFG_io_timeout_100ms
  /-- Resends in Table STOR-6 [RW, 13_storage_offload.md] -/
  | NVE_CFG_retries
  /-- Table STOR-2; the write issues the command [WO, 13_storage_offload.md] -/
  | NVE_CH_op
  /-- Backend (0 to 4,095) or namespace (0 to 16,383) [WO, 13_storage_offload.md] -/
  | NVE_CH_index
  /-- Command in progress; a write to op while set is ignored [RO, 13_storage_offload.md] -/
  | NVE_CH_busy
  /-- Table STOR-8 [RO, 13_storage_offload.md] -/
  | NVE_CH_result
  /-- Controller k, NS_ATTACH and NS_DETACH [RW, 13_storage_offload.md] -/
  | NVE_CH_ctrl
  /-- 1 to 256 [RW, 13_storage_offload.md] -/
  | NVE_CH_nsid
  /-- NVE_CH_REC[0..31], Table STOR-3 or STOR-5, bytes 4j to 4j + 3 (index instance*32 + word) [RW, 13_storage_offload.md] -/
  | NVE_CH_record
  /-- R361, R363 [RW, 13_storage_offload.md] -/
  | NVE_CTRL_CFG_enable
  /-- R375, R376; applies to commands fetched after the write [RW, 13_storage_offload.md] -/
  | NVE_CTRL_CFG_overlap_order
  /-- I/O queue pairs, 1 to 64; other values act as 64 [RW, 13_storage_offload.md] -/
  | NVE_CTRL_CFG_max_ioq
  /-- 0 DISABLED, 1 READY, 2 RESETTING, 3 SHUTDOWN [RO, 13_storage_offload.md] -/
  | NVE_CTRL_STAT_state
  /-- Fetch stopped under R383 [RO, 13_storage_offload.md] -/
  | NVE_CTRL_STAT_activating
  /-- Commands fetched and not completed, saturating [RO, 13_storage_offload.md] -/
  | NVE_CTRL_STAT_outstanding
  /-- Queues connected, 0 to 64 [RO, 13_storage_offload.md] -/
  | NVE_BE_STAT_connected
  /-- Queue reconnections, saturating [RC, 13_storage_offload.md] -/
  | NVE_BE_STAT_reconnects
  /-- Backend timeouts (Table STOR-6), saturating [RC, 13_storage_offload.md] -/
  | NVE_BE_STAT_timeouts
  /-- Commands resent, saturating [RC, 13_storage_offload.md] -/
  | NVE_BE_STAT_resends
  /-- Commands held in ORDER_WAIT by a conflict, in units of 256, saturating [RC, 13_storage_offload.md] -/
  | NVE_REGION_CNT0_order_waits
  /-- R378, saturating [RC, 13_storage_offload.md] -/
  | NVE_REGION_CNT0_aborts_caught
  /-- R379, saturating [RC, 13_storage_offload.md] -/
  | NVE_REGION_CNT1_late_resp
  /-- Commands completed with Transient Transport Error, saturating [RC, 13_storage_offload.md] -/
  | NVE_REGION_CNT1_transport_err
  /-- Table CIPH-6; the write issues the command [WO, 14_cipher_engines_and_key_store.md] -/
  | KEY_CH_op
  /-- R399 [WO, 14_cipher_engines_and_key_store.md] -/
  | KEY_CH_tenant
  /-- Command in progress; a write to op while set is ignored [RO, 14_cipher_engines_and_key_store.md] -/
  | KEY_CH_busy
  /-- Table CIPH-8 [RO, 14_cipher_engines_and_key_store.md] -/
  | KEY_CH_result
  /-- Target slot [RW, 14_cipher_engines_and_key_store.md] -/
  | KEY_CH_slot
  /-- KEK, source or MAC key [RW, 14_cipher_engines_and_key_store.md] -/
  | KEY_CH_src_slot
  /-- Table CIPH-4 attr for creation; valid ignored; written by QUERY [RW, 14_cipher_engines_and_key_store.md] -/
  | KEY_CH_attr
  /-- UNWRAP: wrapped bytes, 24 to 72, multiple of 8; DERIVE: info_key bytes, 0 to 64 [RW, 14_cipher_engines_and_key_store.md] -/
  | KEY_CH_len_a
  /-- UNWRAP: suffix bytes, 0 to 12; DERIVE: info_salt bytes, 0 to 64 [RW, 14_cipher_engines_and_key_store.md] -/
  | KEY_CH_len_b
  /-- Table CIPH-7 [RW, 14_cipher_engines_and_key_store.md] -/
  | KEY_CH_kdf
  /-- MAC data, device address in HBM (R15) [RW, 14_cipher_engines_and_key_store.md] -/
  | KEY_CH_src_addr
  /-- MAC bytes, 1 to 65,536 [RW, 14_cipher_engines_and_key_store.md] -/
  | KEY_CH_length
  /-- KEY_CH_DATA[0..31]; operand bytes 4j to 4j + 3, in the order len_a then len_b; MAC result (index instance*32 + word) [RW, 14_cipher_engines_and_key_store.md] -/
  | KEY_CH_data
  /-- R395, saturating [RC, 14_cipher_engines_and_key_store.md] -/
  | KEY_STAT_slots_corrupt
  /-- R389, saturating [RC, 14_cipher_engines_and_key_store.md] -/
  | KEY_STAT_load_refused
  /-- R392, saturating [RC, 14_cipher_engines_and_key_store.md] -/
  | CIP_REGION_CNT0_cipher_fail
  /-- R392, saturating [RC, 14_cipher_engines_and_key_store.md] -/
  | CIP_REGION_CNT0_fault_mismatch
  /-- R398, saturating [RC, 14_cipher_engines_and_key_store.md] -/
  | CIP_REGION_CNT1_key_miss
  /-- Table CORE-8 [RW, 15_service_cores.md] -/
  | COR_CORE_run
  /-- Table CORE-8; reads 0 [W1S, 15_service_cores.md] -/
  | COR_CORE_halt_req
  /-- 0 RESET, 1 RUNNING, 2 HALTED [RO, 15_service_cores.md] -/
  | COR_CORE_state
  /-- R403 [RO, 15_service_cores.md] -/
  | COR_CORE_hartid
  /-- Start address (R15, R417) [RW, 15_service_cores.md] -/
  | COR_CORE_entry
  /-- Value in a1 [RW, 15_service_cores.md] -/
  | COR_CORE_arg
  /-- Injection ring device address, 4 KiB aligned [RW, 15_service_cores.md] -/
  | COR_CORE_inj_base
  /-- Ring in use [RW, 15_service_cores.md] -/
  | COR_CORE_inj_enable
  /-- 2^n descriptors, n = 4 to 12 [RW, 15_service_cores.md] -/
  | COR_CORE_inj_log2
  /-- Free-running count [RW, 15_service_cores.md] -/
  | COR_CORE_inj_prod
  /-- Free-running count [RO, 15_service_cores.md] -/
  | COR_CORE_inj_cons
  /-- R416, saturating [RC, 15_service_cores.md] -/
  | COR_CORE_bad_desc
  /-- Ring device address in HBM or a region SRAM window, 4 KiB aligned [RW, 15_service_cores.md] -/
  | COR_Q_base
  /-- Queue in use; a disabled queue is full [RW, 15_service_cores.md] -/
  | COR_Q_enable
  /-- 0 PUNT, 1 MAILBOX [RW, 15_service_cores.md] -/
  | COR_Q_mode
  /-- 4 to 15 [RW, 15_service_cores.md] -/
  | COR_Q_log2_entries
  /-- Target core i of this region, 0 to 5; 6 and 7 name no core (R414) [RW, 15_service_cores.md] -/
  | COR_Q_core
  /-- 0 machine; 1 supervisor; 2 to 6 guest 1 to 5; 7 none [RW, 15_service_cores.md] -/
  | COR_Q_file
  /-- 1 to 255; 0 names no identity (R414) [RW, 15_service_cores.md] -/
  | COR_Q_identity
  /-- R413 [RO, 15_service_cores.md] -/
  | COR_Q_prod
  /-- R413 [RW, 15_service_cores.md] -/
  | COR_Q_cons
  /-- R414 [WO, 15_service_cores.md] -/
  | COR_Q_arm
  /-- R413, saturating [RC, 15_service_cores.md] -/
  | COR_Q_drops
  /-- R413 [W1C, 15_service_cores.md] -/
  | COR_Q_cons_err
  /-- R414 [RO, 15_service_cores.md] -/
  | COR_Q_armed
  /-- Each read allocates a span to firmware (R415) [RO, 15_service_cores.md] -/
  | COR_PKT_ALLOC_handle
  /-- A span was allocated [RO, 15_service_cores.md] -/
  | COR_PKT_ALLOC_valid
  /-- Target core, 0 to 52 [WO, 15_service_cores.md] -/
  | COR_IPI_hartid
  /-- As COR_Q file, 0 to 6 [WO, 15_service_cores.md] -/
  | COR_IPI_file
  /-- 1 to 255 (R410) [WO, 15_service_cores.md] -/
  | COR_IPI_identity
  /-- R423; kept across PEn_PERST_N [RW, 16_host_interface.md] -/
  | PCI_EP_CFG_cfg_ready
  /-- R420 [RO, 16_host_interface.md] -/
  | PCI_EP_CFG_pf3_present
  /-- DL_Up [RO, 16_host_interface.md] -/
  | PCI_EP_CFG_link_up
  /-- 0 none, 1 2.5, 2 5.0, 3 8.0, 4 16.0, 5 32.0, 6 64.0 GT/s; 7 reserved [RO, 16_host_interface.md] -/
  | PCI_EP_CFG_speed
  /-- Negotiated lanes, 0 to 16 [RO, 16_host_interface.md] -/
  | PCI_EP_CFG_width
  /-- FLIT mode in use [RO, 16_host_interface.md] -/
  | PCI_EP_CFG_flit
  /-- R420: the applied image's pf3_en differs from the presence read at reset [RO, 16_host_interface.md] -/
  | PCI_EP_CFG_pf3_mismatch
  /-- Subsystem Vendor ID (R421) [RW, 16_host_interface.md] -/
  | PCI_ID_CFG_ssvid
  /-- Subsystem ID [RW, 16_host_interface.md] -/
  | PCI_ID_CFG_ssid
  /-- Bits [25:0] of _LO are reserved and read 0, and bits [31:16] of _HI are reserved and read 0. [RW, 16_host_interface.md] -/
  | PCI_APERTURE
  /-- TAG_QUARANTINE, ms (R434); 0 acts as 1 [RW, 16_host_interface.md] -/
  | PCI_TAG_CFG_quarantine_ms
  /-- Tags now in quarantine, saturating [RO, 16_host_interface.md] -/
  | PCI_TAG_CFG_quarantined
  /-- R433, saturating [RC, 16_host_interface.md] -/
  | PCI_CPL_STAT0_timeouts
  /-- R434, saturating [RC, 16_host_interface.md] -/
  | PCI_CPL_STAT0_late_cpls
  /-- R435, saturating [RC, 16_host_interface.md] -/
  | PCI_CPL_STAT1_flushed_cpls
  /-- UR, CA and poisoned completions (R433), saturating [RC, 16_host_interface.md] -/
  | PCI_CPL_STAT1_err_cpls
  /-- Entries to DL_Down, saturating [RC, 16_host_interface.md] -/
  | PCI_LINK_STAT_dl_down
  /-- R442, in units of 256, saturating [RC, 16_host_interface.md] -/
  | PCI_LINK_STAT_host_down_drops
  /-- Function exists (PF3 per R420; VFs while VF Enable and below NumVFs) [RO, 16_host_interface.md] -/
  | PCI_FN_STAT_present
  /-- Bus Master Enable as set by the host [RO, 16_host_interface.md] -/
  | PCI_FN_STAT_bme
  /-- R436 [W1C, 16_host_interface.md] -/
  | PCI_FN_STAT_bme_abort
  /-- R438 [RO, 16_host_interface.md] -/
  | PCI_FN_STAT_flr_active
  /-- 0 D0, 3 D3hot; 1 and 2 not used [RO, 16_host_interface.md] -/
  | PCI_FN_STAT_dstate
  /-- COMPLETION_STALL_TIMEOUT, ms; 0 acts as 1 [RW, 17_rings_and_work_queues.md] -/
  | RNG_CFG_stall_ms
  /-- R446 [W1C, 17_rings_and_work_queues.md] -/
  | RNG_CFG_map_err
  /-- BAD_DESC completions, saturating [RC, 17_rings_and_work_queues.md] -/
  | RNG_STAT_bad_desc
  /-- Completions discarded (Table RING-9), saturating [RC, 17_rings_and_work_queues.md] -/
  | RNG_STAT_cpl_lost
  /-- First local ring [RW, 17_rings_and_work_queues.md] -/
  | RNG_FN_MAP_ring_base
  /-- Rings owned, 0 to 32,768 [RW, 17_rings_and_work_queues.md] -/
  | RNG_FN_MAP_ring_count
  /-- R451; 0 acts as 1 [RW, 17_rings_and_work_queues.md] -/
  | RNG_NVME_WRR_weight
  /-- Ring IOVA (R15); bits [11:0] of base_lo reserved [RW, 17_rings_and_work_queues.md] -/
  | RNG_RING_base
  /-- Table RING-1 [RW, 17_rings_and_work_queues.md] -/
  | RNG_RING_kind
  /-- 4 to 16; others act as 4 [RW, 17_rings_and_work_queues.md] -/
  | RNG_RING_log2_size
  /-- Table RING-9 [RW, 17_rings_and_work_queues.md] -/
  | RNG_RING_enable
  /-- R445 [RW, 17_rings_and_work_queues.md] -/
  | RNG_RING_pasid_en
  /-- PASID [RW, 17_rings_and_work_queues.md] -/
  | RNG_RING_pasid
  /-- Work rings: 1 to 255; 0 acts as 1 [RW, 17_rings_and_work_queues.md] -/
  | RNG_RING_weight
  /-- Work rings: burst − 1 (1 to 64) [RW, 17_rings_and_work_queues.md] -/
  | RNG_RING_burst_m1
  /-- Work rings: local index of the CPL ring [RW, 17_rings_and_work_queues.md] -/
  | RNG_RING_cq
  /-- CPL, EVT: 256 ns units [RW, 17_rings_and_work_queues.md] -/
  | RNG_RING_mod_time
  /-- Work rings: head (R460); CPL, EVT: prod; 17-bit count (R445) [RO, 17_rings_and_work_queues.md] -/
  | RNG_RING_head
  /-- Table RING-11 [RO, 17_rings_and_work_queues.md] -/
  | RNG_RING_state
  /-- R462 [RO, 17_rings_and_work_queues.md] -/
  | RNG_RING_armed
  /-- R447, R462 [W1C, 17_rings_and_work_queues.md] -/
  | RNG_RING_cfg_err
  /-- R449 [W1C, 17_rings_and_work_queues.md] -/
  | RNG_RING_doorbell_err
  /-- Work rings: tail; CPL, EVT: cons; 17-bit count (R445) [RO, 17_rings_and_work_queues.md] -/
  | RNG_RING_tail
  /-- RX: R455; CPL: cpl_lost of this ring; saturating at 0x7FFF [RC, 17_rings_and_work_queues.md] -/
  | RNG_RING_drops
  /-- Word 0x10: TX port [3:0], queue [17:4], launch_prof [21:18]; CPL and EVT vector [11:0], mod_count [30:22] (one storage, read by kind) [RW, 17_rings_and_work_queues.md] -/
  | RNG_RING_cfg10
  /-- Local index of the EVT ring (R458) [RW, 17_rings_and_work_queues.md] -/
  | RNG_FN_EVT_ring
  /-- Events posted [RW, 17_rings_and_work_queues.md] -/
  | RNG_FN_EVT_enable
  /-- R458, saturating [RC, 17_rings_and_work_queues.md] -/
  | RNG_FN_STAT_evt_drops
  /-- Table TEN-6; the write issues the command [WO, 18_tenants.md] -/
  | TEN_CMD_op
  /-- Tenant 0 to 255 [WO, 18_tenants.md] -/
  | TEN_CMD_tenant
  /-- Command in progress; a write to op while set is ignored [RO, 18_tenants.md] -/
  | TEN_CMD_STATUS_busy
  /-- Table TEN-7 [RO, 18_tenants.md] -/
  | TEN_CMD_STATUS_result
  /-- base 0x010, stride 0x4, k = 0 to 11; CTD; no region scope. RW, reset 0. Bytes 4k to 4k + 3 of Table TEN-2. [RW, 18_tenants.md] -/
  | TEN_REC
  /-- 0 FREE, 1 ACTIVE, 2 FATAL, 3 reserved [RO, 18_tenants.md] -/
  | TEN_STATE_state
  /-- The last FATAL came from FORCE_FATAL [RO, 18_tenants.md] -/
  | TEN_STATE_forced
  /-- R469, saturating [RC, 18_tenants.md] -/
  | TEN_STATE_quota_hits
  /-- Owner (R471); reads 0 for f = 2 [RW, 18_tenants.md] -/
  | TEN_FN_OWNER_tenant
  /-- R471 [W1C, 18_tenants.md] -/
  | TEN_FN_OWNER_own_err
  /-- R475, saturating [RC, 18_tenants.md] -/
  | TEN_DROP_CNT_fatal_drops
  /-- R485; with 0, charges are counted and nothing waits [RW, 19_energy_ledger_and_ageing.md] -/
  | NRL_CFG_enforce
  /-- Table ENGY-5 [RW, 19_energy_ledger_and_ageing.md] -/
  | NRL_CFG_profile
  /-- R491, last epoch [RO, 19_energy_ledger_and_ageing.md] -/
  | NRL_CFG_over_budget
  /-- R484 [RO, 19_energy_ledger_and_ageing.md] -/
  | NRL_CFG_meas_stale
  /-- R483 [W1C, 19_energy_ledger_and_ageing.md] -/
  | NRL_CFG_cal_alert
  /-- POWER_BUDGET_MW; values below 80,000 act as 80,000, above 340,000 as 340,000 [RW, 19_energy_ledger_and_ageing.md] -/
  | NRL_BUDGET_budget_mw
  /-- R490 [RW, 19_energy_ledger_and_ageing.md] -/
  | NRL_MIN_GRANT_min_grant_uj
  /-- R481 [RW, 19_energy_ledger_and_ageing.md] -/
  | NRL_IOD_COST_iod_frame_nj
  /-- R481 [RW, 19_energy_ledger_and_ageing.md] -/
  | NRL_IOD_COST_iod_byte_pj
  /-- Rails read, 0 to 8; 9 to 15 act as 8 [RW, 19_energy_ledger_and_ageing.md] -/
  | NRL_PMBUS_CFG_n_rails
  /-- 7-bit PMBus address of rail k [RW, 19_energy_ledger_and_ageing.md] -/
  | NRL_PMBUS_ADDR_addr
  /-- PAGE value; 0xFF none [RW, 19_energy_ledger_and_ageing.md] -/
  | NRL_PMBUS_ADDR_page
  /-- R484, saturating [RC, 19_energy_ledger_and_ageing.md] -/
  | NRL_PMBUS_ADDR_pmbus_err
  /-- R483, last epoch [RO, 19_energy_ledger_and_ageing.md] -/
  | NRL_MEAS_meas_mw
  /-- R483, last epoch [RO, 19_energy_ledger_and_ageing.md] -/
  | NRL_EST_est_mw
  /-- Correction factor, 1/4,096 units [RO, 19_energy_ledger_and_ageing.md] -/
  | NRL_K_k
  /-- Lifetime package energy, µJ (R13, R500). [RO, 19_energy_ledger_and_ageing.md] -/
  | NRL_TOTAL
  /-- Overhead total since power-on reset, µJ (R480). [RO, 19_energy_ledger_and_ageing.md] -/
  | NRL_OVERHEAD
  /-- R495 [RW, 19_energy_ledger_and_ageing.md] -/
  | NRL_REGION_CFG_ovr_en
  /-- Table ENGY-5 [RW, 19_energy_ledger_and_ageing.md] -/
  | NRL_REGION_CFG_ovr_profile
  /-- 0 profile value; R495 [RW, 19_energy_ledger_and_ageing.md] -/
  | NRL_REGION_CFG_vmin_mv
  /-- 0 profile value; R495 [RW, 19_energy_ledger_and_ageing.md] -/
  | NRL_REGION_CFG_vmax_mv
  /-- R490; 0 acts as 1 [RW, 19_energy_ledger_and_ageing.md] -/
  | NRL_TENANT_CFG_weight
  /-- R490; 0 no cap [RW, 19_energy_ledger_and_ageing.md] -/
  | NRL_TENANT_CFG_cap_mw
  /-- Energy charged to the tenant, µJ (R13) [RO, 19_energy_ledger_and_ageing.md] -/
  | NRL_TENANT_CFG_used
  /-- R489 [RO, 19_energy_ledger_and_ageing.md] -/
  | NRL_REGION_STAT_v_target_mv
  /-- R498 [RO, 19_energy_ledger_and_ageing.md] -/
  | NRL_REGION_STAT_v_floor_mv
  /-- Effective profile, Table ENGY-5 [RO, 19_energy_ledger_and_ageing.md] -/
  | NRL_REGION_STAT_profile
  /-- Energy of class c at ROP, 1/16 pJ [RO, 19_energy_ledger_and_ageing.md] -/
  | NRL_EPE_e_fpj
  /-- R480 [RO, 19_energy_ledger_and_ageing.md] -/
  | NRL_LEAK_leak_rop_mw
  /-- Account of tenant t, µJ, two's complement (R478) [RO, 19_energy_ledger_and_ageing.md] -/
  | NRL_CREDIT_balance
  /-- R499 [RW, 19_energy_ledger_and_ageing.md] -/
  | AGE_CFG_margin_thr_mv
  /-- R496, saturating [RC, 19_energy_ledger_and_ageing.md] -/
  | AGE_CFG_forced
  /-- Ageing index (R497) [RO, 19_energy_ledger_and_ageing.md] -/
  | AGE_REGION_index
  /-- Margin for the index as it reads, derived at all times by R498; not stored [RO, 19_energy_ledger_and_ageing.md] -/
  | AGE_REGION_margin_mv
  /-- v_rop for the index as it reads, derived at all times by R498; not stored [RO, 19_energy_ledger_and_ageing.md] -/
  | AGE_REGION_v_rop_mv
  /-- R499 [W1C, 19_energy_ledger_and_ageing.md] -/
  | AGE_REGION_alert
  /-- Running stage, 0 to 2 [RO, 20_boot_and_trust.md] -/
  | BOOT_STATUS_stage
  /-- In RECOVERY [RO, 20_boot_and_trust.md] -/
  | BOOT_STATUS_recovery
  /-- R503 [RO, 20_boot_and_trust.md] -/
  | BOOT_STATUS_keylock
  /-- R504 [RO, 20_boot_and_trust.md] -/
  | BOOT_STATUS_device_ready
  /-- Running stage 1 slot, 0 A, 1 B [RO, 20_boot_and_trust.md] -/
  | BOOT_STATUS_s1_slot
  /-- Running stage 2 slot [RO, 20_boot_and_trust.md] -/
  | BOOT_STATUS_s2_slot
  /-- R507 [RO, 20_boot_and_trust.md] -/
  | BOOT_STATUS_struct_none
  /-- R510 [RO, 20_boot_and_trust.md] -/
  | BOOT_STATUS_log_base_default
  /-- BOOT_AMBIGUOUS for stage 1 (R515) [W1C, 20_boot_and_trust.md] -/
  | BOOT_EVENTS_s1_ambiguous
  /-- BOOT_AMBIGUOUS for stage 2 [W1C, 20_boot_and_trust.md] -/
  | BOOT_EVENTS_s2_ambiguous
  /-- R506 [W1C, 20_boot_and_trust.md] -/
  | BOOT_EVENTS_s2_wdog
  /-- R507 [W1C, 20_boot_and_trust.md] -/
  | BOOT_EVENTS_struct_fallback
  /-- R516 [W1C, 20_boot_and_trust.md] -/
  | BOOT_EVENTS_arb_rejected
  /-- Written by stage 2 (R504, R506); ignored from other access paths [W1S, 20_boot_and_trust.md] -/
  | BOOT_CTRL_fw_alive
  /-- From the manifest [RO, 20_boot_and_trust.md] -/
  | BOOT_IMAGE_security_version
  /-- 0 valid; 1 to 5 as Table BOOT-7; 6 not checked; 7 empty [RO, 20_boot_and_trust.md] -/
  | BOOT_IMAGE_result
  /-- From the manifest [RO, 20_boot_and_trust.md] -/
  | BOOT_IMAGE_key_slot
  /-- Failing block for BLOCK [RO, 20_boot_and_trust.md] -/
  | BOOT_IMAGE_detail
  /-- From the manifest [RO, 20_boot_and_trust.md] -/
  | BOOT_IMAGE_build
  /-- Anti-rollback counter, 0 to 64 [RO, 20_boot_and_trust.md] -/
  | BOOT_ARB_counter
  /-- Programming in progress [RO, 20_boot_and_trust.md] -/
  | BOOT_ARB_busy
  /-- R516; the write starts programming [WO, 20_boot_and_trust.md] -/
  | BOOT_ARB_target
  /-- 0 EMPTY, 1 PROGRAMMED, 2 REVOKED, 3 reserved [RO, 20_boot_and_trust.md] -/
  | BOOT_KEY_state
  /-- R529, saturating [RC, 20_boot_and_trust.md] -/
  | BOOT_FLASH_STAT_log_lost
  /-- R529, saturating [RC, 20_boot_and_trust.md] -/
  | BOOT_FLASH_STAT_flash_err
  /-- offset 0x064; CTD; no region scope. RO, reset from persistent state. Power-on resets since manufacture (R502). [RO, 20_boot_and_trust.md] -/
  | BOOT_COUNT
  /-- 1 BEGIN, 2 CHUNK, 3 FINISH, 4 ABORT; others no effect (R518) [WO, 20_boot_and_trust.md] -/
  | BOOT_RCV_CTRL_op
  /-- BEGIN: 1 STAGE1, 2 STAGE2 [WO, 20_boot_and_trust.md] -/
  | BOOT_RCV_CTRL_kind
  /-- Operation in progress [RO, 20_boot_and_trust.md] -/
  | BOOT_RCV_STATUS_busy
  /-- BEGIN accepted, no FINISH or ABORT yet [RO, 20_boot_and_trust.md] -/
  | BOOT_RCV_STATUS_open
  /-- Slot being written, 0 A, 1 B [RO, 20_boot_and_trust.md] -/
  | BOOT_RCV_STATUS_target
  /-- 0 DONE; 1 to 5 as Table BOOT-7; 6 ORDER; 7 STATE [RO, 20_boot_and_trust.md] -/
  | BOOT_RCV_STATUS_result
  /-- PF2 BAR4 offset 0x0008. RW, reset 0. Slot offset of the chunk; bits [15:0] must be 0. [RW, 20_boot_and_trust.md] -/
  | BOOT_RCV_OFFSET
  /-- PF2 BAR4 offset 0x000C. RW, reset 0. [21:0] chunk length, 1 to 2,097,152 bytes. [RW, 20_boot_and_trust.md] -/
  | BOOT_RCV_LEN
  /-- State WAIT [RO, 20_boot_and_trust.md] -/
  | ONX_STATUS_wait
  /-- PRES_JMP_N low [RO, 20_boot_and_trust.md] -/
  | ONX_STATUS_jumper
  /-- PRES_BTN_N low [RO, 20_boot_and_trust.md] -/
  | ONX_STATUS_button
  /-- R524 [RO, 20_boot_and_trust.md] -/
  | ONX_STATUS_seal_broken
  /-- Table BOOT-12 [RO, 20_boot_and_trust.md] -/
  | ONX_STATUS_debug_unlocked
  /-- cmd of the last evaluation [RO, 20_boot_and_trust.md] -/
  | ONX_STATUS_last_cmd
  /-- Table BOOT-13 [RO, 20_boot_and_trust.md] -/
  | ONX_STATUS_result
  /-- Seconds left in WAIT [RO, 20_boot_and_trust.md] -/
  | ONX_STATUS_window_s
  /-- base 0x010, stride 0x4, k = 0 to 3; CTD; no region scope. RO. Nonce bytes 4k to 4k + 3 (R525). [RO, 20_boot_and_trust.md] -/
  | ONX_NONCE
  /-- Device serial, bytes 0 to 3 and 4 to 7. [RO, 20_boot_and_trust.md] -/
  | ONX_SERIAL
  /-- Owner slots programmed, 1 to 8; the highest is in use [RO, 20_boot_and_trust.md] -/
  | ONX_OWNER_used
  /-- Evaluate ONX_MBOX (Table BOOT-11); reads 0 [W1S, 20_boot_and_trust.md] -/
  | ONX_CTRL_submit
  /-- Table BOOT-11; reads 0 [W1S, 20_boot_and_trust.md] -/
  | ONX_CTRL_cancel
  /-- base 0x2000, stride 0x4, j = 0 to 2,047; CTD; no region scope. RW, reset 0. Command bytes 4j to 4j + 3 (Table BOOT-10). [RW, 20_boot_and_trust.md] -/
  | ONX_MBOX
  /-- A CORRECTED record was written [W1C, 21_service_test_and_repair.md] -/
  | ERR_STATUS_corrected
  /-- As above, CONTAINED [W1C, 21_service_test_and_repair.md] -/
  | ERR_STATUS_contained
  /-- As above, TENANT_FATAL [W1C, 21_service_test_and_repair.md] -/
  | ERR_STATUS_tenant_fatal
  /-- R534 [RO, 21_service_test_and_repair.md] -/
  | ERR_STATUS_device_fatal
  /-- base 0x010, stride 0x4, c = 0 to 3; CTD; c is the class code of Table SERV-6. RC, reset 0. Errors of class c, saturating. [RC, 21_service_test_and_repair.md] -/
  | ERR_CNT
  /-- Bit e: interrupt on PF2 of endpoint e [RW, 21_service_test_and_repair.md] -/
  | ERR_IRQ_CFG_ep_en
  /-- PF2 MSI-X vector [RW, 21_service_test_and_repair.md] -/
  | ERR_IRQ_CFG_vector
  /-- R531 [RW, 21_service_test_and_repair.md] -/
  | ERR_IRQ_CFG_corr_aer
  /-- R533 [RW, 21_service_test_and_repair.md] -/
  | ERR_IRQ_CFG_core_en
  /-- Core 0 machine identity, 1 to 255; 0 sends nothing to the core (R533) [RW, 21_service_test_and_repair.md] -/
  | ERR_IRQ_CFG_identity
  /-- Table SERV-6 [RW, 21_service_test_and_repair.md] -/
  | ERR_IRQ_CFG_min_class
  /-- offset 0x024; CTD; no region scope. [15:0] tenant_limit, RW, reset 0 (R532); [31:16] reserved. [RW, 21_service_test_and_repair.md] -/
  | ERR_TENANT_CFG_tenant_limit
  /-- offset 0x028; CTD; no region scope. [15:0] head, RO, reset 0, free-running count of records written; [31:16] reserved. [RO, 21_service_test_and_repair.md] -/
  | ERR_LOG_HEAD_head
  /-- DT64 of the error (R13) [RO, 21_service_test_and_repair.md] -/
  | ERR_LOG_dt64
  /-- Table SERV-2 [RO, 21_service_test_and_repair.md] -/
  | ERR_LOG_source
  /-- Table SERV-6 [RO, 21_service_test_and_repair.md] -/
  | ERR_LOG_class
  /-- 0 cell, 1 block, 2 region, 3 chip [RO, 21_service_test_and_repair.md] -/
  | ERR_LOG_level
  /-- Table PKG-1 [RO, 21_service_test_and_repair.md] -/
  | ERR_LOG_die
  /-- 0 to 7 Fn; 8 P0; 9 P1; 10 C; 11 T; 15 none [RO, 21_service_test_and_repair.md] -/
  | ERR_LOG_region
  /-- Attributed tenant (R532); 0 when the error belongs to no tenant [RO, 21_service_test_and_repair.md] -/
  | ERR_LOG_tenant
  /-- Coalesced occurrences (R533) [RO, 21_service_test_and_repair.md] -/
  | ERR_LOG_count
  /-- Routing ID, or 0xFF00 + access path [RO, 21_service_test_and_repair.md] -/
  | ERR_LOG_requester
  /-- Device address [RO, 21_service_test_and_repair.md] -/
  | ERR_LOG_addr
  /-- Source-specific [RO, 21_service_test_and_repair.md] -/
  | ERR_LOG_detail
  /-- 1 OFFLINE, 2 ONLINE; others no effect [WO, 21_service_test_and_repair.md] -/
  | ERR_REGION_CMD_op
  /-- Fn [WO, 21_service_test_and_repair.md] -/
  | ERR_REGION_CMD_region
  /-- R536 [WO, 21_service_test_and_repair.md] -/
  | ERR_REGION_CMD_force
  /-- Command in progress [RO, 21_service_test_and_repair.md] -/
  | ERR_REGION_CMD_busy
  /-- 0 DONE, 1 BUSY, 2 IMAGE_BUSY, 3 STATE, 4 LAST_REGION; others reserved [RO, 21_service_test_and_repair.md] -/
  | ERR_REGION_CMD_result
  /-- R537 [RW, 21_service_test_and_repair.md] -/
  | ERR_REGION_CMD_drain_limit_us
  /-- 0 ONLINE, 1 DRAINING, 2 TESTING, 3 OFFLINE, 4 RETURNING, 5 FAILED [RO, 21_service_test_and_repair.md] -/
  | ERR_REGION_STATE_state
  /-- R539 [RO, 21_service_test_and_repair.md] -/
  | ERR_REGION_STATE_bist_pass
  /-- Blocks with the spare in use, 0 to 16 [RO, 21_service_test_and_repair.md] -/
  | ERR_REGION_STATE_spares_used
  /-- Bit b: block b failed BIST [RO, 21_service_test_and_repair.md] -/
  | ERR_REGION_STATE_failed_blocks
  /-- R543; 0 acts as 1 [RW, 21_service_test_and_repair.md] -/
  | ERR_TEST_CFG_kat_ms
  /-- R542; 0 acts as 1 [RW, 21_service_test_and_repair.md] -/
  | ERR_TEST_CFG_tcam_period_s
  /-- R544; 0 acts as 1 [RW, 21_service_test_and_repair.md] -/
  | ERR_TEST_CFG_sram_scrub_s
  /-- R544; 0 acts as 1 [RW, 21_service_test_and_repair.md] -/
  | ERR_TEST_CFG_hbm_scrub_h
  /-- Pseudo-channel to retire; the write acts [WO, 21_service_test_and_repair.md] -/
  | ERR_HBM_CMD_pc
  /-- Stack 0 or 1 [WO, 21_service_test_and_repair.md] -/
  | ERR_HBM_CMD_stack
  /-- R546 [RW, 21_service_test_and_repair.md] -/
  | ERR_HBM_CMD_auto_retire
  /-- Copy in progress (R547) [RO, 21_service_test_and_repair.md] -/
  | ERR_HBM_CMD_busy
  /-- R546 [RW, 21_service_test_and_repair.md] -/
  | ERR_HBM_CMD_retire_thr
  /-- 0 IN_SERVICE, 1 COPYING, 2 RETIRED, 3 SUBSTITUTE [RO, 21_service_test_and_repair.md] -/
  | ERR_HBM_PC_state
  /-- Substitute of a retired channel, or channel substituted [RO, 21_service_test_and_repair.md] -/
  | ERR_HBM_PC_partner
  /-- Corrected errors, saturating [RC, 21_service_test_and_repair.md] -/
  | ERR_HBM_PC_corr_cnt
  /-- offset 0x000; CTD; no region scope. [7:0] div, RW, reset 5, values below 5 act as 5 (R550); [31:8] reserved. [RW, 21_service_test_and_repair.md] -/
  | TMX_CFG_div
  /-- Table SERV-5 [RW, 21_service_test_and_repair.md] -/
  | TMX_SEL_point
  /-- Group driven; pins low when 0 [RW, 21_service_test_and_repair.md] -/
  | TMX_SEL_enable
  /-- R550 [RW, 21_service_test_and_repair.md] -/
  | TMX_SEL_strobe_out
  /-- Hottest sensor of the die, two's complement, 0.25 °C [RO, 22_pins_power_and_package.md] -/
  | PKG_THERM_tj_qc
  /-- Highest tj_qc since last read [RC, 22_pins_power_and_package.md] -/
  | PKG_THERM_peak_qc
  /-- R567 [RO, 22_pins_power_and_package.md] -/
  | PKG_THERM_warn
  /-- R568 [RO, 22_pins_power_and_package.md] -/
  | PKG_THERM_trip
  /-- R561 [W1C, 22_pins_power_and_package.md] -/
  | PKG_PWR_EVENTS_pwr_fail
  /-- Actions of Table PINS-9 completed [W1C, 22_pins_power_and_package.md] -/
  | PKG_PWR_EVENTS_pwr_fail_done
  /-- R562 [W1C, 22_pins_power_and_package.md] -/
  | PKG_PWR_EVENTS_rail_drop
  /-- R568 [W1C, 22_pins_power_and_package.md] -/
  | PKG_PWR_EVENTS_thermtrip
  /-- Index of Table PINS-7 for rail_drop [RO, 22_pins_power_and_package.md] -/
  | PKG_PWR_EVENTS_rail
  /-- Snapshot of the access path; instance: path, 0 and 1 the endpoints, 2 SMBus/MCTP, 3 JTAG, 4 + h hart h (R13, R14) [state, 00_scope.md] -/
  | PATH_snap
  /-- Pending _LO write value of the access path (R15) [state, 00_scope.md] -/
  | PATH_pend
  /-- Whether the access path holds a pending _LO value (R15) [state, 00_scope.md] -/
  | PATH_pend_v
  /-- U_DTS at the last TS_NOW_LO read on the access path (TS_NOW_UNC) [state, 00_scope.md] -/
  | PATH_unc
  /-- Routing ID of the host request last received over an endpoint; instance: access path 0 or 1 (R41, ERR_LOG) [state, 00_scope.md] -/
  | PATH_rid
  /-- Retries of the operation in progress in a cell; scope: region, instance: block*17 + cell (R28) [state, 01_package_dies_and_hierarchy.md] -/
  | CELL_retry
  /-- The cell is quarantined (R30) [state, 01_package_dies_and_hierarchy.md] -/
  | CELL_quar
  /-- The spare of the block is in use; scope: region, instance: block (R30) [state, 01_package_dies_and_hierarchy.md] -/
  | CELL_spare_used
  /-- The cell whose place the spare of the block has taken (R30) [state, 01_package_dies_and_hierarchy.md] -/
  | CELL_spare_for
  /-- Present supply of a voltage island in mV; instances 0 to 7 regions, 8 to 11 the die-common islands of FBD0 to FBD3 (R21, R52) [state, 01_package_dies_and_hierarchy.md] -/
  | ISLAND_mv
  /-- DT64 counter of the CK_TS replica of a die that runs apart from counter A; instance: die (R82) [state, 02_handshake_timing_and_clock_islands.md] -/
  | REP_dt64
  /-- The replica of the die is absent or not yet realigned (R82) [state, 02_handshake_timing_and_clock_islands.md] -/
  | REP_apart
  /-- Last value a core read from its time CSR; instance: hart (R71) [state, 02_handshake_timing_and_clock_islands.md] -/
  | CORE_time
  /-- The 1 ms boundary of the last measurement of a region plus 1, 0 before the first; scope: region (R73) [state, 02_handshake_timing_and_clock_islands.md] -/
  | XD_mark
  /-- cycle CSR of a core: pipeline advances; instance: hart (R72) [state, 02_handshake_timing_and_clock_islands.md] -/
  | CORE_cycle
  /-- instret CSR of a core: retired instructions; instance: hart (R72) [state, 02_handshake_timing_and_clock_islands.md] -/
  | CORE_instret
  /-- Counter B of the timescale (R80) [state, 03_device_timescale.md] -/
  | TS_B
  /-- Mask bit of an MSI-X vector; scope: endpoint, instance: function*4096 + vector (R436) [state, 03_device_timescale.md] -/
  | MSIX_mask
  /-- Pending bit of an MSI-X vector (R436) [state, 03_device_timescale.md] -/
  | MSIX_pend
  /-- MSI-X Enable of a function; scope: endpoint (R436) [state, 03_device_timescale.md] -/
  | FN_msix_en
  /-- MSI-X Function Mask (R436) [state, 03_device_timescale.md] -/
  | FN_msix_fmask
  /-- Pending identities of an interrupt file; scope: hart, instance: file 0 machine, 1 supervisor, 2 to 6 guest (R409, R410) [state, 03_device_timescale.md] -/
  | IMSIC_pend
  /-- The port sends Remote Fault; scope: IOD, instance: port (R269, R534) [state, 03_device_timescale.md] -/
  | ETH_tx_remote_fault
  /-- Term u_meas of U_DTS, 2^-16 ns (Table TIME-8) [state, 03_device_timescale.md] -/
  | U_meas
  /-- Term u_servo (Table TIME-8) [state, 03_device_timescale.md] -/
  | U_servo
  /-- Term u_asym (Table TIME-8) [state, 03_device_timescale.md] -/
  | U_asym
  /-- The last selected time reference has asym_bound 0xFFFF (R106, R107) [state, 03_device_timescale.md] -/
  | U_asym_unset
  /-- Term u_slew (R88) [state, 03_device_timescale.md] -/
  | U_slew
  /-- Term u_hold (R103) [state, 03_device_timescale.md] -/
  | U_hold
  /-- Term u_base (Table TIME-8) [state, 03_device_timescale.md] -/
  | U_base
  /-- Model of u_hold: 0 none, 1 that of HOLDOVER, 2 that of FREERUN (R103) [state, 03_device_timescale.md] -/
  | TIME_hold_mode
  /-- DT64 from which t of u_hold counts (R103) [state, 03_device_timescale.md] -/
  | TIME_hold_from
  /-- DTS was last set by software since the last selection and fault_resolve (Table TIME-9) [state, 03_device_timescale.md] -/
  | TIME_sw_set
  /-- Last offset of the selected reference, two's complement, 2^-16 ns [state, 03_device_timescale.md] -/
  | TIME_offset
  /-- Phase error the servo's loop predicts for the next measurement, two's complement (R86; log entry 11) [state, 03_device_timescale.md] -/
  | TIME_pred
  /-- Frequency correction in force, two's complement, 10^-12 (R94) [state, 03_device_timescale.md] -/
  | TIME_freq
  /-- f0 of R102 [state, 03_device_timescale.md] -/
  | TIME_f0
  /-- Last DAC code (R97) [state, 03_device_timescale.md] -/
  | TIME_dac
  /-- Bandwidth code the servo runs at (Table TIME-6) [state, 03_device_timescale.md] -/
  | TIME_bw
  /-- Start of the present run of offsets within lock_ns (Table TIME-5) [state, 03_device_timescale.md] -/
  | TIME_lock_since
  /-- Such a run is in progress [state, 03_device_timescale.md] -/
  | TIME_lock_run
  /-- Entry to the present LOCKED (R101) [state, 03_device_timescale.md] -/
  | TIME_locked_since
  /-- Consecutive offsets beyond 4 × lock_ns (Table TIME-5) [state, 03_device_timescale.md] -/
  | TIME_far3
  /-- The present FREERUN followed HOLDOVER (R84, R103) [state, 03_device_timescale.md] -/
  | TIME_after_hold
  /-- Offset being slewed, two's complement, 2^-16 ns (R88) [state, 03_device_timescale.md] -/
  | TIME_slew_off
  /-- DTS at which u_slew was last taken (R88) [state, 03_device_timescale.md] -/
  | TIME_slew_at
  /-- DTS of the last step (R92) [state, 03_device_timescale.md] -/
  | TIME_step_at
  /-- A step has happened since reset (R92) [state, 03_device_timescale.md] -/
  | TIME_stepped
  /-- Start of the run of valid measurements of reference instance (R86) [state, 03_device_timescale.md] -/
  | REF_since
  /-- Such a run is in progress (R86) [state, 03_device_timescale.md] -/
  | REF_run
  /-- When the reference qualified (R87) [state, 03_device_timescale.md] -/
  | REF_qual_at
  /-- Consecutive missing measurements (R86) [state, 03_device_timescale.md] -/
  | REF_miss
  /-- Consecutive outliers (R86) [state, 03_device_timescale.md] -/
  | REF_out
  /-- The reference has a last valid measurement to judge by (R86) [state, 03_device_timescale.md] -/
  | REF_hist
  /-- Its last valid measurement, two's complement (R86) [state, 03_device_timescale.md] -/
  | REF_last
  /-- Grandmaster identity of a PTP reference (Table TIME-9) [state, 03_device_timescale.md] -/
  | REF_gm
  /-- steps_removed of a PTP reference (Table TIME-9) [state, 03_device_timescale.md] -/
  | REF_steps
  /-- UTC offset and flags of a PTP reference (R79) [state, 03_device_timescale.md] -/
  | REF_utc
  /-- Non-periodic records of the present second label (R109) [state, 03_device_timescale.md] -/
  | AMBER_nonper
  /-- A change went without a record (R109) [state, 03_device_timescale.md] -/
  | AMBER_coal
  /-- seq of the next record (R111) [state, 03_device_timescale.md] -/
  | AMBER_next
  /-- Log slot that the next record takes (R113) [state, 03_device_timescale.md] -/
  | AMBER_slot
  /-- PWR_FAIL_N has ended programming until power-on reset (R114) [state, 03_device_timescale.md] -/
  | AMBER_stop
  /-- Calibration of a port in progress; scope: IOD, instance: port (R120) [state, 04_timestamps_launch_and_host_time.md] -/
  | TSU_cal_busy
  /-- The IOD's port timestamps are taken without its TSU clock; scope: IOD (R121) [state, 04_timestamps_launch_and_host_time.md] -/
  | TSU_tdc
  /-- Consecutive failed dialogues; scope: endpoint (R139) [state, 04_timestamps_launch_and_host_time.md] -/
  | PTM_fails
  /-- Dialogues completed since link-up (Table TSTP-8) [state, 04_timestamps_launch_and_host_time.md] -/
  | PTM_count
  /-- t1 of the dialogue in progress (R138) [state, 04_timestamps_launch_and_host_time.md] -/
  | PTM_t1
  /-- A dialogue is in progress (R138) [state, 04_timestamps_launch_and_host_time.md] -/
  | PTM_busy
  /-- Pairs since ptm_valid last became 1 (R141) [state, 04_timestamps_launch_and_host_time.md] -/
  | PTM_pairs
  /-- rate_ppt, two's complement (R141) [state, 04_timestamps_launch_and_host_time.md] -/
  | PTM_rate
  /-- rate_unc_ppb (R141) [state, 04_timestamps_launch_and_host_time.md] -/
  | PTM_rate_unc
  /-- ptm_unc16 of the last pair (R140) [state, 04_timestamps_launch_and_host_time.md] -/
  | PTM_unc
  /-- DT64 of a past pair; scope: endpoint, instance: its number mod 64 (R141) [state, 04_timestamps_launch_and_host_time.md] -/
  | PTM_hist_dt
  /-- PTM time of a past pair, ns (R141) [state, 04_timestamps_launch_and_host_time.md] -/
  | PTM_hist_ptm
  /-- gen of the time page; scope: endpoint (Table TSTP-8) [state, 04_timestamps_launch_and_host_time.md] -/
  | PAGE_gen
  /-- state of the page [state, 04_timestamps_launch_and_host_time.md] -/
  | PAGE_state
  /-- flags of the page [state, 04_timestamps_launch_and_host_time.md] -/
  | PAGE_flags
  /-- snap_dt64 [state, 04_timestamps_launch_and_host_time.md] -/
  | PAGE_dt64
  /-- snap_unc16 [state, 04_timestamps_launch_and_host_time.md] -/
  | PAGE_unc
  /-- rate_unc_ppb of the page [state, 04_timestamps_launch_and_host_time.md] -/
  | PAGE_rate_unc
  /-- rate_ppt of the page [state, 04_timestamps_launch_and_host_time.md] -/
  | PAGE_rate
  /-- ptm_time [state, 04_timestamps_launch_and_host_time.md] -/
  | PAGE_ptm
  /-- ptm_unc16 of the page [state, 04_timestamps_launch_and_host_time.md] -/
  | PAGE_ptm_unc
  /-- ptm_count of the page [state, 04_timestamps_launch_and_host_time.md] -/
  | PAGE_ptm_count
  /-- amber_seq [state, 04_timestamps_launch_and_host_time.md] -/
  | PAGE_amber
  /-- utc_offset of the page [state, 04_timestamps_launch_and_host_time.md] -/
  | PAGE_utc
  /-- Pulse in progress; instance: output (R143) [state, 04_timestamps_launch_and_host_time.md] -/
  | PPS_high
  /-- DTS at which the pulse ends (R143) [state, 04_timestamps_launch_and_host_time.md] -/
  | PPS_end
  /-- Second label, plus 1, last pulsed or squelched (R145) [state, 04_timestamps_launch_and_host_time.md] -/
  | PPS_label
  /-- Timer compare value; scope: hart, instance: 0 mtimecmp, 1 stimecmp, 2 vstimecmp (R408) [state, 15_service_cores.md] -/
  | CORE_cmp
  /-- The compare value has been written since reset (R408) [state, 15_service_cores.md] -/
  | CORE_cmp_set
  /-- Timer interrupt pending of the compare value (R408) [state, 15_service_cores.md] -/
  | CORE_tip
  /-- When the dialogue in progress began (R139) [state, 04_timestamps_launch_and_host_time.md] -/
  | PTM_busy_at
  /-- DT64 at which the last calibration of the port started; scope: IOD, instance: port (R120) [state, 04_timestamps_launch_and_host_time.md] -/
  | TSU_cal_at
  /-- Number of packets the device has taken: the next packet's handle (the model's own numbering) [state, 05_structure_images.md] -/
  | PKT_next
  /-- The packet is in the device; instance: handle [state, 05_structure_images.md] -/
  | PKT_live
  /-- Parsed header vector, byte 0 most significant (R188) [state, 05_structure_images.md] -/
  | PKT_phv
  /-- Metadata (Tables PARS-6, EXM-3, ASOC-3, PARS-11) [state, 05_structure_images.md] -/
  | PKT_meta
  /-- Fabric region the packet was sent to (R182) [state, 05_structure_images.md] -/
  | PKT_region
  /-- The packet counts toward its region's epoch population (R165) [state, 05_structure_images.md] -/
  | PKT_in_region
  /-- Reason the packet was dropped with, 0 none [state, 05_structure_images.md] -/
  | PKT_drop
  /-- Disposition: 0 none, 1 FORWARD, 2 DROP, 3 PUNT, 4 consumed (R194) [state, 05_structure_images.md] -/
  | PKT_disp
  /-- Where the packet stands: 0 ahead of the parser, 1 in its pipeline, 2 held fragment, 3 left the region [state, 05_structure_images.md] -/
  | PKT_stage
  /-- launch_dt64, 0 none (R130) [state, 05_structure_images.md] -/
  | PKT_launch
  /-- Launch profile index (R131) [state, 05_structure_images.md] -/
  | PKT_prof
  /-- 0 not at the gate, 1 held, 2 released, 3 dropped by the gate (R132) [state, 05_structure_images.md] -/
  | PKT_gate
  /-- ts_flags of the egress tuple (Table TSTP-4) [state, 05_structure_images.md] -/
  | PKT_tsflags
  /-- Egress timestamp (Table TSTP-3) [state, 05_structure_images.md] -/
  | PKT_dt64
  /-- unc16 of the egress timestamp [state, 05_structure_images.md] -/
  | PKT_unc
  /-- Egress device port [state, 05_structure_images.md] -/
  | PKT_dev_port
  /-- Transmit queue the frame is in [state, 05_structure_images.md] -/
  | PKT_queue
  /-- Work number of the descriptor the packet came from, plus 1 (R47) [state, 05_structure_images.md] -/
  | PKT_work
  /-- Length as received, destination address through FCS (R209) [state, 05_structure_images.md] -/
  | PKT_rxlen
  /-- When a fragment began to be held (R204) [state, 05_structure_images.md] -/
  | PKT_held_at
  /-- Packets of an epoch in a region; scope: region, instance: epoch (R165) [state, 05_structure_images.md] -/
  | REG_pop
  /-- Packets dropped, by reason; instance: reason number of this model [state, 05_structure_images.md] -/
  | DROP_pkts
  /-- Frames and records dropped with HOST_DOWN since host_down_drops last rose, fewer than 256; scope: endpoint (R442) [state, 16_host_interface.md] -/
  | HOST_down_sub
  /-- Tag of a read request: 0 free, 1 outstanding, 2 quarantined; scope: endpoint, instance: tag (R433, R434) [state, 16_host_interface.md] -/
  | TAG_state
  /-- Function that the request belongs to [state, 16_host_interface.md] -/
  | TAG_fn
  /-- What waits on the read: 1 descriptor fetch, 2 frame payload, 3 fragment table, 4 Sillage payload, 5 submission queue entry, 6 storage data, 7 translation, 8 Sil [state, 16_host_interface.md] -/
  | TAG_kind
  /-- First number of the waiting operation [state, 16_host_interface.md] -/
  | TAG_a
  /-- Second number of the waiting operation [state, 16_host_interface.md] -/
  | TAG_b
  /-- Bytes requested [state, 16_host_interface.md] -/
  | TAG_len
  /-- DTS of the request (R432) [state, 16_host_interface.md] -/
  | TAG_at
  /-- End of the quarantine (R434) [state, 16_host_interface.md] -/
  | TAG_free_at
  /-- The function stopped while the read was outstanding (R435) [state, 16_host_interface.md] -/
  | TAG_flush
  /-- Port and queue that a TX ring named when the descriptor started (R296, R454); instance: work number [state, 17_rings_and_work_queues.md] -/
  | WRK_dest
  /-- Launch profile of the ring (R131) [state, 17_rings_and_work_queues.md] -/
  | WRK_prof
  /-- launch_dt64 of a TX descriptor (R130) [state, 17_rings_and_work_queues.md] -/
  | WRK_launch
  /-- ts_op of a TX descriptor (R125) [state, 17_rings_and_work_queues.md] -/
  | WRK_ts_op
  /-- ptp_off of a TX descriptor (R125) [state, 17_rings_and_work_queues.md] -/
  | WRK_ptp_off
  /-- Work ring: count of descriptors fetched; scope: endpoint, instance: ring (R451) [state, 17_rings_and_work_queues.md] -/
  | RNG_fetch
  /-- CPL ring: reservations (R461) [state, 17_rings_and_work_queues.md] -/
  | RNG_resv
  /-- CPL, EVT ring: entries written since the last interrupt (R462) [state, 17_rings_and_work_queues.md] -/
  | RNG_irq_cnt
  /-- CPL, EVT ring: DTS of the first such entry (R462) [state, 17_rings_and_work_queues.md] -/
  | RNG_irq_at
  /-- CPL ring: DTS at which it became PAUSED (R459) [state, 17_rings_and_work_queues.md] -/
  | RNG_stall_at
  /-- TX ring: target region plus 1, 0 none (R452) [state, 17_rings_and_work_queues.md] -/
  | RNG_target
  /-- Number of descriptors started or posted: the next work number (the model's own numbering) [state, 17_rings_and_work_queues.md] -/
  | WRK_next
  /-- Ring of the descriptor; instance: work number [state, 17_rings_and_work_queues.md] -/
  | WRK_ring
  /-- Endpoint of the ring [state, 17_rings_and_work_queues.md] -/
  | WRK_ep
  /-- The completion of the work can be written [state, 17_rings_and_work_queues.md] -/
  | WRK_done
  /-- Completion status (Table RING-7) [state, 17_rings_and_work_queues.md] -/
  | WRK_status
  /-- Completion bytes [state, 17_rings_and_work_queues.md] -/
  | WRK_bytes
  /-- Cookie of the descriptor [state, 17_rings_and_work_queues.md] -/
  | WRK_cookie
  /-- Timestamp tuple of a frame (Table TSTP-3) [state, 17_rings_and_work_queues.md] -/
  | WRK_ts
  /-- The tuple is DTS at posting (SEND, RECV) [state, 17_rings_and_work_queues.md] -/
  | WRK_now_ts
  /-- Tenant of a backend message's command (R371) [state, 17_rings_and_work_queues.md] -/
  | WRK_tenant
  /-- msg_id [state, 17_rings_and_work_queues.md] -/
  | WRK_msg
  /-- Immediate data [state, 17_rings_and_work_queues.md] -/
  | WRK_imm
  /-- imm_valid in bit 1, late_valid in bit 2, diverted in bit 3 (Table RING-6) [state, 17_rings_and_work_queues.md] -/
  | WRK_flags
  /-- late_msg_id [state, 17_rings_and_work_queues.md] -/
  | WRK_late_msg
  /-- late_status [state, 17_rings_and_work_queues.md] -/
  | WRK_late_st
  /-- Buffers used [state, 17_rings_and_work_queues.md] -/
  | WRK_nbufs
  /-- detail [state, 17_rings_and_work_queues.md] -/
  | WRK_detail
  /-- flow_hash [state, 17_rings_and_work_queues.md] -/
  | WRK_hash
  /-- class_result [state, 17_rings_and_work_queues.md] -/
  | WRK_class
  /-- addr or laddr of the descriptor [state, 17_rings_and_work_queues.md] -/
  | WRK_addr
  /-- len of the descriptor [state, 17_rings_and_work_queues.md] -/
  | WRK_len
  /-- lkey [state, 17_rings_and_work_queues.md] -/
  | WRK_lkey
  /-- op of a SEND descriptor [state, 17_rings_and_work_queues.md] -/
  | WRK_op
  /-- rkey [state, 17_rings_and_work_queues.md] -/
  | WRK_rkey
  /-- raddr [state, 17_rings_and_work_queues.md] -/
  | WRK_raddr
  /-- operand [state, 17_rings_and_work_queues.md] -/
  | WRK_operand
  /-- compare [state, 17_rings_and_work_queues.md] -/
  | WRK_compare
  /-- Packet of a TX descriptor, plus 1 [state, 17_rings_and_work_queues.md] -/
  | WRK_pkt
  /-- Frame bytes still to be read [state, 17_rings_and_work_queues.md] -/
  | WRK_want
  /-- The work holds a reservation in its CPL ring (R461) [state, 17_rings_and_work_queues.md] -/
  | WRK_resv
  /-- Completion Timeout Value of the function (Table HOST-6) [state, 16_host_interface.md] -/
  | FN_cpl_timeout
  /-- Sum of the amounts of every step since reset, two's complement; DTS less this excludes steps (R302) [state, 03_device_timescale.md] -/
  | TIME_steps
  /-- Second in which the present label of R109 lies [state, 03_device_timescale.md] -/
  | AMBER_label
  /-- Second of the last boundary that has had its PERIODIC record, or that needs none (R108) [state, 03_device_timescale.md] -/
  | AMBER_due
  /-- The predicted frequency of R102 is in force (R101, R102) [state, 03_device_timescale.md] -/
  | TIME_pred_on
  /-- DT64 from which its seconds count (R102) [state, 03_device_timescale.md] -/
  | TIME_pred_from
  /-- DT64 of the last DAC frame (R98) [state, 03_device_timescale.md] -/
  | TIME_dac_at
  /-- DTS without steps when the last time reference ended (holdover_s of Table TIME-9) [state, 03_device_timescale.md] -/
  | TIME_lost_at
  /-- DTS without steps at the entry to FAULT (holdover_s) [state, 03_device_timescale.md] -/
  | TIME_fault_at
  /-- Integral part of the servo loop, two's complement, 2^-32 of 10^-12 (R94; log entry 11) [state, 03_device_timescale.md] -/
  | TIME_integ
  /-- DT64 at which CK_XSPI was last found present again (R112, R529) [state, 03_device_timescale.md] -/
  | XSPI_back
  /-- DT64 of counter A when the replica of the die was lost; instance: die (R82) [state, 03_device_timescale.md] -/
  | REP_from
  /-- Traffic class stopped on the port by PAUSE or PFC; scope: IOD, instance: port*8 + class (R272) [state, 09_ethernet_ports.md] -/
  | ETH_stop
  /-- End of that stop (R272) [state, 09_ethernet_ports.md] -/
  | ETH_stop_until
  /-- PFC or PAUSE has been sent for the class and not ended (R274) [state, 09_ethernet_ports.md] -/
  | ETH_xoff
  /-- When it was last sent (R274) [state, 09_ethernet_ports.md] -/
  | ETH_xoff_at
  /-- Quanta plus 1 of a flow-control frame that waits behind a launch frame, by class (R274) [state, 09_ethernet_ports.md] -/
  | ETH_fc_wait
  /-- When the port left UP (R307); instance: port [state, 09_ethernet_ports.md] -/
  | ETH_down_at
  /-- The scheduler discards what is queued for the port (R307); instance: port [state, 09_ethernet_ports.md] -/
  | ETH_discard
  /-- The port is DOWN for want of its clock (R269) [state, 09_ethernet_ports.md] -/
  | ETH_clk_down
  /-- The transmit SA has run out of PN (R282); instance: port*4 + AN [state, 09_ethernet_ports.md] -/
  | ETH_sc_drop
  /-- The key of the SA has been loaded (R281); instance: port*132 + SA [state, 09_ethernet_ports.md] -/
  | ETH_sa_key
  /-- The MACsec engine of the IOD failed its known answer (R543); scope: IOD [state, 09_ethernet_ports.md] -/
  | ETH_kat_fail
  /-- Tenant nodes of the topology in force; scope: IOD (Table SCHD-1) [state, 10_traffic_scheduling.md] -/
  | TOPO_ntn
  /-- Queues of the topology in force; scope: IOD [state, 10_traffic_scheduling.md] -/
  | TOPO_nq
  /-- Port of a tenant node; scope: IOD, instance: node [state, 10_traffic_scheduling.md] -/
  | TOPO_tn_port
  /-- Tenant of a tenant node [state, 10_traffic_scheduling.md] -/
  | TOPO_tn_tenant
  /-- Class node of a queue; instance: queue [state, 10_traffic_scheduling.md] -/
  | TOPO_q_class
  /-- Committed bucket in use, as applied (R303); scope: IOD, instance: node [state, 10_traffic_scheduling.md] -/
  | NODE_cir_en
  /-- Peak bucket in use, as applied [state, 10_traffic_scheduling.md] -/
  | NODE_pir_en
  /-- cir as applied [state, 10_traffic_scheduling.md] -/
  | NODE_cir
  /-- pir as applied [state, 10_traffic_scheduling.md] -/
  | NODE_pir
  /-- cbs as applied [state, 10_traffic_scheduling.md] -/
  | NODE_cbs
  /-- pbs as applied [state, 10_traffic_scheduling.md] -/
  | NODE_pbs
  /-- Committed bucket, two's complement, 1/32,000 byte [state, 10_traffic_scheduling.md] -/
  | NODE_ct
  /-- Peak bucket, two's complement, 1/32,000 byte [state, 10_traffic_scheduling.md] -/
  | NODE_pt
  /-- DTS, steps excluded, at which the buckets were last brought forward (R302) [state, 10_traffic_scheduling.md] -/
  | NODE_at
  /-- The child's turn has not begun (R301) [state, 10_traffic_scheduling.md] -/
  | NODE_fresh
  /-- Pointer of a parent's tier, a child's node number; instance: tier*65536 + parent (port p: 30000 + p) (R301) [state, 10_traffic_scheduling.md] -/
  | NODE_ptr
  /-- Handle plus 1 of a queue's last dispatched launch frame; instance: queue (R304) [state, 10_traffic_scheduling.md] -/
  | NODE_gate
  /-- Tail drops of a queue since its last sample record; scope: IOD, instance: queue (Table SCHD-4) [state, 10_traffic_scheduling.md] -/
  | QSAMP_drops
  /-- The next record of the queue carries gap (R310) [state, 10_traffic_scheduling.md] -/
  | QSAMP_gap
  /-- Length L of a frame in a transmit queue (R298) [state, 10_traffic_scheduling.md] -/
  | PKT_L
  /-- DTS of enqueue (R309) [state, 10_traffic_scheduling.md] -/
  | PKT_enq_at
  /-- IOD of the queue the frame is in [state, 10_traffic_scheduling.md] -/
  | PKT_iod
  /-- Reconciler debt of a tenant, bytes, two's complement; instance: tenant (R312) [state, 10_traffic_scheduling.md] -/
  | DEBT
  /-- Bytes of a tenant granted in the reconciler's present epoch (R311) [state, 10_traffic_scheduling.md] -/
  | SERVED
  /-- The frame lies in its region's packet buffer, until it is dispatched or gone (R297) [state, 10_traffic_scheduling.md] -/
  | PKT_buf
  /-- Length of a packet on the wire, SecTAG and ICV included, 0 where it has none (R209, R298) [state, 10_traffic_scheduling.md] -/
  | PKT_wire
  /-- Deficit of a tenant at a region arbiter, bytes; scope: region, instance: tenant (R36) [state, 10_traffic_scheduling.md] -/
  | ARB_def
  /-- Tenant that a region arbiter served last; scope: region (R36) [state, 10_traffic_scheduling.md] -/
  | ARB_ptr
  /-- DTS without steps, plus 1, from which a tenant has had work waiting at a region arbiter, 0 while it has none; instance: tenant (R311) [state, 10_traffic_scheduling.md] -/
  | ARB_from
  /-- DTS without steps, plus 1, at which a tenant was last found held for energy credit, 0 never; instance: tenant (R311) [state, 10_traffic_scheduling.md] -/
  | NRL_held_at
  /-- Region affinity mask of a tenant in the PLACEMENT section; scope: common context, instance: tenant (R466) [state, 18_tenants.md] -/
  | PLC_mask
  /-- pf3_en of the PLACEMENT section; scope: common context [state, 18_tenants.md] -/
  | PLC_pf3
  /-- A table has a quota record for a tenant; scope: common context, instance: table*256 + tenant (R468) [state, 18_tenants.md] -/
  | QUOTA_set
  /-- max_entries of that record [state, 18_tenants.md] -/
  | QUOTA_max
  /-- The THROUGHPUT terms: 0 off, 1 in force, 2 in force until 1 ms after every island has settled (R494) [state, 19_energy_ledger_and_ageing.md] -/
  | NRL_wide
  /-- DTS plus 1 at which every island had settled after the last THROUGHPUT, 0 not yet (R494) [state, 19_energy_ledger_and_ageing.md] -/
  | NRL_settle
  /-- Charges below 1 µJ, in 10^-6 µJ / (16 × 750² × 4096) parts, of an account; scope: region or 8 + IOD, instance: tenant (R479) [state, 19_energy_ledger_and_ageing.md] -/
  | NRL_frac
  /-- µJ charged to an account in the present epoch (R490) [state, 19_energy_ledger_and_ageing.md] -/
  | NRL_chg
  /-- µJ charged in the last epoch [state, 19_energy_ledger_and_ageing.md] -/
  | NRL_chg_last
  /-- Packets and units of work that entered a region's pipelines in the present epoch; scope: region (R489) [state, 19_energy_ledger_and_ageing.md] -/
  | NRL_adm
  /-- Received frames among them [state, 19_energy_ledger_and_ageing.md] -/
  | NRL_rxf
  /-- µJ charged to received traffic in the present epoch; scope: region (R489) [state, 19_energy_ledger_and_ageing.md] -/
  | NRL_rx_uj
  /-- The same for the last epoch [state, 19_energy_ledger_and_ageing.md] -/
  | NRL_rx_last
  /-- Context of the common sections that the IODs run (R164) [state, 05_structure_images.md] -/
  | STR_common_ctx
  /-- The region is treated as offline: 10 µs have passed since OFFLINE was accepted; instance: region (R537) [state, 21_service_test_and_repair.md] -/
  | SRV_effective
  /-- DTS at which OFFLINE was accepted or the fault occurred (R537, R538) [state, 21_service_test_and_repair.md] -/
  | SRV_accept_at
  /-- The region is going offline for a fault: no drain time (R538) [state, 21_service_test_and_repair.md] -/
  | SRV_fault
  /-- 64-byte units of an allocated span; scope: region, instance: handle (R412) [state, 15_service_cores.md] -/
  | SPAN_units
  /-- The span belongs to firmware (R415) [state, 15_service_cores.md] -/
  | SPAN_fw
  /-- Span plus 1 that the packet was injected from (R416) [state, 15_service_cores.md] -/
  | PKT_span
  /-- Pipeline of the packet (R183) [state, 05_structure_images.md] -/
  | PKT_pl
  /-- Next stage of its pipeline (R154) [state, 05_structure_images.md] -/
  | PKT_nstage
  /-- Queue reference of a PUNT (R197) [state, 05_structure_images.md] -/
  | PKT_puntq
  /-- Reason plus 1 of a punt that waits for a free span, 0 none (R49, R412) [state, 05_structure_images.md] -/
  | PKT_puntr
  /-- Host receive ring a packet is addressed to, plus 1 (device ring number; R445, R455) [state, 17_rings_and_work_queues.md] -/
  | PKT_hostring
  /-- Program counter a hart starts at (R417) [state, 15_service_cores.md] -/
  | CORE_pc
  /-- a0 at the start [state, 15_service_cores.md] -/
  | CORE_a0
  /-- a1 at the start [state, 15_service_cores.md] -/
  | CORE_a1
  /-- Privilege mode of a hart: 3 machine (R417) [state, 15_service_cores.md] -/
  | CORE_mode
  /-- The hart took an instruction access fault at its entry (R417) [state, 15_service_cores.md] -/
  | CORE_iaf
  /-- halt_req was written and the hart has not stopped yet (R417) [state, 15_service_cores.md] -/
  | CORE_halting
  /-- Automata stage at which the packet in a span was bypassed; scope: region, instance: span (R263, R416) [state, 15_service_cores.md] -/
  | SCAN_stage
  /-- The span holds a punted packet; scope: region, instance: handle (R412) [state, 15_service_cores.md] -/
  | SPAN_saved
  /-- PKT_cls of the punted packet (R199) [state, 15_service_cores.md] -/
  | SPAN_cls
  /-- PKT_clsf of the punted packet (R199) [state, 15_service_cores.md] -/
  | SPAN_clsf
  /-- PKT_fragkey of the punted packet (R202) [state, 15_service_cores.md] -/
  | SPAN_fragkey
  /-- PKT_follow of the punted packet (R203) [state, 15_service_cores.md] -/
  | SPAN_follow
  /-- PKT_outer of the punted packet (R203) [state, 15_service_cores.md] -/
  | SPAN_outer
  /-- PKT_rxlen of the punted packet (R209) [state, 15_service_cores.md] -/
  | SPAN_rxlen
  /-- PKT_wire of the punted packet (R209) [state, 15_service_cores.md] -/
  | SPAN_wire
  /-- Exception cause of the last access fault of a load (5) or store (7) of the hart, 0 none; instance: hart (R405) [state, 15_service_cores.md] -/
  | CORE_fault
  /-- revoke_at of a key record, 0 none; instance: key index (R357) [state, 12_memory_registration_and_paging.md] -/
  | MK_revoke_at
  /-- Channel plus 1 whose INVALIDATE_MKEY waits on the key (R359) [state, 12_memory_registration_and_paging.md] -/
  | MK_ch
  /-- The record is in the region's cache; scope: region, instance: key index (R346) [state, 12_memory_registration_and_paging.md] -/
  | KEYC_valid
  /-- The record is being loaded into the region's cache (R346) [state, 12_memory_registration_and_paging.md] -/
  | KEYC_fill
  /-- Misses since key_miss last rose, fewer than 1,024; scope: region (MKY_REGION_CNT1) [state, 12_memory_registration_and_paging.md] -/
  | KEYC_miss
  /-- Translation of a page: 0 none, 1 requested, 2 held, 3 not present, 4 its page request failed; scope: endpoint, instance: (function*2^21 + PASID + 1)*2^52 + page [state, 12_memory_registration_and_paging.md] -/
  | ATC_st
  /-- Translated address of the page [state, 12_memory_registration_and_paging.md] -/
  | ATC_addr
  /-- Bit 0 read, bit 1 write permission [state, 12_memory_registration_and_paging.md] -/
  | ATC_perm
  /-- A page request for the page is outstanding (R353) [state, 12_memory_registration_and_paging.md] -/
  | PRI_out
  /-- A page request for the page waits for a slot (R353) [state, 12_memory_registration_and_paging.md] -/
  | PRI_wait
  /-- DTS at which the page request was sent [state, 12_memory_registration_and_paging.md] -/
  | PRI_at
  /-- Address translation invalidations received and not completed; scope: endpoint, instance: function (R352) [state, 12_memory_registration_and_paging.md] -/
  | ATS_inv
  /-- The channel's PREFETCH waits for translations or page requests (Table MREG-4) [state, 12_memory_registration_and_paging.md] -/
  | MKY_pf
  /-- Key index of that PREFETCH [state, 12_memory_registration_and_paging.md] -/
  | MKY_pf_key
  /-- No page requests for the function until PRI Enable is cleared and set; instance: function (R353) [state, 12_memory_registration_and_paging.md] -/
  | PRI_stop
  /-- ATS Enable of a function; scope: endpoint (Host Interface) [state, 12_memory_registration_and_paging.md] -/
  | FN_ats_en
  /-- PRI Enable [state, 12_memory_registration_and_paging.md] -/
  | FN_pri_en
  /-- PASID Enable [state, 12_memory_registration_and_paging.md] -/
  | FN_pasid_en
  /-- Outstanding Page Request Allocation [state, 12_memory_registration_and_paging.md] -/
  | FN_pri_alloc
  /-- Connection state: 0 FREE, 1 ACTIVE, 2 ERROR; instance: context (Table SILL-9) [state, 11_sillage_transport.md] -/
  | CN_state
  /-- Generation of the context's last use (R321) [state, 11_sillage_transport.md] -/
  | CN_gen
  /-- Connection record as loaded (Table SILL-6) [state, 11_sillage_transport.md] -/
  | CN_rec
  /-- Channel plus 1 of the DESTROY that waits for the context's packets to leave (R340), 0 none [state, 11_sillage_transport.md] -/
  | CN_dying
  /-- A packet has been sent or received on the connection (R343) [state, 11_sillage_transport.md] -/
  | CN_used
  /-- Next PSN to send (R323) [state, 11_sillage_transport.md] -/
  | CN_psn
  /-- Lowest unacknowledged PSN (R324) [state, 11_sillage_transport.md] -/
  | CN_una
  /-- Next msg_id to start (R323) [state, 11_sillage_transport.md] -/
  | CN_msg
  /-- Peer's msg_done (R324) [state, 11_sillage_transport.md] -/
  | CN_peer
  /-- SEND messages started (R328) [state, 11_sillage_transport.md] -/
  | CN_ssn
  /-- Path that took the last new packet (R325) [state, 11_sillage_transport.md] -/
  | CN_path
  /-- Transmit key phase (R337) [state, 11_sillage_transport.md] -/
  | CN_kp
  /-- Transmit slot of a phase; instance: context*2 + phase [state, 11_sillage_transport.md] -/
  | CN_tx_slot
  /-- Receive slot of a phase [state, 11_sillage_transport.md] -/
  | CN_rx_slot
  /-- Phase that the next rx_key_slot change writes [state, 11_sillage_transport.md] -/
  | CN_rx_next
  /-- Data and PROBE packets under the phase (R337) [state, 11_sillage_transport.md] -/
  | CN_cnt
  /-- Control sequence number (R336) [state, 11_sillage_transport.md] -/
  | CN_ctl
  /-- Nothing is sent: KEY_EXHAUST (R337) [state, 11_sillage_transport.md] -/
  | CN_stop
  /-- Sending of new data is stalled on a page (R356) [state, 11_sillage_transport.md] -/
  | CN_stall
  /-- Endpoint of that page [state, 11_sillage_transport.md] -/
  | CN_stall_e
  /-- The page, as the ATC numbers it [state, 11_sillage_transport.md] -/
  | CN_stall_pg
  /-- The message that stalled [state, 11_sillage_transport.md] -/
  | CN_stall_m
  /-- It is a READ response [state, 11_sillage_transport.md] -/
  | CN_stall_r
  /-- DTS of the last CNP sent plus 1, 0 none (Table SILL-11) [state, 11_sillage_transport.md] -/
  | CN_cnp_at
  /-- Lowest PSN not received (R328) [state, 11_sillage_transport.md] -/
  | CN_rlow
  /-- PSNs received beyond it: bit i is rlow + i [state, 11_sillage_transport.md] -/
  | CN_rmap
  /-- Lowest msg_id not completed at this receiver (ACKX msg_done) [state, 11_sillage_transport.md] -/
  | CN_rmsg
  /-- Accepted packets not yet acknowledged (R332) [state, 11_sillage_transport.md] -/
  | CN_ackn
  /-- DTS of the first unacknowledged acceptance, 0 none [state, 11_sillage_transport.md] -/
  | CN_ack_at
  /-- Path of the packet that the next ACK answers [state, 11_sillage_transport.md] -/
  | CN_ack_path
  /-- ts of that packet [state, 11_sillage_transport.md] -/
  | CN_ack_echo
  /-- Its ingress timestamp [state, 11_sillage_transport.md] -/
  | CN_ack_rx
  /-- UNC16 of it [state, 11_sillage_transport.md] -/
  | CN_ack_unc
  /-- rx_stepped, rx_ts_invalid [state, 11_sillage_transport.md] -/
  | CN_ack_fl
  /-- msg_id of a failure found after its sender completion (R340) [state, 11_sillage_transport.md] -/
  | CN_late_msg
  /-- Its status, 0 none [state, 11_sillage_transport.md] -/
  | CN_late_st
  /-- Status of the earliest failed message since the last flush, 0 none (R339) [state, 11_sillage_transport.md] -/
  | CN_fail_st
  /-- Consecutive RoCE timeouts [state, 11_sillage_transport.md] -/
  | CN_to
  /-- The path is retired; instance: context*256 + path (R333) [state, 11_sillage_transport.md] -/
  | PT_retired
  /-- rate[k] in 1/256 Mb/s (R335) [state, 11_sillage_transport.md] -/
  | PT_rate
  /-- DTS before which the pacer lets no frame go (R335) [state, 11_sillage_transport.md] -/
  | PT_pace
  /-- srtt, 0.25 ns [state, 11_sillage_transport.md] -/
  | PT_srtt
  /-- rttvar, 0.25 ns [state, 11_sillage_transport.md] -/
  | PT_rttvar
  /-- The path has an RTT sample [state, 11_sillage_transport.md] -/
  | PT_sampled
  /-- Consecutive timeouts (R333) [state, 11_sillage_transport.md] -/
  | PT_tos
  /-- base_cur of owd, 2^32 infinity (R335) [state, 11_sillage_transport.md] -/
  | PT_bcur
  /-- base_prev of owd [state, 11_sillage_transport.md] -/
  | PT_bprev
  /-- base_cur of rtt [state, 11_sillage_transport.md] -/
  | PT_rcur
  /-- base_prev of rtt [state, 11_sillage_transport.md] -/
  | PT_rprev
  /-- last_dec [state, 11_sillage_transport.md] -/
  | PT_dec
  /-- DTS of the last probe [state, 11_sillage_transport.md] -/
  | PT_probe_at
  /-- Stored packet: 0 none, 1 outstanding, 2 lost, 3 acknowledged, 4 waits under a NAK; instance: context*256 + PSN mod 256 (R327) [state, 11_sillage_transport.md] -/
  | RT_st
  /-- Its PSN [state, 11_sillage_transport.md] -/
  | RT_psn
  /-- Path of its last transmission [state, 11_sillage_transport.md] -/
  | RT_path
  /-- DT64 of its last transmission [state, 11_sillage_transport.md] -/
  | RT_ts
  /-- UNC16 of that time [state, 11_sillage_transport.md] -/
  | RT_unc
  /-- Times sent [state, 11_sillage_transport.md] -/
  | RT_tx
  /-- Order of its last transmission on the connection [state, 11_sillage_transport.md] -/
  | RT_seq
  /-- PSNs sent later on its path and received (R333) [state, 11_sillage_transport.md] -/
  | RT_later
  /-- msg_id [state, 11_sillage_transport.md] -/
  | RT_msg
  /-- Opcode [state, 11_sillage_transport.md] -/
  | RT_op
  /-- A transmission has left its egress port (R338) [state, 11_sillage_transport.md] -/
  | RT_left
  /-- The packet answers a request of the peer [state, 11_sillage_transport.md] -/
  | RT_resp
  /-- DTS of a resend under a NAK [state, 11_sillage_transport.md] -/
  | RT_at
  /-- Exempt from loss detection (R355) [state, 11_sillage_transport.md] -/
  | RT_exempt
  /-- Transmissions of the connection so far [state, 11_sillage_transport.md] -/
  | CN_seq
  /-- Sender message: 0 none, 1 being sent, 2 sent whole, 3 completed; instance: context*64 + msg_id mod 64 [state, 11_sillage_transport.md] -/
  | MS_st
  /-- Its work number plus 1 [state, 11_sillage_transport.md] -/
  | MS_work
  /-- Opcode (Table SILL-2) [state, 11_sillage_transport.md] -/
  | MS_op
  /-- msg_len [state, 11_sillage_transport.md] -/
  | MS_len
  /-- Offset of the next packet [state, 11_sillage_transport.md] -/
  | MS_off
  /-- ssn of a SEND [state, 11_sillage_transport.md] -/
  | MS_ssn
  /-- Status (Table SILL-7) [state, 11_sillage_transport.md] -/
  | MS_status
  /-- The message has failed (R340) [state, 11_sillage_transport.md] -/
  | MS_failed
  /-- Its completion has fallen due [state, 11_sillage_transport.md] -/
  | MS_posted
  /-- Response bytes received [state, 11_sillage_transport.md] -/
  | MS_rx
  /-- Resends after NO_RECV_BUF [state, 11_sillage_transport.md] -/
  | MS_rnr
  /-- DTS before which no new packet of the message is sent (R355), 0 none [state, 11_sillage_transport.md] -/
  | MS_hold
  /-- Its response is complete [state, 11_sillage_transport.md] -/
  | MS_rxd
  /-- First PSN of the message [state, 11_sillage_transport.md] -/
  | MS_psn
  /-- Payload bytes asked of the host so far [state, 11_sillage_transport.md] -/
  | MS_fetch
  /-- Receiver message: a packet has arrived; instance: context*64 + msg_id mod 64 (R329) [state, 11_sillage_transport.md] -/
  | RM_seen
  /-- Opcode [state, 11_sillage_transport.md] -/
  | RM_op
  /-- msg_len [state, 11_sillage_transport.md] -/
  | RM_len
  /-- Bytes counted [state, 11_sillage_transport.md] -/
  | RM_cnt
  /-- Complete [state, 11_sillage_transport.md] -/
  | RM_done
  /-- Failed: treated as complete, no receive completion (R340) [state, 11_sillage_transport.md] -/
  | RM_fail
  /-- Immediate data [state, 11_sillage_transport.md] -/
  | RM_imm
  /-- Work number plus 1 of its receive buffer [state, 11_sillage_transport.md] -/
  | RM_buf
  /-- ADDR address [state, 11_sillage_transport.md] -/
  | RM_addr
  /-- ADDR key [state, 11_sillage_transport.md] -/
  | RM_key
  /-- Add or swap value [state, 11_sillage_transport.md] -/
  | RM_opnd
  /-- Compare value [state, 11_sillage_transport.md] -/
  | RM_cmp
  /-- msg_id [state, 11_sillage_transport.md] -/
  | RM_id
  /-- PSN of a request [state, 11_sillage_transport.md] -/
  | RM_psn
  /-- Syndrome of a NAK that answers a request at its execution, 0 none [state, 11_sillage_transport.md] -/
  | RESP_nak
  /-- Receive buffers handed out; instance: context (R328) [state, 11_sillage_transport.md] -/
  | RX_ssn
  /-- Offset of its next packet [state, 11_sillage_transport.md] -/
  | RESP_off
  /-- Address of the next byte to read [state, 11_sillage_transport.md] -/
  | RESP_addr
  /-- Key it reads under [state, 11_sillage_transport.md] -/
  | RESP_key
  /-- 0 none, 1 in progress [state, 11_sillage_transport.md] -/
  | RESP_st
  /-- The connection context is in the region's cache; scope: region, instance: context (R320) [state, 11_sillage_transport.md] -/
  | CACHE_in
  /-- When it was last used, as a count [state, 11_sillage_transport.md] -/
  | CACHE_at
  /-- The context is being loaded [state, 11_sillage_transport.md] -/
  | CACHE_fill
  /-- Uses so far; scope: region [state, 11_sillage_transport.md] -/
  | CACHE_tick
  /-- fallback samples of a region since fallback_rtt last rose; scope: region (R334) [state, 11_sillage_transport.md] -/
  | CN_fb
  /-- Connection context plus 1 of a Sillage packet the device sends (R338) [state, 11_sillage_transport.md] -/
  | PKT_sil
  /-- Its PSN [state, 11_sillage_transport.md] -/
  | PKT_sil_psn
  /-- Bit 0: it is a data packet; bit 1: it is an ACK, NAK or PROBE packet (R486) [state, 11_sillage_transport.md] -/
  | PKT_sil_data
  /-- Connection context plus 1 that the work belongs to (R340) [state, 17_rings_and_work_queues.md] -/
  | WRK_conn
  /-- A namespace record is in use; instance: namespace (Table STOR-2) [state, 13_storage_offload.md] -/
  | NS_on
  /-- Namespace record (Table STOR-5) [state, 13_storage_offload.md] -/
  | NS_rec
  /-- A backend record is in use; instance: backend [state, 13_storage_offload.md] -/
  | BE_on
  /-- Backend record (Table STOR-3) [state, 13_storage_offload.md] -/
  | BE_rec
  /-- Queue of a backend is connected; instance: backend*64 + queue (R374) [state, 13_storage_offload.md] -/
  | BEQ_on
  /-- The queue was connected before and lost its connection [state, 13_storage_offload.md] -/
  | BEQ_was
  /-- Commands outstanding on the queue [state, 13_storage_offload.md] -/
  | BEQ_out
  /-- Next backend command tag of the queue (Table STOR-4) [state, 13_storage_offload.md] -/
  | BEQ_tag
  /-- In-capsule data that the target takes, bytes (R368) [state, 13_storage_offload.md] -/
  | BEQ_ioccsz
  /-- The target's MAXH2CDATA [state, 13_storage_offload.md] -/
  | BEQ_maxh2c
  /-- Retransmission timeout of a TCP queue connection, 0.25 ns (RFC 6298; R368) [state, 13_storage_offload.md] -/
  | BEQ_rto
  /-- Namespace index plus 1 attached as an nsid; instance: controller*257 + nsid (R365) [state, 13_storage_offload.md] -/
  | NSA
  /-- Channel plus 1 whose NS_DETACH waits on this nsid (R370) [state, 13_storage_offload.md] -/
  | NSA_det
  /-- Namespace index plus 1 being detached [state, 13_storage_offload.md] -/
  | NSA_old
  /-- Fetch sequence number that the controller gave next when the detachment was accepted (R370) [state, 13_storage_offload.md] -/
  | NSA_seq
  /-- Controller Configuration; instance: controller [state, 13_storage_offload.md] -/
  | NC_cc
  /-- Controller Status [state, 13_storage_offload.md] -/
  | NC_csts
  /-- Admin Queue Attributes [state, 13_storage_offload.md] -/
  | NC_aqa
  /-- Admin Submission Queue base [state, 13_storage_offload.md] -/
  | NC_asq
  /-- Admin Completion Queue base [state, 13_storage_offload.md] -/
  | NC_acq
  /-- Interrupt mask (INTMS, INTMC) [state, 13_storage_offload.md] -/
  | NC_ints
  /-- DTS at which CC.EN was set, 0 none (R363) [state, 13_storage_offload.md] -/
  | NC_en_at
  /-- DTS of the controller reset or shutdown in progress (R379, R382) [state, 13_storage_offload.md] -/
  | NC_reset_at
  /-- Shutdown in progress: 1 normal, 2 abrupt (R382) [state, 13_storage_offload.md] -/
  | NC_shn
  /-- Fetching from the controller is stopped [state, 13_storage_offload.md] -/
  | NC_stop
  /-- Next fetch sequence number (R371) [state, 13_storage_offload.md] -/
  | NC_seq
  /-- Queue served last by the controller's round robin [state, 13_storage_offload.md] -/
  | NC_rr
  /-- Feature 01h Arbitration [state, 13_storage_offload.md] -/
  | NC_feat_arb
  /-- Feature 06h Volatile Write Cache [state, 13_storage_offload.md] -/
  | NC_feat_vwc
  /-- Feature 08h Interrupt Coalescing [state, 13_storage_offload.md] -/
  | NC_feat_coal
  /-- Feature 09h Interrupt Vector Configuration; instance: controller*65 + vector [state, 13_storage_offload.md] -/
  | NC_feat_vec
  /-- Feature 0Bh Asynchronous Event Configuration [state, 13_storage_offload.md] -/
  | NC_feat_aec
  /-- I/O queues allocated by feature 07h [state, 13_storage_offload.md] -/
  | NC_nsq
  /-- The Changed Namespace List holds entries [state, 13_storage_offload.md] -/
  | NC_chg
  /-- Submission queue exists; instance: controller*65 + queue [state, 13_storage_offload.md] -/
  | SQ_on
  /-- Its base [state, 13_storage_offload.md] -/
  | SQ_base
  /-- Entries [state, 13_storage_offload.md] -/
  | SQ_size
  /-- Head [state, 13_storage_offload.md] -/
  | SQ_head
  /-- Tail [state, 13_storage_offload.md] -/
  | SQ_tail
  /-- Its completion queue [state, 13_storage_offload.md] -/
  | SQ_cq
  /-- Number plus 1 of a fetched command of the queue that waits for credit, 0 none (R371) [state, 13_storage_offload.md] -/
  | SQ_block
  /-- Completion queue exists [state, 13_storage_offload.md] -/
  | CQ_on
  /-- Its base [state, 13_storage_offload.md] -/
  | CQ_base
  /-- Entries [state, 13_storage_offload.md] -/
  | CQ_size
  /-- Head [state, 13_storage_offload.md] -/
  | CQ_head
  /-- Tail [state, 13_storage_offload.md] -/
  | CQ_tail
  /-- Phase tag of the next entry [state, 13_storage_offload.md] -/
  | CQ_phase
  /-- Interrupt vector [state, 13_storage_offload.md] -/
  | CQ_iv
  /-- Interrupts enabled [state, 13_storage_offload.md] -/
  | CQ_ien
  /-- Commands fetched since reset: the next command number (the model's own numbering) [state, 13_storage_offload.md] -/
  | CM_next
  /-- Controller of a command; instance: command number [state, 13_storage_offload.md] -/
  | CM_ctrl
  /-- Submission queue [state, 13_storage_offload.md] -/
  | CM_sq
  /-- Submission queue entry [state, 13_storage_offload.md] -/
  | CM_sqe
  /-- 0 none, 1 being read, 2 FETCHED, 3 STAGING, 4 ORDER_WAIT, 5 SENT, 6 completed, 7 its status is known and it waits (Table STOR-6) [state, 13_storage_offload.md] -/
  | CM_st
  /-- Fetch sequence number (R371) [state, 13_storage_offload.md] -/
  | CM_seq
  /-- Namespace index plus 1 [state, 13_storage_offload.md] -/
  | CM_ns
  /-- Serving region (R372) [state, 13_storage_offload.md] -/
  | CM_region
  /-- Backend it was sent to [state, 13_storage_offload.md] -/
  | CM_be
  /-- Queue of the backend [state, 13_storage_offload.md] -/
  | CM_q
  /-- Backend command tag [state, 13_storage_offload.md] -/
  | CM_tag
  /-- DTS at which it was sent [state, 13_storage_offload.md] -/
  | CM_sent_at
  /-- Times it was resent [state, 13_storage_offload.md] -/
  | CM_tries
  /-- Dword 0 of its completion [state, 13_storage_offload.md] -/
  | CM_cpl
  /-- It was fetched with overlap_order 1 (R375) [state, 13_storage_offload.md] -/
  | CM_ordered
  /-- First error status returned to a Flush, 0 none (R377) [state, 13_storage_offload.md] -/
  | CM_flush_st
  /-- Host bytes still to be read for the command [state, 13_storage_offload.md] -/
  | CM_want
  /-- The backend has answered, or the device completed it without sending (R375) [state, 13_storage_offload.md] -/
  | CM_answered
  /-- The command was counted as held by a conflict [state, 13_storage_offload.md] -/
  | CM_waited
  /-- Host data bytes of the command [state, 13_storage_offload.md] -/
  | CM_dlen
  /-- Of them, those whose place in host memory its data pointers have told [state, 13_storage_offload.md] -/
  | CM_desc
  /-- 1 the data comes from the host, 2 it goes to the host [state, 13_storage_offload.md] -/
  | CM_dir
  /-- Address of the PRP list or SGL segment being read [state, 13_storage_offload.md] -/
  | CM_ptr
  /-- Status plus 1 with which the command ends, once it can be written to the host (R437) [state, 13_storage_offload.md] -/
  | CM_resp
  /-- What holds a command that has its status: 1 the host, 2 the key of its namespace [state, 13_storage_offload.md] -/
  | CM_hold
  /-- Command number plus 1 of the Flush that this Flush to a backend is part of (R377) [state, 13_storage_offload.md] -/
  | CM_parent
  /-- This Flush to a backend is part of a shutdown (R382) [state, 13_storage_offload.md] -/
  | CM_shn
  /-- Backend queue plus 1 that a resend does not take (Table STOR-6) [state, 13_storage_offload.md] -/
  | CM_avoid
  /-- backend_nsid of its namespace [state, 13_storage_offload.md] -/
  | CM_bns
  /-- First LBA at the backend [state, 13_storage_offload.md] -/
  | CM_slba
  /-- nsid under which the controller names the namespace [state, 13_storage_offload.md] -/
  | CM_nsid
  /-- Commands fetched in a row from the queue served last (Arbitration Burst) [state, 13_storage_offload.md] -/
  | NC_burst
  /-- TLS records sent on the queue [state, 13_storage_offload.md] -/
  | BEQ_rec
  /-- Commands held by a conflict since order_waits last rose; scope: region (NVE_REGION_CNT0) [state, 13_storage_offload.md] -/
  | NVE_ow
  /-- Activation of stage 2 firmware is in progress (R383) [state, 13_storage_offload.md] -/
  | ACT_on
  /-- DTS at which it began [state, 13_storage_offload.md] -/
  | ACT_at
  /-- Command number plus 1 of the Firmware Commit that waits [state, 13_storage_offload.md] -/
  | ACT_cmd
  /-- Slot to activate [state, 13_storage_offload.md] -/
  | ACT_slot
  /-- drain_limit_us in force for the region's offlining (R537) [state, 21_service_test_and_repair.md] -/
  | SRV_limit
  /-- DTS at which a voltage island last moved (R52) [state, 01_package_dies_and_hierarchy.md] -/
  | ISLAND_at
  /-- Target of the IOD0, IOD1 and TMD handshake islands, instances 12, 13 and 14 (R489) [state, 01_package_dies_and_hierarchy.md] -/
  | ISLAND_tgt
  /-- region_mask of the SWAP, ROLLBACK or watchdog rollback in progress (R160, R170) [state, 05_structure_images.md] -/
  | STR_mask_req
  /-- DTS of the flip of that command (R160) [state, 05_structure_images.md] -/
  | STR_flip_at
  /-- The flip in progress is that of a watchdog rollback (R173) [state, 05_structure_images.md] -/
  | STR_wd
  /-- COLD_APPLY: 0 none, 1 steering and dispatch stopped (R174) [state, 05_structure_images.md] -/
  | STR_cold
  /-- Its slot [state, 05_structure_images.md] -/
  | STR_cold_slot
  /-- The fabric runs the ACTIVE image (R507) [state, 05_structure_images.md] -/
  | STR_loaded
  /-- DTS at which the commit watchdog expires (R173) [state, 05_structure_images.md] -/
  | STR_wdog_at
  /-- The next SWAP's flip starts the watchdog (R173) [state, 05_structure_images.md] -/
  | STR_wdog_wait
  /-- DTS of a region's last flip; instance: region (R165) [state, 05_structure_images.md] -/
  | STR_drain_from
  /-- Packets dropped for IMAGE_RELOAD since reload_drops last rose (R174) [state, 05_structure_images.md] -/
  | STR_reload_sub
  /-- Instance plus 1 that a region's context uses of a table, 0 none; scope: region, instance: context*1024 + table (R162, R168) [state, 05_structure_images.md] -/
  | TBL_inst
  /-- Index of a cell's next word for a packet; instance: packet*256 + cell (R152) [state, 05_structure_images.md] -/
  | PKT_cell_word
  /-- The cell has begun the packet [state, 05_structure_images.md] -/
  | PKT_cell_on
  /-- The vector as the cell sees it (R151) [state, 05_structure_images.md] -/
  | PKT_cell_phv
  /-- The metadata as the cell sees it [state, 05_structure_images.md] -/
  | PKT_cell_meta
  /-- Cells of the packet's present stage that have not passed it on, by place in the stage record (R151) [state, 05_structure_images.md] -/
  | PKT_todo
  /-- The vector as the packet entered its present stage (R151) [state, 05_structure_images.md] -/
  | PKT_phv0
  /-- The metadata as the packet entered its present stage [state, 05_structure_images.md] -/
  | PKT_meta0
  /-- Predicates of a cell's local state; scope: region, instance: cell (R152) [state, 05_structure_images.md] -/
  | CELL_pred
  /-- Result slots of a cell's local state, 3 bits each (R219, R244) [state, 05_structure_images.md] -/
  | CELL_res
  /-- A region's copy of CLS_PORT_DEF and CLS_PORT_DEST of a port: nomatch_act 2, parsefail_act 2, secondary 1, frag_mode 1, punt_q 16, index 16, kind 1, tclass 3 bit [state, 06_parsing_and_classification.md] -/
  | CLSR_port
  /-- A region's copy of CLS_FRAG_CFG (R199) [state, 06_parsing_and_classification.md] -/
  | CLSR_frag
  /-- The CLS_ registers of its port as the packet sees them (R199) [state, 06_parsing_and_classification.md] -/
  | PKT_cls
  /-- CLS_FRAG_CFG as the packet sees it (R199) [state, 06_parsing_and_classification.md] -/
  | PKT_clsf
  /-- Tokens of a region's punt bucket for a port, 1/(4×10^9) packet; scope: region, instance: port (R196) [state, 06_parsing_and_classification.md] -/
  | PUNTB_tok
  /-- DTS at which they were brought forward [state, 06_parsing_and_classification.md] -/
  | PUNTB_at
  /-- Its rate, packets per second [state, 06_parsing_and_classification.md] -/
  | PUNTB_rate
  /-- Its depth, packets [state, 06_parsing_and_classification.md] -/
  | PUNTB_depth
  /-- A fragment table entry; scope: region, instance: digest (R202) [state, 06_parsing_and_classification.md] -/
  | FRE_on
  /-- Its rule_id [state, 06_parsing_and_classification.md] -/
  | FRE_rule
  /-- Its class_hit [state, 06_parsing_and_classification.md] -/
  | FRE_hit
  /-- Its epoch [state, 06_parsing_and_classification.md] -/
  | FRE_epoch
  /-- DTS of its last hit or its recording (R205) [state, 06_parsing_and_classification.md] -/
  | FRE_at
  /-- Seed of the digest (R202) [state, 06_parsing_and_classification.md] -/
  | FRAG_seed
  /-- Digest of a fragment's key plus 1, 0 no fragment (R202) [state, 06_parsing_and_classification.md] -/
  | PKT_fragkey
  /-- The fragment is walked on outer fields: OUTER_FALLBACK (R204, R206) [state, 06_parsing_and_classification.md] -/
  | PKT_outer
  /-- What a fragment follows: rule_id, class_hit in bit 16, bit 17 set (R203) [state, 06_parsing_and_classification.md] -/
  | PKT_follow
  /-- cir of a policer as applied; scope: region, instance: policer (R211) [state, 06_parsing_and_classification.md] -/
  | POL_cir
  /-- pir as applied [state, 06_parsing_and_classification.md] -/
  | POL_pir
  /-- cbs as applied [state, 06_parsing_and_classification.md] -/
  | POL_cbs
  /-- pbs as applied [state, 06_parsing_and_classification.md] -/
  | POL_pbs
  /-- enable as applied [state, 06_parsing_and_classification.md] -/
  | POL_en
  /-- colour_aware as applied [state, 06_parsing_and_classification.md] -/
  | POL_aware
  /-- Committed tokens, 1/32,000 byte (R208) [state, 06_parsing_and_classification.md] -/
  | POL_tc
  /-- Peak tokens, 1/32,000 byte [state, 06_parsing_and_classification.md] -/
  | POL_tp
  /-- DTS at which they were brought forward [state, 06_parsing_and_classification.md] -/
  | POL_at
  /-- Which of its two halves of storage a table instance uses; instance: table*2 + instance (R229) [state, 07_exact_match_tables.md] -/
  | EXI_half
  /-- seed0 in use; instance: (table*2 + instance)*2 + half (R227) [state, 07_exact_match_tables.md] -/
  | EXI_seed0
  /-- seed1 in use [state, 07_exact_match_tables.md] -/
  | EXI_seed1
  /-- log2 of buckets [state, 07_exact_match_tables.md] -/
  | EXI_log2
  /-- Entry of an exact-match table, little-endian (R213); scope: region, or 8 + stack; instance: ((table*2 + instance)*2 + half)*2^28 + slot [state, 07_exact_match_tables.md] -/
  | EXE
  /-- End of a damping record, 0 none; scope: region, or 8 + stack; instance: (table*2 + instance)*2^224 + key (R235) [state, 07_exact_match_tables.md] -/
  | DAMP_at
  /-- The hash-table block that keeps the record [state, 07_exact_match_tables.md] -/
  | DAMP_blk
  /-- SHADOW_COPY has returned END since SHADOW_OPEN; instance: table (R229) [state, 07_exact_match_tables.md] -/
  | EXM_sh_end
  /-- Move candidate recorded under a live damping record, port + 1 (R234), per place and key; the model's own layout. [state, 07_exact_match_tables.md] -/
  | DAMP_cand
  /-- Table instance plus 1 that a unit begins an entry of; scope: region, instance: unit (R238) [state, 08_associative_and_pattern_search.md] -/
  | TCE_inst
  /-- Its width code (Table ASOC-2) [state, 08_associative_and_pattern_search.md] -/
  | TCE_width
  /-- Its priority [state, 08_associative_and_pattern_search.md] -/
  | TCE_prio
  /-- Its result [state, 08_associative_and_pattern_search.md] -/
  | TCE_res
  /-- Its key, key bit 0 at bit 639 [state, 08_associative_and_pattern_search.md] -/
  | TCE_key
  /-- Its mask [state, 08_associative_and_pattern_search.md] -/
  | TCE_mask
  /-- The entry is quarantined (R247) [state, 08_associative_and_pattern_search.md] -/
  | TCE_quar
  /-- The entry is stuck (R248) [state, 08_associative_and_pattern_search.md] -/
  | TCE_stuck
  /-- Its ECC copy is uncorrectable (R248) [state, 08_associative_and_pattern_search.md] -/
  | TCE_bad
  /-- The channel's MOVE has made its copy valid and not yet invalidated the original; instance: channel (R252) [state, 08_associative_and_pattern_search.md] -/
  | TCM_mv_on
  /-- Table instance of that MOVE (R252) [state, 08_associative_and_pattern_search.md] -/
  | TCM_mv_inst
  /-- Unit that it moves from (R252) [state, 08_associative_and_pattern_search.md] -/
  | TCM_mv_src
  /-- Unit that it moves to (R252) [state, 08_associative_and_pattern_search.md] -/
  | TCM_mv_dst
  /-- DTS at which it made its copy valid (R252) [state, 08_associative_and_pattern_search.md] -/
  | TCM_mv_at
  /-- A region in DRAIN_BACK has drained and its rebuilt tables are to be written again (R215); instance: region [state, 05_structure_images.md] -/
  | STR_rewrite
  /-- Whether the IODs run the staged image's common sections (R164); the model's own record. [state, 05_structure_images.md] -/
  | STR_common_new
  /-- Traffic class under which a received frame lies in the receive buffer (R275) [state, 09_ethernet_ports.md] -/
  | PKT_rxcls
  /-- It lies in the class's headroom (R275) [state, 09_ethernet_ports.md] -/
  | PKT_rxhr
  /-- The package is selected (DSP0222; R290) [state, 09_ethernet_ports.md] -/
  | NCSI_sel
  /-- Hardware arbitration is disabled [state, 09_ethernet_ports.md] -/
  | NCSI_hwarb
  /-- The channel has left its initial state; instance: channel [state, 09_ethernet_ports.md] -/
  | NCSI_init
  /-- Channel enabled [state, 09_ethernet_ports.md] -/
  | NCSI_en
  /-- Channel network transmit enabled [state, 09_ethernet_ports.md] -/
  | NCSI_tx
  /-- Link down allowed while disabled [state, 09_ethernet_ports.md] -/
  | NCSI_ald
  /-- Management controller of the channel's events [state, 09_ethernet_ports.md] -/
  | NCSI_aen_mc
  /-- Events enabled [state, 09_ethernet_ports.md] -/
  | NCSI_aen
  /-- Link settings of Set Link [state, 09_ethernet_ports.md] -/
  | NCSI_link
  /-- OEM link settings of Set Link [state, 09_ethernet_ports.md] -/
  | NCSI_oem_link
  /-- MAC filter; instance: channel*8 + filter [state, 09_ethernet_ports.md] -/
  | NCSI_mac
  /-- Filter in use [state, 09_ethernet_ports.md] -/
  | NCSI_mac_en
  /-- VLAN filter; instance: channel*2 + filter [state, 09_ethernet_ports.md] -/
  | NCSI_vlan
  /-- Filter in use [state, 09_ethernet_ports.md] -/
  | NCSI_vlan_en
  /-- VLAN mode, 0 disabled [state, 09_ethernet_ports.md] -/
  | NCSI_vmode
  /-- Broadcast filter enabled [state, 09_ethernet_ports.md] -/
  | NCSI_bc
  /-- Broadcast filter settings [state, 09_ethernet_ports.md] -/
  | NCSI_bc_set
  /-- Multicast filter enabled [state, 09_ethernet_ports.md] -/
  | NCSI_mc
  /-- Multicast filter settings [state, 09_ethernet_ports.md] -/
  | NCSI_mc_set
  /-- Control packets received [state, 09_ethernet_ports.md] -/
  | NCSI_cmds
  /-- Control packets dropped [state, 09_ethernet_ports.md] -/
  | NCSI_dropped
  /-- Control packets of unsupported type [state, 09_ethernet_ports.md] -/
  | NCSI_type_err
  /-- Control packets with a bad checksum [state, 09_ethernet_ports.md] -/
  | NCSI_sum_err
  /-- Control packets sent [state, 09_ethernet_ports.md] -/
  | NCSI_resp
  /-- Events sent [state, 09_ethernet_ports.md] -/
  | NCSI_aens
  /-- Pass-through frames sent [state, 09_ethernet_ports.md] -/
  | NCSI_pt_tx
  /-- Pass-through frames to send that were dropped [state, 09_ethernet_ports.md] -/
  | NCSI_pt_txdrop
  /-- Pass-through frames received [state, 09_ethernet_ports.md] -/
  | NCSI_pt_rx
  /-- Pass-through frames received and dropped [state, 09_ethernet_ports.md] -/
  | NCSI_pt_rxdrop
  /-- DTS at which a port last began to train; scope: IOD, instance: port (Table ETH-3) [state, 09_ethernet_ports.md] -/
  | ETH_train_at
  /-- Key of a slot in a region cipher block's cache: 0 absent, 1 loading, 2 held, 3 its load failed; scope: region, instance: slot (R398) [state, 14_cipher_engines_and_key_store.md] -/
  | CIPC_st
  /-- When it was last used, as a count [state, 14_cipher_engines_and_key_store.md] -/
  | CIPC_at
  /-- Uses so far; scope: region [state, 14_cipher_engines_and_key_store.md] -/
  | CIPC_tick
  /-- Seed of the CTR_DRBG (R390) [state, 14_cipher_engines_and_key_store.md] -/
  | DRBG_seed
  /-- Draws since it was reseeded [state, 14_cipher_engines_and_key_store.md] -/
  | DRBG_ctr
  /-- Tenant record in force (Table TEN-2); instance: tenant [state, 18_tenants.md] -/
  | TREC
  /-- The main rails are up (R559) [state, 22_pins_power_and_package.md] -/
  | PWR_main
  /-- VAUX is up (R565) [state, 22_pins_power_and_package.md] -/
  | PWR_vaux
  /-- Uncorrectable Error Status of a function's AER; scope: endpoint, instance: function (R433) [state, 16_host_interface.md] -/
  | AER_u
  /-- Correctable Error Status [state, 16_host_interface.md] -/
  | AER_c
  /-- Uncorrectable Error Mask; reset as PCIe has it [state, 16_host_interface.md] -/
  | AER_umask
  /-- Uncorrectable Error Severity; reset as PCIe has it [state, 16_host_interface.md] -/
  | AER_usev
  /-- Correctable Error Mask; reset as PCIe has it [state, 16_host_interface.md] -/
  | AER_cmask
  /-- Command register without Bus Master Enable: bit 1 Memory Space Enable, bit 6, bit 8 SERR# Enable, bit 10 [state, 16_host_interface.md] -/
  | FN_cmd
  /-- Cache Line Size [state, 16_host_interface.md] -/
  | FN_cls
  /-- Interrupt Line [state, 16_host_interface.md] -/
  | FN_intl
  /-- A BAR's base; instance: function*4 + (0 BAR0, 1 BAR2, 2 BAR4) (R425) [state, 16_host_interface.md] -/
  | FN_bar
  /-- Expansion ROM BAR: bit 0 ROM Enable, [31:20] base (R427) [state, 16_host_interface.md] -/
  | FN_rom
  /-- Device Control; reset as PCIe has it: Relaxed Ordering, No Snoop, Max Read Request Size 512 [state, 16_host_interface.md] -/
  | FN_devctl
  /-- Device Status bits 0 to 3 [state, 16_host_interface.md] -/
  | FN_devsta
  /-- Link Control [state, 16_host_interface.md] -/
  | FN_lnkctl
  /-- Device Control 2 without the Completion Timeout Value [state, 16_host_interface.md] -/
  | FN_devctl2
  /-- Link Control 2 [state, 16_host_interface.md] -/
  | FN_lnkctl2
  /-- Device Control 3: bit 2 14-Bit Tag Requester Enable [state, 16_host_interface.md] -/
  | FN_devctl3
  /-- 10-Bit Tag Requester Enable [state, 16_host_interface.md] -/
  | FN_tag10
  /-- VF Enable of a PF (R439) [state, 16_host_interface.md] -/
  | FN_vf_en
  /-- VF Memory Space Enable of a PF [state, 16_host_interface.md] -/
  | FN_vf_mse
  /-- ARI Capable Hierarchy of a PF [state, 16_host_interface.md] -/
  | FN_vf_ari
  /-- NumVFs of a PF [state, 16_host_interface.md] -/
  | FN_numvfs
  /-- System Page Size of a PF's SR-IOV capability [state, 16_host_interface.md] -/
  | FN_vf_psz
  /-- A VF BAR's base; instance: PF*4 + (0 BAR0, 1 BAR2, 2 BAR4) (R425) [state, 16_host_interface.md] -/
  | FN_vf_bar
  /-- Smallest Translation Unit [state, 16_host_interface.md] -/
  | FN_ats_stu
  /-- ACS Control [state, 16_host_interface.md] -/
  | FN_acs
  /-- Bus number of the function, as its configuration requests name it [state, 16_host_interface.md] -/
  | FN_bus
  /-- PME_En of PF0; scope: endpoint (R440) [state, 16_host_interface.md] -/
  | PME_en
  /-- PME_Status of PF0 (R440) [state, 16_host_interface.md] -/
  | PME_st
  /-- The Downstream Port has DRS enabled; scope: endpoint (R423) [state, 16_host_interface.md] -/
  | PCI_drs
  /-- PEn_PERST_N is asserted (R441) [state, 16_host_interface.md] -/
  | PCI_perst
  /-- DTS at which ROM Enable or Memory Space Enable was last set; instance: function (R427) [state, 16_host_interface.md] -/
  | ROM_at
  /-- State of an IDE stream: 0 Insecure, 2 Secure; scope: endpoint, instance: stream, 0 Link, 1 to 4 Selective (R444) [state, 16_host_interface.md] -/
  | IDE_state
  /-- The stream went Insecure for a failed check and has not been re-keyed [state, 16_host_interface.md] -/
  | IDE_bad
  /-- Keys programmed of a stream: bit sub-stream*2 + direction [state, 16_host_interface.md] -/
  | IDE_prog
  /-- Keys in use of a stream [state, 16_host_interface.md] -/
  | IDE_go
  /-- Lowest routing ID of a Selective stream [state, 16_host_interface.md] -/
  | IDE_rid_base
  /-- Highest routing ID of a Selective stream [state, 16_host_interface.md] -/
  | IDE_rid_lim
  /-- The routing IDs of the stream are valid [state, 16_host_interface.md] -/
  | IDE_rid_v
  /-- Message Address of an MSI-X vector; scope: endpoint, instance: function*4096 + vector [state, 16_host_interface.md] -/
  | MSIX_addr
  /-- Message Data of an MSI-X vector [state, 16_host_interface.md] -/
  | MSIX_data
  /-- DTS until which the planner holds admission to a region for an ageing measurement; scope: region (R496) [state, 19_energy_ledger_and_ageing.md] -/
  | NRL_hold_until
  /-- Charging has ended after a power-fail warning (R500) [state, 19_energy_ledger_and_ageing.md] -/
  | NRL_off
  /-- Event charges at k = 1 of the present epoch, in the parts of NRL_frac (R483) [state, 19_energy_ledger_and_ageing.md] -/
  | NRL_est
  /-- Last good power of a regulator rail, mW; instance: rail (R484) [state, 19_energy_ledger_and_ageing.md] -/
  | NRL_rail_mw
  /-- DTS of the rail's last good read (R484) [state, 19_energy_ledger_and_ageing.md] -/
  | NRL_rail_at
  /-- A region's margin lies below margin_thr_mv; instance: region (R499) [state, 19_energy_ledger_and_ageing.md] -/
  | AGE_below
  /-- Ageing index in embedded flash; instance: region (R497) [state, 19_energy_ledger_and_ageing.md] -/
  | FL_age
  /-- Lifetime energy total in embedded flash (R500) [state, 19_energy_ledger_and_ageing.md] -/
  | FL_total
  /-- A tenant's consumed energy in embedded flash; instance: tenant (R500) [state, 19_energy_ledger_and_ageing.md] -/
  | FL_used
  /-- The regulators have been read in the present epoch (R483) [state, 19_energy_ledger_and_ageing.md] -/
  | NRL_pm_done
  /-- DTS since which a region holds no admitted work; scope: region (R496) [state, 19_energy_ledger_and_ageing.md] -/
  | REG_idle_at
  /-- DTS second of a region's last ageing measurement plus 1, 0 before the first; scope: region (R496) [state, 19_energy_ledger_and_ageing.md] -/
  | AGE_sec
  /-- DTS of a region's last ageing measurement, or of its last forced idle time; scope: region (R496) [state, 19_energy_ledger_and_ageing.md] -/
  | AGE_at
  /-- DTS of the last hourly store of the persistent state (R497) [state, 19_energy_ledger_and_ageing.md] -/
  | FL_at
  /-- Size of the external flash in bytes, as its SFDP table gives it (R510) [state, 20_boot_and_trust.md] -/
  | BOOT_density
  /-- Stage 0 waits for CK_FLASH (R529) [state, 20_boot_and_trust.md] -/
  | BOOT_s0
  /-- DTS of the hand-over to stage 2 (R506) [state, 20_boot_and_trust.md] -/
  | BOOT_s2_at
  /-- Stage 2 slots treated as invalid for this boot (R506) [state, 20_boot_and_trust.md] -/
  | BOOT_s2_bad
  /-- Kind of the slot that recovery writes (R518) [state, 20_boot_and_trust.md] -/
  | BOOT_rcv_kind
  /-- Offset plus 1 of the last chunk, 0 none (R518) [state, 20_boot_and_trust.md] -/
  | BOOT_rcv_next
  /-- The attestation key exists (R521) [state, 20_boot_and_trust.md] -/
  | ATT_on
  /-- boot_count in embedded flash (R502) [state, 20_boot_and_trust.md] -/
  | FL_boot
  /-- Embedded flash holds a readable boot_count (R573) [state, 20_boot_and_trust.md] -/
  | FL_boot_ok
  /-- Embedded flash holds readable ageing indices and energy totals (R573) [state, 20_boot_and_trust.md] -/
  | FL_ok
  /-- Management core 0 to 3 is out of reset; instance: core (R501) [state, 20_boot_and_trust.md] -/
  | MGT_on
  /-- DTS at which the Onyx window opened (R526) [state, 20_boot_and_trust.md] -/
  | ONX_wait_at
  /-- The power-fail warning has been accepted since power-on reset (R530, R561) [state, 20_boot_and_trust.md] -/
  | PWR_fail
  /-- CT_POR_N is low, or main-rail dies are held in reset (R559) [state, 22_pins_power_and_package.md] -/
  | PWR_reset
  /-- Progress of the SPDM connection: 1 version, 2 capabilities, 3 algorithms agreed; scope: endpoint (R443) [state, 16_host_interface.md] -/
  | SPDM_st
  /-- SPDM session: 0 none, 1 handshake, 2 established; scope: endpoint, instance: session (Table HOST-9) [state, 16_host_interface.md] -/
  | SPDM_sess
  /-- Session identifier [state, 16_host_interface.md] -/
  | SPDM_sid
  /-- Messages protected so far in the session, responder's direction [state, 16_host_interface.md] -/
  | SPDM_seq
  /-- A word of the key slot is poisoned; instance: slot (R395, R544) [state, 21_service_test_and_repair.md] -/
  | KEY_bad
  /-- TCAM bank that is tested next; scope: region (R542) [state, 21_service_test_and_repair.md] -/
  | SRV_tcam_bank
  /-- TCAM bank, plus 1, that the shadow bank stays in place of, 0 none; scope: region (R542) [state, 21_service_test_and_repair.md] -/
  | SRV_tcam_shadow
  /-- DTS of the region's last TCAM bank test; scope: region (R542) [state, 21_service_test_and_repair.md] -/
  | SRV_tcam_at
  /-- DTS of the die's last SRAM scrub; instance: die (R544) [state, 21_service_test_and_repair.md] -/
  | SRV_sram_at
  /-- DTS of the stack's last scrub; instance: stack (R544) [state, 21_service_test_and_repair.md] -/
  | SRV_hbm_at
  /-- TAP instruction: 0 BYPASS, 1 IDCODE, 2 SAMPLE/PRELOAD, 3 EXTEST, 4 CLAMP, 5 HIGHZ (R548) [state, 21_service_test_and_repair.md] -/
  | JTAG_inst
  /-- What drives the output pins: 0 the device, 1 the boundary register, 2 nothing (R548) [state, 21_service_test_and_repair.md] -/
  | JTAG_pins
  /-- The device drives PEn_WAKE_N low; scope: endpoint (R288) [state, 22_pins_power_and_package.md] -/
  | PIN_wake
  /-- Control register of an IDE stream (R444; log entry 72) [state, 16_host_interface.md] -/
  | IDE_ctl
  /-- DTS of a connection's last base-window roll; instance: connection (Table SILL-7) [state, 11_sillage_transport.md] -/
  | CN_bw_at
  /-- ts of the packet that a request or its refusal answers [state, 11_sillage_transport.md] -/
  | RM_ts
  /-- Path of that packet [state, 11_sillage_transport.md] -/
  | RM_path
  /-- DTS before which no new packet of the response is sent (R355), 0 none [state, 11_sillage_transport.md] -/
  | RESP_hold
deriving DecidableEq, Repr

/-- Width in bits of each name. A written value is kept modulo 2^width. -/
def Field.width : Field → Nat
  | .PKG_DIE_INFO_die_num => 4
  | .PKG_DIE_INFO_die_kind => 4
  | .PKG_DIE_INFO_stepping => 8
  | .PKG_DIE_INFO_hbm_present => 1
  | .PKG_DIE_INFO_hbm_trained => 1
  | .PKG_PEING_LINK_kind => 2
  | .PKG_PEING_LINK_state => 2
  | .PKG_PEING_LINK_spares_used => 3
  | .PKG_PEING_LINK_present => 1
  | .PKG_PEING_LINK_corrected_count => 16
  | .XD_SPEED_rel_speed => 12
  | .XD_SPEED_v_mv => 10
  | .XD_SPEED_tj_qc => 10
  | .XD_CLK_PRESENT_present => 18
  | .XD_CLK_LOST_lost => 18
  | .XD_CLK_DIE_PRESENT_present => 18
  | .TS_CTRL_servo_en => 1
  | .TS_CTRL_fault_resolve => 2
  | .TS_CTRL_revertive => 1
  | .TS_STATUS_state => 3
  | .TS_STATUS_time_set => 1
  | .TS_STATUS_ref_sel => 4
  | .TS_STATUS_freq_limit => 1
  | .TS_STATUS_osc_lost => 1
  | .TS_STATUS_fetch_miss => 1
  | .TS_STATUS_unc16 => 16
  | .TS_NOW => 64
  | .TS_NOW_UNC_unc16 => 16
  | .TS_AB_DIFF_diff => 16
  | .TS_AB_DIFF_max_abs => 16
  | .TS_TOD_SET => 64
  | .TS_TOD_SET_UNC_unc16 => 16
  | .TS_TOD_SET_UNC_tod_rejected => 16
  | .TS_UTC_OFFSET_utc_offset => 16
  | .TS_UTC_OFFSET_valid => 1
  | .TS_UTC_OFFSET_leap61 => 1
  | .TS_UTC_OFFSET_leap59 => 1
  | .TS_REF_CFG_enable => 1
  | .TS_REF_CFG_priority => 4
  | .TS_REF_CFG_asym_bound => 16
  | .TS_REF_STATUS_qualified => 1
  | .TS_REF_STATUS_valid => 1
  | .TS_REF_STATUS_outliers => 16
  | .TS_REF_DELAY => 32
  | .TS_PTP_CFG_port => 4
  | .TS_PTP_CFG_domain => 8
  | .TS_PTP_CFG_transport => 2
  | .TS_PTP_CFG_peer_delay => 1
  | .TS_PTP_CFG_role => 2
  | .TS_SERVO_CFG_acq_bw => 3
  | .TS_SERVO_CFG_lock_bw => 3
  | .TS_SERVO_CFG_lock_ns => 6
  | .TS_SERVO_CFG_lock_s => 6
  | .TS_SERVO_CFG_qual_s => 6
  | .TS_SERVO_CFG_wtr_s => 8
  | .TS_SERVO_LIM_step_us => 12
  | .TS_SERVO_LIM_slew_ppm => 8
  | .TS_SERVO_LIM_outlier_ns => 12
  | .TS_OSC_CFG_mode => 1
  | .TS_OSC_CFG_osc_20m => 1
  | .TS_OSC_CFG_learn_h => 6
  | .TS_OSC_CFG_dac_span_ppb => 12
  | .TS_OSC_CFG_dac_invert => 1
  | .TS_HOLD_MODEL0_y0_ppt => 16
  | .TS_HOLD_MODEL0_temp_ppt => 16
  | .TS_HOLD_MODEL1_age_resid_ppt => 10
  | .TS_HOLD_MODEL1_age_max_ppt => 10
  | .TS_HOLD_MODEL1_freerun_ppb => 12
  | .TS_HOLDOVER_MAX_holdover_max => 16
  | .TS_LEARN_age_rate => 24
  | .TS_LEARN_hours => 7
  | .TS_LEARN_learn_valid => 1
  | .TS_CHAIN_DIGEST => 32
  | .TS_AMBER_LOG_BASE => 32
  | .TS_RING_BASE => 64
  | .TS_RING_CFG_enable => 1
  | .TS_RING_CFG_endpoint => 1
  | .TS_RING_CFG_log2_slots => 4
  | .TS_RING_PROD => 12
  | .TS_RING_CONS => 12
  | .TS_RING_STAT_ring_drops => 16
  | .TS_AMBER_SEQ => 32
  | .TS_AMBER_FETCH => 32
  | .TSU_PORT_CAL_rx_board => 16
  | .TSU_PORT_CAL_tx_board => 16
  | .TSU_PORT_STATUS_cal_done => 1
  | .TSU_PORT_STATUS_mode => 2
  | .TSU_PORT_STATUS_skew_max => 16
  | .TSU_PEER_DELAY => 32
  | .TSU_PORT_ERR_onestep_fail => 16
  | .TSU_PORT_ERR_far_dropped => 16
  | .TSU_LATE_CNT_late_sent => 16
  | .TSU_LATE_CNT_late_dropped => 16
  | .TSU_LAUNCH_PROF_late_policy => 1
  | .TSU_LAUNCH_PROF_late_bound => 12
  | .TSU_LAUNCH_PROF_horizon => 4
  | .TSU_PTM_CFG_enable => 1
  | .TSU_PTM_CFG_interval => 3
  | .TSU_PTM_CFG_to_ring => 1
  | .TSU_PTM_CFG_platform_unc => 16
  | .TSU_PTM_STATUS_ptm_valid => 1
  | .TSU_PTM_STATUS_ptm_enabled => 1
  | .TSU_PTM_STATUS_fail_count => 16
  | .TSU_PTM_DELAY => 32
  | .TS_PPS_CFG_enable => 1
  | .TS_PPS_CFG_squelch_en => 1
  | .TS_PPS_CFG_width => 2
  | .TS_PPS_CFG_squelch_unc => 16
  | .TS_PPS_DELAY_delay => 16
  | .TS_PPS_DELAY_squelched => 16
  | .STR_CMD_op => 4
  | .STR_CMD_slot => 1
  | .STR_CMD_region_mask => 8
  | .STR_CMD_STATUS_busy => 1
  | .STR_CMD_STATUS_last_op => 4
  | .STR_CMD_STATUS_result => 8
  | .STR_CMD_STATUS_detail => 16
  | .STR_SWAP_AT => 64
  | .STR_STATUS_changed_mask => 8
  | .STR_STATUS_swapped_mask => 8
  | .STR_STATUS_draining_mask => 8
  | .STR_STATUS_wdog_running => 1
  | .STR_STATUS_staged_valid => 1
  | .STR_REGION_STATE_state => 3
  | .STR_REGION_STATE_epoch => 1
  | .STR_REGION_STATE_inflight => 16
  | .STR_WDOG_period => 16
  | .STR_WDOG_remaining => 16
  | .STR_DRAIN_LIMIT_limit_us => 16
  | .STR_MIN_VERSION_min_version => 32
  | .STR_SLOT_version => 32
  | .STR_SLOT_partition => 2
  | .STR_SLOT_empty => 1
  | .STR_SLOT_digest_head => 32
  | .STR_EVENTS_wdog_rollback => 1
  | .STR_EVENTS_stage_fail => 1
  | .STR_EVENTS_drain_expired => 1
  | .STR_EVENTS_cold_fallback => 1
  | .STR_DROP_CNT_epoch_expired => 16
  | .STR_DROP_CNT_stale_learns => 8
  | .STR_DROP_CNT_reload_drops => 8
  | .CLS_PORT_DEF_nomatch_act => 2
  | .CLS_PORT_DEF_parsefail_act => 2
  | .CLS_PORT_DEF_secondary => 1
  | .CLS_PORT_DEF_frag_mode => 1
  | .CLS_PORT_DEF_punt_q => 16
  | .CLS_PORT_DEST_index => 16
  | .CLS_PORT_DEST_kind => 1
  | .CLS_PORT_DEST_tclass => 3
  | .CLS_PUNT_RATE_rate => 20
  | .CLS_PUNT_RATE_burst => 12
  | .CLS_FRAG_CFG_lifetime_us => 16
  | .CLS_FRAG_CFG_hold_us => 16
  | .CLS_DEF_CNT_nomatch => 16
  | .CLS_DEF_CNT_parsefail => 16
  | .CLS_PUNT_CNT_punted => 16
  | .CLS_PUNT_CNT_excess => 16
  | .CLS_FRAG_STAT_entries => 17
  | .CLS_FRAG_STAT_held_kib => 15
  | .CLS_FRAG_CNT0_hold_expired => 16
  | .CLS_FRAG_CNT0_hold_full => 16
  | .CLS_FRAG_CNT1_table_full => 8
  | .CLS_FRAG_CNT1_dup_first => 8
  | .CLS_FRAG_CNT1_epoch_mismatch => 8
  | .CLS_FRAG_CNT1_tree_absent => 8
  | .CLS_POLICER_cir => 24
  | .CLS_POLICER_enable => 1
  | .CLS_POLICER_colour_aware => 1
  | .CLS_POLICER_pir => 24
  | .CLS_POLICER_cbs => 24
  | .CLS_POLICER_pbs => 24
  | .PAR_FAIL_CNT_count => 32
  | .CLS_STEER_CNT_no_region => 16
  | .CLS_STEER_CNT_key_miss => 16
  | .EXM_CH_op => 4
  | .EXM_CH_include_static => 1
  | .EXM_CH_clear_moves => 1
  | .EXM_CH_table => 10
  | .EXM_CH_busy => 1
  | .EXM_CH_result => 8
  | .EXM_CH_cursor => 32
  | .EXM_CH_hdr => 32
  | .EXM_CH_key => 32
  | .EXM_CH_value => 32
  | .EXM_TABLE_STAT_entries => 29
  | .EXM_TABLE_STAT_rehash_req => 1
  | .EXM_TABLE_STAT_shadow => 2
  | .EXM_TABLE_STAT_shard_down => 8
  | .EXM_TABLE_STAT_seed0 => 32
  | .EXM_TABLE_STAT_seed1 => 32
  | .EXM_TABLE_STAT_seed_shard => 32
  | .EXM_TABLE_STAT_learns => 16
  | .EXM_TABLE_STAT_learn_fail => 16
  | .EXM_TABLE_STAT_moves => 16
  | .EXM_TABLE_STAT_move_cands => 16
  | .EXM_TABLE_STAT_static_conflict => 16
  | .EXM_TABLE_STAT_flaps => 16
  | .EXM_EVT_CFG_queue => 16
  | .EXM_EVT_CFG_enable => 1
  | .EXM_EVT_STAT_evt_drops => 16
  | .EXM_REGION_CNT_refreshes => 16
  | .EXM_REGION_CNT_tracker_full => 8
  | .EXM_REGION_CNT_shard_down_miss => 8
  | .TCM_CH_op => 4
  | .TCM_CH_table => 10
  | .TCM_CH_busy => 1
  | .TCM_CH_result => 8
  | .TCM_CH_multi => 1
  | .TCM_CH_quarantined => 1
  | .TCM_CH_copy_bad => 1
  | .TCM_CH_unit => 14
  | .TCM_CH_dst => 14
  | .TCM_CH_priority => 16
  | .TCM_CH_width => 2
  | .TCM_CH_cur_priority => 16
  | .TCM_CH_cur_unit => 14
  | .TCM_CH_entry_result => 64
  | .TCM_CH_key => 32
  | .TCM_CH_mask => 32
  | .TCM_REGION_STAT_bank_width => 8
  | .TCM_REGION_STAT_quarantines => 8
  | .TCM_REGION_STAT_verify_fail => 8
  | .TCM_REGION_STAT_stuck => 8
  | .TCM_QUAR_LOG_unit => 14
  | .TCM_QUAR_LOG_table => 10
  | .TCM_QUAR_LOG_stuck => 1
  | .TCM_QUAR_LOG_logged => 1
  | .PAT_CH_op => 3
  | .PAT_CH_set => 6
  | .PAT_CH_region_mask => 8
  | .PAT_CH_busy => 1
  | .PAT_CH_result => 8
  | .PAT_CH_count => 13
  | .PAT_CH_more => 1
  | .PAT_CH_src => 48
  | .PAT_CH_length => 23
  | .PAT_CH_dst => 48
  | .PAT_CH_max_reports => 13
  | .PAT_REGION_CFG_bypass => 1
  | .PAT_REGION_CFG_scan_q => 16
  | .PAT_REGION_STAT_engine_ok => 2
  | .PAT_REGION_STAT_bypass_active => 1
  | .PAT_REGION_STAT_set_absent => 8
  | .PAT_REGION_STAT_nfa_overflow => 8
  | .ETH_MODE_mode => 2
  | .ETH_MODE_mode_rejected => 1
  | .ETH_MODE_hr_overcommit => 1
  | .ETH_PORT_CFG_enable => 1
  | .ETH_PORT_CFG_an_en => 1
  | .ETH_PORT_CFG_fc_mode => 2
  | .ETH_PORT_CFG_lossless => 8
  | .ETH_PORT_CFG_macsec_en => 1
  | .ETH_PORT_CFG_reset_thr => 1
  | .ETH_PORT_CFG_max_frame => 14
  | .ETH_PORT_STATUS_state => 2
  | .ETH_PORT_STATUS_link_changed => 1
  | .ETH_PORT_STATUS_remote_fault => 1
  | .ETH_PORT_STATUS_threshold => 7
  | .ETH_PORT_STATUS_train_fail => 16
  | .ETH_PFC_CLASS_xoff_thr => 12
  | .ETH_PFC_CLASS_headroom => 12
  | .ETH_PFC_CLASS_xon_gap => 8
  | .ETH_MSEC_CFG_suite => 2
  | .ETH_MSEC_CFG_conf_off => 2
  | .ETH_MSEC_CFG_validate => 2
  | .ETH_MSEC_CFG_send_sci => 1
  | .ETH_MSEC_CFG_tx_an => 2
  | .ETH_MSEC_CFG_pn_warn_hit => 1
  | .ETH_MSEC_CFG_replay_win => 22
  | .ETH_MSEC_RXSC_sci => 64
  | .ETH_MSEC_RXSC_enable => 1
  | .ETH_MSEC_SA_key_slot => 24
  | .ETH_MSEC_SA_valid => 1
  | .ETH_MSEC_SA_pn => 64
  | .ETH_MSEC_SA_pn_warn => 64
  | .ETH_MSEC_SA_ssci => 32
  | .ETH_MSEC_SA_replay_win_hi => 8
  | .ETH_STAT_count => 48
  | .ETH_STAT_HALF => 64
  | .ETH_WAKE_CFG_wake_en => 1
  | .ETH_WAKE_CFG_magic_en => 1
  | .ETH_WAKE_CFG_pat_en => 8
  | .ETH_WAKE_CFG_an_en => 1
  | .ETH_WAKE_CFG_fec_en => 1
  | .ETH_WAKE_MAC => 48
  | .ETH_WAKE_STATUS_woke => 1
  | .ETH_WAKE_STATUS_by_magic => 1
  | .ETH_WAKE_STATUS_pattern => 3
  | .ETH_WAKE_PAT_word => 32
  | .ETH_WAKE_PAT_mask => 32
  | .ETH_NCSI_CFG_enable => 1
  | .ETH_NCSI_CFG_package_id => 3
  | .ETH_NCSI_STAT_ncsi_drops => 16
  | .SCH_PORT_CFG_down_hold_ms => 16
  | .SCH_PORT_DROP_link_drops => 16
  | .SCH_PORT_DROP_queue_errs => 8
  | .SCH_PORT_DROP_reload_drops => 8
  | .SCH_SAMPLE_CFG_enable => 1
  | .SCH_SAMPLE_CFG_endpoint => 1
  | .SCH_SAMPLE_CFG_log2_slots => 5
  | .SCH_SAMPLE_CFG_period_us => 16
  | .SCH_SAMPLE_RING_BASE => 64
  | .SCH_SAMPLE_PROD => 16
  | .SCH_SAMPLE_CONS => 16
  | .SCH_SAMPLE_STAT_sample_drops => 16
  | .SCH_SAMPLE_Q_queue => 14
  | .SCH_SAMPLE_Q_enable => 1
  | .SCH_NODE_quantum => 19
  | .SCH_NODE_cir_en => 1
  | .SCH_NODE_pir_en => 1
  | .SCH_NODE_reset_mode => 1
  | .SCH_NODE_cir => 24
  | .SCH_NODE_pir => 24
  | .SCH_NODE_cbs => 24
  | .SCH_NODE_pbs => 24
  | .SCH_NODE_backlogged => 1
  | .SCH_NODE_shaped => 1
  | .SCH_NODE_committed => 1
  | .SCH_NODE_held => 1
  | .SCH_NODE_max_depth => 16
  | .SCH_NODE_deficit => 32
  | .SCH_QSTAT_depth_bytes => 27
  | .SCH_QSTAT_drops => 16
  | .SCH_QSTAT_depth_frames => 16
  | .SCH_RECON_CFG_enable => 1
  | .SCH_RECON_CFG_debt_cap => 24
  | .SCH_RECON_STAT_max_debt => 16
  | .SCH_RECON_STAT_cap_hits => 16
  | .SCH_TENANT_WEIGHT_weight => 16
  | .SCH_REGION_QUANTUM_quantum => 25
  | .SIL_CFG_udp_port => 16
  | .SIL_CFG_roce_en => 1
  | .SIL_ACK_CFG_ack_every => 4
  | .SIL_ACK_CFG_ack_delay => 8
  | .SIL_ACK_CFG_max_retx => 5
  | .SIL_ACK_CFG_rnr_retries => 3
  | .SIL_PATH_CFG_min_rto => 8
  | .SIL_PATH_CFG_max_rto => 16
  | .SIL_PATH_CFG_retire_count => 4
  | .SIL_PATH_CFG1_probe_ms => 16
  | .SIL_PATH_CFG1_base_window_ms => 16
  | .SIL_CC_CFG0_target_ns => 16
  | .SIL_CC_CFG0_owd_unc_max => 16
  | .SIL_CC_CFG1_ai_mbps => 16
  | .SIL_CC_CFG1_beta => 8
  | .SIL_CC_CFG2_init_rate => 20
  | .SIL_CC_CFG3_min_rate => 20
  | .SIL_REDIRECT_region => 3
  | .SIL_CH_op => 4
  | .SIL_CH_index => 22
  | .SIL_CH_busy => 1
  | .SIL_CH_result => 8
  | .SIL_CH_state => 2
  | .SIL_CH_active_paths => 8
  | .SIL_CH_conn_id => 32
  | .SIL_CH_record => 32
  | .SIL_RX_CNT0_dup_pkts => 16
  | .SIL_RX_CNT0_oow_drops => 16
  | .SIL_RX_CNT1_tag_fail => 16
  | .SIL_RX_CNT1_conn_unknown => 8
  | .SIL_RX_CNT1_bad_header => 8
  | .SIL_TX_CNT_retx_pkts => 16
  | .SIL_TX_CNT_path_retire => 8
  | .SIL_TX_CNT_fallback_rtt => 8
  | .SIL_CACHE_CNT_cache_miss => 32
  | .MKY_CFG_retry_us => 16
  | .MKY_CFG_pri_timeout_ms => 16
  | .MKY_CH_op => 4
  | .MKY_CH_index => 20
  | .MKY_CH_variant => 8
  | .MKY_CH_busy => 1
  | .MKY_CH_result => 8
  | .MKY_CH_revoke_at => 64
  | .MKY_CH_record => 32
  | .MKY_REGION_CNT0_access_err => 16
  | .MKY_REGION_CNT0_revoked => 16
  | .MKY_REGION_CNT1_retry_after => 16
  | .MKY_REGION_CNT1_out_stalls => 8
  | .MKY_REGION_CNT1_key_miss => 8
  | .MKY_PRI_STAT_outstanding => 16
  | .MKY_PRI_STAT_pri_fail => 16
  | .NVE_CFG_reset_limit_ms => 16
  | .NVE_CFG_io_timeout_100ms => 12
  | .NVE_CFG_retries => 3
  | .NVE_CH_op => 4
  | .NVE_CH_index => 14
  | .NVE_CH_busy => 1
  | .NVE_CH_result => 8
  | .NVE_CH_ctrl => 10
  | .NVE_CH_nsid => 9
  | .NVE_CH_record => 32
  | .NVE_CTRL_CFG_enable => 1
  | .NVE_CTRL_CFG_overlap_order => 1
  | .NVE_CTRL_CFG_max_ioq => 7
  | .NVE_CTRL_STAT_state => 2
  | .NVE_CTRL_STAT_activating => 1
  | .NVE_CTRL_STAT_outstanding => 16
  | .NVE_BE_STAT_connected => 7
  | .NVE_BE_STAT_reconnects => 16
  | .NVE_BE_STAT_timeouts => 16
  | .NVE_BE_STAT_resends => 16
  | .NVE_REGION_CNT0_order_waits => 16
  | .NVE_REGION_CNT0_aborts_caught => 16
  | .NVE_REGION_CNT1_late_resp => 16
  | .NVE_REGION_CNT1_transport_err => 16
  | .KEY_CH_op => 4
  | .KEY_CH_tenant => 8
  | .KEY_CH_busy => 1
  | .KEY_CH_result => 8
  | .KEY_CH_slot => 24
  | .KEY_CH_src_slot => 24
  | .KEY_CH_attr => 32
  | .KEY_CH_len_a => 7
  | .KEY_CH_len_b => 7
  | .KEY_CH_kdf => 4
  | .KEY_CH_src_addr => 48
  | .KEY_CH_length => 17
  | .KEY_CH_data => 32
  | .KEY_STAT_slots_corrupt => 16
  | .KEY_STAT_load_refused => 16
  | .CIP_REGION_CNT0_cipher_fail => 16
  | .CIP_REGION_CNT0_fault_mismatch => 16
  | .CIP_REGION_CNT1_key_miss => 32
  | .COR_CORE_run => 1
  | .COR_CORE_halt_req => 1
  | .COR_CORE_state => 2
  | .COR_CORE_hartid => 6
  | .COR_CORE_entry => 64
  | .COR_CORE_arg => 64
  | .COR_CORE_inj_base => 64
  | .COR_CORE_inj_enable => 1
  | .COR_CORE_inj_log2 => 4
  | .COR_CORE_inj_prod => 16
  | .COR_CORE_inj_cons => 16
  | .COR_CORE_bad_desc => 16
  | .COR_Q_base => 64
  | .COR_Q_enable => 1
  | .COR_Q_mode => 1
  | .COR_Q_log2_entries => 4
  | .COR_Q_core => 3
  | .COR_Q_file => 3
  | .COR_Q_identity => 8
  | .COR_Q_prod => 16
  | .COR_Q_cons => 16
  | .COR_Q_arm => 1
  | .COR_Q_drops => 16
  | .COR_Q_cons_err => 1
  | .COR_Q_armed => 1
  | .COR_PKT_ALLOC_handle => 15
  | .COR_PKT_ALLOC_valid => 1
  | .COR_IPI_hartid => 6
  | .COR_IPI_file => 3
  | .COR_IPI_identity => 8
  | .PCI_EP_CFG_cfg_ready => 1
  | .PCI_EP_CFG_pf3_present => 1
  | .PCI_EP_CFG_link_up => 1
  | .PCI_EP_CFG_speed => 3
  | .PCI_EP_CFG_width => 5
  | .PCI_EP_CFG_flit => 1
  | .PCI_EP_CFG_pf3_mismatch => 1
  | .PCI_ID_CFG_ssvid => 16
  | .PCI_ID_CFG_ssid => 16
  | .PCI_APERTURE => 48
  | .PCI_TAG_CFG_quarantine_ms => 16
  | .PCI_TAG_CFG_quarantined => 16
  | .PCI_CPL_STAT0_timeouts => 16
  | .PCI_CPL_STAT0_late_cpls => 16
  | .PCI_CPL_STAT1_flushed_cpls => 16
  | .PCI_CPL_STAT1_err_cpls => 16
  | .PCI_LINK_STAT_dl_down => 16
  | .PCI_LINK_STAT_host_down_drops => 16
  | .PCI_FN_STAT_present => 1
  | .PCI_FN_STAT_bme => 1
  | .PCI_FN_STAT_bme_abort => 1
  | .PCI_FN_STAT_flr_active => 1
  | .PCI_FN_STAT_dstate => 2
  | .RNG_CFG_stall_ms => 16
  | .RNG_CFG_map_err => 1
  | .RNG_STAT_bad_desc => 16
  | .RNG_STAT_cpl_lost => 16
  | .RNG_FN_MAP_ring_base => 15
  | .RNG_FN_MAP_ring_count => 16
  | .RNG_NVME_WRR_weight => 8
  | .RNG_RING_base => 64
  | .RNG_RING_kind => 3
  | .RNG_RING_log2_size => 5
  | .RNG_RING_enable => 1
  | .RNG_RING_pasid_en => 1
  | .RNG_RING_pasid => 20
  | .RNG_RING_weight => 8
  | .RNG_RING_burst_m1 => 6
  | .RNG_RING_cq => 15
  | .RNG_RING_mod_time => 16
  | .RNG_RING_head => 17
  | .RNG_RING_state => 3
  | .RNG_RING_armed => 1
  | .RNG_RING_cfg_err => 1
  | .RNG_RING_doorbell_err => 1
  | .RNG_RING_tail => 17
  | .RNG_RING_drops => 15
  | .RNG_RING_cfg10 => 32
  | .RNG_FN_EVT_ring => 15
  | .RNG_FN_EVT_enable => 1
  | .RNG_FN_STAT_evt_drops => 16
  | .TEN_CMD_op => 3
  | .TEN_CMD_tenant => 8
  | .TEN_CMD_STATUS_busy => 1
  | .TEN_CMD_STATUS_result => 8
  | .TEN_REC => 32
  | .TEN_STATE_state => 2
  | .TEN_STATE_forced => 1
  | .TEN_STATE_quota_hits => 16
  | .TEN_FN_OWNER_tenant => 8
  | .TEN_FN_OWNER_own_err => 1
  | .TEN_DROP_CNT_fatal_drops => 32
  | .NRL_CFG_enforce => 1
  | .NRL_CFG_profile => 2
  | .NRL_CFG_over_budget => 1
  | .NRL_CFG_meas_stale => 1
  | .NRL_CFG_cal_alert => 1
  | .NRL_BUDGET_budget_mw => 20
  | .NRL_MIN_GRANT_min_grant_uj => 16
  | .NRL_IOD_COST_iod_frame_nj => 16
  | .NRL_IOD_COST_iod_byte_pj => 16
  | .NRL_PMBUS_CFG_n_rails => 4
  | .NRL_PMBUS_ADDR_addr => 7
  | .NRL_PMBUS_ADDR_page => 8
  | .NRL_PMBUS_ADDR_pmbus_err => 16
  | .NRL_MEAS_meas_mw => 20
  | .NRL_EST_est_mw => 20
  | .NRL_K_k => 16
  | .NRL_TOTAL => 64
  | .NRL_OVERHEAD => 64
  | .NRL_REGION_CFG_ovr_en => 1
  | .NRL_REGION_CFG_ovr_profile => 2
  | .NRL_REGION_CFG_vmin_mv => 10
  | .NRL_REGION_CFG_vmax_mv => 10
  | .NRL_TENANT_CFG_weight => 16
  | .NRL_TENANT_CFG_cap_mw => 20
  | .NRL_TENANT_CFG_used => 64
  | .NRL_REGION_STAT_v_target_mv => 10
  | .NRL_REGION_STAT_v_floor_mv => 10
  | .NRL_REGION_STAT_profile => 2
  | .NRL_EPE_e_fpj => 16
  | .NRL_LEAK_leak_rop_mw => 16
  | .NRL_CREDIT_balance => 32
  | .AGE_CFG_margin_thr_mv => 10
  | .AGE_CFG_forced => 16
  | .AGE_REGION_index => 10
  | .AGE_REGION_margin_mv => 10
  | .AGE_REGION_v_rop_mv => 10
  | .AGE_REGION_alert => 1
  | .BOOT_STATUS_stage => 2
  | .BOOT_STATUS_recovery => 1
  | .BOOT_STATUS_keylock => 1
  | .BOOT_STATUS_device_ready => 1
  | .BOOT_STATUS_s1_slot => 1
  | .BOOT_STATUS_s2_slot => 1
  | .BOOT_STATUS_struct_none => 1
  | .BOOT_STATUS_log_base_default => 1
  | .BOOT_EVENTS_s1_ambiguous => 1
  | .BOOT_EVENTS_s2_ambiguous => 1
  | .BOOT_EVENTS_s2_wdog => 1
  | .BOOT_EVENTS_struct_fallback => 1
  | .BOOT_EVENTS_arb_rejected => 1
  | .BOOT_CTRL_fw_alive => 1
  | .BOOT_IMAGE_security_version => 7
  | .BOOT_IMAGE_result => 3
  | .BOOT_IMAGE_key_slot => 2
  | .BOOT_IMAGE_detail => 16
  | .BOOT_IMAGE_build => 32
  | .BOOT_ARB_counter => 7
  | .BOOT_ARB_busy => 1
  | .BOOT_ARB_target => 7
  | .BOOT_KEY_state => 2
  | .BOOT_FLASH_STAT_log_lost => 16
  | .BOOT_FLASH_STAT_flash_err => 16
  | .BOOT_COUNT => 32
  | .BOOT_RCV_CTRL_op => 3
  | .BOOT_RCV_CTRL_kind => 2
  | .BOOT_RCV_STATUS_busy => 1
  | .BOOT_RCV_STATUS_open => 1
  | .BOOT_RCV_STATUS_target => 1
  | .BOOT_RCV_STATUS_result => 8
  | .BOOT_RCV_OFFSET => 32
  | .BOOT_RCV_LEN => 22
  | .ONX_STATUS_wait => 1
  | .ONX_STATUS_jumper => 1
  | .ONX_STATUS_button => 1
  | .ONX_STATUS_seal_broken => 1
  | .ONX_STATUS_debug_unlocked => 1
  | .ONX_STATUS_last_cmd => 8
  | .ONX_STATUS_result => 8
  | .ONX_STATUS_window_s => 7
  | .ONX_NONCE => 32
  | .ONX_SERIAL => 64
  | .ONX_OWNER_used => 4
  | .ONX_CTRL_submit => 1
  | .ONX_CTRL_cancel => 1
  | .ONX_MBOX => 32
  | .ERR_STATUS_corrected => 1
  | .ERR_STATUS_contained => 1
  | .ERR_STATUS_tenant_fatal => 1
  | .ERR_STATUS_device_fatal => 1
  | .ERR_CNT => 32
  | .ERR_IRQ_CFG_ep_en => 2
  | .ERR_IRQ_CFG_vector => 8
  | .ERR_IRQ_CFG_corr_aer => 1
  | .ERR_IRQ_CFG_core_en => 1
  | .ERR_IRQ_CFG_identity => 8
  | .ERR_IRQ_CFG_min_class => 2
  | .ERR_TENANT_CFG_tenant_limit => 16
  | .ERR_LOG_HEAD_head => 16
  | .ERR_LOG_dt64 => 64
  | .ERR_LOG_source => 8
  | .ERR_LOG_class => 2
  | .ERR_LOG_level => 2
  | .ERR_LOG_die => 4
  | .ERR_LOG_region => 4
  | .ERR_LOG_tenant => 8
  | .ERR_LOG_count => 16
  | .ERR_LOG_requester => 16
  | .ERR_LOG_addr => 48
  | .ERR_LOG_detail => 32
  | .ERR_REGION_CMD_op => 2
  | .ERR_REGION_CMD_region => 3
  | .ERR_REGION_CMD_force => 1
  | .ERR_REGION_CMD_busy => 1
  | .ERR_REGION_CMD_result => 8
  | .ERR_REGION_CMD_drain_limit_us => 16
  | .ERR_REGION_STATE_state => 3
  | .ERR_REGION_STATE_bist_pass => 1
  | .ERR_REGION_STATE_spares_used => 5
  | .ERR_REGION_STATE_failed_blocks => 16
  | .ERR_TEST_CFG_kat_ms => 8
  | .ERR_TEST_CFG_tcam_period_s => 8
  | .ERR_TEST_CFG_sram_scrub_s => 8
  | .ERR_TEST_CFG_hbm_scrub_h => 8
  | .ERR_HBM_CMD_pc => 5
  | .ERR_HBM_CMD_stack => 1
  | .ERR_HBM_CMD_auto_retire => 1
  | .ERR_HBM_CMD_busy => 1
  | .ERR_HBM_CMD_retire_thr => 8
  | .ERR_HBM_PC_state => 2
  | .ERR_HBM_PC_partner => 5
  | .ERR_HBM_PC_corr_cnt => 16
  | .TMX_CFG_div => 8
  | .TMX_SEL_point => 12
  | .TMX_SEL_enable => 1
  | .TMX_SEL_strobe_out => 1
  | .PKG_THERM_tj_qc => 10
  | .PKG_THERM_peak_qc => 10
  | .PKG_THERM_warn => 1
  | .PKG_THERM_trip => 1
  | .PKG_PWR_EVENTS_pwr_fail => 1
  | .PKG_PWR_EVENTS_pwr_fail_done => 1
  | .PKG_PWR_EVENTS_rail_drop => 1
  | .PKG_PWR_EVENTS_thermtrip => 1
  | .PKG_PWR_EVENTS_rail => 4
  | .PATH_snap => 32
  | .PATH_pend => 32
  | .PATH_pend_v => 1
  | .PATH_unc => 16
  | .PATH_rid => 16
  | .CELL_retry => 3
  | .CELL_quar => 1
  | .CELL_spare_used => 1
  | .CELL_spare_for => 5
  | .ISLAND_mv => 10
  | .REP_dt64 => 64
  | .REP_apart => 1
  | .CORE_time => 64
  | .XD_mark => 64
  | .CORE_cycle => 64
  | .CORE_instret => 64
  | .TS_B => 64
  | .MSIX_mask => 1
  | .MSIX_pend => 1
  | .FN_msix_en => 1
  | .FN_msix_fmask => 1
  | .IMSIC_pend => 256
  | .ETH_tx_remote_fault => 1
  | .U_meas => 64
  | .U_servo => 64
  | .U_asym => 64
  | .U_asym_unset => 1
  | .U_slew => 64
  | .U_hold => 64
  | .U_base => 64
  | .TIME_hold_mode => 2
  | .TIME_hold_from => 64
  | .TIME_sw_set => 1
  | .TIME_offset => 64
  | .TIME_pred => 64
  | .TIME_freq => 64
  | .TIME_f0 => 64
  | .TIME_dac => 20
  | .TIME_bw => 3
  | .TIME_lock_since => 64
  | .TIME_lock_run => 1
  | .TIME_locked_since => 64
  | .TIME_far3 => 2
  | .TIME_after_hold => 1
  | .TIME_slew_off => 64
  | .TIME_slew_at => 64
  | .TIME_step_at => 64
  | .TIME_stepped => 1
  | .REF_since => 64
  | .REF_run => 1
  | .REF_qual_at => 64
  | .REF_miss => 2
  | .REF_out => 2
  | .REF_hist => 1
  | .REF_last => 64
  | .REF_gm => 64
  | .REF_steps => 16
  | .REF_utc => 19
  | .AMBER_nonper => 5
  | .AMBER_coal => 1
  | .AMBER_next => 32
  | .AMBER_slot => 17
  | .AMBER_stop => 1
  | .TSU_cal_busy => 1
  | .TSU_tdc => 1
  | .PTM_fails => 2
  | .PTM_count => 32
  | .PTM_t1 => 64
  | .PTM_busy => 1
  | .PTM_pairs => 32
  | .PTM_rate => 32
  | .PTM_rate_unc => 16
  | .PTM_unc => 16
  | .PTM_hist_dt => 64
  | .PTM_hist_ptm => 64
  | .PAGE_gen => 32
  | .PAGE_state => 8
  | .PAGE_flags => 8
  | .PAGE_dt64 => 64
  | .PAGE_unc => 16
  | .PAGE_rate_unc => 16
  | .PAGE_rate => 32
  | .PAGE_ptm => 64
  | .PAGE_ptm_unc => 16
  | .PAGE_ptm_count => 32
  | .PAGE_amber => 64
  | .PAGE_utc => 32
  | .PPS_high => 1
  | .PPS_end => 64
  | .PPS_label => 64
  | .CORE_cmp => 64
  | .CORE_cmp_set => 1
  | .CORE_tip => 1
  | .PTM_busy_at => 64
  | .TSU_cal_at => 64
  | .PKT_next => 32
  | .PKT_live => 1
  | .PKT_phv => 4096
  | .PKT_meta => 1024
  | .PKT_region => 4
  | .PKT_in_region => 1
  | .PKT_drop => 32
  | .PKT_disp => 3
  | .PKT_stage => 3
  | .PKT_launch => 64
  | .PKT_prof => 4
  | .PKT_gate => 2
  | .PKT_tsflags => 16
  | .PKT_dt64 => 64
  | .PKT_unc => 16
  | .PKT_dev_port => 4
  | .PKT_queue => 14
  | .PKT_work => 33
  | .PKT_rxlen => 16
  | .PKT_held_at => 64
  | .REG_pop => 32
  | .DROP_pkts => 32
  | .HOST_down_sub => 8
  | .TAG_state => 2
  | .TAG_fn => 11
  | .TAG_kind => 4
  | .TAG_a => 64
  | .TAG_b => 64
  | .TAG_len => 32
  | .TAG_at => 64
  | .TAG_free_at => 64
  | .TAG_flush => 1
  | .WRK_dest => 18
  | .WRK_prof => 4
  | .WRK_launch => 64
  | .WRK_ts_op => 3
  | .WRK_ptp_off => 16
  | .RNG_fetch => 17
  | .RNG_resv => 32
  | .RNG_irq_cnt => 32
  | .RNG_irq_at => 64
  | .RNG_stall_at => 64
  | .RNG_target => 4
  | .WRK_next => 32
  | .WRK_ring => 15
  | .WRK_ep => 1
  | .WRK_done => 1
  | .WRK_status => 8
  | .WRK_bytes => 32
  | .WRK_cookie => 64
  | .WRK_ts => 96
  | .WRK_now_ts => 1
  | .WRK_tenant => 8
  | .WRK_msg => 32
  | .WRK_imm => 32
  | .WRK_flags => 8
  | .WRK_late_msg => 32
  | .WRK_late_st => 8
  | .WRK_nbufs => 4
  | .WRK_detail => 16
  | .WRK_hash => 32
  | .WRK_class => 64
  | .WRK_addr => 64
  | .WRK_len => 32
  | .WRK_lkey => 32
  | .WRK_op => 8
  | .WRK_rkey => 32
  | .WRK_raddr => 64
  | .WRK_operand => 64
  | .WRK_compare => 64
  | .WRK_pkt => 33
  | .WRK_want => 32
  | .WRK_resv => 1
  | .FN_cpl_timeout => 4
  | .TIME_steps => 64
  | .AMBER_label => 64
  | .AMBER_due => 64
  | .TIME_pred_on => 1
  | .TIME_pred_from => 64
  | .TIME_dac_at => 64
  | .TIME_lost_at => 64
  | .TIME_fault_at => 64
  | .TIME_integ => 64
  | .XSPI_back => 64
  | .REP_from => 64
  | .ETH_stop => 1
  | .ETH_stop_until => 64
  | .ETH_xoff => 1
  | .ETH_xoff_at => 64
  | .ETH_fc_wait => 17
  | .ETH_down_at => 64
  | .ETH_discard => 1
  | .ETH_clk_down => 1
  | .ETH_sc_drop => 1
  | .ETH_sa_key => 1
  | .ETH_kat_fail => 1
  | .TOPO_ntn => 11
  | .TOPO_nq => 15
  | .TOPO_tn_port => 8
  | .TOPO_tn_tenant => 8
  | .TOPO_q_class => 16
  | .NODE_cir_en => 1
  | .NODE_pir_en => 1
  | .NODE_cir => 24
  | .NODE_pir => 24
  | .NODE_cbs => 24
  | .NODE_pbs => 24
  | .NODE_ct => 64
  | .NODE_pt => 64
  | .NODE_at => 64
  | .NODE_fresh => 1
  | .NODE_ptr => 15
  | .NODE_gate => 33
  | .QSAMP_drops => 32
  | .QSAMP_gap => 1
  | .PKT_L => 16
  | .PKT_enq_at => 64
  | .PKT_iod => 1
  | .DEBT => 64
  | .SERVED => 64
  | .PKT_buf => 1
  | .PKT_wire => 16
  | .ARB_def => 32
  | .ARB_ptr => 8
  | .ARB_from => 64
  | .NRL_held_at => 64
  | .PLC_mask => 8
  | .PLC_pf3 => 8
  | .QUOTA_set => 1
  | .QUOTA_max => 32
  | .NRL_wide => 2
  | .NRL_settle => 64
  | .NRL_frac => 80
  | .NRL_chg => 32
  | .NRL_chg_last => 32
  | .NRL_adm => 32
  | .NRL_rxf => 32
  | .NRL_rx_uj => 32
  | .NRL_rx_last => 32
  | .STR_common_ctx => 1
  | .SRV_effective => 1
  | .SRV_accept_at => 64
  | .SRV_fault => 1
  | .SPAN_units => 16
  | .SPAN_fw => 1
  | .PKT_span => 16
  | .PKT_pl => 1
  | .PKT_nstage => 6
  | .PKT_puntq => 16
  | .PKT_puntr => 9
  | .PKT_hostring => 17
  | .CORE_pc => 64
  | .CORE_a0 => 64
  | .CORE_a1 => 64
  | .CORE_mode => 2
  | .CORE_iaf => 1
  | .CORE_halting => 1
  | .SCAN_stage => 6
  | .SPAN_saved => 1
  | .SPAN_cls => 48
  | .SPAN_clsf => 32
  | .SPAN_fragkey => 65
  | .SPAN_follow => 24
  | .SPAN_outer => 1
  | .SPAN_rxlen => 16
  | .SPAN_wire => 16
  | .CORE_fault => 3
  | .MK_revoke_at => 64
  | .MK_ch => 3
  | .KEYC_valid => 1
  | .KEYC_fill => 1
  | .KEYC_miss => 10
  | .ATC_st => 3
  | .ATC_addr => 64
  | .ATC_perm => 2
  | .PRI_out => 1
  | .PRI_wait => 1
  | .PRI_at => 64
  | .ATS_inv => 32
  | .MKY_pf => 1
  | .MKY_pf_key => 20
  | .PRI_stop => 1
  | .FN_ats_en => 1
  | .FN_pri_en => 1
  | .FN_pasid_en => 1
  | .FN_pri_alloc => 32
  | .CN_state => 2
  | .CN_gen => 7
  | .CN_rec => 768
  | .CN_dying => 3
  | .CN_used => 1
  | .CN_psn => 32
  | .CN_una => 32
  | .CN_msg => 32
  | .CN_peer => 32
  | .CN_ssn => 32
  | .CN_path => 8
  | .CN_kp => 1
  | .CN_tx_slot => 24
  | .CN_rx_slot => 24
  | .CN_rx_next => 1
  | .CN_cnt => 32
  | .CN_ctl => 32
  | .CN_stop => 1
  | .CN_stall => 1
  | .CN_stall_e => 1
  | .CN_stall_pg => 100
  | .CN_stall_m => 32
  | .CN_stall_r => 1
  | .CN_cnp_at => 64
  | .CN_rlow => 32
  | .CN_rmap => 256
  | .CN_rmsg => 32
  | .CN_ackn => 5
  | .CN_ack_at => 64
  | .CN_ack_path => 8
  | .CN_ack_echo => 32
  | .CN_ack_rx => 64
  | .CN_ack_unc => 16
  | .CN_ack_fl => 2
  | .CN_late_msg => 32
  | .CN_late_st => 8
  | .CN_fail_st => 8
  | .CN_to => 16
  | .PT_retired => 1
  | .PT_rate => 40
  | .PT_pace => 64
  | .PT_srtt => 64
  | .PT_rttvar => 64
  | .PT_sampled => 1
  | .PT_tos => 8
  | .PT_bcur => 33
  | .PT_bprev => 33
  | .PT_rcur => 33
  | .PT_rprev => 33
  | .PT_dec => 64
  | .PT_probe_at => 64
  | .RT_st => 3
  | .RT_psn => 32
  | .RT_path => 8
  | .RT_ts => 64
  | .RT_unc => 16
  | .RT_tx => 8
  | .RT_seq => 64
  | .RT_later => 2
  | .RT_msg => 32
  | .RT_op => 8
  | .RT_left => 1
  | .RT_resp => 1
  | .RT_at => 64
  | .RT_exempt => 1
  | .CN_seq => 64
  | .MS_st => 3
  | .MS_work => 33
  | .MS_op => 8
  | .MS_len => 32
  | .MS_off => 33
  | .MS_ssn => 32
  | .MS_status => 8
  | .MS_failed => 1
  | .MS_posted => 1
  | .MS_rx => 33
  | .MS_rnr => 4
  | .MS_hold => 64
  | .MS_rxd => 1
  | .MS_psn => 32
  | .MS_fetch => 33
  | .RM_seen => 1
  | .RM_op => 8
  | .RM_len => 32
  | .RM_cnt => 33
  | .RM_done => 1
  | .RM_fail => 1
  | .RM_imm => 32
  | .RM_buf => 33
  | .RM_addr => 64
  | .RM_key => 32
  | .RM_opnd => 64
  | .RM_cmp => 64
  | .RM_id => 32
  | .RM_psn => 32
  | .RESP_nak => 8
  | .RX_ssn => 32
  | .RESP_off => 33
  | .RESP_addr => 64
  | .RESP_key => 32
  | .RESP_st => 2
  | .CACHE_in => 1
  | .CACHE_at => 64
  | .CACHE_fill => 1
  | .CACHE_tick => 64
  | .CN_fb => 10
  | .PKT_sil => 33
  | .PKT_sil_psn => 32
  | .PKT_sil_data => 2
  | .WRK_conn => 23
  | .NS_on => 1
  | .NS_rec => 512
  | .BE_on => 1
  | .BE_rec => 1024
  | .BEQ_on => 1
  | .BEQ_was => 1
  | .BEQ_out => 16
  | .BEQ_tag => 16
  | .BEQ_ioccsz => 32
  | .BEQ_maxh2c => 32
  | .BEQ_rto => 64
  | .NSA => 15
  | .NSA_det => 3
  | .NSA_old => 15
  | .NSA_seq => 64
  | .NC_cc => 32
  | .NC_csts => 32
  | .NC_aqa => 32
  | .NC_asq => 64
  | .NC_acq => 64
  | .NC_ints => 32
  | .NC_en_at => 64
  | .NC_reset_at => 64
  | .NC_shn => 2
  | .NC_stop => 1
  | .NC_seq => 64
  | .NC_rr => 7
  | .NC_feat_arb => 32
  | .NC_feat_vwc => 32
  | .NC_feat_coal => 32
  | .NC_feat_vec => 32
  | .NC_feat_aec => 32
  | .NC_nsq => 8
  | .NC_chg => 1
  | .SQ_on => 1
  | .SQ_base => 64
  | .SQ_size => 17
  | .SQ_head => 17
  | .SQ_tail => 17
  | .SQ_cq => 7
  | .SQ_block => 33
  | .CQ_on => 1
  | .CQ_base => 64
  | .CQ_size => 17
  | .CQ_head => 17
  | .CQ_tail => 17
  | .CQ_phase => 1
  | .CQ_iv => 12
  | .CQ_ien => 1
  | .CM_next => 32
  | .CM_ctrl => 10
  | .CM_sq => 7
  | .CM_sqe => 512
  | .CM_st => 3
  | .CM_seq => 64
  | .CM_ns => 15
  | .CM_region => 4
  | .CM_be => 12
  | .CM_q => 6
  | .CM_tag => 16
  | .CM_sent_at => 64
  | .CM_tries => 4
  | .CM_cpl => 32
  | .CM_ordered => 1
  | .CM_flush_st => 16
  | .CM_want => 32
  | .CM_answered => 1
  | .CM_waited => 1
  | .CM_dlen => 32
  | .CM_desc => 32
  | .CM_dir => 2
  | .CM_ptr => 64
  | .CM_resp => 17
  | .CM_hold => 2
  | .CM_parent => 33
  | .CM_shn => 1
  | .CM_avoid => 7
  | .CM_bns => 32
  | .CM_slba => 64
  | .CM_nsid => 32
  | .NC_burst => 8
  | .BEQ_rec => 64
  | .NVE_ow => 8
  | .ACT_on => 1
  | .ACT_at => 64
  | .ACT_cmd => 33
  | .ACT_slot => 3
  | .SRV_limit => 16
  | .ISLAND_at => 64
  | .ISLAND_tgt => 10
  | .STR_mask_req => 8
  | .STR_flip_at => 64
  | .STR_wd => 1
  | .STR_cold => 2
  | .STR_cold_slot => 1
  | .STR_loaded => 1
  | .STR_wdog_at => 64
  | .STR_wdog_wait => 1
  | .STR_drain_from => 64
  | .STR_reload_sub => 16
  | .TBL_inst => 2
  | .PKT_cell_word => 8
  | .PKT_cell_on => 1
  | .PKT_cell_phv => 4096
  | .PKT_cell_meta => 1024
  | .PKT_todo => 8
  | .PKT_phv0 => 4096
  | .PKT_meta0 => 1024
  | .CELL_pred => 16
  | .CELL_res => 48
  | .CLSR_port => 42
  | .CLSR_frag => 32
  | .PKT_cls => 42
  | .PKT_clsf => 32
  | .PUNTB_tok => 64
  | .PUNTB_at => 64
  | .PUNTB_rate => 20
  | .PUNTB_depth => 12
  | .FRE_on => 1
  | .FRE_rule => 16
  | .FRE_hit => 1
  | .FRE_epoch => 1
  | .FRE_at => 64
  | .FRAG_seed => 64
  | .PKT_fragkey => 65
  | .PKT_outer => 1
  | .PKT_follow => 18
  | .POL_cir => 24
  | .POL_pir => 24
  | .POL_cbs => 24
  | .POL_pbs => 24
  | .POL_en => 1
  | .POL_aware => 1
  | .POL_tc => 64
  | .POL_tp => 64
  | .POL_at => 64
  | .EXI_half => 1
  | .EXI_seed0 => 32
  | .EXI_seed1 => 32
  | .EXI_log2 => 5
  | .EXE => 256
  | .DAMP_at => 64
  | .DAMP_blk => 1
  | .EXM_sh_end => 1
  | .DAMP_cand => 6
  | .TCE_inst => 12
  | .TCE_width => 2
  | .TCE_prio => 16
  | .TCE_res => 64
  | .TCE_key => 640
  | .TCE_mask => 640
  | .TCE_quar => 1
  | .TCE_stuck => 1
  | .TCE_bad => 1
  | .TCM_mv_on => 1
  | .TCM_mv_inst => 12
  | .TCM_mv_src => 14
  | .TCM_mv_dst => 14
  | .TCM_mv_at => 64
  | .STR_rewrite => 1
  | .STR_common_new => 1
  | .PKT_rxcls => 3
  | .PKT_rxhr => 1
  | .NCSI_sel => 1
  | .NCSI_hwarb => 1
  | .NCSI_init => 1
  | .NCSI_en => 1
  | .NCSI_tx => 1
  | .NCSI_ald => 1
  | .NCSI_aen_mc => 8
  | .NCSI_aen => 32
  | .NCSI_link => 32
  | .NCSI_oem_link => 32
  | .NCSI_mac => 48
  | .NCSI_mac_en => 1
  | .NCSI_vlan => 16
  | .NCSI_vlan_en => 1
  | .NCSI_vmode => 8
  | .NCSI_bc => 1
  | .NCSI_bc_set => 32
  | .NCSI_mc => 1
  | .NCSI_mc_set => 32
  | .NCSI_cmds => 32
  | .NCSI_dropped => 32
  | .NCSI_type_err => 32
  | .NCSI_sum_err => 32
  | .NCSI_resp => 32
  | .NCSI_aens => 32
  | .NCSI_pt_tx => 32
  | .NCSI_pt_txdrop => 32
  | .NCSI_pt_rx => 32
  | .NCSI_pt_rxdrop => 32
  | .ETH_train_at => 64
  | .CIPC_st => 2
  | .CIPC_at => 64
  | .CIPC_tick => 64
  | .DRBG_seed => 384
  | .DRBG_ctr => 64
  | .TREC => 384
  | .PWR_main => 1
  | .PWR_vaux => 1
  | .AER_u => 32
  | .AER_c => 32
  | .AER_umask => 32
  | .AER_usev => 32
  | .AER_cmask => 32
  | .FN_cmd => 16
  | .FN_cls => 8
  | .FN_intl => 8
  | .FN_bar => 64
  | .FN_rom => 32
  | .FN_devctl => 16
  | .FN_devsta => 4
  | .FN_lnkctl => 16
  | .FN_devctl2 => 16
  | .FN_lnkctl2 => 16
  | .FN_devctl3 => 32
  | .FN_tag10 => 1
  | .FN_vf_en => 1
  | .FN_vf_mse => 1
  | .FN_vf_ari => 1
  | .FN_numvfs => 16
  | .FN_vf_psz => 32
  | .FN_vf_bar => 64
  | .FN_ats_stu => 5
  | .FN_acs => 16
  | .FN_bus => 8
  | .PME_en => 1
  | .PME_st => 1
  | .PCI_drs => 1
  | .PCI_perst => 1
  | .ROM_at => 64
  | .IDE_state => 2
  | .IDE_bad => 1
  | .IDE_prog => 6
  | .IDE_go => 6
  | .IDE_rid_base => 16
  | .IDE_rid_lim => 16
  | .IDE_rid_v => 1
  | .MSIX_addr => 64
  | .MSIX_data => 32
  | .NRL_hold_until => 64
  | .NRL_off => 1
  | .NRL_est => 96
  | .NRL_rail_mw => 32
  | .NRL_rail_at => 64
  | .AGE_below => 1
  | .FL_age => 10
  | .FL_total => 64
  | .FL_used => 64
  | .NRL_pm_done => 1
  | .REG_idle_at => 64
  | .AGE_sec => 64
  | .AGE_at => 64
  | .FL_at => 64
  | .BOOT_density => 40
  | .BOOT_s0 => 1
  | .BOOT_s2_at => 64
  | .BOOT_s2_bad => 2
  | .BOOT_rcv_kind => 2
  | .BOOT_rcv_next => 33
  | .ATT_on => 1
  | .FL_boot => 32
  | .FL_boot_ok => 1
  | .FL_ok => 1
  | .MGT_on => 1
  | .ONX_wait_at => 64
  | .PWR_fail => 1
  | .PWR_reset => 1
  | .SPDM_st => 2
  | .SPDM_sess => 2
  | .SPDM_sid => 32
  | .SPDM_seq => 64
  | .KEY_bad => 1
  | .SRV_tcam_bank => 2
  | .SRV_tcam_shadow => 3
  | .SRV_tcam_at => 64
  | .SRV_sram_at => 64
  | .SRV_hbm_at => 64
  | .JTAG_inst => 3
  | .JTAG_pins => 2
  | .PIN_wake => 1
  | .IDE_ctl => 32
  | .CN_bw_at => 64
  | .RM_ts => 32
  | .RM_path => 8
  | .RESP_hold => 64

/-- Value at reset of name `f` in scope `sc` (die, IOD or region number), instance `i` (R16). -/
def Field.reset (f : Field) (sc i : Nat) : Nat :=
  match f with
  | .PKG_DIE_INFO_die_num => sc % 16
  | .PKG_DIE_INFO_die_kind => dieKind sc
  | .PKG_DIE_INFO_stepping => 177
  | .PKG_DIE_INFO_hbm_present => if sc = 5 ∨ sc = 6 then 1 else 0
  | .PKG_PEING_LINK_kind => peingKind sc i
  | .PKG_PEING_LINK_present => if peingKind sc i = 3 then 0 else 1
  | .TS_CTRL_revertive => 1
  | .TS_STATUS_ref_sel => 15
  | .TS_STATUS_unc16 => 65535
  | .TS_NOW_UNC_unc16 => 65535
  | .TS_REF_CFG_priority => 15
  | .TS_REF_CFG_asym_bound => 65535
  | .TS_SERVO_CFG_lock_bw => 1
  | .TS_SERVO_CFG_lock_ns => 20
  | .TS_SERVO_CFG_lock_s => 16
  | .TS_SERVO_CFG_qual_s => 10
  | .TS_SERVO_CFG_wtr_s => 60
  | .TS_SERVO_LIM_step_us => 100
  | .TS_SERVO_LIM_slew_ppm => 100
  | .TS_SERVO_LIM_outlier_ns => 1000
  | .TS_OSC_CFG_learn_h => 24
  | .TS_OSC_CFG_dac_span_ppb => 400
  | .TS_HOLD_MODEL0_y0_ppt => 2
  | .TS_HOLD_MODEL0_temp_ppt => 4
  | .TS_HOLD_MODEL1_age_resid_ppt => 10
  | .TS_HOLD_MODEL1_age_max_ppt => 500
  | .TS_HOLD_MODEL1_freerun_ppb => 50
  | .TS_HOLDOVER_MAX_holdover_max => 4000
  | .TS_RING_CFG_log2_slots => 4
  | .TSU_LAUNCH_PROF_late_bound => 125
  | .TSU_LAUNCH_PROF_horizon => 10
  | .TSU_PTM_CFG_interval => 3
  | .TSU_PTM_CFG_platform_unc => 65535
  | .TS_PPS_CFG_squelch_en => 1
  | .TS_PPS_CFG_width => 1
  | .TS_PPS_CFG_squelch_unc => 400
  | .STR_WDOG_period => 300
  | .STR_DRAIN_LIMIT_limit_us => 1000
  | .STR_SLOT_partition => i % 4
  | .STR_SLOT_empty => 1
  | .CLS_PUNT_RATE_rate => 1000
  | .CLS_PUNT_RATE_burst => 64
  | .CLS_FRAG_CFG_lifetime_us => 2000
  | .CLS_FRAG_CFG_hold_us => 200
  | .PAT_CH_max_reports => 1
  | .PAT_REGION_STAT_engine_ok => 3
  | .ETH_PORT_CFG_an_en => 1
  | .ETH_PORT_CFG_max_frame => 1518
  | .ETH_PORT_STATUS_threshold => 4
  | .ETH_PFC_CLASS_xoff_thr => 256
  | .ETH_PFC_CLASS_xon_gap => 20
  | .ETH_MSEC_CFG_validate => 2
  | .ETH_MSEC_CFG_send_sci => 1
  | .ETH_WAKE_CFG_an_en => 1
  | .SCH_PORT_CFG_down_hold_ms => 100
  | .SCH_SAMPLE_CFG_log2_slots => 8
  | .SCH_SAMPLE_CFG_period_us => 100
  | .SCH_NODE_quantum => 24
  | .SCH_NODE_max_depth => 4096
  | .SCH_RECON_CFG_enable => 1
  | .SCH_RECON_CFG_debt_cap => 1024
  | .SCH_TENANT_WEIGHT_weight => 1
  | .SIL_ACK_CFG_ack_every => 4
  | .SIL_ACK_CFG_ack_delay => 20
  | .SIL_ACK_CFG_max_retx => 16
  | .SIL_ACK_CFG_rnr_retries => 7
  | .SIL_PATH_CFG_min_rto => 20
  | .SIL_PATH_CFG_max_rto => 10000
  | .SIL_PATH_CFG_retire_count => 4
  | .SIL_PATH_CFG1_probe_ms => 100
  | .SIL_PATH_CFG1_base_window_ms => 1000
  | .SIL_CC_CFG0_target_ns => 4000
  | .SIL_CC_CFG0_owd_unc_max => 400
  | .SIL_CC_CFG1_ai_mbps => 50
  | .SIL_CC_CFG1_beta => 128
  | .SIL_CC_CFG2_init_rate => 25000
  | .SIL_CC_CFG3_min_rate => 100
  | .SIL_REDIRECT_region => i % 8
  | .MKY_CFG_retry_us => 100
  | .MKY_CFG_pri_timeout_ms => 100
  | .NVE_CFG_reset_limit_ms => 1000
  | .NVE_CFG_io_timeout_100ms => 50
  | .NVE_CFG_retries => 3
  | .NVE_CTRL_CFG_overlap_order => 1
  | .NVE_CTRL_CFG_max_ioq => 64
  | .COR_CORE_hartid => (6 * sc + i) % 64
  | .COR_CORE_inj_log2 => 4
  | .COR_Q_log2_entries => 4
  | .COR_Q_file => 7
  | .PCI_TAG_CFG_quarantine_ms => 10
  | .PCI_FN_STAT_present => if i < 3 then 1 else 0
  | .RNG_CFG_stall_ms => 100
  | .RNG_NVME_WRR_weight => 16
  | .RNG_RING_log2_size => 4
  | .RNG_RING_weight => 1
  | .RNG_RING_burst_m1 => 7
  | .RNG_RING_cfg10 => 4194304
  | .TEN_STATE_state => if i = 0 then 1 else 0
  | .NRL_CFG_profile => 1
  | .NRL_BUDGET_budget_mw => 340000
  | .NRL_MIN_GRANT_min_grant_uj => 10
  | .NRL_IOD_COST_iod_frame_nj => 20
  | .NRL_IOD_COST_iod_byte_pj => 8
  | .NRL_PMBUS_ADDR_page => 255
  | .NRL_K_k => 4096
  | .NRL_TENANT_CFG_weight => 1
  | .NRL_REGION_STAT_v_floor_mv => 600
  | .NRL_REGION_STAT_profile => 1
  | .AGE_CFG_margin_thr_mv => 50
  | .AGE_REGION_margin_mv => 100
  | .AGE_REGION_v_rop_mv => 750
  | .ERR_IRQ_CFG_min_class => 1
  | .ERR_REGION_CMD_drain_limit_us => 1000
  | .ERR_TEST_CFG_kat_ms => 10
  | .ERR_TEST_CFG_tcam_period_s => 60
  | .ERR_TEST_CFG_sram_scrub_s => 10
  | .ERR_TEST_CFG_hbm_scrub_h => 24
  | .ERR_HBM_CMD_auto_retire => 1
  | .ERR_HBM_CMD_retire_thr => 64
  | .TMX_CFG_div => 5
  | .PATH_unc => 0xFFFF
  | .ISLAND_mv => 750
  | .MSIX_mask => 1
  | .TIME_hold_mode => 2
  | .PTM_rate_unc => 0xFFFF
  | .PTM_unc => 0xFFFF
  | .PAGE_unc => 0xFFFF
  | .PAGE_rate_unc => 0xFFFF
  | .PAGE_ptm_unc => 0xFFFF
  | .CORE_cmp => 0xFFFFFFFFFFFFFFFF
  | .PKT_unc => 0xFFFF
  | .ETH_discard => 1
  | .NODE_fresh => 1
  | .CORE_mode => 3
  | .CN_gen => 127
  | .CN_path => 255
  | .PT_bcur => 0x100000000
  | .PT_bprev => 0x100000000
  | .PT_rcur => 0x100000000
  | .PT_rprev => 0x100000000
  | .NC_seq => 1
  | .NC_feat_vwc => 1
  | .CQ_phase => 1
  | .ISLAND_tgt => 750
  | .CLSR_frag => 0xC807D0
  | .PUNTB_tok => 32000000000
  | .PUNTB_rate => 125
  | .PUNTB_depth => 8
  | .PWR_main => 1
  | .PWR_vaux => 1
  | .AER_umask => 4194304
  | .AER_usev => 273031216
  | .AER_cmask => 57344
  | .FN_devctl => 10256
  | .FN_vf_psz => 1
  | .BOOT_density => 268435456
  | .JTAG_inst => 1
  | _ => 0

end Sys2Proof.Machine
end

