-- ==== Sys2Proof/Machine/Names.lean ====
section
/-! DEFINITION. The closed lists of names for the state that is not scalar: the sequences the device keeps, and the kinds
of thing that leave the device. -/

namespace Sys2Proof.Machine

/-- The device's sequences of numbers (bytes, handles, words). Each is kept per scope and instance. -/
inductive LName where
  /-- Bytes of a packet the device holds; instance: its handle. -/
  | pktBytes
  /-- A copy of the slot directory in the external flash: 64 bytes; instance: copy (Table BOOT-5). -/
  | slotDir
  /-- Manifest of a structure partition; instance: partition (Table BOOT-3). -/
  | partManifest
  /-- Container in a structure partition; instance: partition (Table BOOT-3). -/
  | partBytes
  /-- Expansion ROM partition; instance: PF 0 or 1 (Table BOOT-3). -/
  | romBytes
  /-- A stage 2 slot, manifest and image; instance: slot (Table BOOT-3). -/
  | stage2Slot
  /-- Hash in a boot-key slot's fuses; instance: slot (R513). -/
  | bootKeyHash
  /-- A section in a region's context; scope: region, instance: context × 16 + type (R155). -/
  | ctxSec
  /-- A common section as the IODs hold it; instance: context × 16 + type (R164). -/
  | comSec
  /-- TABLE_LAYOUT section of a table instance; instance: table × 2 + instance (R168). -/
  | tblLay
  /-- TABLE_INIT section of a table instance (R215). -/
  | tblInit
  /-- Version of a pattern set; scope: region, instance: set × 2 + (0 active, 1 staged) (R256). -/
  | patSet
  /-- Accepted changes of a pattern set whose instant is to come, oldest first: kind (0 activation, 1 deletion), DTS, region mask (R257). -/
  | patPend
  /-- Residuals of the servo, newest first, at most 64 (R96). -/
  | residuals
  /-- Frequency-correction samples of the ageing fit, newest first (R101). -/
  | learnSamples
  /-- Mean-frequency window: corrections of the last 600 s of LOCKED, newest first (R102). -/
  | freqWindow
  /-- An amber record that was issued; instance: seq (R110). -/
  | amber
  /-- seq of the records not yet delivered to the time ring, oldest first (R112). -/
  | amberToRing
  /-- seq of the records not yet programmed into the log, oldest first (R112). -/
  | amberToLog
  /-- A record in the amber log; instance: log slot (R113). -/
  | amberLog
  /-- First 32 bytes of the digest of the last record (Table TIME-9). -/
  | amberPrev
  /-- The 48 bytes of chain_digest in effect. -/
  | chainDigest
  /-- The device attestation key, as stage 0 derived it (R521). -/
  | attestKey
  /-- Bytes received so far for a read request; scope: endpoint, instance: tag (R433). -/
  | tagData
  /-- Read requests that wait for a free tag or for bus mastering, six numbers each: function, address, length, kind and the
  two numbers of the operation; scope: endpoint (R434). -/
  | readWait
  /-- A work ring's descriptors that were fetched and not started, each its 17-bit count and its 64 bytes; scope: endpoint, instance:
  ring (R451). -/
  | ringFetched
  /-- Work numbers of a work ring's started descriptors whose completions have not been posted, in ring order (R456). -/
  | ringOrder
  /-- Work numbers whose completions wait in a CPL ring's overflow, oldest first (R461). -/
  | cplOver
  /-- Work numbers of an RX or RECV ring's posted buffers, oldest first (R455). -/
  | rxBufs
  /-- Handles in a transmit queue, head first; scope: IOD, instance: queue (R297). -/
  | txq
  /-- Handles dispatched to a port's MAC and not started, oldest first; scope: IOD, instance: port (R276). -/
  | mac
  /-- Frames from the management controller that wait for a port, each a length and its bytes; scope: IOD, instance: port (R291). -/
  | ncsiTx
  /-- Message numbers of a connection whose sender messages are not complete, in order; instance: context (R324). -/
  | cnMsgs
  /-- Work numbers that wait to be started as messages of a connection, in ring order; instance: context (R324). -/
  | cnWq
  /-- Bytes of a stored packet from its transport header on, unencrypted; scope: context, instance: PSN mod 256 (R327). -/
  | rtData
  /-- ts of each transmission of a stored packet; scope: context, instance: PSN mod 256 (R336). -/
  | rtTs
  /-- Payload bytes read so far for a message being sent; scope: context, instance: msg_id mod 64. -/
  | msgData
  /-- Payload bytes read so far for a READ response; scope: context, instance: msg_id mod 64. -/
  | respData
  /-- Results of the last 64 atomic operations, each msg_id and result; instance: context (R331). -/
  | cnAtom
  /-- msg_ids of READ, atomic and flush requests that wait to be executed, in order; instance: context (R330, R339). -/
  | cnExec
  /-- Received bytes of a message on a backend's connection; scope: context, instance: msg_id mod 64 (R369). -/
  | beRx
  /-- Command numbers of a controller that are fetched and not completed; instance: controller (R371). -/
  | ctrlCmds
  /-- Write data staged, or read data received, for a command; instance: command number (R373). -/
  | cmdData
  /-- Places of a command's data in host memory, each an address and a length; instance: command number. -/
  | cmdPtrs
  /-- LBA ranges of a command, each a first LBA and a number of LBAs; instance: command number (R375). -/
  | cmdRanges
  /-- Command numbers of the Flushes to backends of a controller's shutdown; instance: controller (R382). -/
  | shnLeft
  /-- Bytes of a work's payload: those of a TX frame read so far (R454), or a message that the storage block sends (R369); instance:
  work number. -/
  | wrkData
  /-- Messages received on a backend's connection and not yet taken by the storage block, each a length and its bytes; instance:
  context (R369). -/
  | beIn
  /-- PDUs sent on a TCP queue and not yet acknowledged, each a command number, a length and its bytes; instance: backend*64 + queue
  (R368). -/
  | beUna
  /-- Command numbers that a Flush waits on; instance: command number (R377). -/
  | flushCover
  /-- Command numbers of the Flushes to backends that a Flush waits for; instance: command number (R377). -/
  | flushLeft
  /-- Command identifiers of a controller's outstanding Asynchronous Event Requests, oldest first; instance: controller. -/
  | aerCids
  /-- Completion dwords of asynchronous events that wait for a request; instance: controller. -/
  | aerWait
  /-- Changed namespace list of a controller. -/
  | nsChanged
  /-- Firmware image bytes downloaded through Firmware Image Download; instance: controller (R520). -/
  | fwImage
  /-- DTS of a tenant's CONTAINED errors of the last second, newest first; instance: tenant (R532). -/
  | errTimes
  /-- DTS of a wire group's correctable errors of the last 1 ms, newest first; scope: die, instance: partner × 256 + group (R23). -/
  | wireTimes
  /-- The key store root, fresh at each power-on reset (R395). -/
  | keyRoot
  /-- Material of a key that a region cipher block holds; scope: region, instance: slot (R398). -/
  | cipKey
  /-- Material of a key that a MACsec engine holds; scope: IOD, instance: port × 132 + SA (R398). -/
  | saKey
  /-- The recovery buffer, from its offset 0 (R518). -/
  | rcvBuf
  /-- The Onyx command that waits for presence, as evaluated (R526). -/
  | onxHeld
  /-- Hash in an owner slot's fuses; instance: slot (R525). -/
  | ownerHash
  /-- The unique device secret, fused (R521). -/
  | uds
  /-- CDI1 (R521). -/
  | cdi1
  /-- Negotiation messages of an SPDM connection (VCA); scope: endpoint. -/
  | spdmVca
  /-- Messages that the next CHALLENGE_AUTH signs besides those; scope: endpoint. -/
  | spdmM1
  /-- Messages that the next signed MEASUREMENTS covers; scope: endpoint, instance: session plus 1, 0 outside one. -/
  | spdmL1
  /-- Transcript of a session's handshake; scope: endpoint, instance: session. -/
  | spdmTh
  /-- Key of a session; scope: endpoint, instance: session. -/
  | spdmKey
  /-- Key of an IDE stream; scope: endpoint, instance: stream*6 + sub-stream*2 + direction (R444). -/
  | ideKey
  /-- Retirements that wait for the copy in progress: stack*32 + channel (R547). -/
  | hbmWait
  /-- DTS of a pseudo-channel's corrected errors in the last 24 h; instance: stack*32 + channel (R546). -/
  | hbmTimes
  /-- Boundary register of the TAP (R548). -/
  | bscan
  /-- Accesses of a path that wait for an absent clock, oldest first: address, kind (1 read, 2 write, 3 a host read of 4 bytes, 4 of 8
  bytes), value; instance: path (R70). -/
  | busHeld
  /-- Ageing measurements of a region, newest first, at most 64 (R497); instance: region. -/
  | ageMeas
deriving DecidableEq, Repr

/-- The kinds of thing that leave the device. -/
inductive OutKind where
  /-- Memory write to a host: endpoint, function, address, PASID plus 1 or 0 (2^21 for a translated address), Relaxed Ordering; data
  bytes. -/
  | hostWrite
  /-- Memory read request to a host: endpoint, function, address, length, tag, PASID plus 1 or 0 (2^21 for a translated
  address). -/
  | hostRead
  /-- MSI-X message: endpoint, function, vector, address, data. -/
  | msix
  /-- PCIe message: endpoint, function, message code of this model. -/
  | pcieMsg
  /-- Error message: endpoint, function, bit of the AER status, severity (0 correctable, 1 non-fatal, 2 fatal). -/
  | aer
  /-- Completion to a host request: endpoint, status (0 SC, 1 UR, 2 RRS, 3 CA); data bytes. -/
  | cpl
  /-- Ethernet frame: IOD, port; bytes. -/
  | frame
  /-- A 24-bit frame to the OCXO DAC (R98). -/
  | dac
  /-- A pin driven: pin number of this model, level. -/
  | pin
  /-- A message to a management controller, SPDM requester or debugger: channel; bytes. -/
  | msg
  /-- A PMBus transaction: rail, address, command code; bytes written. -/
  | pmbus
  /-- A PDU or capsule to a storage backend: backend, queue; words. -/
  | backend
deriving DecidableEq, Repr

end Sys2Proof.Machine
end

