-- ==== Sys2Proof/Machine/State.lean ====
section
/-! DEFINITION. The state of the device as plain data. Every scalar the spec names (register fields and the state behind
them) is one entry of `regs`, under its name of the closed list `Field`, in its scope (die, IOD or region) and instance;
every sequence is one entry of `lists`, under its name of `LName`. What is not listed reads as the value at reset
(`Field.reset`) or as the empty sequence. -/

namespace Sys2Proof.Machine

/-- Key of a scalar: name, scope, instance. -/
structure Key where
  f : Field
  sc : Nat
  i : Nat
deriving DecidableEq, Repr

/-- Key of a sequence: name, scope, instance. -/
structure LKey where
  n : LName
  sc : Nat
  i : Nat
deriving DecidableEq, Repr

/-- Something that left the device. -/
structure Out where
  kind : OutKind
  args : List Nat
  data : List Nat
deriving DecidableEq, Repr

/-- The device. -/
structure State where
  /-- Scalars that differ from their value at reset. -/
  regs : List (Key × Nat)
  /-- Sequences that are not empty. -/
  lists : List (LKey × List Nat)
  /-- The device's addressed memories (SRAM, HBM, embedded flash) by device address; unlisted bytes read 0 (log entry 6). -/
  mem : List Host.Cell
  /-- What left the device, oldest first. -/
  out : List Out
  /-- What the last read or command answered to its sender. -/
  reply : List Nat
  /-- The model's own: how many free values have been drawn (log entry 3). -/
  free : Nat
  /-- The commands that are waiting, first in, first out. -/
  pending : List Instr
deriving DecidableEq, Repr

/-- Reasons the machine stops. -/
inductive Fault where
  /-- No command raises this: the spec lets the device run on, or go DEVICE_FATAL (R534), in every case. Safe. -/
  | none
deriving DecidableEq, Repr

/-- Reasons a command is not run. -/
inductive Refusal where
  /-- The command has no meaning in this model yet: raised by its arm of `exec`. Safe. -/
  | notModelled (mnemonic : String)
deriving DecidableEq, Repr

/-- The device after reset: every scalar at its reset value, nothing held, nothing waiting. -/
def State.reset : State :=
  { regs := [], lists := [], mem := [], out := [], reply := [], free := 0, pending := [] }

end Sys2Proof.Machine
end

