-- ==== Sys2Proof/Machine/Ops.lean ====
section
/-! DEFINITION. The named operations over the state: reading and writing scalars, sequences and memory, drawing free
values, letting something leave the device, interrupts, and error records (spec file 21). -/

namespace Sys2Proof.Machine

/-- Order of the scalar keys. -/
def Key.lt (a b : Key) : Bool :=
  if a.f.ctorIdx = b.f.ctorIdx then (if a.sc = b.sc then Nat.blt a.i b.i else Nat.blt a.sc b.sc)
  else Nat.blt a.f.ctorIdx b.f.ctorIdx

/-- Order of the sequence keys. -/
def LKey.lt (a b : LKey) : Bool :=
  if a.n.ctorIdx = b.n.ctorIdx then (if a.sc = b.sc then Nat.blt a.i b.i else Nat.blt a.sc b.sc)
  else Nat.blt a.n.ctorIdx b.n.ctorIdx

/-- Scalar `f` of scope `sc`, instance `i`. -/
def State.get (s : State) (f : Field) (sc : Nat := 0) (i : Nat := 0) : Nat :=
  sget (f.reset sc i) s.regs ⟨f, sc, i⟩

/-- Scalar `f` made `v`, kept within its width. -/
def State.set (s : State) (f : Field) (v : Nat) (sc : Nat := 0) (i : Nat := 0) : State :=
  { s with regs := sset Key.lt (f.reset sc i) s.regs ⟨f, sc, i⟩ (v % 2 ^ f.width) }

/-- Scalar `f` returned to its value at reset. -/
def State.clr (s : State) (f : Field) (sc : Nat := 0) (i : Nat := 0) : State :=
  s.set f (f.reset sc i) sc i

/-- Scalar `f` raised by `n`, stopping at its largest value (a saturating count). -/
def State.bumpN (s : State) (f : Field) (n : Nat) (sc : Nat := 0) (i : Nat := 0) : State :=
  s.set f (min (s.get f sc i + n) (2 ^ f.width - 1)) sc i

/-- Scalar `f` raised by 1, stopping at its largest value. -/
def State.bump (s : State) (f : Field) (sc : Nat := 0) (i : Nat := 0) : State :=
  s.bumpN f 1 sc i

/-- Scalar `f` raised by `n` modulo 2^width. -/
def State.addw (s : State) (f : Field) (n : Nat) (sc : Nat := 0) (i : Nat := 0) : State :=
  s.set f (s.get f sc i + n) sc i

/-- Bit `k` of scalar `f`. -/
def State.getb (s : State) (f : Field) (k : Nat) (sc : Nat := 0) (i : Nat := 0) : Bool :=
  (s.get f sc i).testBit k

/-- Bit `k` of scalar `f` made `v`. -/
def State.setb (s : State) (f : Field) (k : Nat) (v : Bool) (sc : Nat := 0) (i : Nat := 0) : State :=
  s.set f (setBit (s.get f sc i) k v) sc i

/-- Sequence `n` of scope `sc`, instance `i`. -/
def State.lget (s : State) (n : LName) (sc : Nat := 0) (i : Nat := 0) : List Nat :=
  sget [] s.lists ⟨n, sc, i⟩

/-- Sequence `n` made `v`. -/
def State.lset (s : State) (n : LName) (v : List Nat) (sc : Nat := 0) (i : Nat := 0) : State :=
  { s with lists := sset LKey.lt [] s.lists ⟨n, sc, i⟩ v }

/-- `v` put at the end of sequence `n`. -/
def State.lpush (s : State) (n : LName) (v : Nat) (sc : Nat := 0) (i : Nat := 0) : State :=
  s.lset n (s.lget n sc i ++ [v]) sc i

/-- Every instance of scalar `f` that differs from its reset value, as (scope, instance). -/
def State.keysOf (s : State) (f : Field) : List (Nat × Nat) :=
  (s.regs.filter (fun p => decide (p.1.f = f))).map (fun p => (p.1.sc, p.1.i))

/-- Every instance of sequence `n` that is not empty, as (scope, instance). -/
def State.lkeysOf (s : State) (n : LName) : List (Nat × Nat) :=
  (s.lists.filter (fun p => decide (p.1.n = n))).map (fun p => (p.1.sc, p.1.i))

/-- The state that an operation without a stop answers. -/
def State.run (s : State) (f : State → Host.Outcome State Fault Refusal) : State :=
  match f s with
  | .next t => t
  | _ => s

/-- One operation for each element, in order. -/
def State.each {α : Type} (s : State) (l : List α) (f : α → State → State) : State :=
  l.foldl (fun s a => f a s) s

/-- An operation applied only where `c` holds. -/
def State.when (s : State) (c : Bool) (f : State → State) : State :=
  if c then f s else s

/-- Something leaves the device. -/
def State.emit (s : State) (k : OutKind) (args : List Nat) (data : List Nat := []) : State :=
  { s with out := s.out ++ [⟨k, args, data⟩] }

/-- The answer of a read or a command to its sender. -/
def State.answer (s : State) (r : List Nat) : State := { s with reply := r }

/-- The free value that the next draw gives, of `w` bits. -/
def State.freeVal (s : State) (w : Nat) : Nat := Config.freeValue s.free % 2 ^ w

/-- A free value has been drawn. -/
def State.drew (s : State) : State := { s with free := s.free + 1 }

/-- `n` free bytes, and the state with them drawn. -/
def State.freeBytes (s : State) : Nat → State × List Nat
  | 0 => (s, [])
  | n + 1 =>
    let b := s.freeVal 8
    let (s, l) := s.drew.freeBytes n
    (s, b :: l)

/-- Byte at device address `a`. -/
def State.mbyte (s : State) (a : Nat) : Nat := (sget (0 : BitVec 8) s.mem a).toNat

/-- `n` bytes from device address `a` up. -/
def State.mread (s : State) (a n : Nat) : List Nat := (List.range n).map (fun k => s.mbyte (a + k))

/-- Byte at device address `a` made `b`. -/
def State.mput (s : State) (a b : Nat) : State :=
  { s with mem := sset Nat.blt (0 : BitVec 8) s.mem a (BitVec.ofNat 8 b) }

/-- Bytes stored from device address `a` up. -/
def State.mwrite (s : State) (a : Nat) : List Nat → State
  | [] => s
  | b :: r => (s.mput a b).mwrite (a + 1) r

/-- Every listed byte of `len` bytes from `a` up made 0. -/
def State.mzero (s : State) (a len : Nat) : State :=
  s.each ((s.mem.filter (fun c => within c.1 a len)).map (·.1)) (fun k s => s.mput k 0)

/-- DTS: counter A (R80). -/
def State.now (s : State) : Nat := s.get .TS_NOW

/-- DTS brought forward to `t`, as its running does; never back (log entry 7). The time die holds counter B and the
replicas to counter A (R60, R80). -/
def State.advanceTo (s : State) (t : Nat) : State :=
  if s.now < t then (s.set .TS_NOW t).addw .TS_B (t - s.now) else s

/-- DTS less the amounts of every step (R302). -/
def State.mono (s : State) : Nat := (s.now + 2 ^ 64 - s.get .TIME_steps) % 2 ^ 64

/-- Whether the device is DEVICE_FATAL (R534). -/
def State.fatal (s : State) : Bool := decide (s.get .ERR_STATUS_device_fatal = 1)

/-- The physical function that function `f` of endpoint `e` is or belongs to (R419). -/
def State.pfOf (s : State) (e f : Nat) : Nat :=
  if f < 4 then f else if 517 ≤ f then 1 else if s.get .PCI_EP_CFG_pf3_present e = 1 ∧ 261 ≤ f then 3 else 0

/-- Whether function `f` of endpoint `e` may master the bus: Bus Master Enable is 1 (R436), no FLR is in progress (R438), its
PF is in D0 (R440). -/
def State.fnRuns (s : State) (e f : Nat) : Bool :=
  decide (s.get .PCI_FN_STAT_bme e f = 1) && decide (s.get .PCI_FN_STAT_flr_active e f = 0) &&
  decide (s.get .PCI_FN_STAT_dstate e (s.pfOf e f) = 0)

/-- Whether the device may issue a memory request for function `f` of endpoint `e`: the function may master the bus, the link
is up, and the device is not DEVICE_FATAL (R534). -/
def State.mayIssue (s : State) (e f : Nat) : Bool :=
  s.fnRuns e f && decide (s.get .PCI_EP_CFG_link_up e = 1) && !s.fatal

/-- A frame or record destined for host memory is dropped with HOST_DOWN; host_down_drops counts them in units of 256
(R442). -/
def State.hostDown (s : State) (e : Nat) : State :=
  if s.get .HOST_down_sub e = 255 then (s.set .HOST_down_sub 0 e).bump .PCI_LINK_STAT_host_down_drops e
  else s.addw .HOST_down_sub 1 e

/-- A memory write to the host under a PASID (0 none, else PASID + 1), `data` for a data write: dropped with HOST_DOWN while the
link is down (R442), else issued where it may be (R436). Only a data write carries Relaxed Ordering, when the function enables
it (R429). -/
def State.hostWriteD (s : State) (e f a pasid : Nat) (data : Bool) (d : List Nat) : State :=
  if s.get .PCI_EP_CFG_link_up e = 0 then s.hostDown e
  else s.when (s.mayIssue e f) (·.emit .hostWrite [e, f, a, pasid, b2n (data && (s.get .FN_devctl e f).testBit 4)] d)

/-- A memory write to the host that is no data write. -/
def State.hostWriteP (s : State) (e f a pasid : Nat) (d : List Nat) : State := s.hostWriteD e f a pasid false d

/-- A memory write to the host without a PASID. -/
def State.hostWrite (s : State) (e f a : Nat) (d : List Nat) : State := s.hostWriteP e f a 0 d

/-- Index of MSI-X vector `v` of function `f` in the per-vector scalars. -/
def vecIx (f v : Nat) : Nat := f * 4096 + v

/-- MSI-X message of a vector: the data of its table entry is written to its address (log entry 8). -/
def State.msixSend (s : State) (e f v : Nat) : State :=
  (s.emit .msix [e, f, v, s.get .MSIX_addr e (vecIx f v), s.get .MSIX_data e (vecIx f v)]).set .MSIX_pend 0 e (vecIx f v)

/-- MSI-X vector `v` of function `f` of endpoint `e` is signalled: sent when MSI-X is enabled and unmasked and the function
may issue requests, else left pending in the PBA (R436; log entry 8). `force` sends it in DEVICE_FATAL as R534 allows. -/
def State.msix (s : State) (e f v : Nat) (force : Bool := false) : State :=
  if s.fnRuns e f ∧ s.get .PCI_EP_CFG_link_up e = 1 ∧
      (force ∨ s.get .ERR_STATUS_device_fatal = 0) ∧
      s.get .FN_msix_en e f = 1 ∧ s.get .FN_msix_fmask e f = 0 ∧ s.get .MSIX_mask e (vecIx f v) = 0 then
    s.msixSend e f v
  else s.set .MSIX_pend 1 e (vecIx f v)

/-- Identity `id` set pending in file `file` of hart `h`; an absent file or identity 0 has no effect (R409, R410).
Files: 0 machine, 1 supervisor, 2 to 6 guest 1 to 5; 7 none (COR_Q). -/
def State.coreMsi (s : State) (h file id : Nat) : State :=
  if 0 < id ∧ id < 256 ∧ h < 53 ∧ (h < 48 ∨ file = 0) ∧ file < 7 then
    s.setb .IMSIC_pend id true h file
  else s

/-- Error classes (Table SERV-6). -/
inductive ErrClass where | corrected | contained | tenantFatal | deviceFatal
deriving DecidableEq, Repr

/-- Class code (Table SERV-6). -/
def ErrClass.code : ErrClass → Nat
  | .corrected => 0
  | .contained => 1
  | .tenantFatal => 2
  | .deviceFatal => 3

/-- What an error record says (ERR_LOG, R533). A level, requester or detail that the manual does not state is none, and the record
holds a free value there (log entry 144). -/
structure Err where
  src : Nat
  cls : ErrClass
  level : Option Nat := none
  die : Nat := 0
  region : Nat := 15
  tenant : Nat := 0
  requester : Option Nat := none
  addr : Nat := 0
  detail : Option Nat := none
deriving DecidableEq, Repr

/-- A value that the manual states, or else a free one of `w` bits, and the state after its draw. -/
def State.openVal (s : State) (w : Nat) (v : Option Nat) : State × Nat :=
  match v with
  | some x => (s, x)
  | none => (s.drew, s.freeVal w)

/-- The instance of ERR_LOG, among the 8 latest, that a CORRECTED error coalesces with: same source, die, region and
address, and less than 1 ms old or exactly so (R533). -/
def State.coalesce (s : State) (r : Err) : Option Nat :=
  ((List.range 8).map (fun k => (s.get .ERR_LOG_HEAD_head + 65536 - 1 - k) % 64)).find? (fun j =>
    decide (s.get .ERR_LOG_count 0 j ≠ 0 ∧ s.get .ERR_LOG_source 0 j = r.src ∧ s.get .ERR_LOG_die 0 j = r.die ∧
      s.get .ERR_LOG_region 0 j = r.region ∧ s.get .ERR_LOG_addr 0 j = r.addr ∧
      s.now ≤ s.get .ERR_LOG_dt64 0 j + msUnits))

/-- A new record at ERR_LOG[head mod 64]; head advances (R533). -/
def State.logRecord (s : State) (r : Err) : State :=
  let j := s.get .ERR_LOG_HEAD_head % 64
  let (s, level) := s.openVal 2 r.level
  let (s, requester) := s.openVal 16 r.requester
  let (s, detail) := s.openVal 32 r.detail
  ((((((((((((s.set .ERR_LOG_dt64 s.now 0 j).set .ERR_LOG_source r.src 0 j).set .ERR_LOG_class r.cls.code 0 j)
    |>.set .ERR_LOG_level level 0 j).set .ERR_LOG_die r.die 0 j).set .ERR_LOG_region r.region 0 j)
    |>.set .ERR_LOG_tenant r.tenant 0 j).set .ERR_LOG_count 1 0 j).set .ERR_LOG_requester requester 0 j)
    |>.set .ERR_LOG_addr r.addr 0 j).set .ERR_LOG_detail detail 0 j).addw .ERR_LOG_HEAD_head 1)

/-- The sticky bit of the class of a new record (ERR_STATUS). DEVICE_FATAL is R534's. -/
def State.errStatus (s : State) (c : ErrClass) : State :=
  match c with
  | .corrected => s.set .ERR_STATUS_corrected 1
  | .contained => s.set .ERR_STATUS_contained 1
  | .tenantFatal => s.set .ERR_STATUS_tenant_fatal 1
  | .deviceFatal => s.set .ERR_STATUS_device_fatal 1

/-- Present physical functions of endpoint `e`. -/
def State.presentPfs (s : State) (e : Nat) : List Nat :=
  (List.range 4).filter (fun f => decide (s.get .PCI_FN_STAT_present e f = 1))

/-- An error message of severity `sev` (0 correctable, 1 non-fatal, 2 fatal) for bit `bit` of a function's AER status: sent where
Device Control, or SERR# Enable for an uncorrectable one, enables it (log entry 59). -/
def State.errMsg (s : State) (e f bit sev : Nat) : State :=
  let s := s.setb .FN_devsta sev true e f
  if s.getb .FN_devctl sev e f ∨ (sev ≠ 0 ∧ s.getb .FN_cmd 8 e f) then s.emit .aer [e, f, bit, sev] else s

/-- A correctable error is logged in a function's AER. -/
def State.aerC (s : State) (e f bit : Nat) : State :=
  let s := s.setb .AER_c bit true e f
  if s.getb .AER_cmask bit e f then s else s.errMsg e f bit 0

/-- An uncorrectable error is logged in a function's AER, with the severity the host programmed (R531); an Advisory Non-Fatal
one is messaged as correctable (R434). -/
def State.aerU (s : State) (e f bit : Nat) (advisory : Bool := false) : State :=
  let s := s.setb .AER_u bit true e f
  if advisory then
    let s := s.setb .AER_c 13 true e f
    if s.getb .AER_umask bit e f ∨ s.getb .AER_cmask 13 e f then s else s.errMsg e f bit 0
  else if s.getb .AER_umask bit e f then s
  else s.errMsg e f bit (1 + b2n (s.getb .AER_usev bit e f))

/-- The AER report of a class on one endpoint with DL_Up (Table SERV-1). -/
def State.aerOn (s : State) (c : ErrClass) (e : Nat) : State :=
  if s.get .PCI_EP_CFG_link_up e = 0 then s else
  match c with
  | .corrected => s.when (decide (s.get .ERR_IRQ_CFG_corr_aer = 1)) (·.aerC e 2 14)
  | .contained => s
  | .tenantFatal => s.aerU e 2 22
  | .deviceFatal => s.each (s.presentPfs e) (fun f s => s.aerU e f 22)

/-- The interrupts of a new record whose class is at least min_class (R533). -/
def State.errIrq (s : State) (c : ErrClass) : State :=
  if c.code < s.get .ERR_IRQ_CFG_min_class then s else
  let s := s.when (s.getb .ERR_IRQ_CFG_ep_en 0) (fun s => s.msix 0 2 (s.get .ERR_IRQ_CFG_vector) true)
  let s := s.when (s.getb .ERR_IRQ_CFG_ep_en 1) (fun s => s.msix 1 2 (s.get .ERR_IRQ_CFG_vector) true)
  s.when (decide (s.get .ERR_IRQ_CFG_core_en = 1)) (fun s => s.coreMsi 48 0 (s.get .ERR_IRQ_CFG_identity))

/-- An error is counted, recorded or coalesced, and reported (R531, R533). -/
def State.report1 (s : State) (r : Err) : State :=
  let s := s.bump .ERR_CNT 0 r.cls.code
  match (if r.cls = .corrected then s.coalesce r else none) with
  | some j => (s.bump .ERR_LOG_count 0 j).each [0, 1] (fun e s => s.aerOn r.cls e)
  | none => (((s.logRecord r).errStatus r.cls).errIrq r.cls).each [0, 1] (fun e s => s.aerOn r.cls e)

/-- DEVICE_FATAL: recorded, and from here admission, port transmission and memory requests are stopped (R534): every UP
port sends Remote Fault. -/
def State.deviceFatal (s : State) (r : Err) : State :=
  (s.report1 { r with cls := .deviceFatal }).each (List.range 16) (fun k s =>
    s.when (decide (s.get .ETH_PORT_STATUS_state (k / 8) (k % 8) = 2)) (·.set .ETH_tx_remote_fault 1 (k / 8) (k % 8)))

/-- Function owner (R464). -/
def State.ownerOf (s : State) (e f : Nat) : Nat := s.get .TEN_FN_OWNER_tenant e f

/-- Function that ring `r` of endpoint `e` belongs to under RNG_FN_MAP, if any (R446). -/
def State.ringFn (s : State) (e r : Nat) : Option Nat :=
  (s.keysOf .RNG_FN_MAP_ring_count).findSome? (fun p =>
    if p.1 = e ∧ s.get .RNG_FN_MAP_ring_base e p.2 ≤ r ∧
        r < s.get .RNG_FN_MAP_ring_base e p.2 + s.get .RNG_FN_MAP_ring_count e p.2 then some p.2 else none)

/-- Tenant of ring `r` of endpoint `e` (R464). -/
def State.ringTenant (s : State) (e r : Nat) : Option Nat :=
  (s.ringFn e r).map (fun f => s.ownerOf e f)

end Sys2Proof.Machine
end

