-- ==== Sys2Proof/Machine/Packets.lean ====
section
/-! DEFINITION. Packets the device holds, numbered by handles: their bytes, parsed header vector and metadata (R188, R189), and
how they leave. -/

namespace Sys2Proof.Machine

/-- Drop reasons of this model's numbering, above the 16-bit reason codes of the DROP opcode (R152). -/
def reasonLAUNCH_FAR : Nat := 0x10000
/-- LAUNCH_LATE. -/
def reasonLAUNCH_LATE : Nat := 0x10001
/-- EPOCH_EXPIRED (R165). -/
def reasonEPOCH_EXPIRED : Nat := 0x10002
/-- IMAGE_RELOAD (R174). -/
def reasonIMAGE_RELOAD : Nat := 0x10003
/-- NO_REGION (R182). -/
def reasonNO_REGION : Nat := 0x10004
/-- NO_MATCH (R195). -/
def reasonNO_MATCH : Nat := 0x10005
/-- PARSE_FAIL (R195). -/
def reasonPARSE_FAIL : Nat := 0x10006
/-- PUNT_EXCESS (R196). -/
def reasonPUNT_EXCESS : Nat := 0x10007
/-- FRAG_REGION_DOWN (R207). -/
def reasonFRAG_REGION_DOWN : Nat := 0x10008
/-- CELL_FAULT (R31). -/
def reasonCELL_FAULT : Nat := 0x10009
/-- TENANT_FATAL (R475). -/
def reasonTENANT_FATAL : Nat := 0x1000A
/-- REGION_OFFLINE (R537). -/
def reasonREGION_OFFLINE : Nat := 0x1000B
/-- QUEUE_FULL of the transmit scheduler (R297). -/
def reasonTAIL : Nat := 0x1000C
/-- Port out of UP beyond down_hold_ms (R307). -/
def reasonLINK_DOWN : Nat := 0x1000D
/-- Cipher failure (R392). -/
def reasonCIPHER_FAIL : Nat := 0x1000F
/-- Host receive ring without room or not enabled (R455). -/
def reasonRX_RING : Nat := 0x10010
/-- The frame underran while being sent (R278). -/
def reasonUNDERRUN : Nat := 0x10011
/-- MACsec transmit drop (R282). -/
def reasonMACSEC : Nat := 0x10012
/-- Frame not taken by the MAC (R271). -/
def reasonMAC : Nat := 0x10013
/-- DEVICE_FATAL stops admission (R534). -/
def reasonFATAL : Nat := 0x10014

/-- BAD_QUEUE of the transmit scheduler (R296). -/
def reasonBAD_QUEUE : Nat := 0x10015
/-- NO_QUEUE of the transmit scheduler (R296). -/
def reasonNO_QUEUE : Nat := 0x10016
/-- NO_RING: a FORWARD names a ring that is no RX ring (R455). -/
def reasonNO_RING : Nat := 0x10017
/-- HOST_DOWN: the endpoint has no DL_Up (R442). -/
def reasonHOST_DOWN : Nat := 0x10018
/-- PUNT_QFULL: core queue without room (R413). -/
def reasonPUNT_QFULL : Nat := 0x10019

/-- Work that read an uncorrectable word is dropped (R544). -/
def reasonPOISON : Nat := 0x1001A

/-- Metadata bits [lo + w - 1 : lo] of packet `h`. -/
def State.meta_ (s : State) (h lo w : Nat) : Nat := bitsOf (s.get .PKT_meta 0 h) lo w

/-- Metadata bits [lo + w - 1 : lo] of packet `h` made `v`. -/
def State.setMeta (s : State) (h lo w v : Nat) : State :=
  s.set .PKT_meta (putBits (s.get .PKT_meta 0 h) lo w v) 0 h

/-- Operand of width `w` at offset `b` of the vector and metadata (R188). An operand that runs past the vector or past the
metadata reads a value the spec does not state (log entry 13). -/
def operandOf (phv md b w : Nat) (free : Nat) : Nat :=
  if b + w ≤ 4096 then bitsOf phv (4096 - b - w) w
  else if 4096 ≤ b ∧ b + w ≤ 5120 then bitsOf md (b - 4096) w
  else free % 2 ^ w

/-- Operand of width `w` at offset `b` of packet `h`. -/
def State.operand (s : State) (h b w : Nat) : Nat :=
  operandOf (s.get .PKT_phv 0 h) (s.get .PKT_meta 0 h) b w (Config.freeValue s.free)

/-- A draw is used up when an operand ran past its space. -/
def State.operandDrawn (s : State) (b w : Nat) : State :=
  if b + w ≤ 4096 ∨ (4096 ≤ b ∧ b + w ≤ 5120) then s else s.drew

/-- Destination of width `w` at offset `b` of packet `h` made `v` (R188); one that runs past its space writes nothing
(log entry 13). -/
def State.putOperand (s : State) (h b w v : Nat) : State :=
  if b + w ≤ 4096 then s.set .PKT_phv (putBits (s.get .PKT_phv 0 h) (4096 - b - w) w v) 0 h
  else if 4096 ≤ b ∧ b + w ≤ 5120 then s.setMeta h (b - 4096) w v
  else s

/-- Tenant of a packet (Table PARS-6). -/
def State.pktTenant (s : State) (h : Nat) : Nat := s.meta_ h 5 8

/-- Epoch of a packet (R161). -/
def State.pktEpoch (s : State) (h : Nat) : Nat := s.meta_ h 13 1

/-- in_port of a packet (Table PARS-6). -/
def State.pktInPort (s : State) (h : Nat) : Nat := s.meta_ h 0 5

/-- Metadata of a packet before anything is written but in_port and tenant: all 0 but in_unc16, 0xFFFF as in_dt64 is 0, and pat_set
(R124, R189, R245). -/
def freshMeta (inPort tenant : Nat) : Nat := inPort % 32 + tenant % 256 * 32 + 0xFFFF * 2 ^ 480 + 0xFF * 2 ^ 880

/-- Handle that the next packet takes. -/
def State.newHandle (s : State) : Nat := s.get .PKT_next

/-- A new packet of these bytes and metadata (R189). -/
def State.newPkt (s : State) (bytes : List Nat) (md : Nat) : State :=
  let h := s.newHandle
  (((s.set .PKT_live 1 0 h).set .PKT_meta md 0 h).lset .pktBytes bytes 0 h).set .PKT_next (h + 1)

/-- The packet joins the population of its epoch in region `n` (R165), counts as work that entered the region (R489), and will lie in its
packet buffer (R297). -/
def State.enterRegion (s : State) (h n : Nat) : State :=
  ((((s.set .PKT_region n 0 h).set .PKT_in_region 1 0 h).set .PKT_buf 1 0 h).addw .REG_pop 1 n (s.pktEpoch h)).addw .NRL_adm 1 n

/-- Packets that wait at the arbiter of region `n`, rising: those its parser has not taken (R36). -/
def State.arbWaits (s : State) (n : Nat) : List Nat :=
  ((s.keysOf .PKT_in_region).map (·.2)).filter (fun h => decide (s.get .PKT_region 0 h = n ∧ s.get .PKT_stage 0 h = 0))

/-- Tenant `t` has work waiting at a region arbiter, from now on unless it already had (R311). -/
def State.arbEnter (s : State) (t : Nat) : State :=
  if s.get .ARB_from 0 t = 0 then s.set .ARB_from (s.mono + 1) 0 t else s

/-- Tenant `t` may have no work left at the arbiter of region `n`, where its deficit is then 0, or at any (R36, R311). -/
def State.arbLeave (s : State) (n t : Nat) : State :=
  let has := fun (m : Nat) => (s.arbWaits m).any (fun h => decide (s.pktTenant h = t))
  let s := s.when (!has n) (·.set .ARB_def 0 n t)
  s.when (!(List.range 8).any has) (·.set .ARB_from 0 0 t)

/-- The span a packet was injected from is free again once the packet's data leaves the region (R416). -/
def State.freeSpan (s : State) (h : Nat) : State :=
  if s.get .PKT_span 0 h = 0 then s
  else ((s.set .SPAN_units 0 (s.get .PKT_region 0 h) (s.get .PKT_span 0 h - 1)).set .SPAN_fw 0 (s.get .PKT_region 0 h)
    (s.get .PKT_span 0 h - 1)).set .PKT_span 0 0 h

/-- The packet's data leaves its region's packet buffer (R297, R416). -/
def State.bufFree (s : State) (h : Nat) : State :=
  if s.get .PKT_buf 0 h = 0 then s else (s.freeSpan h).set .PKT_buf 0 0 h

/-- The packet leaves its region's population. While the region drains, `inflight` shows what is left of the draining
epoch (STR_REGION_STATE). -/
def State.leavePop (s : State) (h : Nat) : State :=
  if s.get .PKT_in_region 0 h = 0 then s
  else
    let n := s.get .PKT_region 0 h
    let e := s.pktEpoch h
    let s := (s.set .PKT_in_region 0 0 h).set .REG_pop (s.get .REG_pop n e - 1) n e
    let s := s.when (decide (s.get .REG_pop n 0 = 0 ∧ s.get .REG_pop n 1 = 0)) (·.set .REG_idle_at s.now n)
    let st := s.get .STR_REGION_STATE_state 0 n
    if (st = 2 ∨ st = 4) ∧ e ≠ s.get .STR_REGION_STATE_epoch 0 n then
      s.set .STR_REGION_STATE_inflight (min 0xFFFF (s.get .REG_pop n e)) 0 n
    else s

/-- The packet and its data leave its region. -/
def State.leaveRegion (s : State) (h : Nat) : State := (s.leavePop h).bufFree h

/-- The packet is gone from the device. -/
def State.freePkt (s : State) (h : Nat) : State :=
  let waits := decide (s.get .PKT_in_region 0 h = 1 ∧ s.get .PKT_stage 0 h = 0)
  let s := ((s.leaveRegion h).set .PKT_live 0 0 h).lset .pktBytes [] 0 h
  s.when waits (·.arbLeave (s.get .PKT_region 0 h) (s.pktTenant h))

/-- A timestamp tuple as one number, with unc16 0xFFFF where dt64 is 0 (Table TSTP-3). -/
def tupleOf (dt unc fl : Nat) : Nat := dt % 2 ^ 64 + (if dt % 2 ^ 64 = 0 then 0xFFFF else unc % 2 ^ 16) * 2 ^ 64 + fl * 2 ^ 80

/-- The timestamp tuple of a packet as one number, little-endian (Table TSTP-3): of its egress when it was sent. -/
def State.egressTuple (s : State) (h : Nat) : Nat :=
  tupleOf (s.get .PKT_dt64 0 h) (s.get .PKT_unc 0 h) (s.get .PKT_tsflags 0 h)

/-- The fate of a transmit descriptor's packet is final: its completion can be posted with `status` (R457), `detail` and
flags as given (Table RING-6). The first fate stands. -/
def State.txFate (s : State) (h status detail flags : Nat) : State :=
  if s.get .PKT_work 0 h = 0 then s
  else
    let w := s.get .PKT_work 0 h - 1
    if s.get .WRK_done 0 w = 1 then s
    else ((((s.set .WRK_done 1 0 w).set .WRK_status status 0 w).set .WRK_detail detail 0 w).set .WRK_flags flags 0 w).set
      .WRK_ts (s.egressTuple h) 0 w

/-- ts_op of a packet as it leaves: its metadata's, or its transmit descriptor's (R125). Where both are nonzero the spec does not say which
acts: here the metadata's (DESIGN CHOICE, log entry 157). -/
def State.tsOp (s : State) (h : Nat) : Nat :=
  if s.meta_ h 976 3 ≠ 0 ∨ s.get .PKT_work 0 h = 0 then s.meta_ h 976 3 else s.get .WRK_ts_op 0 (s.get .PKT_work 0 h - 1)

/-- Byte offset of its PTP header, from where ts_op comes from (R125). -/
def State.ptpOff (s : State) (h : Nat) : Nat :=
  if s.meta_ h 976 3 ≠ 0 ∨ s.get .PKT_work 0 h = 0 then s.meta_ h 979 9 else s.get .WRK_ptp_off 0 (s.get .PKT_work 0 h - 1)

/-- The packet was passed to a core queue, a host ring or an engine that consumes it (R457). -/
def State.txDiverted (s : State) (h : Nat) : State := s.txFate h 0 0 8

/-- The packet is dropped with a reason; a transmit descriptor's packet completes with `status` (R457). The detail of
a DROPPED completion is the DROP opcode's code; the spec gives no code for the device's own reasons (log entry 14). -/
def State.dropWith (s : State) (h reason status : Nat) : State :=
  let detail := if status = 0x19 then (if reason < 0x10000 then reason else s.freeVal 16) else 0
  let s := s.when (decide (status = 0x19 ∧ 0x10000 ≤ reason)) (·.drew)
  (((s.txFate h status detail 0).set .PKT_drop reason 0 h).addw .DROP_pkts 1 0 reason).freePkt h |>.set .PKT_disp 2 0 h

/-- Completion status of a transmitted frame dropped with this reason (Table RING-7). -/
def statusOf (reason : Nat) : Nat :=
  if reason = reasonLAUNCH_FAR then 0x10
  else if reason = reasonLAUNCH_LATE then 0x11
  else if reason = reasonUNDERRUN then 0x12
  else if reason = reasonNO_MATCH then 0x13
  else if reason = reasonPARSE_FAIL then 0x14
  else if reason = reasonTAIL ∨ reason = reasonBAD_QUEUE ∨ reason = reasonNO_QUEUE then 0x15
  else if reason = reasonLINK_DOWN then 0x16
  else if reason = reasonIMAGE_RELOAD then 0x17
  else if reason = reasonCIPHER_FAIL then 0x18
  else 0x19

/-- The packet is dropped with a reason; a transmit descriptor's packet completes with that reason's status (Table RING-7). -/
def State.dropPkt (s : State) (h reason : Nat) : State := s.dropWith h reason (statusOf reason)

/-- The launch frames that the gate holds for a port (R132, R134), oldest first. -/
def State.heldFrames (s : State) (d p : Nat) : List Nat := (s.lget .mac d p).filter (fun h => decide (s.get .PKT_gate 0 h = 1))

end Sys2Proof.Machine
end

