-- ==== Sys2Proof/Machine/TimeOps.lean ====
section
/-! DEFINITION. The timescale's shared operations: the uncertainty of DTS (R103 to R107), the discipline state, selection of
a reference, steps (R92), and the issue of amber records (R108 to R111). Phase and time differences are held in 2^-16 ns,
two's complement. -/

namespace Sys2Proof.Machine

/-- Discipline states (Table TIME-11). -/
def tsFREERUN : Nat := 0
/-- ACQUIRING. -/
def tsACQUIRING : Nat := 1
/-- LOCKED. -/
def tsLOCKED : Nat := 2
/-- HOLDOVER. -/
def tsHOLDOVER : Nat := 3
/-- FAULT. -/
def tsFAULT : Nat := 4

/-- A full timestamp as its 96 bits: fraction of a ns, ns and seconds (Table TIME-1, R76). -/
def fullTime (sec ns frac : Nat) : Nat := frac % 2 ^ 16 + ns % 2 ^ 32 * 2 ^ 16 + sec % 2 ^ 48 * 2 ^ 48

/-- DT64 of a full timestamp (R77). -/
def dt64Of (full : Nat) : Nat :=
  (full / 2 ^ 48 * 4000000000 + full / 2 ^ 16 % 2 ^ 32 * 4 + full % 2 ^ 16 / 16384) % 2 ^ 64

/-- The full timestamp of a DT64 of the first 146 years (R76, R77). -/
def fullOf (dt : Nat) : Nat := fullTime (dt / 4000000000) (dt % 4000000000 / 4) (dt % 4 * 16384)

/-- DTS as the device carries it in full (R76). -/
def State.fullDts (s : State) : Nat := fullOf s.now

/-- Numbers of the cryptographic primitives in `Config.crypto` and `Config.verifies` (log entry 4). -/
def algSha384 : Nat := 1
/-- ECDSA P-384 signature. -/
def algEcdsa : Nat := 2

/-- Whether the THROUGHPUT terms apply (R494). -/
def State.throughput (s : State) : Bool :=
  decide (s.get .NRL_wide = 1 ∨ (s.get .NRL_wide = 2 ∧ (s.get .NRL_settle = 0 ∨ s.now + 1 < s.get .NRL_settle + msUnits)))

/-- Replica alignment error in 0.25 ns units (R60, Table TSTP-2). -/
def State.alignErr (s : State) : Nat := if s.throughput then 12 else 8

/-- Port timestamp error of a port in 0.25 ns units (Table TSTP-2). -/
def State.portErr (s : State) (d p : Nat) : Nat :=
  if s.get .TSU_PORT_STATUS_cal_done d p = 0 then 32 else if s.throughput then 8 else 6

/-- An uncertainty in 2^-16 ns as UNC16: rounded up to 0.25 ns and saturated (R105). -/
def toUnc (u : Nat) : Nat := min 0xFFFF ((u + 16383) / 16384)

/-- Number of the reference selected, if one is. -/
def State.selected (s : State) : Option Nat :=
  if s.get .TS_STATUS_ref_sel < 8 then some (s.get .TS_STATUS_ref_sel) else none

/-- Whether the bound of the selected reference, or of the last one at its deselection, is not set (R106, R107). -/
def State.asymUnset (s : State) : Bool :=
  match s.selected with
  | some n => decide (s.get .TS_REF_CFG_asym_bound 0 n = 0xFFFF)
  | none => decide (s.get .U_asym_unset = 1)

/-- The conditions that force UNC16 to 0xFFFF (R81, R93, R106, R107). -/
def State.uncForced (s : State) : Bool :=
  decide (s.get .TS_STATUS_state = tsFAULT ∨ s.get .TS_STATUS_time_set = 0) || s.asymUnset

/-- Growth term of R103 in 2^-16 ns after `t` units of 0.25 ns, for Y + T = `yt` and A = `a` (10^-12, and per day), rounded up. -/
def uHoldAt (yt a t : Nat) : Nat :=
  let den := 2 * 86400 * 16 * 10 ^ 18 * 1000
  (65536 * (yt * t * (2 * 86400 * 4 * 10 ^ 9) + a * t * t) + den - 1) / den

/-- The qualified frequency reference that acts (R89). Of two, which acts the spec leaves open: here the better priority, FREQ_IN0 on a
tie (DESIGN CHOICE, log entry 156). -/
def State.freqRef (s : State) : Option Nat :=
  if s.get .TS_CTRL_servo_en = 0 then none
  else
    let q := fun n => decide (s.get .TS_REF_STATUS_qualified 0 n = 1 ∧ s.get .TS_REF_CFG_enable 0 n = 1)
    if q 6 && q 7 then
      (if s.get .TS_REF_CFG_priority 0 7 < s.get .TS_REF_CFG_priority 0 6 then some 7 else some 6)
    else if q 6 then some 6 else if q 7 then some 7 else none

/-- u_hold as the last whole ms of DTS gives it (R103, R104). -/
def State.holdTerm (s : State) : Nat :=
  let t := s.now / msUnits * msUnits - s.get .TIME_hold_from
  let learned := s.get .TS_LEARN_learn_valid = 1
  if s.get .TIME_hold_mode = 0 then 0
  else match s.freqRef with
    | some n => uHoldAt (s.get .TS_REF_CFG_asym_bound 0 n) 0 t
    | none =>
      if s.get .TIME_hold_mode = 1 then
        uHoldAt (s.get .TS_HOLD_MODEL0_y0_ppt + s.get .TS_HOLD_MODEL0_temp_ppt)
          (if learned then s.get .TS_HOLD_MODEL1_age_resid_ppt else s.get .TS_HOLD_MODEL1_age_max_ppt) t
      else uHoldAt (s.get .TS_HOLD_MODEL1_freerun_ppb * 1000) (s.get .TS_HOLD_MODEL1_age_max_ppt) t

/-- U_DTS in 2^-16 ns (Table TIME-8). -/
def State.uDts (s : State) : Nat :=
  s.get .U_meas + s.get .U_servo + s.get .U_asym + s.get .U_slew + s.holdTerm + s.get .U_base

/-- UNC16 of a DT64 with local term `l` in 0.25 ns units; the sum is taken before rounding (R105, R107). -/
def State.uncOf (s : State) (l : Nat) : Nat :=
  if s.uncForced then 0xFFFF else toUnc (s.uDts + l * 16384)

/-- UNC16 of DTS, as TS_STATUS shows it. -/
def State.publishUnc (s : State) : State := s.set .TS_STATUS_unc16 (s.uncOf 0)

/-- U_DTS recomputed in HOLDOVER or FREERUN, as every 1 ms (R104). -/
def State.growHold (s : State) : State := (s.set .U_hold s.holdTerm).publishUnc

/-- Integer square root rounded up, by `k` halvings. -/
def sqrtUp : Nat → Nat → Nat → Nat
  | 0, _, r => r
  | k + 1, n, r => if (r + 2 ^ k) * (r + 2 ^ k) < n then sqrtUp k n (r + 2 ^ k) else sqrtUp k n r

/-- The least r with r² at least n, for n below 2^160. -/
def rootUp (n : Nat) : Nat := if n = 0 then 0 else sqrtUp 80 n 0 + 1

/-- Three times the RMS of the residuals, in 2^-16 ns, rounded up (R96). -/
def threeRms (l : List Nat) : Nat :=
  let sq := l.foldl (fun a r => a + (sgn 64 r).natAbs * (sgn 64 r).natAbs) 0
  if l.length = 0 then 0 else rootUp ((9 * sq + l.length - 1) / l.length)

/-- Slew limit in force (TS_SERVO_LIM). A value outside the stated 1 to 200 acts as the nearest of them (DESIGN CHOICE, log entry 156). -/
def State.slewPpm (s : State) : Nat := max 1 (min 200 (s.get .TS_SERVO_LIM_slew_ppm))

/-- The part of the slewed offset not yet applied at the present DTS: no less than slew_ppm leaves since the last look at it, no more than it
was then; the spec gives no more (R88; log entry 11). -/
def State.slewGo (s : State) : State :=
  let u := s.get .U_slew
  let lo := u - (s.now - s.get .TIME_slew_at) * 16384 * s.slewPpm / 1000000
  let s := s.set .TIME_slew_at s.now
  if lo = u then s else s.drew.set .U_slew (lo + s.freeVal 64 % (u - lo + 1))

/-- The terms that follow the selected reference while LOCKED or ACQUIRING, recomputed (Table TIME-8). -/
def State.trackUnc (s : State) : State :=
  let s := s.slewGo
  let n := s.get .TS_STATUS_ref_sel
  let ab := s.get .TS_REF_CFG_asym_bound 0 n
  let r := threeRms (s.lget .residuals)
  let u := if s.get .TS_STATUS_state = tsACQUIRING then max r (sgn 64 (s.get .TIME_offset)).natAbs else r
  let port := s.get .TS_PTP_CFG_port 0 n
  let um := if n < 4 then (s.portErr (port / 8) (port % 8) + s.alignErr) * 16384 else 32768
  (((((s.set .U_meas um).set .U_servo u).set .U_asym (ab * 16384)).set .U_asym_unset (b2n (ab = 0xFFFF))).set .U_hold 0).publishUnc

/-- Bytes padded with zeros, or cut, to `n`. -/
def fixLen (n : Nat) (l : List Nat) : List Nat := (l ++ List.replicate n 0).take n

/-- Bit list of the qualified references (Table TIME-9). -/
def State.refQual (s : State) : Nat :=
  (List.range 8).foldl (fun a n => a + s.get .TS_REF_STATUS_qualified 0 n * 2 ^ n) 0

/-- Saturation of a signed number to 64 bits. -/
def sat64 (z : Int) : Int := max (-(2 ^ 63)) (min (2 ^ 63 - 1) z)

/-- Whether a timestamp taken now is marked stepped (R92). -/
def State.stepMark (s : State) : Bool := decide (s.get .TIME_stepped = 1 ∧ s.now ≤ s.get .TIME_step_at + msUnits)

/-- Bytes 0 to 159 of an amber record with issue_dt64 `dt` (Table TIME-9). -/
def State.amberBody (s : State) (kind seq : Nat) (off : Int) (dt : Nat) : List Nat :=
  let n := s.get .TS_STATUS_ref_sel
  let ptp := n < 4
  let fl := s.get .AMBER_coal + 2 * b2n s.stepMark +
    4 * b2n s.asymUnset + 8 * s.get .TS_STATUS_time_set
  let free := s.get .TS_STATUS_state = tsFREERUN ∨ s.get .TS_STATUS_state = tsHOLDOVER
  leBytes 2 1 ++ [kind, s.get .TS_STATUS_state] ++ leBytes 4 seq ++ leBytes 8 dt ++ leBytes 8 (unsgn 64 (sat64 off)) ++
  leBytes 2 (s.uncOf 0) ++ [n, s.refQual] ++ leBytes 2 (if ptp then s.get .REF_steps 0 n else 0) ++
  [if ptp then s.get .TS_PTP_CFG_domain 0 n else 0,
   s.get .TS_OSC_CFG_mode + 2 * s.get .TS_STATUS_osc_lost + 4 * s.get .TS_LEARN_learn_valid] ++
  beBytes 8 (if ptp then s.get .REF_gm 0 n else 0) ++ fixLen 48 (s.lget .chainDigest) ++
  leBytes 4 (s.get .TIME_freq) ++ leBytes 4 (unsgn 32 (sgn 24 (s.get .TS_LEARN_age_rate))) ++
  leBytes 4 (if free then (s.mono - s.get .TIME_lost_at) / secUnits else 0) ++
  leBytes 4 (if s.get .TS_OSC_CFG_mode = 1 then s.get .TIME_dac else 0) ++
  (List.range 8).flatMap (fun r => leBytes 2 (s.get .AGE_REGION_index 0 r)) ++
  leBytes 4 (s.get .BOOT_COUNT) ++ leBytes 4 fl ++ fixLen 32 (s.lget .amberPrev)

/-- The offset field of a record that is not STEP: the estimate to the selected reference. -/
def State.offEst (s : State) : Int := sgn 64 (s.get .TIME_offset)

/-- An amber record of kind `k` with offset field `off` and issue_dt64 `dt` is signed and handed to the time ring and the log (R110 to
R112). -/
def State.amberPut (s : State) (k : Nat) (off : Int) (dt : Nat) : State :=
  let seq := s.get .AMBER_next
  let body := s.amberBody k seq off dt
  let rec_ := body ++ fixLen 96 (Config.crypto algEcdsa [s.lget .attestKey, body])
  let s := s.lset .amber rec_ 0 seq
  let s := (s.lpush .amberToRing seq).lpush .amberToLog seq
  let s := s.lset .amberPrev (fixLen 32 (Config.crypto algSha384 [rec_]))
  ((s.set .TS_AMBER_SEQ seq).set .AMBER_next (seq + 1)).set .AMBER_coal 0

/-- Every boundary up to second `n` that counter A reached by running and that has no PERIODIC record yet gets it (R108). None is
issued before the attestation key exists (R521). -/
def State.secondsDue (s : State) (n : Nat) : State :=
  let b := s.get .AMBER_due
  (s.when (decide (s.get .ATT_on = 1)) (fun s =>
    s.each (List.range (n - b)) (fun j s => s.amberPut 4 s.offEst ((b + 1 + j) * secUnits)))).set .AMBER_due (max b n)

/-- A second label that has begun has no record yet (R109). -/
def State.newLabel (s : State) : State :=
  if s.get .AMBER_label = s.now / secUnits then s
  else (s.set .AMBER_nonper 0).set .AMBER_label (s.now / secUnits)

/-- A non-periodic record of kind `k` with offset field `off` is issued, or, past 16 of the second label, left to the coalesced
mark of the next one (R108 to R111). None is issued before the attestation key exists (R521). The PERIODIC records of boundaries
before this instant come first. -/
def State.issueAmber (s : State) (k : Nat) (off : Int) : State :=
  if s.get .ATT_on = 0 then s
  else
    let s := (s.secondsDue ((s.now - 1) / secUnits)).newLabel
    if 16 ≤ s.get .AMBER_nonper then s.set .AMBER_coal 1
    else (s.amberPut k off s.now).addw .AMBER_nonper 1

/-- The host time page of endpoint `e` rewritten under its generation count, with the pair of PTM left as it is while
ptm_valid (R137, Table TSTP-8). -/
def State.pageUpdate (s : State) (e : Nat) (dt unc ptm : Nat) : State :=
  let fl := s.get .TS_STATUS_time_set + 2 * s.get .TSU_PTM_STATUS_ptm_valid e +
    4 * b2n s.stepMark + 8 * b2n (s.get .TS_STATUS_state = tsFAULT)
  let utc := s.get .TS_UTC_OFFSET_utc_offset + 65536 * s.get .TS_UTC_OFFSET_valid + 131072 * s.get .TS_UTC_OFFSET_leap61 +
    262144 * s.get .TS_UTC_OFFSET_leap59
  let v := s.get .TSU_PTM_STATUS_ptm_valid e = 1
  ((((((((((((s.addw .PAGE_gen 1 e).set .PAGE_state (s.get .TS_STATUS_state) e).set .PAGE_flags fl e).set .PAGE_dt64 dt e)
    |>.set .PAGE_unc unc e).set .PAGE_rate_unc (s.get .PTM_rate_unc e) e).set .PAGE_rate (s.get .PTM_rate e) e)
    |>.set .PAGE_ptm (if v then ptm else 0) e).set .PAGE_ptm_unc (if s.uncForced then 0xFFFF else s.get .PTM_unc e) e)
    |>.set .PAGE_ptm_count (s.get .PTM_count e) e).set .PAGE_amber (s.get .TS_AMBER_SEQ) e).set .PAGE_utc utc e).addw .PAGE_gen 1 e

/-- DT64 of the CK_TS replica on die `d`: counter A's, or, while it holds after running ahead of counter A, the value it holds; while
it is absent, what the die's own counter has reached at the nominal rate of its CK_REF since (R60, R82; log entry 38). -/
def State.repNow (s : State) (d : Nat) : Nat :=
  if s.get .REP_apart 0 d = 1 then (s.get .REP_dt64 0 d + Config.nominalGain d (s.get .REP_from 0 d) s.now) % 2 ^ 64
  else max s.now (s.get .REP_dt64 0 d)

/-- The CK_TS replica of die `d` is lost: its counter runs on by itself (R82). -/
def State.repLost (s : State) (d : Nat) : State :=
  ((s.set .REP_dt64 (s.repNow d) 0 d).set .REP_from s.now 0 d).set .REP_apart 1 0 d

/-- UNC16 of a DT64 taken from the replica of die `d`, with `l` more local error; 0xFFFF while it runs apart (R82, R105). -/
def State.repUnc (s : State) (d l : Nat) : Nat :=
  if s.get .REP_apart 0 d = 1 ∨ s.now < s.get .REP_dt64 0 d then 0xFFFF else s.uncOf (s.alignErr + l)

/-- The page of endpoint `e` taken anew: a snapshot of its replica, or, with ptm_valid, the last pair (R137). -/
def State.pageNow (s : State) (e : Nat) : State :=
  if s.get .TSU_PTM_STATUS_ptm_valid e = 1 then
    s.pageUpdate e (s.get .PAGE_dt64 e) (if s.uncForced then 0xFFFF else s.get .PAGE_unc e) (s.get .PAGE_ptm e)
  else s.pageUpdate e (s.repNow (2 + e)) (s.repUnc (2 + e) 0) 0

/-- Both pages after a state change or a step (R137). -/
def State.pagesNow (s : State) : State := (s.pageNow 0).pageNow 1

/-- The records and pages that follow a change from `s0` to `s`, in the order of kind codes (R108): STATE_CHANGE, STEP of
size `step`, REFERENCE_CHANGE. -/
def State.evidence (s s0 : State) (step : Option Int) : State :=
  let st := s0.get .TS_STATUS_state ≠ s.get .TS_STATUS_state
  let s1 := s.when st (fun s => s.issueAmber 1 s.offEst)
  let s2 := match step with | some d => s1.issueAmber 2 d | none => s1
  let s3 := s2.when (decide (s0.selected ≠ s.selected)) (fun s => s.issueAmber 3 s.offEst)
  s3.when (decide (st ∨ step.isSome)) (·.pagesNow)

/-- Entry to a discipline state. ACQUIRING and FAULT discard the ageing samples and the predicted frequency (R101); ACQUIRING starts
its lock test afresh; LOCKED starts learning. -/
def State.enterDisc (s : State) (st : Nat) : State :=
  let s := s.set .TS_STATUS_state st
  if st = tsACQUIRING ∨ st = tsFAULT then
    ((((((s.lset .learnSamples []).set .TS_LEARN_learn_valid 0).set .TS_LEARN_age_rate 0).set .TS_LEARN_hours 0).set .TIME_pred_on 0).set
      .TIME_lock_run 0).set .TIME_far3 0
  else if st = tsLOCKED then (s.set .TIME_locked_since s.now).lset .freqWindow [s.now * 2 ^ 64 + s.get .TIME_freq]
  else s

/-- Die on which a hart runs (Table CORE-1). -/
def hartDie (h : Nat) : Nat := if h < 48 then 4 + h / 6 / 2 else 0

/-- The time CSR of hart `h`: its die's replica, never less than what it read before (R71). -/
def State.coreTime (s : State) (h : Nat) : Nat := max (s.get .CORE_time 0 h) (s.repNow (hartDie h))

/-- The timer interrupt of compare value `k` of hart `h` is pending while time has reached it (R408). -/
def State.timerTest (s : State) (h k : Nat) : State := s.set .CORE_tip (b2n (decide (s.get .CORE_cmp h k ≤ s.coreTime h))) h k

/-- Compare values of the cores against the present time (R408). -/
def State.timersDue (s : State) : State :=
  s.each (s.keysOf .CORE_cmp_set) (fun k s => if s.get .CORE_cmp_set k.1 k.2 = 1 then s.timerTest k.1 k.2 else s)

/-- A step of DTS to `t`: both counters and every replica move together (R92), one that holds ahead of counter A keeping its lead and an
absent one, without CK_TS, its own count (log entry 38). The step is remembered for the stepped mark, begins no label and skips the
boundaries it passes (R108, R109), leaves a PPS pulse its width (R145), and compare values passed raise their interrupts (R408). A
frame the launch gate holds stays held against the new time (R135). -/
def State.stepTo (s : State) (t : Nat) : State :=
  let d := (Int.ofNat (t % 2 ^ 64)) - Int.ofNat s.now
  let move := fun (v : Nat) => unsgn 64 (Int.ofNat v + d)
  let s := (s.secondsDue (s.now / secUnits)).newLabel
  let s := (s.set .AMBER_label (t % 2 ^ 64 / secUnits)).set .AMBER_due (t % 2 ^ 64 / secUnits)
  let s := s.set .TS_B (move (s.get .TS_B))
  let s := s.each (s.keysOf .REP_dt64) (fun k s =>
    if s.get .REP_apart 0 k.2 = 1 then s
    else s.set .REP_dt64 (if s.now < s.get .REP_dt64 0 k.2 then move (s.get .REP_dt64 0 k.2) else 0) 0 k.2)
  let s := s.each [0, 1] (fun k s => s.when (decide (s.get .PPS_high 0 k = 1)) (·.set .PPS_end (move (s.get .PPS_end 0 k)) 0 k))
  ((((s.set .TS_NOW t).set .TIME_stepped 1).set .TIME_step_at t).set .TIME_steps
    (unsgn 64 (sgn 64 (s.get .TIME_steps) + d))).timersDue

/-- Size of a step as the STEP record gives it: new DTS minus old, in 2^-16 ns (R92). -/
def stepSize (old new : Nat) : Int := (Int.ofNat (new % 2 ^ 64) - Int.ofNat old) * 16384

/-- DTS after a servo step that removes offset `off` (DTS minus reference, 2^-16 ns). -/
def State.stepTarget (s : State) (off : Int) : Nat := unsgn 64 (Int.ofNat s.now - off.fdiv 16384)

/-- The qualified, enabled time reference of lowest priority value, the lower number on a tie, other than `x` (R87). -/
def State.bestRef (s : State) (x : Nat) : Option Nat :=
  (List.range 6).foldl (fun b n =>
    if n ≠ x ∧ s.get .TS_REF_STATUS_qualified 0 n = 1 ∧ s.get .TS_REF_CFG_enable 0 n = 1 then
      match b with
      | none => some n
      | some m => if s.get .TS_REF_CFG_priority 0 n < s.get .TS_REF_CFG_priority 0 m then some n else b
    else b) none

/-- TS_UTC_OFFSET shows `u`: the UTC offset and the flags of a PTP reference (R79). -/
def State.utcShow (s : State) (u : Nat) : State :=
  (((s.set .TS_UTC_OFFSET_utc_offset u).set .TS_UTC_OFFSET_valid (u / 65536)).set .TS_UTC_OFFSET_leap61 (u / 131072)).set
    .TS_UTC_OFFSET_leap59 (u / 262144)

/-- Reference `n` becomes the selected one, with its last valid measurement as the offset (R87, Table TIME-8, R79). The loop goes on from
the frequency in force (log entry 11); its prediction of the first measurement is a value the spec does not give (R86). -/
def State.selectRef (s : State) (n : Nat) : State :=
  let s := ((s.set .TS_STATUS_ref_sel n).set .TIME_sw_set 0).set .TIME_offset (s.get .REF_last 0 n)
  let s := (((s.set .U_base 0).set .TIME_hold_mode 0).set .TS_STATUS_time_set 1).set .TIME_after_hold 0
  let s := s.utcShow (if n < 4 then s.get .REF_utc 0 n else 0)
  let s := (s.set .TIME_integ (unsgn 64 (sat64 (-(sgn 64 (s.get .TIME_freq)) * 2 ^ 32)))).set .TIME_pred (s.freeVal 64)
  (s.drew.set .TIME_lock_run 0).set .TIME_far3 0

/-- A slew of offset `off` starts: all of it is still to be applied (R88). -/
def State.startSlew (s : State) (off : Int) : State :=
  ((s.set .TIME_slew_off (unsgn 64 off)).set .U_slew off.natAbs).set .TIME_slew_at s.now

/-- Lock threshold in 2^-16 ns. -/
def State.lockNs (s : State) : Nat := s.get .TS_SERVO_CFG_lock_ns * 65536

/-- FAULT: UNC16 becomes 0xFFFF everywhere and the error is reported (R81, R82). No row leaves FAULT but fault_resolve. -/
def State.timeFault (s : State) : State :=
  if s.get .TS_STATUS_state = tsFAULT then s
  else (((s.set .TIME_fault_at s.mono).enterDisc tsFAULT).publishUnc).report1
    { src := 0x19, cls := .contained, die := 1, region := 11 }

/-- Selection on a time reference qualifying in FREERUN or HOLDOVER: step when the offset lies beyond step_us, else slew;
acquisition bandwidth; ACQUIRING (Table TIME-5). The step size, if any, comes with it. A step that cannot be applied to both counters
at the same edge (`both` false) takes the device to FAULT in its place (R82); DTS is left where it was (DESIGN CHOICE, log entry 154). -/
def State.acquire (s : State) (n : Nat) (both : Bool) : State × Option Int :=
  let off := sgn 64 (s.get .REF_last 0 n)
  if s.get .TS_SERVO_LIM_step_us * 1000 * 65536 < off.natAbs ∧ both = false then (s.timeFault, none) else
  let s1 := ((s.selectRef n).enterDisc tsACQUIRING).set .TIME_bw (s.get .TS_SERVO_CFG_acq_bw)
  if s.get .TS_SERVO_LIM_step_us * 1000 * 65536 < off.natAbs then
    let t := s.stepTarget off
    ((((s1.stepTo t).set .U_slew 0).set .TIME_offset 0).set .REF_last 0 0 n |>.trackUnc, some (stepSize s.now t))
  else ((s1.startSlew off).trackUnc, none)

/-- No reference is selected: its asymmetry bound is kept as it stands (Table TIME-8), ref_sel shows whether software set DTS last (Table TIME-9), and slewing ends. -/
def State.deselect (s : State) : State :=
  let s := match s.selected with
    | some n => ((s.set .U_asym (s.get .TS_REF_CFG_asym_bound 0 n * 16384)).set .U_asym_unset
        (b2n (s.get .TS_REF_CFG_asym_bound 0 n = 0xFFFF))).set .TIME_lost_at s.mono
    | none => s
  ((s.set .TS_STATUS_ref_sel (if s.get .TIME_sw_set = 1 then 0xE else 0xF)).set .U_slew 0).utcShow 0

/-- u_hold starts at 0 under model `m`, t counting from `t0` (R103). -/
def State.startHold (s : State) (m t0 : Nat) : State :=
  ((s.set .TIME_hold_mode m).set .TIME_hold_from t0).growHold

/-- The corrections, newest first, each kept below the DT64 from which it was in force, that were in force after `start`. -/
def freqSince (start : Nat) : List Nat → List Nat
  | [] => []
  | v :: r => if v / 2 ^ 64 ≤ start then [v] else v :: freqSince start r

/-- Sum of the corrections in force from `start` to `upto`, each times its duration, and the DT64 from which one was in force. -/
def freqSum (start : Nat) : Nat → List Nat → Int × Nat
  | upto, [] => (0, upto)
  | upto, v :: r =>
    let t := max start (v / 2 ^ 64)
    let (z, t0) := freqSum start t r
    (sgn 64 (v % 2 ^ 64) * Int.ofNat (upto - t) + z, t0)

/-- Mean of the correction over the last 600 s of LOCKED (R102); the correction in force where LOCKED has only begun. -/
def State.meanFreq (s : State) : Int :=
  let (z, t0) := freqSum (s.now - 600 * secUnits) s.now (s.lget .freqWindow)
  if s.now ≤ t0 then sgn 64 (s.get .TIME_freq) else z.fdiv (Int.ofNat (s.now - t0))

/-- Limit of the frequency correction in 10^-12 (R95, R97). -/
def State.freqLimit (s : State) : Nat :=
  if s.get .TS_OSC_CFG_mode = 1 then (max 400 (s.get .TS_OSC_CFG_dac_span_ppb)) * 500 else 200000000

/-- The DAC code of correction `f` (10^-12), inverted as dac_invert says (R97). Of a correction between two codes the spec gives no
rounding: the lower code (DESIGN CHOICE, log entry 156). -/
def State.dacCode (s : State) (f : Int) : Nat :=
  let g := if s.get .TS_OSC_CFG_dac_invert = 1 then -f else f
  let c := 2 ^ 19 + (g * 2 ^ 20).fdiv (Int.ofNat (max 400 (s.get .TS_OSC_CFG_dac_span_ppb) * 1000))
  (max 0 (min (2 ^ 20 - 1) c)).toNat

/-- The 24-bit frame to the OCXO DAC: command 0b0011, then the code (R98). -/
def State.dacFrame (s : State) (code : Nat) : State :=
  ((s.set .TIME_dac code).set .TIME_dac_at s.now).when (decide (s.get .PWR_fail = 0)) (·.emit .dac [0x300000 + code % 2 ^ 20])

/-- A frequency correction comes into force, limited, and steers the DAC in EXT_OCXO (R95, R97, R98). -/
def State.steer (s : State) (f : Int) : State :=
  let l := Int.ofNat s.freqLimit
  let g := max (-l) (min l f)
  let s := (s.set .TIME_freq (unsgn 64 g)).set .TS_STATUS_freq_limit (b2n (decide (g = l ∨ g = -l)))
  s.when (decide (s.get .TS_OSC_CFG_mode = 1)) (fun s => s.dacFrame (s.dacCode g))

/-- The predicted frequency takes over, and f0 is applied (R102). -/
def State.predictFreq (s : State) : State :=
  (((s.set .TIME_f0 (unsgn 64 s.meanFreq)).set .TIME_pred_on 1).set .TIME_pred_from s.now).steer s.meanFreq

/-- The selected reference is lost and none other is qualified (Table TIME-5): LOCKED enters HOLDOVER, ACQUIRING FREERUN. -/
def State.loseRef (s : State) : State :=
  if s.get .TS_STATUS_state = tsLOCKED then
    (s.deselect.predictFreq.enterDisc tsHOLDOVER).startHold 1 s.now
  else if s.get .TS_STATUS_state = tsACQUIRING then
    (s.deselect.enterDisc tsFREERUN).startHold 2 s.now
  else s

/-- A switch to another qualified reference: LOCKED slews and stays LOCKED when the offset is within lock_ns; ACQUIRING
selects it (Table TIME-5, R88). -/
def State.switchRef (s : State) (n : Nat) : State :=
  let off := sgn 64 (s.get .REF_last 0 n)
  if s.get .TS_STATUS_state = tsLOCKED then
    let s := (s.selectRef n).startSlew off
    if off.natAbs ≤ s.lockNs then s.trackUnc
    else ((s.enterDisc tsACQUIRING).set .TIME_bw (s.get .TS_SERVO_CFG_acq_bw)).trackUnc
  else if s.get .TS_STATUS_state = tsACQUIRING then (s.selectRef n).trackUnc
  else s

/-- Reference `n` is disqualified (R86); when it is the selected one, the table's next row applies (Table TIME-5). -/
def State.disqualify (s : State) (n : Nat) : State :=
  let sel := s.get .TS_STATUS_ref_sel = n
  let s := ((((s.set .TS_REF_STATUS_qualified 0 0 n).set .REF_hist 0 0 n).set .REF_run 0 0 n).set .REF_out 0 0 n).set .REF_miss 0 0 n
  if sel then
    match s.bestRef n with
    | some m => s.switchRef m
    | none => s.loseRef
  else s

end Sys2Proof.Machine
end

