-- ==== Sys2Proof/Machine/RingOps.lean ====
section
/-! DEFINITION. Shared operations of the rings (spec file 17) and of the requests the device sends to a host (spec file 16):
tags of reads, entries of completion and event rings, interrupts and their moderation, ring state changes. -/

namespace Sys2Proof.Machine

/-- Tags an endpoint may use: 14-bit ones by PF0's Device 3 capability, else 10-bit ones by the function's PF, else 8-bit ones
(Table HOST-1, Table HOST-3; log entry 72). -/
def State.tagCount (s : State) (e f : Nat) : Nat :=
  if s.getb .FN_devctl3 2 e 0 then 16384 else if s.get .FN_tag10 e (s.pfOf e f) = 1 then 1024 else 256

/-- The lowest free tag of endpoint `e` for function `f`, if any. -/
def State.freeTag (s : State) (e f : Nat) : Option Nat :=
  let used := (s.keysOf .TAG_state).filterMap (fun p => if p.1 = e then some p.2 else none)
  (List.range (s.tagCount e f)).find? (fun t => !used.contains t)

/-- A read request of `len` bytes at `a` for function `f`, on behalf of the operation `kind`, `x`, `y`. Without a free tag or
while the function may not issue requests it waits (R434, R436). `pasid` is PASID + 1, 0 none. -/
def State.readReqP (s : State) (e f a len kind x y pasid : Nat) : State :=
  match (if s.mayIssue e f then s.freeTag e f else none) with
  | some t =>
    ((((((((s.set .TAG_state 1 e t).set .TAG_fn f e t).set .TAG_kind kind e t).set .TAG_a x e t).set .TAG_b y e t).set
      .TAG_len len e t).set .TAG_at s.now e t).set .TAG_flush 0 e t).lset .tagData [] e t
      |>.emit .hostRead [e, f, a, len, t, pasid]
  | none => s.lset .readWait (s.lget .readWait e ++ [f, a, len, kind, x, y, pasid]) e

/-- A read request without a PASID. -/
def State.readReq (s : State) (e f a len kind x y : Nat) : State := s.readReqP e f a len kind x y 0

/-- One pass over the waiting requests `l`: those that can be issued now are, the others wait on. -/
def State.readPass (s : State) (e : Nat) : List Nat → State
  | f :: a :: len :: kind :: x :: y :: p :: r => (s.readReqP e f a len kind x y p).readPass e r
  | _ => s

/-- Waiting requests that are not of function `f`. -/
def waitOthers (f : Nat) : List Nat → List Nat
  | g :: a :: len :: kind :: x :: y :: p :: r => if g = f then waitOthers f r else g :: a :: len :: kind :: x :: y :: p :: waitOthers f r
  | _ => []

/-- Operations (kind, x, y) of the waiting requests of function `f`. -/
def waitOps (f : Nat) : List Nat → List (Nat × Nat × Nat)
  | g :: _ :: _ :: kind :: x :: y :: _ :: r => if g = f then (kind, x, y) :: waitOps f r else waitOps f r
  | _ => []

/-- An address translation invalidation of function `f` is completed once no request of the function that may use a translated
address waits (R352). Message: endpoint, function, 3, number of invalidations completed. -/
def State.atsInvDone (s : State) (e f : Nat) : State :=
  if s.get .ATS_inv e f ≠ 0 ∧ waitOps f (s.lget .readWait e) = [] then
    (s.emit .pcieMsg [e, f, 3, s.get .ATS_inv e f, 0]).set .ATS_inv 0 e f
  else s

/-- The requests that waited are issued as far as tags and bus mastering allow, in their order (R434). -/
def State.readDrain (s : State) (e : Nat) : State :=
  let s := (s.lset .readWait [] e).readPass e (s.lget .readWait e)
  s.each (s.keysOf .ATS_inv) (fun k s => if k.1 = e then s.atsInvDone e k.2 else s)

/-- Difference of two 17-bit counts (R445). -/
def cnt17 (a b : Nat) : Nat := (a + 0x20000 - b % 0x20000) % 0x20000

/-- log2 of a ring's entries (RNG_RING). -/
def State.ringLog (s : State) (e r : Nat) : Nat :=
  let l := s.get .RNG_RING_log2_size e r
  if 4 ≤ l ∧ l ≤ 16 then l else 4

/-- Entries of a ring. -/
def State.ringSize (s : State) (e r : Nat) : Nat := 2 ^ s.ringLog e r

/-- Entries a device-written ring holds: prod − cons. -/
def State.ringHeld (s : State) (e r : Nat) : Nat := cnt17 (s.get .RNG_RING_head e r) (s.get .RNG_RING_tail e r)

/-- PASID + 1 of a ring, 0 without (R445). -/
def State.ringPasid (s : State) (e r : Nat) : Nat :=
  if s.get .RNG_RING_pasid_en e r = 1 then s.get .RNG_RING_pasid e r + 1 else 0

/-- Local index of ring `r` within its function. -/
def State.ringLocal (s : State) (e f r : Nat) : Nat := r - s.get .RNG_FN_MAP_ring_base e f

/-- Ring that local index `j` of function `f` names, if it lies in the function's range (R446). -/
def State.ringOf (s : State) (e f j : Nat) : Option Nat :=
  if j < s.get .RNG_FN_MAP_ring_count e f then some (s.get .RNG_FN_MAP_ring_base e f + j) else none

/-- CPL ring of work ring `r` (its cq), if within its function's range. -/
def State.ringCq (s : State) (e r : Nat) : Option Nat :=
  (s.ringFn e r).bind (fun f => s.ringOf e f (s.get .RNG_RING_cq e r))

/-- MSI-X vectors of function `f` (Table HOST-4). -/
def State.vecCount (s : State) (e f : Nat) : Nat :=
  if f = 0 ∨ f = 3 ∧ s.get .PCI_EP_CFG_pf3_present e = 1 then 2048
  else if f = 2 then 256
  else if f = 1 then 65
  else if f < 517 then 64
  else 65

/-- The interrupt of a CPL or EVT ring is sent when it is due (R462): armed, and enough entries or enough time. A vector
beyond the function's count sends nothing and sets cfg_err. -/
def State.ringIrq (s : State) (e f r : Nat) : State :=
  let n := s.get .RNG_irq_cnt e r
  let c := bitsOf (s.get .RNG_RING_cfg10 e r) 22 9
  let t := s.get .RNG_RING_mod_time e r
  if s.get .RNG_RING_armed e r = 1 ∧ 0 < n ∧
      (max 1 c ≤ n ∨ (t ≠ 0 ∧ s.get .RNG_irq_at e r + t * 1024 ≤ s.now)) then
    let v := bitsOf (s.get .RNG_RING_cfg10 e r) 0 12
    if v < s.vecCount e f then ((s.msix e f v).set .RNG_RING_armed 0 e r).set .RNG_irq_cnt 0 e r
    else s.set .RNG_RING_cfg_err 1 e r
  else s

/-- Phase bit of the entry at count `p` (R456). -/
def State.phase (s : State) (e r : Nat) : Nat := 1 - s.get .RNG_RING_head e r / s.ringSize e r % 2

/-- An entry of a CPL or EVT ring is written at prod and prod advances; the interrupt follows (R456, R462). -/
def State.entryPut (s : State) (e f r : Nat) (bytes : List Nat) : State :=
  let p := s.get .RNG_RING_head e r
  let s := s.hostWriteP e f (s.get .RNG_RING_base e r + p % s.ringSize e r * 64) (s.ringPasid e r) bytes
  let s := s.set .RNG_RING_head (p + 1) e r
  let s := s.when (decide (s.get .RNG_irq_cnt e r = 0)) (fun s => s.set .RNG_irq_at s.now e r)
  (s.addw .RNG_irq_cnt 1 e r).ringIrq e f r

/-- An event record is posted to the function's event ring, or counted in evt_drops when that is full or absent (R458,
Table RING-8). -/
def State.evtPost (s : State) (e f source kind object detail : Nat) : State :=
  match (if s.get .RNG_FN_EVT_enable e f = 1 then s.ringOf e f (s.get .RNG_FN_EVT_ring e f) else none) with
  | some r =>
    if s.get .RNG_RING_kind e r = 5 ∧ s.get .RNG_RING_state e r = 1 ∧ s.ringHeld e r < s.ringSize e r then
      s.entryPut e f r ([source, kind, s.phase e r, 0] ++ leBytes 4 object ++ leBytes 8 s.now ++ leBytes 4 detail ++
        List.replicate 44 0)
    else s.bump .RNG_FN_STAT_evt_drops e f
  | none => s.bump .RNG_FN_STAT_evt_drops e f

/-- A completion that cannot be written is counted (Table RING-9). -/
def State.cplLost (s : State) (e c : Nat) : State := (s.bump .RNG_STAT_cpl_lost e).bump .RNG_RING_drops e c

/-- The reservation of work `w` in CPL ring `c` ends. -/
def State.unreserve (s : State) (e c w : Nat) : State :=
  if s.get .WRK_resv 0 w = 0 then s
  else (s.set .WRK_resv 0 0 w).set .RNG_resv (s.get .RNG_resv e c - 1) e c

/-- Work `w` takes a reservation in CPL ring `c` (R461). -/
def State.reserve (s : State) (e c w : Nat) : State := (s.set .WRK_resv 1 0 w).addw .RNG_resv 1 e c

/-- Whether CPL ring `c` has a free reservation (R461). -/
def State.cqFree (s : State) (e c : Nat) : Bool :=
  decide (s.get .RNG_resv e c + s.ringHeld e c < s.ringSize e c + 16)

/-- The 64 bytes of a completion entry (Table RING-6). -/
def State.cplBytes (s : State) (e f c w : Nat) : List Nat :=
  let ts := if s.get .WRK_now_ts 0 w = 1 then tupleOf s.now (s.uncOf 0) (b2n s.stepMark)
    else tupleOf (s.get .WRK_ts 0 w) (s.get .WRK_ts 0 w / 2 ^ 64) (s.get .WRK_ts 0 w / 2 ^ 80)
  leBytes 8 (s.get .WRK_cookie 0 w) ++ leBytes 12 ts ++ leBytes 4 (s.get .WRK_bytes 0 w) ++
  leBytes 2 (s.ringLocal e f (s.get .WRK_ring 0 w)) ++ [s.get .WRK_status 0 w, s.get .WRK_flags 0 w + s.phase e c] ++
  leBytes 4 (s.get .WRK_msg 0 w) ++ leBytes 4 (s.get .WRK_imm 0 w) ++ leBytes 4 (s.get .WRK_late_msg 0 w) ++
  [s.get .WRK_late_st 0 w, s.get .WRK_nbufs 0 w] ++ leBytes 2 (s.get .WRK_detail 0 w) ++ leBytes 4 (s.get .WRK_hash 0 w) ++
  leBytes 8 (s.get .WRK_class 0 w) ++ List.replicate 8 0

/-- The completion of work `w` is written to CPL ring `c` and its reservation freed. -/
def State.cplWrite (s : State) (e f c w : Nat) : State :=
  (s.entryPut e f c (s.cplBytes e f c w)).unreserve e c w

/-- The completion of work `w` falls due: written when the ring has room, held in the overflow when it is full, discarded
and counted when the ring is neither ENABLED nor PAUSED (R456, R460, R461). -/
def State.cplPost (s : State) (e f c w : Nat) : State :=
  if s.get .RNG_RING_state e c = 1 ∨ s.get .RNG_RING_state e c = 2 then
    if s.lget .cplOver e c = [] ∧ s.ringHeld e c < s.ringSize e c then s.cplWrite e f c w
    else s.lpush .cplOver w e c
  else (s.cplLost e c).unreserve e c w

/-- The overflow drains into the ring, in order, while it has room (R461). -/
def State.cplDrain (s : State) (e f c : Nat) : List Nat → State
  | [] => s.lset .cplOver [] e c
  | w :: r =>
    if s.ringHeld e c < s.ringSize e c then (s.cplWrite e f c w).cplDrain e f c r
    else s.lset .cplOver (w :: r) e c

/-- Work rings of function `f` whose cq is CPL ring `c`, in a given state. -/
def State.ringsNaming (s : State) (e f c st : Nat) : List Nat :=
  (s.keysOf .RNG_RING_state).filterMap (fun p =>
    if p.1 = e ∧ s.get .RNG_RING_state e p.2 = st ∧ s.get .RNG_RING_kind e p.2 < 4 ∧ s.ringFn e p.2 = some f ∧
        s.ringCq e p.2 = some c then some p.2 else none)

/-- Reservations of an ENABLED CPL ring are exhausted: it and the ENABLED work rings that name it become PAUSED, with a
CQ_FULL event and the stall timer started (R459). -/
def State.cqPause (s : State) (e f c : Nat) : State :=
  if s.cqFree e c ∨ s.get .RNG_RING_state e c ≠ 1 then s
  else
    let s := ((s.set .RNG_RING_state 2 e c).set .RNG_stall_at s.now e c).evtPost e f 3 1 (s.ringLocal e f c) 0
    s.each (s.ringsNaming e f c 1) (fun r s => s.set .RNG_RING_state 2 e r)

/-- A reservation was freed: the CPL ring and the PAUSED work rings that name it are ENABLED again (R459). -/
def State.cqResume (s : State) (e f c : Nat) : State :=
  if !s.cqFree e c ∨ s.get .RNG_RING_state e c ≠ 2 ∨ s.lget .cplOver e c ≠ [] then s
  else (s.set .RNG_RING_state 1 e c).each (s.ringsNaming e f c 2) (fun r s => s.set .RNG_RING_state 1 e r)

/-- Waiting requests that do not fetch descriptors of ring `r`. -/
def waitNotFetch (r : Nat) : List Nat → List Nat
  | g :: a :: len :: kind :: x :: y :: p :: t =>
    if kind = 1 ∧ x = r then waitNotFetch r t else g :: a :: len :: kind :: x :: y :: p :: waitNotFetch r t
  | _ => []

/-- Posted buffers of an RX or RECV ring that no message or frame uses, past the last one in use: they are not started (R460; log entry
57). -/
def State.idleBufs (s : State) (e r : Nat) : List Nat :=
  ((s.lget .rxBufs e r).reverse.takeWhile (fun w => decide (s.get .WRK_resv 0 w = 0 ∧ s.get .WRK_done 0 w = 0))).reverse

/-- Descriptors of a work ring that were fetched and not started are discarded; head stays the index of the first descriptor
not started (R460; log entry 15). Their reads, where they are on their way, have nothing left to serve. -/
def State.ringUnfetch (s : State) (e r : Nat) : State :=
  let idle := s.idleBufs e r
  let s := (s.lset .rxBufs ((s.lget .rxBufs e r).take ((s.lget .rxBufs e r).length - idle.length)) e r).lset .ringOrder
    ((s.lget .ringOrder e r).filter (fun w => !idle.contains w)) e r
  let s := s.set .RNG_RING_head (s.get .RNG_RING_head e r + 2 ^ 17 - idle.length) e r
  let s := s.each (s.keysOf .TAG_state) (fun k s =>
    if k.1 = e ∧ s.get .TAG_kind e k.2 = 1 ∧ s.get .TAG_a e k.2 = r then s.set .TAG_kind 0 e k.2 else s)
  let s := s.lset .readWait (waitNotFetch r (s.lget .readWait e)) e
  (s.lset .ringFetched [] e r).set .RNG_fetch (s.get .RNG_RING_head e r) e r

/-- Held completions of a CPL ring are discarded and counted. -/
def State.cplDiscard (s : State) (e c : Nat) : State :=
  (s.each (s.lget .cplOver e c) (fun w s => (s.cplLost e c).unreserve e c w)).lset .cplOver [] e c

/-- Whether a ring is a work ring. -/
def State.isWork (s : State) (e r : Nat) : Bool := decide (s.get .RNG_RING_kind e r < 4)

/-- A ring in ENABLED or PAUSED enters ERROR: head published, RING_ERROR event with its cause (R459, R460, Table RING-10). -/
def State.ringError (s : State) (e r cause : Nat) : State :=
  if s.get .RNG_RING_state e r = 1 ∨ s.get .RNG_RING_state e r = 2 then
    let s := match s.ringFn e r with
      | some f => s.evtPost e f 3 2 (s.ringLocal e f r) cause
      | none => s
    let s := s.when (s.isWork e r) (·.ringUnfetch e r)
    s.set .RNG_RING_state 4 e r
  else s

/-- A ring in ENABLED or PAUSED goes to STOPPED (R436, R440, R459): head published; completions that fall due from now on are
discarded. -/
def State.ringStop (s : State) (e r : Nat) : State :=
  if s.get .RNG_RING_state e r = 1 ∨ s.get .RNG_RING_state e r = 2 then
    (s.when (s.isWork e r) (·.ringUnfetch e r)).set .RNG_RING_state 3 e r
  else s

/-- Rings of function `f` that differ from reset. -/
def State.fnRings (s : State) (e f : Nat) : List Nat :=
  (s.keysOf .RNG_RING_state).filterMap (fun p => if p.1 = e ∧ s.ringFn e p.2 = some f then some p.2 else none)

/-- Every ring the function owns that holds any register value. -/
def State.fnRingsAll (s : State) (e f : Nat) : List Nat :=
  let b := s.get .RNG_FN_MAP_ring_base e f
  let n := s.get .RNG_FN_MAP_ring_count e f
  (((s.regs.filter (fun p => decide (p.1.sc = e ∧ Field.RNG_RING_base.ctorIdx ≤ p.1.f.ctorIdx ∧
    p.1.f.ctorIdx ≤ Field.RNG_RING_cfg10.ctorIdx))).map (fun p => p.1.i)).filter (fun r => within r b n)).eraseDups

/-- A ring's registers return to their reset values (R459, FLR); what it held is gone. -/
def State.ringReset (s : State) (e r : Nat) : State :=
  let s := [Field.RNG_RING_base, .RNG_RING_kind, .RNG_RING_log2_size, .RNG_RING_enable, .RNG_RING_pasid_en, .RNG_RING_pasid,
    .RNG_RING_weight, .RNG_RING_burst_m1, .RNG_RING_cq, .RNG_RING_mod_time, .RNG_RING_head, .RNG_RING_state, .RNG_RING_armed,
    .RNG_RING_cfg_err, .RNG_RING_doorbell_err, .RNG_RING_tail, .RNG_RING_drops, .RNG_RING_cfg10, .RNG_fetch, .RNG_resv,
    .RNG_irq_cnt, .RNG_irq_at, .RNG_stall_at, .RNG_target].foldl (fun s f => s.clr f e r) s
  (((s.lset .ringFetched [] e r).lset .ringOrder [] e r).lset .cplOver [] e r).lset .rxBufs [] e r

/-- A new work record of ring `r`, appended to the ring's order. -/
def State.newWork (s : State) (e r cookie : Nat) : State :=
  let w := s.get .WRK_next
  ((((s.set .WRK_ring r 0 w).set .WRK_ep e 0 w).set .WRK_cookie cookie 0 w).lpush .ringOrder w e r).set .WRK_next (w + 1)

/-- Tag bookkeeping: tag `t` is free again, and requests that waited for one are issued (R434). -/
def State.tagFree (s : State) (e t : Nat) : State :=
  ((s.set .TAG_state 0 e t).lset .tagData [] e t).readDrain e

/-- Device timeout of a read by its function's Completion Timeout Value, in 0.25 ns (Table HOST-6). -/
def timeoutOf (v : Nat) : Nat :=
  match v with
  | 1 => 90 * usUnits
  | 2 => 9 * msUnits
  | 5 => 50 * msUnits
  | 6 => 200 * msUnits
  | 9 => 800 * msUnits
  | 10 => 3 * secUnits
  | 13 => 12 * secUnits
  | 14 => 60 * secUnits
  | _ => 40 * msUnits

end Sys2Proof.Machine
end

