-- ==== Sys2Proof/Machine/EthOps.lean ====
section
/-! DEFINITION. Shared operations of the Ethernet ports (spec file 09): port modes, statistics, link interrupts and lengths. -/

namespace Sys2Proof.Machine

/-- Link states (ETH_PORT_STATUS). -/
def ethDISABLED : Nat := 0
/-- TRAINING. -/
def ethTRAINING : Nat := 1
/-- UP. -/
def ethUP : Nat := 2
/-- DOWN. -/
def ethDOWN : Nat := 3

/-- Whether `p` is a port number of a mode (Table ETH-1). -/
def portInMode (mode p : Nat) : Bool :=
  match mode with
  | 0 => decide (p = 0 ∨ p = 4)
  | 1 => decide (p < 8 ∧ p % 2 = 0)
  | _ => decide (p < 8)

/-- Whether `p` is a port number of the current mode of IOD `d` (R265). -/
def State.portOk (s : State) (d p : Nat) : Bool := portInMode (s.get .ETH_MODE_mode d) p

/-- Line rate of a mode in Gb/s (Table ETH-1). -/
def modeRate (mode : Nat) : Nat :=
  match mode with
  | 0 => 800
  | 1 => 400
  | 2 => 200
  | _ => 100

/-- Whether a frame of `n` bytes of occupancy that starts at `t` ends no later than the preamble, 8 bytes before DT64 `l`, of another
frame begins (R134), in exact wire time. -/
def State.wireFits (s : State) (d n : Nat) (t l : Int) : Bool :=
  let r := Int.ofNat (modeRate (s.get .ETH_MODE_mode d))
  decide (t * r + Int.ofNat ((n + 8) * 32) ≤ l * r)

/-- Wire time of `n` bytes on a port in 0.25 ns units, rounded up. -/
def State.wireTime (s : State) (d n : Nat) : Nat :=
  let r := modeRate (s.get .ETH_MODE_mode d)
  (n * 32 + r - 1) / r

/-- Counter `k` of a port advances by `n` modulo 2^48; when bit 47 goes from 0 to 1 its half bit sets and the statistics
interrupt is raised on PF0 of the endpoint (R284, R285, R458). -/
def State.ethCount (s : State) (d p k n : Nat) : State :=
  let i := p * 64 + k
  let old := s.get .ETH_STAT_count d i
  let new := (old + n) % 2 ^ 48
  let s := s.set .ETH_STAT_count new d i
  if !old.testBit 47 && new.testBit 47 then
    (s.setb .ETH_STAT_HALF k true d p).evtPost d 0 2 2 (8 * d + p) k
  else s

/-- The link interrupt of a port (R269, R458). -/
def State.linkIrq (s : State) (d p : Nat) : State := s.evtPost d 0 2 1 (8 * d + p) 0

/-- Index of the length bin of a frame of `n` bytes, from 0 (Table ETH-5). -/
def lenBin (n : Nat) : Nat :=
  if n ≤ 64 then 0 else if n ≤ 127 then 1 else if n ≤ 255 then 2 else if n ≤ 511 then 3 else if n ≤ 1023 then 4
  else if n ≤ 1518 then 5 else 6

/-- Counter offset of a destination address: 0 unicast, 1 multicast, 2 broadcast (Table ETH-5). -/
def dstKind (bytes : List Nat) : Nat :=
  if bytes.take 6 = List.replicate 6 0xFF then 2 else bytes.headD 0 % 2

/-- max_frame of a port (ETH_PORT_CFG). -/
def State.maxFrame (s : State) (d p : Nat) : Nat :=
  let m := s.get .ETH_PORT_CFG_max_frame d p
  if 1518 ≤ m ∧ m ≤ 9728 then m else 1518

/-- Bytes that MACsec adds to a transmitted frame on a port (R298). -/
def State.macsecAdd (s : State) (d p : Nat) : Nat :=
  if s.get .ETH_PORT_CFG_macsec_en d p = 0 then 0
  else if s.get .ETH_MSEC_CFG_send_sci d p = 1 then 32 else 24

/-- Length L of a frame of `n` bytes without FCS on a port: padded to 60, with FCS and MACsec (R298, R454). -/
def State.frameL (s : State) (d p n : Nat) : Nat := max n 60 + 4 + s.macsecAdd d p

/-- Number of frames in a port's list from the management controller, each its length before its bytes. -/
def ncsiCount : Nat → List Nat → Nat
  | 0, _ => 0
  | _, [] => 0
  | fuel + 1, n :: r => 1 + ncsiCount fuel (r.drop n)

/-- The frames in a port's MAC transmit buffer, those of the management controller among them, are discarded and counted (R269, R270,
R291). -/
def State.macDiscard (s : State) (d p : Nat) : State :=
  let s := s.each (s.lget .mac d p) (fun h s => (s.dropPkt h reasonLINK_DOWN).ethCount d p 46 1)
  let k := ncsiCount (s.lget .ncsiTx d p).length (s.lget .ncsiTx d p)
  let s := s.when (decide (k ≠ 0)) (fun s => (s.ethCount d p 46 k).addw .NCSI_pt_txdrop k 0 (8 * d + p))
  ((s.lset .mac [] d p).lset .ncsiTx [] d p).each (List.range 8) (fun c s => s.set .ETH_fc_wait 0 d (p * 8 + c))

/-- A port begins to train (Table ETH-3). -/
def State.ethTrain (s : State) (d p : Nat) : State := (s.set .ETH_PORT_STATUS_state ethTRAINING d p).set .ETH_train_at s.now d p

/-- Whether the management controller's interface works: enabled, its outputs not parked, and CK_NCSI present (R290, R292, R561). -/
def State.ncsiOn (s : State) : Bool :=
  decide (s.get .ETH_NCSI_CFG_enable = 1 ∧ s.get .PWR_fail = 0) && s.getb .XD_CLK_DIE_PRESENT_present 16 0 2

/-- Two's complement checksum of a control packet (DSP0222). -/
def ncsiSum : List Nat → Nat
  | a :: b :: r => a * 256 + b + ncsiSum r
  | [a] => a * 256
  | [] => 0

/-- A control packet from the package: header, payload padded to 4 bytes, checksum (DSP0222; log entry 42). -/
def ncsiPacket (mc iid type ch : Nat) (payload : List Nat) : List Nat :=
  let b := [mc, 1, 0, iid, type, ch] ++ beBytes 2 payload.length ++ List.replicate 8 0 ++ payload ++
    List.replicate ((4 - payload.length % 4) % 4) 0
  b ++ beBytes 4 ((2 ^ 32 - ncsiSum b % 2 ^ 32) % 2 ^ 32)

/-- Channel ID of device port `n` in the package. -/
def State.ncsiId (s : State) (n : Nat) : Nat := s.get .ETH_NCSI_CFG_package_id * 32 + n

/-- Link status of a channel: its link flag; the spec gives no encoding of the rest, which is a free value (log entry 42). -/
def State.ncsiLink (s : State) (up : Bool) : Nat := s.freeVal 31 * 2 + b2n up

/-- The link status event of a channel, where the management controller enabled it (R290, DSP0222). -/
def State.ncsiAen (s : State) (n : Nat) (up : Bool) : State :=
  if s.ncsiOn ∧ s.get .NCSI_init 0 n = 1 ∧ s.getb .NCSI_aen 0 0 n then
    ((s.emit .msg [0, s.ncsiId n] (ncsiPacket (s.get .NCSI_aen_mc 0 n) 0 0xFF (s.ncsiId n)
      ([0, 0, 0, 0] ++ beBytes 4 (s.ncsiLink up) ++ [0, 0, 0, 0]))).drew).bump .NCSI_aens
  else s

/-- The initial state of a channel (DSP0222): everything a controller configured is undone. -/
def State.ncsiReset (s : State) (n : Nat) : State :=
  let s := [Field.NCSI_init, .NCSI_en, .NCSI_tx, .NCSI_ald, .NCSI_aen_mc, .NCSI_aen, .NCSI_link, .NCSI_oem_link, .NCSI_vmode, .NCSI_bc,
    .NCSI_bc_set, .NCSI_mc, .NCSI_mc_set].foldl (fun s f => s.clr f 0 n) s
  let s := s.each (List.range 8) (fun k s => (s.clr .NCSI_mac 0 (n * 8 + k)).clr .NCSI_mac_en 0 (n * 8 + k))
  s.each (List.range 2) (fun k s => (s.clr .NCSI_vlan 0 (n * 2 + k)).clr .NCSI_vlan_en 0 (n * 2 + k))

/-- Channel `n` loses its configuration: the management controller hears of it, where it enabled the event (configuration required, R290,
DSP0222). -/
def State.ncsiLost (s : State) (n : Nat) : State :=
  let s := if s.ncsiOn ∧ s.get .NCSI_init 0 n = 1 ∧ s.getb .NCSI_aen 1 0 n then
      (s.emit .msg [0, s.ncsiId n] (ncsiPacket (s.get .NCSI_aen_mc 0 n) 0 0xFF (s.ncsiId n) [0, 0, 0, 1])).bump .NCSI_aens
    else s
  s.ncsiReset n

/-- A port leaves UP for DOWN or DISABLED: link_changed and the link interrupt (R269), and the time from which down_hold_ms
counts (R307); the management controller hears of it (R290). -/
def State.leaveUp (s : State) (d p : Nat) : State :=
  if s.get .ETH_PORT_STATUS_state d p = ethUP then
    (((s.set .ETH_PORT_STATUS_link_changed 1 d p).set .ETH_down_at s.now d p).set .TSU_cal_busy 0 d p |>.linkIrq d p).ncsiAen (8 * d + p) false
  else s

end Sys2Proof.Machine
end

