-- ==== Sys2Proof/Machine/SchedOps.lean ====
section
/-! DEFINITION. Shared operations of the transmit scheduler (spec file 10): the topology, queues, buckets and the choice of
the next frame; placement of tenants on regions and energy credit where work waits (spec files 18 and 19). -/

namespace Sys2Proof.Machine

/-- Node number of class node `j` (R295). -/
def nodeClass (j : Nat) : Nat := 1024 + j
/-- Node number of queue `q` (R295). -/
def nodeQueue (q : Nat) : Nat := 9216 + q

/-- Whether region `n` counts as online wherever a rule names online regions (R537): in service, or DRAINING less than
10 µs after acceptance. -/
def State.online (s : State) (n : Nat) : Bool :=
  let st := s.get .ERR_REGION_STATE_state 0 n
  decide (st = 0) || (decide (st = 1) && decide (s.get .SRV_effective 0 n = 0))

/-- Affinity mask of a tenant with offline regions removed (R466). -/
def State.affinity (s : State) (t : Nat) : Nat :=
  (List.range 8).foldl (fun m n => if (s.get .PLC_mask (s.get .STR_common_ctx) t).testBit n && s.online n then m + 2 ^ n else m) 0

/-- Affinity mask of a tenant as the PLACEMENT section gives it, online regions or not (R463). -/
def State.affMask (s : State) (t : Nat) : Nat := s.get .PLC_mask (s.get .STR_common_ctx) t

/-- Regions of a tenant's affinity, rising. -/
def State.regionsOf (s : State) (t : Nat) : List Nat := bitList 8 (s.affinity t)

/-- Whether work of tenant `t` passes the credit test at account `sc` (region, or 8 + IOD): its account is above 0, or
enforce is 0 (R485), the planner does not hold admission to the region (R496), and neither DEVICE_FATAL nor a power-fail warning has
stopped admission (R534, R561). -/
def State.creditOk (s : State) (sc t : Nat) : Bool :=
  decide (s.get .PWR_fail = 0) && !s.fatal && decide (8 ≤ sc ∨ s.get .NRL_hold_until sc ≤ s.now) &&
  (decide (s.get .NRL_CFG_enforce = 0) || decide (0 < sgn 32 (s.get .NRL_CREDIT_balance sc t)))

/-- Parts of a µJ in which charges below 1 µJ are kept: 10^6 pJ, each 16 × 750² × 4096 parts. -/
def ujParts : Nat := 1000000 * (16 * 562500 * 4096)

/-- Whether tenant `t` has an account `sc`: one that is not FREE, in each online region and each IOD (R478). -/
def State.hasAccount (s : State) (sc t : Nat) : Bool := decide (s.get .TEN_STATE_state 0 t ≠ 0) && (decide (8 ≤ sc) || s.online sc)

/-- `uj` µJ leave a tenant's balance and count as its charge of the epoch; `frac` is what is left below 1 µJ. -/
def State.accountTake (s : State) (sc t uj frac : Nat) : State :=
  ((s.set .NRL_frac frac sc t).set .NRL_CREDIT_balance (unsgn 32 (sgn 32 (s.get .NRL_CREDIT_balance sc t) - Int.ofNat uj)) sc t).addw
    .NRL_chg uj sc t

/-- A charge of `parts` to tenant `t` at account `sc`, which is `est` parts at k = 1: whole µJ leave the balance, where there is an
account, and count as consumed, the rest is kept (R478, R479, R481, R483; log entry 16). After a power-fail warning nothing is
charged (R500). -/
def State.charge (s : State) (sc t parts est : Nat) : State :=
  if s.get .NRL_off = 1 then s else
  let s := s.addw .NRL_est est
  let sum := s.get .NRL_frac sc t + parts
  let uj := sum / ujParts
  let s := s.when (s.hasAccount sc t) (·.accountTake sc t uj (sum % ujParts))
  (s.addw .NRL_TENANT_CFG_used uj 0 t).addw .NRL_TOTAL uj

/-- Whether queue `q` of IOD `d` exists (R294). -/
def State.qExists (s : State) (d q : Nat) : Bool := decide (q < s.get .TOPO_nq d)

/-- Class node of a queue. -/
def State.qClassNode (s : State) (d q : Nat) : Nat := s.get .TOPO_q_class d q
/-- Tenant node of a queue (R293). -/
def State.qTenantNode (s : State) (d q : Nat) : Nat := s.qClassNode d q / 8
/-- Traffic class of a queue (R293). -/
def State.qClass (s : State) (d q : Nat) : Nat := s.qClassNode d q % 8
/-- Tenant of a queue's tenant node. -/
def State.qTenant (s : State) (d q : Nat) : Nat := s.get .TOPO_tn_tenant d (s.qTenantNode d q)
/-- Port of a queue's tenant node. -/
def State.qPort (s : State) (d q : Nat) : Nat := s.get .TOPO_tn_port d (s.qTenantNode d q)

/-- Tenant node of tenant `t` on port `p`. -/
def State.tnodeOf (s : State) (d p t : Nat) : Option Nat :=
  (List.range (s.get .TOPO_ntn d)).find? (fun i =>
    decide (s.get .TOPO_tn_port d i = p ∧ s.get .TOPO_tn_tenant d i = t))

/-- Default queue of class `c` under tenant `t`'s node on port `p`, or under tenant 0's when it has none there (R296). -/
def State.defaultQueue (s : State) (d p t c : Nat) : Option Nat :=
  match (match s.tnodeOf d p t with
    | some i => some i
    | none => s.tnodeOf d p 0) with
  | some i => (List.range (s.get .TOPO_nq d)).find? (fun q => decide (s.get .TOPO_q_class d q = 8 * i + c))
  | none => none

/-- Deficit of a node, bytes. -/
def State.deficit (s : State) (d n : Nat) : Int := sgn 32 (s.get .SCH_NODE_deficit d n)

/-- Quantum of a node in bytes (SCH_NODE). -/
def State.quantum (s : State) (d n : Nat) : Nat := 64 * max 1 (min 262144 (s.get .SCH_NODE_quantum d n))

/-- The buckets of a node brought forward to now, each stopping at its burst (R302). -/
def State.buckets (s : State) (d n : Nat) : State :=
  let dt := s.mono - s.get .NODE_at d n
  let pir := if s.get .NODE_cir_en d n = 1 ∧ s.get .NODE_pir_en d n = 1 then max (s.get .NODE_pir d n) (s.get .NODE_cir d n)
    else s.get .NODE_pir d n
  let ct := min (Int.ofNat (s.get .NODE_cbs d n * 32000)) (sgn 64 (s.get .NODE_ct d n) + Int.ofNat (s.get .NODE_cir d n * dt))
  let pt := min (Int.ofNat (s.get .NODE_pbs d n * 32000)) (sgn 64 (s.get .NODE_pt d n) + Int.ofNat (pir * dt))
  ((s.set .NODE_ct (unsgn 64 ct) d n).set .NODE_pt (unsgn 64 pt) d n).set .NODE_at s.mono d n

/-- Committed bucket of a node now, in 1/32,000 byte. -/
def State.cTokens (s : State) (d n : Nat) : Int := sgn 64 ((s.buckets d n).get .NODE_ct d n)
/-- Peak bucket of a node now, in 1/32,000 byte. -/
def State.pTokens (s : State) (d n : Nat) : Int := sgn 64 ((s.buckets d n).get .NODE_pt d n)

/-- Whether a node is held by its peak bucket (Table SCHD-3). -/
def State.nodeShaped (s : State) (d n : Nat) : Bool :=
  decide (s.get .NODE_pir_en d n = 1) && decide (s.pTokens d n ≤ 0)

/-- Whether a node lies in its parent's committed tier (R301). -/
def State.nodeCommitted (s : State) (d n : Nat) : Bool :=
  decide (s.get .NODE_cir_en d n = 1) && decide (0 < s.cTokens d n)

/-- Children of a parent, in node order: port p is parent 30000 + p, tenant node i is i, class node j is 1024 + j. -/
def State.children (s : State) (d par : Nat) : List Nat :=
  if 30000 ≤ par then (List.range (s.get .TOPO_ntn d)).filter (fun i => decide (s.get .TOPO_tn_port d i = par - 30000))
  else if par < 1024 then (List.range 8).map (fun c => nodeClass (8 * par + c))
  else ((List.range (s.get .TOPO_nq d)).filter (fun q => decide (s.get .TOPO_q_class d q = par - 1024))).map nodeQueue

/-- Whether the launch gate is done with packet `h`: it judged and let go the frame (R132), or the frame is gone (R269). -/
def State.gateOpen (s : State) (h : Nat) : Bool := decide (2 ≤ s.get .PKT_gate 0 h ∨ s.get .PKT_live 0 h = 0)

/-- Whether the gate of some port holds a launch frame of an earlier descriptor of the ring that packet `h` came from (R133). -/
def State.ringAtGate (s : State) (h : Nat) : Bool :=
  decide (s.get .PKT_work 0 h ≠ 0) && ((s.lkeysOf .mac).flatMap (fun k => s.heldFrames k.1 k.2)).any (fun g =>
    let w := s.get .PKT_work 0 h - 1
    let v := s.get .PKT_work 0 g - 1
    decide (s.get .PKT_work 0 g ≠ 0 ∧ v < w ∧ s.get .WRK_ring 0 w = s.get .WRK_ring 0 v ∧ s.get .WRK_ep 0 w = s.get .WRK_ep 0 v))

/-- Whether a node is held by credit, pause or the launch gate (Table SCHD-3). -/
def State.nodeHeld (s : State) (d n : Nat) : Bool :=
  if n < 1024 then !s.creditOk (8 + d) (s.get .TOPO_tn_tenant d n)
  else if n < 9216 then
    let j := n - 1024
    decide (s.get .ETH_stop d (s.get .TOPO_tn_port d (j / 8) * 8 + j % 8) = 1)
  else
    let q := n - 9216
    (decide (s.get .NODE_gate d q ≠ 0) && !s.gateOpen (s.get .NODE_gate d q - 1)) ||
    (match s.lget .txq d q with
      | [] => false
      | h :: _ => s.ringAtGate h)

/-- Whether a frame is queued beneath a node. -/
def State.nodeBacklogged (s : State) (d n : Nat) : Bool :=
  if 9216 ≤ n then decide (s.lget .txq d (n - 9216) ≠ [])
  else (s.lkeysOf .txq).any (fun k => decide (k.1 = d) &&
    (if n < 1024 then decide (s.qTenantNode d k.2 = n) else decide (s.qClassNode d k.2 = n - 1024)))

/-- Whether a child is eligible (R300), its subtree aside. -/
def State.eligible (s : State) (d n : Nat) : Bool :=
  s.nodeBacklogged d n && !s.nodeShaped d n && !s.nodeHeld d n

/-- The list rotated to start at the first child not below the pointer (R301). -/
def rotateTo (ptr : Nat) (l : List Nat) : List Nat :=
  (l.filter (fun c => decide (ptr ≤ c))) ++ (l.filter (fun c => decide (c < ptr)))

/-- A child's turn begins: its quantum is added to its deficit, where it is fresh (R301). -/
def State.turn (s : State) (d c : Nat) : State :=
  if s.get .NODE_fresh d c = 1 then
    (s.set .SCH_NODE_deficit (unsgn 32 (s.deficit d c + Int.ofNat (s.quantum d c))) d c).set .NODE_fresh 0 d c
  else s

/-- One pass of deficit round robin over the eligible children of a tier, in order from the pointer (R301): the chosen child before the
nodes beneath it, and the length of the frame. `pick` is a child's own pick. What a child would choose changes the deficits beneath it only
where the child is chosen. One beneath which every frame is held, or no deficit reaches a head yet, has no head_len and is passed over, its
own pick's turns taken (log entry 17). -/
def State.drrPass (s : State) (pick : State → Nat → State × Option (List Nat × Nat)) (d : Nat) :
    List Nat → State × Option (List Nat × Nat)
  | [] => (s, none)
  | c :: r =>
    match pick s c with
    | (s1, none) => s1.drrPass pick d r
    | (s1, some (path, len)) =>
      if Int.ofNat len ≤ (s.turn d c).deficit d c then (s1.turn d c, some (c :: path, len))
      else ((s.turn d c).set .NODE_fresh 1 d c).drrPass pick d r

/-- One tier of a parent is served: a pass from the tier's pointer, which goes to the chosen child (R301). -/
def State.drrTier (s : State) (pick : State → Nat → State × Option (List Nat × Nat)) (d par tier : Nat) (l : List Nat) :
    State × Option (List Nat × Nat) :=
  match s.drrPass pick d (rotateTo (s.get .NODE_ptr d (tier * 65536 + par)) l) with
  | (s, some x) => (s.set .NODE_ptr (x.1.headD 0) d (tier * 65536 + par), some x)
  | (s, none) => (s, none)

/-- The pick of one parent among its eligible children: the committed tier, then the excess tier, then none (R301). -/
def State.drrPick (s : State) (pick : State → Nat → State × Option (List Nat × Nat)) (d par : Nat) : State × Option (List Nat × Nat) :=
  let l := (s.children d par).filter (s.eligible d)
  match s.drrTier pick d par 0 (l.filter (s.nodeCommitted d)) with
  | (s1, some x) => (s1, some x)
  | (s1, none) => s1.drrTier pick d par 1 (l.filter (fun c => !s.nodeCommitted d c))

/-- What a queue would send: its head frame. -/
def State.headQueue (d : Nat) (s : State) (n : Nat) : State × Option (List Nat × Nat) :=
  (s, (s.lget .txq d (n - 9216)).head?.map (fun h => ([], s.get .PKT_L 0 h)))

/-- What a class node would send. -/
def State.pickClass (d : Nat) (s : State) (n : Nat) : State × Option (List Nat × Nat) := s.drrPick (State.headQueue d) d n

/-- What a tenant node would send. -/
def State.pickTenant (d : Nat) (s : State) (i : Nat) : State × Option (List Nat × Nat) := s.drrPick (State.pickClass d) d i

/-- The port's choice: tenant node, class node and queue, and the length of the next frame (R299, R301). -/
def State.pickPort (s : State) (d p : Nat) : State × Option (List Nat × Nat) := s.drrPick (State.pickTenant d) d (30000 + p)

/-- A node with no frame beneath it has deficit 0 and starts its next turn fresh (Table SCHD-3). -/
def State.nodeEmpty (s : State) (d n : Nat) : State :=
  if s.nodeBacklogged d n then s else (s.set .SCH_NODE_deficit 0 d n).set .NODE_fresh 1 d n

/-- The three nodes above and at queue `q`: tenant node, class node, queue. -/
def State.pathOf (s : State) (d q : Nat) : List Nat := [s.qTenantNode d q, nodeClass (s.qClassNode d q), nodeQueue q]

/-- Frame `h` of length L leaves queue `q`. -/
def State.dequeue (s : State) (d q h : Nat) : State :=
  let s := s.lset .txq ((s.lget .txq d q).erase h) d q
  let s := s.set .SCH_QSTAT_depth_bytes (s.get .SCH_QSTAT_depth_bytes d q - s.get .PKT_L 0 h) d q
  let s := s.set .SCH_QSTAT_depth_frames (min 0xFFFF (s.lget .txq d q).length) d q
  s.each (s.pathOf d q) (fun n s => s.nodeEmpty d n)

/-- Every frame of queue `q` is discarded with a reason; `k` counts them at the port (R307, R308, R475). -/
def State.queueDiscard (s : State) (d q reason : Nat) (count : Option Field) : State :=
  let p := s.qPort d q
  s.each (s.lget .txq d q) (fun h s =>
    let s := (s.dequeue d q h).dropPkt h reason
    match count with
    | some f => s.bump f d p
    | none => s)

/-- Whether the scheduler discards frames that arrive for a port: DISABLED, or out of UP for down_hold_ms (R307). -/
def State.portDiscards (s : State) (d p : Nat) : Bool :=
  let st := s.get .ETH_PORT_STATUS_state d p
  decide (st ≠ ethUP) && (decide (st = ethDISABLED) || decide (s.get .ETH_discard d p = 1) ||
    decide (s.get .SCH_PORT_CFG_down_hold_ms d p = 0))

/-- A frame enters a transmit queue of device port `dp`: the named one, or the default queue of class `c` (R296, R297, R307). It leaves
its region's population, as R308 lets the regions drain while queues hold frames, but its data stays in the region's packet buffer until
dispatch (R297; log entry 159). -/
def State.enqueue (s : State) (h dp queue c : Nat) : State :=
  let d := dp / 8 % 2
  let p := dp % 8
  let t := s.pktTenant h
  let bad := fun (r : Nat) => (s.bump .SCH_PORT_DROP_queue_errs d p).dropPkt h r
  let tq := if queue = 0x3FFF then (if s.portOk d p then s.defaultQueue d p t c else none)
    else if s.qExists d queue && decide (s.qPort d queue = p) && s.portOk d p then some queue else none
  match tq with
  | none => bad (if queue = 0x3FFF then reasonNO_QUEUE else reasonBAD_QUEUE)
  | some q =>
    let len := s.frameL d p (s.lget .pktBytes 0 h).length
    if s.portDiscards d p then (s.bump .SCH_PORT_DROP_link_drops d p).dropPkt h reasonLINK_DOWN
    else if s.get .SCH_NODE_max_depth d (nodeQueue q) * 256 < s.get .SCH_QSTAT_depth_bytes d q + len then
      ((s.bump .SCH_QSTAT_drops d q).bump .QSAMP_drops d q).dropPkt h reasonTAIL
    else
      let s := ((((s.set .PKT_L len 0 h).set .PKT_enq_at s.now 0 h).set .PKT_iod d 0 h).set .PKT_queue q 0 h).set
        .PKT_dev_port dp 0 h
      let s := (s.leavePop h).lpush .txq h d q
      (s.addw .SCH_QSTAT_depth_bytes len d q).set .SCH_QSTAT_depth_frames (min 0xFFFF (s.lget .txq d q).length) d q

/-- A packet is addressed to host receive ring `ring` (a device ring number): it leaves its region for the ring's IOD, where
R455 places it. A ring that is not an RX ring drops it with NO_RING; the spec does not say at which port that drop is counted
(log entry 22). -/
def State.toHost (s : State) (h ring : Nat) : State :=
  let e := ring / 32768 % 2
  if s.get .RNG_RING_kind e (ring % 32768) = 1 then
    (s.leaveRegion h).set .PKT_hostring (ring % 65536 + 1) 0 h
  else ((s.bump .SCH_PORT_DROP_queue_errs e (s.freeVal 3)).drew).dropPkt h reasonNO_RING

/-- A packet leaves by a FORWARD operand A (Table SCHD-2, R296). -/
def State.forwardTo (s : State) (h a : Nat) : State :=
  if a.testBit 18 then s.toHost h (bitsOf a 0 18)
  else s.enqueue h (bitsOf a 0 4) (bitsOf a 4 14) (bitsOf a 19 3)

/-- The packet is stamped with the epoch bit of region `n` (R161). -/
def State.stampEpoch (s : State) (h n : Nat) : State := s.setMeta h 13 1 (s.get .STR_REGION_STATE_epoch 0 n)

/-- Dispatch of a frame of length L: deficits and buckets of its path are charged (R301). -/
def State.chargePath (s : State) (d q len : Nat) : State :=
  s.each (s.pathOf d q) (fun n s =>
    let s := (s.buckets d n).set .SCH_NODE_deficit (unsgn 32 (s.deficit d n - Int.ofNat len)) d n
    let s := s.when (decide (s.get .NODE_cir_en d n = 1)) (fun s =>
      s.set .NODE_ct (unsgn 64 (sgn 64 (s.get .NODE_ct d n) - Int.ofNat (len * 32000))) d n)
    s.when (decide (s.get .NODE_pir_en d n = 1)) (fun s =>
      s.set .NODE_pt (unsgn 64 (sgn 64 (s.get .NODE_pt d n) - Int.ofNat (len * 32000))) d n))

/-- The charge of a dispatched frame at its IOD, in parts of a µJ (R481). -/
def State.iodCost (s : State) (len : Nat) : Nat :=
  (s.get .NRL_IOD_COST_iod_frame_nj * 1000 + len * s.get .NRL_IOD_COST_iod_byte_pj) * (16 * 562500 * 4096)

/-- The buckets of a node set full (R303, R308). -/
def State.bucketsFull (s : State) (d n : Nat) : State :=
  ((s.set .NODE_ct (s.get .NODE_cbs d n * 32000) d n).set .NODE_pt (s.get .NODE_pbs d n * 32000) d n).set .NODE_at s.mono d n

/-- A write of a node's pbs word applies its shaper (R303). -/
def State.shaperApply (s : State) (d n : Nat) : State :=
  let s := (((((s.set .NODE_cir_en (s.get .SCH_NODE_cir_en d n) d n).set .NODE_pir_en (s.get .SCH_NODE_pir_en d n) d n).set
    .NODE_cir (s.get .SCH_NODE_cir d n) d n).set .NODE_pir (s.get .SCH_NODE_pir d n) d n).set .NODE_cbs (s.get .SCH_NODE_cbs d n) d n).set
    .NODE_pbs (s.get .SCH_NODE_pbs d n) d n
  if s.get .SCH_NODE_reset_mode d n = 0 then s.bucketsFull d n
  else ((s.set .NODE_ct 0 d n).set .NODE_pt 0 d n).set .NODE_at s.mono d n

end Sys2Proof.Machine
end

