-- ==== Sys2Proof/Machine/CoreOps.lean ====
section
/-! DEFINITION. Shared operations of the service cores (spec file 15): core queues, spans of the region packet buffer and
their punt entries. -/

namespace Sys2Proof.Machine

/-- Device address of offset `o` of region `n`'s SRAM window (Table PKG-7). -/
def sramAddr (n o : Nat) : Nat := (4 + n / 2) * 2 ^ 44 + (if n % 2 = 0 then 0x10000000 else 0x12000000) + o

/-- Device address of a span (R412). -/
def spanAddr (n handle : Nat) : Nat := sramAddr n (0x01800000 + handle * 64)

/-- Units of the region packet buffer. -/
def spanUnits : Nat := 32768

/-- Allocated spans of region `n`: handle and units. -/
def State.spans (s : State) (n : Nat) : List (Nat × Nat) :=
  (s.keysOf .SPAN_units).filterMap (fun k =>
    if k.1 = n ∧ s.get .SPAN_units n k.2 ≠ 0 then some (k.2, s.get .SPAN_units n k.2) else none)

/-- Units of the packet buffer that packet `h` takes: a span with its metadata and frame (R412). -/
def State.pktUnits (s : State) (h : Nat) : Nat := (128 + (s.lget .pktBytes 0 h).length + 63) / 64

/-- Units of region `n`'s packet buffer that frames outside spans take: those that its parser has taken and that are not dispatched
(R297; log entry 159). -/
def State.bufUnits (s : State) (n : Nat) : Nat :=
  (((s.keysOf .PKT_buf).map (·.2)).map (fun h =>
    if s.get .PKT_region 0 h = n ∧ s.get .PKT_span 0 h = 0 ∧ s.get .PKT_stage 0 h ≠ 0 ∧ s.get .PKT_stage 0 h ≠ 3 then s.pktUnits h else 0)).sum

/-- Units of region `n`'s packet buffer in use. -/
def State.bufHeld (s : State) (n : Nat) : Nat := s.bufUnits n + ((s.spans n).map (·.2)).sum

/-- Whether packet `h` finds room in region `n`'s packet buffer (R49, R297); one that was injected lies in its span. -/
def State.bufRoom (s : State) (n h : Nat) : Bool :=
  decide (s.get .PKT_span 0 h ≠ 0 ∨ s.bufHeld n + s.pktUnits h ≤ spanUnits)

/-- Handles at which a span of `u` units would overlap no allocated one. -/
def State.spanFits (s : State) (n u : Nat) : List Nat :=
  (List.range (spanUnits + 1 - u)).filter (fun h =>
    (s.spans n).all (fun p => decide (h + u ≤ p.1 ∨ p.1 + p.2 ≤ h)))

/-- The handle that the next allocation of `u` units takes, `own` of them those of the frame that moves into it: the spec does not say which
of those free, so a free value chooses (R415; log entry 18). -/
def State.spanPick (s : State) (n u own : Nat) : Option Nat :=
  let l := if s.bufHeld n + u ≤ spanUnits + own then s.spanFits n u else []
  l[Config.freeValue s.free % max 1 l.length]?

/-- A span of `u` units at `handle` is allocated to firmware. -/
def State.spanTake (s : State) (n handle u : Nat) : State :=
  (((s.set .SPAN_units u n handle).set .SPAN_fw 1 n handle).set .SPAN_saved 0 n handle).drew

/-- What the device knows of packet `h` beside its metadata stays with the span that the packet is punted to: its view of its port's
registers, its state as a fragment and its length as received (R199, R202, R203, R209; log entry 23). -/
def State.spanSave (s : State) (h n handle : Nat) : State :=
  let s := (((s.set .SPAN_saved 1 n handle).set .SPAN_cls (s.get .PKT_cls 0 h) n handle).set .SPAN_clsf (s.get .PKT_clsf 0 h) n handle).set
    .SPAN_fragkey (s.get .PKT_fragkey 0 h) n handle
  (((s.set .SPAN_follow (s.get .PKT_follow 0 h) n handle).set .SPAN_outer (s.get .PKT_outer 0 h) n handle).set
    .SPAN_rxlen (s.get .PKT_rxlen 0 h) n handle).set .SPAN_wire (s.get .PKT_wire 0 h) n handle

/-- Hart number of application core `i` of region `n` (R403). -/
def hartOf (n i : Nat) : Nat := 6 * n + i

/-- Entries of a core queue: prod − cons modulo 2^16 (R413). -/
def State.queueHeld (s : State) (n q : Nat) : Nat :=
  (s.get .COR_Q_prod n q + 0x10000 - s.get .COR_Q_cons n q) % 0x10000

/-- log2 of a core queue's entries: values outside 4 to 15 act as 4 (log entry 19). -/
def State.queueLog (s : State) (n q : Nat) : Nat :=
  let l := s.get .COR_Q_log2_entries n q
  if 4 ≤ l then l else 4

/-- Whether a core queue is full for an entry of kind `mode` (0 a punt, 1 a mailbox record); a disabled queue is full, and a queue of
the other kind too (R413, COR_Q; log entry 71). -/
def State.queueFull (s : State) (n q mode : Nat) : Bool :=
  decide (s.get .COR_Q_enable n q = 0 ∨ s.get .COR_Q_mode n q ≠ mode ∨ 2 ^ s.queueLog n q ≤ s.queueHeld n q)

/-- The interrupt of a core queue: armed is cleared and one MSI sent to the queue's file and identity, where they name any
(R414). -/
def State.queueMsi (s : State) (n q : Nat) : State :=
  let s := s.set .COR_Q_armed 0 n q
  let c := s.get .COR_Q_core n q
  let f := s.get .COR_Q_file n q
  if c < 6 ∧ f < 7 then s.coreMsi (hartOf n c) f (s.get .COR_Q_identity n q) else s

/-- An entry is written at prod, prod advances, and an armed queue interrupts (R413, R414). -/
def State.queuePut (s : State) (n q : Nat) (entry : List Nat) : State :=
  let p := s.get .COR_Q_prod n q
  let s := s.mwrite (s.get .COR_Q_base n q + p % 2 ^ s.queueLog n q * 64) entry
  let s := s.set .COR_Q_prod (p + 1) n q
  s.when (decide (s.get .COR_Q_armed n q = 1)) (·.queueMsi n q)

/-- Region and queue that a queue reference names for something that arises in region `n` (Table CORE-4). -/
def queueRef (n ref : Nat) : Nat × Nat := (if ref.testBit 11 then bitsOf ref 8 3 else n, ref % 256)

/-- A 64-byte record for the mailbox queue `ref`: written, or counted in the queue's drops when it finds it full; `ok` tells
which (R412, R413). -/
def State.mailbox (s : State) (n ref : Nat) (entry : List Nat) : State × Bool :=
  let (m, q) := queueRef n ref
  if s.queueFull m q 1 then (s.bump .COR_Q_drops m q, false) else (s.queuePut m q entry, true)

/-- The ingress timestamp tuple of a packet, from its metadata (Table PARS-6). -/
def State.ingressTuple (s : State) (h : Nat) : Nat := s.meta_ h 416 96

/-- The punt entry of a packet in span `handle` (Table CORE-5). -/
def State.puntEntry (s : State) (h handle reason : Nat) : List Nat :=
  [reason, s.pktTenant h] ++ leBytes 2 (s.lget .pktBytes 0 h).length ++ leBytes 4 handle ++ leBytes 12 (s.ingressTuple h) ++
  [s.pktInPort h, s.get .PKT_nstage 0 h % 32 + 128 * s.get .PKT_pl 0 h] ++ List.replicate 42 0

/-- A packet is punted to queue reference `ref` with a reason (R412, R413, Table CORE-6): dropped with PUNT_QFULL when the queue
is full, else its metadata and frame go to a span that belongs to firmware and its entry to the queue. While no span is free
it waits where it stands (R49). A packet handed over for a scan keeps the number of its stage (R263). -/
def State.puntTo (s : State) (h ref reason : Nat) : State :=
  let (n, q) := queueRef (s.get .PKT_region 0 h) ref
  if s.queueFull n q 0 then (s.bump .COR_Q_drops n q).dropPkt h reasonPUNT_QFULL
  else
    let bytes := s.lget .pktBytes 0 h
    let u := (128 + bytes.length + 63) / 64
    match s.spanPick n u (if n = s.get .PKT_region 0 h ∧ s.get .PKT_span 0 h = 0 then u else 0) with
    | none => (s.set .PKT_puntq ref 0 h).set .PKT_puntr (reason + 1) 0 h
    | some handle =>
      let s := (s.spanTake n handle u).when (decide (reason = 3)) (fun s => s.set .SCAN_stage (s.get .PKT_nstage 0 h) n handle)
      let s := (s.spanSave h n handle).mwrite (spanAddr n handle) (leBytes 128 (s.get .PKT_meta 0 h) ++ bytes)
      let s := s.queuePut n q (s.puntEntry h handle reason)
      ((s.txDiverted h).freePkt h).set .PKT_disp 3 0 h

/-- The state of a hart is cleared (R417). -/
def State.hartClear (s : State) (h : Nat) : State :=
  let s := (((s.clr .CORE_pc 0 h).clr .CORE_a0 0 h).clr .CORE_a1 0 h).clr .CORE_mode 0 h
  let s := (((s.clr .CORE_iaf 0 h).clr .CORE_fault 0 h).clr .CORE_halting 0 h).clr .CORE_time 0 h
  let s := (s.clr .CORE_cycle 0 h).clr .CORE_instret 0 h
  s.each (List.range 8) (fun k s =>
    (((s.clr .CORE_cmp h k).clr .CORE_cmp_set h k).clr .CORE_tip h k).clr .IMSIC_pend h k)

/-- Region `n`'s cores, queue contents and firmware spans are discarded (Table CORE-8, R537). -/
def State.coresDiscard (s : State) (n : Nat) : State :=
  let s := s.each (List.range 6) (fun i s => ((s.set .COR_CORE_state 0 n i).set .COR_CORE_run 0 n i).hartClear (hartOf n i))
  let s := s.each (List.range 256) (fun q s => s.set .COR_Q_cons (s.get .COR_Q_prod n q) n q)
  s.each (s.spans n) (fun p s => s.when (decide (s.get .SPAN_fw n p.1 = 1)) (fun s =>
    (s.set .SPAN_units 0 n p.1).set .SPAN_fw 0 n p.1))

end Sys2Proof.Machine
end

