-- ==== Sys2Proof/Machine/MkyOps.lean ====
section
/-! DEFINITION. Shared operations of memory keys and paging (spec file 12): key records, the key check, translations and page
requests, revocation. -/

namespace Sys2Proof.Machine

/-- Device address of key record `k` (R346). -/
def mkAddr (k : Nat) : Nat := (if k.testBit 19 then 6 else 5) * 2 ^ 44 + 0x0011_8000_0000 + k % 2 ^ 19 * 64

/-- Key record `k` as one little-endian number (Table MREG-1). -/
def State.mkRec (s : State) (k : Nat) : Nat := leNat (s.mread (mkAddr k) 64)

/-- Bytes [off, off + n) of a little-endian record. -/
def recAt (r off n : Nat) : Nat := bitsOf r (8 * off) (8 * n)

/-- state of a key record (Table MREG-2). -/
def State.mkState (s : State) (k : Nat) : Nat := s.mbyte (mkAddr k + 1)

/-- Whether a paged key. -/
def mkPaged (r : Nat) : Bool := r.testBit 24
/-- Endpoint that a key's flags name. -/
def mkEp (r : Nat) : Nat := bitsOf r 25 1
/-- Function of a key. -/
def mkFn (r : Nat) : Nat := recAt r 6 2
/-- PASID plus 1 of a key, 0 without. -/
def mkPasid (r : Nat) : Nat := if r.testBit 95 then bitsOf r 64 20 + 1 else 0

/-- Whether the record is treated as INVALID at DT64 `t` of the checking die (R357). -/
def State.mkInvalid (s : State) (k t : Nat) : Bool :=
  decide (s.mkState k = 2) || (decide (s.get .MK_revoke_at 0 k ≠ 0) && decide (s.get .MK_revoke_at 0 k ≤ t))

/-- Outcome of a key check: 0 pass, 2 ACCESS_REVOKED, 3 ACCESS_ERR inbound; any but 0 is LOCAL_ACCESS for a local check
(Table MREG-3). `right` is the rights bit needed; `conn` the connection's conn_id, none for a local check. -/
def State.keyCheck (s : State) (t tenant : Nat) (conn : Option Nat) (key addr len right : Nat) (atomic : Bool) : Nat :=
  let k := bitsOf key 8 20
  let r := s.mkRec k
  if bitsOf key 28 4 ≠ 0 ∨ s.mkState k = 0 then 3
  else if s.mkInvalid k t ∨ key % 256 ≠ recAt r 0 1 then 2
  else if recAt r 4 1 ≠ tenant then 3
  else if conn.isSome ∧ recAt r 12 4 ≠ 0xFFFFFFFF ∧ conn ≠ some (recAt r 12 4) then 3
  else if !(recAt r 2 1).testBit right then 3
  else if len ≠ 0 ∧ (addr < recAt r 16 8 ∨ recAt r 16 8 + recAt r 24 8 < addr + len) then 3
  else if atomic ∧ addr % 8 ≠ 0 then 3
  else 0

/-- Address in the function's space of virtual address `a` under a key record (Table MREG-1). -/
def iovaOf (r a : Nat) : Nat := (recAt r 32 8 + (a - recAt r 16 8)) % 2 ^ 64

/-- How the address translation cache numbers a page of a function under a PASID (R352). -/
def atcIx (f pasid page : Nat) : Nat := (f * 2 ^ 21 + pasid) * 2 ^ 52 + page % 2 ^ 52

/-- Pages that `len` bytes from `a` touch. -/
def pagesOf (a len : Nat) : List Nat :=
  if len = 0 then [] else (List.range ((a + len - 1) / 4096 - a / 4096 + 1)).map (fun i => a / 4096 + i)

/-- An ATS translation request leaves for a page, while the function has ATS enabled and may issue requests (R352, R436). -/
def State.atsAsk (s : State) (e f pasid page : Nat) : State :=
  let i := atcIx f pasid page
  if s.get .ATC_st e i = 0 ∧ s.get .FN_ats_en e f = 1 ∧ s.mayIssue e f then
    (s.set .ATC_st 1 e i).emit .pcieMsg [e, f, 1, page * 4096, pasid]
  else s

/-- Page requests outstanding of a function. -/
def State.priCount (s : State) (e f : Nat) : Nat :=
  ((s.keysOf .PRI_out).filter (fun k => decide (k.1 = e ∧ k.2 / 2 ^ 73 = f))).length

/-- A page request for a page that is not present: one per page, no more outstanding than the host's allocation, none while
the function has PRI disabled or after a Response Failure; beyond the allocation it waits for a slot (R353). -/
def State.priAsk (s : State) (e i : Nat) : State :=
  let f := i / 2 ^ 73
  if s.get .PRI_out e i = 1 ∨ s.get .PRI_stop e f = 1 ∨ s.get .FN_pri_en e f = 0 then s
  else if s.get .FN_pri_alloc e f ≤ s.priCount e f then s.set .PRI_wait 1 e i
  else
    (((s.set .PRI_out 1 e i).set .PRI_wait 0 e i).set .PRI_at s.now e i).addw .MKY_PRI_STAT_outstanding 1 e
      |>.emit .pcieMsg [e, f, 2, i % 2 ^ 52 * 4096, i / 2 ^ 52 % 2 ^ 21]

/-- What an access under a key finds of its pages: 0 all can be used, 1 some translation is on its way, 2 some page is not
present or lacks the permission, 3 the page request of some page failed (R352, R353). A pinned key needs none (R351). -/
def State.pagesReady (s : State) (r a len : Nat) (write : Bool) : Nat :=
  if !mkPaged r then 0
  else
    (pagesOf (iovaOf r a) len).foldl (fun acc pg =>
      let i := atcIx (mkFn r) (mkPasid r) pg
      let st := s.get .ATC_st (mkEp r) i
      let ok := decide (st = 2) && (s.get .ATC_perm (mkEp r) i).testBit (if write then 1 else 0)
      max acc (if st = 4 then 3 else if st = 3 ∨ (st = 2 ∧ !ok) then 2 else if ok then 0 else 1)) 0

/-- A failed page request has been answered: the pages of the access are asked for anew by the next (R353). -/
def State.pagesForget (s : State) (r a len : Nat) : State :=
  s.each (pagesOf (iovaOf r a) len) (fun pg s =>
    let i := atcIx (mkFn r) (mkPasid r) pg
    if s.get .ATC_st (mkEp r) i = 4 then s.set .ATC_st 0 (mkEp r) i else s)

/-- Translations are asked for every page of an access that has none, and page requests sent for those not present. -/
def State.pagesAsk (s : State) (r a len : Nat) (write : Bool) : State :=
  s.each (pagesOf (iovaOf r a) len) (fun pg s =>
    let i := atcIx (mkFn r) (mkPasid r) pg
    let st := s.get .ATC_st (mkEp r) i
    if st = 0 then s.atsAsk (mkEp r) (mkFn r) (mkPasid r) pg
    else if st = 3 ∨ (st = 2 ∧ !(s.get .ATC_perm (mkEp r) i).testBit (if write then 1 else 0)) then s.priAsk (mkEp r) i
    else s)

/-- Address that an access uses: the function's own, or the translated one of a paged key (R351, R352). -/
def State.accessAddr (s : State) (r a : Nat) : Nat :=
  let v := iovaOf r a
  if mkPaged r then s.get .ATC_addr (mkEp r) (atcIx (mkFn r) (mkPasid r) (v / 4096)) + v % 4096 else v

/-- How a request tells that its address is a translated one, in the place of the PASID (R352). -/
def atTranslated : Nat := 2 ^ 21

/-- The bytes are written to host memory under a key record, page by page for a paged key (R351, R352). -/
def State.keyWrite (s : State) (r a : Nat) (bytes : List Nat) : State :=
  if bytes = [] then s
  else if mkPaged r then
    s.each (pagesOf (iovaOf r a) bytes.length) (fun pg s =>
      let v := iovaOf r a
      let lo := max v (pg * 4096)
      let hi := min (v + bytes.length) (pg * 4096 + 4096)
      s.hostWriteD (mkEp r) (mkFn r) (s.accessAddr r (a + (lo - v))) atTranslated true (slice bytes (lo - v) (hi - lo)))
  else s.hostWriteD (mkEp r) (mkFn r) (s.accessAddr r a) (mkPasid r) true bytes

/-- A read of host memory under a key record, for the operation `kind`, `x`, `y`. -/
def State.keyRead (s : State) (r a len kind x y : Nat) : State :=
  s.readReqP (mkEp r) (mkFn r) (s.accessAddr r a) len kind x y (if mkPaged r then atTranslated else mkPasid r)

/-- Whether a key can be checked in region `n` now: its record is in the region's cache (R346), or it names none (R345). -/
def State.keyCached (s : State) (n key : Nat) : Bool := decide (s.get .KEYC_valid n (bitsOf key 8 20) = 1 ∨ bitsOf key 28 4 ≠ 0)

/-- A check missed the cache: it is counted and the record begins to load (R346). -/
def State.keyMiss (s : State) (n key : Nat) : State :=
  let k := bitsOf key 8 20
  if s.get .KEYC_fill n k = 1 then s
  else
    let s := s.set .KEYC_fill 1 n k
    if s.get .KEYC_miss n = 1023 then (s.set .KEYC_miss 0 n).bump .MKY_REGION_CNT1_key_miss n
    else s.addw .KEYC_miss 1 n

/-- An inbound packet failed the key check with `y` (2 ACCESS_REVOKED, else ACCESS_ERR): it is counted (R348). -/
def State.keyFail (s : State) (n y : Nat) : State :=
  if y = 2 then s.bump .MKY_REGION_CNT0_revoked n else s.bump .MKY_REGION_CNT0_access_err n

/-- The record is set INVALID in memory (Table MREG-2). -/
def State.mkSetState (s : State) (k st : Nat) : State := s.mput (mkAddr k + 1) st

/-- INVALIDATE_MKEY of a VALID record: revoke_at is the acceptance plus 2 µs (R357); `ch` is the channel plus 1 that waits, 0
none. -/
def State.mkRevoke (s : State) (k ch : Nat) : State :=
  (s.set .MK_revoke_at (s.now + 2 * usUnits) 0 k).set .MK_ch ch 0 k

/-- Keys that hold any record: the listed bytes of the record table whose state is VALID. -/
def State.validKeys (s : State) : List Nat :=
  s.mem.filterMap (fun c =>
    let o := c.1 % 2 ^ 44
    if (c.1 / 2 ^ 44 = 5 ∨ c.1 / 2 ^ 44 = 6) ∧ within o 0x0011_8000_0000 0x2000000 ∧ o % 64 = 1 ∧ c.2.toNat = 1 then
      some ((o - 0x0011_8000_0000) / 64 + (if c.1 / 2 ^ 44 = 6 then 2 ^ 19 else 0))
    else none)

/-- VALID keys whose record satisfies `p`. -/
def State.keysWhere (s : State) (p : Nat → Bool) : List Nat :=
  s.validKeys.filter (fun k => p (s.mkRec k))

/-- Translations that an IOD's address translation cache holds (R352). -/
def State.atcHeld (s : State) (e : Nat) : List Nat :=
  ((s.keysOf .ATC_st).filter (fun x => decide (x.1 = e ∧ s.get .ATC_st e x.2 = 2))).map (·.2)

/-- Connections stalled on a page (R356). -/
def State.stalledOn (s : State) (e i : Nat) : List Nat :=
  (s.keysOf .CN_stall).filterMap (fun x =>
    if s.get .CN_stall 0 x.2 = 1 ∧ s.get .CN_stall_e 0 x.2 = e ∧ s.get .CN_stall_pg 0 x.2 = i then some x.2 else none)

/-- The translations of an endpoint that satisfy `p` are dropped (R352, R359, Table HOST-7). A connection stalled on one goes on,
and asks for it anew. -/
def State.atcDrop (s : State) (e : Nat) (p : Nat → Bool) : State :=
  s.each (s.keysOf .ATC_st) (fun k s =>
    if k.1 = e ∧ p k.2 then
      (((s.set .ATC_st 0 e k.2).set .ATC_addr 0 e k.2).set .ATC_perm 0 e k.2).each (s.stalledOn e k.2) (fun c s => s.set .CN_stall 0 0 c)
    else s)

/-- Room for one more translation: with 65,536 held, one leaves, which one being open (R352; log entry 151). -/
def State.atcRoom (s : State) (e : Nat) : State :=
  let l := s.atcHeld e
  if l.length < 65536 then s else s.drew.atcDrop e (fun i => decide (i = l.getD (s.freeVal 32 % l.length) 0))

/-- Byte `off` and following `n` bytes of the record words of channel `c` as one number. -/
def State.chRec (s : State) (f : Field) (c words : Nat) : Nat :=
  ((List.range words).map (fun j => s.get f 0 (c * words + j) * 2 ^ (32 * j))).sum

/-- A key command ends with a result (Table MREG-5). -/
def State.mkyRes (s : State) (ch r : Nat) : State := (s.set .MKY_CH_busy 0 0 ch).set .MKY_CH_result r 0 ch

/-- The va and length words of a channel. -/
def State.mkyRange (s : State) (ch : Nat) : Nat × Nat :=
  let r := s.chRec .MKY_CH_record ch 16
  (recAt r 16 8, recAt r 24 8)

/-- Whether PREFETCH asks for write permission: the key has no right that reads (log entry 52). -/
def mkPfWrite (r : Nat) : Bool := !((recAt r 2 1).testBit 0 || (recAt r 2 1).testBit 2)

/-- A PREFETCH goes on: done when every page is there, PAGE_FAIL when a page request failed (Table MREG-4). -/
def State.pfStep (s : State) (ch : Nat) : State :=
  let r := s.mkRec (s.get .MKY_pf_key 0 ch)
  let (a, len) := s.mkyRange ch
  match s.pagesReady r a len (mkPfWrite r) with
  | 0 => (s.set .MKY_pf 0 0 ch).mkyRes ch 0
  | 3 => ((s.pagesForget r a len).set .MKY_pf 0 0 ch).mkyRes ch 7
  | _ => s.pagesAsk r a len (mkPfWrite r)

/-- Every PREFETCH that waits goes on. -/
def State.pfAll (s : State) : State :=
  s.each (List.range 4) (fun ch s => if s.get .MKY_pf 0 ch = 1 then s.pfStep ch else s)

end Sys2Proof.Machine
end

