-- ==== Sys2Proof/Machine/ConnOps.lean ====
section
/-! DEFINITION. Shared operations of Sillage connections (spec file 11): records, messages and their completion, failure of
messages and connections. -/

namespace Sys2Proof.Machine

/-- Message statuses (Table SILL-7). -/
def msACCESS_ERR : Nat := 1
/-- ACCESS_REVOKED. -/
def msACCESS_REVOKED : Nat := 2
/-- RNR_EXCEEDED. -/
def msRNR_EXCEEDED : Nat := 3
/-- REMOTE_OP_ERR. -/
def msREMOTE_OP_ERR : Nat := 4
/-- CONN_ERROR. -/
def msCONN_ERROR : Nat := 5
/-- FLUSHED. -/
def msFLUSHED : Nat := 6
/-- LOCAL_ACCESS. -/
def msLOCAL_ACCESS : Nat := 7

/-- Bytes of a connection's record (Table SILL-6). -/
def State.cn (s : State) (c off n : Nat) : Nat := recAt (s.get .CN_rec 0 c) off n

/-- Home region of a connection. -/
def State.cnHome (s : State) (c : Nat) : Nat := s.cn c 5 1 % 8
/-- Tenant of a connection. -/
def State.cnTenant (s : State) (c : Nat) : Nat := s.cn c 4 1
/-- A flag of a connection: 0 encrypt, 1 ipv6, 2 roce, 3 rtt_only. -/
def State.cnFlag (s : State) (c k : Nat) : Bool := (s.cn c 9 1).testBit k
/-- mtu of a connection in bytes (R319, R343). -/
def State.cnMtu (s : State) (c : Nat) : Nat :=
  match s.cn c 8 1 with
  | 0 => 4096
  | 1 => 8192
  | 2 => 1024
  | _ => 2048
/-- conn_id of a connection (Table SILL-4). -/
def State.cnId (s : State) (c : Nat) : Nat := s.cnHome c * 2 ^ 29 + s.get .CN_gen 0 c * 2 ^ 22 + c
/-- Region that serves a connection (R342). -/
def State.cnRegion (s : State) (c : Nat) : Nat := s.get .SIL_REDIRECT_region 0 (s.cnHome c)
/-- Endpoint and ring of a device ring number (R445). -/
def ringNo (n : Nat) : Nat × Nat := (n / 32768 % 2, n % 32768)
/-- First backend context (R321). -/
def backendCtx : Nat := 3932160
/-- Whether a connection serves a storage backend (R367). -/
def isBackendCtx (c : Nat) : Bool := decide (backendCtx ≤ c)
/-- Instance of sender and receiver message `m` of connection `c`. -/
def msIx (c m : Nat) : Nat := c * 64 + m % 64
/-- Instance of stored packet `psn` of connection `c`. -/
def rtIx (c psn : Nat) : Nat := c * 256 + psn % 256

/-- Tenant of the packets of message `m` of this side: that of the command, on a backend's connection (R326, R371). -/
def State.msgTenant (s : State) (c m : Nat) : Nat :=
  if isBackendCtx c ∧ s.get .MS_work 0 (msIx c m) ≠ 0 then s.get .WRK_tenant 0 (s.get .MS_work 0 (msIx c m) - 1) else s.cnTenant c

/-- Tenant of stored packet `i` of a connection. -/
def State.rtTenant (s : State) (c i : Nat) : Nat := if s.get .RT_resp 0 i = 1 then s.cnTenant c else s.msgTenant c (s.get .RT_msg 0 i)

/-- An event of a connection goes to the event ring of the function that owns sq (R341). -/
def State.cnEvent (s : State) (c kind detail : Nat) : State :=
  let (e, r) := ringNo (s.cn c 72 4)
  if isBackendCtx c then s
  else match s.ringFn e r with
    | some f => s.evtPost e f 1 kind (s.cnId c) detail
    | none => s

/-- The completion of work `w` can be written, with a status. -/
def State.workDone (s : State) (w status : Nat) : State :=
  if s.get .WRK_done 0 w = 1 then s else (s.set .WRK_status status 0 w).set .WRK_done 1 0 w

/-- A failure is reported for message `m` of connection `c`: as its completion's status, or, when that was already due, in
the connection's next completion and as a LATE_ERR event (R340). -/
def State.msReport (s : State) (c m st : Nat) : State :=
  let i := msIx c m
  if s.get .MS_work 0 i = 0 then s
  else if s.get .WRK_done 0 (s.get .MS_work 0 i - 1) = 1 then
    ((s.set .CN_late_msg m 0 c).set .CN_late_st st 0 c).cnEvent c 2 m
  else s.workDone (s.get .MS_work 0 i - 1) st

/-- Stored packets of connection `c` that satisfy `p`, by position in the store window. -/
def State.rtWhere (s : State) (c : Nat) (p : State → Nat → Bool) : List Nat :=
  ((List.range 256).map (fun k => c * 256 + k)).filter (fun i => decide (s.get .RT_st 0 i ≠ 0) && p s i)

/-- A stored packet is done with: acknowledged, or as though it were. -/
def State.rtAck (s : State) (c i : Nat) : State := ((s.set .RT_st 3 0 i).lset .rtData [] c (i % 256)).lset .rtTs [] c (i % 256)

/-- The lowest unacknowledged PSN moves past acknowledged packets (R324), at most `fuel` of them. -/
def State.unaAdvance (s : State) (c : Nat) : Nat → State
  | 0 => s
  | fuel + 1 =>
    let u := s.get .CN_una 0 c
    let i := rtIx c u
    if u ≠ s.get .CN_psn 0 c ∧ s.get .RT_st 0 i = 3 ∧ s.get .RT_psn 0 i = u then
      ((s.set .RT_st 0 0 i).set .CN_una (u + 1) 0 c).unaAdvance c fuel
    else s

/-- Message `m` of connection `c` is over at the sender. -/
def State.msDrop (s : State) (c m : Nat) : State :=
  ((s.set .MS_st 3 0 (msIx c m)).lset .msgData [] c (m % 64)).lset .cnMsgs ((s.lget .cnMsgs 0 c).erase m) 0 c

/-- A message fails: it sends no further packets, its outstanding packets count as acknowledged, and the failure is reported;
the connection stays ACTIVE (R340). The earliest failure is kept for a flush (R339). -/
def State.msFail (s : State) (c m st : Nat) : State :=
  let i := msIx c m
  if s.get .MS_failed 0 i = 1 then s
  else
    let s := (s.set .MS_failed 1 0 i).set .MS_status st 0 i
    let s := s.when (decide (s.get .CN_fail_st 0 c = 0)) (·.set .CN_fail_st st 0 c)
    let s := s.each (s.rtWhere c (fun s j => decide (s.get .RT_msg 0 j = m ∧ s.get .RT_resp 0 j = 0))) (fun j s => s.rtAck c j)
    ((s.unaAdvance c 256).msReport c m st).msDrop c m

/-- Everything a connection has incomplete completes with a status: messages begun, work not begun, receive buffers taken by
messages that are not complete (Table SILL-9). -/
def State.cnFlush (s : State) (c st : Nat) : State :=
  let s := s.each (s.lget .cnMsgs 0 c) (fun m s =>
    let w := s.get .MS_work 0 (msIx c m)
    (s.when (decide (w ≠ 0)) (·.workDone (w - 1) st)).msDrop c m)
  let s := s.each (s.lget .cnWq 0 c) (fun w s => s.workDone w st)
  let s := s.each ((List.range 64).map (fun k => c * 64 + k)) (fun i s =>
    let w := s.get .RM_buf 0 i
    (s.when (decide (s.get .RM_seen 0 i = 1 ∧ s.get .RM_done 0 i = 0 ∧ w ≠ 0)) (·.workDone (w - 1) st)).set .RM_seen 0 0 i)
  let s := s.each ((List.range 256).map (fun k => c * 256 + k)) (fun i s => ((s.set .RT_st 0 0 i).lset .rtData [] c (i % 256)).lset .rtTs [] c (i % 256))
  let (e, r) := ringNo (s.cn c 76 4)
  let s := s.lset .rxBufs ((s.lget .rxBufs e r).filter (fun w => decide (s.get .WRK_done 0 w = 0))) e r
  ((s.lset .cnMsgs [] 0 c).lset .cnWq [] 0 c).lset .cnExec [] 0 c

/-- The sender completion of a SEND, WRITE or WRITE_WITH_IMMEDIATE of a Sillage connection falls due once every packet of it has
left its egress port (R338). -/
def State.msSent (s : State) (c m : Nat) : State :=
  let i := msIx c m
  if s.get .MS_st 0 i = 2 ∧ s.get .MS_op 0 i ≤ 2 ∧ s.get .MS_failed 0 i = 0 ∧ s.get .MS_posted 0 i = 0 ∧
      s.rtWhere c (fun s j => decide (s.get .RT_msg 0 j = m ∧ s.get .RT_resp 0 j = 0 ∧ s.get .RT_left 0 j = 0)) = [] then
    let s := s.set .MS_posted 1 0 i
    if s.get .MS_work 0 i = 0 then s else s.workDone (s.get .MS_work 0 i - 1) 0
  else s

/-- A Sillage packet has left its egress port (R338). -/
def State.silLeft (s : State) (h : Nat) : State :=
  if s.get .PKT_sil 0 h = 0 ∨ s.get .PKT_sil_data 0 h % 2 = 0 then s
  else
    let c := s.get .PKT_sil 0 h - 1
    let i := rtIx c (s.get .PKT_sil_psn 0 h)
    if s.get .RT_st 0 i ≠ 0 ∧ s.get .RT_psn 0 i = s.get .PKT_sil_psn 0 h then
      let s := s.set .RT_left 1 0 i
      if s.cnFlag c 2 then s else s.msSent c (s.get .RT_msg 0 i)
    else s

/-- An ACTIVE connection enters ERROR (Table SILL-9). -/
def State.cnError (s : State) (c : Nat) : State :=
  if s.get .CN_state 0 c = 1 then ((s.set .CN_state 2 0 c).cnFlush c msCONN_ERROR).cnEvent c 1 0 else s

/-- Connections that are ACTIVE and satisfy `p`. -/
def State.cnWhere (s : State) (p : State → Nat → Bool) : List Nat :=
  (s.keysOf .CN_state).filterMap (fun k => if s.get .CN_state 0 k.2 = 1 ∧ p s k.2 then some k.2 else none)

/-- Whether any context of a tenant is not FREE. -/
def State.cnOfTenant (s : State) (t : Nat) : Bool :=
  (s.keysOf .CN_state).any (fun k => decide (s.get .CN_state 0 k.2 ≠ 0 ∧ s.cnTenant k.2 = t) && !isBackendCtx k.2)

/-- A region's transport block writes every cached context back (R537). -/
def State.cacheWriteBack (s : State) (n : Nat) : State :=
  s.each (s.keysOf .CACHE_in) (fun k s => if k.1 = n then s.set .CACHE_in 0 n k.2 else s)

/-- A region fault: connections whose cached context could not be written back enter ERROR (R538). -/
def State.cacheLost (s : State) (n : Nat) : State :=
  s.each (s.keysOf .CACHE_in) (fun k s => if k.1 = n then (s.set .CACHE_in 0 n k.2).cnError k.2 else s)

end Sys2Proof.Machine
end

