-- ==== Sys2Proof/Machine/StoreOps.lean ====
section
/-! DEFINITION. Shared operations of storage command offload (spec file 13): controllers, their queues and completions, the
release of commands, resets. -/

namespace Sys2Proof.Machine

/-- Function of controller `k` on its endpoint (R361, R419). -/
def ctrlFn (k : Nat) : Nat := if k % 512 = 0 then 1 else 516 + k % 512
/-- Endpoint of controller `k`. -/
def ctrlEp (k : Nat) : Nat := k / 512
/-- Controller of function `f` of endpoint `e`, if it can have one (R361). -/
def fnCtrl (e f : Nat) : Option Nat :=
  if f = 1 then some (512 * e) else if 517 ≤ f ∧ f < 1028 then some (512 * e + (f - 516)) else none
/-- Tenant of a controller (R464). -/
def State.ctrlTenant (s : State) (k : Nat) : Nat := s.ownerOf (ctrlEp k) (ctrlFn k)
/-- Instance of queue `q` of controller `k`. -/
def qIx (k q : Nat) : Nat := k * 65 + q

/-- Whether completion queue `q` of controller `k` has no free entry. -/
def State.cqFull (s : State) (k q : Nat) : Bool :=
  let i := qIx k q
  decide ((s.get .CQ_tail 0 i + 1) % max 1 (s.get .CQ_size 0 i) = s.get .CQ_head 0 i)

/-- A completion queue entry is written: DW0, SQ head and identifier, command identifier, phase and status; the interrupt
follows (NVMe over PCIe Transport; R374). `status` is Status Code Type × 256 + Status Code. -/
def State.cqe (s : State) (k sq cid status dw0 : Nat) : State :=
  let cq := s.get .SQ_cq 0 (qIx k sq)
  let i := qIx k cq
  if s.get .CQ_on 0 i = 0 then s
  else
    let t := s.get .CQ_tail 0 i
    let d := leBytes 4 dw0 ++ leBytes 4 0 ++ leBytes 2 (s.get .SQ_head 0 (qIx k sq)) ++ leBytes 2 sq ++ leBytes 2 cid ++
      leBytes 2 (s.get .CQ_phase 0 i + status * 2)
    let s := s.hostWrite (ctrlEp k) (ctrlFn k) (s.get .CQ_base 0 i + t * 16) d
    let wrap := decide (s.get .CQ_size 0 i ≤ t + 1)
    let s := s.set .CQ_tail (if wrap then 0 else t + 1) 0 i
    let s := s.when wrap (fun s => s.set .CQ_phase (1 - s.get .CQ_phase 0 i) 0 i)
    if s.get .CQ_ien 0 i = 1 ∧ s.get .CQ_iv 0 i < 65 then s.msix (ctrlEp k) (ctrlFn k) (s.get .CQ_iv 0 i) else s

/-- outstanding of NVE_CTRL_STAT follows the controller's list of commands. -/
def State.ctrlCount (s : State) (k : Nat) : State :=
  s.set .NVE_CTRL_STAT_outstanding (min 0xFFFF (s.lget .ctrlCmds 0 k).length) 0 k

/-- A command no longer holds back the queue that held it (R371). -/
def State.sqFree (s : State) (id : Nat) : State :=
  let i := qIx (s.get .CM_ctrl 0 id) (s.get .CM_sq 0 id)
  s.when (decide (s.get .SQ_block 0 i = id + 1)) (·.set .SQ_block 0 0 i)

/-- Command `id` leaves the device's hands: its data is discarded and it is no longer outstanding. -/
def State.cmdDrop (s : State) (id : Nat) : State :=
  let k := s.get .CM_ctrl 0 id
  let s := s.when (decide (s.get .CM_st 0 id = 5)) (fun s =>
    let j := s.get .CM_be 0 id * 64 + s.get .CM_q 0 id
    s.set .BEQ_out (s.get .BEQ_out 0 j - 1) 0 j)
  let s := (s.set .CM_st 6 0 id).set .CM_answered 1 0 id
  let s := s.each (s.lget .flushLeft 0 id) (fun j s =>
    (s.when (decide (s.get .CM_st 0 j = 5)) (fun s =>
      let q := s.get .CM_be 0 j * 64 + s.get .CM_q 0 j
      s.set .BEQ_out (s.get .BEQ_out 0 q - 1) 0 q)).set .CM_st 6 0 j)
  let s := (((s.lset .cmdData [] 0 id).lset .flushCover [] 0 id).lset .cmdPtrs [] 0 id).lset .cmdRanges [] 0 id
  let s := (s.lset .flushLeft [] 0 id).lset .ctrlCmds ((s.lget .ctrlCmds 0 k).erase id) 0 k
  (s.sqFree id).ctrlCount k

/-- A command's identifier (CDW0 [31:16]). -/
def State.cmdCid (s : State) (id : Nat) : Nat := recAt (s.get .CM_sqe 0 id) 2 2

/-- Command `id` completes with a status: its CQE is posted unless its controller is being reset, and it is dropped (Table
STOR-6, R379). -/
def State.cmdDone (s : State) (id status dw0 : Nat) : State :=
  let k := s.get .CM_ctrl 0 id
  let sq := s.get .CM_sq 0 id
  let cid := s.cmdCid id
  let s := s.cmdDrop id
  if s.get .NVE_CTRL_STAT_state 0 k = 2 then s else s.cqe k sq cid status dw0

/-- Commands of controller `k` in a state that satisfies `p`. -/
def State.cmdsWhere (s : State) (k : Nat) (p : Nat → Bool) : List Nat :=
  (s.lget .ctrlCmds 0 k).filter (fun id => p (s.get .CM_st 0 id))

/-- A controller's reset ends: what remains is discarded, its queues are gone and CSTS.RDY is 0 (R379). -/
def State.ctrlResetEnd (s : State) (k : Nat) : State :=
  let s := s.each (s.lget .ctrlCmds 0 k) (fun id s => s.cmdDrop id)
  let s := s.each ((List.range 65).map (fun q => qIx k q)) (fun i s =>
    ((((((s.set .SQ_on 0 0 i).set .CQ_on 0 0 i).set .SQ_head 0 0 i).set .SQ_tail 0 0 i).set .CQ_head 0 0 i).set .CQ_tail 0 0 i).set
      .SQ_block 0 0 i)
  let s := ((s.lset .aerCids [] 0 k).lset .aerWait [] 0 k).lset .nsChanged [] 0 k
  let s := s.each (s.lget .shnLeft 0 k) (fun id s => s.cmdDrop id)
  let s := (((s.lset .shnLeft [] 0 k).set .NC_csts 0 0 k).set .NC_chg 0 0 k |>.set .NC_reset_at 0 0 k).set .NC_en_at 0 0 k
  let s := ((s.set .NC_rr 0 0 k).set .NC_burst 0 0 k).set .NC_nsq 0 0 k
  (s.set .NC_shn 0 0 k).set .NVE_CTRL_STAT_state 0 0 k

/-- The parts of a Flush that have not been sent are given up (R379). -/
def State.flushCut (s : State) (id : Nat) : State :=
  s.each (s.lget .flushLeft 0 id) (fun j s =>
    if s.get .CM_st 0 j = 5 then s
    else ((s.set .CM_st 6 0 j).set .CM_answered 1 0 j).lset .flushLeft ((s.lget .flushLeft 0 id).erase j) 0 id)

/-- A controller reset (R379): fetching stops, commands not yet sent and those already answered are removed with nothing posted, and the
responses of those sent are awaited, of a Flush those of its parts sent; with a wait of 0, or none sent, it ends at once. -/
def State.ctrlReset (s : State) (k : Nat) (wait : Bool) : State :=
  let s := ((s.set .NC_stop 1 0 k).set .NVE_CTRL_STAT_state 2 0 k).set .NC_reset_at s.now 0 k
  let s := s.each (s.cmdsWhere k (fun st => decide (st ≠ 5))) (fun id s =>
    let s := s.flushCut id
    if s.lget .flushLeft 0 id = [] then s.cmdDrop id else s)
  if wait ∧ s.lget .ctrlCmds 0 k ≠ [] then s else s.ctrlResetEnd k

/-- Controllers of a tenant that are enabled. -/
def State.ctrlsOfTenant (s : State) (t : Nat) : List Nat :=
  (s.keysOf .NVE_CTRL_CFG_enable).filterMap (fun k =>
    if s.get .NVE_CTRL_CFG_enable 0 k.2 = 1 ∧ s.ctrlTenant k.2 = t then some k.2 else none)

/-- An asynchronous event of a controller: it completes the oldest waiting request, or waits for one (NVM Express Base 2.0). -/
def State.aerPost (s : State) (k dw0 : Nat) : State :=
  match (if s.cqFull k 0 then [] else s.lget .aerCids 0 k) with
  | cid :: r => (s.lset .aerCids r 0 k).cqe k 0 cid 0 dw0
  | [] => if (s.lget .aerWait 0 k).contains dw0 then s else s.lpush .aerWait dw0 0 k

/-- Namespace Attribute Changed: a Notice event with log page 04h (R365, R370). -/
def State.nsEvent (s : State) (k nsid : Nat) : State :=
  let s := s.lset .nsChanged (((s.lget .nsChanged 0 k).filter (· ≠ nsid)) ++ [nsid]) 0 k
  if (s.get .NC_feat_aec 0 k).testBit 8 ∧ s.get .NC_chg 0 k = 0 ∧ s.get .NC_csts 0 k % 2 = 1 then
    (s.set .NC_chg 1 0 k).aerPost k (2 + 0 * 256 + 4 * 65536)
  else s

end Sys2Proof.Machine
end

