-- ==== Sys2Proof/Machine/Errors.lean ====
section
/-! DEFINITION. Errors and their containment: the report of an error with its class's action (R531, R532), containment of a
tenant (R475), a region fault (R37, R538). -/

namespace Sys2Proof.Machine

/-- Rings of tenant `t` on endpoint `e` (R464), event rings last, so that their functions' events can still be posted. -/
def State.tenantRings (s : State) (t e : Nat) : List Nat :=
  let l := (s.keysOf .RNG_RING_state).filterMap (fun k =>
    if k.1 = e ∧ s.ringTenant e k.2 = some t then some k.2 else none)
  l.filter (fun r => decide (s.get .RNG_RING_kind e r ≠ 5)) ++ l.filter (fun r => decide (s.get .RNG_RING_kind e r = 5))

/-- A tenant is contained, in the order of R475; other tenants are unaffected. -/
def State.containTenant (s : State) (t : Nat) (forced : Bool) : State :=
  let s := (s.set .TEN_STATE_state 2 0 t).set .TEN_STATE_forced (b2n forced) 0 t
  let s := s.each [0, 1] (fun e s => s.each (s.tenantRings t e) (fun r s => s.ringError e r 3))
  let s := s.each (s.cnWhere (fun s c => decide (s.cnTenant c = t))) (fun c s => s.cnError c)
  let s := s.each (s.ctrlsOfTenant t) (fun k s =>
    let s := s.ctrlReset k false
    s.setb .NC_csts 1 true 0 k)
  let s := s.each (s.keysWhere (fun r => decide (recAt r 4 1 = t))) (fun k s =>
    s.when (decide (s.get .MK_revoke_at 0 k = 0)) (·.mkRevoke k 0))
  s.each [0, 1] (fun d s => s.each ((s.lkeysOf .txq).filter (fun k => decide (k.1 = d ∧ s.qTenant d k.2 = t)))
    (fun k s => s.queueDiscard d k.2 reasonTENANT_FATAL none))

/-- An error classed TENANT_FATAL: contained for an ACTIVE tenant, DEVICE_FATAL for tenant 0 (R531, R532, Table TEN-5). -/
def State.tenantFatal (s : State) (r : Err) (forced : Bool) : State :=
  if r.tenant = 0 then s.deviceFatal r
  else
    let s := s.report1 { r with cls := .tenantFatal }
    if s.get .TEN_STATE_state 0 r.tenant = 1 then s.containTenant r.tenant forced else s

/-- A CONTAINED error counts against its tenant's limit; more than tenant_limit within one second of DTS raise TENANT_LIMIT
(R532). -/
def State.tenantCount (s : State) (r : Err) : State :=
  let lim := s.get .ERR_TENANT_CFG_tenant_limit
  if r.tenant = 0 ∨ lim = 0 then s
  else
    let l := s.now :: (s.lget .errTimes 0 r.tenant).filter (fun t => decide (s.now ≤ t + secUnits))
    let s := s.lset .errTimes l 0 r.tenant
    if lim < l.length ∧ s.get .TEN_STATE_state 0 r.tenant = 1 then
      (s.lset .errTimes [] 0 r.tenant).tenantFatal { src := 0x1B, cls := .tenantFatal, tenant := r.tenant } false
    else s

/-- An error is reported with its class's action (R531). -/
def State.report (s : State) (r : Err) : State :=
  match r.cls with
  | .corrected => s.report1 r
  | .contained => (s.report1 r).tenantCount r
  | .tenantFatal => s.tenantFatal r false
  | .deviceFatal => s.deviceFatal r

/-- swapped_mask and draining_mask follow the regions' states (STR_STATUS). -/
def State.strMasks (s : State) : State :=
  let m := fun (p : Nat → Bool) => (List.range 8).foldl (fun m n => if p (s.get .STR_REGION_STATE_state 0 n) then m + 2 ^ n else m) 0
  (s.set .STR_STATUS_swapped_mask (m (fun st => decide (st = 2 ∨ st = 3)))).set .STR_STATUS_draining_mask
    (m (fun st => decide (st = 2 ∨ st = 4)))

/-- Region `n` has drained (R165, R177): DRAIN_FWD becomes SWAPPED with the old context retained; in DRAIN_BACK the new instances
are to be written again (R215). -/
def State.drainEnd (s : State) (n : Nat) : State :=
  match s.get .STR_REGION_STATE_state 0 n with
  | 2 => ((s.set .STR_REGION_STATE_state 3 0 n).set .STR_REGION_STATE_inflight 0 0 n).strMasks
  | 4 => (s.set .STR_rewrite 1 0 n).set .STR_REGION_STATE_inflight 0 0 n
  | _ => s

/-- A fault passes to region `n`: it is reported, and the region goes offline with no drain time and without the checks of
R536 (R37, R538, R541). During a change of image it counts as drained (R175). A FAILED region stays so until power-on reset. Whether the fault of the last online
region, which leaves no region to take its work (R39), is DEVICE_FATAL the spec does not say: here it is this CONTAINED error
(DESIGN CHOICE, log entry 155). -/
def State.regionFault (s : State) (n : Nat) : State :=
  let s := s.drainEnd n
  let s := s.report { src := 0x17, cls := .contained, level := some 2, die := 4 + n / 2, region := n }
  if s.get .ERR_REGION_STATE_state 0 n = 5 then s
  else
    let was := s.online n
    let s := ((s.set .ERR_REGION_STATE_state 1 0 n).set .ERR_REGION_STATE_bist_pass 0 0 n).set .SRV_fault 1 0 n
    let s := (s.set .SRV_accept_at s.now 0 n).set .SRV_limit 0 0 n
    s.when was (·.set .SRV_effective 0 0 n)

/-- An error of a request, packet or command of a tenant (R532). -/
def tenantErr (src tenant die region : Nat) : Err :=
  { src := src, cls := .contained, tenant := tenant, die := die, region := region }

end Sys2Proof.Machine
end

