-- ==== Sys2Proof/Machine/KeyOps.lean ====
section
/-! DEFINITION. The key store (spec file 14): slots in HBM, wrapping and its tag check, material, caches of the region cipher blocks
and of the MACsec engines; tenant records (spec file 18). -/

namespace Sys2Proof.Machine

/-- Numbers of the primitives of the key store among those of `Config.crypto` and `Config.verifies` (log entry 4): AES-256-GCM-SIV
seal and open. -/
def algSivSeal : Nat := 5
/-- Unwrapping of a slot. -/
def algSivOpen : Nat := 6
/-- AES-GCM seal: ciphertext and tag. -/
def algGcmSeal : Nat := 7
/-- AES-GCM open: plaintext. -/
def algGcmOpen : Nat := 8
/-- AES-XTS encryption of a data unit. -/
def algXtsEnc : Nat := 9
/-- AES-XTS decryption. -/
def algXtsDec : Nat := 10
/-- Output of the CTR_DRBG. -/
def algDrbg : Nat := 11
/-- RFC 3394 unwrap. -/
def algUnwrap : Nat := 12
/-- AES-CMAC. -/
def algCmac : Nat := 13
/-- Derivation function kdf `k` of Table CIPH-7 is `algKdf + k`. -/
def algKdf : Nat := 30
/-- ChaCha20-Poly1305 seal. -/
def algChaSeal : Nat := 14
/-- ChaCha20-Poly1305 open. -/
def algChaOpen : Nat := 15

/-- Device address of key slot `k` (R393). -/
def slotAddr (k : Nat) : Nat := (if k.testBit 23 then 6 else 5) * 2 ^ 44 + 0x1280000000 + k % 2 ^ 23 * 64

/-- attr of a slot (Table CIPH-4). -/
def State.slotAttr (s : State) (k : Nat) : Nat := leNat (s.mread (slotAddr k) 4)
/-- kind of an attr. -/
def attrKind (a : Nat) : Nat := a % 16
/-- masked. -/
def attrMasked (a : Nat) : Bool := a.testBit 8
/-- fault_check. -/
def attrCheck (a : Nat) : Bool := a.testBit 9
/-- pair. -/
def attrPair (a : Nat) : Bool := a.testBit 10
/-- valid. -/
def attrValid (a : Nat) : Bool := a.testBit 11
/-- mat_len. -/
def attrLen (a : Nat) : Nat := bitsOf a 12 7
/-- tenant of an attr. -/
def attrTenant (a : Nat) : Nat := bitsOf a 19 8
/-- Key bytes of a kind (Table CIPH-5); SECRET material is all key. -/
def attrKeyLen (a : Nat) : Nat :=
  match attrKind a with
  | 0 => 16
  | 3 => 64
  | 5 => attrLen a
  | _ => 32

/-- Nonce and additional data of a slot's wrapping (R395). -/
def slotAad (k a : Nat) : List Nat := leBytes 4 k ++ leBytes 4 a

/-- Whether the tag of one slot checks: never while one of its words is poisoned (R395, R544). -/
def State.slotTag (s : State) (k : Nat) : Bool :=
  decide (s.get .KEY_bad 0 k = 0) && Config.verifies algSivOpen [s.lget .keyRoot, leBytes 12 k, slotAad k (s.slotAttr k), s.mread (slotAddr k + 4) 60]

/-- Whether the tag of a slot, and of its partner, checks. -/
def State.slotGood (s : State) (k : Nat) : Bool := s.slotTag k && (!attrPair (s.slotAttr k) || s.slotTag (k + 1))

/-- Unwrapped bytes of one slot. -/
def State.slotOpen (s : State) (k : Nat) : List Nat :=
  (Config.crypto algSivOpen [s.lget .keyRoot, leBytes 12 k, slotAad k (s.slotAttr k), s.mread (slotAddr k + 4) 60]).take 44

/-- Material of a slot (R394, R396). -/
def State.slotMat (s : State) (k : Nat) : List Nat :=
  let a := s.slotAttr k
  (s.slotOpen k ++ (if attrPair a then s.slotOpen (k + 1) else [])).take (attrLen a)

/-- One slot written with an attr and up to 44 bytes of material, wrapped (R395). -/
def State.slotPut (s : State) (k a : Nat) (mat : List Nat) : State :=
  (s.set .KEY_bad 0 0 k).mwrite (slotAddr k) (leBytes 4 a ++ (Config.crypto algSivSeal [s.lget .keyRoot, leBytes 12 k, slotAad k a, (mat ++ List.replicate 44 0).take 44]
    ++ List.replicate 60 0).take 60)

/-- A key written into a slot, and its pair partner (R396). -/
def State.slotStore (s : State) (k a : Nat) (mat : List Nat) : State :=
  let s := s.slotPut k a (mat.take 44)
  s.when (attrPair a) (·.slotPut (k + 1) a (mat.drop 44))

/-- A slot found corrupt is counted and reported (R395). -/
def State.slotCorrupt (s : State) (k : Nat) : State :=
  (s.bump .KEY_STAT_slots_corrupt).report { src := 0x11, cls := .contained, tenant := attrTenant (s.slotAttr k), region := 10 }

/-- A slot and its partner are written with valid = 0 and zero material (R401). -/
def State.slotWipe (s : State) (k : Nat) : State :=
  let p := attrPair (s.slotAttr k)
  ((s.set .KEY_bad 0 0 k).when p (·.set .KEY_bad 0 0 (k + 1))).mwrite (slotAddr k) (List.replicate (if p then 128 else 64) 0)

/-- Slots with valid = 1 among the listed memory of the key range. -/
def State.validSlots (s : State) : List Nat :=
  s.mem.filterMap (fun c =>
    let o := c.1 % 2 ^ 44
    if (c.1 / 2 ^ 44 = 5 ∨ c.1 / 2 ^ 44 = 6) ∧ within o 0x1280000000 0x20000000 ∧ o % 64 = 1 ∧ c.2.toNat.testBit 3 then
      some ((o - 0x1280000000) / 64 + (if c.1 / 2 ^ 44 = 6 then 2 ^ 23 else 0))
    else none)

/-- The key of a slot leaves every cache and MACsec engine (R401). -/
def State.keyEvict (s : State) (k : Nat) : State :=
  let s := s.each (List.range 8) (fun n s => ((s.set .CIPC_st 0 n k).set .CIPC_at 0 n k).lset .cipKey [] n k)
  s.each (s.keysOf .ETH_sa_key) (fun x s =>
    if s.get .ETH_MSEC_SA_key_slot x.1 x.2 = k then (s.set .ETH_sa_key 0 x.1 x.2).lset .saKey [] x.1 x.2 else s)

/-- DESTROY of a slot (R401). -/
def State.keyDestroy (s : State) (k : Nat) : State := (s.slotWipe k).keyEvict k

/-- A key-store load of slot `k` for an engine: its material, when the slot holds a key that may leave the key store and its tag
checks (R392, R395, R396). -/
def State.keyFetch (s : State) (k : Nat) : State × Option (List Nat) :=
  let a := s.slotAttr k
  if !attrValid a ∨ !a.testBit 4 then (s, none)
  else if s.slotGood k then (s, some (s.slotMat k)) else (s.slotCorrupt k, none)

/-- An operation needs a key in a region's cache: 2 it is there, 3 it cannot be had, 1 it is being loaded; a miss is counted
(R398). -/
def State.cipNeed (s : State) (n k : Nat) : State × Nat :=
  match s.get .CIPC_st n k with
  | 2 => (((s.addw .CIPC_tick 1 n).set .CIPC_at (s.get .CIPC_tick n + 1) n k), 2)
  | 3 => (s.set .CIPC_st 0 n k, 3)
  | 1 => (s, 1)
  | _ => ((s.set .CIPC_st 1 n k).bump .CIP_REGION_CNT1_key_miss n, 1)

/-- Keys that a region's cache holds. -/
def State.cipHeld (s : State) (n : Nat) : List Nat :=
  ((s.keysOf .CIPC_st).filter (fun x => decide (x.1 = n ∧ s.get .CIPC_st n x.2 = 2))).map (·.2)

/-- The least recently used of a list of keys. -/
def State.cipOldest (s : State) (n : Nat) : List Nat → Option Nat
  | [] => none
  | k :: r =>
    match s.cipOldest n r with
    | none => some k
    | some j => if s.get .CIPC_at n k ≤ s.get .CIPC_at n j then some k else some j

/-- A key arrives at a region's cache, in the place of the least recently used when 4,096 are held (R398). -/
def State.cipLoad (s : State) (n k : Nat) : State :=
  match s.keyFetch k with
  | (s, none) => (s.set .CIPC_st 3 n k).lset .cipKey [] n k
  | (s, some m) =>
    let s := if 4096 ≤ (s.cipHeld n).length then
        match s.cipOldest n (s.cipHeld n) with
        | some j => ((s.set .CIPC_st 0 n j).set .CIPC_at 0 n j).lset .cipKey [] n j
        | none => s
      else s
    (((s.set .CIPC_st 2 n k).addw .CIPC_tick 1 n).set .CIPC_at (s.get .CIPC_tick n + 1) n k).lset .cipKey m n k

/-- Material of the key that region `n` holds for slot `k`. -/
def State.cipMat (s : State) (n k : Nat) : List Nat := s.lget .cipKey n k

/-- A cipher operation ended without output (R392). -/
def State.cipFail (s : State) (n : Nat) : State := s.bump .CIP_REGION_CNT0_cipher_fail n

/-- A fault_check comparison disagreed (R392). -/
def State.cipMismatch (s : State) (n tenant k : Nat) : State :=
  (s.bump .CIP_REGION_CNT0_fault_mismatch n).report
    { src := 0x0F, cls := .contained, die := 4 + n / 2, region := n, tenant := tenant }

/-- Bytes [off, off + n) of the record in force of tenant `t` (Table TEN-2). -/
def State.trec (s : State) (t off n : Nat) : Nat := recAt (s.get .TREC 0 t) off n
/-- First key slot and number of slots of a record. -/
def recKeys (r : Nat) : Nat × Nat := (recAt r 0 4 % 2 ^ 24, recAt r 4 4 % 2 ^ 25)
/-- First ring and number of rings of a record on an endpoint. -/
def recRings (r e : Nat) : Nat × Nat := (recAt r (8 + 4 * e) 2, recAt r (10 + 4 * e) 2)
/-- First PASID and number of PASIDs of a record. -/
def recPasids (r : Nat) : Nat × Nat := (recAt r 16 4 % 2 ^ 20, recAt r 20 4 % 2 ^ 21)
/-- Window `w` of a record: base, stack, size. -/
def recWindow (r w : Nat) : Nat × Nat × Nat :=
  let v := recAt r (24 + 4 * w) 4
  (v % 2 ^ 13, bitsOf v 13 1, bitsOf v 14 13)
/-- Whether `x` lies in a range. -/
def inRange (r : Nat × Nat) (x : Nat) : Bool := within x r.1 r.2
/-- Whether slot `k` lies in tenant `t`'s key range. -/
def State.tenSlot (s : State) (t k : Nat) : Bool := inRange (recKeys (s.get .TREC 0 t)) k
/-- Whether a PASID lies in tenant `t`'s range. -/
def State.tenPasid (s : State) (t p : Nat) : Bool := inRange (recPasids (s.get .TREC 0 t)) p
/-- Whether a ring of an endpoint lies in tenant `t`'s range. -/
def State.tenRing (s : State) (t e r : Nat) : Bool := inRange (recRings (s.get .TREC 0 t) e) r
/-- Whether tenant `t` is ACTIVE. -/
def State.tenActive (s : State) (t : Nat) : Bool := decide (s.get .TEN_STATE_state 0 t = 1)
/-- Device address of the start of a window (R465). -/
def windowAddr (w : Nat × Nat × Nat) : Nat := (5 + w.2.1) * 2 ^ 44 + 0x1300000000 + w.1 * 2 ^ 21
/-- Whether `len` bytes at device address `a` lie inside one window of tenant `t` (R465). -/
def State.inWindow (s : State) (t a len : Nat) : Bool :=
  (List.range 4).any (fun w =>
    let x := recWindow (s.get .TREC 0 t) w
    decide (windowAddr x ≤ a ∧ a + len ≤ windowAddr x + x.2.2 * 2 ^ 21 ∧ x.2.2 ≠ 0))

end Sys2Proof.Machine
end

