-- ==== Sys2Proof/Machine/RegMap.lean ====
section
/-! DEFINITION. The register map: where every register word lies (Table REGS-1, R569) and which fields it holds at which
bits, with their access types (the register tables of spec files 01 to 22). -/

namespace Sys2Proof.Machine

/-- Access types (Table SCOPE-3, R9). -/
inductive Access where | RW | RO | WO | W1C | W1S | RC | RWL
deriving DecidableEq, Repr

/-- Which part of a field a slot shows: the whole, or the low or high word of a 64-bit quantity (R13). -/
inductive Part where | full | lo | hi
deriving DecidableEq, Repr

/-- Which dies or windows a block lies on (Table REGS-1, column Where). -/
inductive Where where | every | ctd | tmd | iod | iod0 | fbr | rcv | fnbar
deriving DecidableEq, Repr

/-- A field inside a register word. -/
structure Slot where
  f : Field
  lo : Nat
  w : Nat
  acc : Access
  part : Part
deriving DecidableEq, Repr

/-- The names of the register words. -/
inductive Reg where
  | PKG_DIE_INFO
  | PKG_PEING_LINK
  | XD_SPEED
  | XD_CLK_PRESENT
  | XD_CLK_LOST
  | XD_CLK_DIE_PRESENT
  | TS_CTRL
  | TS_STATUS
  | TS_NOW_LO
  | TS_NOW_HI
  | TS_NOW_UNC
  | TS_AB_DIFF
  | TS_TOD_SET_LO
  | TS_TOD_SET_HI
  | TS_TOD_SET_UNC
  | TS_UTC_OFFSET
  | TS_REF_CFG
  | TS_REF_STATUS
  | TS_REF_DELAY
  | TS_PTP_CFG
  | TS_SERVO_CFG
  | TS_SERVO_LIM
  | TS_OSC_CFG
  | TS_HOLD_MODEL0
  | TS_HOLD_MODEL1
  | TS_HOLDOVER_MAX
  | TS_LEARN
  | TS_CHAIN_DIGEST
  | TS_AMBER_LOG_BASE
  | TS_RING_BASE_LO
  | TS_RING_BASE_HI
  | TS_RING_CFG
  | TS_RING_PROD
  | TS_RING_CONS
  | TS_RING_STAT
  | TS_AMBER_SEQ
  | TS_AMBER_FETCH
  | TSU_PORT_CAL
  | TSU_PORT_STATUS
  | TSU_PEER_DELAY
  | TSU_PORT_ERR
  | TSU_LATE_CNT
  | TSU_LAUNCH_PROF
  | TSU_PTM_CFG
  | TSU_PTM_STATUS
  | TSU_PTM_DELAY
  | TS_PPS_CFG
  | TS_PPS_DELAY
  | STR_CMD
  | STR_CMD_STATUS
  | STR_SWAP_AT_LO
  | STR_SWAP_AT_HI
  | STR_STATUS
  | STR_REGION_STATE
  | STR_WDOG
  | STR_DRAIN_LIMIT
  | STR_MIN_VERSION
  | STR_SLOT_W00
  | STR_SLOT_W04
  | STR_SLOT_W08
  | STR_EVENTS
  | STR_DROP_CNT
  | CLS_PORT_DEF
  | CLS_PORT_DEST
  | CLS_PUNT_RATE
  | CLS_FRAG_CFG
  | CLS_DEF_CNT
  | CLS_PUNT_CNT
  | CLS_FRAG_STAT
  | CLS_FRAG_CNT0
  | CLS_FRAG_CNT1
  | CLS_POLICER_W00
  | CLS_POLICER_W04
  | CLS_POLICER_W08
  | CLS_POLICER_W0C
  | PAR_FAIL_CNT
  | CLS_STEER_CNT
  | EXM_CH_KEY
  | EXM_CH_VALUE
  | EXM_CH_W00
  | EXM_CH_W04
  | EXM_CH_W08
  | EXM_CH_W0C
  | EXM_TABLE_STAT_W00
  | EXM_TABLE_STAT_W04
  | EXM_TABLE_STAT_W08
  | EXM_TABLE_STAT_W0C
  | EXM_TABLE_STAT_W10
  | EXM_TABLE_STAT_W14
  | EXM_TABLE_STAT_W18
  | EXM_TABLE_STAT_W1C
  | EXM_EVT_CFG
  | EXM_EVT_STAT
  | EXM_REGION_CNT
  | TCM_CH_entry_result_LO
  | TCM_CH_entry_result_HI
  | TCM_CH_KEY
  | TCM_CH_MASK
  | TCM_CH_W00
  | TCM_CH_W04
  | TCM_CH_W08
  | TCM_CH_W0C
  | TCM_CH_W10
  | TCM_REGION_STAT
  | TCM_QUAR_LOG
  | PAT_CH_src_LO
  | PAT_CH_src_HI
  | PAT_CH_dst_LO
  | PAT_CH_dst_HI
  | PAT_CH_W00
  | PAT_CH_W04
  | PAT_CH_W10
  | PAT_CH_W1C
  | PAT_REGION_CFG
  | PAT_REGION_STAT
  | ETH_MODE
  | ETH_PORT_CFG
  | ETH_PORT_STATUS
  | ETH_PFC_CLASS
  | ETH_MSEC_CFG
  | ETH_MSEC_RXSC_sci_LO
  | ETH_MSEC_RXSC_sci_HI
  | ETH_MSEC_RXSC_W08
  | ETH_MSEC_SA_pn_LO
  | ETH_MSEC_SA_pn_HI
  | ETH_MSEC_SA_pn_warn_LO
  | ETH_MSEC_SA_pn_warn_HI
  | ETH_MSEC_SA_W00
  | ETH_MSEC_SA_W14
  | ETH_MSEC_SA_W18
  | ETH_STAT_count_LO
  | ETH_STAT_count_HI
  | ETH_STAT_HALF_LO
  | ETH_STAT_HALF_HI
  | ETH_WAKE_CFG
  | ETH_WAKE_MAC_LO
  | ETH_WAKE_MAC_HI
  | ETH_WAKE_STATUS
  | ETH_WAKE_PAT_WORD
  | ETH_WAKE_PAT_MASK
  | ETH_NCSI_CFG
  | ETH_NCSI_STAT
  | SCH_PORT_CFG
  | SCH_PORT_DROP
  | SCH_SAMPLE_CFG
  | SCH_SAMPLE_RING_BASE_LO
  | SCH_SAMPLE_RING_BASE_HI
  | SCH_SAMPLE_PROD
  | SCH_SAMPLE_CONS
  | SCH_SAMPLE_STAT
  | SCH_SAMPLE_Q
  | SCH_NODE_W00
  | SCH_NODE_W04
  | SCH_NODE_W08
  | SCH_NODE_W0C
  | SCH_NODE_W10
  | SCH_NODE_W14
  | SCH_NODE_W18
  | SCH_NODE_W1C
  | SCH_QSTAT_W00
  | SCH_QSTAT_W04
  | SCH_RECON_CFG
  | SCH_RECON_STAT
  | SCH_TENANT_WEIGHT
  | SCH_REGION_QUANTUM
  | SIL_CFG
  | SIL_ACK_CFG
  | SIL_PATH_CFG
  | SIL_PATH_CFG1
  | SIL_CC_CFG0
  | SIL_CC_CFG1
  | SIL_CC_CFG2
  | SIL_CC_CFG3
  | SIL_REDIRECT
  | SIL_CH_RECORD
  | SIL_CH_W00
  | SIL_CH_W04
  | SIL_CH_W08
  | SIL_RX_CNT0
  | SIL_RX_CNT1
  | SIL_TX_CNT
  | SIL_CACHE_CNT
  | MKY_CFG
  | MKY_CH_revoke_at_LO
  | MKY_CH_revoke_at_HI
  | MKY_CH_RECORD
  | MKY_CH_W00
  | MKY_CH_W04
  | MKY_REGION_CNT0
  | MKY_REGION_CNT1
  | MKY_PRI_STAT
  | NVE_CFG
  | NVE_CH_RECORD
  | NVE_CH_W00
  | NVE_CH_W04
  | NVE_CH_W08
  | NVE_CTRL_CFG
  | NVE_CTRL_STAT
  | NVE_BE_STAT_W00
  | NVE_BE_STAT_W04
  | NVE_REGION_CNT0
  | NVE_REGION_CNT1
  | KEY_CH_src_addr_LO
  | KEY_CH_src_addr_HI
  | KEY_CH_DATA
  | KEY_CH_W00
  | KEY_CH_W04
  | KEY_CH_W08
  | KEY_CH_W0C
  | KEY_CH_W10
  | KEY_CH_W14
  | KEY_CH_W20
  | KEY_STAT
  | CIP_REGION_CNT0
  | CIP_REGION_CNT1
  | COR_CORE_entry_LO
  | COR_CORE_entry_HI
  | COR_CORE_arg_LO
  | COR_CORE_arg_HI
  | COR_CORE_inj_base_LO
  | COR_CORE_inj_base_HI
  | COR_CORE_W00
  | COR_CORE_W1C
  | COR_CORE_W20
  | COR_CORE_W24
  | COR_CORE_W28
  | COR_Q_base_LO
  | COR_Q_base_HI
  | COR_Q_W08
  | COR_Q_W0C
  | COR_Q_W10
  | COR_Q_W14
  | COR_PKT_ALLOC
  | COR_IPI
  | PCI_EP_CFG
  | PCI_ID_CFG
  | PCI_APERTURE_LO
  | PCI_APERTURE_HI
  | PCI_TAG_CFG
  | PCI_CPL_STAT0
  | PCI_CPL_STAT1
  | PCI_LINK_STAT
  | PCI_FN_STAT
  | RNG_CFG
  | RNG_STAT
  | RNG_FN_MAP_W00
  | RNG_FN_MAP_W04
  | RNG_NVME_WRR
  | RNG_RING_base_LO
  | RNG_RING_base_HI
  | RNG_RING_W08
  | RNG_RING_W0C
  | RNG_RING_W14
  | RNG_RING_W18
  | RNG_RING_W1C
  | RNG_RING_W10
  | RNG_FN_EVT
  | RNG_FN_STAT
  | TEN_CMD
  | TEN_CMD_STATUS
  | TEN_REC
  | TEN_STATE
  | TEN_FN_OWNER
  | TEN_DROP_CNT
  | NRL_CFG
  | NRL_BUDGET
  | NRL_MIN_GRANT
  | NRL_IOD_COST
  | NRL_PMBUS_CFG
  | NRL_PMBUS_ADDR
  | NRL_MEAS
  | NRL_EST
  | NRL_K
  | NRL_TOTAL_LO
  | NRL_TOTAL_HI
  | NRL_OVERHEAD_LO
  | NRL_OVERHEAD_HI
  | NRL_REGION_CFG
  | NRL_TENANT_CFG_used_LO
  | NRL_TENANT_CFG_used_HI
  | NRL_TENANT_CFG_W00
  | NRL_TENANT_CFG_W04
  | NRL_REGION_STAT
  | NRL_EPE
  | NRL_LEAK
  | NRL_CREDIT
  | AGE_CFG
  | AGE_REGION
  | BOOT_STATUS
  | BOOT_EVENTS
  | BOOT_CTRL
  | BOOT_IMAGE_W00
  | BOOT_IMAGE_W04
  | BOOT_ARB
  | BOOT_KEY
  | BOOT_FLASH_STAT
  | BOOT_COUNT
  | BOOT_RCV_CTRL
  | BOOT_RCV_STATUS
  | BOOT_RCV_OFFSET
  | BOOT_RCV_LEN
  | ONX_STATUS
  | ONX_NONCE
  | ONX_SERIAL_LO
  | ONX_SERIAL_HI
  | ONX_OWNER
  | ONX_CTRL
  | ONX_MBOX
  | ERR_STATUS
  | ERR_CNT
  | ERR_IRQ_CFG
  | ERR_TENANT_CFG
  | ERR_LOG_HEAD
  | ERR_LOG_dt64_LO
  | ERR_LOG_dt64_HI
  | ERR_LOG_addr_LO
  | ERR_LOG_addr_HI
  | ERR_LOG_W08
  | ERR_LOG_W0C
  | ERR_LOG_W18
  | ERR_REGION_CMD
  | ERR_REGION_STATE
  | ERR_TEST_CFG
  | ERR_HBM_CMD
  | ERR_HBM_PC
  | TMX_CFG
  | TMX_SEL
  | PKG_THERM
  | PKG_PWR_EVENTS
deriving DecidableEq, Repr

/-- One register word, or an array of them: its place, offset, the (count, stride) of each array dimension, its fields. -/
structure RegRow where
  reg : Reg
  loc : Where
  off : Nat
  dims : List (Nat × Nat)
  slots : List Slot
deriving DecidableEq, Repr

/-- Register words of block PKG_. -/
def regRowsPkg : List RegRow :=
  [⟨.PKG_DIE_INFO, .every, 0x0, [],
     [⟨.PKG_DIE_INFO_die_num, 0, 4, .RO, .full⟩,
      ⟨.PKG_DIE_INFO_die_kind, 4, 4, .RO, .full⟩,
      ⟨.PKG_DIE_INFO_stepping, 8, 8, .RO, .full⟩,
      ⟨.PKG_DIE_INFO_hbm_present, 16, 1, .RO, .full⟩,
      ⟨.PKG_DIE_INFO_hbm_trained, 17, 1, .RO, .full⟩]⟩,
   ⟨.PKG_PEING_LINK, .every, 0x100, [(8, 0x10)],
     [⟨.PKG_PEING_LINK_kind, 0, 2, .RO, .full⟩,
      ⟨.PKG_PEING_LINK_state, 2, 2, .RO, .full⟩,
      ⟨.PKG_PEING_LINK_spares_used, 4, 3, .RO, .full⟩,
      ⟨.PKG_PEING_LINK_present, 7, 1, .RO, .full⟩,
      ⟨.PKG_PEING_LINK_corrected_count, 16, 16, .RC, .full⟩]⟩,
   ⟨.PKG_THERM, .every, 0x200, [],
     [⟨.PKG_THERM_tj_qc, 0, 10, .RO, .full⟩,
      ⟨.PKG_THERM_peak_qc, 10, 10, .RC, .full⟩,
      ⟨.PKG_THERM_warn, 20, 1, .RO, .full⟩,
      ⟨.PKG_THERM_trip, 21, 1, .RO, .full⟩]⟩,
   ⟨.PKG_PWR_EVENTS, .ctd, 0x210, [],
     [⟨.PKG_PWR_EVENTS_pwr_fail, 0, 1, .W1C, .full⟩,
      ⟨.PKG_PWR_EVENTS_pwr_fail_done, 1, 1, .W1C, .full⟩,
      ⟨.PKG_PWR_EVENTS_rail_drop, 2, 1, .W1C, .full⟩,
      ⟨.PKG_PWR_EVENTS_thermtrip, 3, 1, .W1C, .full⟩,
      ⟨.PKG_PWR_EVENTS_rail, 4, 4, .RO, .full⟩]⟩]

/-- Register words of block XD_. -/
def regRowsXd : List RegRow :=
  [⟨.XD_SPEED, .fbr, 0x0, [],
     [⟨.XD_SPEED_rel_speed, 0, 12, .RO, .full⟩,
      ⟨.XD_SPEED_v_mv, 12, 10, .RO, .full⟩,
      ⟨.XD_SPEED_tj_qc, 22, 10, .RO, .full⟩]⟩,
   ⟨.XD_CLK_PRESENT, .ctd, 0x1100, [],
     [⟨.XD_CLK_PRESENT_present, 0, 18, .RO, .full⟩]⟩,
   ⟨.XD_CLK_LOST, .ctd, 0x1104, [],
     [⟨.XD_CLK_LOST_lost, 0, 18, .W1C, .full⟩]⟩,
   ⟨.XD_CLK_DIE_PRESENT, .ctd, 0x1200, [(8, 0x4)],
     [⟨.XD_CLK_DIE_PRESENT_present, 0, 18, .RO, .full⟩]⟩]

/-- Register words of block TS_. -/
def regRowsTs : List RegRow :=
  [⟨.TS_CTRL, .tmd, 0x1000, [],
     [⟨.TS_CTRL_servo_en, 0, 1, .RW, .full⟩,
      ⟨.TS_CTRL_fault_resolve, 1, 2, .WO, .full⟩,
      ⟨.TS_CTRL_revertive, 3, 1, .RW, .full⟩]⟩,
   ⟨.TS_STATUS, .tmd, 0x1004, [],
     [⟨.TS_STATUS_state, 0, 3, .RO, .full⟩,
      ⟨.TS_STATUS_time_set, 3, 1, .RO, .full⟩,
      ⟨.TS_STATUS_ref_sel, 4, 4, .RO, .full⟩,
      ⟨.TS_STATUS_freq_limit, 8, 1, .RO, .full⟩,
      ⟨.TS_STATUS_osc_lost, 9, 1, .W1C, .full⟩,
      ⟨.TS_STATUS_fetch_miss, 10, 1, .W1C, .full⟩,
      ⟨.TS_STATUS_unc16, 16, 16, .RO, .full⟩]⟩,
   ⟨.TS_NOW_LO, .tmd, 0x1008, [],
     [⟨.TS_NOW, 0, 32, .RO, .lo⟩]⟩,
   ⟨.TS_NOW_HI, .tmd, 0x100C, [],
     [⟨.TS_NOW, 0, 32, .RO, .hi⟩]⟩,
   ⟨.TS_NOW_UNC, .tmd, 0x1010, [],
     [⟨.TS_NOW_UNC_unc16, 0, 16, .RO, .full⟩]⟩,
   ⟨.TS_AB_DIFF, .tmd, 0x1014, [],
     [⟨.TS_AB_DIFF_diff, 0, 16, .RO, .full⟩,
      ⟨.TS_AB_DIFF_max_abs, 16, 16, .RC, .full⟩]⟩,
   ⟨.TS_TOD_SET_LO, .tmd, 0x1020, [],
     [⟨.TS_TOD_SET, 0, 32, .RW, .lo⟩]⟩,
   ⟨.TS_TOD_SET_HI, .tmd, 0x1024, [],
     [⟨.TS_TOD_SET, 0, 32, .RW, .hi⟩]⟩,
   ⟨.TS_TOD_SET_UNC, .tmd, 0x1028, [],
     [⟨.TS_TOD_SET_UNC_unc16, 0, 16, .WO, .full⟩,
      ⟨.TS_TOD_SET_UNC_tod_rejected, 16, 16, .RC, .full⟩]⟩,
   ⟨.TS_UTC_OFFSET, .tmd, 0x102C, [],
     [⟨.TS_UTC_OFFSET_utc_offset, 0, 16, .RO, .full⟩,
      ⟨.TS_UTC_OFFSET_valid, 16, 1, .RO, .full⟩,
      ⟨.TS_UTC_OFFSET_leap61, 17, 1, .RO, .full⟩,
      ⟨.TS_UTC_OFFSET_leap59, 18, 1, .RO, .full⟩]⟩,
   ⟨.TS_REF_CFG, .tmd, 0x1100, [(8, 0x10)],
     [⟨.TS_REF_CFG_enable, 0, 1, .RW, .full⟩,
      ⟨.TS_REF_CFG_priority, 1, 4, .RW, .full⟩,
      ⟨.TS_REF_CFG_asym_bound, 16, 16, .RW, .full⟩]⟩,
   ⟨.TS_REF_STATUS, .tmd, 0x1104, [(8, 0x10)],
     [⟨.TS_REF_STATUS_qualified, 0, 1, .RO, .full⟩,
      ⟨.TS_REF_STATUS_valid, 1, 1, .RO, .full⟩,
      ⟨.TS_REF_STATUS_outliers, 16, 16, .RC, .full⟩]⟩,
   ⟨.TS_REF_DELAY, .tmd, 0x1108, [(8, 0x10)],
     [⟨.TS_REF_DELAY, 0, 32, .RW, .full⟩]⟩,
   ⟨.TS_PTP_CFG, .tmd, 0x1200, [(4, 0x4)],
     [⟨.TS_PTP_CFG_port, 0, 4, .RW, .full⟩,
      ⟨.TS_PTP_CFG_domain, 4, 8, .RW, .full⟩,
      ⟨.TS_PTP_CFG_transport, 12, 2, .RW, .full⟩,
      ⟨.TS_PTP_CFG_peer_delay, 14, 1, .RW, .full⟩,
      ⟨.TS_PTP_CFG_role, 15, 2, .RW, .full⟩]⟩,
   ⟨.TS_SERVO_CFG, .tmd, 0x1300, [],
     [⟨.TS_SERVO_CFG_acq_bw, 0, 3, .RW, .full⟩,
      ⟨.TS_SERVO_CFG_lock_bw, 3, 3, .RW, .full⟩,
      ⟨.TS_SERVO_CFG_lock_ns, 6, 6, .RW, .full⟩,
      ⟨.TS_SERVO_CFG_lock_s, 12, 6, .RW, .full⟩,
      ⟨.TS_SERVO_CFG_qual_s, 18, 6, .RW, .full⟩,
      ⟨.TS_SERVO_CFG_wtr_s, 24, 8, .RW, .full⟩]⟩,
   ⟨.TS_SERVO_LIM, .tmd, 0x1304, [],
     [⟨.TS_SERVO_LIM_step_us, 0, 12, .RW, .full⟩,
      ⟨.TS_SERVO_LIM_slew_ppm, 12, 8, .RW, .full⟩,
      ⟨.TS_SERVO_LIM_outlier_ns, 20, 12, .RW, .full⟩]⟩,
   ⟨.TS_OSC_CFG, .tmd, 0x1308, [],
     [⟨.TS_OSC_CFG_mode, 0, 1, .RW, .full⟩,
      ⟨.TS_OSC_CFG_osc_20m, 1, 1, .RW, .full⟩,
      ⟨.TS_OSC_CFG_learn_h, 2, 6, .RW, .full⟩,
      ⟨.TS_OSC_CFG_dac_span_ppb, 8, 12, .RW, .full⟩,
      ⟨.TS_OSC_CFG_dac_invert, 20, 1, .RW, .full⟩]⟩,
   ⟨.TS_HOLD_MODEL0, .tmd, 0x130C, [],
     [⟨.TS_HOLD_MODEL0_y0_ppt, 0, 16, .RW, .full⟩,
      ⟨.TS_HOLD_MODEL0_temp_ppt, 16, 16, .RW, .full⟩]⟩,
   ⟨.TS_HOLD_MODEL1, .tmd, 0x1310, [],
     [⟨.TS_HOLD_MODEL1_age_resid_ppt, 0, 10, .RW, .full⟩,
      ⟨.TS_HOLD_MODEL1_age_max_ppt, 10, 10, .RW, .full⟩,
      ⟨.TS_HOLD_MODEL1_freerun_ppb, 20, 12, .RW, .full⟩]⟩,
   ⟨.TS_HOLDOVER_MAX, .tmd, 0x1314, [],
     [⟨.TS_HOLDOVER_MAX_holdover_max, 0, 16, .RW, .full⟩]⟩]

/-- Register words of block TS_. -/
def regRowsTs1 : List RegRow :=
  [⟨.TS_LEARN, .tmd, 0x1318, [],
     [⟨.TS_LEARN_age_rate, 0, 24, .RO, .full⟩,
      ⟨.TS_LEARN_hours, 24, 7, .RO, .full⟩,
      ⟨.TS_LEARN_learn_valid, 31, 1, .RO, .full⟩]⟩,
   ⟨.TS_CHAIN_DIGEST, .tmd, 0x1400, [(12, 0x4)],
     [⟨.TS_CHAIN_DIGEST, 0, 32, .RW, .full⟩]⟩,
   ⟨.TS_AMBER_LOG_BASE, .tmd, 0x1500, [],
     [⟨.TS_AMBER_LOG_BASE, 0, 32, .RWL, .full⟩]⟩,
   ⟨.TS_RING_BASE_LO, .tmd, 0x1510, [],
     [⟨.TS_RING_BASE, 0, 32, .RW, .lo⟩]⟩,
   ⟨.TS_RING_BASE_HI, .tmd, 0x1514, [],
     [⟨.TS_RING_BASE, 0, 32, .RW, .hi⟩]⟩,
   ⟨.TS_RING_CFG, .tmd, 0x1518, [],
     [⟨.TS_RING_CFG_enable, 0, 1, .RW, .full⟩,
      ⟨.TS_RING_CFG_endpoint, 1, 1, .RW, .full⟩,
      ⟨.TS_RING_CFG_log2_slots, 2, 4, .RW, .full⟩]⟩,
   ⟨.TS_RING_PROD, .tmd, 0x151C, [],
     [⟨.TS_RING_PROD, 0, 12, .RO, .full⟩]⟩,
   ⟨.TS_RING_CONS, .tmd, 0x1520, [],
     [⟨.TS_RING_CONS, 0, 12, .RW, .full⟩]⟩,
   ⟨.TS_RING_STAT, .tmd, 0x1524, [],
     [⟨.TS_RING_STAT_ring_drops, 0, 16, .RC, .full⟩]⟩,
   ⟨.TS_AMBER_SEQ, .tmd, 0x1528, [],
     [⟨.TS_AMBER_SEQ, 0, 32, .RO, .full⟩]⟩,
   ⟨.TS_AMBER_FETCH, .tmd, 0x152C, [],
     [⟨.TS_AMBER_FETCH, 0, 32, .WO, .full⟩]⟩,
   ⟨.TS_PPS_CFG, .tmd, 0x1600, [(2, 0x8)],
     [⟨.TS_PPS_CFG_enable, 0, 1, .RW, .full⟩,
      ⟨.TS_PPS_CFG_squelch_en, 1, 1, .RW, .full⟩,
      ⟨.TS_PPS_CFG_width, 2, 2, .RW, .full⟩,
      ⟨.TS_PPS_CFG_squelch_unc, 16, 16, .RW, .full⟩]⟩,
   ⟨.TS_PPS_DELAY, .tmd, 0x1604, [(2, 0x8)],
     [⟨.TS_PPS_DELAY_delay, 0, 16, .RW, .full⟩,
      ⟨.TS_PPS_DELAY_squelched, 16, 16, .RC, .full⟩]⟩]

/-- Register words of block TSU_. -/
def regRowsTsu : List RegRow :=
  [⟨.TSU_PORT_CAL, .iod, 0x1000, [(8, 0x10)],
     [⟨.TSU_PORT_CAL_rx_board, 0, 16, .RW, .full⟩,
      ⟨.TSU_PORT_CAL_tx_board, 16, 16, .RW, .full⟩]⟩,
   ⟨.TSU_PORT_STATUS, .iod, 0x1004, [(8, 0x10)],
     [⟨.TSU_PORT_STATUS_cal_done, 0, 1, .RO, .full⟩,
      ⟨.TSU_PORT_STATUS_mode, 1, 2, .RO, .full⟩,
      ⟨.TSU_PORT_STATUS_skew_max, 16, 16, .RO, .full⟩]⟩,
   ⟨.TSU_PEER_DELAY, .iod, 0x1008, [(8, 0x10)],
     [⟨.TSU_PEER_DELAY, 0, 32, .RW, .full⟩]⟩,
   ⟨.TSU_PORT_ERR, .iod, 0x100C, [(8, 0x10)],
     [⟨.TSU_PORT_ERR_onestep_fail, 0, 16, .RC, .full⟩,
      ⟨.TSU_PORT_ERR_far_dropped, 16, 16, .RC, .full⟩]⟩,
   ⟨.TSU_LATE_CNT, .iod, 0x1100, [(8, 0x4)],
     [⟨.TSU_LATE_CNT_late_sent, 0, 16, .RC, .full⟩,
      ⟨.TSU_LATE_CNT_late_dropped, 16, 16, .RC, .full⟩]⟩,
   ⟨.TSU_LAUNCH_PROF, .iod, 0x1200, [(16, 0x4)],
     [⟨.TSU_LAUNCH_PROF_late_policy, 0, 1, .RW, .full⟩,
      ⟨.TSU_LAUNCH_PROF_late_bound, 4, 12, .RW, .full⟩,
      ⟨.TSU_LAUNCH_PROF_horizon, 16, 4, .RW, .full⟩]⟩,
   ⟨.TSU_PTM_CFG, .iod, 0x1400, [],
     [⟨.TSU_PTM_CFG_enable, 0, 1, .RW, .full⟩,
      ⟨.TSU_PTM_CFG_interval, 1, 3, .RW, .full⟩,
      ⟨.TSU_PTM_CFG_to_ring, 4, 1, .RW, .full⟩,
      ⟨.TSU_PTM_CFG_platform_unc, 16, 16, .RW, .full⟩]⟩,
   ⟨.TSU_PTM_STATUS, .iod, 0x1404, [],
     [⟨.TSU_PTM_STATUS_ptm_valid, 0, 1, .RO, .full⟩,
      ⟨.TSU_PTM_STATUS_ptm_enabled, 1, 1, .RO, .full⟩,
      ⟨.TSU_PTM_STATUS_fail_count, 16, 16, .RC, .full⟩]⟩,
   ⟨.TSU_PTM_DELAY, .iod, 0x1408, [],
     [⟨.TSU_PTM_DELAY, 0, 32, .RO, .full⟩]⟩]

/-- Register words of block STR_. -/
def regRowsStr : List RegRow :=
  [⟨.STR_CMD, .ctd, 0x2000, [],
     [⟨.STR_CMD_op, 0, 4, .WO, .full⟩,
      ⟨.STR_CMD_slot, 4, 1, .WO, .full⟩,
      ⟨.STR_CMD_region_mask, 8, 8, .WO, .full⟩]⟩,
   ⟨.STR_CMD_STATUS, .ctd, 0x2004, [],
     [⟨.STR_CMD_STATUS_busy, 0, 1, .RO, .full⟩,
      ⟨.STR_CMD_STATUS_last_op, 1, 4, .RO, .full⟩,
      ⟨.STR_CMD_STATUS_result, 8, 8, .RO, .full⟩,
      ⟨.STR_CMD_STATUS_detail, 16, 16, .RO, .full⟩]⟩,
   ⟨.STR_SWAP_AT_LO, .ctd, 0x2008, [],
     [⟨.STR_SWAP_AT, 0, 32, .RW, .lo⟩]⟩,
   ⟨.STR_SWAP_AT_HI, .ctd, 0x200C, [],
     [⟨.STR_SWAP_AT, 0, 32, .RW, .hi⟩]⟩,
   ⟨.STR_STATUS, .ctd, 0x2010, [],
     [⟨.STR_STATUS_changed_mask, 0, 8, .RO, .full⟩,
      ⟨.STR_STATUS_swapped_mask, 8, 8, .RO, .full⟩,
      ⟨.STR_STATUS_draining_mask, 16, 8, .RO, .full⟩,
      ⟨.STR_STATUS_wdog_running, 24, 1, .RO, .full⟩,
      ⟨.STR_STATUS_staged_valid, 25, 1, .RO, .full⟩]⟩,
   ⟨.STR_REGION_STATE, .ctd, 0x2020, [(8, 0x4)],
     [⟨.STR_REGION_STATE_state, 0, 3, .RO, .full⟩,
      ⟨.STR_REGION_STATE_epoch, 3, 1, .RO, .full⟩,
      ⟨.STR_REGION_STATE_inflight, 16, 16, .RO, .full⟩]⟩,
   ⟨.STR_WDOG, .ctd, 0x2040, [],
     [⟨.STR_WDOG_period, 0, 16, .RW, .full⟩,
      ⟨.STR_WDOG_remaining, 16, 16, .RO, .full⟩]⟩,
   ⟨.STR_DRAIN_LIMIT, .ctd, 0x2044, [],
     [⟨.STR_DRAIN_LIMIT_limit_us, 0, 16, .RW, .full⟩]⟩,
   ⟨.STR_MIN_VERSION, .ctd, 0x2048, [],
     [⟨.STR_MIN_VERSION_min_version, 0, 32, .RWL, .full⟩]⟩,
   ⟨.STR_SLOT_W00, .ctd, 0x2100, [(3, 0x10)],
     [⟨.STR_SLOT_version, 0, 32, .RO, .full⟩]⟩,
   ⟨.STR_SLOT_W04, .ctd, 0x2104, [(3, 0x10)],
     [⟨.STR_SLOT_partition, 0, 2, .RO, .full⟩,
      ⟨.STR_SLOT_empty, 2, 1, .RO, .full⟩]⟩,
   ⟨.STR_SLOT_W08, .ctd, 0x2108, [(3, 0x10)],
     [⟨.STR_SLOT_digest_head, 0, 32, .RO, .full⟩]⟩,
   ⟨.STR_EVENTS, .ctd, 0x2180, [],
     [⟨.STR_EVENTS_wdog_rollback, 0, 1, .W1C, .full⟩,
      ⟨.STR_EVENTS_stage_fail, 1, 1, .W1C, .full⟩,
      ⟨.STR_EVENTS_drain_expired, 2, 1, .W1C, .full⟩,
      ⟨.STR_EVENTS_cold_fallback, 3, 1, .W1C, .full⟩]⟩,
   ⟨.STR_DROP_CNT, .ctd, 0x2184, [],
     [⟨.STR_DROP_CNT_epoch_expired, 0, 16, .RC, .full⟩,
      ⟨.STR_DROP_CNT_stale_learns, 16, 8, .RC, .full⟩,
      ⟨.STR_DROP_CNT_reload_drops, 24, 8, .RC, .full⟩]⟩]

/-- Register words of block CLS_. -/
def regRowsCls : List RegRow :=
  [⟨.CLS_PORT_DEF, .ctd, 0x3000, [(16, 0x4)],
     [⟨.CLS_PORT_DEF_nomatch_act, 0, 2, .RW, .full⟩,
      ⟨.CLS_PORT_DEF_parsefail_act, 2, 2, .RW, .full⟩,
      ⟨.CLS_PORT_DEF_secondary, 4, 1, .RW, .full⟩,
      ⟨.CLS_PORT_DEF_frag_mode, 5, 1, .RW, .full⟩,
      ⟨.CLS_PORT_DEF_punt_q, 16, 16, .RW, .full⟩]⟩,
   ⟨.CLS_PORT_DEST, .ctd, 0x3040, [(16, 0x4)],
     [⟨.CLS_PORT_DEST_index, 0, 16, .RW, .full⟩,
      ⟨.CLS_PORT_DEST_kind, 16, 1, .RW, .full⟩,
      ⟨.CLS_PORT_DEST_tclass, 17, 3, .RW, .full⟩]⟩,
   ⟨.CLS_PUNT_RATE, .ctd, 0x3080, [(16, 0x4)],
     [⟨.CLS_PUNT_RATE_rate, 0, 20, .RW, .full⟩,
      ⟨.CLS_PUNT_RATE_burst, 20, 12, .RW, .full⟩]⟩,
   ⟨.CLS_FRAG_CFG, .ctd, 0x30C0, [],
     [⟨.CLS_FRAG_CFG_lifetime_us, 0, 16, .RW, .full⟩,
      ⟨.CLS_FRAG_CFG_hold_us, 16, 16, .RW, .full⟩]⟩,
   ⟨.CLS_DEF_CNT, .fbr, 0x40000, [(16, 0x4)],
     [⟨.CLS_DEF_CNT_nomatch, 0, 16, .RC, .full⟩,
      ⟨.CLS_DEF_CNT_parsefail, 16, 16, .RC, .full⟩]⟩,
   ⟨.CLS_PUNT_CNT, .fbr, 0x40040, [(16, 0x4)],
     [⟨.CLS_PUNT_CNT_punted, 0, 16, .RC, .full⟩,
      ⟨.CLS_PUNT_CNT_excess, 16, 16, .RC, .full⟩]⟩,
   ⟨.CLS_FRAG_STAT, .fbr, 0x40100, [],
     [⟨.CLS_FRAG_STAT_entries, 0, 17, .RO, .full⟩,
      ⟨.CLS_FRAG_STAT_held_kib, 17, 15, .RO, .full⟩]⟩,
   ⟨.CLS_FRAG_CNT0, .fbr, 0x40104, [],
     [⟨.CLS_FRAG_CNT0_hold_expired, 0, 16, .RC, .full⟩,
      ⟨.CLS_FRAG_CNT0_hold_full, 16, 16, .RC, .full⟩]⟩,
   ⟨.CLS_FRAG_CNT1, .fbr, 0x40108, [],
     [⟨.CLS_FRAG_CNT1_table_full, 0, 8, .RC, .full⟩,
      ⟨.CLS_FRAG_CNT1_dup_first, 8, 8, .RC, .full⟩,
      ⟨.CLS_FRAG_CNT1_epoch_mismatch, 16, 8, .RC, .full⟩,
      ⟨.CLS_FRAG_CNT1_tree_absent, 24, 8, .RC, .full⟩]⟩,
   ⟨.CLS_POLICER_W00, .fbr, 0x50000, [(8192, 0x10)],
     [⟨.CLS_POLICER_cir, 0, 24, .RW, .full⟩,
      ⟨.CLS_POLICER_enable, 24, 1, .RW, .full⟩,
      ⟨.CLS_POLICER_colour_aware, 25, 1, .RW, .full⟩]⟩,
   ⟨.CLS_POLICER_W04, .fbr, 0x50004, [(8192, 0x10)],
     [⟨.CLS_POLICER_pir, 0, 24, .RW, .full⟩]⟩,
   ⟨.CLS_POLICER_W08, .fbr, 0x50008, [(8192, 0x10)],
     [⟨.CLS_POLICER_cbs, 0, 24, .RW, .full⟩]⟩,
   ⟨.CLS_POLICER_W0C, .fbr, 0x5000C, [(8192, 0x10)],
     [⟨.CLS_POLICER_pbs, 0, 24, .RW, .full⟩]⟩,
   ⟨.CLS_STEER_CNT, .iod, 0x2000, [],
     [⟨.CLS_STEER_CNT_no_region, 0, 16, .RC, .full⟩,
      ⟨.CLS_STEER_CNT_key_miss, 16, 16, .RC, .full⟩]⟩]

/-- Register words of block PAR_. -/
def regRowsPar : List RegRow :=
  [⟨.PAR_FAIL_CNT, .fbr, 0x1000, [(16, 0x4)],
     [⟨.PAR_FAIL_CNT_count, 0, 32, .RC, .full⟩]⟩]

/-- Register words of block EXM_. -/
def regRowsExm : List RegRow :=
  [⟨.EXM_CH_KEY, .ctd, 0x40010, [(16, 0x80), (7, 0x4)],
     [⟨.EXM_CH_key, 0, 32, .RW, .full⟩]⟩,
   ⟨.EXM_CH_VALUE, .ctd, 0x4002C, [(16, 0x80), (8, 0x4)],
     [⟨.EXM_CH_value, 0, 32, .RW, .full⟩]⟩,
   ⟨.EXM_CH_W00, .ctd, 0x40000, [(16, 0x80)],
     [⟨.EXM_CH_op, 0, 4, .WO, .full⟩,
      ⟨.EXM_CH_include_static, 4, 1, .WO, .full⟩,
      ⟨.EXM_CH_clear_moves, 5, 1, .WO, .full⟩,
      ⟨.EXM_CH_table, 6, 10, .WO, .full⟩]⟩,
   ⟨.EXM_CH_W04, .ctd, 0x40004, [(16, 0x80)],
     [⟨.EXM_CH_busy, 0, 1, .RO, .full⟩,
      ⟨.EXM_CH_result, 1, 8, .RO, .full⟩]⟩,
   ⟨.EXM_CH_W08, .ctd, 0x40008, [(16, 0x80)],
     [⟨.EXM_CH_cursor, 0, 32, .RW, .full⟩]⟩,
   ⟨.EXM_CH_W0C, .ctd, 0x4000C, [(16, 0x80)],
     [⟨.EXM_CH_hdr, 0, 32, .RW, .full⟩]⟩,
   ⟨.EXM_TABLE_STAT_W00, .ctd, 0x50000, [(1024, 0x20)],
     [⟨.EXM_TABLE_STAT_entries, 0, 29, .RO, .full⟩]⟩,
   ⟨.EXM_TABLE_STAT_W04, .ctd, 0x50004, [(1024, 0x20)],
     [⟨.EXM_TABLE_STAT_rehash_req, 0, 1, .W1C, .full⟩,
      ⟨.EXM_TABLE_STAT_shadow, 1, 2, .RO, .full⟩,
      ⟨.EXM_TABLE_STAT_shard_down, 3, 8, .RO, .full⟩]⟩,
   ⟨.EXM_TABLE_STAT_W08, .ctd, 0x50008, [(1024, 0x20)],
     [⟨.EXM_TABLE_STAT_seed0, 0, 32, .RO, .full⟩]⟩,
   ⟨.EXM_TABLE_STAT_W0C, .ctd, 0x5000C, [(1024, 0x20)],
     [⟨.EXM_TABLE_STAT_seed1, 0, 32, .RO, .full⟩]⟩,
   ⟨.EXM_TABLE_STAT_W10, .ctd, 0x50010, [(1024, 0x20)],
     [⟨.EXM_TABLE_STAT_seed_shard, 0, 32, .RO, .full⟩]⟩,
   ⟨.EXM_TABLE_STAT_W14, .ctd, 0x50014, [(1024, 0x20)],
     [⟨.EXM_TABLE_STAT_learns, 0, 16, .RC, .full⟩,
      ⟨.EXM_TABLE_STAT_learn_fail, 16, 16, .RC, .full⟩]⟩,
   ⟨.EXM_TABLE_STAT_W18, .ctd, 0x50018, [(1024, 0x20)],
     [⟨.EXM_TABLE_STAT_moves, 0, 16, .RC, .full⟩,
      ⟨.EXM_TABLE_STAT_move_cands, 16, 16, .RC, .full⟩]⟩,
   ⟨.EXM_TABLE_STAT_W1C, .ctd, 0x5001C, [(1024, 0x20)],
     [⟨.EXM_TABLE_STAT_static_conflict, 0, 16, .RC, .full⟩,
      ⟨.EXM_TABLE_STAT_flaps, 16, 16, .RC, .full⟩]⟩,
   ⟨.EXM_EVT_CFG, .ctd, 0x60000, [],
     [⟨.EXM_EVT_CFG_queue, 0, 16, .RW, .full⟩,
      ⟨.EXM_EVT_CFG_enable, 16, 1, .RW, .full⟩]⟩,
   ⟨.EXM_EVT_STAT, .ctd, 0x60004, [],
     [⟨.EXM_EVT_STAT_evt_drops, 0, 16, .RC, .full⟩]⟩,
   ⟨.EXM_REGION_CNT, .fbr, 0x2000, [],
     [⟨.EXM_REGION_CNT_refreshes, 0, 16, .RC, .full⟩,
      ⟨.EXM_REGION_CNT_tracker_full, 16, 8, .RC, .full⟩,
      ⟨.EXM_REGION_CNT_shard_down_miss, 24, 8, .RC, .full⟩]⟩]

/-- Register words of block TCM_. -/
def regRowsTcm : List RegRow :=
  [⟨.TCM_CH_entry_result_LO, .ctd, 0x4014, [(8, 0x100)],
     [⟨.TCM_CH_entry_result, 0, 32, .RW, .lo⟩]⟩,
   ⟨.TCM_CH_entry_result_HI, .ctd, 0x4018, [(8, 0x100)],
     [⟨.TCM_CH_entry_result, 0, 32, .RW, .hi⟩]⟩,
   ⟨.TCM_CH_KEY, .ctd, 0x4020, [(8, 0x100), (20, 0x4)],
     [⟨.TCM_CH_key, 0, 32, .RW, .full⟩]⟩,
   ⟨.TCM_CH_MASK, .ctd, 0x4070, [(8, 0x100), (20, 0x4)],
     [⟨.TCM_CH_mask, 0, 32, .RW, .full⟩]⟩,
   ⟨.TCM_CH_W00, .ctd, 0x4000, [(8, 0x100)],
     [⟨.TCM_CH_op, 0, 4, .WO, .full⟩,
      ⟨.TCM_CH_table, 4, 10, .WO, .full⟩]⟩,
   ⟨.TCM_CH_W04, .ctd, 0x4004, [(8, 0x100)],
     [⟨.TCM_CH_busy, 0, 1, .RO, .full⟩,
      ⟨.TCM_CH_result, 1, 8, .RO, .full⟩,
      ⟨.TCM_CH_multi, 9, 1, .RO, .full⟩,
      ⟨.TCM_CH_quarantined, 10, 1, .RO, .full⟩,
      ⟨.TCM_CH_copy_bad, 11, 1, .RO, .full⟩]⟩,
   ⟨.TCM_CH_W08, .ctd, 0x4008, [(8, 0x100)],
     [⟨.TCM_CH_unit, 0, 14, .RW, .full⟩,
      ⟨.TCM_CH_dst, 16, 14, .RW, .full⟩]⟩,
   ⟨.TCM_CH_W0C, .ctd, 0x400C, [(8, 0x100)],
     [⟨.TCM_CH_priority, 0, 16, .RW, .full⟩,
      ⟨.TCM_CH_width, 16, 2, .RW, .full⟩]⟩,
   ⟨.TCM_CH_W10, .ctd, 0x4010, [(8, 0x100)],
     [⟨.TCM_CH_cur_priority, 0, 16, .RW, .full⟩,
      ⟨.TCM_CH_cur_unit, 16, 14, .RW, .full⟩]⟩,
   ⟨.TCM_REGION_STAT, .fbr, 0x3000, [],
     [⟨.TCM_REGION_STAT_bank_width, 0, 8, .RO, .full⟩,
      ⟨.TCM_REGION_STAT_quarantines, 8, 8, .RC, .full⟩,
      ⟨.TCM_REGION_STAT_verify_fail, 16, 8, .RC, .full⟩,
      ⟨.TCM_REGION_STAT_stuck, 24, 8, .RO, .full⟩]⟩,
   ⟨.TCM_QUAR_LOG, .fbr, 0x3004, [],
     [⟨.TCM_QUAR_LOG_unit, 0, 14, .RO, .full⟩,
      ⟨.TCM_QUAR_LOG_table, 14, 10, .RO, .full⟩,
      ⟨.TCM_QUAR_LOG_stuck, 24, 1, .RO, .full⟩,
      ⟨.TCM_QUAR_LOG_logged, 31, 1, .W1C, .full⟩]⟩]

/-- Register words of block PAT_. -/
def regRowsPat : List RegRow :=
  [⟨.PAT_CH_src_LO, .ctd, 0x5008, [(4, 0x40)],
     [⟨.PAT_CH_src, 0, 32, .RW, .lo⟩]⟩,
   ⟨.PAT_CH_src_HI, .ctd, 0x500C, [(4, 0x40)],
     [⟨.PAT_CH_src, 0, 16, .RW, .hi⟩]⟩,
   ⟨.PAT_CH_dst_LO, .ctd, 0x5014, [(4, 0x40)],
     [⟨.PAT_CH_dst, 0, 32, .RW, .lo⟩]⟩,
   ⟨.PAT_CH_dst_HI, .ctd, 0x5018, [(4, 0x40)],
     [⟨.PAT_CH_dst, 0, 16, .RW, .hi⟩]⟩,
   ⟨.PAT_CH_W00, .ctd, 0x5000, [(4, 0x40)],
     [⟨.PAT_CH_op, 0, 3, .WO, .full⟩,
      ⟨.PAT_CH_set, 3, 6, .WO, .full⟩,
      ⟨.PAT_CH_region_mask, 16, 8, .WO, .full⟩]⟩,
   ⟨.PAT_CH_W04, .ctd, 0x5004, [(4, 0x40)],
     [⟨.PAT_CH_busy, 0, 1, .RO, .full⟩,
      ⟨.PAT_CH_result, 1, 8, .RO, .full⟩,
      ⟨.PAT_CH_count, 9, 13, .RO, .full⟩,
      ⟨.PAT_CH_more, 22, 1, .RO, .full⟩]⟩,
   ⟨.PAT_CH_W10, .ctd, 0x5010, [(4, 0x40)],
     [⟨.PAT_CH_length, 0, 23, .RW, .full⟩]⟩,
   ⟨.PAT_CH_W1C, .ctd, 0x501C, [(4, 0x40)],
     [⟨.PAT_CH_max_reports, 0, 13, .RW, .full⟩]⟩,
   ⟨.PAT_REGION_CFG, .fbr, 0x4000, [],
     [⟨.PAT_REGION_CFG_bypass, 0, 1, .RW, .full⟩,
      ⟨.PAT_REGION_CFG_scan_q, 16, 16, .RW, .full⟩]⟩,
   ⟨.PAT_REGION_STAT, .fbr, 0x4004, [],
     [⟨.PAT_REGION_STAT_engine_ok, 0, 2, .RO, .full⟩,
      ⟨.PAT_REGION_STAT_bypass_active, 2, 1, .RO, .full⟩,
      ⟨.PAT_REGION_STAT_set_absent, 16, 8, .RC, .full⟩,
      ⟨.PAT_REGION_STAT_nfa_overflow, 24, 8, .RC, .full⟩]⟩]

/-- Register words of block ETH_. -/
def regRowsEth : List RegRow :=
  [⟨.ETH_MODE, .iod, 0x80000, [],
     [⟨.ETH_MODE_mode, 0, 2, .RW, .full⟩,
      ⟨.ETH_MODE_mode_rejected, 2, 1, .W1C, .full⟩,
      ⟨.ETH_MODE_hr_overcommit, 3, 1, .RO, .full⟩]⟩,
   ⟨.ETH_PORT_CFG, .iod, 0x80100, [(8, 0x4)],
     [⟨.ETH_PORT_CFG_enable, 0, 1, .RW, .full⟩,
      ⟨.ETH_PORT_CFG_an_en, 1, 1, .RW, .full⟩,
      ⟨.ETH_PORT_CFG_fc_mode, 2, 2, .RW, .full⟩,
      ⟨.ETH_PORT_CFG_lossless, 4, 8, .RW, .full⟩,
      ⟨.ETH_PORT_CFG_macsec_en, 12, 1, .RW, .full⟩,
      ⟨.ETH_PORT_CFG_reset_thr, 13, 1, .W1S, .full⟩,
      ⟨.ETH_PORT_CFG_max_frame, 14, 14, .RW, .full⟩]⟩,
   ⟨.ETH_PORT_STATUS, .iod, 0x80120, [(8, 0x4)],
     [⟨.ETH_PORT_STATUS_state, 0, 2, .RO, .full⟩,
      ⟨.ETH_PORT_STATUS_link_changed, 2, 1, .W1C, .full⟩,
      ⟨.ETH_PORT_STATUS_remote_fault, 3, 1, .RO, .full⟩,
      ⟨.ETH_PORT_STATUS_threshold, 4, 7, .RO, .full⟩,
      ⟨.ETH_PORT_STATUS_train_fail, 16, 16, .RC, .full⟩]⟩,
   ⟨.ETH_PFC_CLASS, .iod, 0x80200, [(8, 0x20), (8, 0x4)],
     [⟨.ETH_PFC_CLASS_xoff_thr, 0, 12, .RW, .full⟩,
      ⟨.ETH_PFC_CLASS_headroom, 12, 12, .RW, .full⟩,
      ⟨.ETH_PFC_CLASS_xon_gap, 24, 8, .RW, .full⟩]⟩,
   ⟨.ETH_MSEC_CFG, .iod, 0x80400, [(8, 0x4)],
     [⟨.ETH_MSEC_CFG_suite, 0, 2, .RW, .full⟩,
      ⟨.ETH_MSEC_CFG_conf_off, 2, 2, .RW, .full⟩,
      ⟨.ETH_MSEC_CFG_validate, 4, 2, .RW, .full⟩,
      ⟨.ETH_MSEC_CFG_send_sci, 6, 1, .RW, .full⟩,
      ⟨.ETH_MSEC_CFG_tx_an, 7, 2, .RW, .full⟩,
      ⟨.ETH_MSEC_CFG_pn_warn_hit, 9, 1, .W1C, .full⟩,
      ⟨.ETH_MSEC_CFG_replay_win, 10, 22, .RW, .full⟩]⟩,
   ⟨.ETH_MSEC_RXSC_sci_LO, .iod, 0x81000, [(8, 0x200), (32, 0x10)],
     [⟨.ETH_MSEC_RXSC_sci, 0, 32, .RW, .lo⟩]⟩,
   ⟨.ETH_MSEC_RXSC_sci_HI, .iod, 0x81004, [(8, 0x200), (32, 0x10)],
     [⟨.ETH_MSEC_RXSC_sci, 0, 32, .RW, .hi⟩]⟩,
   ⟨.ETH_MSEC_RXSC_W08, .iod, 0x81008, [(8, 0x200), (32, 0x10)],
     [⟨.ETH_MSEC_RXSC_enable, 0, 1, .RW, .full⟩]⟩,
   ⟨.ETH_MSEC_SA_pn_LO, .iod, 0xA0004, [(8, 0x2000), (132, 0x20)],
     [⟨.ETH_MSEC_SA_pn, 0, 32, .RW, .lo⟩]⟩,
   ⟨.ETH_MSEC_SA_pn_HI, .iod, 0xA0008, [(8, 0x2000), (132, 0x20)],
     [⟨.ETH_MSEC_SA_pn, 0, 32, .RW, .hi⟩]⟩,
   ⟨.ETH_MSEC_SA_pn_warn_LO, .iod, 0xA000C, [(8, 0x2000), (132, 0x20)],
     [⟨.ETH_MSEC_SA_pn_warn, 0, 32, .RW, .lo⟩]⟩,
   ⟨.ETH_MSEC_SA_pn_warn_HI, .iod, 0xA0010, [(8, 0x2000), (132, 0x20)],
     [⟨.ETH_MSEC_SA_pn_warn, 0, 32, .RW, .hi⟩]⟩,
   ⟨.ETH_MSEC_SA_W00, .iod, 0xA0000, [(8, 0x2000), (132, 0x20)],
     [⟨.ETH_MSEC_SA_key_slot, 0, 24, .RW, .full⟩,
      ⟨.ETH_MSEC_SA_valid, 24, 1, .RW, .full⟩]⟩,
   ⟨.ETH_MSEC_SA_W14, .iod, 0xA0014, [(8, 0x2000), (132, 0x20)],
     [⟨.ETH_MSEC_SA_ssci, 0, 32, .RW, .full⟩]⟩,
   ⟨.ETH_MSEC_SA_W18, .iod, 0xA0018, [(8, 0x2000), (132, 0x20)],
     [⟨.ETH_MSEC_SA_replay_win_hi, 0, 8, .RW, .full⟩]⟩,
   ⟨.ETH_STAT_count_LO, .iod, 0xC0000, [(8, 0x200), (64, 0x8)],
     [⟨.ETH_STAT_count, 0, 32, .RO, .lo⟩]⟩,
   ⟨.ETH_STAT_count_HI, .iod, 0xC0004, [(8, 0x200), (64, 0x8)],
     [⟨.ETH_STAT_count, 0, 16, .RO, .hi⟩]⟩,
   ⟨.ETH_STAT_HALF_LO, .iod, 0xC1000, [(8, 0x8)],
     [⟨.ETH_STAT_HALF, 0, 32, .W1C, .lo⟩]⟩,
   ⟨.ETH_STAT_HALF_HI, .iod, 0xC1004, [(8, 0x8)],
     [⟨.ETH_STAT_HALF, 0, 32, .W1C, .hi⟩]⟩,
   ⟨.ETH_WAKE_CFG, .iod, 0xD0000, [],
     [⟨.ETH_WAKE_CFG_wake_en, 0, 1, .RW, .full⟩,
      ⟨.ETH_WAKE_CFG_magic_en, 1, 1, .RW, .full⟩,
      ⟨.ETH_WAKE_CFG_pat_en, 2, 8, .RW, .full⟩,
      ⟨.ETH_WAKE_CFG_an_en, 10, 1, .RW, .full⟩,
      ⟨.ETH_WAKE_CFG_fec_en, 11, 1, .RW, .full⟩]⟩]

/-- Register words of block ETH_. -/
def regRowsEth1 : List RegRow :=
  [⟨.ETH_WAKE_MAC_LO, .iod, 0xD0004, [],
     [⟨.ETH_WAKE_MAC, 0, 32, .RW, .lo⟩]⟩,
   ⟨.ETH_WAKE_MAC_HI, .iod, 0xD0008, [],
     [⟨.ETH_WAKE_MAC, 0, 16, .RW, .hi⟩]⟩,
   ⟨.ETH_WAKE_STATUS, .iod, 0xD000C, [],
     [⟨.ETH_WAKE_STATUS_woke, 0, 1, .W1C, .full⟩,
      ⟨.ETH_WAKE_STATUS_by_magic, 1, 1, .RO, .full⟩,
      ⟨.ETH_WAKE_STATUS_pattern, 2, 3, .RO, .full⟩]⟩,
   ⟨.ETH_WAKE_PAT_WORD, .iod, 0xD0100, [(8, 0x100), (32, 0x4)],
     [⟨.ETH_WAKE_PAT_word, 0, 32, .RW, .full⟩]⟩,
   ⟨.ETH_WAKE_PAT_MASK, .iod, 0xD0180, [(8, 0x100), (4, 0x4)],
     [⟨.ETH_WAKE_PAT_mask, 0, 32, .RW, .full⟩]⟩,
   ⟨.ETH_NCSI_CFG, .iod0, 0xE0000, [],
     [⟨.ETH_NCSI_CFG_enable, 0, 1, .RW, .full⟩,
      ⟨.ETH_NCSI_CFG_package_id, 1, 3, .RW, .full⟩]⟩,
   ⟨.ETH_NCSI_STAT, .iod0, 0xE0004, [],
     [⟨.ETH_NCSI_STAT_ncsi_drops, 0, 16, .RC, .full⟩]⟩]

/-- Register words of block SCH_. -/
def regRowsSch : List RegRow :=
  [⟨.SCH_PORT_CFG, .iod, 0x200000, [(8, 0x8)],
     [⟨.SCH_PORT_CFG_down_hold_ms, 0, 16, .RW, .full⟩]⟩,
   ⟨.SCH_PORT_DROP, .iod, 0x200004, [(8, 0x8)],
     [⟨.SCH_PORT_DROP_link_drops, 0, 16, .RC, .full⟩,
      ⟨.SCH_PORT_DROP_queue_errs, 16, 8, .RC, .full⟩,
      ⟨.SCH_PORT_DROP_reload_drops, 24, 8, .RC, .full⟩]⟩,
   ⟨.SCH_SAMPLE_CFG, .iod, 0x200100, [],
     [⟨.SCH_SAMPLE_CFG_enable, 0, 1, .RW, .full⟩,
      ⟨.SCH_SAMPLE_CFG_endpoint, 1, 1, .RW, .full⟩,
      ⟨.SCH_SAMPLE_CFG_log2_slots, 2, 5, .RW, .full⟩,
      ⟨.SCH_SAMPLE_CFG_period_us, 7, 16, .RW, .full⟩]⟩,
   ⟨.SCH_SAMPLE_RING_BASE_LO, .iod, 0x200104, [],
     [⟨.SCH_SAMPLE_RING_BASE, 0, 32, .RW, .lo⟩]⟩,
   ⟨.SCH_SAMPLE_RING_BASE_HI, .iod, 0x200108, [],
     [⟨.SCH_SAMPLE_RING_BASE, 0, 32, .RW, .hi⟩]⟩,
   ⟨.SCH_SAMPLE_PROD, .iod, 0x20010C, [],
     [⟨.SCH_SAMPLE_PROD, 0, 16, .RO, .full⟩]⟩,
   ⟨.SCH_SAMPLE_CONS, .iod, 0x200110, [],
     [⟨.SCH_SAMPLE_CONS, 0, 16, .RW, .full⟩]⟩,
   ⟨.SCH_SAMPLE_STAT, .iod, 0x200114, [],
     [⟨.SCH_SAMPLE_STAT_sample_drops, 0, 16, .RC, .full⟩]⟩,
   ⟨.SCH_SAMPLE_Q, .iod, 0x200400, [(256, 0x4)],
     [⟨.SCH_SAMPLE_Q_queue, 0, 14, .RW, .full⟩,
      ⟨.SCH_SAMPLE_Q_enable, 31, 1, .RW, .full⟩]⟩,
   ⟨.SCH_NODE_W00, .iod, 0x210000, [(25600, 0x20)],
     [⟨.SCH_NODE_quantum, 0, 19, .RW, .full⟩,
      ⟨.SCH_NODE_cir_en, 19, 1, .RW, .full⟩,
      ⟨.SCH_NODE_pir_en, 20, 1, .RW, .full⟩,
      ⟨.SCH_NODE_reset_mode, 21, 1, .RW, .full⟩]⟩,
   ⟨.SCH_NODE_W04, .iod, 0x210004, [(25600, 0x20)],
     [⟨.SCH_NODE_cir, 0, 24, .RW, .full⟩]⟩,
   ⟨.SCH_NODE_W08, .iod, 0x210008, [(25600, 0x20)],
     [⟨.SCH_NODE_pir, 0, 24, .RW, .full⟩]⟩,
   ⟨.SCH_NODE_W0C, .iod, 0x21000C, [(25600, 0x20)],
     [⟨.SCH_NODE_cbs, 0, 24, .RW, .full⟩]⟩,
   ⟨.SCH_NODE_W10, .iod, 0x210010, [(25600, 0x20)],
     [⟨.SCH_NODE_pbs, 0, 24, .RW, .full⟩]⟩,
   ⟨.SCH_NODE_W14, .iod, 0x210014, [(25600, 0x20)],
     [⟨.SCH_NODE_backlogged, 0, 1, .RO, .full⟩,
      ⟨.SCH_NODE_shaped, 1, 1, .RO, .full⟩,
      ⟨.SCH_NODE_committed, 2, 1, .RO, .full⟩,
      ⟨.SCH_NODE_held, 3, 1, .RO, .full⟩]⟩,
   ⟨.SCH_NODE_W18, .iod, 0x210018, [(25600, 0x20)],
     [⟨.SCH_NODE_max_depth, 0, 16, .RW, .full⟩]⟩,
   ⟨.SCH_NODE_W1C, .iod, 0x21001C, [(25600, 0x20)],
     [⟨.SCH_NODE_deficit, 0, 32, .RO, .full⟩]⟩,
   ⟨.SCH_QSTAT_W00, .iod, 0x300000, [(16384, 0x8)],
     [⟨.SCH_QSTAT_depth_bytes, 0, 27, .RO, .full⟩]⟩,
   ⟨.SCH_QSTAT_W04, .iod, 0x300004, [(16384, 0x8)],
     [⟨.SCH_QSTAT_drops, 0, 16, .RC, .full⟩,
      ⟨.SCH_QSTAT_depth_frames, 16, 16, .RO, .full⟩]⟩,
   ⟨.SCH_RECON_CFG, .ctd, 0x6000, [],
     [⟨.SCH_RECON_CFG_enable, 0, 1, .RW, .full⟩,
      ⟨.SCH_RECON_CFG_debt_cap, 8, 24, .RW, .full⟩]⟩]

/-- Register words of block SCH_. -/
def regRowsSch1 : List RegRow :=
  [⟨.SCH_RECON_STAT, .ctd, 0x6004, [],
     [⟨.SCH_RECON_STAT_max_debt, 0, 16, .RC, .full⟩,
      ⟨.SCH_RECON_STAT_cap_hits, 16, 16, .RC, .full⟩]⟩,
   ⟨.SCH_TENANT_WEIGHT, .ctd, 0x6100, [(256, 0x4)],
     [⟨.SCH_TENANT_WEIGHT_weight, 0, 16, .RW, .full⟩]⟩,
   ⟨.SCH_REGION_QUANTUM, .fbr, 0x5000, [(256, 0x4)],
     [⟨.SCH_REGION_QUANTUM_quantum, 0, 25, .RO, .full⟩]⟩]

/-- Register words of block SIL_. -/
def regRowsSil : List RegRow :=
  [⟨.SIL_CFG, .ctd, 0x7000, [],
     [⟨.SIL_CFG_udp_port, 0, 16, .RW, .full⟩,
      ⟨.SIL_CFG_roce_en, 16, 1, .RW, .full⟩]⟩,
   ⟨.SIL_ACK_CFG, .ctd, 0x7004, [],
     [⟨.SIL_ACK_CFG_ack_every, 0, 4, .RW, .full⟩,
      ⟨.SIL_ACK_CFG_ack_delay, 4, 8, .RW, .full⟩,
      ⟨.SIL_ACK_CFG_max_retx, 12, 5, .RW, .full⟩,
      ⟨.SIL_ACK_CFG_rnr_retries, 17, 3, .RW, .full⟩]⟩,
   ⟨.SIL_PATH_CFG, .ctd, 0x7008, [],
     [⟨.SIL_PATH_CFG_min_rto, 0, 8, .RW, .full⟩,
      ⟨.SIL_PATH_CFG_max_rto, 8, 16, .RW, .full⟩,
      ⟨.SIL_PATH_CFG_retire_count, 24, 4, .RW, .full⟩]⟩,
   ⟨.SIL_PATH_CFG1, .ctd, 0x700C, [],
     [⟨.SIL_PATH_CFG1_probe_ms, 0, 16, .RW, .full⟩,
      ⟨.SIL_PATH_CFG1_base_window_ms, 16, 16, .RW, .full⟩]⟩,
   ⟨.SIL_CC_CFG0, .ctd, 0x7010, [],
     [⟨.SIL_CC_CFG0_target_ns, 0, 16, .RW, .full⟩,
      ⟨.SIL_CC_CFG0_owd_unc_max, 16, 16, .RW, .full⟩]⟩,
   ⟨.SIL_CC_CFG1, .ctd, 0x7014, [],
     [⟨.SIL_CC_CFG1_ai_mbps, 0, 16, .RW, .full⟩,
      ⟨.SIL_CC_CFG1_beta, 16, 8, .RW, .full⟩]⟩,
   ⟨.SIL_CC_CFG2, .ctd, 0x7018, [],
     [⟨.SIL_CC_CFG2_init_rate, 0, 20, .RW, .full⟩]⟩,
   ⟨.SIL_CC_CFG3, .ctd, 0x701C, [],
     [⟨.SIL_CC_CFG3_min_rate, 0, 20, .RW, .full⟩]⟩,
   ⟨.SIL_REDIRECT, .ctd, 0x7040, [(8, 0x4)],
     [⟨.SIL_REDIRECT_region, 0, 3, .RW, .full⟩]⟩,
   ⟨.SIL_CH_RECORD, .ctd, 0x7110, [(4, 0x80), (24, 0x4)],
     [⟨.SIL_CH_record, 0, 32, .RW, .full⟩]⟩,
   ⟨.SIL_CH_W00, .ctd, 0x7100, [(4, 0x80)],
     [⟨.SIL_CH_op, 0, 4, .WO, .full⟩,
      ⟨.SIL_CH_index, 4, 22, .WO, .full⟩]⟩,
   ⟨.SIL_CH_W04, .ctd, 0x7104, [(4, 0x80)],
     [⟨.SIL_CH_busy, 0, 1, .RO, .full⟩,
      ⟨.SIL_CH_result, 1, 8, .RO, .full⟩,
      ⟨.SIL_CH_state, 9, 2, .RO, .full⟩,
      ⟨.SIL_CH_active_paths, 11, 8, .RO, .full⟩]⟩,
   ⟨.SIL_CH_W08, .ctd, 0x7108, [(4, 0x80)],
     [⟨.SIL_CH_conn_id, 0, 32, .RO, .full⟩]⟩,
   ⟨.SIL_RX_CNT0, .fbr, 0x6000, [],
     [⟨.SIL_RX_CNT0_dup_pkts, 0, 16, .RC, .full⟩,
      ⟨.SIL_RX_CNT0_oow_drops, 16, 16, .RC, .full⟩]⟩,
   ⟨.SIL_RX_CNT1, .fbr, 0x6004, [],
     [⟨.SIL_RX_CNT1_tag_fail, 0, 16, .RC, .full⟩,
      ⟨.SIL_RX_CNT1_conn_unknown, 16, 8, .RC, .full⟩,
      ⟨.SIL_RX_CNT1_bad_header, 24, 8, .RC, .full⟩]⟩,
   ⟨.SIL_TX_CNT, .fbr, 0x6008, [],
     [⟨.SIL_TX_CNT_retx_pkts, 0, 16, .RC, .full⟩,
      ⟨.SIL_TX_CNT_path_retire, 16, 8, .RC, .full⟩,
      ⟨.SIL_TX_CNT_fallback_rtt, 24, 8, .RC, .full⟩]⟩,
   ⟨.SIL_CACHE_CNT, .fbr, 0x600C, [],
     [⟨.SIL_CACHE_CNT_cache_miss, 0, 32, .RC, .full⟩]⟩]

/-- Register words of block MKY_. -/
def regRowsMky : List RegRow :=
  [⟨.MKY_CFG, .ctd, 0x8000, [],
     [⟨.MKY_CFG_retry_us, 0, 16, .RW, .full⟩,
      ⟨.MKY_CFG_pri_timeout_ms, 16, 16, .RW, .full⟩]⟩,
   ⟨.MKY_CH_revoke_at_LO, .ctd, 0x8108, [(4, 0x80)],
     [⟨.MKY_CH_revoke_at, 0, 32, .RO, .lo⟩]⟩,
   ⟨.MKY_CH_revoke_at_HI, .ctd, 0x810C, [(4, 0x80)],
     [⟨.MKY_CH_revoke_at, 0, 32, .RO, .hi⟩]⟩,
   ⟨.MKY_CH_RECORD, .ctd, 0x8110, [(4, 0x80), (16, 0x4)],
     [⟨.MKY_CH_record, 0, 32, .RW, .full⟩]⟩,
   ⟨.MKY_CH_W00, .ctd, 0x8100, [(4, 0x80)],
     [⟨.MKY_CH_op, 0, 4, .WO, .full⟩,
      ⟨.MKY_CH_index, 4, 20, .WO, .full⟩,
      ⟨.MKY_CH_variant, 24, 8, .WO, .full⟩]⟩,
   ⟨.MKY_CH_W04, .ctd, 0x8104, [(4, 0x80)],
     [⟨.MKY_CH_busy, 0, 1, .RO, .full⟩,
      ⟨.MKY_CH_result, 1, 8, .RO, .full⟩]⟩,
   ⟨.MKY_REGION_CNT0, .fbr, 0x7000, [],
     [⟨.MKY_REGION_CNT0_access_err, 0, 16, .RC, .full⟩,
      ⟨.MKY_REGION_CNT0_revoked, 16, 16, .RC, .full⟩]⟩,
   ⟨.MKY_REGION_CNT1, .fbr, 0x7004, [],
     [⟨.MKY_REGION_CNT1_retry_after, 0, 16, .RC, .full⟩,
      ⟨.MKY_REGION_CNT1_out_stalls, 16, 8, .RC, .full⟩,
      ⟨.MKY_REGION_CNT1_key_miss, 24, 8, .RC, .full⟩]⟩,
   ⟨.MKY_PRI_STAT, .iod, 0x3000, [],
     [⟨.MKY_PRI_STAT_outstanding, 0, 16, .RO, .full⟩,
      ⟨.MKY_PRI_STAT_pri_fail, 16, 16, .RC, .full⟩]⟩]

/-- Register words of block NVE_. -/
def regRowsNve : List RegRow :=
  [⟨.NVE_CFG, .ctd, 0x20000, [],
     [⟨.NVE_CFG_reset_limit_ms, 0, 16, .RW, .full⟩,
      ⟨.NVE_CFG_io_timeout_100ms, 16, 12, .RW, .full⟩,
      ⟨.NVE_CFG_retries, 28, 3, .RW, .full⟩]⟩,
   ⟨.NVE_CH_RECORD, .ctd, 0x20110, [(4, 0x100), (32, 0x4)],
     [⟨.NVE_CH_record, 0, 32, .RW, .full⟩]⟩,
   ⟨.NVE_CH_W00, .ctd, 0x20100, [(4, 0x100)],
     [⟨.NVE_CH_op, 0, 4, .WO, .full⟩,
      ⟨.NVE_CH_index, 4, 14, .WO, .full⟩]⟩,
   ⟨.NVE_CH_W04, .ctd, 0x20104, [(4, 0x100)],
     [⟨.NVE_CH_busy, 0, 1, .RO, .full⟩,
      ⟨.NVE_CH_result, 1, 8, .RO, .full⟩]⟩,
   ⟨.NVE_CH_W08, .ctd, 0x20108, [(4, 0x100)],
     [⟨.NVE_CH_ctrl, 0, 10, .RW, .full⟩,
      ⟨.NVE_CH_nsid, 10, 9, .RW, .full⟩]⟩,
   ⟨.NVE_CTRL_CFG, .ctd, 0x21000, [(1024, 0x4)],
     [⟨.NVE_CTRL_CFG_enable, 0, 1, .RW, .full⟩,
      ⟨.NVE_CTRL_CFG_overlap_order, 1, 1, .RW, .full⟩,
      ⟨.NVE_CTRL_CFG_max_ioq, 2, 7, .RW, .full⟩]⟩,
   ⟨.NVE_CTRL_STAT, .ctd, 0x22000, [(1024, 0x4)],
     [⟨.NVE_CTRL_STAT_state, 0, 2, .RO, .full⟩,
      ⟨.NVE_CTRL_STAT_activating, 2, 1, .RO, .full⟩,
      ⟨.NVE_CTRL_STAT_outstanding, 16, 16, .RO, .full⟩]⟩,
   ⟨.NVE_BE_STAT_W00, .ctd, 0x24000, [(4096, 0x8)],
     [⟨.NVE_BE_STAT_connected, 0, 7, .RO, .full⟩,
      ⟨.NVE_BE_STAT_reconnects, 16, 16, .RC, .full⟩]⟩,
   ⟨.NVE_BE_STAT_W04, .ctd, 0x24004, [(4096, 0x8)],
     [⟨.NVE_BE_STAT_timeouts, 0, 16, .RC, .full⟩,
      ⟨.NVE_BE_STAT_resends, 16, 16, .RC, .full⟩]⟩,
   ⟨.NVE_REGION_CNT0, .fbr, 0x8000, [],
     [⟨.NVE_REGION_CNT0_order_waits, 0, 16, .RC, .full⟩,
      ⟨.NVE_REGION_CNT0_aborts_caught, 16, 16, .RC, .full⟩]⟩,
   ⟨.NVE_REGION_CNT1, .fbr, 0x8004, [],
     [⟨.NVE_REGION_CNT1_late_resp, 0, 16, .RC, .full⟩,
      ⟨.NVE_REGION_CNT1_transport_err, 16, 16, .RC, .full⟩]⟩]

/-- Register words of block KEY_. -/
def regRowsKey : List RegRow :=
  [⟨.KEY_CH_src_addr_LO, .ctd, 0x9018, [(4, 0x100)],
     [⟨.KEY_CH_src_addr, 0, 32, .RW, .lo⟩]⟩,
   ⟨.KEY_CH_src_addr_HI, .ctd, 0x901C, [(4, 0x100)],
     [⟨.KEY_CH_src_addr, 0, 16, .RW, .hi⟩]⟩,
   ⟨.KEY_CH_DATA, .ctd, 0x9040, [(4, 0x100), (32, 0x4)],
     [⟨.KEY_CH_data, 0, 32, .RW, .full⟩]⟩,
   ⟨.KEY_CH_W00, .ctd, 0x9000, [(4, 0x100)],
     [⟨.KEY_CH_op, 0, 4, .WO, .full⟩,
      ⟨.KEY_CH_tenant, 8, 8, .WO, .full⟩]⟩,
   ⟨.KEY_CH_W04, .ctd, 0x9004, [(4, 0x100)],
     [⟨.KEY_CH_busy, 0, 1, .RO, .full⟩,
      ⟨.KEY_CH_result, 1, 8, .RO, .full⟩]⟩,
   ⟨.KEY_CH_W08, .ctd, 0x9008, [(4, 0x100)],
     [⟨.KEY_CH_slot, 0, 24, .RW, .full⟩]⟩,
   ⟨.KEY_CH_W0C, .ctd, 0x900C, [(4, 0x100)],
     [⟨.KEY_CH_src_slot, 0, 24, .RW, .full⟩]⟩,
   ⟨.KEY_CH_W10, .ctd, 0x9010, [(4, 0x100)],
     [⟨.KEY_CH_attr, 0, 32, .RW, .full⟩]⟩,
   ⟨.KEY_CH_W14, .ctd, 0x9014, [(4, 0x100)],
     [⟨.KEY_CH_len_a, 0, 7, .RW, .full⟩,
      ⟨.KEY_CH_len_b, 7, 7, .RW, .full⟩,
      ⟨.KEY_CH_kdf, 14, 4, .RW, .full⟩]⟩,
   ⟨.KEY_CH_W20, .ctd, 0x9020, [(4, 0x100)],
     [⟨.KEY_CH_length, 0, 17, .RW, .full⟩]⟩,
   ⟨.KEY_STAT, .ctd, 0x9400, [],
     [⟨.KEY_STAT_slots_corrupt, 0, 16, .RC, .full⟩,
      ⟨.KEY_STAT_load_refused, 16, 16, .RC, .full⟩]⟩]

/-- Register words of block CIP_. -/
def regRowsCip : List RegRow :=
  [⟨.CIP_REGION_CNT0, .fbr, 0x9000, [],
     [⟨.CIP_REGION_CNT0_cipher_fail, 0, 16, .RC, .full⟩,
      ⟨.CIP_REGION_CNT0_fault_mismatch, 16, 16, .RC, .full⟩]⟩,
   ⟨.CIP_REGION_CNT1, .fbr, 0x9004, [],
     [⟨.CIP_REGION_CNT1_key_miss, 0, 32, .RC, .full⟩]⟩]

/-- Register words of block COR_. -/
def regRowsCor : List RegRow :=
  [⟨.COR_CORE_entry_LO, .fbr, 0x10004, [(6, 0x40)],
     [⟨.COR_CORE_entry, 0, 32, .RW, .lo⟩]⟩,
   ⟨.COR_CORE_entry_HI, .fbr, 0x10008, [(6, 0x40)],
     [⟨.COR_CORE_entry, 0, 32, .RW, .hi⟩]⟩,
   ⟨.COR_CORE_arg_LO, .fbr, 0x1000C, [(6, 0x40)],
     [⟨.COR_CORE_arg, 0, 32, .RW, .lo⟩]⟩,
   ⟨.COR_CORE_arg_HI, .fbr, 0x10010, [(6, 0x40)],
     [⟨.COR_CORE_arg, 0, 32, .RW, .hi⟩]⟩,
   ⟨.COR_CORE_inj_base_LO, .fbr, 0x10014, [(6, 0x40)],
     [⟨.COR_CORE_inj_base, 0, 32, .RW, .lo⟩]⟩,
   ⟨.COR_CORE_inj_base_HI, .fbr, 0x10018, [(6, 0x40)],
     [⟨.COR_CORE_inj_base, 0, 32, .RW, .hi⟩]⟩,
   ⟨.COR_CORE_W00, .fbr, 0x10000, [(6, 0x40)],
     [⟨.COR_CORE_run, 0, 1, .RW, .full⟩,
      ⟨.COR_CORE_halt_req, 1, 1, .W1S, .full⟩,
      ⟨.COR_CORE_state, 2, 2, .RO, .full⟩,
      ⟨.COR_CORE_hartid, 4, 6, .RO, .full⟩]⟩,
   ⟨.COR_CORE_W1C, .fbr, 0x1001C, [(6, 0x40)],
     [⟨.COR_CORE_inj_enable, 0, 1, .RW, .full⟩,
      ⟨.COR_CORE_inj_log2, 1, 4, .RW, .full⟩]⟩,
   ⟨.COR_CORE_W20, .fbr, 0x10020, [(6, 0x40)],
     [⟨.COR_CORE_inj_prod, 0, 16, .RW, .full⟩]⟩,
   ⟨.COR_CORE_W24, .fbr, 0x10024, [(6, 0x40)],
     [⟨.COR_CORE_inj_cons, 0, 16, .RO, .full⟩]⟩,
   ⟨.COR_CORE_W28, .fbr, 0x10028, [(6, 0x40)],
     [⟨.COR_CORE_bad_desc, 0, 16, .RC, .full⟩]⟩,
   ⟨.COR_Q_base_LO, .fbr, 0x11000, [(256, 0x20)],
     [⟨.COR_Q_base, 0, 32, .RW, .lo⟩]⟩,
   ⟨.COR_Q_base_HI, .fbr, 0x11004, [(256, 0x20)],
     [⟨.COR_Q_base, 0, 32, .RW, .hi⟩]⟩,
   ⟨.COR_Q_W08, .fbr, 0x11008, [(256, 0x20)],
     [⟨.COR_Q_enable, 0, 1, .RW, .full⟩,
      ⟨.COR_Q_mode, 1, 1, .RW, .full⟩,
      ⟨.COR_Q_log2_entries, 2, 4, .RW, .full⟩,
      ⟨.COR_Q_core, 6, 3, .RW, .full⟩,
      ⟨.COR_Q_file, 9, 3, .RW, .full⟩,
      ⟨.COR_Q_identity, 12, 8, .RW, .full⟩]⟩,
   ⟨.COR_Q_W0C, .fbr, 0x1100C, [(256, 0x20)],
     [⟨.COR_Q_prod, 0, 16, .RO, .full⟩]⟩,
   ⟨.COR_Q_W10, .fbr, 0x11010, [(256, 0x20)],
     [⟨.COR_Q_cons, 0, 16, .RW, .full⟩,
      ⟨.COR_Q_arm, 31, 1, .WO, .full⟩]⟩,
   ⟨.COR_Q_W14, .fbr, 0x11014, [(256, 0x20)],
     [⟨.COR_Q_drops, 0, 16, .RC, .full⟩,
      ⟨.COR_Q_cons_err, 16, 1, .W1C, .full⟩,
      ⟨.COR_Q_armed, 17, 1, .RO, .full⟩]⟩,
   ⟨.COR_PKT_ALLOC, .fbr, 0x13000, [],
     [⟨.COR_PKT_ALLOC_handle, 0, 15, .RO, .full⟩,
      ⟨.COR_PKT_ALLOC_valid, 31, 1, .RO, .full⟩]⟩,
   ⟨.COR_IPI, .ctd, 0xA000, [],
     [⟨.COR_IPI_hartid, 0, 6, .WO, .full⟩,
      ⟨.COR_IPI_file, 6, 3, .WO, .full⟩,
      ⟨.COR_IPI_identity, 9, 8, .WO, .full⟩]⟩]

/-- Register words of block PCI_. -/
def regRowsPci : List RegRow :=
  [⟨.PCI_EP_CFG, .iod, 0x8000, [],
     [⟨.PCI_EP_CFG_cfg_ready, 0, 1, .RW, .full⟩,
      ⟨.PCI_EP_CFG_pf3_present, 1, 1, .RO, .full⟩,
      ⟨.PCI_EP_CFG_link_up, 2, 1, .RO, .full⟩,
      ⟨.PCI_EP_CFG_speed, 3, 3, .RO, .full⟩,
      ⟨.PCI_EP_CFG_width, 6, 5, .RO, .full⟩,
      ⟨.PCI_EP_CFG_flit, 11, 1, .RO, .full⟩,
      ⟨.PCI_EP_CFG_pf3_mismatch, 12, 1, .RO, .full⟩]⟩,
   ⟨.PCI_ID_CFG, .iod, 0x8004, [],
     [⟨.PCI_ID_CFG_ssvid, 0, 16, .RW, .full⟩,
      ⟨.PCI_ID_CFG_ssid, 16, 16, .RW, .full⟩]⟩,
   ⟨.PCI_APERTURE_LO, .iod, 0x8008, [],
     [⟨.PCI_APERTURE, 0, 32, .RW, .lo⟩]⟩,
   ⟨.PCI_APERTURE_HI, .iod, 0x800C, [],
     [⟨.PCI_APERTURE, 0, 16, .RW, .hi⟩]⟩,
   ⟨.PCI_TAG_CFG, .iod, 0x8010, [],
     [⟨.PCI_TAG_CFG_quarantine_ms, 0, 16, .RW, .full⟩,
      ⟨.PCI_TAG_CFG_quarantined, 16, 16, .RO, .full⟩]⟩,
   ⟨.PCI_CPL_STAT0, .iod, 0x8014, [],
     [⟨.PCI_CPL_STAT0_timeouts, 0, 16, .RC, .full⟩,
      ⟨.PCI_CPL_STAT0_late_cpls, 16, 16, .RC, .full⟩]⟩,
   ⟨.PCI_CPL_STAT1, .iod, 0x8018, [],
     [⟨.PCI_CPL_STAT1_flushed_cpls, 0, 16, .RC, .full⟩,
      ⟨.PCI_CPL_STAT1_err_cpls, 16, 16, .RC, .full⟩]⟩,
   ⟨.PCI_LINK_STAT, .iod, 0x801C, [],
     [⟨.PCI_LINK_STAT_dl_down, 0, 16, .RC, .full⟩,
      ⟨.PCI_LINK_STAT_host_down_drops, 16, 16, .RC, .full⟩]⟩,
   ⟨.PCI_FN_STAT, .iod, 0x9000, [(1028, 0x4)],
     [⟨.PCI_FN_STAT_present, 0, 1, .RO, .full⟩,
      ⟨.PCI_FN_STAT_bme, 1, 1, .RO, .full⟩,
      ⟨.PCI_FN_STAT_bme_abort, 2, 1, .W1C, .full⟩,
      ⟨.PCI_FN_STAT_flr_active, 3, 1, .RO, .full⟩,
      ⟨.PCI_FN_STAT_dstate, 4, 2, .RO, .full⟩]⟩]

/-- Register words of block RNG_. -/
def regRowsRng : List RegRow :=
  [⟨.RNG_CFG, .iod, 0x400000, [],
     [⟨.RNG_CFG_stall_ms, 0, 16, .RW, .full⟩,
      ⟨.RNG_CFG_map_err, 16, 1, .W1C, .full⟩]⟩,
   ⟨.RNG_STAT, .iod, 0x400004, [],
     [⟨.RNG_STAT_bad_desc, 0, 16, .RC, .full⟩,
      ⟨.RNG_STAT_cpl_lost, 16, 16, .RC, .full⟩]⟩,
   ⟨.RNG_FN_MAP_W00, .iod, 0x401000, [(1028, 0x8)],
     [⟨.RNG_FN_MAP_ring_base, 0, 15, .RW, .full⟩]⟩,
   ⟨.RNG_FN_MAP_W04, .iod, 0x401004, [(1028, 0x8)],
     [⟨.RNG_FN_MAP_ring_count, 0, 16, .RW, .full⟩]⟩,
   ⟨.RNG_NVME_WRR, .iod, 0x404000, [(512, 0x4)],
     [⟨.RNG_NVME_WRR_weight, 0, 8, .RW, .full⟩]⟩,
   ⟨.RNG_RING_base_LO, .iod, 0x500000, [(32768, 0x20)],
     [⟨.RNG_RING_base, 0, 32, .RW, .lo⟩]⟩,
   ⟨.RNG_RING_base_HI, .iod, 0x500004, [(32768, 0x20)],
     [⟨.RNG_RING_base, 0, 32, .RW, .hi⟩]⟩,
   ⟨.RNG_RING_W08, .iod, 0x500008, [(32768, 0x20)],
     [⟨.RNG_RING_kind, 0, 3, .RW, .full⟩,
      ⟨.RNG_RING_log2_size, 3, 5, .RW, .full⟩,
      ⟨.RNG_RING_enable, 8, 1, .RW, .full⟩,
      ⟨.RNG_RING_pasid_en, 9, 1, .RW, .full⟩,
      ⟨.RNG_RING_pasid, 10, 20, .RW, .full⟩]⟩,
   ⟨.RNG_RING_W0C, .iod, 0x50000C, [(32768, 0x20)],
     [⟨.RNG_RING_weight, 0, 8, .RW, .full⟩,
      ⟨.RNG_RING_burst_m1, 8, 6, .RW, .full⟩,
      ⟨.RNG_RING_cq, 14, 15, .RW, .full⟩]⟩,
   ⟨.RNG_RING_W14, .iod, 0x500014, [(32768, 0x20)],
     [⟨.RNG_RING_mod_time, 0, 16, .RW, .full⟩]⟩,
   ⟨.RNG_RING_W18, .iod, 0x500018, [(32768, 0x20)],
     [⟨.RNG_RING_head, 0, 17, .RO, .full⟩,
      ⟨.RNG_RING_state, 17, 3, .RO, .full⟩,
      ⟨.RNG_RING_armed, 20, 1, .RO, .full⟩,
      ⟨.RNG_RING_cfg_err, 21, 1, .W1C, .full⟩,
      ⟨.RNG_RING_doorbell_err, 22, 1, .W1C, .full⟩]⟩,
   ⟨.RNG_RING_W1C, .iod, 0x50001C, [(32768, 0x20)],
     [⟨.RNG_RING_tail, 0, 17, .RO, .full⟩,
      ⟨.RNG_RING_drops, 17, 15, .RC, .full⟩]⟩,
   ⟨.RNG_RING_W10, .iod, 0x500010, [(32768, 0x20)],
     [⟨.RNG_RING_cfg10, 0, 31, .RW, .full⟩]⟩,
   ⟨.RNG_FN_EVT, .fnbar, 0x0, [],
     [⟨.RNG_FN_EVT_ring, 0, 15, .RW, .full⟩,
      ⟨.RNG_FN_EVT_enable, 15, 1, .RW, .full⟩]⟩,
   ⟨.RNG_FN_STAT, .fnbar, 0x4, [],
     [⟨.RNG_FN_STAT_evt_drops, 0, 16, .RC, .full⟩]⟩]

/-- Register words of block TEN_. -/
def regRowsTen : List RegRow :=
  [⟨.TEN_CMD, .ctd, 0xB000, [],
     [⟨.TEN_CMD_op, 0, 3, .WO, .full⟩,
      ⟨.TEN_CMD_tenant, 8, 8, .WO, .full⟩]⟩,
   ⟨.TEN_CMD_STATUS, .ctd, 0xB004, [],
     [⟨.TEN_CMD_STATUS_busy, 0, 1, .RO, .full⟩,
      ⟨.TEN_CMD_STATUS_result, 1, 8, .RO, .full⟩]⟩,
   ⟨.TEN_REC, .ctd, 0xB010, [(12, 0x4)],
     [⟨.TEN_REC, 0, 32, .RW, .full⟩]⟩,
   ⟨.TEN_STATE, .ctd, 0xB100, [(256, 0x4)],
     [⟨.TEN_STATE_state, 0, 2, .RO, .full⟩,
      ⟨.TEN_STATE_forced, 2, 1, .RO, .full⟩,
      ⟨.TEN_STATE_quota_hits, 16, 16, .RC, .full⟩]⟩,
   ⟨.TEN_FN_OWNER, .iod, 0xC000, [(1028, 0x4)],
     [⟨.TEN_FN_OWNER_tenant, 0, 8, .RW, .full⟩,
      ⟨.TEN_FN_OWNER_own_err, 8, 1, .W1C, .full⟩]⟩,
   ⟨.TEN_DROP_CNT, .iod, 0xE000, [],
     [⟨.TEN_DROP_CNT_fatal_drops, 0, 32, .RC, .full⟩]⟩]

/-- Register words of block NRL_. -/
def regRowsNrl : List RegRow :=
  [⟨.NRL_CFG, .ctd, 0x10000, [],
     [⟨.NRL_CFG_enforce, 0, 1, .RW, .full⟩,
      ⟨.NRL_CFG_profile, 1, 2, .RW, .full⟩,
      ⟨.NRL_CFG_over_budget, 3, 1, .RO, .full⟩,
      ⟨.NRL_CFG_meas_stale, 4, 1, .RO, .full⟩,
      ⟨.NRL_CFG_cal_alert, 5, 1, .W1C, .full⟩]⟩,
   ⟨.NRL_BUDGET, .ctd, 0x10004, [],
     [⟨.NRL_BUDGET_budget_mw, 0, 20, .RW, .full⟩]⟩,
   ⟨.NRL_MIN_GRANT, .ctd, 0x10008, [],
     [⟨.NRL_MIN_GRANT_min_grant_uj, 0, 16, .RW, .full⟩]⟩,
   ⟨.NRL_IOD_COST, .ctd, 0x1000C, [],
     [⟨.NRL_IOD_COST_iod_frame_nj, 0, 16, .RW, .full⟩,
      ⟨.NRL_IOD_COST_iod_byte_pj, 16, 16, .RW, .full⟩]⟩,
   ⟨.NRL_PMBUS_CFG, .ctd, 0x10010, [],
     [⟨.NRL_PMBUS_CFG_n_rails, 0, 4, .RW, .full⟩]⟩,
   ⟨.NRL_PMBUS_ADDR, .ctd, 0x10020, [(8, 0x4)],
     [⟨.NRL_PMBUS_ADDR_addr, 0, 7, .RW, .full⟩,
      ⟨.NRL_PMBUS_ADDR_page, 8, 8, .RW, .full⟩,
      ⟨.NRL_PMBUS_ADDR_pmbus_err, 16, 16, .RC, .full⟩]⟩,
   ⟨.NRL_MEAS, .ctd, 0x10040, [],
     [⟨.NRL_MEAS_meas_mw, 0, 20, .RO, .full⟩]⟩,
   ⟨.NRL_EST, .ctd, 0x10044, [],
     [⟨.NRL_EST_est_mw, 0, 20, .RO, .full⟩]⟩,
   ⟨.NRL_K, .ctd, 0x10048, [],
     [⟨.NRL_K_k, 0, 16, .RO, .full⟩]⟩,
   ⟨.NRL_TOTAL_LO, .ctd, 0x10050, [],
     [⟨.NRL_TOTAL, 0, 32, .RO, .lo⟩]⟩,
   ⟨.NRL_TOTAL_HI, .ctd, 0x10054, [],
     [⟨.NRL_TOTAL, 0, 32, .RO, .hi⟩]⟩,
   ⟨.NRL_OVERHEAD_LO, .ctd, 0x10058, [],
     [⟨.NRL_OVERHEAD, 0, 32, .RO, .lo⟩]⟩,
   ⟨.NRL_OVERHEAD_HI, .ctd, 0x1005C, [],
     [⟨.NRL_OVERHEAD, 0, 32, .RO, .hi⟩]⟩,
   ⟨.NRL_REGION_CFG, .ctd, 0x10100, [(8, 0x4)],
     [⟨.NRL_REGION_CFG_ovr_en, 0, 1, .RW, .full⟩,
      ⟨.NRL_REGION_CFG_ovr_profile, 1, 2, .RW, .full⟩,
      ⟨.NRL_REGION_CFG_vmin_mv, 3, 10, .RW, .full⟩,
      ⟨.NRL_REGION_CFG_vmax_mv, 13, 10, .RW, .full⟩]⟩,
   ⟨.NRL_TENANT_CFG_used_LO, .ctd, 0x10408, [(256, 0x10)],
     [⟨.NRL_TENANT_CFG_used, 0, 32, .RO, .lo⟩]⟩,
   ⟨.NRL_TENANT_CFG_used_HI, .ctd, 0x1040C, [(256, 0x10)],
     [⟨.NRL_TENANT_CFG_used, 0, 32, .RO, .hi⟩]⟩,
   ⟨.NRL_TENANT_CFG_W00, .ctd, 0x10400, [(256, 0x10)],
     [⟨.NRL_TENANT_CFG_weight, 0, 16, .RW, .full⟩]⟩,
   ⟨.NRL_TENANT_CFG_W04, .ctd, 0x10404, [(256, 0x10)],
     [⟨.NRL_TENANT_CFG_cap_mw, 0, 20, .RW, .full⟩]⟩,
   ⟨.NRL_REGION_STAT, .fbr, 0xA000, [],
     [⟨.NRL_REGION_STAT_v_target_mv, 0, 10, .RO, .full⟩,
      ⟨.NRL_REGION_STAT_v_floor_mv, 10, 10, .RO, .full⟩,
      ⟨.NRL_REGION_STAT_profile, 20, 2, .RO, .full⟩]⟩,
   ⟨.NRL_EPE, .fbr, 0xA040, [(9, 0x4)],
     [⟨.NRL_EPE_e_fpj, 0, 16, .RO, .full⟩]⟩]

/-- Register words of block NRL_. -/
def regRowsNrl1 : List RegRow :=
  [⟨.NRL_LEAK, .fbr, 0xA064, [],
     [⟨.NRL_LEAK_leak_rop_mw, 0, 16, .RO, .full⟩]⟩,
   ⟨.NRL_CREDIT, .fbr, 0xA100, [(256, 0x4)],
     [⟨.NRL_CREDIT_balance, 0, 32, .RO, .full⟩]⟩,
   ⟨.NRL_CREDIT, .iod, 0x4100, [(256, 0x4)],
     [⟨.NRL_CREDIT_balance, 0, 32, .RO, .full⟩]⟩]

/-- Register words of block AGE_. -/
def regRowsAge : List RegRow :=
  [⟨.AGE_CFG, .tmd, 0x2000, [],
     [⟨.AGE_CFG_margin_thr_mv, 0, 10, .RW, .full⟩,
      ⟨.AGE_CFG_forced, 16, 16, .RC, .full⟩]⟩,
   ⟨.AGE_REGION, .tmd, 0x2010, [(8, 0x4)],
     [⟨.AGE_REGION_index, 0, 10, .RO, .full⟩,
      ⟨.AGE_REGION_margin_mv, 10, 10, .RO, .full⟩,
      ⟨.AGE_REGION_v_rop_mv, 20, 10, .RO, .full⟩,
      ⟨.AGE_REGION_alert, 30, 1, .W1C, .full⟩]⟩]

/-- Register words of block BOOT_. -/
def regRowsBoot : List RegRow :=
  [⟨.BOOT_STATUS, .ctd, 0xC000, [],
     [⟨.BOOT_STATUS_stage, 0, 2, .RO, .full⟩,
      ⟨.BOOT_STATUS_recovery, 2, 1, .RO, .full⟩,
      ⟨.BOOT_STATUS_keylock, 3, 1, .RO, .full⟩,
      ⟨.BOOT_STATUS_device_ready, 4, 1, .RO, .full⟩,
      ⟨.BOOT_STATUS_s1_slot, 5, 1, .RO, .full⟩,
      ⟨.BOOT_STATUS_s2_slot, 6, 1, .RO, .full⟩,
      ⟨.BOOT_STATUS_struct_none, 7, 1, .RO, .full⟩,
      ⟨.BOOT_STATUS_log_base_default, 8, 1, .RO, .full⟩]⟩,
   ⟨.BOOT_EVENTS, .ctd, 0xC004, [],
     [⟨.BOOT_EVENTS_s1_ambiguous, 0, 1, .W1C, .full⟩,
      ⟨.BOOT_EVENTS_s2_ambiguous, 1, 1, .W1C, .full⟩,
      ⟨.BOOT_EVENTS_s2_wdog, 2, 1, .W1C, .full⟩,
      ⟨.BOOT_EVENTS_struct_fallback, 3, 1, .W1C, .full⟩,
      ⟨.BOOT_EVENTS_arb_rejected, 4, 1, .W1C, .full⟩]⟩,
   ⟨.BOOT_CTRL, .ctd, 0xC008, [],
     [⟨.BOOT_CTRL_fw_alive, 0, 1, .W1S, .full⟩]⟩,
   ⟨.BOOT_IMAGE_W00, .ctd, 0xC010, [(4, 0x8)],
     [⟨.BOOT_IMAGE_security_version, 0, 7, .RO, .full⟩,
      ⟨.BOOT_IMAGE_result, 8, 3, .RO, .full⟩,
      ⟨.BOOT_IMAGE_key_slot, 11, 2, .RO, .full⟩,
      ⟨.BOOT_IMAGE_detail, 16, 16, .RO, .full⟩]⟩,
   ⟨.BOOT_IMAGE_W04, .ctd, 0xC014, [(4, 0x8)],
     [⟨.BOOT_IMAGE_build, 0, 32, .RO, .full⟩]⟩,
   ⟨.BOOT_ARB, .ctd, 0xC040, [],
     [⟨.BOOT_ARB_counter, 0, 7, .RO, .full⟩,
      ⟨.BOOT_ARB_busy, 7, 1, .RO, .full⟩,
      ⟨.BOOT_ARB_target, 8, 7, .WO, .full⟩]⟩,
   ⟨.BOOT_KEY, .ctd, 0xC050, [(4, 0x4)],
     [⟨.BOOT_KEY_state, 0, 2, .RO, .full⟩]⟩,
   ⟨.BOOT_FLASH_STAT, .ctd, 0xC060, [],
     [⟨.BOOT_FLASH_STAT_log_lost, 0, 16, .RC, .full⟩,
      ⟨.BOOT_FLASH_STAT_flash_err, 16, 16, .RC, .full⟩]⟩,
   ⟨.BOOT_COUNT, .ctd, 0xC064, [],
     [⟨.BOOT_COUNT, 0, 32, .RO, .full⟩]⟩,
   ⟨.BOOT_RCV_CTRL, .rcv, 0x0, [],
     [⟨.BOOT_RCV_CTRL_op, 0, 3, .WO, .full⟩,
      ⟨.BOOT_RCV_CTRL_kind, 3, 2, .WO, .full⟩]⟩,
   ⟨.BOOT_RCV_STATUS, .rcv, 0x4, [],
     [⟨.BOOT_RCV_STATUS_busy, 0, 1, .RO, .full⟩,
      ⟨.BOOT_RCV_STATUS_open, 1, 1, .RO, .full⟩,
      ⟨.BOOT_RCV_STATUS_target, 2, 1, .RO, .full⟩,
      ⟨.BOOT_RCV_STATUS_result, 8, 8, .RO, .full⟩]⟩,
   ⟨.BOOT_RCV_OFFSET, .rcv, 0x8, [],
     [⟨.BOOT_RCV_OFFSET, 0, 32, .RW, .full⟩]⟩,
   ⟨.BOOT_RCV_LEN, .rcv, 0xC, [],
     [⟨.BOOT_RCV_LEN, 0, 22, .RW, .full⟩]⟩]

/-- Register words of block ONX_. -/
def regRowsOnx : List RegRow :=
  [⟨.ONX_STATUS, .ctd, 0x14000, [],
     [⟨.ONX_STATUS_wait, 0, 1, .RO, .full⟩,
      ⟨.ONX_STATUS_jumper, 1, 1, .RO, .full⟩,
      ⟨.ONX_STATUS_button, 2, 1, .RO, .full⟩,
      ⟨.ONX_STATUS_seal_broken, 3, 1, .RO, .full⟩,
      ⟨.ONX_STATUS_debug_unlocked, 4, 1, .RO, .full⟩,
      ⟨.ONX_STATUS_last_cmd, 8, 8, .RO, .full⟩,
      ⟨.ONX_STATUS_result, 16, 8, .RO, .full⟩,
      ⟨.ONX_STATUS_window_s, 24, 7, .RO, .full⟩]⟩,
   ⟨.ONX_NONCE, .ctd, 0x14010, [(4, 0x4)],
     [⟨.ONX_NONCE, 0, 32, .RO, .full⟩]⟩,
   ⟨.ONX_SERIAL_LO, .ctd, 0x14020, [],
     [⟨.ONX_SERIAL, 0, 32, .RO, .lo⟩]⟩,
   ⟨.ONX_SERIAL_HI, .ctd, 0x14024, [],
     [⟨.ONX_SERIAL, 0, 32, .RO, .hi⟩]⟩,
   ⟨.ONX_OWNER, .ctd, 0x14028, [],
     [⟨.ONX_OWNER_used, 0, 4, .RO, .full⟩]⟩,
   ⟨.ONX_CTRL, .ctd, 0x1402C, [],
     [⟨.ONX_CTRL_submit, 0, 1, .W1S, .full⟩,
      ⟨.ONX_CTRL_cancel, 1, 1, .W1S, .full⟩]⟩,
   ⟨.ONX_MBOX, .ctd, 0x16000, [(2048, 0x4)],
     [⟨.ONX_MBOX, 0, 32, .RW, .full⟩]⟩]

/-- Register words of block ERR_. -/
def regRowsErr : List RegRow :=
  [⟨.ERR_STATUS, .ctd, 0xE000, [],
     [⟨.ERR_STATUS_corrected, 0, 1, .W1C, .full⟩,
      ⟨.ERR_STATUS_contained, 1, 1, .W1C, .full⟩,
      ⟨.ERR_STATUS_tenant_fatal, 2, 1, .W1C, .full⟩,
      ⟨.ERR_STATUS_device_fatal, 3, 1, .RO, .full⟩]⟩,
   ⟨.ERR_CNT, .ctd, 0xE010, [(4, 0x4)],
     [⟨.ERR_CNT, 0, 32, .RC, .full⟩]⟩,
   ⟨.ERR_IRQ_CFG, .ctd, 0xE020, [],
     [⟨.ERR_IRQ_CFG_ep_en, 0, 2, .RW, .full⟩,
      ⟨.ERR_IRQ_CFG_vector, 2, 8, .RW, .full⟩,
      ⟨.ERR_IRQ_CFG_corr_aer, 10, 1, .RW, .full⟩,
      ⟨.ERR_IRQ_CFG_core_en, 11, 1, .RW, .full⟩,
      ⟨.ERR_IRQ_CFG_identity, 12, 8, .RW, .full⟩,
      ⟨.ERR_IRQ_CFG_min_class, 20, 2, .RW, .full⟩]⟩,
   ⟨.ERR_TENANT_CFG, .ctd, 0xE024, [],
     [⟨.ERR_TENANT_CFG_tenant_limit, 0, 16, .RW, .full⟩]⟩,
   ⟨.ERR_LOG_HEAD, .ctd, 0xE028, [],
     [⟨.ERR_LOG_HEAD_head, 0, 16, .RO, .full⟩]⟩,
   ⟨.ERR_LOG_dt64_LO, .ctd, 0xE100, [(64, 0x20)],
     [⟨.ERR_LOG_dt64, 0, 32, .RO, .lo⟩]⟩,
   ⟨.ERR_LOG_dt64_HI, .ctd, 0xE104, [(64, 0x20)],
     [⟨.ERR_LOG_dt64, 0, 32, .RO, .hi⟩]⟩,
   ⟨.ERR_LOG_addr_LO, .ctd, 0xE110, [(64, 0x20)],
     [⟨.ERR_LOG_addr, 0, 32, .RO, .lo⟩]⟩,
   ⟨.ERR_LOG_addr_HI, .ctd, 0xE114, [(64, 0x20)],
     [⟨.ERR_LOG_addr, 0, 16, .RO, .hi⟩]⟩,
   ⟨.ERR_LOG_W08, .ctd, 0xE108, [(64, 0x20)],
     [⟨.ERR_LOG_source, 0, 8, .RO, .full⟩,
      ⟨.ERR_LOG_class, 8, 2, .RO, .full⟩,
      ⟨.ERR_LOG_level, 10, 2, .RO, .full⟩,
      ⟨.ERR_LOG_die, 12, 4, .RO, .full⟩,
      ⟨.ERR_LOG_region, 16, 4, .RO, .full⟩,
      ⟨.ERR_LOG_tenant, 20, 8, .RO, .full⟩]⟩,
   ⟨.ERR_LOG_W0C, .ctd, 0xE10C, [(64, 0x20)],
     [⟨.ERR_LOG_count, 0, 16, .RO, .full⟩,
      ⟨.ERR_LOG_requester, 16, 16, .RO, .full⟩]⟩,
   ⟨.ERR_LOG_W18, .ctd, 0xE118, [(64, 0x20)],
     [⟨.ERR_LOG_detail, 0, 32, .RO, .full⟩]⟩,
   ⟨.ERR_REGION_CMD, .ctd, 0xE040, [],
     [⟨.ERR_REGION_CMD_op, 0, 2, .WO, .full⟩,
      ⟨.ERR_REGION_CMD_region, 2, 3, .WO, .full⟩,
      ⟨.ERR_REGION_CMD_force, 5, 1, .WO, .full⟩,
      ⟨.ERR_REGION_CMD_busy, 6, 1, .RO, .full⟩,
      ⟨.ERR_REGION_CMD_result, 8, 8, .RO, .full⟩,
      ⟨.ERR_REGION_CMD_drain_limit_us, 16, 16, .RW, .full⟩]⟩,
   ⟨.ERR_REGION_STATE, .ctd, 0xE050, [(8, 0x4)],
     [⟨.ERR_REGION_STATE_state, 0, 3, .RO, .full⟩,
      ⟨.ERR_REGION_STATE_bist_pass, 3, 1, .RO, .full⟩,
      ⟨.ERR_REGION_STATE_spares_used, 4, 5, .RO, .full⟩,
      ⟨.ERR_REGION_STATE_failed_blocks, 16, 16, .RO, .full⟩]⟩,
   ⟨.ERR_TEST_CFG, .ctd, 0xE070, [],
     [⟨.ERR_TEST_CFG_kat_ms, 0, 8, .RW, .full⟩,
      ⟨.ERR_TEST_CFG_tcam_period_s, 8, 8, .RW, .full⟩,
      ⟨.ERR_TEST_CFG_sram_scrub_s, 16, 8, .RW, .full⟩,
      ⟨.ERR_TEST_CFG_hbm_scrub_h, 24, 8, .RW, .full⟩]⟩,
   ⟨.ERR_HBM_CMD, .ctd, 0xE080, [],
     [⟨.ERR_HBM_CMD_pc, 0, 5, .WO, .full⟩,
      ⟨.ERR_HBM_CMD_stack, 5, 1, .WO, .full⟩,
      ⟨.ERR_HBM_CMD_auto_retire, 6, 1, .RW, .full⟩,
      ⟨.ERR_HBM_CMD_busy, 7, 1, .RO, .full⟩,
      ⟨.ERR_HBM_CMD_retire_thr, 8, 8, .RW, .full⟩]⟩,
   ⟨.ERR_HBM_PC, .ctd, 0xF200, [(2, 0x80), (32, 0x4)],
     [⟨.ERR_HBM_PC_state, 0, 2, .RO, .full⟩,
      ⟨.ERR_HBM_PC_partner, 2, 5, .RO, .full⟩,
      ⟨.ERR_HBM_PC_corr_cnt, 16, 16, .RC, .full⟩]⟩]

/-- Register words of block TMX_. -/
def regRowsTmx : List RegRow :=
  [⟨.TMX_CFG, .ctd, 0xD000, [],
     [⟨.TMX_CFG_div, 0, 8, .RW, .full⟩]⟩,
   ⟨.TMX_SEL, .ctd, 0xD010, [(2, 0x4)],
     [⟨.TMX_SEL_point, 0, 12, .RW, .full⟩,
      ⟨.TMX_SEL_enable, 12, 1, .RW, .full⟩,
      ⟨.TMX_SEL_strobe_out, 13, 1, .RW, .full⟩]⟩]

/-- Every register word of the device. -/
def regRows : List RegRow :=
  regRowsPkg ++ regRowsXd ++ regRowsTs ++ regRowsTs1 ++ regRowsTsu ++ regRowsStr ++ regRowsCls ++ regRowsPar ++ regRowsExm ++ regRowsTcm ++ regRowsPat ++ regRowsEth ++ regRowsEth1 ++ regRowsSch ++ regRowsSch1 ++ regRowsSil ++ regRowsMky ++ regRowsNve ++ regRowsKey ++ regRowsCip ++ regRowsCor ++ regRowsPci ++ regRowsRng ++ regRowsTen ++ regRowsNrl ++ regRowsNrl1 ++ regRowsAge ++ regRowsBoot ++ regRowsOnx ++ regRowsErr ++ regRowsTmx

end Sys2Proof.Machine
end

