-- ==== Sys2Proof/Machine/Regs.lean ====
section
/-! DEFINITION. Register access: where an address lies (R17, R40, R41, R569, R570), what a register word reads as, and what a
write of each access type does (R8 to R15, Table SCOPE-3). -/

namespace Sys2Proof.Machine

/-- Access path number of endpoint `e` (R14). -/
def pathEp (e : Nat) : Nat := e
/-- Access path number of the SMBus/MCTP port. -/
def pathSmbus : Nat := 2
/-- Access path number of the JTAG port. -/
def pathJtag : Nat := 3
/-- Access path number of hart `h`. -/
def pathCore (h : Nat) : Nat := 4 + h

/-- Low bits of a field that are reserved and read 0 (the register descriptions of the ring bases and the aperture). -/
def Field.zeroLow : Field → Nat
  | .TS_RING_BASE => 12
  | .SCH_SAMPLE_RING_BASE => 12
  | .RNG_RING_base => 12
  | .PCI_APERTURE => 26
  | _ => 0

/-- A value with the field's reserved low bits 0 (R8). -/
def Field.fit (f : Field) (v : Nat) : Nat := v / 2 ^ f.zeroLow * 2 ^ f.zeroLow

/-- Instance numbers of an array register at offset `o` past its base, as one mixed-radix number; none between instances. -/
def instanceAt : List (Nat × Nat) → Nat → Nat → Option Nat
  | [], o, acc => if o = 0 then some acc else none
  | (n, st) :: r, o, acc => if o / st < n then instanceAt r (o % st) (acc * n + o / st) else none

/-- Where an access lands. -/
inductive Target where
  /-- A register word, its scope and instance. -/
  | reg (r : RegRow) (sc i : Nat)
  /-- Inside a block, at no register (R570). -/
  | gap
  /-- A memory window. -/
  | mem
  /-- Nothing (R41, R43). -/
  | unmapped
deriving DecidableEq, Repr

/-- Spans of the blocks (Table REGS-1): place, offset, size. -/
def blockSpans : List (Where × Nat × Nat) :=
  [(.every, 0x0, 0x1000),
   (.ctd, 0x1000, 0x1000), (.ctd, 0x2000, 0x1000), (.ctd, 0x3000, 0x1000), (.ctd, 0x4000, 0x1000), (.ctd, 0x5000, 0x1000),
   (.ctd, 0x6000, 0x1000), (.ctd, 0x7000, 0x1000), (.ctd, 0x8000, 0x1000), (.ctd, 0x9000, 0x1000), (.ctd, 0xA000, 0x1000),
   (.ctd, 0xB000, 0x1000), (.ctd, 0xC000, 0x1000), (.ctd, 0xD000, 0x1000), (.ctd, 0xE000, 0x1000), (.ctd, 0xF000, 0x1000),
   (.ctd, 0x10000, 0x2000), (.ctd, 0x14000, 0x4000), (.ctd, 0x20000, 0x10000), (.ctd, 0x40000, 0x40000),
   (.tmd, 0x1000, 0x1000), (.tmd, 0x2000, 0x1000)] ++
  [(.iod, 0x1000, 0x1000), (.iod, 0x2000, 0x1000), (.iod, 0x3000, 0x1000), (.iod, 0x4000, 0x1000), (.iod, 0x8000, 0x4000),
   (.iod, 0xC000, 0x4000), (.iod, 0x80000, 0x80000), (.iod, 0x200000, 0x200000), (.iod, 0x400000, 0x200000),
   (.fbr, 0x0, 0x1000), (.fbr, 0x1000, 0x1000), (.fbr, 0x2000, 0x1000), (.fbr, 0x3000, 0x1000), (.fbr, 0x4000, 0x1000),
   (.fbr, 0x5000, 0x1000), (.fbr, 0x6000, 0x1000), (.fbr, 0x7000, 0x1000), (.fbr, 0x8000, 0x1000), (.fbr, 0x9000, 0x1000),
   (.fbr, 0xA000, 0x1000), (.fbr, 0x10000, 0x4000), (.fbr, 0x40000, 0x40000)]

/-- Whether a die-common place lies on die `d`. -/
def Where.on (w : Where) (d : Nat) : Bool :=
  match w with
  | .every => true
  | .ctd => decide (d = 0)
  | .tmd => decide (d = 1)
  | .iod => decide (d = 2 ∨ d = 3)
  | .iod0 => decide (d = 2)
  | _ => false

/-- Scope number under which the state keeps a register of place `w` seen at die or region number `n`: 0 for the one CTD
and TMD, the IOD number on an IOD, the die number for a register of every die, the region number in a region. The tenant
balances of an IOD are kept beside those of the regions, at 8 + IOD. -/
def Where.scope (w : Where) (reg : Reg) (n : Nat) : Nat :=
  match w with
  | .every => n
  | .iod => if reg = .NRL_CREDIT then 8 + (n - 2) else n - 2
  | .fbr => n
  | .fnbar => n
  | _ => 0

/-- The register word at offset `o` of place `w`. -/
def regAt (p : Where → Bool) (o : Nat) : List RegRow → Option (RegRow × Nat)
  | [] => none
  | r :: rs =>
    if p r.loc ∧ r.off ≤ o then
      match instanceAt r.dims (o - r.off) 0 with
      | some i => some (r, i)
      | none => regAt p o rs
    else regAt p o rs

/-- The target of a register offset among the places `p`, at die or region number `n`. -/
def targetReg (p : Where → Bool) (n o : Nat) : Target :=
  match regAt p o regRows with
  | some (r, i) => .reg r (r.loc.scope r.reg n) i
  | none => if blockSpans.any (fun b => p b.1 && within o b.2.1 b.2.2) then .gap else .unmapped

/-- Whether region `n` is offline for test (R43). -/
def State.offlineForTest (s : State) (n : Nat) : Bool :=
  decide (s.get .ERR_REGION_STATE_state 0 n = 2 ∨ s.get .ERR_REGION_STATE_state 0 n = 3 ∨
    s.get .ERR_REGION_STATE_state 0 n = 5)

/-- The target inside a region SRAM window (Table PKG-6; R41, R43). -/
def State.targetSram (s : State) (n o : Nat) : Target :=
  if within o 0x01A00000 0x300000 ∨ s.offlineForTest n then .unmapped else .mem

/-- The target inside an HBM stack `k` at offset `o` of its die (R43, R393, R546, R547). -/
def State.targetHbm (s : State) (k o : Nat) : Target :=
  let pc := (o - 0x1000000000) / 0x30000000
  if within o 0x1280000000 0x20000000 then .unmapped
  else if s.get .ERR_HBM_PC_state 0 (k * 32 + pc) = 2 ∧ 16 ≤ pc then .unmapped
  else if s.get .ERR_HBM_PC_state 0 (k * 32 + pc) = 3 then .unmapped
  else .mem

/-- Where device address `a` lands (R17, R40, R41, R43, R569, R570). -/
def State.target (s : State) (a : Nat) : Target :=
  let d := a / 2 ^ 44
  let o := a % 2 ^ 44
  if 7 < d then .unmapped
  else if o < 0x1000000 then targetReg (·.on d) d o
  else if 4 ≤ d ∧ within o 0x4000000 0x4000000 then targetReg (fun w => decide (w = .fbr)) (2 * (d - 4)) (o - 0x4000000)
  else if 4 ≤ d ∧ within o 0x8000000 0x4000000 then targetReg (fun w => decide (w = .fbr)) (2 * (d - 4) + 1) (o - 0x8000000)
  else if 4 ≤ d ∧ within o 0x10000000 0x2000000 then s.targetSram (2 * (d - 4)) (o - 0x10000000)
  else if 4 ≤ d ∧ within o 0x12000000 0x2000000 then s.targetSram (2 * (d - 4) + 1) (o - 0x12000000)
  else if (d = 2 ∨ d = 3) ∧ within o 0x10000000 0xC00000 then .mem
  else if d = 0 ∧ within o 0x10000000 0x380000 then .mem
  else if d = 1 ∧ within o 0x10000000 0x80000 then .mem
  else if d = 0 ∧ within o 0x20000000 0x1000000 then .mem
  else if d = 5 ∧ within o 0x1000000000 0x600000000 then s.targetHbm 0 o
  else if d = 6 ∧ within o 0x1000000000 0x600000000 then s.targetHbm 1 o
  else .unmapped

/-- The bits a slot shows of its field's value. -/
def Slot.show (t : Slot) (v : Nat) : Nat :=
  match t.part with
  | .full => v % 2 ^ t.w
  | .lo => v % 2 ^ 32
  | .hi => v / 2 ^ 32 % 2 ^ t.w

/-- What a slot reads as (Table SCOPE-3): WO and the W1S actions read 0. -/
def State.slotRead (s : State) (t : Slot) (sc i : Nat) : Nat :=
  match t.acc with
  | .WO => 0
  | _ => t.show (s.get t.f sc i) * 2 ^ t.lo

/-- What a register word reads as: the sum of its slots, every reserved bit 0 (R8). -/
def State.wordRead (s : State) (r : RegRow) (sc i : Nat) : Nat :=
  r.slots.foldl (fun acc t => acc + s.slotRead t sc i) 0

/-- An RC slot is cleared by the read that returns it (R9, R11). -/
def State.slotClear (s : State) (t : Slot) (sc i : Nat) : State :=
  match t.acc with
  | .RC => s.set t.f 0 sc i
  | _ => s

/-- Whether the word is the high half of a 64-bit quantity. -/
def RegRow.isHi (r : RegRow) : Bool := r.slots.any (fun t => decide (t.part = .hi))

/-- Whether software may write the word's quantity. -/
def RegRow.isRw (r : RegRow) : Bool := r.slots.any (fun t => decide (t.acc = .RW))

/-- Whether the word is the low half of a 64-bit quantity. -/
def RegRow.isLo (r : RegRow) : Bool := r.slots.any (fun t => decide (t.part = .lo))

/-- The high word of the 64-bit quantity whose low word is `r`. -/
def State.hiWord (s : State) (r : RegRow) (sc i : Nat) : Nat :=
  r.slots.foldl (fun acc t => acc + s.get t.f sc i / 2 ^ 32 % 2 ^ 32) 0

/-- The read of a register word on an access path: a _LO word snapshots the high half, a _HI word returns the snapshot
and clears nothing, TS_NOW_LO also snapshots U_DTS, and TS_NOW_UNC returns that (R13). -/
def State.regRead (s : State) (path : Nat) (r : RegRow) (sc i : Nat) : State :=
  if r.isHi then s.answer [s.get .PATH_snap 0 path]
  else if r.reg = .TS_NOW_UNC then s.answer [s.get .PATH_unc 0 path]
  else
    let s := s.answer [s.wordRead r sc i]
    let s := s.when r.isLo (fun s => s.set .PATH_snap (s.hiWord r sc i) 0 path)
    let s := s.when (decide (r.reg = .TS_NOW_LO)) (fun s => s.set .PATH_unc (s.get .TS_STATUS_unc16) 0 path)
    s.each r.slots (fun t s => s.slotClear t sc i)

/-- The effect of writing `v` (the slot's own bits) to a slot (Table SCOPE-3). WO and W1S slots have effects of their own
elsewhere. A locked RWL slot keeps its value (R12). -/
def State.slotWrite (s : State) (t : Slot) (sc i v : Nat) : State :=
  match t.acc with
  | .RW => s.set t.f (t.f.fit v) sc i
  | .W1C => s.set t.f (clearBits t.f.width (s.get t.f sc i) (if t.part = .hi then v * 2 ^ 32 else v)) sc i
  | .RWL => if s.get .BOOT_STATUS_keylock = 1 then s else s.set t.f v sc i
  | _ => s

/-- Whether some slot of the word is RWL. -/
def RegRow.hasRwl (r : RegRow) : Bool := r.slots.any (fun t => decide (t.acc = .RWL))

/-- The requester of an error record: over an endpoint the Routing ID of the host's request, else 0xFF00 + access path (ERR_LOG; log
entry 144). A register row names a path only: over an endpoint it is the requester of that endpoint's last request. -/
def State.pathReq (s : State) (path : Nat) : Nat :=
  if path < 2 then s.get .PATH_rid 0 path else 0xFF00 + Config.pathNumber path % 256

/-- An error record with the path as requester (ERR_LOG). -/
def State.pathErr (s : State) (src path addr : Nat) : Err :=
  { src := src, cls := .contained, requester := some (s.pathReq path), addr := addr, die := addr / 2 ^ 44 }

/-- The write of a word that is no half of a pair: every slot by its access type; a write of a locked RWL field is ignored
and logged RWL_LOCKED (R8, R9, R12). -/
def State.plainWrite (s : State) (path addr : Nat) (r : RegRow) (sc i v : Nat) : State :=
  let s := s.when (r.hasRwl && decide (s.get .BOOT_STATUS_keylock = 1)) (fun s => s.report1 (s.pathErr 0x02 path addr))
  s.each r.slots (fun t s => s.slotWrite t sc i (bitsOf v t.lo t.w))

/-- A write of a _LO word: held as the pending low half of the path, the register unchanged (R15). -/
def State.loWrite (s : State) (path v : Nat) : State :=
  (s.set .PATH_pend v 0 path).set .PATH_pend_v 1 0 path

/-- A write of a _HI word: the whole quantity at once, its low half the path's pending value, or the register's own low half
where none is pending; the pending value is used up (R15). -/
def State.hiWrite (s : State) (path : Nat) (r : RegRow) (sc i v : Nat) : State :=
  (s.each r.slots (fun t s => s.when (decide (t.acc = .RW)) (fun s =>
    s.set t.f (t.f.fit ((v % 2 ^ t.w) * 2 ^ 32 +
      (if s.get .PATH_pend_v 0 path = 1 then s.get .PATH_pend 0 path else s.get t.f sc i % 2 ^ 32))) sc i))).set
    .PATH_pend_v 0 0 path

/-- A register write with no effect beyond its access types (R9, R15). -/
def State.regWrite (s : State) (path addr : Nat) (r : RegRow) (sc i v : Nat) : State :=
  if r.isHi && r.isRw then s.hiWrite path r sc i v
  else if r.isLo && r.isRw then s.loWrite path v
  else s.plainWrite path addr r sc i v

/-- The clock domain and die of the island that holds a register (R68; log entry 10): TS_ on CK_TS, TSU_ on the
timestamp clock, ETH_ on the transmit clock, its wake registers on CK_AUX and its NC-SI registers on CK_NCSI. All others
are handshake logic. -/
def islandOf (r : RegRow) (sc : Nat) : Option (Nat × Nat) :=
  match r.slots with
  | [] => none
  | t :: _ =>
    let k := t.f.ctorIdx
    if within k Field.TS_CTRL_servo_en.ctorIdx (Field.TS_AMBER_FETCH.ctorIdx + 1 - Field.TS_CTRL_servo_en.ctorIdx) then some (2, 1)
    else if within k Field.TSU_PORT_CAL_rx_board.ctorIdx (Field.TSU_PTM_DELAY.ctorIdx + 1 - Field.TSU_PORT_CAL_rx_board.ctorIdx) then some (9 + sc, 2 + sc)
    else if within k Field.TS_PPS_CFG_enable.ctorIdx (Field.TS_PPS_DELAY_squelched.ctorIdx + 1 - Field.TS_PPS_CFG_enable.ctorIdx) then some (2, 1)
    else if within k Field.ETH_MODE_mode.ctorIdx (Field.ETH_STAT_HALF.ctorIdx + 1 - Field.ETH_MODE_mode.ctorIdx) then some (3 + sc, 2 + sc)
    else if within k Field.ETH_WAKE_CFG_wake_en.ctorIdx (Field.ETH_WAKE_PAT_mask.ctorIdx + 1 - Field.ETH_WAKE_CFG_wake_en.ctorIdx) then some (15, 2 + sc)
    else if within k Field.ETH_NCSI_CFG_enable.ctorIdx (Field.ETH_NCSI_STAT_ncsi_drops.ctorIdx + 1 - Field.ETH_NCSI_CFG_enable.ctorIdx) then some (16, 2)
    else none

/-- Whether the clock of the register's island is present, or it has none (R61, R70). -/
def State.clockOk (s : State) (r : RegRow) (sc : Nat) : Bool :=
  match islandOf r sc with
  | none => true
  | some (k, d) => s.getb .XD_CLK_DIE_PRESENT_present k 0 d

/-- The clock domain and die of a memory window that needs a clock: embedded flash and the HBM stacks (Table CLK-3, R529). -/
def memClk (a : Nat) : Option (Nat × Nat) :=
  if within a 0x20000000 0x1000000 then some (13, 0)
  else if within (a % 2 ^ 44) 0x1000000000 0x600000000 then some (if a / 2 ^ 44 = 5 then (11, 5) else (12, 6))
  else none

/-- Whether the clock of a memory window is present, or it has none. -/
def State.memOk (s : State) (a : Nat) : Bool :=
  match memClk a with
  | none => true
  | some (k, d) => s.getb .XD_CLK_DIE_PRESENT_present k 0 d

/-- An access whose island has no clock waits for it, in the order of issue, with the instant at which it began (R68, R70): kind 1 a read,
2 a write, 3 and 4 a host read of 4 and of 8 bytes, 5 + 8n a host read of n bytes of memory, 6 + 8n a host write of them. -/
def State.hold (s : State) (path addr kind v : Nat) : State :=
  s.lset .busHeld (s.lget .busHeld 0 path ++ [addr, kind, v, s.now]) 0 path

/-- An access to an unmapped address is logged with its requester and address (R41). -/
def State.unmapped (s : State) (path addr : Nat) : State := s.report1 (s.pathErr 0x03 path addr)

end Sys2Proof.Machine
end

