-- ==== Sys2Proof/Machine/TableOps.lean ====
section
/-! DEFINITION. Shared operations of exact-match tables (spec file 07): layouts, instances, placement of keys, insertion with
displacement, learning events. A table has at most two instances, numbered table × 2 + 0 or 1 (R168); each keeps its live and
its shadow storage in two halves (R227). -/

namespace Sys2Proof.Machine

/-- Layout of table instance `ti`. -/
def State.lay (s : State) (ti : Nat) : List Nat := s.lget .tblLay 0 ti

/-- kind of a layout (Table EXM-1). -/
def layKind (l : List Nat) : Nat := l.getD 0 3
/-- Whether a layout is an exact-match one. -/
def layExact (l : List Nat) : Bool := decide (layKind l < 2)
/-- placement: 1 REPLICATED. -/
def layRepl (l : List Nat) : Bool := decide (l.getD 1 0 = 1)
/-- region_set. -/
def laySet (l : List Nat) : Nat := l.getD 2 0
/-- A flag: 0 learn, 1 touch_on_hit, 2 age_notify, 3 learn_notify, 4 flap_freeze. -/
def layFlag (l : List Nat) (k : Nat) : Bool := (l.getD 3 0).testBit k
/-- Bytes of an entry (R213). -/
def layEntry (l : List Nat) : Nat := if l.getD 4 0 = 0 then 16 else 32
/-- key_bytes. -/
def layKey (l : List Nat) : Nat := l.getD 5 0
/-- Bytes of a value (R213). -/
def layVal (l : List Nat) : Nat := layEntry l - 4 - layKey l
/-- tenant_off. -/
def layTen (l : List Nat) : Nat := l.getD 6 0xFF
/-- hbm_stacks. -/
def layStacks (l : List Nat) : Nat := l.getD 7 0
/-- log2_buckets. -/
def layLog2 (l : List Nat) : Nat := l.getD 8 0
/-- age_code. -/
def layAge (l : List Nat) : Nat := l.getD 9 0xFF
/-- max_age. -/
def layMaxAge (l : List Nat) : Nat := leNat (slice l 10 2)
/-- damp_us. -/
def layDamp (l : List Nat) : Nat := leNat (slice l 12 2)
/-- flap_threshold. -/
def layFlap (l : List Nat) : Nat := l.getD 14 0
/-- seed_shard. -/
def layShard (l : List Nat) : Nat := leNat (slice l 24 4)

/-- Instance that context `c` of region `n` uses of table `t`, if any (R162). -/
def State.tblInst (s : State) (n c t : Nat) : Option Nat :=
  let k := s.get .TBL_inst n (c * 1024 + t)
  if k = 0 then none else some (2 * t + (k - 1))

/-- Instance of table `t` that commands act on: that of the running context of the lowest region that has the table (R169). -/
def State.liveTi (s : State) (t : Nat) : Option Nat :=
  (List.range 8).findSome? (fun n => s.tblInst n (s.get .STR_REGION_STATE_epoch 0 n) t)

/-- Whether a packet is one of the new image while its region changes: its epoch is the new one of a region that is LOADED, in
DRAIN_FWD, SWAPPED or in DRAIN_BACK (R161, Table STRC-11). -/
def State.pktNew (s : State) (h : Nat) : Bool :=
  let n := s.get .PKT_region 0 h
  let cur := decide (s.pktEpoch h = s.get .STR_REGION_STATE_epoch 0 n)
  match s.get .STR_REGION_STATE_state 0 n with
  | 2 => cur
  | 3 => cur
  | 1 => !cur
  | 4 => !cur
  | _ => false

/-- Context of region `n` that holds the new image (`new`) or the old one; the running one of a region that does not change. -/
def State.sideCtx (s : State) (n : Nat) (new : Bool) : Nat :=
  let e := s.get .STR_REGION_STATE_epoch 0 n
  match s.get .STR_REGION_STATE_state 0 n with
  | 2 => if new then e else 1 - e
  | 3 => if new then e else 1 - e
  | 1 => if new then 1 - e else e
  | 4 => if new then 1 - e else e
  | _ => e

/-- Instance of table `t` in the image of a packet: in its region's context of its epoch, else as the lowest region that holds the table
has it in that image; the live one for a packet of a region that does not change (R162, R168). -/
def State.pktTi (s : State) (h t : Nat) : Option Nat :=
  match s.tblInst (s.get .PKT_region 0 h) (s.pktEpoch h) t with
  | some ti => some ti
  | none =>
    if s.get .STR_REGION_STATE_state 0 (s.get .PKT_region 0 h) = 0 then s.liveTi t
    else (List.range 8).findSome? (fun n => s.tblInst n (s.sideCtx n (s.pktNew h)) t)

/-- Number of the live storage of an instance. -/
def State.emLive (s : State) (ti : Nat) : Nat := 2 * ti + s.get .EXI_half 0 ti
/-- Number of the shadow storage of an instance. -/
def State.emShadow (s : State) (ti : Nat) : Nat := 2 * ti + (1 - s.get .EXI_half 0 ti)

/-- Hash of a key's bytes (R216). -/
def emHash (seed kb key : Nat) : Nat := crc32c seed (leBytes kb key)

/-- Places that hold a table: regions, or 8 + stack (R217). -/
def layPlaces (l : List Nat) : List Nat :=
  if layKind l = 1 then (bitList 2 (layStacks l)).map (8 + ·) else bitList 8 (laySet l)

/-- Places that hold a key (R217): one, or every region of a REPLICATED table, the home region first. -/
def keyPlaces (l : List Nat) (key : Nat) : List Nat :=
  let hs := emHash (layShard l) (layKey l) key
  let p := layPlaces l
  if layKind l = 1 then
    (if p.length = 2 then [8 + bitsOf hs 31 1] else p)
  else if layRepl l then p
  else [p.getD (hs * p.length / 2 ^ 32) 0]

/-- Whether a place can be reached: a region that is online, or a stack. -/
def State.placeUp (s : State) (pl : Nat) : Bool := decide (8 ≤ pl) || s.online pl

/-- The entry in a slot. -/
def State.exe (s : State) (pl px slot : Nat) : Nat := s.get .EXE pl (px * 2 ^ 28 + slot)
/-- The entry in a slot made `e`. -/
def State.exeSet (s : State) (pl px slot e : Nat) : State := s.set .EXE e pl (px * 2 ^ 28 + slot)
/-- Key of an entry (R213). -/
def exeKey (kb e : Nat) : Nat := bitsOf e 32 (8 * kb)
/-- An entry of header, key and value. -/
def exeMake (kb hdr key val : Nat) : Nat := hdr % 2 ^ 32 + key % 2 ^ (8 * kb) * 2 ^ 32 + val * 2 ^ (32 + 8 * kb)
/-- Value of an entry. -/
def exeVal (l : List Nat) (e : Nat) : Nat := bitsOf e (32 + 8 * layKey l) (8 * layVal l)

/-- The two buckets of a key in a storage (R216). -/
def State.emBuckets (s : State) (px kb key : Nat) : Nat × Nat :=
  let m := 2 ^ s.get .EXI_log2 0 px
  (emHash (s.get .EXI_seed0 0 px) kb key % m, emHash (s.get .EXI_seed1 0 px) kb key % m)

/-- Slots of a bucket. -/
def bucketSlots (b : Nat) : List Nat := [4 * b, 4 * b + 1, 4 * b + 2, 4 * b + 3]

/-- Slot that holds a key: the h0 bucket first (R218). -/
def State.emFind (s : State) (pl px kb key : Nat) : Option Nat :=
  let (b0, b1) := s.emBuckets px kb key
  (bucketSlots b0 ++ bucketSlots b1).find? (fun k =>
    let e := s.exe pl px k
    e.testBit 0 && decide (exeKey kb e = key))

/-- Lowest free slot of a bucket. -/
def State.emFree (s : State) (pl px b : Nat) : Option Nat :=
  (bucketSlots b).find? (fun k => !(s.exe pl px k).testBit 0)

/-- The other bucket of the entry in a slot. -/
def State.emOther (s : State) (pl px kb slot : Nat) : Nat :=
  let e := s.exe pl px slot
  let (b0, b1) := s.emBuckets px kb (exeKey kb e)
  if e.testBit 2 then b0 else b1

/-- Breadth-first search for a displacement path, newest slot first, at most `fuel` moves (R224). -/
def State.emBfs (s : State) (pl px kb : Nat) : Nat → List (List Nat) → Option (List Nat)
  | 0, _ => none
  | fuel + 1, paths =>
    match paths.findSome? (fun p => match p with
      | [] => none
      | x :: _ => (s.emFree pl px (s.emOther pl px kb x)).map (· :: p)) with
    | some r => some r
    | none => s.emBfs pl px kb fuel (paths.flatMap (fun p => match p with
      | [] => []
      | x :: _ => ((bucketSlots (s.emOther pl px kb x)).filter (fun y => !p.contains y)).map (· :: p)))

/-- A displacement path executed from its far end: each entry is written to its new slot, then cleared in its old one (R224). -/
def State.emShift (s : State) (pl px : Nat) : List Nat → State
  | f :: x :: r =>
    let e := s.exe pl px x
    ((s.exeSet pl px f (setBit e 2 (!e.testBit 2))).exeSet pl px x 0).emShift pl px (x :: r)
  | _ => s

/-- A key not present is placed in one storage of one place; none when there is no room (R224, R225). -/
def State.emPut (s : State) (pl px kb key e : Nat) : Option State :=
  let (b0, b1) := s.emBuckets px kb key
  match s.emFree pl px b0 with
  | some k => some (s.exeSet pl px k (setBit (setBit e 2 false) 0 true))
  | none =>
    match s.emFree pl px b1 with
    | some k => some (s.exeSet pl px k (setBit (setBit e 2 true) 0 true))
    | none =>
      match s.emBfs pl px kb 8 ((bucketSlots b0 ++ bucketSlots b1).map (fun k => [k])) with
      | none => none
      | some p =>
        let k := p.getLastD 0
        some ((s.emShift pl px p).exeSet pl px k (setBit (setBit e 2 (decide (k / 4 ≠ b0))) 0 true))

/-- A key is placed in one storage of a place, over its entry where the place holds it already: a replica keeps one entry of a key
(R216, R226). -/
def State.emPlace (s : State) (pl px kb key e : Nat) : Option State :=
  match s.emFind pl px kb key with
  | some k => some (s.exeSet pl px k (setBit (setBit e 2 ((s.exe pl px k).testBit 2)) 0 true))
  | none => s.emPut pl px kb key e

/-- A key that its home does not hold is placed in one storage of every place given, or in none (R226). -/
def State.emPutAll (s : State) (px kb key e : Nat) : List Nat → Option State
  | [] => some s
  | pl :: r =>
    match s.emPlace pl px kb key e with
    | none => none
    | some s' => s'.emPutAll px kb key e r

/-- Number of valid entries that a place holds in a storage and that satisfy `p`. -/
def State.emCount (s : State) (pl px : Nat) (p : Nat → Bool) : Nat :=
  ((s.keysOf .EXE).filter (fun k => decide (k.1 = pl ∧ k.2 / 2 ^ 28 = px) &&
    (s.get .EXE pl k.2).testBit 0 && p (s.get .EXE pl k.2))).length

/-- Places whose entries count once each (EXM_TABLE_STAT: replicas counted once). -/
def countPlaces (l : List Nat) : List Nat := if layKind l = 0 ∧ layRepl l then (layPlaces l).take 1 else layPlaces l

/-- Valid entries of an instance's live storage that satisfy `p`, replicas counted once. -/
def State.emTotal (s : State) (ti : Nat) (p : Nat → Bool) : Nat :=
  ((countPlaces (s.lay ti)).map (fun pl => s.emCount pl (s.emLive ti) p)).sum

/-- EXM_TABLE_STAT of a table follows its live instance. -/
def State.emStat (s : State) (t : Nat) : State :=
  match s.liveTi t with
  | none => (((s.set .EXM_TABLE_STAT_entries 0 0 t).set .EXM_TABLE_STAT_seed0 0 0 t).set .EXM_TABLE_STAT_seed1 0 0 t).set
      .EXM_TABLE_STAT_seed_shard 0 0 t
  | some ti =>
    (((s.set .EXM_TABLE_STAT_entries (s.emTotal ti (fun _ => true)) 0 t).set .EXM_TABLE_STAT_seed0
      (s.get .EXI_seed0 0 (s.emLive ti)) 0 t).set .EXM_TABLE_STAT_seed1 (s.get .EXI_seed1 0 (s.emLive ti)) 0 t).set
      .EXM_TABLE_STAT_seed_shard (layShard (s.lay ti)) 0 t

/-- Every entry of a storage is gone, in the places of `p`. -/
def State.emClear (s : State) (px : Nat) (p : Nat → Bool) : State :=
  s.each ((s.keysOf .EXE).filter (fun k => decide (k.2 / 2 ^ 28 = px) && p k.1)) (fun k s => s.set .EXE 0 k.1 k.2)

/-- Damping records of an instance are dropped, in the places of `p`. -/
def State.dampClear (s : State) (ti : Nat) (p : Nat → Bool) : State :=
  s.each ((s.keysOf .DAMP_at).filter (fun k => decide (k.2 / 2 ^ 224 = ti) && p k.1)) (fun k s =>
    (s.set .DAMP_at 0 k.1 k.2).set .DAMP_cand 0 k.1 k.2)

/-- Tick count now of a table that ages; the spec gives a table without ageing no tick, and its age_stamp is a free value
(R222; log entry 24). -/
def State.emStamp (s : State) (l : List Nat) : Nat :=
  if layAge l < 32 then s.now / (2 ^ layAge l * msUnits) % 65536 else s.freeVal 16

/-- A free value is used up by a touch of a table without ageing. -/
def State.emStamped (s : State) (l : List Nat) : State := if layAge l < 32 then s else s.drew

/-- An event record of a table (Table EXM-9): posted to the queue of EXM_EVT_CFG, or counted in evt_drops (R237). -/
def State.exmEvent (s : State) (kind region t port prev moves key : Nat) : State :=
  let r := [kind, region] ++ leBytes 2 t ++ [port, prev, moves, 0] ++ leBytes 8 s.now ++ leBytes 28 key ++ List.replicate 20 0
  if s.get .EXM_EVT_CFG_enable = 0 then s.bump .EXM_EVT_STAT_evt_drops
  else
    match s.mailbox (region % 8) (s.get .EXM_EVT_CFG_queue) r with
    | (s, true) => s
    | (s, false) => s.bump .EXM_EVT_STAT_evt_drops

/-- Region that an event of a place names: the region itself, or for a stack the home region of the table. -/
def evtRegion (l : List Nat) (pl : Nat) : Nat := if pl < 8 then pl else (bitList 8 (laySet l)).headD 0

/-- An insertion failed for want of room: rehash_req is set and one REHASH_REQUEST posted (R225). -/
def State.rehashAsk (s : State) (t pl key : Nat) (l : List Nat) : State :=
  if s.get .EXM_TABLE_STAT_rehash_req 0 t = 1 then s
  else (s.set .EXM_TABLE_STAT_rehash_req 1 0 t).exmEvent 5 (evtRegion l pl) t 0 0 0 key

/-- Whether a key's tenant has used up its quota in a table (R469). -/
def State.quotaFull (s : State) (t ti key : Nat) : Bool :=
  let l := s.lay ti
  if layKey l ≤ layTen l then false
  else
    let ten := bitsOf key (8 * layTen l) 8
    let q := t * 256 + ten
    decide (s.get .QUOTA_set (s.get .STR_common_ctx) q = 1 ∧
      s.get .QUOTA_max (s.get .STR_common_ctx) q ≤ s.emTotal ti (fun e => decide (bitsOf e (32 + 8 * layTen l) 8 = ten)))

/-- A refused insertion is counted for its key's tenant (R469). -/
def State.quotaHit (s : State) (ti key : Nat) : State :=
  s.bump .TEN_STATE_quota_hits 0 (bitsOf key (8 * layTen (s.lay ti)) 8)

/-- A shadow that cannot hold a mirrored or copied entry is FAILED (R227, R228). -/
def State.shadowFail (s : State) (t : Nat) : State := s.set .EXM_TABLE_STAT_shadow 2 0 t

/-- An insertion is mirrored into an open shadow (R227). -/
def State.shadowPut (s : State) (t ti key e : Nat) (pls : List Nat) : State :=
  if s.get .EXM_TABLE_STAT_shadow 0 t ≠ 1 then s
  else
    let kb := layKey (s.lay ti)
    match s.emPutAll (s.emShadow ti) kb key e pls with
    | some s => s
    | none => s.shadowFail t

/-- A key not present is inserted in every place that holds it and is up, and in an open shadow; none when there is no room
(R224, R226, R227). -/
def State.emInsert (s : State) (t ti key e : Nat) : Option State :=
  let l := s.lay ti
  let pls := (keyPlaces l key).filter (fun p => s.placeUp p)
  (s.emPutAll (s.emLive ti) (layKey l) key e pls).map (fun s =>
    (s.shadowPut t ti key e pls).set .EXM_TABLE_STAT_entries (s.get .EXM_TABLE_STAT_entries 0 t + 1) 0 t)

/-- One change of a key's entry in one storage of one place, where it is present; 0 removes it. -/
def State.emEdit1 (s : State) (pl px kb key : Nat) (f : Nat → Nat) : State :=
  match s.emFind pl px kb key with
  | some k => s.exeSet pl px k (f (s.exe pl px k))
  | none => s

/-- A change of a key's entry in every place and, while a shadow is open, in the shadow (R226, R227). -/
def State.emEdit (s : State) (t ti key : Nat) (f : Nat → Nat) : State :=
  let l := s.lay ti
  s.each ((keyPlaces l key).filter (fun p => s.placeUp p)) (fun pl s =>
    let s := s.emEdit1 pl (s.emLive ti) (layKey l) key f
    s.when (decide (s.get .EXM_TABLE_STAT_shadow 0 t = 1)) (fun s => s.emEdit1 pl (s.emShadow ti) (layKey l) key f))

/-- A key's entry is deleted, as DELETE does. -/
def State.emDelete (s : State) (t ti key : Nat) : State :=
  let n := s.get .EXM_TABLE_STAT_entries 0 t
  (s.emEdit t ti key (fun _ => 0)).set .EXM_TABLE_STAT_entries (n - 1) 0 t

/-- The entry of a key as its shard, stack or home region holds it. -/
def State.emEntry (s : State) (ti key : Nat) : Option Nat :=
  let l := s.lay ti
  match keyPlaces l key with
  | [] => none
  | pl :: _ => (s.emFind pl (s.emLive ti) (layKey l) key).map (fun k => s.exe pl (s.emLive ti) k)

/-- Bytes of table memory that an instance takes in each region that holds it, or in each stack. -/
def emBytes (l : List Nat) (log2 : Nat) : Nat := 2 ^ log2 * 4 * layEntry l

/-- A new instance is written from its TABLE_INIT section, entry by entry; none when an entry finds no room (R214, R215). -/
def State.initPut (s : State) (ti : Nat) : List (List Nat) → Option State
  | [] => some s
  | b :: r =>
    let l := s.lay ti
    let e := leNat b
    let hdr := (e % 2 ^ 32) &&& 0x1FA
    let key := exeKey (layKey l) e
    match s.emPutAll (s.emLive ti) (layKey l) key (exeMake (layKey l) hdr key (exeVal l e)) (keyPlaces l key) with
    | some s => s.initPut ti r
    | none => none

/-- Elements of a byte list in pieces of `w` bytes, at most `n`. -/
def pieces (w : Nat) : Nat → List Nat → List (List Nat)
  | 0, _ => []
  | n + 1, l => if l = [] then [] else l.take w :: pieces w n (l.drop w)

/-- Entries of a TABLE_INIT section of an exact-match table. -/
def initEntries (l init : List Nat) : List (List Nat) :=
  pieces (layEntry l) (leNat (slice init 0 4)) (init.drop 16)

/-- The storage of a new instance is made empty and its seeds are those of its layout. -/
def State.emFresh (s : State) (ti : Nat) : State :=
  let l := s.lay ti
  let px := s.emLive ti
  (((s.emClear px (fun _ => true)).set .EXI_seed0 (leNat (slice l 16 4)) 0 px).set .EXI_seed1 (leNat (slice l 20 4)) 0 px).set
    .EXI_log2 (layLog2 l) 0 px

/-- Age stamps of a new instance's entries are set at the flip (R214). -/
def State.emFlipStamp (s : State) (ti : Nat) : State :=
  let l := s.lay ti
  let px := s.emLive ti
  let st := s.emStamp l
  (s.each ((s.keysOf .EXE).filter (fun k => decide (k.2 / 2 ^ 28 = px))) (fun k s =>
    s.set .EXE (putBits (s.get .EXE k.1 k.2) 16 16 st) k.1 k.2)).emStamped l

/-- An open shadow of a table is discarded. -/
def State.shadowDrop (s : State) (t ti : Nat) : State :=
  ((s.emClear (s.emShadow ti) (fun _ => true)).set .EXM_TABLE_STAT_shadow 0 0 t).set .EXM_sh_end 0 0 t

/-- Bytes of table memory in use in region `n`: tables, shadows and trees (Table STRC-9). -/
def State.regionMem (s : State) (n : Nat) : Nat :=
  (((s.lkeysOf .tblLay).map (fun k =>
    let l := s.lay k.2
    if layKind l = 0 ∧ (laySet l).testBit n then
      emBytes l (s.get .EXI_log2 0 (s.emLive k.2)) + (if s.get .EXM_TABLE_STAT_shadow 0 (k.2 / 2) ≠ 0 ∧ s.liveTi (k.2 / 2) = some k.2 then
        emBytes l (s.get .EXI_log2 0 (s.emShadow k.2)) else 0)
    else 0)).sum) + (s.lget .ctxSec n 6).length + (s.lget .ctxSec n 22).length

/-- Bytes of the HBM table window of stack `k` in use (R218). -/
def State.stackMem (s : State) (k : Nat) : Nat :=
  ((s.lkeysOf .tblLay).map (fun p =>
    let l := s.lay p.2
    if layKind l = 1 ∧ (layStacks l).testBit k then
      128 * 2 ^ s.get .EXI_log2 0 (s.emLive p.2) + (if s.get .EXM_TABLE_STAT_shadow 0 (p.2 / 2) ≠ 0 ∧ s.liveTi (p.2 / 2) = some p.2 then
        128 * 2 ^ s.get .EXI_log2 0 (s.emShadow p.2) else 0)
    else 0)).sum

end Sys2Proof.Machine
end

