-- ==== Sys2Proof/Machine/TcamOps.lean ====
section
/-! DEFINITION. Shared operations of TCAM tables (spec file 08): entries, search with verification of the winner, quarantine,
replicas. A key of up to 640 bits is held with key bit 0 at bit 639. -/

namespace Sys2Proof.Machine

/-- max_width of a TCAM layout, as a code. -/
def tlWidth (l : List Nat) : Nat := l.getD 4 0
/-- n_segs. -/
def tlSegs (l : List Nat) : Nat := l.getD 5 0
/-- key_bits. -/
def tlBits (l : List Nat) : Nat := leNat (slice l 6 2)
/-- first_unit. -/
def tlFirst (l : List Nat) : Nat := leNat (slice l 8 2)
/-- n_units. -/
def tlUnits (l : List Nat) : Nat := leNat (slice l 10 2)
/-- Key-map segments: offset and width (Table ASOC-1). -/
def tlMap (l : List Nat) : List (Nat × Nat) :=
  (List.range (tlSegs l)).map (fun k => (leNat (slice l (32 + 4 * k) 2), l.getD (34 + 4 * k) 0))
/-- Units of a width code (Table ASOC-2). -/
def unitsOf (w : Nat) : Nat := 2 ^ w

/-- A key or mask as its record holds it, of `w` units, as a 640-bit number. -/
def tcKey (w : Nat) (bytes : List Nat) : Nat := beNat (bytes.take (20 * w)) * 2 ^ (640 - 160 * w)

/-- The bytes of a 640-bit key or mask. -/
def tcBytes (k : Nat) : List Nat := beBytes 80 k

/-- Units of region `n` at which an entry of table instance `ti` begins, rising. -/
def State.tcUnits (s : State) (n ti : Nat) : List Nat :=
  ((s.keysOf .TCE_inst).filter (fun k => decide (k.1 = n ∧ s.get .TCE_inst n k.2 = ti + 1))).map (·.2)

/-- Whether a match row's key agrees with a search key at every bit its mask sets (R243). -/
def State.tcAgrees (s : State) (n u key : Nat) : Bool :=
  decide ((key ^^^ s.get .TCE_key n u) &&& s.get .TCE_mask n u = 0)

/-- Entries that match a search key: valid, not quarantined, and either their key agrees, unless their match row fails to say so (`lost`,
R249), or their match row wrongly says so (`bad`, R247). -/
def State.tcMatches (s : State) (n ti key : Nat) (bad lost : List Nat) : List Nat :=
  (s.tcUnits n ti).filter (fun u =>
    decide (s.get .TCE_quar n u = 0) && ((s.tcAgrees n u key && !lost.contains u) || bad.contains u))

/-- The lowest in (priority, unit) order (R243). -/
def State.tcBest (s : State) (n : Nat) : List Nat → Option Nat
  | [] => none
  | u :: r =>
    match s.tcBest n r with
    | none => some u
    | some v =>
      if s.get .TCE_prio n u < s.get .TCE_prio n v ∨ (s.get .TCE_prio n u = s.get .TCE_prio n v ∧ u < v) then some u else some v

/-- An entry is quarantined, logged and reported (R247). -/
def State.tcQuarantine (s : State) (n u : Nat) : State :=
  let t := (s.get .TCE_inst n u - 1) / 2
  let s := (s.set .TCE_quar 1 n u).bump .TCM_REGION_STAT_quarantines n
  let s := (((s.set .TCM_QUAR_LOG_unit u n).set .TCM_QUAR_LOG_table t n).set .TCM_QUAR_LOG_stuck 0 n).set .TCM_QUAR_LOG_logged 1 n
  s.report { src := 0x0B, cls := .corrected, die := 4 + n / 2, region := n }

/-- What a search ends with. -/
structure TcHit where
  /-- The winner's unit, if any. -/
  unit : Option Nat
  multi : Bool
  reresolved : Bool
  failed : Bool

/-- A search with verification among the entries of `p`: a winner whose copy does not agree is quarantined and the search
resolved again, at most `fuel` times; the next mismatch is a miss (R247). -/
def State.tcSearch (s : State) (p : State → Nat → Bool) (n ti key ten : Nat) (bad lost : List Nat) (re : Bool) : Nat → State × TcHit
  | 0 =>
    let m := s.tcMatches n ti key bad lost
    match s.tcBest n (m.filter (p s)) with
    | none => (s, ⟨none, false, re, false⟩)
    | some u =>
      if s.tcAgrees n u key then (s, ⟨some u, decide (2 ≤ m.length), re, false⟩)
      else
        let s := (s.tcQuarantine n u).bump .TCM_REGION_STAT_verify_fail n
        (s.report { src := 0x0C, cls := .contained, die := 4 + n / 2, region := n, tenant := ten }, ⟨none, false, true, true⟩)
  | fuel + 1 =>
    let m := s.tcMatches n ti key bad lost
    match s.tcBest n (m.filter (p s)) with
    | none => (s, ⟨none, false, re, false⟩)
    | some u =>
      if s.tcAgrees n u key then (s, ⟨some u, decide (2 ≤ m.length), re, false⟩)
      else (s.tcQuarantine n u).tcSearch p n ti key ten bad lost true fuel

/-- stuck of TCM_REGION_STAT counts the stuck entries of region `n`, stopping at 255 (R248). -/
def State.tcStuckStat (s : State) (n : Nat) : State :=
  s.set .TCM_REGION_STAT_stuck (min 255 ((s.keysOf .TCE_stuck).filter (fun k => decide (k.1 = n))).length) n

/-- Units that entry `u` of region `n` occupies. -/
def State.tcSpan (s : State) (n u : Nat) : Nat × Nat := (u, u + unitsOf (s.get .TCE_width n u))

/-- Whether units [u, u + w) hold any entry in region `n`. -/
def State.tcOccupied (s : State) (n u w : Nat) : Bool :=
  (s.keysOf .TCE_inst).any (fun k => decide (k.1 = n ∧ s.get .TCE_inst n k.2 ≠ 0 ∧ k.2 < u + w ∧
    u < k.2 + unitsOf (s.get .TCE_width n k.2)))

/-- An entry is put at unit `u` of region `n`. -/
def State.tcPut (s : State) (n ti u width prio res key mask : Nat) : State :=
  (((((((s.set .TCE_inst (ti + 1) n u).set .TCE_width width n u).set .TCE_prio prio n u).set .TCE_res res n u).set .TCE_key key n u).set
    .TCE_mask mask n u).set .TCE_quar 0 n u).set .TCE_stuck 0 n u |>.set .TCE_bad 0 n u

/-- The entry at unit `u` of region `n` is removed; a stuck one is no longer counted (R248). -/
def State.tcRemove (s : State) (n u : Nat) : State :=
  (((((((((s.set .TCE_inst 0 n u).set .TCE_width 0 n u).set .TCE_prio 0 n u).set .TCE_res 0 n u).set .TCE_key 0 n u).set
    .TCE_mask 0 n u).set .TCE_quar 0 n u).set .TCE_stuck 0 n u).set .TCE_bad 0 n u).tcStuckStat n

/-- Regions of an instance's region_set that are online, the home replica first (R253). -/
def State.tcRegions (s : State) (ti : Nat) : List Nat := (bitList 8 (laySet (s.lay ti))).filter (fun n => s.online n)

/-- Width code that bank `b` of region `n` joins its match lines for: the largest of the tables that touch it (R238). -/
def State.bankWidth (s : State) (n b : Nat) : Nat :=
  ((s.lkeysOf .tblLay).map (fun k =>
    let l := s.lay k.2
    if layKind l = 2 ∧ (laySet l).testBit n ∧ tlFirst l < (b + 1) * 4096 ∧ b * 4096 < tlFirst l + tlUnits l then tlWidth l + 1 else 0)).foldl max 0

/-- bank_width of every region follows the tables. -/
def State.bankStat (s : State) : State :=
  s.each (List.range 8) (fun n s => s.set .TCM_REGION_STAT_bank_width
    (s.bankWidth n 0 + 4 * s.bankWidth n 1 + 16 * s.bankWidth n 2 + 64 * s.bankWidth n 3) n)

/-- A TABLE_INIT record of a TCAM table and what follows it (Table ASOC-2). -/
def tcRecords : Nat → List Nat → List (List Nat)
  | 0, _ => []
  | n + 1, l =>
    if l = [] then []
    else
      let w := 16 + 40 * unitsOf (l.getD 4 0 % 4)
      l.take w :: tcRecords n (l.drop w)

/-- Every replica of a new instance is written from its TABLE_INIT section (R215). -/
def State.tcInit (s : State) (ti : Nat) : State :=
  let init := s.lget .tblInit 0 ti
  let recs := tcRecords (leNat (slice init 0 4)) (init.drop 16)
  s.each (bitList 8 (laySet (s.lay ti))) (fun n s => s.each recs (fun b s =>
    let w := unitsOf (b.getD 4 0 % 4)
    s.tcPut n ti (leNat (slice b 0 2) % 16384) (b.getD 4 0 % 4) (leNat (slice b 2 2)) (leNat (slice b 8 8)) (tcKey w (b.drop 16))
      (tcKey w (b.drop (16 + 20 * w)))))

/-- Every entry of an instance is gone. -/
def State.tcClear (s : State) (ti : Nat) (p : Nat → Bool) : State :=
  s.each ((s.keysOf .TCE_inst).filter (fun k => p k.1 && decide (s.get .TCE_inst k.1 k.2 = ti + 1))) (fun k s => s.tcRemove k.1 k.2)

/-- A new instance's contents are made what its TABLE_INIT section says; none when an exact-match entry finds no room (R214,
R215). -/
def State.instInit (s : State) (ti : Nat) : Option State :=
  if layExact (s.lay ti) then
    (s.emFresh ti).initPut ti (initEntries (s.lay ti) (s.lget .tblInit 0 ti))
  else some ((s.tcClear ti (fun _ => true)).tcInit ti)

/-- A table instance is freed: its entries, layout and initial contents are gone. -/
def State.instFree (s : State) (ti : Nat) : State :=
  let s := (((s.emClear (2 * ti) (fun _ => true)).emClear (2 * ti + 1) (fun _ => true)).tcClear ti (fun _ => true)).dampClear ti
    (fun _ => true)
  ((s.lset .tblLay [] 0 ti).lset .tblInit [] 0 ti).set .EXI_half 0 0 ti

end Sys2Proof.Machine
end

