-- ==== Sys2Proof/Machine/ImageCheck.lean ====
section
/-! DEFINITION. The checks of a structure image (spec files 05 to 08, 10, 18 and 20): manifest, container, sections. Each check
answers none when it passes and its command result and detail otherwise (Table STRC-10). -/

namespace Sys2Proof.Machine

/-- The first failure of a list of checks: (fails, result, detail). -/
def firstFail : List (Bool × Nat × Nat) → Option (Nat × Nat)
  | [] => none
  | (b, r, d) :: l => if b then some (r, d) else firstFail l

/-- SHA-384 of bytes (log entry 4). -/
def sha384 (l : List Nat) : List Nat := fixLen 48 (Config.crypto algSha384 [l])
/-- ML-DSA-87 signature. -/
def algMldsa : Nat := 3

/-- Whether every byte of a list is 0. -/
def allZero (l : List Nat) : Bool := l.all (fun b => decide (b = 0))

/-- Little-endian number of `n` bytes at offset `o`. -/
def leAt (l : List Nat) (o n : Nat) : Nat := leNat (slice l o n)

/-- Bytes that a manifest signs: 0 to 2,751 + 48 n_blocks (Table BOOT-6). -/
def manSigned (man : List Nat) : List Nat := man.take (2752 + 48 * leAt man 20 2)

/-- Whether block `b` of an image hashes to its block_hash. -/
def blockOk (man img : List Nat) (b : Nat) : Bool :=
  decide (sha384 (slice (img.take (leAt man 16 4)) (b * 65536) 65536) = slice man (2752 + 48 * b) 48)

/-- Checks 1 to 5 of Table BOOT-7 on a manifest: the order of the first that fails, 0 none. `space` is the partition's image space. -/
def State.manifestValid (s : State) (man : List Nat) (kind space : Nat) : Nat :=
  let len := leAt man 16 4
  let nb := leAt man 20 2
  let slot := man.getD 7 4
  let signed := manSigned man
  if leAt man 0 4 ≠ 0x464D5842 ∨ leAt man 4 2 ≠ 1 ∨ man.getD 6 0 ≠ kind ∨ space < len ∨ nb ≠ (len + 65535) / 65536 ∨
      leAt man 22 2 ≠ 0 ∨ !allZero (slice man 32 32) then 1
  else if 3 < slot ∨ s.get .BOOT_KEY_state 0 slot ≠ 1 ∨ sha384 (slice man 64 2688) ≠ s.lget .bootKeyHash 0 slot then 2
  else if !Config.verifies algEcdsa [slice man 64 96, signed, slice man (2752 + 48 * nb) 96] then 3
  else if !Config.verifies algMldsa [slice man 160 2592, signed, slice man (2848 + 48 * nb) 4627] then 4
  else if kind ≠ 3 ∧ leAt man 8 4 < s.get .BOOT_ARB_counter then 5
  else 0

/-- Table BOOT-7: the order of the first check that an image fails, and the block number for check 6; 0 when it is valid. -/
def State.imageValid (s : State) (man img : List Nat) (kind space : Nat) : Nat × Nat :=
  match s.manifestValid man kind space with
  | 0 =>
    match (List.range (leAt man 20 2)).find? (fun b => !blockOk man img b) with
    | some b => (6, b)
    | none => (0, 0)
  | x => (x, 0)

/-- A result of Table BOOT-7 as BOOT_IMAGE records it: checks 3 and 4 are both SIG. -/
def bootResult (order : Nat) : Nat := if order ≤ 3 then order else order - 1

/-- A section of an image. -/
structure Sec where
  ty : Nat
  inst : Nat
  reg : Nat
  digest : List Nat
  data : List Nat
deriving DecidableEq, Repr

/-- Directory entry `k` of a container (Table STRC-2). -/
def dirAt (img : List Nat) (k : Nat) : List Nat := slice img (128 + 64 * k) 64
/-- Sections of a container, in directory order. -/
def secsOf (img : List Nat) : List Sec :=
  (List.range (leAt img 14 2)).map (fun k =>
    let d := dirAt img k
    { ty := leAt d 0 2, inst := leAt d 2 2, reg := d.getD 4 0, digest := slice d 16 48,
      data := slice img (leAt d 8 4) (leAt d 12 4) })

/-- Whether a section type holds one section for each region (Table STRC-3). -/
def tyRegion (ty : Nat) : Bool := decide (ty = 1 ∨ ty = 2 ∨ ty = 3 ∨ ty = 6)
/-- Whether a section type is one per table. -/
def tyTable (ty : Nat) : Bool := decide (ty = 4 ∨ ty = 5)

/-- The section of a type, instance and region. -/
def secOf (l : List Sec) (ty inst reg : Nat) : Option Sec :=
  l.find? (fun x => decide (x.ty = ty ∧ x.inst = inst ∧ x.reg = reg))
/-- Bytes of a common section, empty where the image has none. -/
def secData (l : List Sec) (ty inst reg : Nat) : List Nat :=
  match secOf l ty inst reg with
  | some x => x.data
  | none => []

/-- content_digest of a container. -/
def imgDigest (img : List Nat) : List Nat := slice img 32 48
/-- version of a container. -/
def imgVersion (img : List Nat) : Nat := leAt img 8 4

/-- The content and section digests (R158): DIGEST_FAIL. -/
def digestCheck (img : List Nat) : Option (Nat × Nat) :=
  if sha384 (slice img 128 (leAt img 16 4 - 128)) ≠ imgDigest img then some (5, 0)
  else ((List.range (leAt img 14 2)).find? (fun k =>
    let d := dirAt img k
    decide (sha384 (slice img (leAt d 8 4) (leAt d 12 4)) ≠ slice d 16 48))).map (fun k => (5, k))

/-- Whether the directory entry `k` breaks R147 or R148. -/
def dirBad (img : List Nat) (k : Nat) : Bool :=
  let n := leAt img 14 2
  let d := dirAt img k
  let ty := leAt d 0 2
  let off := leAt d 8 4
  let len := leAt d 12 4
  let known := decide (1 ≤ ty ∧ ty ≤ 10)
  decide (off % 64 ≠ 0 ∨ off < 128 + 64 * n ∨ leAt img 16 4 < off + len ∨ 1 < d.getD 5 0 ∨ leAt d 6 2 ≠ 0) ||
  (!known && decide (d.getD 5 0 % 2 = 1)) ||
  (known && ((tyRegion ty && decide (7 < d.getD 4 0)) || (!tyRegion ty && decide (d.getD 4 0 ≠ 0xFF)) ||
    (tyTable ty && decide (1023 < leAt d 2 2)) || (!tyTable ty && decide (leAt d 2 2 ≠ 0)))) ||
  (List.range k).any (fun j =>
    let e := dirAt img j
    decide (off < leAt e 8 4 + leAt e 12 4 ∧ leAt e 8 4 < off + len) ||
    (known && decide (leAt e 0 2 = ty ∧ leAt e 2 2 = leAt d 2 2 ∧ e.getD 4 0 = d.getD 4 0)))

/-- The header and the directory (R146 to R148): FORMAT. -/
def headerCheck (img : List Nat) : Option (Nat × Nat) :=
  if leAt img 0 4 ≠ 0x52494F4A ∨ leAt img 4 2 ≠ 1 ∨ leAt img 6 2 ≠ 128 ∨ img.getD 13 0 ≠ 0 ∨ leAt img 14 2 = 0 ∨ 64 < leAt img 14 2 ∨
      0x2000000 < leAt img 16 4 ∨ !allZero (slice img 20 12) ∨ !allZero (slice img 80 48) then some (6, 0)
  else ((List.range (leAt img 14 2)).find? (fun k => dirBad img k)).map (fun k => (6, k))

/-- A field of a 128-bit instruction word (Table STRC-6). -/
def wOp (w : Nat) : Nat := bitsOf w 0 8
/-- a_off. -/
def wA (w : Nat) : Nat := bitsOf w 8 13
/-- b_off. -/
def wB (w : Nat) : Nat := bitsOf w 21 13
/-- d_off. -/
def wD (w : Nat) : Nat := bitsOf w 34 13
/-- Operand width. -/
def wWidth (w : Nat) : Nat := bitsOf w 47 6 + 1
/-- b_imm. -/
def wBimm (w : Nat) : Bool := w.testBit 53
/-- pred_en. -/
def wPredEn (w : Nat) : Bool := w.testBit 54
/-- pred_sel. -/
def wPred (w : Nat) : Nat := bitsOf w 55 4
/-- next. -/
def wNext (w : Nat) : Nat := bitsOf w 59 8
/-- imm. -/
def wImm (w : Nat) : Nat := bitsOf w 67 32
/-- ref. -/
def wRef (w : Nat) : Nat := bitsOf w 99 16
/-- res. -/
def wRes (w : Nat) : Nat := bitsOf w 115 4

/-- Whether an opcode is one of Table STRC-7. -/
def opKnown (op : Nat) : Bool := decide (op ≤ 0x0B ∨ (0x20 ≤ op ∧ op ≤ 0x23) ∨ (0x30 ≤ op ∧ op ≤ 0x34))

/-- Instruction word `k` of a cell record. -/
def cellWord (rec_ : List Nat) (k : Nat) : Nat := leAt rec_ (16 + 16 * k) 16
/-- Cell number of a record. -/
def recCell (rec_ : List Nat) : Nat := leAt rec_ 0 2
/-- n_words of a record. -/
def recWords (rec_ : List Nat) : Nat := leAt rec_ 2 2
/-- Cell records of a CELL_PROGRAM section (R149). -/
def cellRecs (d : List Nat) : List (List Nat) := pieces 272 (d.length / 272 + 1) d
/-- The record of a cell, if any. -/
def cellRec (d : List Nat) (cell : Nat) : Option (List Nat) := (cellRecs d).find? (fun r => decide (recCell r = cell))

/-- Whether a word breaks R152 or R153: an opcode not in the table, an offset beyond 5,119, a next that does not go forward, a
reserved bit. -/
def wordBad (n k w : Nat) : Bool :=
  !opKnown (wOp w) || decide (5119 < wA w ∨ 5119 < wB w ∨ 5119 < wD w) ||
  decide (wNext w ≠ 0xFF ∧ (wNext w ≤ k ∨ n ≤ wNext w)) || decide (bitsOf w 119 9 ≠ 0)

/-- The layout of a table in an image. -/
def layOf (l : List Sec) (t : Nat) : List Nat := secData l 4 t 0xFF

/-- Whether a table instruction of region `n` breaks R220 or R240. A LOOKUP_TCAM on a table that is no TCAM table is taken as
one whose region_set excludes the region. -/
def tableOpBad (l : List Sec) (n w : Nat) : Bool :=
  let t := layOf l (wRef w)
  if wOp w = 0x20 ∨ wOp w = 0x22 then
    wBimm w || !layExact t || decide (5120 < wA w + 8 * layKey t) || (decide (wOp w = 0x22) && decide (5120 < wB w + 8 * layVal t))
  else if wOp w = 0x21 then
    decide (layKind t ≠ 2) || !(laySet t).testBit n || decide (wWidth w + ((tlMap t).map (·.2)).sum ≠ tlBits t)
  else false

/-- A CELL_PROGRAM section of region `n` (R149, R152, R153, R220, R240). -/
def cellCheck (l : List Sec) (n : Nat) (d : List Nat) : Bool :=
  let rs := cellRecs d
  decide (d.length % 272 ≠ 0) || decide (((rs.map recCell).eraseDups).length ≠ rs.length) ||
  rs.any (fun r => decide (255 < recCell r ∨ recWords r = 0 ∨ 16 < recWords r) || !allZero (slice r 4 12) ||
    !allZero (r.drop (16 + 16 * recWords r)) ||
    (List.range (recWords r)).any (fun k => wordBad (recWords r) k (cellWord r k) || tableOpBad l n (cellWord r k)))

/-- A stage record (Table STRC-4). -/
def stKind (r : List Nat) : Nat := r.getD 0 0
/-- count. -/
def stCount (r : List Nat) : Nat := r.getD 1 0
/-- engine. -/
def stEngine (r : List Nat) : Nat := leAt r 2 2
/-- Cell number at place `k`. -/
def stCell (r : List Nat) (k : Nat) : Nat := leAt r (4 + 2 * k) 2
/-- Cells of a group. -/
def stCells (r : List Nat) : List Nat := (List.range (stCount r)).map (stCell r)

/-- The two pipelines of a CHAIN section (R150). -/
def chainOf (d : List Nat) : List (List Nat) × List (List Nat) :=
  let n0 := d.getD 0 0
  let r := d.drop (1 + 32 * n0)
  (pieces 32 n0 (d.drop 1), pieces 32 (r.getD 0 0) (r.drop 1))
/-- Stage records of a pipeline. -/
def chainPl (d : List Nat) (pl : Nat) : List (List Nat) := if pl = 0 then (chainOf d).1 else (chainOf d).2

/-- Whether a stage record breaks R150. -/
def stageBad (r : List Nat) : Bool :=
  decide (r.length ≠ 32) || !allZero (r.drop 20) ||
  (match stKind r with
   | 0 => decide (stCount r = 0 ∨ 8 < stCount r ∨ stEngine r ≠ 0) ||
      (List.range 8).any (fun k => if k < stCount r then decide (255 < stCell r k) else decide (stCell r k ≠ 0xFFFF))
   | 1 => decide (stCount r ≠ 0 ∨ 7 < stEngine r) || (List.range 8).any (fun k => decide (stCell r k ≠ 0xFFFF))
   | _ => true)

/-- A CHAIN section (R150). -/
def chainCheck (d : List Nat) : Bool :=
  let (a, b) := chainOf d
  decide (32 < d.getD 0 0 ∨ 32 < (d.drop (1 + 32 * d.getD 0 0)).getD 0 0 ∨ d.length ≠ 2 + 32 * (d.getD 0 0 + (d.drop (1 + 32 * d.getD 0 0)).getD 0 0)) ||
  (a ++ b).any stageBad

/-- Ranges that an instruction writes: offset and width (R151). -/
def wordWrites (w : Nat) : List (Nat × Nat) :=
  match wOp w with
  | 0x0B => [(wD w, 32)]
  | 0x20 => [(4096 + 512, 256)]
  | 0x21 => [(4096 + 768, 112)]
  | 0x23 => [(wD w, wWidth w)]
  | 0x32 => [(4096 + 988, 23)]
  | 0x33 => [(4096 + 976, 12)]
  | op => if 1 ≤ op ∧ op ≤ 8 then [(wD w, wWidth w)] else []

/-- Ranges that a cell's program writes. -/
def cellWrites (prog : List Nat) (cell : Nat) : List (Nat × Nat) :=
  match cellRec prog cell with
  | none => []
  | some r => (List.range (recWords r)).flatMap (fun k => wordWrites (cellWord r k))

/-- Whether two ranges overlap. -/
def overlap (a b : Nat × Nat) : Bool := decide (a.1 < b.1 + b.2 ∧ b.1 < a.1 + a.2)

/-- Whether a chain breaks R151: two cells of a group that write overlapping ranges, or a cell in more than one stage. -/
def groupBad (prog chain : List Nat) : Bool :=
  let st := ((chainOf chain).1 ++ (chainOf chain).2).filter (fun r => decide (stKind r = 0))
  let cells := st.flatMap stCells
  decide (cells.eraseDups.length ≠ cells.length) ||
  st.any (fun r => (List.range (stCount r)).any (fun i => (List.range i).any (fun j =>
    (cellWrites prog (stCell r i)).any (fun a => (cellWrites prog (stCell r j)).any (fun b => overlap a b)))))

/-- A parse node (Table PARS-3). -/
def pgNode (d : List Nat) (k : Nat) : List Nat := slice d (64 + 128 * k) 128
/-- Number of nodes. -/
def pgCount (d : List Nat) : Nat := leAt d 0 2
/-- Whether a next value names neither a node, ACCEPT nor REJECT. -/
def nextBad (n v : Nat) : Bool := decide (n ≤ v ∧ v ≠ 0xFFFF ∧ v ≠ 0xFFFE)
/-- Nodes that a node may go to. -/
def pgNexts (r : List Nat) : List Nat :=
  leAt r 18 2 :: (List.range (r.getD 17 0)).map (fun k => leAt r (32 + 12 * k + 8) 2)

/-- Whether a node can reach `t` in at most `fuel` transitions. -/
def pgReach (d : List Nat) (t : Nat) : Nat → List Nat → Bool
  | 0, _ => false
  | fuel + 1, l =>
    let m := ((l.flatMap (fun k => pgNexts (pgNode d k))).filter (fun v => decide (v < pgCount d))).eraseDups
    m.contains t || (if m = [] then false else pgReach d t fuel m)

/-- Whether a parse node breaks Tables PARS-3 and PARS-4 or R186. A phv_off above 511 with ext_len 0 is RESOURCE or FORMAT by what
phv_off + ext_len comes to (R186, `pgRes`). -/
def pgNodeBad (n : Nat) (r : List Nat) : Bool :=
  decide (r.getD 0 0 = 0 ∨ 127 < r.getD 0 0 ∨ 3 < r.getD 1 0 ∨ 3 < r.getD 2 0 ∨ 64 < r.getD 3 0 ∨ 32 < r.getD 16 0 ∨
    8 < r.getD 17 0) || !allZero (slice r 20 12) ||
  (decide ((r.getD 2 0) % 2 = 1) && decide (r.getD 8 0 = 0 ∨ 16 < r.getD 8 0)) ||
  !(decide (r.getD 9 0 = 1 ∨ r.getD 9 0 = 2 ∨ r.getD 9 0 = 4 ∨ r.getD 9 0 = 8)) ||
  (decide ((r.getD 2 0) % 2 = 1) && decide (512 < leAt r 6 2 + r.getD 8 0)) ||
  (decide (r.getD 16 0 ≠ 0) && decide (512 < leAt r 14 2 + r.getD 16 0)) ||
  decide (511 < leAt r 12 2 ∧ leAt r 12 2 + r.getD 3 0 ≤ 512) || (pgNexts r).any (nextBad n) ||
  (List.range (r.getD 17 0)).any (fun k => decide (leAt r (32 + 12 * k + 10) 2 ≠ 0))

/-- A PARSE_GRAPH section: FORMAT (R184, R186). -/
def pgCheck (d : List Nat) : Bool :=
  let n := pgCount d
  decide (n = 0 ∨ d.length ≠ 64 + 128 * n ∨ leAt d 2 2 ≠ 0) || !allZero (slice d 40 24) ||
  (List.range 18).any (fun k => nextBad n (leAt d (4 + 2 * k) 2)) ||
  (List.range n).any (fun k => pgNodeBad n (pgNode d k)) ||
  (List.range n).any (fun k => pgReach d k n [k])

/-- A PARSE_GRAPH section: RESOURCE (R186, Table STRC-9). -/
def pgRes (d : List Nat) : Bool :=
  decide (256 < pgCount d) || (List.range (pgCount d)).any (fun k => decide (512 < leAt (pgNode d k) 12 2 + (pgNode d k).getD 3 0))

/-- A tree node (Table PARS-8). -/
def treeNode (d : List Nat) (k : Nat) : List Nat := slice d (16 + 256 + 16 * k) 16
/-- Rule `k` of a TREES section (Table PARS-9). -/
def treeRule (d : List Nat) (k : Nat) : List Nat := slice d (16 + 256 + 16 * leAt d 4 4 + 64 * k) 64
/-- Root of a tree. -/
def treeRoot (d : List Nat) (t : Nat) : Nat := if d = [] then 0xFFFFFFFF else leAt d (16 + 4 * t) 4

/-- Whether a walk from `k` meets more internal nodes than `fuel` before its leaves. -/
def treeDeep (d : List Nat) : Nat → Nat → Bool
  | 0, k => decide ((treeNode d k).getD 0 0 = 0)
  | fuel + 1, k =>
    let r := treeNode d k
    if r.getD 0 0 = 0 then treeDeep d fuel (leAt r 8 4) || treeDeep d fuel (leAt r 12 4) else false

/-- A TREES section: FORMAT (R191). -/
def treeCheck (d : List Nat) : Bool :=
  let nn := leAt d 4 4
  let nr := leAt d 8 4
  decide (65536 < nr ∨ leAt d 12 4 ≠ 0 ∨ d.length ≠ 16 + 256 + 16 * nn + 64 * nr) ||
  (List.range 64).any (fun t => decide (treeRoot d t ≠ 0xFFFFFFFF ∧ nn ≤ treeRoot d t)) ||
  (List.range nn).any (fun k =>
    let r := treeNode d k
    match r.getD 0 0 with
    | 0 => decide (r.getD 1 0 = 0 ∨ 32 < r.getD 1 0 ∨ 5119 < leAt r 2 2 ∨ nn ≤ leAt r 8 4 ∨ nn ≤ leAt r 12 4)
    | 1 => decide (r.getD 1 0 ≤ 8 ∧ nr < leAt r 4 4 + r.getD 1 0)
    | _ => true) ||
  (List.range nr).any (fun k =>
    let r := treeRule d k
    decide (4 < r.getD 0 0) || !allZero (slice r 1 7) || (List.range (r.getD 0 0)).any (fun j =>
      let c := slice r (16 + 12 * j) 12
      decide (5119 < leAt c 0 2 ∨ c.getD 2 0 = 0 ∨ 32 < c.getD 2 0 ∨ 1 < c.getD 3 0)))

/-- A TREES section: RESOURCE (R191, Table STRC-9). -/
def treeRes (d : List Nat) : Bool :=
  decide (64 < leAt d 0 4) ||
  (List.range 64).any (fun t => decide (treeRoot d t ≠ 0xFFFFFFFF) && treeDeep d 24 (treeRoot d t)) ||
  (List.range (leAt d 4 4)).any (fun k => decide ((treeNode d k).getD 0 0 = 1 ∧ 8 < (treeNode d k).getD 1 0))

/-- Key record `k` of a STEERING section (Table PARS-1). -/
def keyRec (d : List Nat) (k : Nat) : List Nat := slice d (1168 + 8 * k) 8
/-- Key of a key record: the VLAN ID in [11:0], the VNI in [23:0], none for NONE (Table PARS-1). -/
def keyVal (r : List Nat) : Nat :=
  match r.getD 1 0 with
  | 0 => 0
  | 1 => leAt r 4 4 % 4096
  | _ => leAt r 4 4 % 2 ^ 24
/-- Port, kind and key of a key record. -/
def keyId (r : List Nat) : Nat × Nat × Nat := (r.getD 0 0, r.getD 1 0, keyVal r)
/-- A STEERING section (R183, Table PARS-2). -/
def steerCheck (d : List Nat) : Bool :=
  let n := leAt d 0 4
  let ks := (List.range n).map (fun k => keyRec d k)
  decide (16384 < n) || decide (d.length ≠ 1168 + 8 * n) || !allZero (slice d 8 8) ||
  (List.range 16).any (fun p => decide (3 < d.getD (16 + 8 * p + 1) 0 ∨ 31 < d.getD (16 + 8 * p + 2) 0) || !allZero (slice d (16 + 8 * p + 3) 5)) ||
  (List.range 256).any (fun t => decide (1 < d.getD (144 + 4 * t) 0) || !allZero (slice d (145 + 4 * t) 3)) ||
  ks.any (fun r => decide (15 < r.getD 0 0 ∨ 3 < r.getD 1 0 ∨ r.getD 3 0 ≠ 0)) ||
  decide (((ks.map keyId).eraseDups).length ≠ n)

/-- One part of a SCHED_TOPOLOGY section: counts, offset of its tenant records (Table SCHD-1). -/
def topoPart (d : List Nat) (i : Nat) : Nat × Nat × Nat :=
  let n0 := leAt d 0 2
  let q0 := leAt d 2 2
  if i = 0 then (n0, q0, 16) else (leAt d 4 2, leAt d 6 2, 16 + 4 * n0 + 4 * q0)
/-- Port and tenant of tenant record `k`. -/
def topoTn (d : List Nat) (i k : Nat) : Nat × Nat :=
  let (_, _, o) := topoPart d i
  (d.getD (o + 4 * k) 0, d.getD (o + 4 * k + 1) 0)
/-- Class node of queue record `q`. -/
def topoQ (d : List Nat) (i q : Nat) : Nat :=
  let (n, _, o) := topoPart d i
  leAt d (o + 4 * n + 4 * q) 2
/-- A SCHED_TOPOLOGY section (R294). -/
def topoCheck (d : List Nat) : Bool :=
  let (n0, q0, _) := topoPart d 0
  let (n1, q1, _) := topoPart d 1
  decide (1024 < n0 ∨ 1024 < n1 ∨ 16384 < q0 ∨ 16384 < q1) || decide (d.length ≠ 16 + 4 * (n0 + q0 + n1 + q1)) || !allZero (slice d 8 8) ||
  [0, 1].any (fun i =>
    let (n, q, o) := topoPart d i
    let tn := (List.range n).map (topoTn d i)
    decide (tn.eraseDups.length ≠ n) || tn.any (fun x => decide (7 < x.1)) ||
    (List.range n).any (fun k => decide (leAt d (o + 4 * k + 2) 2 ≠ 0)) ||
    (List.range q).any (fun k => decide (8 * n ≤ topoQ d i k) || decide (leAt d (o + 4 * n + 4 * k + 2) 2 ≠ 0)))

/-- A PLACEMENT section (R467). -/
def placeCheck (d : List Nat) : Bool :=
  decide (d.length ≠ 1040 ∨ 3 < d.getD 0 0 ∨ d.getD 16 0 = 0) || !allZero (slice d 1 15) ||
  (List.range 256).any (fun t => !allZero (slice d (17 + 4 * t) 3))

/-- Quota records of a TENANT_MAP section: table, tenant, max_entries (R468). -/
def quotaRecs (d : List Nat) : List (Nat × Nat × Nat) :=
  (List.range (leAt d 0 4)).map (fun k => let r := slice d (16 + 8 * k) 8; (leAt r 0 2, r.getD 2 0, leAt r 4 4))
/-- A TENANT_MAP section (R468). -/
def tmapCheck (l : List Sec) (d : List Nat) : Bool :=
  let n := leAt d 0 4
  let q := quotaRecs d
  decide (65536 < n ∨ d.length ≠ 16 + 8 * n) || !allZero (slice d 4 12) ||
  (List.range n).any (fun k => decide (d.getD (16 + 8 * k + 3) 0 ≠ 0)) ||
  decide (((q.map (fun x => (x.1, x.2.1))).eraseDups).length ≠ n) ||
  q.any (fun x => decide (1023 < x.1) || !layExact (layOf l x.1) || decide (layTen (layOf l x.1) = 0xFF))

/-- A TABLE_LAYOUT section (R212, R239). -/
def layCheck (d : List Nat) : Bool :=
  let k := layKind d
  if laySet d = 0 then true
  else if k = 2 then
    decide (d.getD 1 0 ≠ 1 ∨ d.getD 3 0 ≠ 0 ∨ 2 < tlWidth d ∨ 15 < tlSegs d ∨ tlBits d = 0 ∨ 160 * unitsOf (tlWidth d) < tlBits d ∨
      tlFirst d % 4 ≠ 0 ∨ tlUnits d % 4 ≠ 0 ∨ tlUnits d < 4 ∨ 16384 < tlFirst d + tlUnits d ∨ d.length ≠ 32 + 4 * tlSegs d) ||
    !allZero (slice d 12 20) ||
    (List.range (tlSegs d)).any (fun j => decide (5119 < leAt d (32 + 4 * j) 2 ∨ d.getD (34 + 4 * j) 0 = 0 ∨ 64 < d.getD (34 + 4 * j) 0 ∨
      d.getD (35 + 4 * j) 0 ≠ 0))
  else if k < 2 then
    decide (d.length ≠ 32 ∨ 31 < d.getD 3 0 ∨ 1 < d.getD 4 0 ∨ 1 < d.getD 1 0 ∨ layKey d = 0 ∨ layEntry d - 4 < layKey d ∨
      (layKey d ≤ layTen d ∧ layTen d ≠ 0xFF) ∨ layLog2 d < 4 ∨ (14 < layAge d ∧ layAge d ≠ 0xFF) ∨ layMaxAge d = 0 ∨ 32767 < layMaxAge d ∨
      layDamp d = 0 ∨ layFlap d = 0 ∨ 14 < layFlap d ∨ d.getD 15 0 ≠ 0 ∨ leAt d 16 4 = leAt d 20 4 ∨ leAt d 28 4 ≠ 0) ||
    (if k = 0 then decide (layStacks d ≠ 0 ∨ (if d.getD 4 0 = 0 then 18 else 17) < layLog2 d)
     else decide (d.getD 1 0 ≠ 0 ∨ d.getD 4 0 ≠ 1 ∨ layStacks d = 0 ∨ 3 < layStacks d ∨ 25 < layLog2 d))
  else true

/-- Whether two units ranges of TABLE_INIT records overlap, or a record breaks R241. -/
def tcInitBad (l init : List Nat) : Bool :=
  let recs := tcRecords (leNat (slice init 0 4)) (init.drop 16)
  let span := fun (b : List Nat) => (leAt b 0 2, unitsOf (b.getD 4 0 % 4))
  decide (recs.length ≠ leNat (slice init 0 4) ∨ init.length ≠ 16 + (recs.map (fun b => 16 + 40 * unitsOf (b.getD 4 0 % 4))).sum) ||
  recs.any (fun b =>
    let u := leAt b 0 2
    let w := unitsOf (b.getD 4 0 % 4)
    decide (2 < b.getD 4 0 ∨ tlWidth l < b.getD 4 0 ∨ u % w ≠ 0 ∨ u < tlFirst l ∨ tlFirst l + tlUnits l < u + w) || !allZero (slice b 5 3) ||
    decide (tcKey w (b.drop (16 + 20 * w)) % 2 ^ (640 - tlBits l) ≠ 0)) ||
  (List.range recs.length).any (fun i => (List.range i).any (fun j => overlap (span (recs.getD i [])) (span (recs.getD j []))))

/-- A TABLE_INIT section: FORMAT (R214, R241). -/
def initCheck (l : List Sec) (t : Nat) (d : List Nat) : Bool :=
  let lay := layOf l t
  if lay = [] then true
  else !allZero (slice d 4 12) ||
    (if layExact lay then
      let ks := (initEntries lay d).map (fun b => exeKey (layKey lay) (leNat b))
      decide (d.length ≠ 16 + layEntry lay * leNat (slice d 0 4)) || decide (ks.eraseDups.length ≠ ks.length)
    else tcInitBad lay d)

/-- A TABLE_INIT section that holds more entries of a tenant than its quota: RESOURCE (R468). -/
def initQuotaBad (l : List Sec) (t : Nat) (d : List Nat) : Bool :=
  let lay := layOf l t
  layExact lay && (quotaRecs (secData l 9 0 0xFF)).any (fun q => decide (q.1 = t) &&
    decide (q.2.2 < ((initEntries lay d).filter (fun b => decide (b.getD (4 + layTen lay) 0 = q.2.1))).length))

/-- One section's format (R148 to R150, R183, R186, R191, R212, R214, R294, R467, R468). -/
def secBad (l : List Sec) (x : Sec) : Bool :=
  match x.ty with
  | 1 => pgCheck x.data
  | 2 => cellCheck l x.reg x.data
  | 3 => chainCheck x.data
  | 4 => layCheck x.data
  | 5 => initCheck l x.inst x.data
  | 6 => treeCheck x.data
  | 7 => steerCheck x.data
  | 8 => topoCheck x.data
  | 9 => tmapCheck l x.data
  | 10 => placeCheck x.data
  | _ => false

/-- Tables of an image. -/
def imgTables (l : List Sec) : List Nat := (l.filter (fun x => decide (x.ty = 4))).map (·.inst)

/-- Whether an image differs from another in a region: some section of the region's content differs (R148). -/
def regionDiffers (a b : List Sec) (n : Nat) : Bool :=
  let key := fun (x : Sec) => (x.ty, x.inst, x.digest)
  let own := fun (l : List Sec) => (l.filter (fun x => (tyRegion x.ty && decide (x.reg = n)) ||
    (tyTable x.ty && (laySet (layOf l x.inst)).testBit n))).map key
  (own a).any (fun k => !(own b).contains k) || (own b).any (fun k => !(own a).contains k)

/-- Regions that differ, as a mask (R158). -/
def changedMask (a b : List Sec) : Nat := (List.range 8).foldl (fun m n => if regionDiffers a b n then m + 2 ^ n else m) 0

/-- Digest of a section, empty where the image has none. -/
def secDigest (l : List Sec) (ty inst reg : Nat) : List Nat :=
  match secOf l ty inst reg with
  | some x => x.digest
  | none => []

/-- Whether table `t` is rebuilt from image `a` to image `b`: it is in `b` and its layout differs from `a`'s (R168). -/
def rebuilt (a b : List Sec) (t : Nat) : Bool :=
  decide (secDigest b 4 t 0xFF ≠ [] ∧ secDigest a 4 t 0xFF ≠ secDigest b 4 t 0xFF)

/-- Whether the old instance of table `t` is kept beside the new image: it is in `a`, and not carried over. -/
def replaced (a b : List Sec) (t : Nat) : Bool :=
  decide (secDigest a 4 t 0xFF ≠ [] ∧ secDigest a 4 t 0xFF ≠ secDigest b 4 t 0xFF)

/-- Layouts that count in the resources of region or stack: every one of the new image with the old instance of every
rebuilt one (Table STRC-9). -/
def bothLays (a b : List Sec) : List (List Nat) :=
  (imgTables b).map (layOf b) ++ ((imgTables a).filter (fun t => rebuilt a b t)).map (layOf a)

/-- The resources of Table STRC-9, and the overlaps of R151 and R240. -/
def resBad (a b : List Sec) : Bool :=
  let ls := bothLays a b
  (List.range 8).any (fun n =>
    let mem := ((ls.filter (fun l => decide (layKind l = 0) && (laySet l).testBit n)).map (fun l => emBytes l (layLog2 l))).sum +
      (secData b 6 0 n).length
    let tc := ls.filter (fun l => decide (layKind l = 2) && (laySet l).testBit n)
    decide (16 * 2 ^ 20 < mem) || groupBad (secData b 2 0 n) (secData b 3 0 n) || pgRes (secData b 1 0 n) || treeRes (secData b 6 0 n) ||
    (List.range tc.length).any (fun i => (List.range i).any (fun j =>
      overlap (tlFirst (tc.getD i []), tlUnits (tc.getD i [])) (tlFirst (tc.getD j []), tlUnits (tc.getD j []))))) ||
  [0, 1].any (fun k => decide (2 ^ 32 < ((ls.filter (fun l => decide (layKind l = 1) && (layStacks l).testBit k)).map (fun l =>
    128 * 2 ^ layLog2 l)).sum)) ||
  b.any (fun x => decide (x.ty = 5) && initQuotaBad b x.inst x.data)

end Sys2Proof.Machine
end

