-- ==== Sys2Proof/Machine/ImageOps.lean ====
section
/-! DEFINITION. Shared operations of structure images (spec file 05): slots and their directory, verification of an image,
loading of contexts, tables and common sections. -/

namespace Sys2Proof.Machine

/-- Whether CK_XSPI is present (R529). -/
def State.flashOk (s : State) : Bool := s.getb .XD_CLK_DIE_PRESENT_present 14 0 0

/-- Partition of slot `k`: 0 ACTIVE, 1 PREVIOUS, 2 STAGED. -/
def State.slotPart (s : State) (k : Nat) : Nat := s.get .STR_SLOT_partition 0 k
/-- Container of slot `k`, empty where the slot is. -/
def State.slotImg (s : State) (k : Nat) : List Nat :=
  if s.get .STR_SLOT_empty 0 k = 1 then [] else s.lget .partBytes 0 (s.slotPart k)
/-- Sections of the image that the fabric runs: those of ACTIVE, none where no image runs (R507). -/
def State.activeSecs (s : State) : List Sec := if s.get .STR_loaded = 1 then secsOf (s.slotImg 0) else []

/-- STR_SLOT of slot `k` shows its partition's image. -/
def State.slotShow (s : State) (k : Nat) : State :=
  let img := s.slotImg k
  (s.set .STR_SLOT_version (imgVersion img) 0 k).set .STR_SLOT_digest_head (leAt (imgDigest img) 0 4) 0 k

/-- Whether a copy of the slot directory is good (R511). -/
def dirGood (c : List Nat) : Bool := decide (leAt c 0 4 = 0x52494442 ∧ leAt c 60 4 = crc32 (c.take 60) ∧ c.length = 64)

/-- The copy of the slot directory in use: the good one with the higher seq (R511). -/
def State.dirCopy (s : State) : Option Nat :=
  let a := s.lget .slotDir 0 0
  let b := s.lget .slotDir 0 1
  if dirGood a && dirGood b then some (if leAt a 4 4 < leAt b 4 4 then 1 else 0)
  else if dirGood a then some 0 else if dirGood b then some 1 else none

/-- The assignment in STR_SLOT is written to the other copy of the slot directory with seq + 1 (R156, R511). -/
def State.dirWrite (s : State) : State :=
  let (k, seq) := match s.dirCopy with
    | some c => (1 - c, leAt (s.lget .slotDir 0 c) 4 4 + 1)
    | none => (0, 0)
  let b := leBytes 4 0x52494442 ++ leBytes 4 seq ++ [s.slotPart 0, s.slotPart 1, s.slotPart 2,
    s.get .STR_SLOT_empty 0 1 + 2 * s.get .STR_SLOT_empty 0 2] ++ List.replicate 48 0
  s.lset .slotDir (b ++ leBytes 4 (crc32 b)) 0 k

/-- STR_SLOT takes the assignment of the slot directory, or ACTIVE = 0 alone where no copy is good (R511). -/
def State.dirRead (s : State) : State :=
  let (a, p, g, fl) := match s.dirCopy with
    | some c => let d := s.lget .slotDir 0 c; (d.getD 8 0, d.getD 9 0, d.getD 10 0, d.getD 11 0)
    | none => (0, 1, 2, 3)
  let s := ((s.set .STR_SLOT_partition a 0 0).set .STR_SLOT_partition p 0 1).set .STR_SLOT_partition g 0 2
  let s := ((s.set .STR_SLOT_empty 0 0 0).set .STR_SLOT_empty (fl % 2) 0 1).set .STR_SLOT_empty (fl / 2 % 2) 0 2
  ((s.slotShow 0).slotShow 1).slotShow 2

/-- Verification of the image in slot `k` (R158, R159, R513): manifest, digests, format, stepping, resources, version, and, for
STAGE, an unchanged topology. none when it passes. -/
def State.imageVerify (s : State) (k : Nat) (stage : Bool) : Option (Nat × Nat) :=
  let img := s.slotImg k
  let man := s.lget .partManifest 0 (s.slotPart k)
  let l := secsOf img
  let act := s.activeSecs
  if !s.flashOk then some (5, 0xFFFF)
  else match (if leAt man 16 4 ≠ leAt img 16 4 then (1, 0) else s.imageValid man img 3 0x2000000) with
    | (6, b) => some (5, b)
    | (0, _) =>
      match (match digestCheck img with
        | some r => some r
        | none => headerCheck img) with
      | some r => some r
      | none =>
        match (List.range l.length).find? (fun i => match l[i]? with | some x => secBad l x | none => false) with
        | some i => some (6, i)
        | none =>
          firstFail [(decide (img.getD 12 0 ≠ 0xB1), 7, 0), (resBad act l, 8, 0),
            (decide (imgVersion img < s.get .STR_MIN_VERSION_min_version), 9, 0),
            (decide (s.get .STR_loaded = 1 ∧ (imgVersion img = imgVersion (s.slotImg 0) ∨ imgDigest img = imgDigest (s.slotImg 0))), 9, 0),
            (stage && decide (secDigest l 8 0 0xFF ≠ secDigest act 8 0 0xFF), 0xA, 0)]
    | (_, _) => some (4, 0)

/-- Instance that table `t` has, or gets, under a new image: carried over, or the other one of its two (R167, R168). -/
def State.newTi (s : State) (act l : List Sec) (t : Nat) : Nat :=
  match s.liveTi t with
  | some ti => if rebuilt act l t then 2 * t + (1 - ti % 2) else ti
  | none => 2 * t

/-- Tables of an image that are rebuilt. -/
def rebuiltTables (act l : List Sec) : List Nat := (imgTables l).filter (fun t => rebuilt act l t)

/-- The new instances of rebuilt tables are made, one after the other; none when some TABLE_INIT finds no room (R168, R214). -/
def State.makeTables (s : State) (act l : List Sec) : List Nat → Option State
  | [] => some s
  | t :: r =>
    let ti := s.newTi act l t
    let s := ((s.instFree ti).lset .tblLay (layOf l t) 0 ti).lset .tblInit (secData l 5 t 0xFF) 0 ti
    match s.instInit ti with
    | some s => s.makeTables act l r
    | none => none

/-- Tables of an image that carry over (R167). -/
def carriedTables (act l : List Sec) : List Nat := (imgTables l).filter (fun t => !rebuilt act l t)

/-- Whether the TABLE_INIT entries of table `t`, which carries over, can all be placed in an empty instance of its layout with its seeds
(R214). The trial's result is discarded. -/
def State.initFits (s : State) (l : List Sec) (t : Nat) : Bool :=
  let lay := layOf l t
  let ti := 2 * t
  !layExact lay ||
    ((((s.lset .tblLay lay 0 ti).set .EXI_half 0 0 ti).emFresh ti).initPut ti (initEntries lay (secData l 5 t 0xFF))).isSome

/-- Context `c` of region `n` is loaded from an image's sections, with the instances of its tables (R158, R162). `ti` gives the
instance of each table. -/
def State.loadCtx (s : State) (l : List Sec) (n c : Nat) (ti : Nat → Nat) : State :=
  let s := s.each [1, 2, 3, 6] (fun ty s => s.lset .ctxSec (secData l ty 0 n) n (c * 16 + ty))
  let s := s.each ((s.keysOf .TBL_inst).filter (fun k => decide (k.1 = n ∧ k.2 / 1024 = c))) (fun k s => s.set .TBL_inst 0 n k.2)
  s.each (imgTables l) (fun t s => s.when ((laySet (layOf l t)).testBit n) (fun s =>
    s.set .TBL_inst (ti t % 2 + 1) n (c * 1024 + t)))

/-- A context is cleared. -/
def State.clearCtx (s : State) (n c : Nat) : State := s.loadCtx [] n c (fun _ => 0)

/-- The common sections are loaded as the IODs' context `c` (R164, R466, R468). -/
def State.loadCommon (s : State) (l : List Sec) (c : Nat) : State :=
  let s := s.each [7, 8, 9, 10] (fun ty s => s.lset .comSec (secData l ty 0 0xFF) 0 (c * 16 + ty))
  let pl := secData l 10 0 0xFF
  let s := s.each (List.range 256) (fun t s => s.set .PLC_mask (pl.getD (16 + 4 * t) 0) c t)
  let s := s.set .PLC_pf3 (pl.getD 0 0) c
  let s := s.each ((s.keysOf .QUOTA_set).filter (fun k => decide (k.1 = c))) (fun k s => (s.set .QUOTA_set 0 c k.2).set .QUOTA_max 0 c k.2)
  s.each (quotaRecs (secData l 9 0 0xFF)) (fun q s =>
    (s.set .QUOTA_set 1 c (q.1 * 256 + q.2.1)).set .QUOTA_max q.2.2 c (q.1 * 256 + q.2.1))

/-- Whether the common sections of two images differ (R164). -/
def commonDiffers (a b : List Sec) : Bool :=
  [7, 9, 10].any (fun ty => decide (secDigest a ty 0 0xFF ≠ secDigest b ty 0 0xFF))

/-- The scheduler topology of an image is taken up (R293, R294, R308): deficits 0, buckets full. -/
def State.loadTopo (s : State) (l : List Sec) : State :=
  let d := secData l 8 0 0xFF
  s.each [0, 1] (fun i s =>
    let (n, q, _) := topoPart d i
    let s := s.each ((s.keysOf .TOPO_tn_port).filter (fun k => decide (k.1 = i))) (fun k s => s.set .TOPO_tn_port 0 i k.2)
    let s := s.each ((s.keysOf .TOPO_tn_tenant).filter (fun k => decide (k.1 = i))) (fun k s => s.set .TOPO_tn_tenant 0 i k.2)
    let s := s.each ((s.keysOf .TOPO_q_class).filter (fun k => decide (k.1 = i))) (fun k s => s.set .TOPO_q_class 0 i k.2)
    let s := (s.set .TOPO_ntn n i).set .TOPO_nq q i
    let s := s.each (List.range n) (fun k s => (s.set .TOPO_tn_port (topoTn d i k).1 i k).set .TOPO_tn_tenant (topoTn d i k).2 i k)
    let s := s.each (List.range q) (fun k s => s.set .TOPO_q_class (topoQ d i k) i k)
    s.each (List.range 25600) (fun n s => ((s.bucketsFull i n).set .SCH_NODE_deficit 0 i n).set .NODE_fresh 1 i n))

/-- Every table instance that no context uses is freed. -/
def State.freeUnused (s : State) : State :=
  s.each (s.lkeysOf .tblLay) (fun k s =>
    let t := k.2 / 2
    if (s.keysOf .TBL_inst).any (fun x => decide (x.2 % 1024 = t ∧ s.get .TBL_inst x.1 x.2 = k.2 % 2 + 1)) then s else s.instFree k.2)

/-- Held fragments of region `n`: in order of arrival. -/
def State.heldFrags (s : State) (n : Nat) : List Nat :=
  ((s.keysOf .PKT_live).filter (fun k => decide (s.get .PKT_stage 0 k.2 = 2 ∧ s.get .PKT_region 0 k.2 = n))).map (·.2)

/-- Bytes in the hold buffer of region `n` (R204). -/
def State.heldBytes (s : State) (n : Nat) : Nat := ((s.heldFrags n).map (fun h => s.get .PKT_rxlen 0 h)).sum

/-- CLS_FRAG_STAT of region `n` follows its fragment table and hold buffer. -/
def State.fragStat (s : State) (n : Nat) : State :=
  (s.set .CLS_FRAG_STAT_entries ((s.keysOf .FRE_on).filter (fun k => decide (k.1 = n))).length n).set
    .CLS_FRAG_STAT_held_kib ((s.heldBytes n + 1023) / 1024) n

/-- A region is dropped from its epoch's packets: every packet of epoch `e` in region `n` with reason `r`; `f` counts. -/
def State.dropEpoch (s : State) (n e r : Nat) (f : State → State) : State :=
  (s.each ((s.keysOf .PKT_in_region).filter (fun k => decide (s.get .PKT_region 0 k.2 = n ∧ s.pktEpoch k.2 = e))) (fun k s =>
    f (s.dropPkt k.2 r))).fragStat n

/-- A packet dropped with IMAGE_RELOAD is counted, in units of 65,536 (R174). -/
def State.reloadDrop (s : State) : State :=
  if s.get .STR_reload_sub = 65535 then (s.set .STR_reload_sub 0).bump .STR_DROP_CNT_reload_drops
  else s.addw .STR_reload_sub 1

/-- A command ends with a result (Table STRC-10). -/
def State.strDone (s : State) (op result detail : Nat) : State :=
  (((s.set .STR_CMD_STATUS_busy 0).set .STR_CMD_STATUS_last_op op).set .STR_CMD_STATUS_result result).set .STR_CMD_STATUS_detail detail

/-- A command is in progress. -/
def State.strBusy (s : State) (op : Nat) : State := (s.strDone op 0 0).set .STR_CMD_STATUS_busy 1

/-- A structure command is taken when none is in progress; else it is rejected with BUSY and changes nothing, BUSY answered to
its sender (R157; log entry 25). -/
def State.strCmd (s : State) (f : State → State) : State :=
  if s.get .STR_CMD_STATUS_busy = 1 then s.answer [1] else f s

/-- Whether every region named by a mask is in a state of `p`. -/
def State.regionsIn (s : State) (mask : Nat) (p : Nat → Bool) : Bool :=
  (bitList 8 mask).all (fun n => p (s.get .STR_REGION_STATE_state 0 n))

/-- The commit watchdog stops (R171). -/
def State.wdogStop (s : State) : State :=
  ((s.set .STR_STATUS_wdog_running 0).set .STR_wdog_at 0).set .STR_wdog_wait 0

end Sys2Proof.Machine
end

