-- ==== Sys2Proof/Machine/ParseOps.lean ====
section
/-! DEFINITION. Shared operations of parsing and classification (spec file 06): steering of received frames, default actions,
fragments, and the passage of a packet from stage to stage. -/

namespace Sys2Proof.Machine

/-- A byte of a list, big-endian numbers in it. -/
def beAt (l : List Nat) (o n : Nat) : Nat := beNat (slice l o n)

/-- What the steering parser finds of an IP layer (R178). -/
structure IpInfo where
  sa : List Nat
  da : List Nat
  proto : Nat
  frag : Bool
  /-- Source and destination port bytes. -/
  ports : Option (List Nat × List Nat)
  /-- Bytes from the transport header on. -/
  rest : List Nat
deriving DecidableEq, Repr

/-- Source and destination ports of a recognised transport layer. -/
def ipPorts (proto : Nat) (frag : Bool) (b : List Nat) : Option (List Nat × List Nat) :=
  if !frag && decide ((proto = 6 ∧ 20 ≤ b.length) ∨ (proto = 17 ∧ 8 ≤ b.length)) then some (slice b 0 2, slice b 2 2) else none

/-- IPv6 upper layer past at most `n` extension headers: next header, fragment, bytes (R178). A fragment header ends it: its next
header is the protocol of every fragment (R181). -/
def ip6Ext : Nat → Nat → Bool → List Nat → Nat × Bool × List Nat
  | 0, nh, fr, b => (nh, fr, b)
  | n + 1, nh, fr, b =>
    if (nh = 0 ∨ nh = 43 ∨ nh = 60) ∧ 8 * (b.getD 1 0 + 1) ≤ b.length then
      ip6Ext n (b.getD 0 0) fr (b.drop (8 * (b.getD 1 0 + 1)))
    else if nh = 44 ∧ 8 ≤ b.length then (b.getD 0 0, true, b.drop 8)
    else (nh, fr, b)

/-- An IP layer of an EtherType (R178, R181). -/
def ipLayer (et : Nat) (b : List Nat) : Option IpInfo :=
  if et = 0x0800 ∧ 20 ≤ b.length ∧ b.getD 0 0 / 16 = 4 ∧ 5 ≤ b.getD 0 0 % 16 ∧ 4 * (b.getD 0 0 % 16) ≤ b.length then
    let fr := decide (beAt b 6 2 % 0x4000 ≠ 0)
    let r := b.drop (4 * (b.getD 0 0 % 16))
    some ⟨slice b 12 4, slice b 16 4, b.getD 9 0, fr, ipPorts (b.getD 9 0) fr r, r⟩
  else if et = 0x86DD ∧ 40 ≤ b.length ∧ b.getD 0 0 / 16 = 6 then
    let (nh, fr, r) := ip6Ext 2 (b.getD 6 0) false (b.drop 40)
    some ⟨slice b 8 16, slice b 24 16, nh, fr, ipPorts nh fr r, r⟩
  else none

/-- EtherType and payload past at most `n` VLAN tags, with the outermost VLAN ID (R178). -/
def vlanSkip : Nat → Option Nat → List Nat → Nat × Option Nat × List Nat
  | 0, v, b => (beAt b 0 2, v, b.drop 2)
  | n + 1, v, b =>
    if (beAt b 0 2 = 0x8100 ∨ beAt b 0 2 = 0x88A8) ∧ 6 ≤ b.length then
      vlanSkip n (match v with | some x => some x | none => some (beAt b 2 2 % 4096)) (b.drop 4)
    else (beAt b 0 2, v, b.drop 2)

/-- What the steering parser finds of a frame (R178). -/
structure SteerInfo where
  macs : List Nat
  vlan : Option Nat
  outer : Option IpInfo
  /-- Kind (2 VXLAN, 3 Geneve) and VNI of a recognised tunnel. -/
  vni : Option (Nat × Nat)
  inner : Option IpInfo
deriving DecidableEq, Repr

/-- The steering parser (R178). -/
def steerParse (f : List Nat) : SteerInfo :=
  let (et, v, b) := vlanSkip 2 none (f.drop 12)
  let o := ipLayer et b
  let none_ : SteerInfo := ⟨f.take 12, v, o, none, none⟩
  match o with
  | some i =>
    match i.ports with
    | some (_, dp) =>
      let t := i.rest.drop 8
      if i.proto = 17 ∧ beNat dp = 4789 ∧ 8 ≤ t.length then
        let e := t.drop 8
        ⟨f.take 12, v, o, some (2, beAt t 4 3), ipLayer (beAt e 12 2) (e.drop 14)⟩
      else if i.proto = 17 ∧ beNat dp = 6081 ∧ 8 + 4 * (t.getD 0 0 % 64) ≤ t.length then
        let e := t.drop (8 + 4 * (t.getD 0 0 % 64))
        let p := beAt t 2 2
        ⟨f.take 12, v, o, some (3, beAt t 4 3), if p = 0x6558 then ipLayer (beAt e 12 2) (e.drop 14) else ipLayer p e⟩
      else none_
    | none => none_
  | none => none_

/-- The STEERING section in force. -/
def State.steering (s : State) : List Nat := s.lget .comSec 0 (s.get .STR_common_ctx * 16 + 7)

/-- Key of a kind that a frame carries (R179). -/
def SteerInfo.key (i : SteerInfo) (kind : Nat) : Option Nat :=
  if kind = 1 then i.vlan
  else match i.vni with
    | some (k, v) => if k = kind then some v else none
    | none => none

/-- Tenant of a frame from device port `dp`, and whether a key lookup missed (R179). -/
def steerTenant (d : List Nat) (dp : Nat) (i : SteerInfo) : Nat × Bool :=
  let def_ := d.getD (16 + 8 * dp) 0
  let kind := d.getD (17 + 8 * dp) 0
  match (if kind = 0 then none else i.key kind) with
  | none => (def_, false)
  | some k =>
    match ((List.range (leAt d 0 4)).map (keyRec d)).find? (fun r =>
      decide (r.getD 0 0 = dp ∧ r.getD 1 0 = kind ∧ keyVal r = k)) with
    | some r => (r.getD 2 0, false)
    | none => (def_, true)

/-- Bytes that flow_hash covers, in the order of R180. -/
def hashBytes (sel : Nat) (i : SteerInfo) : List Nat :=
  match i.outer with
  | none => i.macs
  | some o =>
    let l := if sel.testBit 3 ∧ i.vni.isSome then i.inner else some o
    (match l with
     | none => []
     | some x => (if sel.testBit 0 then x.sa ++ x.da else []) ++ (if sel.testBit 1 then [x.proto] else []) ++
        (match (if sel.testBit 2 then x.ports else none) with | some (a, b) => a ++ b | none => [])) ++
    (match (if sel.testBit 4 then i.vni else none) with | some (_, v) => beBytes 3 v | none => [])

/-- flow_hash of a frame from device port `dp` (R180, R181). -/
def flowHash (d : List Nat) (dp : Nat) (i : SteerInfo) : Nat := crc32c (leAt d 4 4) (hashBytes (d.getD (18 + 8 * dp) 0) i)

/-- Region chosen among a candidate set (R182). -/
def steerRegion (mode hash : Nat) (cand : List Nat) : Option Nat :=
  if cand = [] then none else cand[if mode = 1 then 0 else hash % cand.length]?

/-- Serving region of a Sillage packet or, while roce_en is 1, of a RoCE packet: the redirection of the home region that its
conn_id or destination QPN names (R314, R316, R344). -/
def State.transportRegion (s : State) (i : SteerInfo) : Option Nat :=
  match i.outer with
  | none => none
  | some o =>
    match o.ports with
    | none => none
    | some (_, dp) =>
      let u := o.rest.drop 8
      if o.proto ≠ 17 then none
      else if s.get .SIL_CFG_udp_port ≠ 0 ∧ beNat dp = s.get .SIL_CFG_udp_port then
        some (s.get .SIL_REDIRECT_region 0 (u.getD 4 0 / 32))
      else if s.get .SIL_CFG_roce_en = 1 ∧ beNat dp = 4791 then some (s.get .SIL_REDIRECT_region 0 (u.getD 5 0 / 32))
      else none

/-- A received frame, taken as packet `h` at device port `dp`, is steered (R179 to R182, R316, R344). A FATAL tenant's frame and,
in DEVICE_FATAL, every frame is dropped (R475, R534). Which of its region's two pipelines it takes is a free value (log entry
27). -/
def State.steerPkt (s : State) (h dp : Nat) : State :=
  let d := s.steering
  let i := steerParse (s.lget .pktBytes 0 h)
  let (t, miss) := steerTenant d dp i
  let s := s.when miss (fun s => s.bump .CLS_STEER_CNT_key_miss (dp / 8))
  let s := (s.setMeta h 5 8 t).setMeta h 16 32 (flowHash d dp i)
  if s.fatal then s.dropPkt h reasonFATAL
  else if s.get .STR_cold = 1 then (s.dropPkt h reasonIMAGE_RELOAD).reloadDrop
  else if s.get .TEN_STATE_state 0 t = 2 then (s.bump .TEN_DROP_CNT_fatal_drops (dp / 8)).dropPkt h reasonTENANT_FATAL
  else match (match s.transportRegion i with
      | some n => if s.online n then some n else none
      | none => steerRegion (d.getD (144 + 4 * t) 0) (flowHash d dp i) (s.regionsOf t)) with
    | none => (s.bump .CLS_STEER_CNT_no_region (dp / 8)).dropPkt h reasonNO_REGION
    | some n =>
      (((((s.stampEpoch h n).enterRegion h n).addw .NRL_rxf 1 n).set .PKT_pl (s.freeVal 1) 0 h).drew).arbEnter t

/-- Quantum of tenant `t` at the arbiter of region `n`: that of the reconciler, or, where the tenant has none there, its base quantum (R36,
R312; log entry 158). -/
def State.arbQuantum (s : State) (n t : Nat) : Nat :=
  max 64 (if s.get .SCH_REGION_QUANTUM_quantum n t = 0 then min 16777216 (Config.baseQuantum n t) else s.get .SCH_REGION_QUANTUM_quantum n t)

/-- First packet of tenant `t` among those of `w`. -/
def State.arbHead (s : State) (w : List Nat) (t : Nat) : Nat := (w.find? (fun h => decide (s.pktTenant h = t))).getD 0

/-- One round over tenants with waiting work: each in turn adds its quantum to its deficit, until one's head packet fits (R36). -/
def State.arbRound (s : State) (n : Nat) (w : List Nat) : List Nat → State × Option Nat
  | [] => (s, none)
  | t :: r =>
    let s := s.addw .ARB_def (s.arbQuantum n t) n t
    if s.get .PKT_wire 0 (s.arbHead w t) ≤ s.get .ARB_def n t then (s, some t) else s.arbRound n w r

/-- Rounds until a head packet fits, at most `fuel`. -/
def State.arbRounds (s : State) (n : Nat) (w l : List Nat) : Nat → State × Option Nat
  | 0 => (s, none)
  | fuel + 1 =>
    match s.arbRound n w l with
    | (s, some t) => (s, some t)
    | (s, none) => s.arbRounds n w l fuel

/-- The choice of a region's arbiter among its tenants by deficit round robin: the packet that it grants next (R36). A tenant that is alone
is served at once. A turn lasts while the deficit covers the tenant's head packet. The spec gives no quanta for the two pipelines, which
therefore take the packets in the order of the grants (log entry 158). -/
def State.arbPick (s : State) (n : Nat) : State × Option Nat :=
  let w := s.arbWaits n
  let ts := sortUp ((w.map s.pktTenant).eraseDups)
  let cur := s.get .ARB_ptr n
  match ts with
  | [] => (s, none)
  | [t] => (s, some (s.arbHead w t))
  | _ =>
    if ts.contains cur && decide (s.get .PKT_wire 0 (s.arbHead w cur) ≤ s.get .ARB_def n cur) then (s, some (s.arbHead w cur))
    else match s.arbRounds n w (ts.filter (fun t => decide (cur < t)) ++ ts.filter (fun t => decide (t ≤ cur))) 1024 with
      | (s, some t) => (s.set .ARB_ptr t n, some (s.arbHead w t))
      | (s, none) => (s, none)

/-- Packet `h` is granted by the arbiter of region `n`: its bytes count for its tenant (R36, R311), and it leaves the arbiter. -/
def State.arbGrant (s : State) (n h : Nat) : State :=
  let t := s.pktTenant h
  let len := s.get .PKT_wire 0 h
  (((s.addw .SERVED len 0 t).set .ARB_def (s.get .ARB_def n t - len) n t).set .PKT_stage 1 0 h).arbLeave n t

/-- Sections of the context that a packet's epoch selects in its region (R162). -/
def State.pktSec (s : State) (h ty : Nat) : List Nat := s.lget .ctxSec (s.get .PKT_region 0 h) (s.pktEpoch h * 16 + ty)

/-- Stage records of a packet's pipeline. -/
def State.pktChain (s : State) (h : Nat) : List (List Nat) := chainPl (s.pktSec h 3) (s.get .PKT_pl 0 h)

/-- Cells of a stage record that have a program, by place in the record (R149). -/
def stTodo (prog r : List Nat) : Nat :=
  (List.range (stCount r)).foldl (fun m k => if (cellRec prog (stCell r k)).isSome then m + 2 ^ k else m) 0

/-- The packet stands at its next stage. A cell group without any program, and the lookup blocks, which serve the cells, pass it
on at once (R149, R150); the cells of a group all start from the vector and metadata as they are now (R151). -/
def State.settle (s : State) (h : Nat) : Nat → State
  | 0 => s
  | fuel + 1 =>
    let k := s.get .PKT_nstage 0 h
    match (s.pktChain h)[k]? with
    | none => s
    | some r =>
      if stKind r = 0 then
        let m := stTodo (s.pktSec h 2) r
        if m = 0 then (s.set .PKT_nstage (k + 1) 0 h).settle h fuel
        else ((s.set .PKT_todo m 0 h).set .PKT_phv0 (s.get .PKT_phv 0 h) 0 h).set .PKT_meta0 (s.get .PKT_meta 0 h) 0 h
      else if 1 ≤ stEngine r ∧ stEngine r ≤ 3 then (s.set .PKT_nstage (k + 1) 0 h).settle h fuel
      else s

/-- The packet is passed to the stage after its present one. -/
def State.stageNext (s : State) (h : Nat) : State := (s.addw .PKT_nstage 1 0 h).settle h 33

/-- The stage record at which a packet of region `n` stands, if it stands in its pipeline; one whose punt waits for a span enters no stage
(R187). -/
def State.atStage (s : State) (n h : Nat) : Option (List Nat) :=
  if s.get .PKT_live 0 h = 1 ∧ s.get .PKT_stage 0 h = 1 ∧ s.get .PKT_region 0 h = n ∧ s.get .PKT_in_region 0 h = 1 ∧
      s.get .PKT_puntr 0 h = 0 then
    (s.pktChain h)[s.get .PKT_nstage 0 h]?
  else none

/-- Whether a packet stands at an engine's stage (Table STRC-5). -/
def State.atEngine (s : State) (n h e : Nat) : Bool :=
  match s.atStage n h with
  | some r => decide (stKind r = 1 ∧ stEngine r = e)
  | none => false

/-- A field of the packet's view of its port's CLS_ registers (R199). -/
def State.pktCls (s : State) (h lo w : Nat) : Nat := bitsOf (s.get .PKT_cls 0 h) lo w

/-- Whether a packet came from an Ethernet port. -/
def State.fromPort (s : State) (h : Nat) : Bool := decide (s.pktInPort h < 16)

/-- fwd_dest of FORWARD_DEFAULT (R190, R296, CLS_PORT_DEST). -/
def State.defDest (s : State) (h : Nat) : Nat :=
  let ix := s.pktCls h 22 16
  if s.pktCls h 38 1 = 1 then ix + 2 ^ 18 else ix % 16 + 0x3FFF * 16 + s.pktCls h 39 3 * 2 ^ 19

/-- A packet leaves by its fwd_dest (R190, R296). -/
def State.forwardOut (s : State) (h : Nat) : State := (s.set .PKT_disp 1 0 h).forwardTo h (s.meta_ h 988 22)

/-- FORWARD_DEFAULT sets fwd_dest and fwd_set, and the packet leaves (R190). -/
def State.forwardDefault (s : State) (h : Nat) : State :=
  ((s.setMeta h 988 22 (s.defDest h)).setMeta h 1010 1 1).forwardOut h

/-- A region's punt bucket for a port brought forward to now (R196). -/
def State.puntTok (s : State) (n d : Nat) : Nat :=
  min (s.get .PUNTB_depth n d * 4000000000) (s.get .PUNTB_tok n d + s.get .PUNTB_rate n d * (s.now - s.get .PUNTB_at n d))

/-- A default punt: admitted when the bucket holds a packet, else the secondary action is taken and counted (R196). -/
def State.defaultPunt (s : State) (h reason : Nat) : State :=
  let n := s.get .PKT_region 0 h
  let d := s.pktInPort h
  let tok := s.puntTok n d
  if 4000000000 ≤ tok then
    (((s.set .PUNTB_tok (tok - 4000000000) n d).set .PUNTB_at s.now n d).bump .CLS_PUNT_CNT_punted n d).puntTo h (s.pktCls h 6 16) reason
  else
    let s := s.bump .CLS_PUNT_CNT_excess n d
    if s.pktCls h 4 1 = 1 then s.forwardDefault h else s.dropPkt h reasonPUNT_EXCESS

/-- The default action of an unmatched packet (`fail` false) or of a parse failure (R195, R198). -/
def State.defaultAct (s : State) (h : Nat) (fail : Bool) : State :=
  let n := s.get .PKT_region 0 h
  let reason := if fail then reasonPARSE_FAIL else reasonNO_MATCH
  if !s.fromPort h then s.dropPkt h reason
  else
    let s := if fail then s.bump .CLS_DEF_CNT_parsefail n (s.pktInPort h) else s.bump .CLS_DEF_CNT_nomatch n (s.pktInPort h)
    match s.pktCls h (if fail then 2 else 0) 2 with
    | 1 => s.forwardDefault h
    | 2 => s.defaultPunt h (if fail then 2 else 1)
    | _ => s.dropPkt h reason

/-- The packet sees its port's CLS_ registers as its region holds them (R199). -/
def State.clsSnap (s : State) (n h : Nat) : State :=
  let v := if s.fromPort h then s.get .CLSR_port n (s.pktInPort h) else 0
  (s.set .PKT_cls v 0 h).set .PKT_clsf (s.get .CLSR_frag n) 0 h

/-- Number of the digest of the fragment table among the primitives of `Config.crypto` (log entry 4). -/
def algFragDigest : Nat := 20

/-- Digest of a fragment's key (R202). -/
def State.fragDigest (s : State) (key : List Nat) : Nat :=
  leNat ((Config.crypto algFragDigest [leBytes 8 (s.get .FRAG_seed), key]).take 8) % 2 ^ 64

/-- A held fragment goes on: it follows the entry of its key, or is walked on outer fields where the epochs differ (R204,
R206). -/
def State.fragRelease (s : State) (n dig h : Nat) : State :=
  let s := s.set .PKT_stage 1 0 h
  if s.get .FRE_epoch n dig = s.pktEpoch h then
    (s.set .PKT_follow (2 ^ 17 + s.get .FRE_hit n dig * 2 ^ 16 + s.get .FRE_rule n dig) 0 h).set .FRE_at s.now n dig
  else (s.set .PKT_outer 1 0 h).bump .CLS_FRAG_CNT1_epoch_mismatch n

/-- A first fragment under FOLLOW_FIRST leaves its pipeline: its entry is recorded, and held fragments of the key released in
their order of arrival (R202, R204). -/
def State.fragRecord (s : State) (h : Nat) : State :=
  let n := s.get .PKT_region 0 h
  let dig := s.get .PKT_fragkey 0 h - 1
  if s.get .PKT_fragkey 0 h = 0 ∨ s.meta_ h 59 1 = 0 ∨ s.pktCls h 5 1 = 0 then s
  else if s.get .FRE_on n dig = 1 then s.bump .CLS_FRAG_CNT1_dup_first n
  else if 4 ≤ ((s.keysOf .FRE_on).filter (fun k => decide (k.1 = n ∧ k.2 % 16384 = dig % 16384))).length then
    s.bump .CLS_FRAG_CNT1_table_full n
  else
    let s := ((((s.set .FRE_on 1 n dig).set .FRE_rule (s.meta_ h 72 16) n dig).set .FRE_hit (s.meta_ h 70 1) n dig).set
      .FRE_epoch (s.pktEpoch h) n dig).set .FRE_at s.now n dig
    (s.each ((s.heldFrags n).filter (fun x => decide (s.get .PKT_fragkey 0 x = dig + 1))) (fun x s =>
      s.fragRelease n dig x)).fragStat n

/-- A fragment table entry is removed. -/
def State.fragRemove (s : State) (n dig : Nat) : State :=
  ((((s.set .FRE_on 0 n dig).set .FRE_rule 0 n dig).set .FRE_hit 0 n dig).set .FRE_epoch 0 n dig).set .FRE_at 0 n dig

/-- The fragment table and hold buffer of region `n` are lost; held fragments are dropped with FRAG_REGION_DOWN (R207). -/
def State.fragLost (s : State) (n : Nat) : State :=
  let s := s.each (s.heldFrags n) (fun h s => s.dropPkt h reasonFRAG_REGION_DOWN)
  (s.each ((s.keysOf .FRE_on).filter (fun k => decide (k.1 = n))) (fun k s => s.fragRemove n k.2)).fragStat n

/-- Punt buckets of every region recomputed from CLS_PUNT_RATE and the number of online regions, each set full (R196). -/
def State.puntRecompute (s : State) : State :=
  let m := max 1 ((List.range 8).filter (fun n => s.online n)).length
  s.each (List.range 8) (fun n s => s.each (List.range 16) (fun d s =>
    let depth := max 1 (s.get .CLS_PUNT_RATE_burst 0 d / m)
    (((s.set .PUNTB_rate (s.get .CLS_PUNT_RATE_rate 0 d / m) n d).set .PUNTB_depth depth n d).set .PUNTB_tok (depth * 4000000000) n d).set
      .PUNTB_at s.now n d))

end Sys2Proof.Machine
end

