-- ==== Sys2Proof/Machine/Time.lean ====
section
/-! DEFINITION. The timescale and its discipline: spec file 03, rules R75 to R116. -/

namespace Sys2Proof.Machine

/-- Whether a measurement of reference `n` is no outlier (R86): the first after a break always is none; a frequency is
judged by its last valid one, the selected reference by the loop's prediction, another by its last valid offset. -/
def State.measValid (s : State) (n : Nat) (off : Int) : Bool :=
  if s.get .REF_hist 0 n = 0 then true
  else if 6 ≤ n then
    decide ((off - sgn 64 (s.get .REF_last 0 n)).natAbs ≤ s.get .TS_SERVO_LIM_outlier_ns * 1000)
  else
    let p := if s.get .TS_STATUS_ref_sel = n then s.get .TIME_pred else s.get .REF_last 0 n
    decide ((off - sgn 64 p).natAbs ≤ s.get .TS_SERVO_LIM_outlier_ns * 65536)

/-- An outlier is counted, and the third in a row disqualifies (R86). -/
def State.measOutlier (s : State) (n : Nat) : State :=
  let c := s.get .REF_out 0 n + 1
  let s := ((((s.bump .TS_REF_STATUS_outliers 0 n).set .TS_REF_STATUS_valid 0 0 n).set .REF_run 0 0 n).set .REF_out c 0 n).set .REF_miss 0 0 n
  if 3 ≤ c then s.disqualify n else s

/-- A valid measurement becomes the reference's last one (R86). -/
def State.measAccept (s : State) (n : Nat) (off : Int) : State :=
  let s := if s.get .REF_run 0 n = 0 then (s.set .REF_run 1 0 n).set .REF_since s.now 0 n else s
  ((((s.set .TS_REF_STATUS_valid 1 0 n).set .REF_out 0 0 n).set .REF_miss 0 0 n).set .REF_hist 1 0 n).set .REF_last (unsgn 64 off) 0 n

/-- Whether reference `n` qualifies now (R85, R86). -/
def State.qualifies (s : State) (n : Nat) (parent : Bool) : Bool :=
  decide (s.get .TS_REF_STATUS_qualified 0 n = 0 ∧ s.get .REF_run 0 n = 1 ∧
    s.get .REF_since 0 n + s.get .TS_SERVO_CFG_qual_s * secUnits ≤ s.now ∧
    (n < 4 → parent = true) ∧ (n = 4 ∨ n = 5 → s.get .TS_STATUS_time_set = 1))

/-- Bandwidth of a code in 0.1 mHz; codes 5 to 7 act as code 1 (Table TIME-6). -/
def servoBand (code : Nat) : Nat := [10000, 1000, 300, 100, 10].getD code 1000

/-- B_eff in 0.1 mHz, for measurements of the selected reference at `rate` mHz; a PPS comes once per second (R94). -/
def State.bandEff (s : State) (rate : Nat) : Nat :=
  min (servoBand (s.get .TIME_bw)) (if s.get .TS_STATUS_ref_sel < 4 then rate else 1000)

/-- The servo update at a valid measurement of the selected reference: a proportional-integral loop of damping 0.9 on the phase error
(R94). Its gains, the phase error that an update leaves (R96) and the error it predicts next (R86) are values the spec does not
give in numbers (log entry 11). -/
def State.servoUpdate (s : State) (off : Int) (rate : Nat) : State :=
  let g := Config.servoGain 900 (s.bandEff rate)
  let i := sat64 (sgn 64 (s.get .TIME_integ) + Int.ofNat g.2 * off)
  let s := (s.set .TIME_offset (unsgn 64 off)).set .TIME_integ (unsgn 64 i)
  let s := s.drew.lset .residuals ((s.freeVal 64 :: s.lget .residuals).take 64)
  let s := (s.drew.set .TIME_pred (s.freeVal 64)).steer (-((Int.ofNat g.1 * off + i).fdiv (2 ^ 32)))
  if s.get .TS_STATUS_state = tsLOCKED then
    s.lset .freqWindow (freqSince (s.now - 600 * secUnits) ((s.now * 2 ^ 64 + s.get .TIME_freq) :: s.lget .freqWindow))
  else s

/-- The lock tests of Table TIME-5 at a measurement of the selected reference. -/
def State.lockTests (s : State) (off : Int) : State :=
  if s.get .TS_STATUS_state = tsACQUIRING then
    if off.natAbs ≤ s.lockNs then
      let s := if s.get .TIME_lock_run = 0 then (s.set .TIME_lock_run 1).set .TIME_lock_since s.now else s
      if s.get .TIME_lock_since + s.get .TS_SERVO_CFG_lock_s * secUnits ≤ s.now then
        ((s.enterDisc tsLOCKED).set .TIME_bw (s.get .TS_SERVO_CFG_lock_bw)).set .TIME_far3 0
      else s
    else s.set .TIME_lock_run 0
  else if s.get .TS_STATUS_state = tsLOCKED then
    if 4 * s.lockNs < off.natAbs then
      if 2 ≤ s.get .TIME_far3 then
        (((s.enterDisc tsACQUIRING).set .TIME_bw (s.get .TS_SERVO_CFG_acq_bw)).set .TIME_lock_run 0).set .TIME_far3 0
      else s.set .TIME_far3 (s.get .TIME_far3 + 1)
    else s.set .TIME_far3 0
  else s

/-- A measurement of the frequency reference that acts in HOLDOVER or FREERUN takes the place of the oscillator's frequency model (R89): the
correction that it gives is a value the spec does not give in numbers (log entry 11). -/
def State.freqAct (s : State) (n : Nat) : State :=
  if s.freqRef = some n ∧ (s.get .TS_STATUS_state = tsFREERUN ∨ s.get .TS_STATUS_state = tsHOLDOVER) then
    s.drew.steer (sgn 64 (s.freeVal 64))
  else s

/-- What PTP firmware reports with a measurement; TS_UTC_OFFSET follows the selected reference (R79, R83). -/
def State.ptpInfo (s : State) (n gm steps utc : Nat) : State :=
  if n < 4 then
    let s := ((s.set .REF_gm gm 0 n).set .REF_steps steps 0 n).set .REF_utc utc 0 n
    if s.get .TS_STATUS_ref_sel = n then s.utcShow (s.get .REF_utc 0 n) else s
  else s

/-- An accepted measurement: qualification, the first selection, or the servo's update. The step, if one is made, comes
with the state. -/
def State.measUse (s : State) (n : Nat) (off : Int) (parent : Bool) (rate : Nat) (both : Bool) : State × Option Int :=
  if s.qualifies n parent then
    let s := (s.set .TS_REF_STATUS_qualified 1 0 n).set .REF_qual_at s.now 0 n
    if n < 6 ∧ s.get .TS_CTRL_servo_en = 1 ∧
        (s.get .TS_STATUS_state = tsFREERUN ∨ s.get .TS_STATUS_state = tsHOLDOVER) then
      s.acquire n both
    else (s.freqAct n, none)
  else if s.get .TS_STATUS_ref_sel = n ∧ (s.get .TS_STATUS_state = tsACQUIRING ∨ s.get .TS_STATUS_state = tsLOCKED) then
    (((s.servoUpdate off rate).lockTests off).trackUnc, none)
  else (s.freqAct n, none)

/-- A PPS measurement as phase within the second, from half a second before to half a second after (R85). -/
def ppsPhase (off : Int) : Int := (off + 500000000 * 65536) % (1000000000 * 65536) - 500000000 * 65536

/-- Measurement `off` of reference `n`: for a time reference DTS minus reference in 2^-16 ns, for a frequency reference the
fractional frequency in 10^-12. The known delay is taken off a time measurement, and a PPS gives no second label (R85). -/
def State.measure (s : State) (n : Nat) (off : Int) (parent : Bool) (gm steps utc rate : Nat) (both : Bool) : State :=
  if s.get .TS_REF_CFG_enable 0 n = 0 then s
  else
    let s0 := s
    let off := if n < 6 then off - sgn 32 (s.get .TS_REF_DELAY 0 n) * 16384 else off
    let off := if n = 4 ∨ n = 5 then ppsPhase off else off
    let s := s.ptpInfo n gm steps utc
    if n < 4 ∧ parent = false ∧ s.get .TS_REF_STATUS_qualified 0 n = 1 then (s.disqualify n).evidence s0 none
    else if s.measValid n off then
      let r := (s.measAccept n off).measUse n off parent rate both
      r.1.evidence s0 r.2
    else (s.measOutlier n).evidence s0 none

/-- REFERENCE_MEASUREMENT (R82, R85 to R87, R90, R94 to R96). -/
def execReferenceMeasurement (n : Nat) (off : Int) (parent : Bool) (gm steps utc rate : Nat) (both : Bool) (s : State) :
    Host.Outcome State Fault Refusal :=
  .next (s.measure n off parent gm steps utc rate both)

/-- MEASUREMENT_MISSING: an expected measurement of an enabled reference did not arrive; the third in a row disqualifies
(R86). -/
def execMeasurementMissing (n : Nat) (s : State) : Host.Outcome State Fault Refusal :=
  .next <|
    if s.get .TS_REF_CFG_enable 0 n = 0 then s
    else
      let c := s.get .REF_miss 0 n + 1
      let t := ((s.set .TS_REF_STATUS_valid 0 0 n).set .REF_run 0 0 n).set .REF_miss c 0 n
      if 3 ≤ c then (t.disqualify n).evidence s none else t

/-- Whether reference `n` is enabled, qualified and of better priority than the selected one (R87). -/
def State.betterRef (s : State) (n : Nat) : Bool :=
  decide (n < 6 ∧ s.get .TS_REF_STATUS_qualified 0 n = 1 ∧ s.get .TS_REF_CFG_enable 0 n = 1 ∧
    s.get .TS_STATUS_ref_sel < 6 ∧ s.get .TS_REF_CFG_priority 0 n < s.get .TS_REF_CFG_priority 0 (s.get .TS_STATUS_ref_sel))

/-- WTR_EXPIRY: with revertive set, a better reference that stayed qualified for wtr_s is selected, by slewing (R87, R88). -/
def execWtrExpiry (n : Nat) (s : State) : Host.Outcome State Fault Refusal :=
  .next <|
    let t := s.advanceTo (s.get .REF_qual_at 0 n + s.get .TS_SERVO_CFG_wtr_s * secUnits)
    if s.get .TS_CTRL_revertive = 1 ∧ s.betterRef n then (t.switchRef n).evidence t none else s

/-- The earliest DTS at which a slew at slew_ppm has applied its whole offset (R88). -/
def State.slewEnd (s : State) : Nat :=
  let r := 16384 * s.slewPpm
  s.get .TIME_slew_at + (s.get .U_slew * 1000000 + r - 1) / r

/-- SLEW_COMPLETE: the whole offset has been applied and u_slew falls to 0 (R88). -/
def execSlewComplete (s : State) : Host.Outcome State Fault Refusal :=
  .next (((s.advanceTo s.slewEnd).set .U_slew 0).set .TIME_slew_off 0).publishUnc

/-- The load of TS_TOD_SET in FREERUN: a step, with the written uncertainty as base and u_hold restarted under the FREERUN
model (R90, R92, R103). -/
def State.todLoad (s : State) (unc : Nat) : State :=
  let s0 := s
  let t := s.get .TS_TOD_SET
  let d := stepSize s.now t
  let s := (((s.stepTo t).set .TS_STATUS_time_set 1).set .TIME_sw_set 1).set .TS_STATUS_ref_sel 0xE
  let s := ((((s.set .U_base (unc % 65536 * 16384)).set .U_meas 0).set .U_servo 0).set .U_asym 0).set .U_asym_unset 0
  (((s.set .U_slew 0).set .TIME_after_hold 0).startHold 2 t).evidence s0 (some d)

/-- TS_TOD_SET_UNC: in FREERUN the load, or FAULT where it cannot be applied to both counters (`both` false); otherwise ignored and
counted (R82, R90, R91). -/
def execTsTodSetUnc (unc : Nat) (both : Bool) (s : State) : Host.Outcome State Fault Refusal :=
  .next <|
    if s.get .TS_STATUS_state = tsFREERUN then if both then s.todLoad unc else s.timeFault.evidence s none
    else s.bump .TS_TOD_SET_UNC_tod_rejected

/-- servo_en written 0 (Table TIME-5). -/
def State.servoOff (s : State) : State :=
  if s.get .TS_STATUS_state = tsACQUIRING then (s.deselect.enterDisc tsFREERUN).startHold 2 s.now
  else if s.get .TS_STATUS_state = tsLOCKED then
    ((s.deselect.predictFreq.enterDisc tsFREERUN).set .TIME_after_hold 1).startHold 1 s.now
  else if s.get .TS_STATUS_state = tsHOLDOVER then ((s.deselect.enterDisc tsFREERUN).set .TIME_after_hold 1).growHold
  else s.deselect

/-- SERVO_EN_WRITE: a write of TS_CTRL. A servo_en that does not change has no effect; revertive is stored (R90). `both` tells whether a
step that follows can be applied to both counters (R82). -/
def execServoEnWrite (v : Nat) (both : Bool) (s : State) : Host.Outcome State Fault Refusal :=
  .next <|
    let on := v % 2
    let t := (s.set .TS_CTRL_servo_en on).set .TS_CTRL_revertive (v / 8)
    if on = s.get .TS_CTRL_servo_en then t
    else if on = 0 then t.servoOff.evidence s none
    else if s.get .TS_STATUS_state = tsFREERUN then
      match t.bestRef 8 with
      | some n =>
        let r := t.acquire n both
        r.1.evidence s r.2
      | none => t
    else t

/-- fault_resolve: time_set 0, the servo reset, every reference disqualified with its history cleared, FREERUN (R90). -/
def State.faultClear (s : State) : State :=
  let s := if s.selected.isSome then s else s.addw .TIME_lost_at (s.mono - s.get .TIME_fault_at)
  let s := s.deselect.each (List.range 8) (fun n s =>
    ((((((s.set .TS_REF_STATUS_qualified 0 0 n).set .TS_REF_STATUS_valid 0 0 n).set .REF_hist 0 0 n).set .REF_run 0 0 n)
      |>.set .REF_out 0 0 n).set .REF_miss 0 0 n).set .REF_last 0 0 n)
  let s := ((((s.set .TS_STATUS_time_set 0).set .TIME_sw_set 0).set .TIME_freq 0).set .TIME_pred 0).set .TIME_offset 0
  let s := (((s.lset .residuals []).set .TIME_after_hold 0).set .TS_STATUS_freq_limit 0).set .TIME_integ 0
  ((s.set .TS_STATUS_ref_sel 0xF).enterDisc tsFREERUN).startHold 2 s.now

/-- FAULT_RESOLVE_A_TO_B: in FAULT counter A is copied into B; DTS does not move (R90, R92). -/
def execFaultResolveAToB (s : State) : Host.Outcome State Fault Refusal :=
  .next <|
    if s.get .TS_STATUS_state = tsFAULT then ((s.set .TS_B s.now).faultClear).evidence s none else s

/-- FAULT_RESOLVE_B_TO_A: in FAULT counter B is copied into A, as a step (R90, R92). -/
def execFaultResolveBToA (s : State) : Host.Outcome State Fault Refusal :=
  .next <|
    if s.get .TS_STATUS_state = tsFAULT then
      let b := s.get .TS_B
      (((s.stepTo b).set .TS_B b).faultClear).evidence s (some (stepSize s.now b))
    else s

/-- AB_DIFF_MEASURE: B minus A in 0.0625 ns; beyond 2.0 ns the device enters FAULT (R81). -/
def execAbDiffMeasure (diff : Int) (s : State) : Host.Outcome State Fault Refusal :=
  .next <|
    let t := s.advanceTo ((s.now / usUnits + 1) * usUnits)
    let t := (t.set .TS_AB_DIFF_diff (unsgn 16 diff)).set .TS_AB_DIFF_max_abs
      (max (t.get .TS_AB_DIFF_max_abs) (min diff.natAbs 0xFFFF))
    let t := t.set .TS_B (unsgn 64 (Int.ofNat t.now + diff.fdiv 4))
    if 32 < diff.natAbs then t.timeFault.evidence s none else t

/-- UNC_UPDATE_TICK: at each 1 ms in HOLDOVER or FREERUN the growth term is recomputed (R104). -/
def execUncUpdateTick (s : State) : Host.Outcome State Fault Refusal :=
  .next <|
    let s := s.advanceTo ((s.now / msUnits + 1) * msUnits)
    if s.get .TS_STATUS_state = tsHOLDOVER ∨ s.get .TS_STATUS_state = tsFREERUN then s.growHold else s

/-- HOLDOVER_MAX_REACHED: U_DTS beyond holdover_max ends HOLDOVER; growth continues (R90). -/
def execHoldoverMaxReached (s : State) : Host.Outcome State Fault Refusal :=
  .next <|
    if s.get .TS_STATUS_state = tsHOLDOVER ∧ s.get .TS_HOLDOVER_MAX_holdover_max * 16384 < s.uDts then
      ((s.enterDisc tsFREERUN).set .TIME_after_hold 1).evidence s none
    else s

/-- Predicted frequency `t` seconds after it took over (R102), or what the acting frequency reference last gave (R89). -/
def State.holdFreq (s : State) (t : Nat) : Int :=
  match s.freqRef with
  | some _ => sgn 64 (s.get .TIME_freq)
  | none =>
    let d := if s.get .TS_LEARN_learn_valid = 1 then sgn 24 (s.get .TS_LEARN_age_rate) else 0
    sgn 64 (s.get .TIME_f0) + (d * Int.ofNat t).fdiv 86400

/-- HOLDOVER_FREQ_UPDATE: at each second of holdover, and of the FREERUN that follows it or the writing of servo_en 0 in LOCKED, the predicted
frequency is applied (R101, R102). In every other state of EXT_OCXO the DAC gets its frame again one second after the last (R98). -/
def execHoldoverFreqUpdate (s : State) : Host.Outcome State Fault Refusal :=
  .next <|
    if s.get .TIME_pred_on = 1 then
      let k := (s.now - s.get .TIME_pred_from) / secUnits + 1
      let s := s.advanceTo (s.get .TIME_pred_from + k * secUnits)
      s.steer (s.holdFreq k)
    else if s.get .TS_OSC_CFG_mode = 1 then
      (s.advanceTo (s.get .TIME_dac_at + secUnits)).dacFrame (s.get .TIME_dac)
    else s

/-- clockClass of the device as a PTP master, the selected reference's grandmaster having clockClass `gm` (R84, Table TIME-4). -/
def State.clockClass (s : State) (gm : Nat) : Nat :=
  let st := s.get .TS_STATUS_state
  if st = tsLOCKED then gm
  else if st = tsHOLDOVER then 7
  else if st = tsFREERUN ∧ s.get .TIME_after_hold = 1 then 52
  else 248

/-- Codes of clockAccuracy from 1 ps to 10 µs with their bounds in ps, and 25 µs (IEEE 1588-2019). -/
def accuracyCodes : List (Nat × Nat) :=
  [(0x17, 1), (0x18, 2), (0x19, 10), (0x1A, 25), (0x1B, 100), (0x1C, 250), (0x1D, 1000), (0x1E, 2500), (0x1F, 10000), (0x20, 25000),
   (0x21, 100000), (0x22, 250000), (0x23, 1000000), (0x24, 2500000), (0x25, 10000000), (0x26, 25000000)]

/-- clockAccuracy of the device as a PTP master: the smallest code whose bound is at least the UNC16 of DTS, and unknown for 0xFFFF (R84). -/
def State.clockAccuracy (s : State) : Nat :=
  let u := s.get .TS_STATUS_unc16
  if u = 0xFFFF then 0xFE
  else ((accuracyCodes.find? (fun c => decide (250 * u ≤ c.2))).map (·.1)).getD 0xFE

/-- offsetScaledLogVariance of the device as a PTP master: a function of the servo residuals that the spec does not give (R84; log entry
146). -/
def State.offsetScaledLogVariance (s : State) : Nat := Config.logVariance (s.lget .residuals) % 2 ^ 16

/-- OSC_MODE_WRITE: a write of TS_OSC_CFG. A change of osc_20m is ignored while mode is 1, and otherwise marks CK_OSC
absent without its lost bit (R61); mode going to 1 starts the DAC at 2^19 (R97). -/
def execOscModeWrite (v : Nat) (s : State) : Host.Outcome State Fault Refusal :=
  .next <|
    let t := (((s.set .TS_OSC_CFG_learn_h (v / 4)).set .TS_OSC_CFG_dac_span_ppb (v / 256)).set .TS_OSC_CFG_dac_invert (v / 2 ^ 20)).set
      .TS_OSC_CFG_mode v
    let t := if s.get .TS_OSC_CFG_mode = 0 ∧ s.get .TS_OSC_CFG_osc_20m ≠ v / 2 % 2 then
        (((t.set .TS_OSC_CFG_osc_20m (v / 2)).setb .XD_CLK_DIE_PRESENT_present 1 false 0 1).setb .XD_CLK_PRESENT_present 1 false)
      else t
    if s.get .TS_OSC_CFG_mode = 0 ∧ v % 2 = 1 then t.dacFrame (2 ^ 19) else t

/-- Slope of the least-squares line through samples 64 s apart (newest first), in 10^-12 per day (R101), rounded down, which the spec
leaves open (DESIGN CHOICE, log entry 156). -/
def fitSlope (l : List Nat) : Int :=
  let ys := (l.reverse.map (sgn 64))
  let n := Int.ofNat ys.length
  let r := ys.foldl (fun (a : Int × Int × Int × Int × Int) y =>
    (a.1 + 1, a.2.1 + a.1, a.2.2.1 + y, a.2.2.2.1 + a.1 * y, a.2.2.2.2 + a.1 * a.1)) (0, 0, 0, 0, 0)
  let den := n * r.2.2.2.2 - r.2.1 * r.2.1
  if den = 0 then 0 else ((n * r.2.2.2.1 - r.2.1 * r.2.2.1) * 1350).fdiv den

/-- LEARN_SAMPLE: every 64 s while LOCKED the correction is sampled and the line fitted over learn_h hours (R101). A learn_h of 0, outside the
stated 1 to 63, acts as 1 (DESIGN CHOICE, log entry 156). -/
def execLearnSample (s : State) : Host.Outcome State Fault Refusal :=
  .next <|
    if s.get .TS_STATUS_state = tsLOCKED then
      let k := (s.now - s.get .TIME_locked_since) / (64 * secUnits) + 1
      let s := s.advanceTo (s.get .TIME_locked_since + k * (64 * secUnits))
      let l := (s.get .TIME_freq :: s.lget .learnSamples).take (max 1 (s.get .TS_OSC_CFG_learn_h) * 3600 / 64)
      ((s.lset .learnSamples l).set .TS_LEARN_age_rate (unsgn 24 (fitSlope l))).set .TS_LEARN_hours (min 127 (l.length * 64 / 3600))
    else s

/-- LEARN_VALID: 6 h of continuous LOCKED make the learned rate valid (R101). -/
def execLearnValid (s : State) : Host.Outcome State Fault Refusal :=
  .next <|
    if s.get .TS_STATUS_state = tsLOCKED then
      (s.advanceTo (s.get .TIME_locked_since + 6 * 3600 * secUnits)).set .TS_LEARN_learn_valid 1
    else s

/-- PERIODIC: the boundaries that counter A has reached by running and that have no PERIODIC record get it; where there is none, counter A
runs to the next one (R108, R109). -/
def execPeriodic (s : State) : Host.Outcome State Fault Refusal :=
  .next <|
    let s := s.when (decide (s.now / secUnits < s.get .AMBER_due)) (·.set .AMBER_due (s.now / secUnits))
    let s := if s.get .AMBER_due < s.now / secUnits then s else s.advanceTo ((s.now / secUnits + 1) * secUnits)
    (s.secondsDue (s.now / secUnits)).set .AMBER_due (s.now / secUnits)

/-- Slots of the time ring (R115). -/
def State.ringSlots (s : State) : Nat := 2 ^ (max 4 (min 12 (s.get .TS_RING_CFG_log2_slots)))

/-- A write of TS_RING_CFG: TS_RING_PROD stays an index below the size, its old value modulo the new size; which slot is next after a change
of size the spec leaves open (R115; DESIGN CHOICE, log entry 156). -/
def State.ringResize (s : State) : State := s.set .TS_RING_PROD (s.get .TS_RING_PROD % s.ringSlots)

/-- A 256-byte slot for the time ring: nothing while the ring is disabled; counted when it is full or the host write may not
be issued; else written and the producer index advanced (R115, R436). -/
def State.timeRingPut (s : State) (b : List Nat) : State :=
  let n := s.ringSlots
  let e := s.get .TS_RING_CFG_endpoint
  let p := s.get .TS_RING_PROD % n
  if s.get .TS_RING_CFG_enable = 0 then s
  else if s.get .PCI_EP_CFG_link_up e = 0 then s.hostDown e
  else if (p + 1) % n = s.get .TS_RING_CONS % n ∨ s.mayIssue e 2 = false then s.bump .TS_RING_STAT_ring_drops
  else (s.hostWrite e 2 (s.get .TS_RING_BASE + p * 256) (fixLen 256 b)).set .TS_RING_PROD ((p + 1) % n)

/-- AMBER_RING_DELIVER: the oldest record not yet delivered goes to the time ring (R112, R115). -/
def execAmberRingDeliver (s : State) : Host.Outcome State Fault Refusal :=
  .next <|
    match s.lget .amberToRing with
    | [] => s
    | q :: r => (s.lset .amberToRing r).timeRingPut (s.lget .amber 0 q)

/-- Whether CK_XSPI is present on the CTD. -/
def State.xspiOk (s : State) : Bool := s.getb .XD_CLK_DIE_PRESENT_present 14 0 0

/-- Place of the log's slot 0 in the external flash, counted in slots (R113). -/
def State.logBase (s : State) : Nat := s.get .TS_AMBER_LOG_BASE / 65536 * 256

/-- A record programmed into the log's next slot; the first record of a sector erases the sector first (R113). -/
def State.logProgram (s : State) (b : List Nat) : State :=
  let k := s.logBase + s.get .AMBER_slot
  let s := if k % 256 = 0 then s.each (List.range 256) (fun j s => s.lset .amberLog [] 0 (k + j)) else s
  (s.lset .amberLog b 0 k).addw .AMBER_slot 1

/-- AMBER_LOG_PROGRAM: the oldest record not yet programmed goes into the log. Without CK_XSPI it is held, and left out
and counted once 50 ms have passed since its issue (R112, R529). After PWR_FAIL_N nothing is programmed (R114). -/
def execAmberLogProgram (s : State) : Host.Outcome State Fault Refusal :=
  .next <|
    match s.lget .amberToLog with
    | [] => s
    | q :: r =>
      let b := s.lget .amber 0 q
      let late := leNat (slice b 8 8) + 50 * msUnits
      if s.get .AMBER_stop = 1 then s.lset .amberToLog []
      else if late < (if s.xspiOk then s.get .XSPI_back else s.now) then (s.lset .amberToLog r).bump .BOOT_FLASH_STAT_log_lost
      else if s.xspiOk then (s.lset .amberToLog r).logProgram b
      else s

/-- The log slot that holds the record with this seq. -/
def State.logFind (s : State) (seq : Nat) : Option Nat :=
  ((s.lkeysOf .amberLog).find? (fun k => within k.2 s.logBase 131072 &&
    decide (leNat (slice (s.lget .amberLog k.1 k.2) 4 4) = seq))).map (·.2)

/-- TS_AMBER_FETCH: the record with this seq is placed in the next free ring slot; absent from the log, or with CK_XSPI
absent, fetch_miss is set (R116). -/
def execTsAmberFetch (seq : Nat) (s : State) : Host.Outcome State Fault Refusal :=
  .next <|
    match (if s.xspiOk then s.logFind seq else none) with
    | some k => s.timeRingPut (s.lget .amberLog 0 k)
    | none => s.set .TS_STATUS_fetch_miss 1

/-- CHAIN_DIGEST_COMMIT: the write of TS_CHAIN_DIGEST[11] makes the whole digest effective and issues a REFERENCE_CHANGE
record (R108). -/
def execChainDigestCommit (v : Nat) (s : State) : Host.Outcome State Fault Refusal :=
  .next <|
    let s := s.set .TS_CHAIN_DIGEST v 0 11
    let s := s.lset .chainDigest ((List.range 12).flatMap (fun k => leBytes 4 (s.get .TS_CHAIN_DIGEST 0 k)))
    s.issueAmber 3 s.offEst

end Sys2Proof.Machine
end

