-- ==== Sys2Proof/Machine/Timestamps.lean ====
section
/-! DEFINITION. Calibration of the timestamp unit, the launch gate, the host time page, PTM and the PPS outputs: spec file 04,
rules R117 to R145. -/

namespace Sys2Proof.Machine

/-- TSU_CALIBRATE: the periodic calibration of a port's converters and lane skew starts, 60 s after the last one did; that of a link-up
starts with it (R120, R121). -/
def execTsuCalibrate (d p : Nat) (s : State) : Host.Outcome State Fault Refusal :=
  .next <|
    if !s.portOk d p ∨ s.get .ETH_PORT_STATUS_state d p ≠ ethUP ∨ s.get .TSU_tdc d = 1 ∨ s.get .TSU_cal_busy d p = 1 then s
    else
      let s := s.advanceTo (s.get .TSU_cal_at d p + 60 * secUnits)
      (s.set .TSU_cal_busy 1 d p).set .TSU_cal_at s.now d p

/-- TSU_CALIBRATION_DONE: a calibration in progress completes: cal_done sets, with the largest skew removed, unless the IOD's TSU clock
is absent (R120, R121). -/
def execTsuCalibrationDone (d p skew : Nat) (s : State) : Host.Outcome State Fault Refusal :=
  .next <|
    if s.get .TSU_cal_busy d p = 0 then s else
    let s := s.set .TSU_cal_busy 0 d p
    if s.get .TSU_tdc d = 1 then s
    else (s.set .TSU_PORT_STATUS_cal_done 1 d p).set .TSU_PORT_STATUS_skew_max skew d p

/-- Horizon of a launch profile in 0.25 ns units (TSU_LAUNCH_PROF). -/
def State.launchHorizon (s : State) (d k : Nat) : Nat := 2 ^ (min 10 (s.get .TSU_LAUNCH_PROF_horizon d k)) * msUnits

/-- The stepped and uncal marks of a timestamp taken now on a port (Table TSTP-4). -/
def State.tsMarks (s : State) (d p : Nat) : Nat :=
  b2n s.stepMark + 2 * b2n (s.get .TSU_PORT_STATUS_cal_done d p = 0)

/-- A launch-requested frame that is sent at once, late (Table TSTP-6). -/
def State.launchLate (s : State) (d p h : Nat) : State :=
  ((s.bump .TSU_LATE_CNT_late_sent d p).set .PKT_gate 2 0 h).set .PKT_tsflags 0x18 0 h

/-- The gate drops a frame, which leaves the MAC (Table TSTP-6). -/
def State.gateDrop (s : State) (d p h r : Nat) : State :=
  ((s.set .PKT_gate 3 0 h).lset .mac ((s.lget .mac d p).erase h) d p).dropPkt h r

/-- LAUNCH_GATE_ARRIVAL: the gate judges the frame against the replica of its IOD (R132, Table TSTP-6). A frame that requests
no launch passes. -/
def execLaunchGateArrival (d p h : Nat) (s : State) : Host.Outcome State Fault Refusal :=
  .next <|
    let l := s.get .PKT_launch 0 h
    let k := s.get .PKT_prof 0 h
    let now := s.repNow (2 + d)
    if !(s.lget .mac d p).contains h ∨ s.get .PKT_gate 0 h ≠ 0 then s
    else if l = 0 then s.set .PKT_gate 2 0 h
    else if now < l then
      if l ≤ now + s.launchHorizon d k then
        (s.set .PKT_gate 1 0 h).set .PKT_tsflags 0x08 0 h
      else (s.bump .TSU_PORT_ERR_far_dropped d p).gateDrop d p h reasonLAUNCH_FAR
    else if now ≤ l + s.get .TSU_LAUNCH_PROF_late_bound d k * 32 then s.launchLate d p h
    else if s.get .TSU_LAUNCH_PROF_late_policy d k = 1 then s.launchLate d p h
    else (s.bump .TSU_LATE_CNT_late_dropped d p).gateDrop d p h reasonLAUNCH_LATE

/-- The frame of a list that asks for the earliest launch, the first of equals. -/
def State.firstLaunch (s : State) : List Nat → Option Nat
  | [] => none
  | h :: r =>
    match s.firstLaunch r with
    | none => some h
    | some g => if s.get .PKT_launch 0 g < s.get .PKT_launch 0 h then some g else some h

/-- TIME_PAGE_UPDATE: without PTM, every 1 ms of DTS; with it, the last pair is kept (R137). -/
def execTimePageUpdate (e : Nat) (s : State) : Host.Outcome State Fault Refusal :=
  .next <|
    if s.get .TSU_PTM_STATUS_ptm_valid e = 1 then s.pageNow e
    else (s.advanceTo ((s.now / msUnits + 1) * msUnits)).pageNow e

/-- Interval between PTM dialogues, ms (Table TSTP-12). -/
def ptmInterval (k : Nat) : Nat := [1, 2, 5, 10, 20, 50, 100, 1000].getD k 1000

/-- PTM_DIALOGUE_START: a request is sent and its t1 taken, while the device and the host both enable PTM (R138). It comes one
interval after the last (Table TSTP-12). -/
def execPtmDialogueStart (e : Nat) (s : State) : Host.Outcome State Fault Refusal :=
  .next <|
    let t := s.get .PTM_busy_at e
    let s := s.when (decide (0 < t)) (·.advanceTo (t + ptmInterval (s.get .TSU_PTM_CFG_interval e) * msUnits))
    if s.get .TSU_PTM_CFG_enable e = 1 ∧ s.get .TSU_PTM_STATUS_ptm_enabled e = 1 ∧ s.get .PCI_EP_CFG_link_up e = 1 then
      (((s.set .PTM_t1 (s.repNow (2 + e)) e).set .PTM_busy 1 e).set .PTM_busy_at s.now e).emit .pcieMsg [e, 0, 10]
    else s

/-- A dialogue fails: the third in a row clears ptm_valid (R139). -/
def State.ptmFail (s : State) (e : Nat) : State :=
  let s := ((s.bump .TSU_PTM_STATUS_fail_count e).bump .PTM_fails e).set .PTM_busy 0 e
  if 3 ≤ s.get .PTM_fails e then s.set .TSU_PTM_STATUS_ptm_valid 0 e else s

/-- ptm_valid cleared by link down, FLR of PF0 or the clearing of PTM Enable (R139). -/
def State.ptmStop (s : State) (e : Nat) : State := (s.set .TSU_PTM_STATUS_ptm_valid 0 e).set .PTM_busy 0 e

/-- PTM_TIMEOUT: no response within 100 µs (R139). -/
def execPtmTimeout (e : Nat) (s : State) : Host.Outcome State Fault Refusal :=
  .next <|
    if s.get .PTM_busy e = 1 then (s.advanceTo (s.get .PTM_busy_at e + 100 * usUnits)).ptmFail e else s

/-- Device plus platform term of a pair in 0.25 ns units (Table TSTP-9, R140). -/
def State.ptmTerm (s : State) (e : Nat) : Nat := (if s.throughput then 36 else 32) + s.get .TSU_PTM_CFG_platform_unc e

/-- Rate and its bound from a pair and an earlier one `span` units before (R141). -/
def State.ptmRate (s : State) (e dt ptm dt0 ptm0 : Nat) : State :=
  if dt ≤ dt0 then (s.set .PTM_rate 0 e).set .PTM_rate_unc 0xFFFF e
  else
    let r := ((Int.ofNat ptm - Int.ofNat ptm0) * 4 * 10 ^ 12).fdiv (Int.ofNat (dt - dt0)) - 10 ^ 12
    let u := (2 * s.ptmTerm e * 10 ^ 9 + (dt - dt0) - 1) / (dt - dt0)
    (s.set .PTM_rate (unsgn 32 r) e).set .PTM_rate_unc
      (if s.get .TSU_PTM_CFG_platform_unc e = 0xFFFF then 0xFFFF else min 0xFFFF u) e

/-- A time-ring slot of format 0x0002 (Table TSTP-10). -/
def State.ptmSlot (s : State) (e dt ptm ld : Nat) : List Nat :=
  leBytes 2 2 ++ [e, s.get .PAGE_flags e] ++ leBytes 4 (s.get .PTM_count e) ++ leBytes 8 dt ++ leBytes 8 ptm ++
  leBytes 2 (s.get .PTM_unc e) ++ leBytes 2 (s.get .PTM_rate_unc e) ++ leBytes 4 (s.get .PTM_rate e) ++ leBytes 4 ld

/-- A good dialogue: the pair, its uncertainty and rate, the page and the time ring (R138 to R142). -/
def State.ptmPair (s : State) (e dt ptm ld : Nat) : State :=
  let s := ((s.set .PTM_fails 0 e).set .PTM_busy 0 e).set .TSU_PTM_DELAY ld e
  let s := if s.get .TSU_PTM_STATUS_ptm_valid e = 0 then (s.set .TSU_PTM_STATUS_ptm_valid 1 e).set .PTM_pairs 0 e else s
  let k := s.get .PTM_pairs e
  let j := if 64 ≤ k then k % 64 else 0
  let s := if k = 0 then (s.set .PTM_rate 0 e).set .PTM_rate_unc 0xFFFF e
    else s.ptmRate e dt ptm (s.get .PTM_hist_dt e j) (s.get .PTM_hist_ptm e j)
  let s := ((s.set .PTM_hist_dt dt e (k % 64)).set .PTM_hist_ptm ptm e (k % 64)).set .PTM_pairs (k + 1) e
  let s := (s.addw .PTM_count 1 e).set .PTM_unc
    (if s.get .TSU_PTM_CFG_platform_unc e = 0xFFFF then 0xFFFF else s.uncOf (s.ptmTerm e)) e
  let s := s.pageUpdate e dt (s.repUnc (2 + e) 0) ptm
  s.when (decide (s.get .TSU_PTM_CFG_to_ring e = 1)) (fun s => s.timeRingPut (s.ptmSlot e dt ptm ld))

/-- PTM_RESPONSE: the response of the dialogue in progress, `el` units of 0.25 ns after its request, with the master's t2
and t3 in ns. A negative link delay fails (R138, R139). The link delay is held to 0.25 ns and pair_ptm to 1 ns, both rounded down, and a
t3 before t2 counts as no time between: the spec gives none of the three (DESIGN CHOICE, log entry 157). -/
def execPtmResponse (e el t2 t3 : Nat) (s : State) : Host.Outcome State Fault Refusal :=
  .next <|
    if s.get .PTM_busy e = 0 then s
    else
      let t := s.advanceTo (s.get .PTM_busy_at e + el)
      if 100 * usUnits < el ∨ el < 4 * (t3 - t2) then t.ptmFail e
      else
        let ld := (el - 4 * (t3 - t2)) / 2
        t.ptmPair e (s.get .PTM_t1 e) ((4 * t2 - ld) / 4) ld

/-- Pulse width in 0.25 ns units (Table TSTP-13). -/
def ppsWidth (w : Nat) : Nat :=
  if w = 0 then usUnits else if w = 1 then 100 * usUnits else if w = 2 then 10 * msUnits else 100 * msUnits

/-- The next second label of output `k`: the first whose edge, advanced by the delay, has not passed; the one after it when
that label has been used at this very instant. -/
def State.ppsNext (s : State) (k : Nat) : Nat :=
  let x := Int.ofNat s.now + sgn 16 (s.get .TS_PPS_DELAY_delay 0 k)
  let l := ((x + (secUnits - 1)).fdiv secUnits).toNat
  if l + 1 = s.get .PPS_label 0 k then l + 1 else l

/-- PPS_OUT_EDGE: at the next second boundary an enabled output raises its edge, or is squelched; a label is used once
(R143 to R145). -/
def execPpsOutEdge (k : Nat) (s : State) : Host.Outcome State Fault Refusal :=
  .next <|
    let l := s.ppsNext k
    let s := s.advanceTo (Int.ofNat (l * secUnits) - sgn 16 (s.get .TS_PPS_DELAY_delay 0 k)).toNat
    if s.get .TS_PPS_CFG_enable 0 k = 0 ∨ s.get .PWR_fail = 1 ∨ l + 1 ≤ s.get .PPS_label 0 k then s
    else
      let s := s.set .PPS_label (l + 1) 0 k
      if s.get .TS_PPS_CFG_squelch_en 0 k = 1 ∧ (s.uncForced ∨ s.get .TS_PPS_CFG_squelch_unc 0 k < s.uncOf 0) then
        s.bump .TS_PPS_DELAY_squelched 0 k
      else ((s.set .PPS_high 1 0 k).set .PPS_end (s.now + ppsWidth (s.get .TS_PPS_CFG_width 0 k)) 0 k).emit .pin [k, 1]

/-- PPS_PULSE_END: the width elapses and the output falls (R143). -/
def execPpsPulseEnd (k : Nat) (s : State) : Host.Outcome State Fault Refusal :=
  .next <|
    if s.get .PPS_high 0 k = 0 then s
    else ((s.advanceTo (s.get .PPS_end 0 k)).set .PPS_high 0 0 k).emit .pin [k, 0]

end Sys2Proof.Machine
end

