-- ==== Sys2Proof/Machine/Ethernet.lean ====
section
/-! DEFINITION. The Ethernet ports: link state, the receive and transmit paths, flow control, MACsec, the wake link and NC-SI
(spec file 09), with the port timestamps of spec file 04. -/

namespace Sys2Proof.Machine

/-- Whether both clocks of IOD `d`'s ports are present. -/
def State.ethClk (s : State) (d : Nat) : Bool :=
  s.getb .XD_CLK_DIE_PRESENT_present (3 + d) 0 (2 + d) && s.getb .XD_CLK_DIE_PRESENT_present (5 + d) 0 (2 + d)

/-- Every frame queued for a port is discarded with LINK_DOWN and counted in link_drops, and so is what arrives (R307). -/
def State.portDiscardAll (s : State) (d p : Nat) : State :=
  (s.each ((List.range (s.get .TOPO_nq d)).filter (fun q => decide (s.qPort d q = p))) (fun q s =>
    s.queueDiscard d q reasonLINK_DOWN (some .SCH_PORT_DROP_link_drops))).set .ETH_discard 1 d p

/-- PORT_ENABLE: enable written 1 takes a DISABLED port to TRAINING (Table ETH-3); without its clocks it is DOWN until they are
present. In RECOVERY every port stays DISABLED (R517). -/
def execPortEnable (d p : Nat) (s : State) : Host.Outcome State Fault Refusal :=
  .next <|
    if !s.portOk d p then s
    else
      let s := s.set .ETH_PORT_CFG_enable 1 d p
      if s.get .ETH_PORT_STATUS_state d p ≠ ethDISABLED ∨ s.get .BOOT_STATUS_recovery = 1 then s
      else if s.ethClk d then s.ethTrain d p
      else ((s.set .ETH_PORT_STATUS_state ethDOWN d p).set .ETH_clk_down 1 d p).set .ETH_down_at s.now d p

/-- PORT_DISABLE: enable written 0: the MAC transmit buffer and the queues are discarded, the lanes off (Table ETH-3, R307). -/
def execPortDisable (d p : Nat) (s : State) : Host.Outcome State Fault Refusal :=
  .next <|
    if !s.portOk d p then s
    else
      let s := (s.set .ETH_PORT_CFG_enable 0 d p).leaveUp d p
      let s := (s.macDiscard d p).portDiscardAll d p
      ((s.set .ETH_PORT_STATUS_state ethDISABLED d p).set .ETH_tx_remote_fault 0 d p).set .ETH_clk_down 0 d p
        |>.set .ETH_PORT_STATUS_remote_fault 0 d p

/-- PORT_LINK_UP: lock and alignment bring a TRAINING port UP and start its calibration (Table ETH-3, R120). In DEVICE_FATAL it
sends Remote Fault (R534). -/
def execPortLinkUp (d p : Nat) (s : State) : Host.Outcome State Fault Refusal :=
  .next <|
    if s.portOk d p ∧ s.get .ETH_PORT_STATUS_state d p = ethTRAINING then
      let s := ((s.set .ETH_PORT_STATUS_state ethUP d p).set .ETH_PORT_STATUS_remote_fault 0 d p).set .ETH_tx_remote_fault
        (b2n s.fatal) d p
      (((s.set .ETH_discard 0 d p).set .TSU_PORT_STATUS_cal_done 0 d p).set .TSU_cal_busy (1 - s.get .TSU_tdc d) d p |>.set .TSU_cal_at s.now d p).ncsiAen (8 * d + p) true
    else s

/-- TRAINING_TIMEOUT: 500 ms without lock are counted and training restarts (Table ETH-3). -/
def execTrainingTimeout (d p : Nat) (s : State) : Host.Outcome State Fault Refusal :=
  .next <|
    if s.portOk d p ∧ s.get .ETH_PORT_STATUS_state d p = ethTRAINING then
      ((s.advanceTo (s.get .ETH_train_at d p + 500 * msUnits)).bump .ETH_PORT_STATUS_train_fail d p).ethTrain d p
    else s

/-- A port with a down_hold_ms of 0 discards its queues as it goes DOWN (R307). -/
def State.downHold0 (s : State) (d p : Nat) : State :=
  if s.get .SCH_PORT_CFG_down_hold_ms d p = 0 then s.portDiscardAll d p else s

/-- LINK_FAULT: an UP port sends Remote Fault, discards its MAC transmit buffer and goes DOWN (Table ETH-3). -/
def execLinkFault (d p : Nat) (s : State) : Host.Outcome State Fault Refusal :=
  .next <|
    if s.portOk d p ∧ s.get .ETH_PORT_STATUS_state d p = ethUP then
      let s := (s.leaveUp d p).macDiscard d p
      ((s.set .ETH_tx_remote_fault 1 d p).set .ETH_PORT_STATUS_state ethDOWN d p).downHold0 d p
    else s

/-- REMOTE_FAULT: a received Remote Fault takes an UP port DOWN; it sends idle and its frames are held (Table ETH-3). -/
def execRemoteFault (d p : Nat) (s : State) : Host.Outcome State Fault Refusal :=
  .next <|
    if s.portOk d p ∧ s.get .ETH_PORT_STATUS_state d p = ethUP then
      ((((s.leaveUp d p).set .ETH_PORT_STATUS_remote_fault 1 d p).set .ETH_tx_remote_fault (b2n s.fatal) d p).set
        .ETH_PORT_STATUS_state ethDOWN d p).downHold0 d p
    else s

/-- DOWN_RETRAIN: 10 ms without fault, a DOWN port trains again, unless its clock is absent (Table ETH-3). -/
def execDownRetrain (d p : Nat) (s : State) : Host.Outcome State Fault Refusal :=
  .next <|
    if s.portOk d p ∧ s.get .ETH_PORT_STATUS_state d p = ethDOWN ∧ s.get .ETH_clk_down d p = 0 then
      ((s.advanceTo (s.get .ETH_down_at d p + 10 * msUnits)).ethTrain d p).set
        .ETH_PORT_STATUS_remote_fault 0 d p
    else s

/-- DOWN_HOLD_EXPIRY: a port out of UP for down_hold_ms discards what is queued for it (R307). -/
def execDownHoldExpiry (d p : Nat) (s : State) : Host.Outcome State Fault Refusal :=
  .next <|
    let st := s.get .ETH_PORT_STATUS_state d p
    if s.portOk d p ∧ (st = ethTRAINING ∨ st = ethDOWN) ∧ s.get .ETH_discard d p = 0 then
      (s.advanceTo (s.get .ETH_down_at d p + s.get .SCH_PORT_CFG_down_hold_ms d p * msUnits)).portDiscardAll d p
    else s

/-- A port loses CK_Pn_TX or CK_Pn_RX: its MAC transmit buffer is discarded, a CONTAINED error logged, and it is DOWN until the
clock is present again (Table ETH-3). -/
def State.portClkLost (s : State) (d p k : Nat) : State :=
  if !s.portOk d p ∨ s.get .ETH_PORT_STATUS_state d p = ethDISABLED ∨ s.get .ETH_clk_down d p = 1 then s
  else
    let up := decide (s.get .ETH_PORT_STATUS_state d p = ethUP)
    let s := (s.leaveUp d p).macDiscard d p
    let s := ((s.set .ETH_PORT_STATUS_state ethDOWN d p).set .ETH_clk_down 1 d p).report
      { src := 0x04, cls := .contained, die := 2 + d, region := 8 + d, detail := some k }
    s.when up (·.downHold0 d p)

/-- Whether a class of a port is lossless. -/
def State.lossless (s : State) (d p c : Nat) : Bool := s.getb .ETH_PORT_CFG_lossless c d p

/-- Headroom configured for a class, bytes (R273). -/
def State.hrWant (s : State) (d p c : Nat) : Nat :=
  if s.portOk d p && s.lossless d p c then s.get .ETH_PFC_CLASS_headroom d (p * 8 + c) * 256 else 0

/-- Headroom granted to a class: ports and classes in ascending order, 2 MiB in all (R273). -/
def State.hrGrant (s : State) (d p c : Nat) : Nat :=
  let before := ((List.range (p * 8 + c)).map (fun k => s.hrWant d (k / 8) (k % 8))).sum
  min (s.hrWant d p c) (2 ^ 21 - before)

/-- Headroom reserve of an IOD as configured. -/
def State.hrTotal (s : State) (d : Nat) : Nat := ((List.range 64).map (fun k => s.hrWant d (k / 8) (k % 8))).sum

/-- hr_overcommit follows the configuration (R273). -/
def State.hrStat (s : State) (d : Nat) : State := s.set .ETH_MODE_hr_overcommit (b2n (2 ^ 21 < s.hrTotal d)) d

/-- ETH_MODE_WRITE: a write of ETH_MODE. mode is taken only while every port of the IOD is DISABLED; a change clears the statistics, sets
every start threshold to 4, marks calibration not done (R267), and changes the ports whose headroom counts (R273). The NC-SI channel of a
port that is no more loses its configuration (R290; log entry 42). -/
def execEthModeWrite (d v : Nat) (s : State) : Host.Outcome State Fault Refusal :=
  .next <|
    let s := s.when (v.testBit 2) (·.set .ETH_MODE_mode_rejected 0 d)
    if (List.range 8).all (fun p => decide (s.get .ETH_PORT_STATUS_state d p = ethDISABLED)) then
      if s.get .ETH_MODE_mode d = v % 4 then s
      else
        let s := (s.set .ETH_MODE_mode v d).each (List.range 8) (fun p s =>
          ((s.set .ETH_PORT_STATUS_threshold 4 d p).set .TSU_PORT_STATUS_cal_done 0 d p).set .TSU_PORT_STATUS_mode v d p)
        let s := s.each (List.range 512) (fun k s => s.set .ETH_STAT_count 0 d k)
        let s := s.each ((List.range 8).filter (fun p => !s.portOk d p && decide (s.get .NCSI_init 0 (8 * d + p) = 1))) (fun p s =>
          s.ncsiLost (8 * d + p))
        s.hrStat d
    else s.set .ETH_MODE_mode_rejected 1 d

/-- RESET_THR: the start threshold becomes 4 (R279). -/
def execResetThr (d p : Nat) (s : State) : Host.Outcome State Fault Refusal :=
  .next (if s.portOk d p then s.set .ETH_PORT_STATUS_threshold 4 d p else s)

/-- Time that `q` quanta of 512 bit times take on a port, in 0.25 ns, rounded up (R272). -/
def State.quantaTime (s : State) (d q : Nat) : Nat :=
  let r := modeRate (s.get .ETH_MODE_mode d)
  (q * 2048 + r - 1) / r

/-- A received PAUSE (`pfc` false) or PFC frame: counted, and it stops or releases the classes it names where the port's fc_mode
is of its kind (R272). `q` gives the quanta of each class. -/
def State.flowTake (s : State) (d p : Nat) (pfc : Bool) (mask : Nat) (q : Nat → Nat) : State :=
  let s := s.ethCount d p 5 1
  let s := if pfc then s.each (bitList 8 mask) (fun c s => s.ethCount d p (24 + c) 1) else s
  if s.get .ETH_PORT_CFG_fc_mode d p ≠ (if pfc then 2 else 1) then s
  else s.each (if pfc then bitList 8 mask else List.range 8) (fun c s =>
    if q c = 0 then (s.set .ETH_stop 0 d (p * 8 + c)).set .ETH_stop_until 0 d (p * 8 + c)
    else (s.set .ETH_stop 1 d (p * 8 + c)).set .ETH_stop_until (s.now + s.quantaTime d (q c)) d (p * 8 + c))

/-- PFC_RECEIVE: a PAUSE or PFC frame received on an UP port at `at`. -/
def execPfcReceive (d p at_ : Nat) (pfc : Bool) (mask : Nat) (quanta : List Nat) (s : State) : Host.Outcome State Fault Refusal :=
  .next <|
    if s.portOk d p ∧ s.get .ETH_PORT_STATUS_state d p = ethUP then
      (s.advanceTo at_).flowTake d p pfc mask (fun c => quanta.getD (if pfc then c else 0) 0 % 65536)
    else s

/-- PAUSE_EXPIRY: the quanta of a stop have elapsed (R272). -/
def execPauseExpiry (d p c : Nat) (s : State) : Host.Outcome State Fault Refusal :=
  .next <|
    if s.get .ETH_stop d (p * 8 + c) = 0 then s
    else ((s.advanceTo (s.get .ETH_stop_until d (p * 8 + c))).set .ETH_stop 0 d (p * 8 + c)).set .ETH_stop_until 0 d (p * 8 + c)

/-- A frame sent whole is counted (Table ETH-5); `bytes` without FCS. -/
def State.txCount (s : State) (d p : Nat) (bytes : List Nat) : State :=
  let n := bytes.length + 4
  (((s.ethCount d p 32 n).ethCount d p 33 1).ethCount d p (34 + dstKind bytes) 1).ethCount d p (38 + lenBin n) 1

/-- Bytes padded to the smallest frame, without FCS (R454). -/
def padFrame (b : List Nat) : List Nat := b ++ List.replicate (60 - b.length) 0

/-- Bytes of a frame with its FCS. -/
def withFcs (b : List Nat) : List Nat := b ++ leBytes 4 (crc32 b)

/-- DT64 of the egress replica at which the timestamp point of a launch frame crosses the balls of its port, the transmit board delay
before launch_dt64 (R118, R130). -/
def State.launchBalls (s : State) (d p h : Nat) : Int :=
  Int.ofNat (s.get .PKT_launch 0 h) - sgn 16 (s.get .TSU_PORT_CAL_tx_board d p)

/-- Whether a frame of L bytes may start now: its occupancy ends before the preamble of every launch frame held for the port (R134,
R291). -/
def State.macFits (s : State) (d p len : Nat) : Bool :=
  (s.heldFrames d p).all (fun g => s.wireFits d (len + 20) (Int.ofNat (s.repNow (2 + d))) (s.launchBalls d p g))

/-- Whether a frame dispatched to the MAC is of a class that the port's partner has stopped: only a frame already started completes
(R272, R293). -/
def State.macStopped (s : State) (d p h : Nat) : Bool := decide (s.get .ETH_stop d (p * 8 + s.qClass d (s.get .PKT_queue 0 h)) = 1)

/-- Whether the MAC may start packet `h` now: it has passed the gate, its class is not stopped (R272), and it ends before the preamble of a
held launch frame (R134). -/
def State.macMay (s : State) (d p h : Nat) : Bool :=
  (decide (s.get .PKT_launch 0 h = 0) || s.gateOpen h) && !s.macStopped d p h &&
  s.macFits d p (s.get .PKT_L 0 h)

/-- The launch frame that the gate has let go and that the MAC may start, oldest first (R130, Table TSTP-6). -/
def State.macLaunch (s : State) (d p : Nat) : Option Nat :=
  (s.lget .mac d p).find? (fun h => decide (s.get .PKT_launch 0 h ≠ 0) && s.macMay d p h)

/-- The frame of its buffer that the MAC of a port would start: a launch frame that the gate has let go, else the oldest that it may. -/
def State.macNext (s : State) (d p : Nat) : Option Nat :=
  (s.macLaunch d p).or ((s.lget .mac d p).find? (fun h => s.macMay d p h))

/-- A PFC or PAUSE frame with `quanta` for class `c` leaves a port that is UP (R274, R486). -/
def State.flowEmit (s : State) (d p c quanta : Nat) : State :=
  let m := s.get .ETH_PORT_CFG_fc_mode d p
  if s.fatal ∨ s.get .PWR_fail = 1 ∨ s.get .ETH_PORT_STATUS_state d p ≠ ethUP ∨ (m ≠ 1 ∧ m ≠ 2) then s
  else
    let pfc := decide (s.get .ETH_PORT_CFG_fc_mode d p = 2)
    let body := [0x01, 0x80, 0xC2, 0, 0, 0x01] ++ beBytes 6 (Config.portMac d p) ++ [0x88, 0x08] ++
      (if pfc then [1, 1, 0, 2 ^ c] ++ (List.range 8).flatMap (fun k => beBytes 2 (if k = c then quanta else 0))
       else [0, 1] ++ beBytes 2 quanta)
    let b := padFrame body
    let s := ((s.emit .frame [d, p] (withFcs b)).txCount d p b).ethCount d p 37 1
    s.when pfc (fun s => s.ethCount d p (56 + c) 1)

/-- Whether a flow-control frame of 64 bytes may start now: no launch frame is due, and it ends before the preamble of a held one
(R274). -/
def State.flowMay (s : State) (d p : Nat) : Bool := (s.macLaunch d p).isNone && s.macFits d p 64

/-- A PFC or PAUSE frame is due: it goes ahead of all queued frames, but follows a held launch frame that it would overlap (R274). -/
def State.flowSend (s : State) (d p c quanta : Nat) : State :=
  if s.get .ETH_PORT_STATUS_state d p ≠ ethUP then s
  else if s.flowMay d p then (s.set .ETH_fc_wait 0 d (p * 8 + c)).flowEmit d p c quanta
  else s.set .ETH_fc_wait (quanta % 2 ^ 16 + 1) d (p * 8 + c)

/-- Class of the first flow-control frame that waits at a port and may start (R274). -/
def State.flowNext (s : State) (d p : Nat) : Option Nat :=
  if s.flowMay d p then (List.range 8).find? (fun c => decide (s.get .ETH_fc_wait d (p * 8 + c) ≠ 0)) else none

/-- Received frames that lie in the receive buffer of a port: those the parser has not taken (log entry 39). -/
def State.rxHeld (s : State) (d p : Nat) : List Nat :=
  ((s.keysOf .PKT_live).map (·.2)).filter (fun h => decide (s.get .PKT_live 0 h = 1 ∧ s.get .PKT_stage 0 h = 0 ∧
    s.get .PKT_in_region 0 h = 1 ∧ s.pktInPort h = 8 * d + p ∧ s.get .PKT_rxlen 0 h ≠ 0))

/-- Bytes of a class in the receive buffer of a port; `hr` counts its headroom alone. -/
def State.rxOcc (s : State) (d p c : Nat) (hr : Bool) : Nat :=
  (((s.rxHeld d p).filter (fun h => decide (s.get .PKT_rxcls 0 h = c) && (!hr || decide (s.get .PKT_rxhr 0 h = 1)))).map
    (fun h => s.get .PKT_rxlen 0 h)).sum

/-- Bytes in the shared pool of an IOD. -/
def State.poolUsed (s : State) (d : Nat) : Nat :=
  ((List.range 8).map (fun p => ((List.range 8).map (fun c => s.rxOcc d p c false - s.rxOcc d p c true)).sum)).sum

/-- Where a frame of `n` bytes of a class finds room: 0 the shared pool, 1 the class's headroom, none nowhere (R275). -/
def State.rxRoom (s : State) (d p c n : Nat) : Option Nat :=
  let pool := decide (s.poolUsed d + n ≤ 2 ^ 22 - min (2 ^ 21) (s.hrTotal d))
  let room := s.lossless d p c && decide (s.rxOcc d p c true + n ≤ s.hrGrant d p c)
  if s.lossless d p c && decide (s.get .ETH_PFC_CLASS_xoff_thr d (p * 8 + c) * 1024 < s.rxOcc d p c false) then
    (if room then some 1 else if pool then some 0 else none)
  else if pool then some 0 else if room then some 1 else none

/-- Occupancy that the XOFF rule of a class looks at: the class's under PFC, the port's under PAUSE (R274). -/
def State.xoffOcc (s : State) (d p c : Nat) : Nat :=
  if s.get .ETH_PORT_CFG_fc_mode d p = 1 then ((List.range 8).map (fun k => s.rxOcc d p k false)).sum else s.rxOcc d p c false

/-- Whether the XOFF rule acts for class `c` of a port: a lossless one under PFC, class 0 for the whole port under PAUSE (R274). -/
def State.xoffOn (s : State) (d p c : Nat) : Bool :=
  let m := s.get .ETH_PORT_CFG_fc_mode d p
  decide (m = 1 ∧ c = 0) || (decide (m = 2) && s.lossless d p c)

/-- A class beyond its xoff_thr is stopped at the partner (R274); under PAUSE class 0's fields act for the port. -/
def State.xoffCheck (s : State) (d p c0 : Nat) : State :=
  let c := if s.get .ETH_PORT_CFG_fc_mode d p = 1 then 0 else c0
  if s.xoffOn d p c ∧ s.get .ETH_xoff d (p * 8 + c) = 0 ∧
      s.get .ETH_PFC_CLASS_xoff_thr d (p * 8 + c) * 1024 < s.xoffOcc d p c then
    ((s.set .ETH_xoff 1 d (p * 8 + c)).set .ETH_xoff_at s.now d (p * 8 + c)).flowSend d p c 0xFFFF
  else s

/-- After a write of a port's flow control the XOFF rule acts for the classes that it now covers and for no other; a flow-control frame that
waited for a class it no longer covers is not sent (R274). -/
def State.xoffCfg (s : State) (d p : Nat) : State :=
  s.each (List.range 8) (fun c s =>
    if s.xoffOn d p c then s.xoffCheck d p c
    else ((s.set .ETH_xoff 0 d (p * 8 + c)).set .ETH_xoff_at 0 d (p * 8 + c)).set .ETH_fc_wait 0 d (p * 8 + c))

/-- PFC_REFRESH: below xoff_thr − xon_gap quanta 0 are sent; above it the stop is repeated 20 µs after the last (R274). -/
def execPfcRefresh (d p c : Nat) (s : State) : Host.Outcome State Fault Refusal :=
  .next <|
    let i := p * 8 + c
    if s.get .ETH_xoff d i = 0 then s
    else if s.xoffOcc d p c < (s.get .ETH_PFC_CLASS_xoff_thr d i - s.get .ETH_PFC_CLASS_xon_gap d i) * 1024 then
      ((s.set .ETH_xoff 0 d i).set .ETH_xoff_at 0 d i).flowSend d p c 0
    else
      let s := s.advanceTo (s.get .ETH_xoff_at d i + 20 * usUnits)
      (s.set .ETH_xoff_at s.now d i).flowSend d p c 0xFFFF

/-- IV of MACsec: SCI and PN, or under XPN SSCI and PN exclusive-or the salt (IEEE 802.1AE-2018). -/
def msecIv (suite sci ssci pn : Nat) (salt : List Nat) : List Nat :=
  if suite < 2 then beBytes 8 sci ++ beBytes 4 pn
  else beBytes 12 ((ssci % 2 ^ 32 * 2 ^ 64 + pn % 2 ^ 64) ^^^ beNat ((salt ++ List.replicate 12 0).take 12))

/-- Confidentiality offset in bytes. -/
def confOff (v : Nat) : Nat := match v with | 1 => 30 | 2 => 50 | _ => 0

/-- Key and salt bytes of an SA's material under a suite (R387). -/
def msecKey (suite : Nat) (mat : List Nat) : List Nat × List Nat :=
  let n := if suite % 2 = 0 then 16 else 32
  (mat.take n, mat.drop n)

/-- SA instance of a port: 0 to 3 transmit, 4 + 4s + an receive. -/
def saIx (p a : Nat) : Nat := p * 132 + a

/-- SA_VALID_WRITE: valid written 1: the key of the SA's slot is loaded over the key bus; a masked slot is refused (R281, R389,
R398). -/
def State.saValid (s : State) (d p a : Nat) : State :=
  let i := saIx p a
  let k := s.get .ETH_MSEC_SA_key_slot d i
  let s := ((s.set .ETH_MSEC_SA_valid 1 d i).set .ETH_sa_key 0 d i).lset .saKey [] d i
  if attrValid (s.slotAttr k) && attrMasked (s.slotAttr k) then s.bump .KEY_STAT_load_refused
  else match s.keyFetch k with
    | (s, some m) => (s.set .ETH_sa_key 1 d i).lset .saKey m d i
    | (s, none) => s

/-- SA_VALID_WRITE. -/
def execSaValidWrite (d p a : Nat) (s : State) : Host.Outcome State Fault Refusal :=
  .next (if s.portOk d p then s.saValid d p a else s)

/-- An SA made invalid gives its key up (R398). -/
def State.saInvalid (s : State) (d p a : Nat) : State :=
  ((s.set .ETH_MSEC_SA_valid 0 d (saIx p a)).set .ETH_sa_key 0 d (saIx p a)).lset .saKey [] d (saIx p a)

/-- What MACsec makes of a received frame: passed with these bytes, counted or not, or dropped (R281, R283; log entry 40). -/
inductive MsecRx where
  | pass (bytes : List Nat) (count : Bool)
  | drop

/-- Receive SC that a SecTAG names (R283; IEEE 802.1AE-2018): by SCI, by source address under ES, else the lowest enabled. -/
def State.msecSc (s : State) (d p : Nat) (b : List Nat) : Option Nat :=
  let tci := b.getD 14 0
  let on := (List.range 32).filter (fun x => decide (s.get .ETH_MSEC_RXSC_enable d (p * 32 + x) = 1))
  if tci.testBit 5 then on.find? (fun x => decide (s.get .ETH_MSEC_RXSC_sci d (p * 32 + x) = beNat (slice b 20 8)))
  else if tci.testBit 6 then on.find? (fun x => decide (s.get .ETH_MSEC_RXSC_sci d (p * 32 + x) = beNat (slice b 6 6) * 65536 + 1))
  else on.head?

/-- Full packet number of a received frame. Under XPN its upper half is that of the lowest acceptable PN, plus 1 where that has its bit 31 set
and the received one has not (IEEE 802.1AE-2018; log entry 40). -/
def msecPn (suite low pn : Nat) : Nat :=
  if suite < 2 then pn
  else (low / 2 ^ 32 + b2n (low.testBit 31 && !pn.testBit 31)) * 2 ^ 32 + pn

/-- Whether a frame's SecTAG is valid (IEEE 802.1AE-2018; log entry 40): version 0, no SC with ES or SCB, SL below 48, the frame long enough
for SL, or without one for 48 octets, of secure data, and, but under XPN, a PN other than 0. -/
def secTagOk (suite tag : Nat) (b : List Nat) : Bool :=
  let tci := b.getD 14 0
  let sl := b.getD 15 0
  !tci.testBit 7 && !(tci.testBit 5 && (tci.testBit 6 || tci.testBit 4)) && decide (sl < 48) &&
  decide (12 + tag + (if sl = 0 then 48 else sl) + 16 ≤ b.length) && (decide (2 ≤ suite) || decide (beAt b 16 4 ≠ 0))

/-- MACsec verification of a received frame, without FCS (R280, R281, R283). A frame whose SecTAG gives a short length ends at its ICV; what
follows is padding. -/
def State.msecRx (s : State) (d p : Nat) (b : List Nat) : State × MsecRx :=
  let v := s.get .ETH_MSEC_CFG_validate d p
  if s.get .ETH_PORT_CFG_macsec_en d p = 0 then (s, .pass b false)
  else if slice b 12 2 ≠ [0x88, 0xE5] then (s, if v = 0 ∨ v = 1 then .pass b false else .drop)
  else if v = 0 then (s, .pass b false)
  else
    let bad : MsecRx := if v = 1 then .pass b true else .drop
    let tci := b.getD 14 0
    let tag := if tci.testBit 5 then 16 else 8
    let b := if b.getD 15 0 = 0 then b else b.take (12 + tag + b.getD 15 0 + 16)
    if !secTagOk (s.get .ETH_MSEC_CFG_suite d p) tag b then (s, bad) else
    match s.msecSc d p b with
    | none => (s, bad)
    | some x =>
      let i := saIx p (4 + 4 * x + tci % 4)
      if s.get .ETH_MSEC_SA_valid d i = 0 then (s, bad)
      else if s.get .ETH_sa_key d i = 0 then (s, .drop)
      else
        let suite := s.get .ETH_MSEC_CFG_suite d p
        let low := s.get .ETH_MSEC_SA_pn d i
        let pn := msecPn suite low (beNat (slice b 16 4))
        if pn < low then (s, bad)
        else
          let (key, salt) := msecKey suite (s.lget .saKey d i)
          let iv := msecIv suite (s.get .ETH_MSEC_RXSC_sci d (p * 32 + x)) (s.get .ETH_MSEC_SA_ssci d i) pn salt
          let off := if tci.testBit 3 then confOff (s.get .ETH_MSEC_CFG_conf_off d p) else b.length - 28 - tag
          let body := b.drop (12 + tag)
          let n := body.length - 16
          let aad := b.take (12 + tag) ++ (body.take n).take off
          let ct := (body.take n).drop off
          if s.get .ETH_kat_fail d = 0 ∧ Config.verifies algGcmOpen [key, iv, aad, ct, body.drop n] then
            let pt := (Config.crypto algGcmOpen [key, iv, aad, ct] ++ List.replicate ct.length 0).take ct.length
            let win := s.get .ETH_MSEC_CFG_replay_win d p + s.get .ETH_MSEC_SA_replay_win_hi d i * 2 ^ 22
            (s.set .ETH_MSEC_SA_pn (max low (pn + 1 - win)) d i, .pass (b.take 12 ++ (body.take n).take off ++ pt) false)
          else (s, bad)

/-- The transmit SA protects a frame, without FCS; none when the frame is dropped (R281, R282). -/
def State.msecTx (s : State) (d p : Nat) (b : List Nat) : State × Option (List Nat) :=
  if s.get .ETH_PORT_CFG_macsec_en d p = 0 then (s, some b)
  else
    let an := s.get .ETH_MSEC_CFG_tx_an d p
    let i := saIx p an
    let suite := s.get .ETH_MSEC_CFG_suite d p
    let pn := s.get .ETH_MSEC_SA_pn d i
    if s.get .ETH_MSEC_SA_valid d i = 0 ∨ s.get .ETH_sa_key d i = 0 ∨ s.get .ETH_sc_drop d (p * 4 + an) = 1 ∨
        s.get .ETH_kat_fail d = 1 then
      (s.ethCount d p 47 1, none)
    else if suite < 2 ∧ 2 ^ 32 ≤ pn then ((s.set .ETH_sc_drop 1 d (p * 4 + an)).ethCount d p 47 1, none)
    else
      let sci := Config.portMac d p * 65536 + 1
      let sc := s.get .ETH_MSEC_CFG_send_sci d p = 1
      let (key, salt) := msecKey suite (s.lget .saKey d i)
      let iv := msecIv suite sci (s.get .ETH_MSEC_SA_ssci d i) pn salt
      let pl := b.drop 12
      let tag := [0x88, 0xE5, (if sc then 0x20 else 0x40) + 0x0C + an, if pl.length < 48 then pl.length else 0] ++ beBytes 4 pn ++
        (if sc then beBytes 8 sci else [])
      let off := confOff (s.get .ETH_MSEC_CFG_conf_off d p)
      let aad := b.take 12 ++ tag ++ pl.take off
      let ct := (Config.crypto algGcmSeal [key, iv, aad, pl.drop off] ++ List.replicate (pl.length - off + 16) 0).take
        (pl.length - off + 16)
      let s := if pn + 1 = 2 ^ 64 then s.set .ETH_sc_drop 1 d (p * 4 + an) else s.set .ETH_MSEC_SA_pn (pn + 1) d i
      let s := s.when (decide (s.get .ETH_MSEC_SA_pn_warn d i ≤ pn + 1)) (·.set .ETH_MSEC_CFG_pn_warn_hit 1 d p)
      (s, some (aad ++ ct))

/-- Traffic class of a received frame: the priority of its outermost VLAN tag, 0 without (log entry 41). -/
def rxClass (b : List Nat) : Nat :=
  if beAt b 12 2 = 0x8100 ∨ beAt b 12 2 = 0x88A8 then b.getD 14 0 / 32 else 0

/-- Outermost VLAN ID of a frame, if tagged. -/
def frameVid (b : List Nat) : Option Nat :=
  if beAt b 12 2 = 0x8100 ∨ beAt b 12 2 = 0x88A8 then some (beAt b 14 2 % 4096) else none

/-- Whether a frame passes the VLAN mode of an NC-SI channel (DSP0222). -/
def State.ncsiVlan (s : State) (n : Nat) (b : List Nat) : Bool :=
  match s.get .NCSI_vmode 0 n, frameVid b with
  | 0, v => v.isNone
  | 1, v => match v with
    | none => false
    | some x => (List.range 2).any (fun k => decide (s.get .NCSI_vlan_en 0 (n * 2 + k) = 1 ∧ s.get .NCSI_vlan 0 (n * 2 + k) % 4096 = x))
  | 2, v => match v with
    | none => true
    | some x => (List.range 2).any (fun k => decide (s.get .NCSI_vlan_en 0 (n * 2 + k) = 1 ∧ s.get .NCSI_vlan 0 (n * 2 + k) % 4096 = x))
  | _, _ => true

/-- What a channel's filters say of a frame: 0 nothing, 1 unicast match, 2 broadcast or multicast match (R291, DSP0222). A class of
broadcast or multicast frames is passed when its setting is on or its filter is disabled. -/
def State.ncsiMatch (s : State) (n : Nat) (b : List Nat) : Nat :=
  if s.get .NCSI_en 0 n = 0 ∨ !s.ncsiVlan n b then 0
  else if (List.range 8).any (fun k => decide (s.get .NCSI_mac_en 0 (n * 8 + k) = 1 ∧ s.get .NCSI_mac 0 (n * 8 + k) = beAt b 0 6)) then
    (if b.headD 0 % 2 = 0 then 1 else 2)
  else if dstKind b = 2 then
    let et := beAt b 12 2
    let u := b.drop 14
    let udp := decide (et = 0x0800 ∧ u.getD 9 0 = 17)
    let port := beAt u (4 * (u.getD 0 0 % 16) + 2) 2
    let set := s.get .NCSI_bc_set 0 n
    if s.get .NCSI_bc 0 n = 0 ∨ (et = 0x0806 ∧ set.testBit 0) ∨ (udp ∧ port = 68 ∧ set.testBit 1) ∨ (udp ∧ port = 67 ∧ set.testBit 2) ∨
        (udp ∧ (port = 137 ∨ port = 138) ∧ set.testBit 3) then 2 else 0
  else if dstKind b = 1 then
    let et := beAt b 12 2
    let u := b.drop 14
    let icmp := decide (et = 0x86DD ∧ u.getD 6 0 = 58)
    let ty := u.getD 40 0
    let dhcp := fun (port : Nat) => decide (et = 0x86DD ∧ u.getD 6 0 = 17 ∧ beAt u 42 2 = port)
    let set := s.get .NCSI_mc_set 0 n
    if s.get .NCSI_mc 0 n = 0 ∨ (icmp ∧ ty = 136 ∧ set.testBit 0) ∨ (icmp ∧ ty = 134 ∧ set.testBit 1) ∨ (dhcp 547 ∧ set.testBit 2) ∨
        (dhcp 546 ∧ set.testBit 3) ∨ (icmp ∧ (ty = 130 ∨ ty = 131 ∨ ty = 132 ∨ ty = 143) ∧ set.testBit 4) ∨ (icmp ∧ ty = 135 ∧ set.testBit 5) then 2 else 0
  else 0

/-- Whether CK_NCSI is present and the interface's outputs are not parked (R292, R561). -/
def State.ncsiClk (s : State) : Bool := s.getb .XD_CLK_DIE_PRESENT_present 16 0 2 && decide (s.get .PWR_fail = 0)

/-- Delivery of a frame to the management controller (R291, R292): the state, and whether steering still gets it. -/
def State.ncsiRx (s : State) (d p : Nat) (b : List Nat) : State × Bool :=
  match s.ncsiMatch (8 * d + p) b with
  | 0 => (s, true)
  | m =>
    if s.ncsiClk then (((s.emit .msg [1, 8 * d + p] b).ethCount d p 23 1).bump .NCSI_pt_rx 0 (8 * d + p), decide (m = 2))
    else ((s.bump .ETH_NCSI_STAT_ncsi_drops).bump .NCSI_pt_rxdrop 0 (8 * d + p), decide (m = 2))

/-- Flow control carried in a frame: PFC, class mask and quanta; none in any other frame (IEEE 802.3 Annex 31B, IEEE 802.1Qbb). -/
def flowFrame (b : List Nat) : Option (Bool × Nat × List Nat) :=
  if slice b 0 6 = [0x01, 0x80, 0xC2, 0, 0, 0x01] ∧ beAt b 12 2 = 0x8808 then
    if beAt b 14 2 = 1 then some (false, 0xFF, List.replicate 8 (beAt b 16 2))
    else if beAt b 14 2 = 0x0101 then some (true, b.getD 17 0, (List.range 8).map (fun c => beAt b (18 + 2 * c) 2))
    else none
  else none

/-- A port timestamp of replica value `t`: at 0.25 ns, or, without the TSU clock, at 1 ns (R117, R121), to which it is rounded down
(DESIGN CHOICE, log entry 157). -/
def State.tsuStamp (s : State) (d t : Nat) : Nat := if s.get .TSU_tdc d = 1 then t / 4 * 4 else t

/-- Ingress timestamp tuple of a frame received now (Table TSTP-3, R117 to R123): the instant at the package balls less the receive
board delay. -/
def State.rxTuple (s : State) (d p : Nat) : Nat :=
  tupleOf (unsgn 64 (Int.ofNat (s.tsuStamp d (s.repNow (2 + d))) - sgn 16 (s.get .TSU_PORT_CAL_rx_board d p)))
    (s.repUnc (2 + d) (s.portErr d p)) (s.tsMarks d p)

/-- A frame of `wire` bytes as received that passed the MAC's checks is counted, takes its place in the receive buffer and goes to steering
(R209, R271, R275). -/
def State.rxPass (s : State) (d p : Nat) (b : List Nat) (tuple wire : Nat) : State :=
  let n := b.length + 4
  let c := rxClass b
  match s.rxRoom d p c n with
  | none => s.ethCount d p 22 1
  | some r =>
    let (s, on) := s.ncsiRx d p b
    if !on then s
    else
      let s := (((s.ethCount d p 0 n).ethCount d p 1 1).ethCount d p (2 + dstKind b) 1).ethCount d p (6 + lenBin n) 1
      let h := s.newHandle
      let s := (((s.newPkt b (freshMeta (8 * d + p) 0)).setMeta h 416 96 tuple).set .PKT_rxlen n 0 h).set .PKT_rxcls c 0 h
      (((s.set .PKT_rxhr r 0 h).set .PKT_wire wire 0 h).steerPkt h (8 * d + p)).xoffCheck d p c

/-- The MAC's checks of a received frame, in the order of R271; `b` runs from the destination address through the FCS. -/
def State.macRx (s : State) (d p : Nat) (sym : Bool) (b : List Nat) : State :=
  let n := b.length
  let data := b.take (n - 4)
  let mx := s.maxFrame d p
  let tuple := s.rxTuple d p
  if sym then s.ethCount d p 18 1
  else if n < 4 ∨ leNat (b.drop (n - 4)) ≠ crc32 data then
    s.ethCount d p (if n < 64 then 16 else if mx + 1024 < n then 17 else 13) 1
  else if n < 64 then s.ethCount d p 14 1
  else if mx < n then s.ethCount d p 15 1
  else match s.msecRx d p data with
    | (s, .drop) => s.ethCount d p 21 1
    | (s, .pass x cnt) =>
      let s := s.when cnt (fun s => s.ethCount d p 21 1)
      match flowFrame x with
      | some (pfc, mask, q) => s.flowTake d p pfc mask (fun c => q.getD c 0)
      | none => s.rxPass d p x tuple n

/-- FEC codewords that the port corrected and could not correct are counted (R284). -/
def State.fecCount (s : State) (d p corr uncorr : Nat) : State :=
  let s := if corr = 0 then s else s.ethCount d p 19 corr
  if uncorr = 0 then s else s.ethCount d p 20 uncorr

/-- FRAME_RECEIVE: a frame arrives whole on an UP port of IOD `d`, its message timestamp point at the package balls at `at`; `sym` tells of
symbol errors, `corr` and `uncorr` count the codewords since the frame before that FEC corrected and could not (R271, R284, R117 to R123, R178
to R182). -/
def execFrameReceive (d p at_ : Nat) (sym : Bool) (bytes : List Nat) (corr uncorr : Nat) (s : State) : Host.Outcome State Fault Refusal :=
  .next <|
    if s.portOk d p ∧ s.get .ETH_PORT_STATUS_state d p = ethUP then ((s.advanceTo at_).fecCount d p corr uncorr).macRx d p sym bytes else s

/-- Ones' complement sum of a byte list taken as 16-bit words. -/
def ocSum : List Nat → Nat
  | a :: b :: r => a * 256 + b + ocSum r
  | [a] => a * 256
  | [] => 0

/-- Sixteen bits of a ones' complement sum. -/
def fold16 (n : Nat) : Nat := if n = 0 then 0 else (n - 1) % 65535 + 1

/-- The UDP checksum of a frame made right for a changed payload: `o` the offset of the UDP header, `old` and `new` the bytes from
there (R126, RFC 1624). -/
def udpFix (v4 : Bool) (old new : List Nat) : List Nat :=
  let c := beAt old 6 2
  if v4 && decide (c = 0) then new
  else
    let m := fold16 ((65535 - c) + (65535 * (old.length + 1) - ocSum old) + ocSum new)
    let c' := 65535 - m
    splice new 6 (beBytes 2 (if c' = 0 then 65535 else c'))

/-- The correctionField of the PTP header at `off` raised by `add` units of 2^-16 ns, with its UDP checksum (R126, R127). -/
def ptpCorrect (b : List Nat) (off add : Nat) : List Nat :=
  let cf := (beNat (slice b (off + 8) 8) + add) % 2 ^ 64
  let n := splice b (off + 8) (beBytes 8 cf)
  let (et, _, pl) := vlanSkip 2 none (b.drop 12)
  match ipLayer et pl with
  | some i =>
    let o := b.length - i.rest.length
    if i.proto = 17 ∧ !i.frag ∧ o + 8 ≤ off then n.take o ++ udpFix (decide (et = 0x0800)) (b.drop o) (n.drop o) else n
  | none => n

/-- Difference of two DT64 values, later less earlier, modulo 2^64 (R77). -/
def dtDiff (a b : Nat) : Nat := (a + 2 ^ 64 - b) % 2 ^ 64

/-- The PTP operation of a frame that leaves at `tx` (Table TSTP-5, R127, R128): its bytes, and whether the insertion failed. twoStepFlag is
not looked at, and a message with ts_op 0, as a Follow_Up, leaves unchanged (R129). A reserved ts_op and a PTP header that runs past the
frame's end fail as R128's cases do, which the spec does not say in so many words (DESIGN CHOICE, log entry 157). -/
def State.oneStep (s : State) (h tx : Nat) (b : List Nat) : List Nat × Bool :=
  let op := s.tsOp h
  let off := s.ptpOff h
  let rx := s.meta_ h 416 64
  let ip := s.pktInPort h
  let ty := b.getD off 0 % 16
  let fit := decide (off + 16 ≤ b.length)
  if op = 0 then (b, false)
  else if op = 1 then
    let org := dt64Of (fullTime (beNat (slice b (off + 34) 6)) (beNat (slice b (off + 40) 4)) 0)
    if off + 44 ≤ b.length ∧ dtDiff tx org < secUnits then (ptpCorrect b off (dtDiff tx org * 16384), false) else (b, true)
  else if op ≤ 3 then
    let pd := if op = 3 ∧ (ty = 0 ∨ ty = 8) ∧ ip < 16 then s.get .TSU_PEER_DELAY (ip / 8) (ip % 8) else 0
    if fit ∧ rx ≠ 0 ∧ dtDiff tx rx < secUnits then (ptpCorrect b off ((dtDiff tx rx + pd) * 16384), false) else (b, true)
  else (b, true)

/-- Egress timestamp of a frame that the MAC starts now: its timestamp point, the first symbol after the SFD, passes the balls 8 bytes
of wire time later, and the connector the transmit board delay after that (R118). -/
def State.txStamp (s : State) (d p : Nat) : Nat :=
  unsgn 64 (Int.ofNat (s.tsuStamp d (s.repNow (2 + d) + s.wireTime d 8)) + sgn 16 (s.get .TSU_PORT_CAL_tx_board d p))

/-- A frame takes its egress timestamp, its PTP operation and MACsec: its bytes without FCS, or none when MACsec drops it (R117 to
R128, R282). -/
def State.macBytes (s : State) (d p h : Nat) : State × Option (List Nat) :=
  let tx := s.txStamp d p
  let (b, bad) := s.oneStep h tx (padFrame (s.lget .pktBytes 0 h))
  let s := s.when bad (fun s => s.bump .TSU_PORT_ERR_onestep_fail d p)
  let fl := s.tsMarks d p + 4 + s.get .PKT_tsflags 0 h + 32 * b2n bad
  let s := ((s.set .PKT_dt64 tx 0 h).set .PKT_unc (s.repUnc (2 + d) (s.portErr d p)) 0 h).set .PKT_tsflags fl 0 h
  s.msecTx d p b

/-- Whether the MAC of a port can send: UP, its outputs not parked (R561), its IOD not in DEVICE_FATAL (R534). -/
def State.macUp (s : State) (d p : Nat) : Bool :=
  s.portOk d p && decide (s.get .ETH_PORT_STATUS_state d p = ethUP ∧ s.get .PWR_fail = 0) && !s.fatal

/-- The first frame that waits in a port's list from the management controller, and the rest (R291). -/
def ncsiHead (l : List Nat) : List Nat × List Nat := ((l.drop 1).take (l.headD 0), (l.drop 1).drop (l.headD 0))

/-- Whether a frame of the management controller can start on a port now. -/
def State.ncsiMay (s : State) (d p : Nat) : Bool :=
  decide (s.lget .ncsiTx d p ≠ []) && (s.macLaunch d p).isNone && s.macFits d p (s.frameL d p (ncsiHead (s.lget .ncsiTx d p)).1.length)

/-- The first frame of the management controller is sent (R291). -/
def State.ncsiSend (s : State) (d p : Nat) : State :=
  let (b, r) := ncsiHead (s.lget .ncsiTx d p)
  match (s.lset .ncsiTx r d p).msecTx d p (padFrame b) with
  | (s, none) => s.bump .NCSI_pt_txdrop 0 (8 * d + p)
  | (s, some x) =>
    (((s.emit .frame [d, p] (withFcs x)).txCount d p x).ethCount d p 48 1).bump .NCSI_pt_tx 0 (8 * d + p)

/-- The MAC of a port starts packet `h` of its buffer now and sends it whole. -/
def State.macSend (s : State) (d p h : Nat) : State :=
  let s := s.lset .mac ((s.lget .mac d p).erase h) d p
  match s.macBytes d p h with
  | (s, none) => (s.set .PKT_dt64 0 0 h).dropPkt h reasonMACSEC
  | (s, some b) =>
    let s := ((s.emit .frame [d, p] (withFcs b)).txCount d p b).silLeft h
    (s.txFate h 0 0 0).freePkt h

/-- DTS brought forward to the instant at which the CK_TS replica of die `d` reads `t`. -/
def State.advanceRep (s : State) (d : Nat) (t : Nat) : State :=
  if t ≤ s.repNow d then s
  else if s.get .REP_apart 0 d = 1 then s.advanceTo (s.now + (t - s.repNow d))
  else s.advanceTo t

/-- LAUNCH_RELEASE: of the frames held for the port, the one that launches first is released and started 8 bytes of wire time before its
timestamp point is to cross, at launch_dt64 of the egress replica, the reference plane (R118, R130). One whose class is stopped at that
instant starts after the stop, as R272 lets no frame of the class start (DESIGN CHOICE, log entry 161). -/
def execLaunchRelease (d p : Nat) (s : State) : Host.Outcome State Fault Refusal :=
  .next <|
    match s.firstLaunch (s.heldFrames d p) with
    | none => s
    | some h =>
      let s := (s.advanceRep (2 + d) (s.launchBalls d p h - Int.ofNat (s.wireTime d 8)).toNat).set .PKT_gate 2 0 h
      if s.macUp d p && !s.macStopped d p h then s.macSend d p h else s

/-- MAC_FRAME_START: at `at` the MAC of a port starts its next frame and sends it whole (R276, R277). After a launch frame that is due,
flow-control frames go first (R274), then those of the management controller (R291). -/
def execMacFrameStart (d p at_ : Nat) (s : State) : Host.Outcome State Fault Refusal :=
  .next <|
    if !s.macUp d p then s
    else
      let s := s.advanceTo at_
      match s.flowNext d p with
      | some c => s.flowSend d p c (s.get .ETH_fc_wait d (p * 8 + c) - 1)
      | none =>
      if s.ncsiMay d p then s.ncsiSend d p
      else match s.macNext d p with
      | none => s
      | some h => s.macSend d p h

/-- TX_UNDERRUN: the frame being started runs out of data after `k` bytes: it ends with the inverted FCS of the bytes sent, the rest
is discarded and the threshold rises (R278). Frames that R277 buffers whole, and those no longer than the threshold, cannot
underrun. -/
def execTxUnderrun (d p k at_ : Nat) (s : State) : Host.Outcome State Fault Refusal :=
  .next <|
    if !s.macUp d p then s
    else
      let s := s.advanceTo at_
      match s.macNext d p with
      | none => s
      | some h =>
        let thr := s.get .ETH_PORT_STATUS_threshold d p
        if s.get .PKT_launch 0 h ≠ 0 ∨ s.tsOp h ≠ 0 ∨ k < 64 * thr ∨ s.get .PKT_L 0 h ≤ k + 4 then s
        else
          let s := s.lset .mac ((s.lget .mac d p).erase h) d p
          match s.macBytes d p h with
          | (s, none) => (s.set .PKT_dt64 0 0 h).dropPkt h reasonMACSEC
          | (s, some b) =>
            let s := s.emit .frame [d, p] (b.take k ++ leBytes 4 (0xFFFFFFFF - crc32 (b.take k)))
            let s := (s.ethCount d p 45 1).set .ETH_PORT_STATUS_threshold (min (thr + 2) 64) d p
            (s.set .PKT_dt64 0 0 h).dropPkt h reasonUNDERRUN

/-- Bytes of wake pattern `k`. -/
def State.wakePat (s : State) (d k : Nat) : List Nat :=
  (List.range 32).flatMap (fun j => leBytes 4 (s.get .ETH_WAKE_PAT_word d (k * 32 + j)))

/-- Whether pattern `k` matches a frame (R287). -/
def State.wakeHit (s : State) (d k : Nat) (f : List Nat) : Bool :=
  let pat := s.wakePat d k
  (List.range 128).all (fun b =>
    !(s.get .ETH_WAKE_PAT_mask d (k * 4 + b / 32)).testBit (b % 32) || (decide (b < f.length) && decide (f.getD b 0 = pat.getD b 0)))

/-- Whether a frame holds the magic packet of an address (R287). -/
def magicIn (mac : Nat) : List Nat → Bool
  | [] => false
  | x :: r =>
    decide ((x :: r).take 102 = List.replicate 6 0xFF ++ (List.range 16).flatMap (fun _ => beBytes 6 mac)) || magicIn mac r

/-- PEn_WAKE_N is driven low (R288). -/
def State.wakeDrive (s : State) (e : Nat) : State := (s.set .PIN_wake 1 e).emit .pin [16 + e, 0]

/-- WAKE_FRAME_RECEIVE: the wake link of IOD `d` receives a frame while the main rails are removed: the first match is latched and
drives PEn_WAKE_N low (R287, R288, R564). -/
def execWakeFrameReceive (d : Nat) (bytes : List Nat) (s : State) : Host.Outcome State Fault Refusal :=
  .next <|
    let n := bytes.length
    let f := bytes.take 1518
    if s.get .ETH_WAKE_CFG_wake_en d = 0 ∨ s.get .PWR_main = 1 ∨ s.get .PWR_vaux = 0 ∨ s.get .ETH_WAKE_STATUS_woke d = 1 ∨
        !s.getb .XD_CLK_DIE_PRESENT_present 15 0 (2 + d) then s
    else if n < 4 ∨ leNat (bytes.drop (n - 4)) ≠ crc32 (bytes.take (n - 4)) then s
    else
      let magic := decide (s.get .ETH_WAKE_CFG_magic_en d = 1) && magicIn (s.get .ETH_WAKE_MAC d) f
      let pat := (List.range 8).find? (fun k => s.getb .ETH_WAKE_CFG_pat_en k d && s.wakeHit d k f)
      if magic then
        (((s.set .ETH_WAKE_STATUS_woke 1 d).set .ETH_WAKE_STATUS_by_magic 1 d).set .ETH_WAKE_STATUS_pattern 0 d).wakeDrive d
      else match pat with
        | some k => (((s.set .ETH_WAKE_STATUS_woke 1 d).set .ETH_WAKE_STATUS_by_magic 0 d).set .ETH_WAKE_STATUS_pattern k d).wakeDrive d
        | none => s

end Sys2Proof.Machine
end

