-- ==== Sys2Proof/Machine/Images.lean ====
section
/-! DEFINITION. The commands on structure images and the events that follow them: spec file 05, rules R154 to R177. -/

namespace Sys2Proof.Machine

/-- STAGE: refused while a region is not STABLE, the slot empty or its clock absent (R159, R529); else the manifest is read and
checks 1 to 5 made before any block is fetched (R514), and the command goes on (R158). -/
def execStage (s : State) : Host.Outcome State Fault Refusal :=
  .next (s.strCmd (fun s =>
    let man := s.lget .partManifest 0 (s.slotPart 2)
    if !s.regionsIn 0xFF (fun st => decide (st = 0)) then s.strDone 1 3 0
    else if s.get .STR_SLOT_empty 0 2 = 1 then s.strDone 1 0xF 0
    else if !s.flashOk then s.strDone 1 5 0xFFFF
    else
      let v := (s.imageValid man (s.slotImg 2) 3 0x2000000).1
      if v ≠ 0 ∧ v ≠ 6 then (s.strDone 1 4 0).set .STR_EVENTS_stage_fail 1 else s.strBusy 1))

/-- An image that passed is staged: contexts of the changed regions, common sections, masks; the watchdog waits for the first flip
(R158, R173). `s` has the new table instances already, `ti` gives the instance of each table. -/
def State.stageLoad (s : State) (act l : List Sec) (ti : Nat → Nat) : State :=
  let mask := changedMask act l
  let s := s.each (bitList 8 mask) (fun n s =>
    (s.loadCtx l n (1 - s.get .STR_REGION_STATE_epoch 0 n) ti).set .STR_REGION_STATE_state 1 0 n)
  let s := s.loadCommon l (1 - s.get .STR_common_ctx)
  let s := (((s.set .STR_STATUS_changed_mask mask).set .STR_STATUS_staged_valid 1).set .STR_wdog_wait 1).slotShow 2
  (s.bankStat).strDone 1 0 0

/-- STAGE_COMPLETE: every check passes and the inactive contexts of the changed regions and the new table instances are written,
or none is (R158). -/
def execStageComplete (s : State) : Host.Outcome State Fault Refusal :=
  .next <|
    if s.get .STR_CMD_STATUS_busy = 0 ∨ s.get .STR_CMD_STATUS_last_op ≠ 1 then s
    else
      let fail := fun (r d : Nat) => (s.strDone 1 r d).set .STR_EVENTS_stage_fail 1
      match s.imageVerify 2 true with
      | some (r, d) => fail r d
      | none =>
        let act := s.activeSecs
        let l := secsOf (s.slotImg 2)
        if !(carriedTables act l).all (s.initFits l) then fail 8 0
        else match s.makeTables act l (rebuiltTables act l) with
        | none => fail 8 0
        | some s1 => s1.stageLoad act l (s.newTi act l)

/-- Whether a mask splits the regions, old or new, of a rebuilt table (R163). -/
def shardSplit (act l : List Sec) (mask : Nat) : Bool :=
  (rebuiltTables act l).any (fun t =>
    let set := laySet (layOf act t) ||| laySet (layOf l t)
    decide (set &&& mask ≠ 0 ∧ set &&& mask ≠ set))

/-- SWAP: the flip of the named regions is set for STR_SWAP_AT, or for acceptance plus 10 µs where that is 0 or sooner (R160,
R163, R164). -/
def execSwap (mask : Nat) (s : State) : Host.Outcome State Fault Refusal :=
  .next (s.strCmd (fun s =>
    let act := s.activeSecs
    let l := secsOf (s.slotImg 2)
    let at_ := s.get .STR_SWAP_AT
    if !s.regionsIn mask (fun st => decide (st = 1)) then s.strDone 2 3 0
    else if shardSplit act l mask then s.strDone 2 0xB 0
    else if commonDiffers act l && decide (mask % 256 ≠ s.get .STR_STATUS_changed_mask) then s.strDone 2 0xC 0
    else if s.now + secUnits < at_ then s.strDone 2 0xE 0
    else ((s.strBusy 2).set .STR_mask_req mask).set .STR_flip_at (max at_ (s.now + 10 * usUnits))))

/-- Rebuilt and replaced tables whose regions a mask names. -/
def State.flipTables (s : State) (mask : Nat) : List Nat :=
  let act := s.activeSecs
  let l := secsOf (s.slotImg 2)
  (imgTables act ++ imgTables l).eraseDups.filter (fun t => (rebuilt act l t || replaced act l t) &&
    decide ((laySet (layOf act t) ||| laySet (layOf l t)) &&& mask ≠ 0))

/-- The shadow of a table whose instance goes out of service is discarded, with SHADOW_LOST (R230). -/
def State.shadowLost (s : State) (t : Nat) : State :=
  match s.liveTi t with
  | some ti =>
    if s.get .EXM_TABLE_STAT_shadow 0 t = 0 then s
    else (s.shadowDrop t ti).exmEvent 6 (evtRegion (s.lay ti) 0) t 0 0 0 0
  | none => s

/-- The IODs run the staged image's common sections, or ACTIVE's, from now on (R164, R170). -/
def State.commonRun (s : State) (new : Nat) : State :=
  if s.get .STR_common_new = new then s
  else (s.set .STR_common_ctx (1 - s.get .STR_common_ctx)).set .STR_common_new new

/-- Whether a staged image stands whose common sections differ from ACTIVE's (R164). -/
def State.commonStaged (s : State) : Bool :=
  decide (s.get .STR_STATUS_staged_valid = 1) && commonDiffers s.activeSecs (secsOf (s.slotImg 2))

/-- Epoch bits of the named regions flip, with the common sections where they differ: the staged ones at a flip forward, ACTIVE's at a
flip back (`st` 4); both IODs at one instant (R161, R164, R170). `st` is the state the regions enter. A flip that finds them there
already, as a SWAP that names no region can, changes them no more (log entry 26). -/
def State.flipEpochs (s : State) (mask st : Nat) : State :=
  let tabs := s.flipTables mask
  let common := s.commonStaged
  let s := s.each tabs (fun t s => s.shadowLost t)
  let s := s.each (bitList 8 mask) (fun n s =>
    let e := s.get .STR_REGION_STATE_epoch 0 n
    let s := (((s.set .STR_REGION_STATE_epoch (1 - e) 0 n).set .STR_REGION_STATE_state st 0 n).set .STR_drain_from s.now 0 n)
    s.set .STR_REGION_STATE_inflight (min 0xFFFF (s.get .REG_pop n e)) 0 n)
  let s := s.when (common || decide (st = 4)) (·.commonRun (b2n (decide (st ≠ 4))))
  (s.each tabs (fun t s => s.emStat t)).strMasks

/-- The flip of SWAP's regions (R161, R164, R173, R214). -/
def State.flipForward (s : State) : State :=
  let s := s.advanceTo (s.get .STR_flip_at)
  let mask := s.get .STR_mask_req
  let tabs := s.flipTables mask
  let s := s.flipEpochs mask 2
  let s := s.each tabs (fun t s => match s.liveTi t with
    | some ti => s.when (layExact (s.lay ti)) (·.emFlipStamp ti)
    | none => s)
  let s := s.each (bitList 8 mask) (fun n s => s.when (s.offlineForTest n) (·.drainEnd n))
  let s := s.when (decide (s.get .STR_wdog_wait = 1)) (fun s =>
    ((s.set .STR_wdog_wait 0).set .STR_STATUS_wdog_running 1).set .STR_wdog_at
      (s.now + max 1 (s.get .STR_WDOG_period) * 100 * msUnits))
  s.strDone 2 0 0

/-- EPOCH_FLIP: at the swap instant the epoch bits flip; rebuilt tables go live with their age stamps set (R168, R214); the
first flip after STAGE starts the watchdog (R173); a region offline for test has no drain (R176). -/
def execEpochFlip (s : State) : Host.Outcome State Fault Refusal :=
  .next <|
    if s.get .STR_CMD_STATUS_busy = 0 ∨ s.get .STR_CMD_STATUS_last_op ≠ 2 then s
    else s.flipForward

/-- ROLLBACK: the named regions, in DRAIN_FWD or SWAPPED, flip back at acceptance plus 10 µs; with changed common sections only
all of them together (R170, R177). -/
def execRollback (mask : Nat) (s : State) : Host.Outcome State Fault Refusal :=
  .next (s.strCmd (fun s =>
    if !s.regionsIn mask (fun st => decide (st = 2 ∨ st = 3)) then s.strDone 3 3 0
    else if commonDiffers s.activeSecs (secsOf (s.slotImg 2)) && decide (mask % 256 ≠ s.get .STR_STATUS_swapped_mask) then s.strDone 3 0xC 0
    else (((s.strBusy 3).set .STR_mask_req mask).set .STR_flip_at (s.now + 10 * usUnits)).set .STR_wd 0))

/-- The flip back of ROLLBACK's regions (R170, R173). -/
def State.flipBack (s : State) : State :=
  let s := (s.advanceTo (s.get .STR_flip_at)).flipEpochs (s.get .STR_mask_req) 4
  let s := s.each (bitList 8 (s.get .STR_mask_req)) (fun n s => s.when (s.offlineForTest n) (·.drainEnd n))
  let s := s.when (decide (s.get .STR_wd = 1)) (fun s => (s.set .STR_wdog_wait 1).set .STR_wd 0)
  s.strDone 3 0 0

/-- EPOCH_FLIP_BACK: the epoch bits flip back and the regions drain their new-epoch packets (R170). After a watchdog rollback
the watchdog starts again at the next SWAP (R173). -/
def execEpochFlipBack (s : State) : Host.Outcome State Fault Refusal :=
  .next <|
    if s.get .STR_CMD_STATUS_busy = 0 ∨ s.get .STR_CMD_STATUS_last_op ≠ 3 then s
    else s.flipBack

/-- The change of the regions of `mask` is kept (R156, R171). -/
def State.commitEnd (s : State) (mask : Nat) : State :=
  let s := s.wdogStop.each (bitList 8 mask) (fun n s =>
    (s.clearCtx n (1 - s.get .STR_REGION_STATE_epoch 0 n)).set .STR_REGION_STATE_state 0 0 n)
  let s := (s.when s.commonStaged (·.commonRun 1)).set .STR_common_new 0
  let (a, p, g) := (s.slotPart 0, s.slotPart 1, s.slotPart 2)
  let s := ((s.set .STR_SLOT_partition g 0 0).set .STR_SLOT_partition a 0 1).set .STR_SLOT_partition p 0 2
  let s := ((s.set .STR_SLOT_empty 0 0 0).set .STR_SLOT_empty (1 - s.get .STR_loaded) 0 1).set .STR_SLOT_empty 1 0 2
  let s := (((s.slotShow 0).slotShow 1).slotShow 2).set .STR_loaded 1
  let s := (s.set .STR_STATUS_changed_mask 0).set .STR_STATUS_staged_valid 0
  ((s.freeUnused.bankStat).strMasks.dirWrite).strDone 4 0 0

/-- COMMIT: with every changed region SWAPPED the watchdog stops, retained contexts and instances are freed and the slot
directory is written (R156, R171). With nothing staged it names no change and is rejected with STATE (log entry 26). -/
def execCommit (s : State) : Host.Outcome State Fault Refusal :=
  .next (s.strCmd (fun s =>
    let mask := s.get .STR_STATUS_changed_mask
    if s.get .STR_STATUS_staged_valid = 0 then s.strDone 4 3 0
    else if !s.regionsIn mask (fun st => decide (st = 3)) then s.strDone 4 0xD 0
    else s.commitEnd mask))

/-- The staged change is forgotten (R172). -/
def State.abortEnd (s : State) : State :=
  let s := s.each ((List.range 8).filter (fun n => decide (s.get .STR_REGION_STATE_state 0 n = 1))) (fun n s =>
    (s.clearCtx n (1 - s.get .STR_REGION_STATE_epoch 0 n)).set .STR_REGION_STATE_state 0 0 n)
  let s := (((s.commonRun 0).set .STR_STATUS_changed_mask 0).set .STR_STATUS_staged_valid 0).wdogStop
  (s.freeUnused.bankStat).strDone 5 0 0

/-- ABORT: with every region STABLE or LOADED the inactive contexts of the LOADED ones are cleared and the new instances freed;
the change is forgotten, with its masks and watchdog (R172; log entry 26). -/
def execStrAbort (s : State) : Host.Outcome State Fault Refusal :=
  .next (s.strCmd (fun s =>
    if !s.regionsIn 0xFF (fun st => decide (st = 0 ∨ st = 1)) then s.strDone 5 3 0
    else s.abortEnd))

/-- COLD_APPLY: with every region STABLE and an image in the slot, steering and dispatch stop and the regions drain (R174). -/
def execColdApply (slot : Nat) (s : State) : Host.Outcome State Fault Refusal :=
  .next (s.strCmd (fun s =>
    if !s.regionsIn 0xFF (fun st => decide (st = 0)) then s.strDone 6 3 0
    else if s.get .STR_SLOT_empty 0 (if slot = 0 then 2 else 1) = 1 then s.strDone 6 0xF 0
    else if !s.flashOk then s.strDone 6 5 0xFFFF
    else
      let s := ((s.strBusy 6).set .STR_cold 1).set .STR_cold_slot slot
      s.each (List.range 8) (fun n s => s.set .STR_drain_from s.now 0 n)))

/-- Frames still queued under a topology that changes are discarded with IMAGE_RELOAD (R308). -/
def State.topoDiscard (s : State) : State :=
  s.each (s.lkeysOf .txq) (fun k s => s.queueDiscard k.1 k.2 reasonIMAGE_RELOAD (some .SCH_PORT_DROP_reload_drops))

/-- The image of slot `k` takes over every region, with the common sections, the topology and the slot directory, and every shaper bucket
is full (R167, R168, R174, R303). `s1` has the new table instances already, `ti` gives the instance of each table. -/
def State.coldLoad (s1 : State) (act l : List Sec) (ti : Nat → Nat) (k : Nat) : State :=
  let tabs := rebuiltTables act l
  let s1 := s1.each tabs (fun t s => s.shadowLost t)
  let s1 := s1.each (List.range 8) (fun n s1 => (s1.loadCtx l n 0 ti).loadCtx l n 1 ti)
  let s1 := ((s1.loadCommon l 0).loadCommon l 1).set .STR_common_new 0
  let s1 := if secDigest act 8 0 0xFF ≠ secDigest l 8 0 0xFF then (s1.topoDiscard).loadTopo l
    else s1.each [0, 1] (fun i s => s.each (List.range 25600) (fun k s => s.bucketsFull i k))
  let s1 := s1.freeUnused.each tabs (fun t s => match s.liveTi t with
    | some ti => (s.when (layExact (s.lay ti)) (·.emFlipStamp ti)).emStat t
    | none => s)
  let s1 := s1.each ((imgTables act).filter (fun t => !(imgTables l).contains t)) (fun t s => s.emStat t)
  let (a, p, g) := (s1.slotPart 0, s1.slotPart 1, s1.slotPart 2)
  let s1 := if k = 2 then
      (((s1.set .STR_SLOT_partition g 0 0).set .STR_SLOT_partition a 0 1).set .STR_SLOT_partition p 0 2).set .STR_SLOT_empty 1 0 2
    else (s1.set .STR_SLOT_partition p 0 0).set .STR_SLOT_partition a 0 1
  let s1 := (s1.set .STR_SLOT_empty 0 0 0).set .STR_SLOT_empty (1 - s1.get .STR_loaded) 0 1
  let s1 := ((((s1.slotShow 0).slotShow 1).slotShow 2).set .STR_loaded 1).set .BOOT_STATUS_struct_none 0
  let s1 := ((s1.set .STR_STATUS_changed_mask 0).set .STR_STATUS_staged_valid 0).wdogStop
  (((s1.bankStat).dirWrite).set .STR_cold 0).strDone 6 0 0

/-- COLD_APPLY_LOAD: once the regions have drained the image is verified and loaded into both contexts of every region and the
IODs, tables carried over or rebuilt, the slot directory written, and steering resumes; where it fails the former image runs on
(R167, R168, R174). -/
def execColdApplyLoad (s : State) : Host.Outcome State Fault Refusal :=
  .next <|
    if s.get .STR_CMD_STATUS_busy = 0 ∨ s.get .STR_CMD_STATUS_last_op ≠ 6 ∨ s.get .STR_cold = 0 then s
    else if (List.range 8).any (fun n => decide (s.get .REG_pop n 0 ≠ 0 ∨ s.get .REG_pop n 1 ≠ 0)) then s
    else
      let k := if s.get .STR_cold_slot = 0 then 2 else 1
      let fail := fun (r d : Nat) =>
        (((s.strDone 6 r d).set .STR_EVENTS_stage_fail 1).set .STR_EVENTS_cold_fallback 1).set .STR_cold 0
      match s.imageVerify k false with
      | some (r, d) => fail r d
      | none =>
        let act := s.activeSecs
        let l := secsOf (s.slotImg k)
        if !(carriedTables act l).all (s.initFits l) then fail 8 0
        else match s.makeTables act l (rebuiltTables act l) with
        | none => fail 8 0
        | some s1 => s1.coldLoad act l (s.newTi act l) k

/-- REGION_DRAINED: no packet of the draining epoch remains in region `n`, and its state advances (R165, R166, R177); a region
in DRAIN_BACK has its new instances cleared (R215). -/
def execRegionDrained (n : Nat) (s : State) : Host.Outcome State Fault Refusal :=
  .next <|
    let st := s.get .STR_REGION_STATE_state 0 n
    if (st = 2 ∨ st = 4) ∧ s.get .REG_pop n (1 - s.get .STR_REGION_STATE_epoch 0 n) = 0 then s.drainEnd n else s

/-- DRAIN_LIMIT_EXPIRY: STR_DRAIN_LIMIT after the flip the remaining packets of the draining epoch are dropped with
EPOCH_EXPIRED and counted (R165); while COLD_APPLY drains the regions, all that remain. -/
def execDrainLimitExpiry (n : Nat) (s : State) : Host.Outcome State Fault Refusal :=
  .next <|
    let st := s.get .STR_REGION_STATE_state 0 n
    let e := s.get .STR_REGION_STATE_epoch 0 n
    let count := fun (s : State) => s.bump .STR_DROP_CNT_epoch_expired
    if (st = 2 ∨ st = 4 ∨ s.get .STR_cold = 1) then
      let s := s.advanceTo (s.get .STR_drain_from 0 n + max 100 (s.get .STR_DRAIN_LIMIT_limit_us) * usUnits)
      let any_ := decide (s.get .REG_pop n (1 - e) ≠ 0) || (decide (s.get .STR_cold = 1) && decide (s.get .REG_pop n e ≠ 0))
      let s := (s.when any_ (·.set .STR_EVENTS_drain_expired 1)).dropEpoch n (1 - e) reasonEPOCH_EXPIRED count
      let s := s.when (decide (s.get .STR_cold = 1)) (fun s => s.dropEpoch n e reasonEPOCH_EXPIRED count)
      s.drainEnd n
    else s

/-- Rebuilt tables whose region set, old or new, names region `n` (R215). -/
def State.rebuiltIn (s : State) (n : Nat) : List Nat :=
  let act := s.activeSecs
  let l := secsOf (s.slotImg 2)
  (rebuiltTables act l).filter (fun t => (laySet (layOf act t) ||| laySet (layOf l t)).testBit n)

/-- Whether new-epoch packets can still reach the new instance of table `t`: one of its regions has it live, or has not drained back
(R170, R215). -/
def State.newInUse (s : State) (t : Nat) : Bool :=
  let set := laySet (layOf s.activeSecs t) ||| laySet (layOf (secsOf (s.slotImg 2)) t)
  (bitList 8 set).any (fun m =>
    let st := s.get .STR_REGION_STATE_state 0 m
    decide (st = 2 ∨ st = 3 ∨ (st = 4 ∧ s.get .STR_rewrite 0 m = 0)))

/-- DRAIN_BACK_REWRITE_DONE: the new instances of region `n`'s rebuilt tables hold what TABLE_INIT says again, and the region is
LOADED (R170, R215). An instance that serves several regions is written once the last of them has drained. -/
def execDrainBackRewriteDone (n : Nat) (s : State) : Host.Outcome State Fault Refusal :=
  .next <|
    if s.get .STR_REGION_STATE_state 0 n ≠ 4 ∨ s.get .STR_rewrite 0 n = 0 ∨ (s.rebuiltIn n).any s.newInUse then s
    else
      let c := 1 - s.get .STR_REGION_STATE_epoch 0 n
      let s := s.each (s.rebuiltIn n) (fun t s => match s.tblInst n c t with
        | some ti => match s.instInit ti with
          | some s => s
          | none => s
        | none => s)
      ((s.set .STR_rewrite 0 0 n).set .STR_REGION_STATE_state 1 0 n).strMasks

/-- COMMIT_WATCHDOG_EXPIRY: any command in progress completes first; then every region in DRAIN_FWD or SWAPPED is rolled back
and wdog_rollback set (R173). -/
def execCommitWatchdogExpiry (s : State) : Host.Outcome State Fault Refusal :=
  .next <|
    if s.get .STR_STATUS_wdog_running = 0 ∨ s.get .STR_CMD_STATUS_busy = 1 then s
    else
      let s := s.advanceTo (s.get .STR_wdog_at)
      let mask := s.get .STR_STATUS_swapped_mask
      let s := (s.wdogStop).set .STR_EVENTS_wdog_rollback 1
      (((s.strBusy 3).set .STR_mask_req mask).set .STR_flip_at (s.now + 10 * usUnits)).set .STR_wd 1

end Sys2Proof.Machine
end

