-- ==== Sys2Proof/Machine/SilOps.lean ====
section
/-! DEFINITION. Shared operations of the Sillage transport (spec file 11): its packets, what a sender forms, acknowledgements, and
what a receiver does with a packet; paging at both ends (spec file 12). -/

namespace Sys2Proof.Machine

/-- A UDP datagram of a received frame: payload, destination port, whether its checksum is acceptable (R315), ECN bits. -/
structure Udp where
  pay : List Nat
  dport : Nat
  ok : Bool
  ecn : Nat
  v6 : Bool
deriving DecidableEq, Repr

/-- The outer UDP datagram of a frame. -/
def udpOf (f : List Nat) : Option Udp :=
  let (et, _, b) := vlanSkip 2 none (f.drop 12)
  match ipLayer et b with
  | none => none
  | some i =>
    if i.proto ≠ 17 ∨ i.frag ∨ i.rest.length < 8 then none
    else
      let n := beAt i.rest 4 2
      let d := i.rest.take n
      let sum := fold16 (ocSum (i.sa ++ i.da ++ [0, 17] ++ beBytes 2 n ++ d))
      let v4 := decide (et = 0x0800)
      some ⟨d.drop 8, beAt i.rest 2 2, decide (8 ≤ n ∧ n ≤ i.rest.length) && ((v4 && decide (beAt i.rest 6 2 = 0)) || decide (sum = 65535 ∧ beAt i.rest 6 2 ≠ 0)),
        if v4 then b.getD 1 0 % 4 else b.getD 1 0 / 16 % 4, !v4⟩

/-- A Sillage packet (Table SILL-1): header fields, extensions, payload as received, tag, and the bytes the tag covers as
additional data. -/
structure SilHdr where
  op : Nat
  flags : Nat
  path : Nat
  conn : Nat
  psn : Nat
  msg : Nat
  off : Nat
  len : Nat
  sack : Nat
  ts : Nat
  ext : List Nat
  body : List Nat
  tag : List Nat
  aad : List Nat
deriving DecidableEq, Repr

/-- Bytes of extensions of an opcode; none for an opcode outside Table SILL-2. -/
def silExt (op : Nat) : Option Nat :=
  match op with
  | 0x00 => some 8
  | 0x01 => some 16
  | 0x02 => some 24
  | 0x03 => some 16
  | 0x04 => some 0
  | 0x05 | 0x06 => some 32
  | 0x07 => some 8
  | 0x08 | 0x09 => some 0
  | 0x10 => some 48
  | 0x11 => some 8
  | 0x12 => some 0
  | _ => none

/-- Whether an opcode carries payload. -/
def silBody (op : Nat) : Bool := decide (op ≤ 2 ∨ op = 4)

/-- The packet in a UDP payload, or none where its header is bad (R318). -/
def silParse (u : List Nat) : Option SilHdr :=
  let op := u.getD 1 0
  let fl := u.getD 2 0
  match silExt op with
  | none => none
  | some x =>
    let tag := if fl.testBit 0 then 16 else 0
    let n := u.length - 32 - x - tag
    let off := beAt u 16 4
    let len := beAt u 20 4
    if u.getD 0 0 ≠ 1 ∨ 16 ≤ fl ∨ u.length < 32 + x + tag ∨ (!silBody op ∧ n ≠ 0) ∨ len < off + n then none
    else some ⟨op, fl, u.getD 3 0, beAt u 4 4, beAt u 8 4, beAt u 12 4, off, len, beAt u 24 4, beAt u 28 4, slice u 32 x,
      slice u (32 + x) n, u.drop (32 + x + n), u.take (32 + x)⟩

/-- Header bytes of a packet. -/
def silHead (op flags path conn psn msg off len sack ts : Nat) : List Nat :=
  [1, op, flags, path] ++ beBytes 4 conn ++ beBytes 4 psn ++ beBytes 4 msg ++ beBytes 4 off ++ beBytes 4 len ++ beBytes 4 sack ++
  beBytes 4 ts

/-- Bytes [off, off + n) of a connection's record. -/
def State.cnBytes (s : State) (c off n : Nat) : List Nat := (List.range n).map (fun k => s.cn c (off + k) 1)

/-- Device port of a connection's path (R322). -/
def State.silPort (s : State) (c k : Nat) : Nat := if k % 2 = 0 ∨ s.cn c 21 1 = 0xFF then s.cn c 20 1 else s.cn c 21 1

/-- n_paths of a connection. -/
def State.nPaths (s : State) (c : Nat) : Nat := s.cn c 6 2

/-- Frame of a datagram of a connection on a path (R315); `ident` is the IPv4 identification, which the spec leaves open. -/
def State.udpFrame (s : State) (c dport path ident : Nat) (u : List Nat) : List Nat :=
  let n := u.length + 8
  let udp := fun (sum : Nat) => beBytes 2 (0xC000 + s.cn c 10 1 % 64 * 256 + path) ++ beBytes 2 dport ++ beBytes 2 n ++ beBytes 2 sum ++ u
  let vlan := s.cn c 62 2
  let l2 := s.cnBytes c 56 6 ++ s.cnBytes c 64 6 ++ (if vlan.testBit 15 then [0x81, 0x00] ++ beBytes 2 (vlan % 4096) else [])
  let tos := s.cn c 23 1 % 64 * 4
  if s.cnFlag c 1 then
    let sa := s.cnBytes c 24 16
    let da := s.cnBytes c 40 16
    let sum := 65535 - fold16 (ocSum (sa ++ da ++ [0, 17] ++ beBytes 2 n ++ udp 0))
    l2 ++ [0x86, 0xDD] ++ beBytes 4 (6 * 2 ^ 28 + tos * 2 ^ 20) ++ beBytes 2 n ++ [17, 64] ++ sa ++ da ++ udp (if sum = 0 then 65535 else sum)
  else
    let sa := s.cnBytes c 36 4
    let da := s.cnBytes c 52 4
    let hd := fun (sum : Nat) => [0x45, tos] ++ beBytes 2 (n + 20) ++ beBytes 2 ident ++ [0x40, 0, 64, 17] ++ beBytes 2 sum ++ sa ++ da
    l2 ++ [0x08, 0x00] ++ hd (65535 - fold16 (ocSum (hd 0))) ++ udp 0

/-- Opcodes of the ACK, NAK and PROBE packets, which are charged to no tenant (R486). -/
def freeOp (roce : Bool) (op : Nat) : Bool := if roce then decide (op = 0x11) else decide (op = 0x10 ∨ op = 0x11 ∨ op = 0x12)

/-- A datagram of a connection leaves for the default queue of its class on its path's port (R322), its data in the buffer of the region that
serves the connection (R297). -/
def State.netSend (s : State) (c dport path psn : Nat) (data : Bool) (u : List Nat) : State :=
  let h := s.newHandle
  let f := s.udpFrame c dport path (s.freeVal 16) u
  let s := s.when (!s.cnFlag c 1) (·.drew)
  let t := if data then s.rtTenant c (rtIx c psn) else s.cnTenant c
  let s := (((s.newPkt f (freshMeta 16 t)).set .PKT_region (s.cnRegion c) 0 h).set .PKT_buf 1 0 h).set .PKT_stage 1 0 h
  (((s.set .PKT_sil (c + 1) 0 h).set .PKT_sil_psn psn 0 h).set .PKT_sil_data
    (b2n data + (if freeOp (s.cnFlag c 2) (u.getD (if s.cnFlag c 2 then 0 else 1) 0) then 2 else 0)) 0 h).enqueue
    h (s.silPort c path) 0x3FFF (s.cn c 22 1 % 8)

/-- A key of a region's cipher block for an operation: 1 it is being loaded, 2 it can be used, 3 the operation fails (R392, R398), 4 it can
be used but a fault is injected that nothing detects (R391). `agree` tells that no fault is injected: on the masked path with fault_check
the two computations then agree, on every other path the output is right. -/
def State.cipUse (s : State) (n slot tenant : Nat) (agree : Bool) : State × Nat :=
  match s.cipNeed n slot with
  | (s, 2) =>
    if agree then (s, 2)
    else if attrMasked (s.slotAttr slot) && attrCheck (s.slotAttr slot) then (s.cipMismatch n tenant slot, 3) else (s, 4)
  | x => x

/-- Key bytes that a region holds for a slot. -/
def State.cipKeyBytes (s : State) (n slot : Nat) : List Nat := (s.cipMat n slot).take (attrKeyLen (s.slotAttr slot))

/-- Transmit slot of a connection's present phase (R337). -/
def State.txSlot (s : State) (c : Nat) : Nat := s.get .CN_tx_slot 0 (c * 2 + s.get .CN_kp 0 c)

/-- The transmit key of a connection: 2 also where it is not encrypted. -/
def State.txKey (s : State) (n c : Nat) (agree : Bool) : State × Nat :=
  if s.cnFlag c 0 then s.cipUse n (s.txSlot c) (s.cnTenant c) agree else (s, 2)

/-- Nonce of a packet (R336). -/
def silNonce (conn psn ts : Nat) : List Nat := beBytes 4 conn ++ beBytes 4 psn ++ beBytes 4 ts

/-- Payload and tag of an encrypted packet. -/
def silSeal (key nonce aad pt : List Nat) : List Nat :=
  (Config.crypto algGcmSeal [key, nonce, aad, pt] ++ List.replicate (pt.length + 16) 0).take (pt.length + 16)

/-- A packet leaves, encrypted on an encrypted connection; when its cipher operation failed (`st` 3) it is dropped and counted (R336,
R392), and when a fault was injected (`st` 4) it leaves with corrupt bytes (R391). None leaves while udp_port is 0 (R314). `hd` is header and extensions. -/
def State.silEmit (s : State) (n c path psn nts st : Nat) (data : Bool) (hd pl : List Nat) : State :=
  if st = 3 then s.cipFail n
  else if s.get .SIL_CFG_udp_port = 0 then s
  else if st = 4 then
    let (s, x) := s.freeBytes (pl.length + 16)
    s.netSend c (s.get .SIL_CFG_udp_port) path psn data (hd ++ x)
  else
    let u := if s.cnFlag c 0 then hd ++ silSeal (s.cipKeyBytes n (s.txSlot c)) (silNonce (s.cn c 0 4) psn nts) hd pl else hd ++ pl
    s.netSend c (s.get .SIL_CFG_udp_port) path psn data u

/-- flags of a packet: enc and kp of the connection, with ack_req and retx as given. -/
def State.silFlags (s : State) (c : Nat) (ack retx : Bool) : Nat :=
  b2n (s.cnFlag c 0) + 2 * b2n ack + 4 * b2n retx + 8 * s.get .CN_kp 0 c

/-- The connection sends nothing new until its transmit key changes (R337). -/
def State.keyExhaust (s : State) (c : Nat) : State :=
  if s.get .CN_stop 0 c = 1 then s else (s.set .CN_stop 1 0 c).cnEvent c 5 0

/-- A data or PROBE packet is counted under its phase (R337). -/
def State.cntPkt (s : State) (c : Nat) : State :=
  let s := s.addw .CN_cnt 1 0 c
  if 2 ^ 31 ≤ s.get .CN_cnt 0 c ∧ s.cnFlag c 0 then s.keyExhaust c else s

/-- Die of a region. -/
def regDie (n : Nat) : Nat := 4 + n / 2

/-- A send time that is not 0xFFFF_FFFF and none of `used`: DTS moves on by one unit while it would be (R323, R336). -/
def State.silTs (s : State) (n : Nat) (used : List Nat) : Nat → State × Nat
  | 0 => (s, s.repNow (regDie n) % 2 ^ 32)
  | fuel + 1 =>
    let t := s.repNow (regDie n) % 2 ^ 32
    if t = 0xFFFFFFFF ∨ used.contains t then (s.advanceTo (s.now + 1)).silTs n used fuel else (s, t)

/-- Instance of path `k` of connection `c`. -/
def ptIx (c k : Nat) : Nat := c * 256 + k

/-- Active paths of a connection in the order after path `last` (R325). -/
def State.actPaths (s : State) (c last : Nat) : List Nat :=
  ((List.range 256).map (fun i => (last + 1 + i) % 256)).filter (fun k => decide (k < s.nPaths c ∧ s.get .PT_retired 0 (ptIx c k) = 0))

/-- Whether a path's pacer lets a frame go now (R335). -/
def State.paceOk (s : State) (c k : Nat) : Bool := decide (s.get .PT_pace 0 (ptIx c k) ≤ s.now)

/-- A frame with `n` bytes of datagram is sent on a path: its pacer waits out the frame's time at rate[k] (R335). -/
def State.paceSet (s : State) (c k n : Nat) : State :=
  let dp := s.silPort c k
  let len := s.frameL (dp / 8 % 2) (dp % 8) (n + (if s.cnFlag c 1 then 62 else 42) + (if (s.cn c 62 2).testBit 15 then 4 else 0))
  s.set .PT_pace (max s.now (s.get .PT_pace 0 (ptIx c k)) + len * 2048 * usUnits / max 1 (s.get .PT_rate 0 (ptIx c k))) 0 (ptIx c k)

/-- Bytes of datagram of a packet. -/
def State.silSize (s : State) (c : Nat) (hd pl : List Nat) : Nat := hd.length + pl.length + 16 * b2n (s.cnFlag c 0)

/-- Payload bytes of a stored packet, header, extensions and pad left out; `roce` that it is of the RoCEv2 subset. -/
def storedPay (roce : Bool) (b : List Nat) : Nat :=
  if roce then
    let ext := match b.getD 0 0 with
      | 0x06 | 0x0A | 0x0C => 16
      | 0x0B => 20
      | 0x09 => 4
      | 0x13 | 0x14 => 28
      | _ => 0
    b.length - 12 - ext - b.getD 1 0 / 16 % 4
  else b.length - 32 - (silExt (b.getD 1 0)).getD 0

/-- Payload bytes in a region's retransmission store (R327). -/
def State.storeUsed (s : State) (n : Nat) : Nat :=
  (((s.lkeysOf .rtData).filter (fun k => decide (s.cnHome k.1 = n))).map (fun k =>
    storedPay (s.cnFlag k.1 2) (s.lget .rtData k.1 k.2))).sum

/-- Whether the connection may send PSN `psn` of `n` bytes now (R324, R327). -/
def State.psnOk (s : State) (c n : Nat) : Bool :=
  decide ((s.get .CN_psn 0 c + 2 ^ 32 - s.get .CN_una 0 c) % 2 ^ 32 < 256) && decide (s.storeUsed (s.cnHome c) + n ≤ 2 ^ 28)

/-- A transmission of stored packet `i` on a path is recorded, with its send DT64 and UNC16 (R323); `ts` is its ts. -/
def State.rtSent (s : State) (n c i k ts : Nat) : State :=
  let s := ((((s.set .RT_st 1 0 i).set .RT_path k 0 i).set .RT_ts (s.repNow (regDie n)) 0 i).set .RT_unc (s.repUnc (regDie n) 0) 0 i).set .RT_later 0 0 i
  ((s.addw .CN_seq 1 0 c).set .RT_seq (s.get .CN_seq 0 c + 1) 0 i).lpush .rtTs ts c (i % 256)

/-- A new packet takes the next PSN, is stored and sent on path `k` (R323, R325, R327). -/
def State.silNew (s : State) (n c k st op m off len : Nat) (ext pl : List Nat) (resp : Bool) : State :=
  let psn := s.get .CN_psn 0 c
  let i := rtIx c psn
  let (s, ts) := s.silTs n [] 4
  let last := !silBody op || decide (len ≤ off + pl.length)
  let hd := silHead op (s.silFlags c (last && decide (op ≠ 0x12)) false) k (s.cn c 0 4) psn m off len 0 ts ++ ext
  let s := (((((s.set .RT_psn psn 0 i).set .RT_msg m 0 i).set .RT_op op 0 i).set .RT_left 0 0 i).set .RT_resp (b2n resp) 0 i).set
    .RT_exempt 0 0 i
  let s := ((s.set .RT_tx 1 0 i).lset .rtData (hd ++ pl) c (i % 256)).lset .rtTs [] c (i % 256)
  let s := (s.rtSent n c i k ts).set .CN_psn (psn + 1) 0 c
  let s := ((s.set .CN_used 1 0 c).paceSet c k (s.silSize c hd pl)).cntPkt c
  s.silEmit n c k psn ts st true hd pl

/-- Path of a retransmission: the next active one after the one it was sent on that the pacer allows, or its own where no other is
active (R333). -/
def State.retxPath (s : State) (c k : Nat) : Option Nat :=
  match (s.actPaths c k).filter (· ≠ k) with
  | [] => if s.paceOk c k then some k else none
  | l => l.find? (fun j => s.paceOk c j)

/-- Stored packet `i` is sent again, with retx, ack_req and a new ts (R332, R333); about to be sent for the (max_retx + 2)-th time,
the connection enters ERROR. A resend under RETRY_AFTER is not counted (R355). -/
def State.silResend (s : State) (n c i st : Nat) : State :=
  match s.retxPath c (s.get .RT_path 0 i) with
  | none => s
  | some k =>
    let ex := decide (s.get .RT_exempt 0 i = 1)
    if !ex ∧ s.get .SIL_ACK_CFG_max_retx < s.get .RT_tx 0 i then s.cnError c
    else
      let (s, ts) := s.silTs n (s.lget .rtTs c (i % 256)) 260
      let b := s.lget .rtData c (i % 256)
      let op := b.getD 1 0
      let x := (silExt op).getD 0
      let hd := splice (splice (b.take (32 + x)) 2 [s.silFlags c true true, k]) 28 (beBytes 4 ts)
      let pl := b.drop (32 + x)
      let s := s.when (!ex) (·.addw .RT_tx 1 0 i)
      let s := ((s.rtSent n c i k ts).set .RT_exempt 0 0 i).bump .SIL_TX_CNT_retx_pkts n
      ((s.paceSet c k (s.silSize c hd pl)).cntPkt c).silEmit n c k (s.get .RT_psn 0 i) ts st true hd pl

/-- The first lost packet of a connection, in PSN order. -/
def State.lostPkt (s : State) (c : Nat) : Option Nat :=
  ((List.range 256).map (fun k => rtIx c (s.get .CN_una 0 c + k))).find? (fun i => decide (s.get .RT_st 0 i = 2))

/-- A control packet leaves under the direction's control sequence number (R336). -/
def State.silCtl (s : State) (n c path op msg sack ts st : Nat) (ext : List Nat) : State :=
  if s.get .CN_stop 0 c = 1 then s
  else
    let q := s.get .CN_ctl 0 c
    let hd := silHead op (s.silFlags c false false) path (s.cn c 0 4) q msg 0 0 sack ts ++ ext
    let s := (s.set .CN_ctl (q + 1) 0 c).silEmit n c path q 0xFFFFFFFF st false hd []
    if 2 ^ 31 ≤ q + 1 ∧ s.cnFlag c 0 then s.keyExhaust c else s

/-- Bitmap of ACKX over a map whose bit i stands for sack_base + i (Table SILL-3). -/
def ackMap (map : Nat) : List Nat :=
  (List.range 32).map (fun j => ((List.range 8).map (fun b => b2n (map.testBit (8 * j + b + 1)) * 2 ^ (7 - b))).sum)

/-- An ACK leaves for the packet answered last (R332, Table SILL-3). msg_id of an ACK is not stated: a free value (log entry 44). -/
def State.ackSend (s : State) (n c st : Nat) : State :=
  let rx := s.get .CN_ack_rx 0 c
  let echo := s.get .CN_ack_echo 0 c
  let ext := ackMap (s.get .CN_rmap 0 c) ++ beBytes 4 ((rx % 2 ^ 32 + 2 ^ 32 - echo) % 2 ^ 32) ++
    beBytes 4 ((s.repNow (regDie n) + 2 ^ 64 - rx) % 2 ^ 32) ++ beBytes 2 (s.get .CN_ack_unc 0 c) ++ beBytes 2 (s.get .CN_ack_fl 0 c) ++
    beBytes 4 (s.get .CN_rmsg 0 c)
  let m := s.freeVal 32
  let s := (s.drew.set .CN_ackn 0 0 c).set .CN_ack_at 0 0 c
  s.silCtl n c (s.get .CN_ack_path 0 c) 0x10 m (s.get .CN_rlow 0 c) echo st ext

/-- A NAK leaves (Tables SILL-3, SILL-8); retry_us goes with RETRY_AFTER and NO_RECV_BUF. -/
def State.nakSend (s : State) (n c path psn msg ts st syn : Nat) : State :=
  let r := if syn = 1 ∨ syn = 4 then max 1 (s.get .MKY_CFG_retry_us) else 0
  let s := match syn with
    | 1 => s.bump .MKY_REGION_CNT1_retry_after n
    | 2 => s.bump .MKY_REGION_CNT0_revoked n
    | 3 => s.bump .MKY_REGION_CNT0_access_err n
    | _ => s
  s.silCtl n c path 0x11 msg psn ts st ([syn, 0] ++ beBytes 2 r ++ [0, 0, 0, 0])

/-- The packet that the next ACK of a connection answers: path, echo, ingress timestamp, its UNC16, rx_stepped and rx_ts_invalid
(Table SILL-3). -/
def State.ackNote (s : State) (c path ts tuple : Nat) : State :=
  let unc := tuple / 2 ^ 64 % 2 ^ 16
  let fl := tuple / 2 ^ 80
  let s := ((s.set .CN_ack_path path 0 c).set .CN_ack_echo ts 0 c).set .CN_ack_rx (tuple % 2 ^ 64) 0 c
  (s.set .CN_ack_unc unc 0 c).set .CN_ack_fl (fl % 2 + 2 * b2n (fl.testBit 1 || decide (unc = 0xFFFF ∨ tuple % 2 ^ 64 = 0))) 0 c

/-- The lowest missing PSN moves past received ones. -/
def State.rlowAdvance (s : State) (c : Nat) : Nat → State
  | 0 => s
  | fuel + 1 =>
    if (s.get .CN_rmap 0 c).testBit 0 then
      ((s.addw .CN_rlow 1 0 c).set .CN_rmap (s.get .CN_rmap 0 c / 2) 0 c).rlowAdvance c fuel
    else s

/-- PSN `psn` is counted as received (R328). -/
def State.psnTake (s : State) (c psn : Nat) : State :=
  (s.setb .CN_rmap ((psn + 2 ^ 32 - s.get .CN_rlow 0 c) % 2 ^ 32) true 0 c).rlowAdvance c 256

/-- An accepted packet is acknowledged now or later (R332). -/
def State.ackCount (s : State) (n c st : Nat) (now_ : Bool) : State :=
  let s := s.addw .CN_ackn 1 0 c
  if now_ ∨ max 1 (s.get .SIL_ACK_CFG_ack_every) ≤ s.get .CN_ackn 0 c then s.ackSend n c st
  else s.when (decide (s.get .CN_ack_at 0 c = 0)) (·.set .CN_ack_at s.now 0 c)

/-- The next work of a send ring becomes a message of its connection (R323, R324): where the peer's window allows it. -/
def State.msgStart (s : State) (c : Nat) : State :=
  match s.lget .cnWq 0 c with
  | [] => s
  | w :: r =>
    let m := s.get .CN_msg 0 c
    if 64 ≤ (m + 2 ^ 32 - s.get .CN_peer 0 c) % 2 ^ 32 then s
    else
      let i := msIx c m
      let op := match s.get .WRK_op 0 w with
        | 0 => 0
        | 1 => 1
        | 2 => 2
        | 3 => 3
        | 4 => 5
        | 5 => 6
        | _ => 8
      let s := [Field.MS_off, .MS_status, .MS_failed, .MS_posted, .MS_rx, .MS_rnr, .MS_hold, .MS_rxd, .MS_fetch, .MS_ssn].foldl
        (fun s f => s.clr f 0 i) s
      let s := (((s.set .MS_st 1 0 i).set .MS_work (w + 1) 0 i).set .MS_op op 0 i).set .MS_len (s.get .WRK_len 0 w) 0 i
      let s := ((s.set .CN_msg (m + 1) 0 c).lpush .cnMsgs m 0 c).lset .cnWq r 0 c
      let s := (s.set .WRK_msg m 0 w).lset .msgData (s.lget .wrkData 0 w) c (m % 64)
      let s := s.lset .wrkData [] 0 w
      s.when (decide (op = 0)) (fun s => (s.set .MS_ssn (s.get .CN_ssn 0 c) 0 i).addw .CN_ssn 1 0 c)

/-- Extensions of a message's packets (Table SILL-3). -/
def State.msgExt (s : State) (i : Nat) : List Nat :=
  let w := s.get .MS_work 0 i - 1
  let addr := beBytes 8 (s.get .WRK_raddr 0 w) ++ beBytes 4 (s.get .WRK_rkey 0 w) ++ [0, 0, 0, 0]
  match s.get .MS_op 0 i with
  | 0 => beBytes 4 (s.get .MS_ssn 0 i) ++ [0, 0, 0, 0]
  | 1 => addr
  | 2 => addr ++ beBytes 4 (s.get .WRK_operand 0 w) ++ [0, 0, 0, 0]
  | 3 => addr
  | 5 => addr ++ beBytes 8 (s.get .WRK_operand 0 w) ++ beBytes 8 0
  | 6 => addr ++ beBytes 8 (s.get .WRK_operand 0 w) ++ beBytes 8 (s.get .WRK_compare 0 w)
  | _ => []

/-- The first page of an access that cannot be used, as the ATC numbers it. -/
def State.badPage (s : State) (r a len : Nat) (write : Bool) : Nat :=
  (((pagesOf (iovaOf r a) len).map (fun pg => atcIx (mkFn r) (mkPasid r) pg)).find? (fun i =>
    !(decide (s.get .ATC_st (mkEp r) i = 2) && (s.get .ATC_perm (mkEp r) i).testBit (if write then 1 else 0)))).getD 0

/-- The connection's new data stalls on a page that it reads (R356). -/
def State.stallOn (s : State) (n c r a len m : Nat) (resp : Bool) : State :=
  let s := (s.pagesAsk r a len false).bump .MKY_REGION_CNT1_out_stalls n
  let s := ((s.set .CN_stall 1 0 c).set .CN_stall_e (mkEp r) 0 c).set .CN_stall_pg (s.badPage r a len false) 0 c
  (s.set .CN_stall_m m 0 c).set .CN_stall_r (b2n resp) 0 c

/-- Bytes that one read of `want` bytes at `a` under a key may take: no further than its page for a paged key. -/
def keyChunk (r a want : Nat) : Nat := if mkPaged r then min want (4096 - iovaOf r a % 4096) else want

/-- The next bytes of a message's source are asked of the host (R347, R351, R352, R356): LOCAL_ACCESS when the key check or a page
request failed. -/
def State.msgFetch (s : State) (n c m want : Nat) : State :=
  let i := msIx c m
  let w := s.get .MS_work 0 i - 1
  let key := s.get .WRK_lkey 0 w
  let a := s.get .WRK_addr 0 w + s.get .MS_fetch 0 i
  if !s.keyCached n key then s.keyMiss n key
  else if s.keyCheck (s.repNow (regDie n)) (s.cnTenant c) none key a want 0 false ≠ 0 then s.msFail c m msLOCAL_ACCESS
  else
    let r := s.mkRec (bitsOf key 8 20)
    let k := keyChunk r a want
    match s.pagesReady r a k false with
    | 0 => (s.keyRead r a k 4 c m).addw .MS_fetch k 0 i
    | 1 => s.pagesAsk r a k false
    | 2 => s.stallOn n c r a k m false
    | _ => (s.pagesForget r a k).msFail c m msLOCAL_ACCESS

/-- The next packet of message `m` is formed, or its payload asked for. -/
def State.msgStep (s : State) (n c m st : Nat) : State :=
  let i := msIx c m
  let op := s.get .MS_op 0 i
  let off := s.get .MS_off 0 i
  let len := s.get .MS_len 0 i
  let want := if silBody op then min (s.cnMtu c) (len - off) else 0
  let have_ := s.lget .msgData c (m % 64)
  if have_.length < want then
    (if s.get .MS_fetch 0 i ≤ off + have_.length then s.msgFetch n c m (want - have_.length) else s)
  else
    let pl := have_.take want
    match (s.actPaths c (s.get .CN_path 0 c)).find? (fun k => s.paceOk c k) with
    | none => s
    | some k =>
      if !s.psnOk c pl.length then s
      else
        let s := s.when (decide (off = 0)) (·.set .MS_psn (s.get .CN_psn 0 c) 0 i)
        let s := (s.silNew n c k st op m off len (s.msgExt i) pl false).set .CN_path k 0 c
        let s := (s.set .MS_off (off + want) 0 i).lset .msgData (have_.drop want) c (m % 64)
        s.when (!silBody op || decide (len ≤ off + want)) (·.set .MS_st 2 0 i)

/-- The message of a connection that sends next: the first begun one with packets to send that no NAK holds. -/
def State.msgNext (s : State) (c : Nat) : Option Nat :=
  (s.lget .cnMsgs 0 c).find? (fun m => decide (s.get .MS_st 0 (msIx c m) = 1 ∧ s.get .MS_hold 0 (msIx c m) ≤ s.now))

/-- Tenant whose credit the connection's next packet needs (R326, R371): that of the first lost packet, else of the message that sends
next. -/
def State.sendTenant (s : State) (c : Nat) : Nat :=
  match s.lostPkt c, s.msgNext c, s.lget .cnWq 0 c with
  | some i, _, _ => s.rtTenant c i
  | none, some m, _ => s.msgTenant c m
  | none, none, w :: _ => if isBackendCtx c then s.get .WRK_tenant 0 w else s.cnTenant c
  | none, none, [] => s.cnTenant c

/-- Whether the function that owns a connection's sq may read (R437); a backend's connection has none. -/
def State.sqBme (s : State) (c : Nat) : Bool :=
  let (e, r) := ringNo (s.cn c 72 4)
  isBackendCtx c || (match s.ringFn e r with
    | some f => s.fnRuns e f
    | none => true)

/-- What a request at its execution finds of its key (R357): 0 pass, 1 wait, 2 RETRY_AFTER, else the NAK syndrome plus 8. -/
def State.respKey (s : State) (n c i : Nat) (right : Nat) (atomic : Bool) : State × Nat :=
  let key := s.get .RM_key 0 i
  let a := s.get .RM_addr 0 i
  let len := if atomic then 8 else s.get .RM_len 0 i
  if !s.keyCached n key then (s.keyMiss n key, 1)
  else match s.keyCheck (s.repNow (regDie n)) (s.cnTenant c) (some (s.cnId c)) key a len right atomic with
    | 0 => (s, 0)
    | x => (s, 8 + x)

/-- A request ends without its response: a NAK with a syndrome is due (R347, R351). -/
def State.respNak (s : State) (c m syn : Nat) : State := s.set .RESP_nak syn 0 (msIx c m)

/-- The request at the head of a connection's list is over. -/
def State.respEnd (s : State) (c m : Nat) : State :=
  let i := msIx c m
  ((((s.set .RESP_st 0 0 i).set .RESP_nak 0 0 i).lset .respData [] c (m % 64)).lset .cnExec ((s.lget .cnExec 0 c).erase m) 0 c).set
    .RESP_off 0 0 i |>.set .RESP_hold 0 0 i

/-- A request begins to be executed (R330, R331, R339): a READ sets up its response, an atomic operation reads its operand, a flush
reads host memory. The spec does not say which memory a flush reads: the base of the connection's send ring (log entry 45). -/
def State.respStart (s : State) (n c m : Nat) : State :=
  let i := msIx c m
  match s.get .RM_op 0 i with
  | 3 =>
    match s.respKey n c i 2 false with
    | (s, 0) => ((s.set .RESP_st 1 0 i).set .RESP_off 0 0 i).set .RESP_addr (s.get .RM_addr 0 i) 0 i
        |>.set .RESP_key (s.get .RM_key 0 i) 0 i
    | (s, 1) => s
    | (s, x) => s.respNak c m (x - 8)
  | 8 =>
    let (e, r) := ringNo (s.cn c 72 4)
    match s.ringFn e r with
    | some f => (s.readReqP e f (s.get .RNG_RING_base e r) 4 8 c m (s.ringPasid e r)).set .RESP_st 2 0 i
    | none => s.set .RESP_st 3 0 i
  | _ =>
    match s.respKey n c i 4 true with
    | (s, 0) =>
      let r := s.mkRec (bitsOf (s.get .RM_key 0 i) 8 20)
      let a := s.get .RM_addr 0 i
      match s.pagesReady r a 8 true with
      | 0 => (s.keyRead r a 8 8 c m).set .RESP_st 2 0 i
      | 1 => s.pagesAsk r a 8 true
      | 2 => s.pagesAsk r a 8 true
      | _ => (s.pagesForget r a 8).respNak c m 3
    | (s, 1) => s
    | (s, x) => s.respNak c m (x - 8)

/-- The next bytes of a READ response are asked of the host (R351, R352, R356). -/
def State.respFetch (s : State) (n c m want : Nat) : State :=
  let i := msIx c m
  let a := s.get .RESP_addr 0 i
  let r := s.mkRec (bitsOf (s.get .RESP_key 0 i) 8 20)
  let k := keyChunk r a want
  match s.pagesReady r a k false with
  | 0 => (s.keyRead r a k 8 c m).set .RESP_addr (a + k) 0 i
  | 1 => s.pagesAsk r a k false
  | 2 => s.stallOn n c r a k m true
  | _ => (s.pagesForget r a k).respNak c m 3

/-- Result of atomic operation `m` among the last 64 (R331). -/
def State.atomResult (s : State) (c m : Nat) : Nat :=
  let rec go : List Nat → Nat
    | x :: v :: r => if x = m then v else go r
    | _ => 0
  go (s.lget .cnAtom 0 c)

/-- Whether the connection keeps a result of `m`. -/
def State.atomKept (s : State) (c m : Nat) : Bool :=
  let rec go : List Nat → Bool
    | x :: _ :: r => decide (x = m) || go r
    | _ => false
  go (s.lget .cnAtom 0 c)

/-- The request at the head of a connection's list makes a step; whether it did anything. -/
def State.respStep (s : State) (n c st : Nat) : State × Bool :=
  match s.lget .cnExec 0 c with
  | [] => (s, false)
  | m :: _ =>
    let i := msIx c m
    let path := (s.actPaths c (s.get .CN_path 0 c)).find? (fun k => s.paceOk c k)
    match s.get .RESP_st 0 i with
    | 0 => (s.respStart n c m, true)
    | 2 => (s, false)
    | 3 =>
      match path with
      | some k =>
        if !s.psnOk c 0 then (s, false)
        else
          let fl := decide (s.get .RM_op 0 i = 8)
          let s := s.silNew n c k st (if fl then 9 else 7) m 0 0 (if fl then [] else beBytes 8 (s.atomResult c m)) [] true
          ((s.set .CN_path k 0 c).respEnd c m, true)
      | none => (s, false)
    | _ =>
      let off := s.get .RESP_off 0 i
      let len := s.get .RM_len 0 i
      let want := min (s.cnMtu c) (len - off)
      let have_ := s.lget .respData c (m % 64)
      if s.now < s.get .RESP_hold 0 i then (s, false)
      else if have_.length < want then
        (if s.get .RESP_addr 0 i - s.get .RM_addr 0 i ≤ off + have_.length then (s.respFetch n c m (want - have_.length), true) else (s, false))
      else match path with
        | some k =>
          if !s.psnOk c want then (s, false)
          else
            let s := (s.silNew n c k st 4 m off len [] (have_.take want) true).set .CN_path k 0 c
            let s := (s.set .RESP_off (off + want) 0 i).lset .respData (have_.drop want) c (m % 64)
            (s.when (decide (len ≤ off + want)) (·.respEnd c m), true)
        | none => (s, false)

/-- Data of a connection's read of message source bytes has arrived; `none` when the read failed (R351). -/
def State.msgGot (s : State) (c m : Nat) (d : Option (List Nat)) : State :=
  match d with
  | some b => if s.get .MS_st 0 (msIx c m) = 1 then s.lset .msgData (s.lget .msgData c (m % 64) ++ b) c (m % 64) else s
  | none => if s.get .MS_st 0 (msIx c m) = 1 then s.msFail c m msLOCAL_ACCESS else s

/-- Data of a request's read has arrived; `none` when the read failed, which is answered with NAK ACCESS_ERR (R351). -/
def State.respGot (s : State) (c m : Nat) (d : Option (List Nat)) : State :=
  let i := msIx c m
  if !(s.lget .cnExec 0 c).contains m then s
  else match d with
  | none => s.respNak c m 3
  | some b =>
    match s.get .RM_op 0 i with
    | 3 => s.lset .respData (s.lget .respData c (m % 64) ++ b) c (m % 64)
    | 8 => s.set .RESP_st 3 0 i
    | op =>
      let old := leNat (b.take 8)
      let new := if op = 5 then old + s.get .RM_opnd 0 i else if old = s.get .RM_cmp 0 i then s.get .RM_opnd 0 i else old
      let s := s.keyWrite (s.mkRec (bitsOf (s.get .RM_key 0 i) 8 20)) (s.get .RM_addr 0 i) (leBytes 8 new)
      (s.lset .cnAtom (([m, old] ++ s.lget .cnAtom 0 c).take 128) 0 c).set .RESP_st 3 0 i

/-- Region keys of paths: a new or restored path starts at init_rate (R335). -/
def State.pathInit (s : State) (c k : Nat) : State :=
  let i := ptIx c k
  let s := [Field.PT_retired, .PT_pace, .PT_srtt, .PT_rttvar, .PT_sampled, .PT_tos, .PT_bcur, .PT_bprev, .PT_rcur, .PT_rprev, .PT_dec,
    .PT_probe_at].foldl (fun s f => s.clr f 0 i) s
  s.set .PT_rate (s.get .SIL_CC_CFG2_init_rate * 256) 0 i

/-- min_rate in 1/256 Mb/s. -/
def State.minRate (s : State) : Nat := max 1 (s.get .SIL_CC_CFG3_min_rate) * 256

/-- A timeout of a path halves its rate (R335). -/
def State.halve (s : State) (c k : Nat) : State :=
  s.set .PT_rate (max (s.get .PT_rate 0 (ptIx c k) / 2) s.minRate) 0 (ptIx c k)

/-- Retransmission timeout of a path in 0.25 ns (R333). -/
def State.rto (s : State) (c k : Nat) : Nat :=
  let i := ptIx c k
  min (max (max 20 (s.get .SIL_PATH_CFG_min_rto) * usUnits) (s.get .PT_srtt 0 i + 4 * s.get .PT_rttvar 0 i) * 2 ^ s.get .PT_tos 0 i)
    (max (s.get .SIL_PATH_CFG_max_rto * usUnits) (max 20 (s.get .SIL_PATH_CFG_min_rto) * usUnits))

/-- The context is in the region's cache, used now (R320). -/
def State.cacheTouch (s : State) (n c : Nat) : State :=
  (s.addw .CACHE_tick 1 n).set .CACHE_at (s.get .CACHE_tick n + 1) n c

/-- A packet or work request for an uncached context waits while it is loaded (R320). -/
def State.cacheMiss (s : State) (n c : Nat) : State :=
  if s.get .CACHE_fill n c = 1 then s else (s.set .CACHE_fill 1 n c).bump .SIL_CACHE_CNT_cache_miss n

/-- Whether an access of a packet can be placed now: 0 yes, 1 a translation is on its way, 2 it is answered with RETRY_AFTER, 3 the
page request failed (R353, R354, R437). -/
def State.placeGate (s : State) (r a len : Nat) (write : Bool) : State × Nat :=
  if !s.fnRuns (mkEp r) (mkFn r) then (s, 2)
  else match s.pagesReady r a len write with
    | 0 => (s, 0)
    | 1 => (s.pagesAsk r a len write, 1)
    | 2 => (s.pagesAsk r a len write, 2)
    | _ => (s.pagesForget r a len, 3)

/-- The engine has taken a packet. -/
def State.engineTake (s : State) (h : Nat) : State := (((s.fragRecord h).txDiverted h).freePkt h).set .PKT_disp 4 0 h

end Sys2Proof.Machine
end

