-- ==== Sys2Proof/Machine/Sillage.lean ====
section
/-! DEFINITION. The Sillage transport: connections, sending, placement, acknowledgement, loss and congestion control (spec file 11,
rules R314 to R342; R347 to R356 of spec file 12). -/

namespace Sys2Proof.Machine

/-- The record words of a channel show a record. -/
def State.chShow (s : State) (f : Field) (c words r : Nat) : State :=
  s.each (List.range words) (fun j s => s.set f (bitsOf r (32 * j) 32) 0 (c * words + j))

/-- A connection command ends with a result (Table SILL-12). -/
def State.silRes (s : State) (ch r : Nat) : State := (s.set .SIL_CH_busy 0 0 ch).set .SIL_CH_result r 0 ch

/-- Whether every field of a connection record lies in its range (Table SILL-6, R319, R321, R343). -/
def cnRecOk (c r : Nat) : Bool :=
  let at_ := fun (o n : Nat) => recAt r o n
  let fl := at_ 9 1
  let roce := fl.testBit 2
  decide (at_ 5 1 < 8) && decide (1 ≤ at_ 6 2 ∧ at_ 6 2 ≤ 256) && decide (at_ 8 1 ≤ 3) && decide (fl < 16) &&
  (if roce then decide (at_ 8 1 ≠ 1) && !fl.testBit 0 && decide (c < 2097152) else decide (at_ 8 1 < 2)) &&
  decide (at_ 10 1 < 64 ∧ at_ 11 1 = 0 ∧ at_ 12 4 < 2 ^ 24 ∧ at_ 16 4 < 2 ^ 24) &&
  decide (at_ 20 1 < 16) && decide (at_ 21 1 < 16 ∨ at_ 21 1 = 0xFF) && decide (at_ 22 1 < 8 ∧ at_ 23 1 < 64) &&
  decide (at_ 62 2 / 4096 % 8 = 0) && decide (at_ 70 2 = 0 ∧ at_ 92 4 = 0) &&
  decide (at_ 72 4 < 65536 ∧ at_ 76 4 < 65536 ∧ at_ 80 4 < 65536)

/-- Whether a record's region, key slots and rings belong to its tenant (R322). -/
def State.cnRecOwn (s : State) (r : Nat) : Bool :=
  let t := recAt r 4 1
  let ring := fun (o : Nat) => decide (s.ringTenant (ringNo (recAt r o 4)).1 (ringNo (recAt r o 4)).2 = some t)
  (s.affMask t).testBit (recAt r 5 1) &&
  s.tenSlot t (recAt r 12 4) && s.tenSlot t (recAt r 16 4) && ring 72 && ring 76 && ring 80

/-- The fresh state of a connection under a record (R321, R335). -/
def State.cnLoad (s : State) (c r : Nat) : State :=
  let s := [Field.CN_dying, .CN_used, .CN_msg, .CN_peer, .CN_ssn, .CN_path, .CN_kp, .CN_rx_next, .CN_cnt, .CN_ctl, .CN_stop, .CN_stall,
    .CN_stall_e, .CN_stall_pg, .CN_stall_m, .CN_stall_r, .CN_cnp_at, .CN_rmap, .CN_rmsg, .CN_ackn, .CN_ack_at, .CN_ack_path, .CN_ack_echo,
    .CN_ack_rx, .CN_ack_unc, .CN_ack_fl, .CN_late_msg, .CN_late_st, .CN_fail_st, .CN_to, .CN_seq, .RX_ssn].foldl (fun s f => s.clr f 0 c) s
  let s := (s.set .CN_rec r 0 c).set .CN_state 1 0 c
  let s := ((s.set .CN_psn (recAt r 84 4) 0 c).set .CN_una (recAt r 84 4) 0 c).set .CN_rlow (recAt r 88 4) 0 c
  let s := ((s.set .CN_tx_slot (recAt r 12 4) 0 (c * 2)).set .CN_tx_slot 0 0 (c * 2 + 1)).set .CN_rx_slot (recAt r 16 4) 0 (c * 2)
  let s := (s.set .CN_rx_slot 0 0 (c * 2 + 1)).set .CN_rx_next 1 0 c
  let s := s.each ((List.range 64).map (fun k => c * 64 + k)) (fun i s => ((((s.clr .MS_st 0 i).clr .RM_seen 0 i).clr .RESP_st 0 i).clr
    .RESP_nak 0 i).clr .RM_done 0 i)
  let s := (s.lset .cnAtom [] 0 c).each (List.range 256) (fun k s => (s.clr .RT_st 0 (c * 256 + k)).lset .rtData [] c k)
  (s.set .CN_bw_at s.now 0 c).each (List.range (recAt r 6 2)) (fun k s => s.pathInit c k)

/-- SIL_CREATE: command CREATE of channel `ch` for context `c` (R319, R321, R322, R343, R470). -/
def execSilCreate (ch c : Nat) (s : State) : Host.Outcome State Fault Refusal :=
  .next <|
    let r := s.chRec .SIL_CH_record ch 24
    let t := recAt r 4 1
    let roce := (recAt r 9 1).testBit 2
    if s.get .SIL_CH_busy 0 ch = 1 then s
    else if backendCtx ≤ c then s.silRes ch 3
    else if s.get .SIL_CFG_udp_port = 0 ∨ (roce ∧ s.get .SIL_CFG_roce_en = 0) ∨ s.get .CN_state 0 c ≠ 0 ∨ !s.tenActive t then s.silRes ch 2
    else if !cnRecOk c r then s.silRes ch 3
    else if !(List.range 8).any (fun n => s.online n) then s.silRes ch 5
    else if !s.cnRecOwn r then s.silRes ch 4
    else
      let s := (s.set .CN_gen (s.get .CN_gen 0 c + 1) 0 c).cnLoad c r
      ((s.set .SIL_CH_conn_id (s.cnId c) 0 ch).set .SIL_CH_state 1 0 ch).silRes ch 0

/-- Bytes of a record that MODIFY may not change (Table SILL-6), as offset and length; mtu is R343's. -/
def cnFixed : List (Nat × Nat) := [(4, 1), (5, 1), (9, 1), (11, 1), (70, 2), (72, 4), (76, 4), (80, 4), (84, 4), (88, 4), (92, 4)]

/-- MODIFY's new record is applied between packets: changed key slots go to the other phases (R337). -/
def State.cnModify (s : State) (c r : Nat) : State :=
  let old := s.get .CN_rec 0 c
  let s := s.set .CN_rec r 0 c
  let s := s.when (decide (recAt old 12 4 ≠ recAt r 12 4)) (fun s =>
    let p := 1 - s.get .CN_kp 0 c
    ((((s.set .CN_tx_slot (recAt r 12 4) 0 (c * 2 + p)).set .CN_kp p 0 c).set .CN_cnt 0 0 c).set .CN_ctl 0 0 c).set .CN_stop 0 0 c)
  let s := s.when (decide (recAt old 16 4 ≠ recAt r 16 4)) (fun s =>
    let p := s.get .CN_rx_next 0 c
    (s.set .CN_rx_slot (recAt r 16 4) 0 (c * 2 + p)).set .CN_rx_next (1 - p) 0 c)
  s.each ((List.range (recAt r 6 2)).filter (fun k => decide (recAt old 6 2 ≤ k))) (fun k s => s.pathInit c k)

/-- SIL_MODIFY: command MODIFY of channel `ch` for context `c` (R321, R337, R343). -/
def execSilModify (ch c : Nat) (s : State) : Host.Outcome State Fault Refusal :=
  .next <|
    let r := s.chRec .SIL_CH_record ch 24
    let old := s.get .CN_rec 0 c
    if s.get .SIL_CH_busy 0 ch = 1 then s
    else if backendCtx ≤ c then s.silRes ch 3
    else if s.get .CN_state 0 c ≠ 1 then s.silRes ch 2
    else if cnFixed.any (fun p => decide (recAt old p.1 p.2 ≠ recAt r p.1 p.2)) ∨ !cnRecOk c r ∨
        (recAt old 8 1 ≠ recAt r 8 1 ∧ (!s.cnFlag c 2 ∨ s.get .CN_used 0 c = 1)) then s.silRes ch 3
    else if !(s.tenSlot (s.cnTenant c) (recAt r 12 4) && s.tenSlot (s.cnTenant c) (recAt r 16 4)) then s.silRes ch 4
    else (s.cnModify c r).silRes ch 0

/-- Whether a packet of connection `c` is in the device. -/
def State.cnPackets (s : State) (c : Nat) : Bool :=
  (s.keysOf .PKT_sil).any (fun k => decide (s.get .PKT_sil 0 k.2 = c + 1 ∧ s.get .PKT_live 0 k.2 = 1))

/-- A destroyed connection's context is released (R340). -/
def State.cnFree (s : State) (c : Nat) : State :=
  let ch := s.get .CN_dying 0 c - 1
  let s := ((s.set .CN_state 0 0 c).set .CN_dying 0 0 c).each (List.range 8) (fun n s => s.set .CACHE_in 0 n c)
  s.silRes ch 0

/-- SIL_DESTROY: sending stops and what is incomplete completes with FLUSHED; the context is FREE once no packet of it remains
(R340, Table SILL-9). -/
def execSilDestroy (ch c : Nat) (s : State) : Host.Outcome State Fault Refusal :=
  .next <|
    if s.get .SIL_CH_busy 0 ch = 1 then s
    else if backendCtx ≤ c then s.silRes ch 3
    else if s.get .CN_state 0 c = 0 ∨ s.get .CN_dying 0 c ≠ 0 then s.silRes ch 2
    else
      let s := ((s.cnFlush c msFLUSHED).set .CN_state 2 0 c).set .CN_dying (ch + 1) 0 c
      if s.cnPackets c then s.set .SIL_CH_busy 1 0 ch else s.cnFree c

/-- CONNECTION_RELEASE: no packet of a destroyed connection remains (R340). -/
def execConnectionRelease (c : Nat) (s : State) : Host.Outcome State Fault Refusal :=
  .next (if s.get .CN_dying 0 c ≠ 0 ∧ !s.cnPackets c then s.cnFree c else s)

/-- SIL_QUERY: command QUERY of channel `ch` for context `c` (R321). -/
def execSilQuery (ch c : Nat) (s : State) : Host.Outcome State Fault Refusal :=
  .next <|
    if s.get .SIL_CH_busy 0 ch = 1 then s
    else
      let s := (s.chShow .SIL_CH_record ch 24 (s.get .CN_rec 0 c)).set .SIL_CH_state (s.get .CN_state 0 c) 0 ch
      ((s.set .SIL_CH_active_paths (s.actPaths c 255).length 0 ch).set .SIL_CH_conn_id (s.cnId c) 0 ch).silRes ch 0

/-- Whether one of the reads that wait for a tag is of connection `c`. -/
def waitConn (c : Nat) : List Nat → Bool
  | _ :: _ :: _ :: kind :: x :: _ :: _ :: r => decide ((kind = 4 ∨ kind = 8) ∧ x = c) || waitConn c r
  | _ => false

/-- Whether a connection has an operation in progress in the transport block: a read of the host whose data it waits for, or a request
that it executes (R320). -/
def State.cnBusy (s : State) (c : Nat) : Bool :=
  (s.keysOf .TAG_state).any (fun k => decide (s.get .TAG_state k.1 k.2 ≠ 0 ∧
    (s.get .TAG_kind k.1 k.2 = 4 ∨ s.get .TAG_kind k.1 k.2 = 8) ∧ s.get .TAG_a k.1 k.2 = c)) ||
  (List.range 2).any (fun e => waitConn c (s.lget .readWait e)) || !(s.lget .cnExec 0 c).isEmpty

/-- Of two contexts of a region's cache the one used less recently. -/
def State.cacheOlder (s : State) (n : Nat) (m : Option Nat) (k : Nat) : Option Nat :=
  match m with
  | none => some k
  | some j => if s.get .CACHE_at n k < s.get .CACHE_at n j then some k else some j

/-- CONTEXT_CACHE_FILL: a context finishes loading; when 8,192 are held it takes the place of the least recently used one with no
operation in progress, and waits while there is none (R320). -/
def execContextCacheFill (n c : Nat) (s : State) : Host.Outcome State Fault Refusal :=
  .next <|
    if s.get .CACHE_fill n c = 0 then s
    else
      let held := ((s.keysOf .CACHE_in).filter (fun k => decide (k.1 = n))).map (·.2)
      let put := fun (s : State) => ((s.set .CACHE_fill 0 n c).set .CACHE_in 1 n c).cacheTouch n c
      if held.length < 8192 then put s
      else match (held.filter (fun k => !s.cnBusy k)).foldl (s.cacheOlder n) none with
        | some j => put ((s.set .CACHE_in 0 n j).set .CACHE_at 0 n j)
        | none => s

/-- A connection's step at the sender once its context and key are there (R323 to R327, R333, R355, R356): a due NAK, then lost
packets, then responses, then new packets. -/
def State.silStep (s : State) (n c st : Nat) : State :=
  let m := (s.lget .cnExec 0 c).headD 0
  let i := msIx c m
  if s.lget .cnExec 0 c ≠ [] ∧ s.get .RESP_nak 0 i ≠ 0 then
    (s.nakSend n c (s.get .RM_path 0 i) (s.get .RM_psn 0 i) m (s.get .RM_ts 0 i) st (s.get .RESP_nak 0 i)).respEnd c m
  else if !s.creditOk n (s.sendTenant c) then s
  else match s.lostPkt c with
    | some j => s.silResend n c j st
    | none =>
      if s.get .CN_stall 0 c = 1 ∨ !s.sqBme c then s
      else match s.respStep n c st with
        | (s, true) => s
        | (s, false) =>
          let s := s.when (decide (s.msgNext c = none)) (·.msgStart c)
          match s.msgNext c with
          | some m => s.msgStep n c m st
          | none => s

/-- Whether a packet is Sillage: UDP to udp_port (R314). -/
def State.isSil (s : State) (u : Udp) : Bool := decide (s.get .SIL_CFG_udp_port ≠ 0 ∧ u.dport = s.get .SIL_CFG_udp_port)

/-- What the tag of a packet says: it waits for a key, its cipher operation failed, its tag is bad, or its payload (R336, R392). -/
inductive SilOpened where
  | wait
  | fail
  | bad
  | ok (pl : List Nat)

/-- The payload of a packet for connection `c`; a packet whose enc differs from the connection's fails its tag (log entry 46). A fault
injected into the decryption breaks the tag check or is not detected, which being free (R391). -/
def State.silOpen (s : State) (n c : Nat) (x : SilHdr) (agree : Bool) : State × SilOpened :=
  if x.flags.testBit 0 ≠ s.cnFlag c 0 then (s, .bad)
  else if !s.cnFlag c 0 then (s, .ok x.body)
  else
    let slot := s.get .CN_rx_slot 0 (c * 2 + b2n (x.flags.testBit 3))
    match s.cipUse n slot (s.cnTenant c) agree with
    | (s, 1) => (s, .wait)
    | (s, 3) => (s, .fail)
    | (s, st) =>
      let ctl := decide (x.op = 0x10 ∨ x.op = 0x11)
      let nonce := silNonce x.conn x.psn (if ctl then 0xFFFFFFFF else x.ts)
      let key := s.cipKeyBytes n slot
      if st = 4 then
        let (s, l) := s.freeBytes (x.body.length + 1)
        (s, if l.headD 0 % 2 = 0 then .bad else .ok (l.drop 1))
      else if Config.verifies algGcmOpen [key, nonce, x.aad, x.body, x.tag] then
        (s, .ok ((Config.crypto algGcmOpen [key, nonce, x.aad, x.body] ++ List.replicate x.body.length 0).take x.body.length))
      else (s, .bad)

/-- A message's receive completion on its buffer falls due (R330). -/
def State.recvDone (s : State) (c m : Nat) : State :=
  let i := msIx c m
  let w := s.get .RM_buf 0 i - 1
  if s.get .RM_buf 0 i = 0 then s
  else ((s.set .WRK_bytes (s.get .RM_len 0 i) 0 w).set .WRK_msg m 0 w).workDone w 0

/-- The buffer that SEND `m` of a connection took is used up: the next SEND takes the buffer after it (R328). -/
def State.bufUsed (s : State) (c m : Nat) : State :=
  let (e, r) := ringNo (s.cn c 76 4)
  let l := s.lget .rxBufs e r
  let b := s.get .RM_buf 0 (msIx c m)
  (s.lset .rxBufs (if b = 0 then l.drop 1 else l.erase (b - 1)) e r).addw .RX_ssn 1 0 c

/-- A completion that carries immediate data: on no buffer, so its cookie is a free value, to the connection's completion ring, cq, on
whichever endpoint it is (R330; log entry 47). -/
def State.immDone (s : State) (c m : Nat) : State :=
  let i := msIx c m
  let (e, r) := ringNo (s.cn c 76 4)
  let (eq, q) := ringNo (s.cn c 80 4)
  let w := s.get .WRK_next
  let s := (((((s.set .WRK_ring r 0 w).set .WRK_ep e 0 w).set .WRK_cookie (s.freeVal 64) 0 w).set .WRK_next (w + 1)).set .WRK_now_ts 1 0 w).drew
  let s := (((s.set .WRK_bytes (s.get .RM_len 0 i) 0 w).set .WRK_msg m 0 w).set .WRK_imm (s.get .RM_imm 0 i) 0 w).set .WRK_flags 2 0 w
  match s.ringFn eq q with
  | some f => ((s.workDone w 0).reserve eq q w).cplPost eq f q w
  | none => s

/-- Whether the receiver's message in slot `i` is complete, earlier ones aside (R329, R340). -/
def State.rmWhole (s : State) (i : Nat) : Bool :=
  decide (s.get .RM_fail 0 i = 1) || !decide (s.get .RM_op 0 i ≤ 2) || decide (s.get .RM_len 0 i ≤ s.get .RM_cnt 0 i)

/-- Message `m` is complete at the receiver: its completion or its execution follows (R330). -/
def State.rmFinish (s : State) (c m : Nat) : State :=
  let i := msIx c m
  let s := s.set .RM_done 1 0 i
  match s.get .RM_op 0 i with
  | 0 => if isBackendCtx c then
      (if s.get .RM_fail 0 i = 1 then s
        else s.lset .beIn (s.lget .beIn 0 c ++ [(s.lget .beRx c (m % 64)).length] ++ s.lget .beRx c (m % 64)) 0 c).lset .beRx [] c (m % 64)
    else (s.when (decide (s.get .RM_fail 0 i = 0)) (·.recvDone c m)).bufUsed c m
  | 1 => s
  | 2 => if s.get .RM_fail 0 i = 1 then s else s.immDone c m
  | _ => if s.get .RM_fail 0 i = 1 then s else s.lpush .cnExec m 0 c

/-- Messages complete in order (R329), at most `fuel` of them. -/
def State.rmAdvance (s : State) (c : Nat) : Nat → State
  | 0 => s
  | fuel + 1 =>
    let m := s.get .CN_rmsg 0 c
    let i := msIx c m
    if s.get .RM_seen 0 i = 1 ∧ s.get .RM_id 0 i = m ∧ s.rmWhole i then
      ((s.addw .CN_rmsg 1 0 c).rmFinish c m).rmAdvance c fuel
    else s

/-- What became of a packet: it waits at the engine, it was accepted, it was refused with a NAK. -/
inductive SilFate where
  | wait
  | accept
  | nak (syn : Nat)

/-- A packet of a message of the peer: its counter is created by the first that arrives (R329). -/
def State.rmSeen (s : State) (c : Nat) (x : SilHdr) : State :=
  let i := msIx c x.msg
  if s.get .RM_seen 0 i = 1 ∧ s.get .RM_id 0 i = x.msg then s
  else
    let s := [Field.RM_cnt, .RM_done, .RM_fail, .RM_imm, .RM_buf, .RM_addr, .RM_key, .RM_opnd, .RM_cmp, .RESP_st, .RESP_nak, .RESP_hold].foldl
      (fun s f => s.clr f 0 i) s
    (((s.set .RM_seen 1 0 i).set .RM_id x.msg 0 i).set .RM_op x.op 0 i).set .RM_len x.len 0 i

/-- A message is refused: it counts as complete and gets no receive completion (R340). -/
def State.rmRefuse (s : State) (c : Nat) (x : SilHdr) : State := (s.rmSeen c x).set .RM_fail 1 0 (msIx c x.msg)

/-- Placement under a key: the check, the pages, the write (R347, R348, R354). `conn` none for a local check. -/
def State.placeKey (s : State) (n c : Nat) (conn : Option Nat) (key a right : Nat) (pl : List Nat) : State × SilFate :=
  if !s.keyCached n key then (s.keyMiss n key, .wait)
  else match s.keyCheck (s.repNow (regDie n)) (s.cnTenant c) conn key a pl.length right false with
    | 0 =>
      let r := s.mkRec (bitsOf key 8 20)
      match s.placeGate r a pl.length true with
      | (s, 0) => (s.keyWrite r a pl, .accept)
      | (s, 1) => (s, .wait)
      | (s, 2) => (s, .nak 1)
      | (s, _) => (s, .nak 3)
    | x => (s, .nak x)

/-- A packet of a SEND is placed in the buffer its ssn selects (R328, R348, R461). A packet that runs past its buffer fails as the
local check does (log entry 48). -/
def State.sendPlace (s : State) (n c : Nat) (x : SilHdr) (pl : List Nat) : State × SilFate :=
  let i := msIx c x.msg
  if isBackendCtx c then
    let s := s.rmSeen c x
    let b := s.lget .beRx c (x.msg % 64)
    (s.lset .beRx (splice (b ++ List.replicate (x.len - b.length) 0) x.off pl) c (x.msg % 64), .accept)
  else
    let (e, r) := ringNo (s.cn c 76 4)
    match (s.lget .rxBufs e r)[(beNat (x.ext.take 4) + 2 ^ 32 - s.get .RX_ssn 0 c) % 2 ^ 32]?, s.ringCq e r, s.ringFn e r with
    | some w, some q, some f =>
      if s.get .WRK_resv 0 w = 0 ∧ !s.cqFree e q then (s, .nak 4)
      else
        let bad := fun (s : State) => (((s.rmRefuse c x).set .RM_buf (w + 1) 0 i).workDone w msLOCAL_ACCESS, SilFate.nak 3)
        if s.get .WRK_len 0 w < x.off + pl.length then bad s
        else match s.placeKey n c none (s.get .WRK_lkey 0 w) (s.get .WRK_addr 0 w + x.off) 1 pl with
          | (s, .accept) =>
            let s := (s.rmSeen c x).set .RM_buf (w + 1) 0 i
            (s.when (decide (s.get .WRK_resv 0 w = 0)) (fun s => (s.reserve e q w).cqPause e f q), .accept)
          | (s, .nak 1) => (s, .nak 1)
          | (s, .nak _) => bad s
          | z => z
    | _, _, _ => (s, .nak 4)

/-- A request keeps what a NAK of it answers with: PSN, ts and path of its packet (Table SILL-1). -/
def State.reqNote (s : State) (c : Nat) (x : SilHdr) : State :=
  let i := msIx c x.msg
  ((s.set .RM_psn x.psn 0 i).set .RM_ts x.ts 0 i).set .RM_path x.path 0 i

/-- A packet of the peer's messages is checked and placed (R328, R347, R348). -/
def State.msgPlace (s : State) (n c : Nat) (x : SilHdr) (pl : List Nat) : State × SilFate :=
  let i := msIx c x.msg
  let known := decide (s.get .RM_seen 0 i = 1 ∧ s.get .RM_id 0 i = x.msg)
  let addr := beNat (x.ext.take 8)
  let key := beNat (slice x.ext 8 4)
  if known ∧ s.get .RM_fail 0 i = 1 then (s, .accept)
  else match x.op with
    | 0 => s.sendPlace n c x pl
    | 1 | 2 =>
      match s.placeKey n c (some (s.cnId c)) key (addr + x.off) 3 pl with
      | (s, .accept) => ((s.rmSeen c x).when (decide (x.op = 2)) (·.set .RM_imm (beNat (slice x.ext 16 4)) 0 i), .accept)
      | (s, .nak 1) => (s, .nak 1)
      | (s, .nak y) => (s.rmRefuse c x, .nak y)
      | z => z
    | 8 => ((s.rmSeen c x).reqNote c x, .accept)
    | op =>
      let atomic := decide (op ≠ 3)
      if !s.keyCached n key then (s.keyMiss n key, .wait)
      else match s.keyCheck (s.repNow (regDie n)) (s.cnTenant c) (some (s.cnId c)) key addr (if atomic then 8 else x.len) (if atomic then 4 else 2) atomic with
        | 0 =>
          match (if atomic then s.placeGate (s.mkRec (bitsOf key 8 20)) addr 8 true else (s, 0)) with
          | (s, 0) =>
            let s := (((s.rmSeen c x).set .RM_addr addr 0 i).set .RM_key key 0 i).reqNote c x
            ((s.set .RM_opnd (beNat (slice x.ext 16 8)) 0 i).set .RM_cmp (beNat (slice x.ext 24 8)) 0 i, .accept)
          | (s, 1) => (s, .wait)
          | (s, 2) => (s, .nak 1)
          | (s, _) => (s.rmRefuse c x, .nak 3)
        | y => (s.rmRefuse c x, .nak y)

/-- A READ, atomic operation or flush of this side is over: its completion falls due (R330, R339). -/
def State.msgAnswered (s : State) (c m st : Nat) : State :=
  let i := msIx c m
  let s := (s.set .MS_rxd 1 0 i).set .MS_posted 1 0 i
  (s.when (decide (s.get .MS_work 0 i ≠ 0)) (fun s => s.workDone (s.get .MS_work 0 i - 1) st)).msDrop c m

/-- A packet of a response to this side (R328, R330, R339, R348): one for no request is accepted and does nothing. -/
def State.respPlace (s : State) (n c : Nat) (x : SilHdr) (pl : List Nat) : State × SilFate :=
  let i := msIx c x.msg
  let w := s.get .MS_work 0 i - 1
  let op := s.get .MS_op 0 i
  if !(s.lget .cnMsgs 0 c).contains x.msg ∨ (x.op = 4 ∧ op ≠ 3) ∨ (x.op = 7 ∧ op ≠ 5 ∧ op ≠ 6) ∨ (x.op = 9 ∧ op ≠ 8) then (s, .accept)
  else if x.op = 9 then ((s.msgAnswered c x.msg (s.get .CN_fail_st 0 c)).set .CN_fail_st 0 0 c, .accept)
  else
    let d := if x.op = 7 then leBytes 8 (beNat (x.ext.take 8)) else pl
    match s.placeKey n c none (s.get .WRK_lkey 0 w) (s.get .WRK_addr 0 w + (if x.op = 7 then 0 else x.off)) 1 d with
    | (s, .accept) =>
      let s := s.addw .MS_rx d.length 0 i
      (s.when (decide (x.op = 7 ∨ s.get .MS_len 0 i ≤ s.get .MS_rx 0 i)) (·.msgAnswered c x.msg 0), .accept)
    | (s, .nak 1) => (s, .nak 1)
    | (s, .nak _) => (s.msFail c x.msg msLOCAL_ACCESS, .accept)
    | z => z

/-- A packet within the window and not yet received (R328 to R332). A packet of a message already over, or beyond the 64 in flight, is
accepted or dropped as its place says. -/
def State.silAccept (s : State) (n c h st : Nat) (x : SilHdr) (pl : List Nat) : State :=
  let dm := (x.msg + 2 ^ 32 - s.get .CN_rmsg 0 c) % 2 ^ 32
  let own := decide (x.op = 4 ∨ x.op = 7 ∨ x.op = 9 ∨ x.op = 0x12)
  if !own ∧ 64 ≤ dm ∧ dm < 2 ^ 31 then (s.bump .SIL_RX_CNT0_oow_drops n).engineTake h
  else
    let r := if x.op = 0x12 ∨ (!own ∧ 2 ^ 31 ≤ dm) then (s, SilFate.accept) else if own then s.respPlace n c x pl else s.msgPlace n c x pl
    match r with
    | (s, .wait) => s
    | (s, .accept) =>
      let s := (s.ackNote c x.path x.ts (s.ingressTuple h)).psnTake c x.psn
      let s := s.when (!own && decide (x.op ≤ 2) && decide (dm < 64)) (·.addw .RM_cnt pl.length 0 (msIx c x.msg))
      ((s.rmAdvance c 64).ackCount n c st (x.flags.testBit 1)).engineTake h
    | (s, .nak y) =>
      let s := s.ackNote c x.path x.ts (s.ingressTuple h)
      let s := s.when (decide (y = 2 ∨ y = 3)) (fun s => (((s.psnTake c x.psn).rmAdvance c 64).addw .CN_ackn 1 0 c))
      (s.nakSend n c x.path x.psn x.msg x.ts st y).engineTake h

/-- A Sillage packet that stands at the transport block of its region, and its connection's context there: its header and payload;
`none` where this step dropped it or it waits (R318, R320, R321, R336). A packet over the other IP version than the connection's is one for
no connection (R314; log entry 162). `ctl` tells which packets the command takes. -/
def State.silTake (s : State) (n h : Nat) (agree : Bool) (ctl : Nat → Bool) : State × Option (Nat × Nat × SilHdr × List Nat) :=
  match udpOf (s.lget .pktBytes 0 h) with
  | none => (s, none)
  | some u =>
    if !s.isSil u then (s, none)
    else if !u.ok then (s.engineTake h, none)
    else match silParse u.pay with
      | none => ((s.bump .SIL_RX_CNT1_bad_header n).engineTake h, none)
      | some x =>
        let c := x.conn % 2 ^ 22
        if s.get .CN_state 0 c ≠ 1 ∨ x.conn ≠ s.cnId c ∨ s.cnFlag c 2 ∨ u.v6 ≠ s.cnFlag c 1 then ((s.bump .SIL_RX_CNT1_conn_unknown n).engineTake h, none)
        else if s.get .CACHE_in n c = 0 then (s.cacheMiss n c, none)
        else if !ctl x.op then (s, none)
        else
          match (s.cacheTouch n c).txKey n c true with
          | (s, 1) => (s, none)
          | (s, st) =>
            match s.silOpen n c x agree with
            | (s, .wait) => (s, none)
            | (s, .fail) => ((s.cipFail n).dropPkt h reasonCIPHER_FAIL, none)
            | (s, .bad) => ((s.bump .SIL_RX_CNT1_tag_fail n).engineTake h, none)
            | (s, .ok pl) => (s.set .CN_used 1 0 c, some (c, st, x, pl))

/-- A data packet or PROBE of a connection by its PSN: a duplicate, one beyond the window, or one to accept (R328, R331, R332). -/
def State.silData (s : State) (n c h st : Nat) (x : SilHdr) (pl : List Nat) : State :=
  let d := (x.psn + 2 ^ 32 - s.get .CN_rlow 0 c) % 2 ^ 32
  if 2 ^ 31 ≤ d ∨ (d < 256 ∧ (s.get .CN_rmap 0 c).testBit d) then
    let s := (s.bump .SIL_RX_CNT0_dup_pkts n).ackNote c x.path x.ts (s.ingressTuple h)
    let s := s.when (decide (x.op = 5 ∨ x.op = 6) && s.atomKept c x.msg && !(s.lget .cnExec 0 c).contains x.msg) (fun s =>
      (s.set .RESP_st 3 0 (msIx c x.msg)).lpush .cnExec x.msg 0 c)
    (s.ackSend n c st).engineTake h
  else if 256 ≤ d then (s.bump .SIL_RX_CNT0_oow_drops n).engineTake h
  else s.silAccept n c h st x pl

/-- SILLAGE_PACKET_RECEIVE: a data packet or PROBE at the transport block of region `n` is received (R328 to R332, R347 to R349, R354);
a packet that is neither Sillage nor RoCE passes the block (log entry 49). -/
def execSillagePacketReceive (n h : Nat) (agree : Bool) (s : State) : Host.Outcome State Fault Refusal :=
  .next <|
    if !s.atEngine n h 6 then s
    else
      let other := match udpOf (s.lget .pktBytes 0 h) with
        | none => true
        | some u => !s.isSil u && !(decide (s.get .SIL_CFG_roce_en = 1 ∧ u.dport = 4791))
      if other then s.stageNext h
      else match s.silTake n h agree (fun op => decide (op ≠ 0x10 ∧ op ≠ 0x11)) with
        | (s, none) => s
        | (s, some (c, st, x, pl)) => s.silData n c h st x pl

/-- ACK_DELAY_EXPIRY: ack_delay after the first unacknowledged acceptance an ACK is sent (R332). -/
def execAckDelayExpiry (c : Nat) (s : State) : Host.Outcome State Fault Refusal :=
  .next <|
    let n := s.cnRegion c
    if s.get .CN_state 0 c ≠ 1 ∨ s.get .CN_ack_at 0 c = 0 ∨ s.fatal ∨ s.get .SIL_CFG_udp_port = 0 then s
    else
      let s := s.advanceTo (s.get .CN_ack_at 0 c + max 1 (s.get .SIL_ACK_CFG_ack_delay) * 400)
      match s.txKey n c true with
      | (s, 1) => s
      | (s, st) => s.ackSend n c st

/-- Whether an ACK tells that PSN `p` was received. -/
def ackHas (base : Nat) (map : List Nat) (p : Nat) : Bool :=
  let d := (p + 2 ^ 32 - base) % 2 ^ 32
  decide (2 ^ 31 ≤ d) || (decide (1 ≤ d ∧ d ≤ 256) && (map.getD ((d - 1) / 8) 0).testBit (7 - (d - 1) % 8))

/-- Loss detection: stored packet `j` was received; packets sent earlier on its path and still outstanding have one more after them,
and with three are lost (R333, R355). -/
def State.laterThan (s : State) (c j : Nat) : State :=
  s.each (s.rtWhere c (fun s i => decide (s.get .RT_st 0 i = 1 ∧ s.get .RT_path 0 i = s.get .RT_path 0 j ∧
      s.get .RT_seq 0 i < s.get .RT_seq 0 j ∧ s.get .RT_exempt 0 i = 0))) (fun i s =>
    let k := s.get .RT_later 0 i + 1
    if 3 ≤ k then (s.set .RT_st 2 0 i).set .RT_later 0 0 i else s.set .RT_later k 0 i)

/-- RTT estimates of a path take a sample, gains 1/8 and 1/4 (R333). -/
def State.rttSample (s : State) (c k rtt : Nat) : State :=
  let i := ptIx c k
  if s.get .PT_sampled 0 i = 0 then ((s.set .PT_sampled 1 0 i).set .PT_srtt rtt 0 i).set .PT_rttvar (rtt / 2) 0 i
  else
    let sr := s.get .PT_srtt 0 i
    (s.set .PT_rttvar ((3 * s.get .PT_rttvar 0 i + (max sr rtt - min sr rtt)) / 4) 0 i).set .PT_srtt ((7 * sr + rtt) / 8) 0 i

/-- A sample judged by the delay the controller uses: `d` against bases `cur` and `prev` (R335). -/
def State.rateCtl (s : State) (c k d target acked : Nat) (cur prev : Field) : State :=
  let i := ptIx c k
  let base := min d (min (s.get cur 0 i) (s.get prev 0 i))
  let s := s.set cur (min d (s.get cur 0 i)) 0 i
  let q := d - base
  let dp := s.silPort c k
  let rate := s.get .PT_rate 0 i
  if q ≤ target then
    s.set .PT_rate (min (rate + s.get .SIL_CC_CFG1_ai_mbps * 256 * acked / s.cnMtu c)
      (modeRate (s.get .ETH_MODE_mode (dp / 8 % 2)) * 256000)) 0 i
  else if s.get .PT_dec 0 i + s.get .PT_srtt 0 i ≤ s.now then
    let cut := rate * s.get .SIL_CC_CFG1_beta * (q - target) / (256 * q)
    (s.set .PT_rate (max (rate - cut) s.minRate) 0 i).set .PT_dec s.now 0 i
  else s

/-- The two delay samples of an ACK of path `k`, and the controller on the one that counts (R334, R335). -/
def State.ackSamples (s : State) (n c k : Nat) (x : SilHdr) (rx acked : Nat) (unc : Option Nat) : State :=
  let owd := beAt x.ext 32 4
  let rtt := (rx % 2 ^ 32 + 2 ^ 33 - x.ts - beAt x.ext 36 4) % 2 ^ 32
  let s := s.rttSample c k rtt
  let tgt := s.get .SIL_CC_CFG0_target_ns * nsUnits
  let ok := !s.cnFlag c 3 && decide (beAt x.ext 42 2 % 4 = 0) && (match unc with
    | some u => decide (beAt x.ext 40 2 + u ≤ s.get .SIL_CC_CFG0_owd_unc_max)
    | none => false)
  if ok then s.rateCtl c k owd tgt acked .PT_bcur .PT_bprev
  else
    let f := s.get .CN_fb n
    let s := if f = 1023 then (s.set .CN_fb 0 n).bump .SIL_TX_CNT_fallback_rtt n else s.set .CN_fb (f + 1) n
    s.rateCtl c k rtt (2 * tgt) acked .PT_rcur .PT_rprev

/-- A message of this side that is sent whole, has its completion due and no packet outstanding is over. -/
def State.msgReap (s : State) (c : Nat) : State :=
  s.each (s.lget .cnMsgs 0 c) (fun m s =>
    let i := msIx c m
    if s.get .MS_st 0 i = 2 ∧ s.get .MS_op 0 i ≤ 2 ∧ s.get .MS_posted 0 i = 1 ∧
        s.rtWhere c (fun s j => decide (s.get .RT_msg 0 j = m ∧ s.get .RT_resp 0 j = 0 ∧ s.get .RT_st 0 j ≠ 3)) = [] then s.msDrop c m else s)

/-- An ACK of a connection: what it acknowledges leaves the store, losses are found, retired paths whose probe it acknowledges first are
restored, and its samples are taken (R324, R327, R333 to R335). -/
def State.ackTaken (s : State) (n c h : Nat) (x : SilHdr) : State :=
  let k := x.path
  let i := ptIx c k
  let map := x.ext.take 32
  let rx := s.ingressTuple h % 2 ^ 64
  let new := s.rtWhere c (fun s j => decide (s.get .RT_st 0 j ≠ 3) && ackHas x.sack map (s.get .RT_psn 0 j))
  let unc := ((s.rtWhere c (fun s j => decide (s.get .RT_ts 0 j % 2 ^ 32 = x.ts ∧ s.get .RT_path 0 j = k))).head?).map (fun j => s.get .RT_unc 0 j)
  let bytes := fun (j : Nat) => storedPay false (s.lget .rtData c (j % 256))
  let acked := ((new.filter (fun j => decide (s.get .RT_path 0 j = k))).map bytes).sum
  let back := ((new.filter (fun j => decide (s.get .RT_op 0 j = 0x12 ∧ s.get .PT_retired 0 (ptIx c (s.get .RT_path 0 j)) = 1))).map
    (fun j => s.get .RT_path 0 j)).eraseDups
  let s := s.each new (fun j s => (s.set .RT_left 1 0 j).laterThan c j)
  let s := ((s.each new (fun j s => s.rtAck c j)).unaAdvance c 256).set .CN_peer (beAt x.ext 44 4) 0 c
  let s := s.each (s.lget .cnMsgs 0 c) (fun m s => s.msSent c m)
  let s := (s.msgReap c).set .PT_tos 0 0 i
  ((s.each back (fun p s => (s.pathInit c p).cnEvent c 4 p)).ackSamples n c k x rx acked unc).engineTake h

/-- ACK_RECEIVE: an ACK at the transport block of region `n` (R327, R333 to R335, R341). -/
def execAckReceive (n h : Nat) (agree : Bool) (s : State) : Host.Outcome State Fault Refusal :=
  .next <|
    if !s.atEngine n h 6 then s
    else match s.silTake n h agree (fun op => decide (op = 0x10)) with
      | (s, none) => s
      | (s, some (c, _, x, _)) => s.ackTaken n c h x

/-- A NAK of a connection, by its syndrome (Table SILL-8). RETRY_AFTER and NO_RECV_BUF hold back the rest of the message, a request's or a
response's, and start the wait of its refused packets anew (R355). -/
def State.nakTaken (s : State) (c h : Nat) (x : SilHdr) : State :=
  let j := rtIx c x.sack
  let held := decide (s.get .RT_st 0 j ≠ 0 ∧ s.get .RT_st 0 j ≠ 3 ∧ s.get .RT_psn 0 j = x.sack)
  let m := if held then s.get .RT_msg 0 j else x.msg
  let i := msIx c m
  let resp := decide (held ∧ s.get .RT_resp 0 j = 1)
  let due := s.now + beAt x.ext 2 2 * usUnits
  let wait := fun (s : State) =>
    let s := s.when held (fun s => (s.set .RT_st 4 0 j).set .RT_exempt 1 0 j)
    let s := s.each (s.rtWhere c (fun s k => decide (s.get .RT_st 0 k = 4 ∧ s.get .RT_msg 0 k = m ∧ s.get .RT_resp 0 k = b2n resp))) (fun k s =>
      s.set .RT_at due 0 k)
    s.set (if resp then .RESP_hold else .MS_hold) due 0 i
  let fail := fun (st : Nat) (s : State) => if resp then (s.rtAck c j).unaAdvance c 256 else s.msFail c m st
  let s := match x.ext.getD 0 0 with
    | 1 => wait s
    | 2 => fail msACCESS_REVOKED s
    | 3 => fail msACCESS_ERR s
    | 4 =>
      if s.get .MS_hold 0 i ≤ s.now then
        (if s.get .SIL_ACK_CFG_rnr_retries ≤ s.get .MS_rnr 0 i then fail msRNR_EXCEEDED s else wait (s.addw .MS_rnr 1 0 i))
      else wait s
    | _ => fail msREMOTE_OP_ERR s
  s.engineTake h

/-- NAK_RECEIVE: a NAK at the transport block of region `n` (Table SILL-8, R340, R355, R358). -/
def execNakReceive (n h : Nat) (agree : Bool) (s : State) : Host.Outcome State Fault Refusal :=
  .next <|
    if !s.atEngine n h 6 then s
    else match s.silTake n h agree (fun op => decide (op = 0x11)) with
      | (s, none) => s
      | (s, some (c, _, x, _)) => s.nakTaken c h x

/-- RETRY_AFTER_RESEND: retry_us after its NAK a packet goes among those to be sent again (R355). -/
def execRetryAfterResend (c psn : Nat) (s : State) : Host.Outcome State Fault Refusal :=
  .next <|
    let i := rtIx c psn
    if s.get .CN_state 0 c = 1 ∧ s.get .RT_st 0 i = 4 ∧ s.get .RT_psn 0 i = psn then
      (s.advanceTo (s.get .RT_at 0 i)).set .RT_st 2 0 i
    else s

/-- A path is retired (R333); with every path retired the connection enters ERROR. -/
def State.pathRetire (s : State) (n c k : Nat) : State :=
  let s := ((s.set .PT_retired 1 0 (ptIx c k)).set .PT_probe_at s.now 0 (ptIx c k)).bump .SIL_TX_CNT_path_retire n
  let s := s.cnEvent c 3 k
  if s.actPaths c 255 = [] then s.cnError c else s

/-- RETRANSMIT_TIMEOUT: the timeout of path `k` expires: what is outstanding on it is lost, its rate halves, and after retire_count in
a row it is retired (R333, R335). On a RoCE connection every outstanding packet goes back to be sent (Table SILL-11). -/
def execRetransmitTimeout (c k : Nat) (s : State) : Host.Outcome State Fault Refusal :=
  .next <|
    let n := s.cnRegion c
    let l := s.rtWhere c (fun s i => decide (s.get .RT_st 0 i = 1 ∧ s.get .RT_path 0 i = k ∧ s.get .RT_exempt 0 i = 0))
    if s.get .CN_state 0 c ≠ 1 ∨ l = [] then s
    else
      let t := s.repNow (regDie n)
      let age := l.foldl (fun m i => max m (t - s.get .RT_ts 0 i)) 0
      let s := s.advanceTo (s.now + (s.rto c k - age))
      let s := (s.each l (fun i s => s.set .RT_st 2 0 i)).halve c k
      if s.cnFlag c 2 then
        let s := s.addw .CN_to 1 0 c
        if s.get .SIL_ACK_CFG_max_retx < s.get .CN_to 0 c then s.cnError c else s
      else
        let s := s.addw .PT_tos 1 0 (ptIx c k)
        if max 1 (s.get .SIL_PATH_CFG_retire_count) ≤ s.get .PT_tos 0 (ptIx c k) ∧ s.get .PT_retired 0 (ptIx c k) = 0 then s.pathRetire n c k else s

/-- PROBE: every probe_ms a retired path receives a PROBE, which takes a PSN (R323, R333, R336). Its msg_id is a free value (log entry
44). -/
def execProbe (c k : Nat) (agree : Bool) (s : State) : Host.Outcome State Fault Refusal :=
  .next <|
    let n := s.cnRegion c
    if s.get .CN_state 0 c ≠ 1 ∨ s.get .PT_retired 0 (ptIx c k) = 0 ∨ s.get .CN_stop 0 c = 1 ∨ s.fatal ∨ !s.psnOk c 0 ∨ s.get .SIL_CFG_udp_port = 0 then s
    else
      let s := s.advanceTo (s.get .PT_probe_at 0 (ptIx c k) + max 1 (s.get .SIL_PATH_CFG1_probe_ms) * msUnits)
      match s.txKey n c agree with
      | (s, 1) => s
      | (s, st) =>
        let m := s.freeVal 32
        (s.drew.set .PT_probe_at s.now 0 (ptIx c k)).silNew n c k st 0x12 m 0 0 [] [] true

/-- BASE_WINDOW_ROLL: the delay bases of every path of a connection roll over (R335). -/
def execBaseWindowRoll (c : Nat) (s : State) : Host.Outcome State Fault Refusal :=
  .next <|
    let s := s.advanceTo (s.get .CN_bw_at 0 c + max 1 (s.get .SIL_PATH_CFG1_base_window_ms) * msUnits)
    (s.set .CN_bw_at s.now 0 c).each ((List.range (s.nPaths c)).map (ptIx c)) (fun i s =>
    ((s.set .PT_bprev (s.get .PT_bcur 0 i) 0 i).set .PT_bcur (2 ^ 32) 0 i).set .PT_rprev (s.get .PT_rcur 0 i) 0 i |>.set .PT_rcur (2 ^ 32) 0 i)

end Sys2Proof.Machine
end

