-- ==== Sys2Proof/Machine/Mkeys.lean ====
section
/-! DEFINITION. Memory registration and on-demand paging (spec file 12, R345 to R360). -/

namespace Sys2Proof.Machine

/-- Whether function `f` of endpoint `e` is a present function other than PF2 (Table MREG-1). -/
def State.keyFnOk (s : State) (e f : Nat) : Bool :=
  decide (f < 1028 ∧ f ≠ 2 ∧ s.get .PCI_FN_STAT_present e f = 1)

/-- Whether the fields of a key record lie in Table MREG-1 and the combinations of R350. -/
def State.keyRecOk (s : State) (r : Nat) : Bool :=
  let at_ := fun (o n : Nat) => recAt r o n
  let rights := at_ 2 1
  decide (rights < 32 ∧ at_ 3 1 < 4 ∧ at_ 5 1 = 0 ∧ bitsOf r 84 11 = 0 ∧ at_ 40 24 = 0) && s.keyFnOk (mkEp r) (mkFn r) &&
  decide (1 ≤ at_ 24 8 ∧ at_ 24 8 ≤ 2 ^ 48 ∧ at_ 16 8 + at_ 24 8 ≤ 2 ^ 64 ∧ at_ 32 8 % 4096 = at_ 16 8 % 4096) &&
  (!(rights.testBit 3 || rights.testBit 4) || rights.testBit 1)

/-- Result of REGISTER of key `k` with a variant and record words `r`: 0 when it is accepted. The spec gives the rejections no
order: state, fields, tenant, variant, paging (R350, R470, Table MREG-4; log entry 52). -/
def State.registerCheck (s : State) (k v r : Nat) : Nat :=
  let e := mkEp r
  let f := mkFn r
  let t := recAt r 4 1
  if s.mkState k = 1 ∨ s.get .MK_revoke_at 0 k ≠ 0 ∨ !s.tenActive t then 2
  else if !s.keyRecOk r then 3
  else if s.ownerOf e f ≠ t ∨ (mkPasid r ≠ 0 ∧ !s.tenPasid t (mkPasid r - 1)) then 4
  else if s.mkState k ≠ 0 ∧ s.mbyte (mkAddr k) = v then 5
  else if (mkPaged r ∧ (s.get .FN_ats_en e f = 0 ∨ s.get .FN_pri_en e f = 0)) ∨ (mkPasid r ≠ 0 ∧ s.get .FN_pasid_en e f = 0) then 6
  else 0

/-- REGISTER_MKEY: command REGISTER of channel `ch`: the record is written and VALID in every region at one instant (R350). -/
def execRegisterMkey (ch k v : Nat) (s : State) : Host.Outcome State Fault Refusal :=
  .next <|
    let r := s.chRec .MKY_CH_record ch 16
    if s.get .MKY_CH_busy 0 ch = 1 then s
    else
      match s.registerCheck k v r with
      | 0 => (s.mwrite (mkAddr k) ([v, 1] ++ (leBytes 64 r).drop 2)).mkyRes ch 0
      | x => s.mkyRes ch x

/-- Whether key `k` is VALID now with a variant. -/
def State.mkValid (s : State) (k v : Nat) : Bool :=
  decide (s.mkState k = 1 ∧ s.get .MK_revoke_at 0 k = 0 ∧ s.mbyte (mkAddr k) = v)

/-- INVALIDATE_MKEY: command INVALIDATE_MKEY of channel `ch`: revoke_at is 2 µs on, and the channel is busy until completion
(R357, R359). -/
def execInvalidateMkey (ch k v : Nat) (s : State) : Host.Outcome State Fault Refusal :=
  .next <|
    if s.get .MKY_CH_busy 0 ch = 1 then s
    else if !s.mkValid k v then s.mkyRes ch 2
    else
      let s := s.mkRevoke k (ch + 1)
      (s.set .MKY_CH_revoke_at (s.get .MK_revoke_at 0 k) 0 ch).set .MKY_CH_busy 1 0 ch

/-- REVOKE_AT: revoke_at of key `k` comes: from this DTS on every check treats the record as INVALID (R357, `State.mkInvalid`). -/
def execRevokeAt (k : Nat) (s : State) : Host.Outcome State Fault Refusal :=
  .next (if s.get .MK_revoke_at 0 k = 0 then s else s.advanceTo (s.get .MK_revoke_at 0 k))

/-- Whether an operation admitted under key `k` still reads: a READ response being sent, or payload of which a stall has already
read part (R359, R360). -/
def State.mkReading (s : State) (k : Nat) : Bool :=
  (s.keysOf .RESP_st).any (fun x =>
    decide (s.get .RESP_st 0 x.2 = 1 ∧ bitsOf (s.get .RESP_key 0 x.2) 8 20 = k) &&
    (s.lget .cnExec 0 (x.2 / 64)).any (fun m => decide (m % 64 = x.2 % 64))) ||
  (s.keysOf .CN_stall).any (fun x =>
    let c := x.2
    let m := s.get .CN_stall_m 0 c
    decide (s.get .CN_stall 0 c = 1 ∧ s.get .CN_stall_r 0 c = 0 ∧ s.get .MS_work 0 (msIx c m) ≠ 0 ∧
      bitsOf (s.get .WRK_lkey 0 (s.get .MS_work 0 (msIx c m) - 1)) 8 20 = k ∧ s.lget .msgData c (m % 64) ≠ []))

/-- The translations of a paged key's pages are dropped; a PRI response for them then finds nothing to act on (R359). -/
def State.mkDropPages (s : State) (k : Nat) : State :=
  let r := s.mkRec k
  if !mkPaged r then s
  else
    s.atcDrop (mkEp r) (fun i => decide (i / 2 ^ 52 = mkFn r * 2 ^ 21 + mkPasid r) &&
      within (i % 2 ^ 52) (recAt r 32 8 / 4096) ((recAt r 32 8 % 4096 + recAt r 24 8 + 4095) / 4096))

/-- A revocation is complete: the record is INVALID, its translations are dropped, the channel that waits is done (R359). A PREFETCH of
the key that is in progress ends with STATE (log entry 52). -/
def State.mkDone (s : State) (k : Nat) : State :=
  let ch := s.get .MK_ch 0 k
  let s := (((s.mkSetState k 2).mkDropPages k).set .MK_revoke_at 0 0 k).set .MK_ch 0 0 k
  let s := s.each (List.range 4) (fun ch s =>
    if s.get .MKY_pf 0 ch = 1 ∧ s.get .MKY_pf_key 0 ch = k then (s.set .MKY_pf 0 0 ch).mkyRes ch 2 else s)
  if ch = 0 then s else s.mkyRes (ch - 1) 0

/-- MKEY_INVALIDATE_COMPLETE: revoke_at has passed and what was admitted before it has been issued (R359, R360). -/
def execMkeyInvalidateComplete (k : Nat) (s : State) : Host.Outcome State Fault Refusal :=
  .next <|
    if s.get .MK_revoke_at 0 k = 0 then s
    else
      let s := s.advanceTo (s.get .MK_revoke_at 0 k)
      if s.mkReading k then s else s.mkDone k

/-- MKY_QUERY: command QUERY of channel `ch`: the record, its state as checks see it (Table MREG-4). -/
def execMkyQuery (ch k : Nat) (s : State) : Host.Outcome State Fault Refusal :=
  .next <|
    if s.get .MKY_CH_busy 0 ch = 1 then s
    else
      let r := s.mkRec k
      (s.chShow .MKY_CH_record ch 16 (if s.mkInvalid k s.now then putBits r 8 8 2 else r)).mkyRes ch 0

/-- PREFETCH: command PREFETCH of channel `ch` over its va and length words (Table MREG-4). -/
def execPrefetch (ch k v : Nat) (s : State) : Host.Outcome State Fault Refusal :=
  .next <|
    let r := s.mkRec k
    let (a, len) := s.mkyRange ch
    if s.get .MKY_CH_busy 0 ch = 1 then s
    else if !s.mkValid k v ∨ !mkPaged r then s.mkyRes ch 2
    else if a < recAt r 16 8 ∨ recAt r 16 8 + recAt r 24 8 < a + len then s.mkyRes ch 3
    else (((s.set .MKY_CH_busy 1 0 ch).set .MKY_pf 1 0 ch).set .MKY_pf_key k 0 ch).pfStep ch

/-- Keys that a region's transport block caches. -/
def State.keyHeld (s : State) (n : Nat) : List Nat :=
  ((s.keysOf .KEYC_valid).filter (fun x => decide (x.1 = n ∧ s.get .KEYC_valid n x.2 = 1))).map (·.2)

/-- KEY_RECORD_FILL: a record finishes loading; with 4,096 held, one leaves, which one being open (R346). -/
def execKeyRecordFill (n k : Nat) (s : State) : Host.Outcome State Fault Refusal :=
  .next <|
    if s.get .KEYC_fill n k = 0 then s
    else
      let held := s.keyHeld n
      let s := if held.length < 4096 then s
        else s.drew.set .KEYC_valid 0 n (held.getD (s.freeVal 32 % held.length) 0)
      (s.set .KEYC_fill 0 n k).set .KEYC_valid 1 n k

/-- ATS_TRANSLATION_COMPLETE: the answer to a translation request. A page that is not present is asked for by a page request
(R353); one that can be read enters the cache and ends the stalls on it (R352, R356). -/
def execAtsTranslationComplete (e f pasid page addr perm : Nat) (s : State) : Host.Outcome State Fault Refusal :=
  .next <|
    let i := atcIx f pasid page
    if s.get .ATC_st e i ≠ 1 then s
    else if perm % 4 = 0 then ((s.set .ATC_st 3 e i).priAsk e i).pfAll
    else
      let s := (((s.atcRoom e).set .ATC_st 2 e i).set .ATC_addr (addr * 4096) e i).set .ATC_perm perm e i
      let s := if perm.testBit 0 then s.each (s.stalledOn e i) (fun c s => s.set .CN_stall 0 0 c)
        else s.when (decide (s.stalledOn e i ≠ [])) (·.priAsk e i)
      s.pfAll

/-- ATS_INVALIDATION: the translations of a range are dropped, and the invalidation is completed once every request that used one
has been issued (R352). -/
def execAtsInvalidation (e f pasid page n : Nat) (s : State) : Host.Outcome State Fault Refusal :=
  .next <|
    let s := s.atcDrop e (fun i => decide (i / 2 ^ 52 = f * 2 ^ 21 + pasid ∧ s.get .ATC_st e i = 2) && within (i % 2 ^ 52) page n)
    (s.addw .ATS_inv 1 e f).atsInvDone e f

/-- A page request is over: its slot goes to a fault that waits (R353). -/
def State.priEnd (s : State) (e i : Nat) : State :=
  let f := i / 2 ^ 73
  let s := (s.set .PRI_out 0 e i).set .MKY_PRI_STAT_outstanding (s.get .MKY_PRI_STAT_outstanding e - 1) e
  s.each (s.keysOf .PRI_wait) (fun x s => if x.1 = e ∧ x.2 / 2 ^ 73 = f then s.priAsk e x.2 else s)

/-- A page request failed: every operation that waits on the page fails, ACCESS_ERR inbound and LOCAL_ACCESS local (R353, R356). -/
def State.priFail (s : State) (e i : Nat) : State :=
  if s.get .ATC_st e i = 0 then s
  else
    let s := (s.set .ATC_st 4 e i).each (s.stalledOn e i) (fun c s =>
      let s := s.set .CN_stall 0 0 c
      let m := s.get .CN_stall_m 0 c
      if s.get .CN_stall_r 0 c = 1 then s.respNak c m 3 else s.msFail c m msLOCAL_ACCESS)
    s.pfAll

/-- PRI_RESPONSE: the host answers a page request (R353). A page whose translation was dropped meanwhile discards it (R359). -/
def execPriResponse (e f pasid page code : Nat) (s : State) : Host.Outcome State Fault Refusal :=
  .next <|
    let i := atcIx f pasid page
    if s.get .PRI_out e i = 0 then s
    else if code = 0 then
      let s := s.priEnd e i
      if s.get .ATC_st e i = 0 then s else (s.set .ATC_st 0 e i).atsAsk e f pasid page
    else
      let s := s.when (decide (code = 15)) (·.set .PRI_stop 1 e f)
      ((s.bump .MKY_PRI_STAT_pri_fail e).priEnd e i).priFail e i

/-- PRI_TIMEOUT: pri_timeout_ms has passed since a page request (R353). -/
def execPriTimeout (e f pasid page : Nat) (s : State) : Host.Outcome State Fault Refusal :=
  .next <|
    let i := atcIx f pasid page
    if s.get .PRI_out e i = 0 then s
    else
      let s := s.advanceTo (s.get .PRI_at e i + max 1 (s.get .MKY_CFG_pri_timeout_ms) * msUnits)
      ((s.bump .MKY_PRI_STAT_pri_fail e).priEnd e i).priFail e i

end Sys2Proof.Machine
end

