-- ==== Sys2Proof/Machine/StoreCmd.lean ====
section
/-! DEFINITION. The path of a storage command (spec file 13, R365 to R385): its namespace and region, its data in host memory, the
overlap check, sending to a backend, completion, and the registers of a controller. -/

namespace Sys2Proof.Machine

/-- Bytes [off, off + n) of a command's submission queue entry. -/
def State.sq4 (s : State) (id off n : Nat) : Nat := recAt (s.get .CM_sqe 0 id) off n

/-- Opcode of a command. -/
def State.cmdOp (s : State) (id : Nat) : Nat := s.sq4 id 0 1

/-- Whether a command is an admin command. -/
def State.cmdAdmin (s : State) (id : Nat) : Bool := decide (s.get .CM_sq 0 id = 0)

/-- Namespace index plus 1 attached to controller `k` as `nsid`, 0 none. -/
def State.nsOf (s : State) (k nsid : Nat) : Nat := if 1 ≤ nsid ∧ nsid ≤ 256 then s.get .NSA 0 (k * 257 + nsid) else 0

/-- Namespace index plus 1 that command `id` names: the one attached under its nsid, or one that is being detached and was attached
when the command was fetched (R370); 0 none. -/
def State.cmdNs (s : State) (id : Nat) : Nat :=
  let k := s.get .CM_ctrl 0 id
  let nsid := s.sq4 id 4 4
  let i := k * 257 + nsid
  if s.nsOf k nsid ≠ 0 then s.nsOf k nsid
  else if 1 ≤ nsid ∧ nsid ≤ 256 ∧ s.get .CM_seq 0 id < s.get .NSA_seq 0 i then s.get .NSA_old 0 i else 0

/-- Bytes [off, off + w) of a namespace record (Table STOR-5). -/
def State.nsAt (s : State) (n off w : Nat) : Nat := recAt (s.get .NS_rec 0 n) off w

/-- Bytes [off, off + w) of a backend record (Table STOR-3). -/
def State.beField (s : State) (b off w : Nat) : Nat := recAt (s.get .BE_rec 0 b) off w

/-- Lowest online region of a tenant's affinity mask. -/
def State.lowRegion (s : State) (t : Nat) : Option Nat := (s.regionsOf t).head?

/-- Serving region of a namespace: home_region when online, otherwise the lowest online region of its tenant's mask (R372). -/
def State.nsRegion (s : State) (n : Nat) : Option Nat :=
  let h := s.nsAt n 29 1 % 8
  if s.online h then some h else s.lowRegion (s.nsAt n 28 1)

/-- Namespace indices attached to controller `k`, by nsid. -/
def State.ctrlNs (s : State) (k : Nat) : List (Nat × Nat) :=
  (List.range 257).filterMap (fun i => if s.nsOf k i = 0 then none else some (i, s.nsOf k i - 1))

/-- Regions that serve controller `k` (R371). -/
def State.ctrlRegions (s : State) (k : Nat) : List Nat :=
  match s.ctrlNs k with
  | [] => (s.lowRegion (s.ctrlTenant k)).toList
  | l => (l.filterMap (fun x => s.nsRegion x.2)).eraseDups

/-- Commands that a region's storage block tracks (R372). -/
def State.regionCmds (s : State) (n : Nat) : List Nat :=
  (s.keysOf .CM_st).filterMap (fun x =>
    let st := s.get .CM_st 0 x.2
    if (2 ≤ st ∧ st ≠ 6) ∧ s.get .CM_region 0 x.2 = n then some x.2 else none)

/-- Bytes of a region's staging area in use (R373). -/
def State.stagingUsed (s : State) (n : Nat) : Nat :=
  (((s.regionCmds n).filter (fun id => decide (3 ≤ s.get .CM_st 0 id))).map (fun id => s.get .CM_dlen 0 id)).sum

/-- Functions of the controller that names a command. -/
def State.cmdFn (s : State) (id : Nat) : Nat × Nat := (ctrlEp (s.get .CM_ctrl 0 id), ctrlFn (s.get .CM_ctrl 0 id))

/-- Whether the controller of a command may write to the host and its completion queue has room (R437). -/
def State.cmdHostOk (s : State) (id : Nat) : Bool :=
  let (e, f) := s.cmdFn id
  let k := s.get .CM_ctrl 0 id
  s.mayIssue e f && !s.cqFull k (s.get .SQ_cq 0 (qIx k (s.get .CM_sq 0 id)))

/-- The staged data is written to its places in host memory (R373). -/
def State.cmdWriteOut (s : State) (id : Nat) : State :=
  let (e, f) := s.cmdFn id
  let rec go (s : State) (d : List Nat) : List Nat → State
    | a :: n :: r => go (s.hostWriteD e f a 0 true (d.take n)) (d.drop n) r
    | _ => s
  go s (s.lget .cmdData 0 id) (s.lget .cmdPtrs 0 id)

/-- A command leaves the backend queue that it was sent to. -/
def State.cmdUnsend (s : State) (id : Nat) : State :=
  if s.get .CM_st 0 id = 5 then
    let j := s.get .CM_be 0 id * 64 + s.get .CM_q 0 id
    s.set .BEQ_out (s.get .BEQ_out 0 j - 1) 0 j
  else s

/-- A command ends with a status: its data and then its CQE go to the host (R374). While the host cannot take them they are held
(R437); of a controller in reset nothing is posted (R379). -/
def State.cmdFinish (s : State) (id status dw0 : Nat) : State :=
  let k := s.get .CM_ctrl 0 id
  if s.get .CM_st 0 id = 6 then s
  else if s.get .NVE_CTRL_STAT_state 0 k ≠ 2 ∧ !s.cmdHostOk id then
    let s := ((((s.cmdUnsend id).set .CM_st 7 0 id).set .CM_answered 1 0 id).set .CM_resp (status + 1) 0 id).set .CM_cpl dw0 0 id
    s.set .CM_hold 1 0 id
  else
    let s := s.when (decide (status = 0 ∧ s.get .CM_dir 0 id = 2 ∧ s.get .NVE_CTRL_STAT_state 0 k ≠ 2)) (·.cmdWriteOut id)
    s.cmdDone id status dw0

/-- Connection context of queue `q` of backend `b` (R367). -/
def beCtx (b q : Nat) : Nat := backendCtx + 64 * b + q

/-- The backend queue a command goes to: the fewest outstanding commands, lowest q on a tie, among those connected and below
queue_depth (R374). `avoid` is a queue number plus 1 not to be taken. -/
def State.pickQueue (s : State) (b avoid : Nat) : Option Nat :=
  ((List.range (s.beField b 1 1)).filter (fun q =>
    decide (s.get .BEQ_on 0 (b * 64 + q) = 1 ∧ s.get .BEQ_out 0 (b * 64 + q) < s.beField b 6 2 ∧ q + 1 ≠ avoid))).foldl
    (fun (m : Option Nat) q => match m with
      | none => some q
      | some j => if s.get .BEQ_out 0 (b * 64 + q) < s.get .BEQ_out 0 (b * 64 + j) then some q else some j) none

/-- The submission queue entry as the backend gets it: its NSID and LBA are those of the namespace record, its identifier the tag,
its data pointer a fabrics descriptor (NVM Express over Fabrics; log entry 53). -/
def State.sqeOut (s : State) (id op tag incap : Nat) : List Nat :=
  let b := leBytes 64 (s.get .CM_sqe 0 id)
  let len := s.get .CM_dlen 0 id
  let sgl := if incap = 1 then leBytes 8 0 ++ leBytes 4 len ++ [0, 0, 0, 0x01] else leBytes 8 0 ++ leBytes 4 len ++ [0, 0, 0, 0x5A]
  let lba := if op = 1 ∨ op = 2 ∨ op = 8 then leBytes 8 (s.get .CM_slba 0 id) else slice b 40 8
  let nlb := if op = s.cmdOp id then slice b 48 4 else leBytes 4 (putBits (leNat (slice b 48 4)) 25 1 0)
  [op, 0x40] ++ leBytes 2 tag ++ leBytes 4 (s.get .CM_bns 0 id) ++ List.replicate 16 0 ++ sgl ++ lba ++ nlb ++ b.drop 52

/-- Opcode that a command is sent as: Write Zeroes on an encrypted namespace is a Write (R385); a part of a Flush is a Flush. -/
def State.opSent (s : State) (id : Nat) : Nat :=
  if s.cmdOp id = 8 ∧ (s.nsAt (s.get .CM_ns 0 id - 1) 7 1).testBit 0 then 1 else s.cmdOp id

/-- A PDU of NVMe/TCP: its header, header digest, data and data digest as the backend's flags select (R368). -/
def State.tcpPdu (s : State) (b : Nat) (ty fl : Nat) (head data : List Nat) : List Nat :=
  let hd := (s.beField b 3 1).testBit 0
  let dd := (s.beField b 3 1).testBit 1 && decide (data ≠ [])
  let hlen := 8 + head.length
  let pdo := if data = [] then 0 else hlen + 4 * b2n hd
  let plen := hlen + 4 * b2n hd + data.length + 4 * b2n dd
  let h := [ty, fl + b2n hd + 2 * b2n dd, hlen, pdo] ++ leBytes 4 plen ++ head
  h ++ (if hd then leBytes 4 (crc32c 0xFFFFFFFF h) else []) ++ data ++ (if dd then leBytes 4 (crc32c 0xFFFFFFFF data) else [])

/-- Key slot under which queue `q` of a TCP_TLS backend sends: two slots a queue from the first on, the even one to send (R366; log entry
163). -/
def State.tlsSlot (s : State) (b q : Nat) : Nat := (s.beField b 8 4 + 2 * q) % 2 ^ 24

/-- A TLS 1.3 record of application data: its header, which is the additional data, and the sealed content with its type (RFC 8446
section 5.2); the nonce is the static IV, the bytes after the key, exclusive-or the record sequence (Table CIPH-1, R387). `mat` is the
slot's material, of which `n` bytes are the key. -/
def tlsRecord (mat : List Nat) (n seq : Nat) (pt : List Nat) : List Nat :=
  let iv := beNat ((mat.drop n ++ List.replicate 12 0).take 12)
  let nonce := beBytes 12 ((BitVec.ofNat 96 iv ^^^ BitVec.ofNat 96 seq).toNat)
  let head := [23, 3, 3] ++ beBytes 2 (pt.length + 17)
  let body := pt ++ [23]
  head ++ (Config.crypto algGcmSeal [mat.take n, nonce, head, body] ++ List.replicate (body.length + 16) 0).take (body.length + 16)

/-- The records that carry `pt`, at most 2^14 bytes each, at most `fuel` of them, from record sequence `seq` on. -/
def tlsRecords (mat : List Nat) (n : Nat) : Nat → Nat → List Nat → List Nat
  | 0, _, _ => []
  | _, _, [] => []
  | fuel + 1, seq, pt => tlsRecord mat n seq (pt.take 16384) ++ tlsRecords mat n fuel (seq + 1) (pt.drop 16384)

/-- A PDU leaves on a TCP queue, in TLS records where the backend uses TLS, and is kept until it is acknowledged (R368; log entry
53). -/
def State.tcpSend (s : State) (b q id : Nat) (pdu : List Nat) : State :=
  let j := b * 64 + q
  let slot := s.tlsSlot b q
  let k := (pdu.length + 16383) / 16384
  let (s, bytes) := if s.beField b 0 1 = 1 then
      (s.addw .BEQ_rec k 0 j, tlsRecords (s.cipMat (s.get .CM_region 0 id) slot) (attrKeyLen (s.slotAttr slot)) k (s.get .BEQ_rec 0 j) pdu)
    else (s, pdu)
  (s.emit .backend [b, q, bytes.length] bytes).lset .beUna (s.lget .beUna 0 j ++ [id, bytes.length] ++ bytes) 0 j

/-- Tenant that a command's packets are charged to. -/
def State.cmdTenant (s : State) (id : Nat) : Nat := s.ctrlTenant (s.get .CM_ctrl 0 id)

/-- A message of the storage block is put before a backend connection's sender; its packets are those of tenant `t` (R367, R369,
R371). -/
def State.silCmdSend (s : State) (c t : Nat) (bytes : List Nat) : State :=
  let w := s.get .WRK_next
  let s := s.set .WRK_tenant t 0 w
  let s := ((((s.set .WRK_next (w + 1)).set .WRK_op 0 0 w).set .WRK_len bytes.length 0 w).set .WRK_conn (c + 1) 0 w).lset .wrkData bytes 0 w
  s.lpush .cnWq w 0 c

/-- A command is sent on queue `q` of backend `b` (R368, R369, R374). -/
def State.cmdSend (s : State) (id b q : Nat) : State :=
  let j := b * 64 + q
  let tag := s.get .BEQ_tag 0 j
  let op := s.opSent id
  let data := if op = 1 ∨ op = 9 then s.lget .cmdData 0 id else []
  let s := ((((s.set .CM_st 5 0 id).set .CM_be b 0 id).set .CM_q q 0 id).set .CM_tag tag 0 id).set .CM_avoid 0 0 id
  let s := ((s.set .CM_sent_at s.now 0 id).addw .BEQ_tag 1 0 j).addw .BEQ_out 1 0 j
  if s.beField b 0 1 = 2 then
    s.silCmdSend (beCtx b q) (s.cmdTenant id) ([1, 1] ++ beBytes 2 tag ++ beBytes 4 data.length ++ List.replicate 8 0 ++ s.sqeOut id op tag (b2n (decide (data ≠ []))) ++ data)
  else
    let incap := decide (data ≠ [] ∧ data.length ≤ s.get .BEQ_ioccsz 0 j)
    s.tcpSend b q id (s.tcpPdu b 4 0 (s.sqeOut id op tag (b2n incap)) (if incap then data else []))

/-- Whether two LBA ranges share an LBA. -/
def rangesMeet : List Nat → List Nat → Bool
  | a :: n :: r, l =>
    (let rec go : List Nat → Bool
      | b :: m :: t => decide (0 < n ∧ 0 < m ∧ a < b + m ∧ b < a + n) || go t
      | _ => false
     go l) || rangesMeet r l
  | _, _ => false

/-- Whether a command is a deallocation: a Dataset Management with the deallocate attribute. -/
def State.cmdFrees (s : State) (id : Nat) : Bool := decide (s.cmdOp id = 9) && (s.sq4 id 44 1).testBit 2

/-- Whether a command writes: Write, Write Zeroes or deallocate. -/
def State.cmdWrites (s : State) (id : Nat) : Bool := decide (s.cmdOp id = 1 ∨ s.cmdOp id = 8) || s.cmdFrees id

/-- LBA ranges of a command: those it was admitted with, or, of a command still in FETCHED, the range its entry names. -/
def State.cmdLbas (s : State) (id : Nat) : List Nat :=
  if s.get .CM_st 0 id = 2 then (if s.cmdOp id = 1 ∨ s.cmdOp id = 2 ∨ s.cmdOp id = 8 then [s.sq4 id 40 8, s.sq4 id 48 2 + 1] else [])
  else s.lget .cmdRanges 0 id

/-- Whether command `j` was fetched before command `id` of the same controller and has been neither answered nor completed (R375). -/
def State.earlier (s : State) (id j : Nat) : Bool :=
  decide (s.get .CM_seq 0 j < s.get .CM_seq 0 id ∧ s.get .CM_answered 0 j = 0 ∧ s.get .CM_sq 0 j ≠ 0)

/-- Whether two commands name one namespace, be it under two nsids; command `j` may still be in FETCHED. -/
def State.sameNs (s : State) (id j : Nat) : Bool :=
  decide ((if s.get .CM_st 0 j = 2 then s.cmdNs j else s.get .CM_ns 0 j) = s.get .CM_ns 0 id)

/-- Whether command `j` of the same controller conflicts with command `id` (R375): fetched earlier, neither answered nor completed, same
namespace, a shared LBA, one of them writes. -/
def State.conflicts (s : State) (id j : Nat) : Bool :=
  s.earlier id j && decide (2 ≤ s.get .CM_st 0 j) && s.sameNs id j && (s.cmdWrites id || s.cmdWrites j) &&
    rangesMeet (s.lget .cmdRanges 0 id) (s.cmdLbas j)

/-- Whether an earlier command may yet turn out to conflict (R375): its entry, or the ranges of its deallocation, are not read yet. -/
def State.mayConflict (s : State) (id j : Nat) : Bool :=
  s.earlier id j && (decide (s.get .CM_st 0 j = 1) || (s.cmdFrees j && s.sameNs id j && decide (2 ≤ s.get .CM_st 0 j ∧ s.cmdLbas j = [])))

/-- A conflict that holds a command is counted once, in units of 256 (NVE_REGION_CNT0). -/
def State.orderWait (s : State) (id : Nat) : State :=
  if s.get .CM_waited 0 id = 1 then s
  else
    let n := s.get .CM_region 0 id
    let s := s.set .CM_waited 1 0 id
    if s.get .NVE_ow n = 255 then (s.set .NVE_ow 0 n).bump .NVE_REGION_CNT0_order_waits n else s.addw .NVE_ow 1 n

/-- A Flush to one backend_nsid, as a part of Flush `parent` (plus 1) or of a shutdown of controller `k` (R377, R382). -/
def State.flushPart (s : State) (k b bns region nsrec parent : Nat) : State × Nat :=
  let id := s.get .CM_next
  let s := ((((s.set .CM_next (id + 1)).set .CM_ctrl k 0 id).set .CM_be b 0 id).set .CM_bns bns 0 id).set .CM_region region 0 id
  (((s.set .CM_st 4 0 id).set .CM_parent parent 0 id).set .CM_ns nsrec 0 id, id)

/-- Backend, backend_nsid, region and namespace plus 1 of each distinct backend_nsid of a list of namespaces (R377). -/
def State.flushTargets (s : State) : List Nat → List (Nat × Nat) → List (Nat × Nat × Nat × Nat)
  | [], _ => []
  | n :: r, seen =>
    let t := (s.nsAt n 4 2 % 4096, s.nsAt n 0 4)
    if seen.contains t then s.flushTargets r seen
    else (t.1, t.2, (s.nsRegion n).getD (s.nsAt n 29 1 % 8), n + 1) :: s.flushTargets r (t :: seen)

/-- Backend of a command, or of a part of a Flush. -/
def State.cmdBackend (s : State) (id : Nat) : Nat :=
  if s.get .CM_parent 0 id = 0 ∧ s.get .CM_shn 0 id = 0 then s.nsAt (s.get .CM_ns 0 id - 1) 4 2 % 4096 else s.get .CM_be 0 id

/-- The key that queue `q` of a command's backend sends under: 1 it is being loaded into the serving region's cipher block, 3 the operation
fails, 2 it is there, or none is needed (R392, R398). -/
def State.tlsUse (s : State) (id q : Nat) : State × Nat :=
  let b := s.cmdBackend id
  if s.beField b 0 1 = 1 then s.cipNeed (s.get .CM_region 0 id) (s.tlsSlot b q) else (s, 2)

/-- A command in ORDER_WAIT, or a part of a Flush, is sent if nothing holds it: no earlier conflicting command, credit for its
packets, a queue, the queue's TLS key (R371, R374, R375, R398). -/
def State.cmdTry (s : State) (id : Nat) : State :=
  if s.get .CM_st 0 id ≠ 4 ∨ (s.cmdOp id = 0 ∧ s.get .CM_parent 0 id = 0 ∧ s.get .CM_shn 0 id = 0) then s
  else
    let k := s.get .CM_ctrl 0 id
    let held := decide (s.get .CM_ordered 0 id = 1 ∧ s.get .CM_tries 0 id = 0 ∧ s.lget .cmdRanges 0 id ≠ [])
    if held && (s.lget .ctrlCmds 0 k).any (fun j => s.conflicts id j) then s.orderWait id
    else if held && (s.lget .ctrlCmds 0 k).any (fun j => s.mayConflict id j) then s
    else if !s.creditOk (s.get .CM_region 0 id) (s.cmdTenant id) then s
    else
      match s.pickQueue (s.cmdBackend id) (s.get .CM_avoid 0 id) with
      | some q => if s.beField (s.cmdBackend id) 0 1 ≠ 1 ∨ s.get .CIPC_st (s.get .CM_region 0 id) (s.tlsSlot (s.cmdBackend id) q) = 2 then
          s.cmdSend id (s.cmdBackend id) q else s
      | none => s

/-- A Flush whose covered commands have all been answered becomes its parts (R377). -/
def State.flushTry (s : State) (id : Nat) : State :=
  if s.get .CM_st 0 id ≠ 4 ∨ s.cmdOp id ≠ 0 ∨ s.get .CM_parent 0 id ≠ 0 ∨ s.get .CM_shn 0 id ≠ 0 ∨ s.lget .flushLeft 0 id ≠ [] ∨
      (s.lget .flushCover 0 id).any (fun j => decide (s.get .CM_answered 0 j = 0)) then s
  else
    let k := s.get .CM_ctrl 0 id
    let l := if s.sq4 id 4 4 = 0xFFFFFFFF then (s.ctrlNs k).map (·.2) else [s.get .CM_ns 0 id - 1]
    match s.flushTargets l [] with
    | [] => s.cmdFinish id 0 0
    | ts => ts.foldl (fun s t =>
        let (s, j) := s.flushPart k t.1 t.2.1 t.2.2.1 t.2.2.2 (id + 1)
        (s.lpush .flushLeft j 0 id).cmdTry j) s

/-- Every command and every part of a Flush that waits is looked at, in the order of its number. -/
def State.storeKick (s : State) : State :=
  let l := (s.keysOf .CM_st).map (·.2)
  let s := s.each l (fun id s => s.cmdTry id)
  s.each l (fun id s => s.flushTry id)

/-- Whether command `id` was fetched before the detachment at `i` was accepted and names its nsid, or may name it, its entry not being read
yet (R370). -/
def State.detachHolds (s : State) (i id : Nat) : Bool :=
  let st := s.get .CM_st 0 id
  decide (s.get .CM_sq 0 id ≠ 0 ∧ s.get .CM_seq 0 id < s.get .NSA_seq 0 i) &&
    (decide (st = 1) || decide (st ≠ 1 ∧ s.sq4 id 4 4 = i % 257))

/-- A detached nsid is free again once the commands fetched under it have completed (R370). -/
def State.detachStep (s : State) (k : Nat) : State :=
  s.each (s.keysOf .NSA_old) (fun x s =>
    let i := x.2
    if i / 257 = k ∧ s.get .NSA_old 0 i ≠ 0 ∧ !(s.lget .ctrlCmds 0 k).any (fun id => s.detachHolds i id) then
      let ch := s.get .NSA_det 0 i - 1
      (((s.set .NSA_old 0 0 i).set .NSA_det 0 0 i).set .NVE_CH_busy 0 0 ch |>.set .NVE_CH_result 0 0 ch).nsEvent k (i % 257)
    else s)

/-- A shutdown goes on: with no command left, a normal one flushes every attached namespace, and then SHST tells completion
(R382). -/
def State.shnStep (s : State) (k : Nat) : State :=
  let sh := s.get .NC_shn 0 k
  if sh = 0 ∨ s.lget .ctrlCmds 0 k ≠ [] ∨ s.lget .shnLeft 0 k ≠ [] ∨ s.get .NVE_CTRL_STAT_state 0 k ≠ 3 then s
  else
    let ts := if sh = 1 then s.flushTargets ((s.ctrlNs k).map (·.2)) [] else []
    if ts = [] then (s.set .NC_shn 0 0 k).set .NC_csts (putBits (s.get .NC_csts 0 k) 2 2 2) 0 k
    else
      (ts.foldl (fun s t =>
        let (s, j) := s.flushPart k t.1 t.2.1 t.2.2.1 t.2.2.2 0
        ((s.set .CM_shn 1 0 j).lpush .shnLeft j 0 k).cmdTry j) s).set .NC_shn 3 0 k

/-- What follows when a command of controller `k` has ended: waiting commands, a detachment, a reset or shutdown go on. -/
def State.ctrlAfter (s : State) (k : Nat) : State :=
  let s := (s.storeKick.detachStep k).shnStep k
  if s.get .NVE_CTRL_STAT_state 0 k = 2 ∧ s.lget .ctrlCmds 0 k = [] then s.ctrlResetEnd k else s

/-- A command ends with a status, and what waited on it goes on. -/
def State.cmdEnd (s : State) (id status dw0 : Nat) : State := (s.cmdFinish id status dw0).ctrlAfter (s.get .CM_ctrl 0 id)

/-- Transient Transport Error (Table STOR-7), counted in transport_err. -/
def stTRANSPORT : Nat := 0x22

/-- A part of a Flush has ended with a status: the Flush completes with its last part, with the first error (R377); a shutdown goes
on (R382). -/
def State.partEnd (s : State) (id status : Nat) : State :=
  let k := s.get .CM_ctrl 0 id
  let s := ((s.cmdUnsend id).set .CM_st 6 0 id).set .CM_answered 1 0 id
  let p := s.get .CM_parent 0 id
  if p = 0 then (s.lset .shnLeft ((s.lget .shnLeft 0 k).erase id) 0 k).ctrlAfter k
  else
    let s := s.when (decide (status ≠ 0 ∧ s.get .CM_flush_st 0 (p - 1) = 0)) (·.set .CM_flush_st status 0 (p - 1))
    let s := s.lset .flushLeft ((s.lget .flushLeft 0 (p - 1)).erase id) 0 (p - 1)
    if s.lget .flushLeft 0 (p - 1) = [] then s.cmdEnd (p - 1) (s.get .CM_flush_st 0 (p - 1)) 0 else s.ctrlAfter k

/-- A command, or a part of a Flush, ends with a status. -/
def State.cmdOver (s : State) (id status dw0 : Nat) : State :=
  if s.get .CM_st 0 id = 6 then s
  else
    let s := s.when (decide (status = stTRANSPORT)) (·.bump .NVE_REGION_CNT1_transport_err (s.get .CM_region 0 id))
    if s.get .CM_parent 0 id ≠ 0 ∨ s.get .CM_shn 0 id ≠ 0 then s.partEnd id status else s.cmdEnd id status dw0

/-- Commands held for the host are written to it where that is now possible (R437). -/
def State.ctrlResume (s : State) (k : Nat) : State :=
  let s := s.each (s.lget .ctrlCmds 0 k) (fun id s =>
    if s.get .CM_hold 0 id = 1 ∧ s.get .CM_resp 0 id ≠ 0 ∧ s.cmdHostOk id then s.cmdFinish id (s.get .CM_resp 0 id - 1) (s.get .CM_cpl 0 id) else s)
  let s := match s.lget .aerWait 0 k, s.lget .aerCids 0 k with
    | d :: r, _ :: _ => if s.cqFull k 0 then s else (s.lset .aerWait r 0 k).aerPost k d
    | _, _ => s
  s.ctrlAfter k

/-- A region fault or its offlining with work left: its commands complete with Transient Transport Error (Table STOR-6). -/
def State.storeRegionLost (s : State) (n : Nat) : State :=
  s.each (s.regionCmds n) (fun id s => s.cmdOver id stTRANSPORT 0)

/-- Offset codes of reads on a command's behalf that fetch data pointers. -/
def rdPRP : Nat := 2 ^ 32
/-- SGL segment. -/
def rdSGL : Nat := 2 ^ 32 + 1

/-- A stretch of host memory is one of the places of a command's data, up to what is still to be described. -/
def State.ptrAdd (s : State) (id a n : Nat) : State :=
  let m := min n (s.get .CM_dlen 0 id - s.get .CM_desc 0 id)
  if m = 0 then s else (s.lset .cmdPtrs (s.lget .cmdPtrs 0 id ++ [a, m]) 0 id).addw .CM_desc m 0 id

/-- Reads of a command's data are issued, one for each place (R373). -/
def State.ptrReads (s : State) (id : Nat) : State :=
  let (e, f) := s.cmdFn id
  let rec go (s : State) (o : Nat) : List Nat → State
    | a :: n :: r => go (s.readReq e f a n 6 id o) (o + n) r
    | _ => s
  go ((s.set .CM_want (s.get .CM_dlen 0 id) 0 id).lset .cmdData (List.replicate (s.get .CM_dlen 0 id) 0) 0 id) 0 (s.lget .cmdPtrs 0 id)

/-- The places of a command's data are all known: data is read, or, for an admin command that answers data, written. -/
def State.ptrsDone (s : State) (id : Nat) : State :=
  if s.get .CM_dir 0 id = 1 then s.ptrReads id
  else if s.cmdAdmin id then s.cmdEnd id 0 0
  else s

/-- Entries of a PRP list are taken; the last of a full page names the next (NVM Express Base 2.0). -/
def State.prpTake (s : State) (id : Nat) : List Nat → State
  | [] => s
  | l =>
    let rest := s.get .CM_dlen 0 id - s.get .CM_desc 0 id
    let room := (4096 - s.get .CM_ptr 0 id % 4096) / 8
    let need := (rest + 4095) / 4096
    let ents := (List.range (l.length / 8)).map (fun i => leNat (slice l (8 * i) 8))
    let here := if need ≤ room then ents.take need else ents.take (room - 1)
    let s := here.foldl (fun s a => s.ptrAdd id (a / 4096 * 4096) 4096) s
    if need ≤ room then s.ptrsDone id
    else
      let nx := ents.getD (room - 1) 0
      let (e, f) := s.cmdFn id
      (s.set .CM_ptr nx 0 id).readReq e f nx (min ((4096 - nx % 4096) / 8) (need - (room - 1)) * 8) 6 id rdPRP

/-- SGL descriptors are taken; a segment descriptor names the next ones. One the device does not support ends the command with Invalid
Field in Command (Tables STOR-1, STOR-7). -/
def State.sglTake (s : State) (id : Nat) : Nat → List Nat → State
  | 0, _ => s
  | fuel + 1, l =>
    match l with
    | [] => if s.get .CM_desc 0 id = s.get .CM_dlen 0 id then s.ptrsDone id else s.cmdOver id 0x0F 0
    | _ =>
      let a := leNat (l.take 8)
      let n := leNat (slice l 8 4)
      match l.getD 15 0 with
      | 0x00 => (s.ptrAdd id a n).sglTake id fuel (l.drop 16)
      | 0x20 | 0x30 =>
        let (e, f) := s.cmdFn id
        if n = 0 ∨ n % 16 ≠ 0 then s.cmdOver id 0x0D 0 else s.readReq e f a n 6 id rdSGL
      | _ => s.cmdOver id 0x02 0

/-- A command begins to move `len` bytes of data, in direction `dir` (1 from the host, 2 to it): its data pointers are followed
(Table STOR-1). -/
def State.dptrStart (s : State) (id dir len : Nat) : State :=
  let s := ((((s.set .CM_dir dir 0 id).set .CM_dlen len 0 id).set .CM_desc 0 0 id).lset .cmdPtrs [] 0 id).set .CM_st 3 0 id
  let b := leBytes 64 (s.get .CM_sqe 0 id)
  if len = 0 then s.ptrsDone id
  else if bitsOf (b.getD 1 0) 6 2 = 0 then
    let p1 := s.sq4 id 24 8
    let p2 := s.sq4 id 32 8
    let s := s.ptrAdd id p1 (4096 - p1 % 4096)
    let rest := len - s.get .CM_desc 0 id
    if rest = 0 then s.ptrsDone id
    else if rest ≤ 4096 then (if p2 % 4096 ≠ 0 then s.cmdOver id 0x13 0 else (s.ptrAdd id p2 4096).ptrsDone id)
    else
      let (e, f) := s.cmdFn id
      (s.set .CM_ptr p2 0 id).readReq e f p2 (min ((4096 - p2 % 4096) / 8) ((rest + 4095) / 4096) * 8) 6 id rdPRP
  else s.sglTake id 2 (slice b 24 16)

/-- Data of a Dataset Management command has arrived: its ranges are read and checked (Table STOR-1). -/
def State.dsmRanges (s : State) (id : Nat) : State :=
  let d := s.lget .cmdData 0 id
  let n := s.get .CM_ns 0 id - 1
  let l := (List.range (d.length / 16)).map (fun i => (leNat (slice d (16 * i + 8) 8), leNat (slice d (16 * i + 4) 4)))
  if l.any (fun x => decide (s.nsAt n 16 8 < x.1 + x.2)) then s.cmdOver id 0x80 0
  else
    let out := (List.range (d.length / 16)).flatMap (fun i =>
      slice d (16 * i) 8 ++ leBytes 8 (leNat (slice d (16 * i + 8) 8) + s.nsAt n 8 8))
    ((s.lset .cmdRanges (l.flatMap (fun x => [x.1, x.2])) 0 id).lset .cmdData out 0 id).storeKick

/-- Data of a Firmware Image Download has arrived: it joins the controller's image at its offset (R520). -/
def State.fwTake (s : State) (id : Nat) : State :=
  let k := s.get .CM_ctrl 0 id
  let o := s.sq4 id 44 4 * 4
  let d := s.lget .cmdData 0 id
  let was := s.lget .fwImage 0 k
  (s.lset .fwImage (splice (was ++ List.replicate (o - was.length) 0) o d) 0 k).cmdOver id 0 0

/-- A read on a command's behalf has been answered: data from offset `y`, or data pointers; `none` when it failed, which ends the
command with Internal Error (Table STOR-7). -/
def State.storeRead (s : State) (id y : Nat) (d : Option (List Nat)) : State :=
  if s.get .CM_st 0 id ≠ 3 then s
  else match d with
    | none => s.cmdOver id 0x06 0
    | some b =>
      if y = rdPRP then s.prpTake id b
      else if y = rdSGL then s.sglTake id (b.length / 16 + 1) b
      else
        let s := s.lset .cmdData (splice (s.lget .cmdData 0 id) y b) 0 id
        let s := s.set .CM_want (s.get .CM_want 0 id - b.length) 0 id
        if s.get .CM_want 0 id ≠ 0 then s
        else if s.cmdOp id = 9 ∧ !s.cmdAdmin id then s.dsmRanges id
        else if s.cmdOp id = 0x11 ∧ s.cmdAdmin id then s.fwTake id
        else s

/-- Controllers whose registers a host sees and that run: enabled, ready, not stopped (R361, R363, R383). -/
def State.ctrlRuns (s : State) (k : Nat) : Bool :=
  decide (s.get .NVE_CTRL_CFG_enable 0 k = 1 ∧ s.get .NC_csts 0 k % 2 = 1 ∧ s.get .NC_stop 0 k = 0 ∧ s.get .ACT_on = 0)

/-- Submission queues of a controller that hold an entry to fetch. -/
def State.sqReady (s : State) (k q : Nat) : Bool :=
  decide (s.get .SQ_on 0 (qIx k q) = 1 ∧ s.get .SQ_head 0 (qIx k q) ≠ s.get .SQ_tail 0 (qIx k q) ∧ s.get .SQ_block 0 (qIx k q) = 0)

/-- Arbitration Burst of a controller (feature 01h), capped at 64 (R451). -/
def State.ctrlBurst (s : State) (k : Nat) : Nat := min 64 (2 ^ (s.get .NC_feat_arb 0 k % 8))

/-- The queue a controller's round robin serves next (R362, R451). -/
def State.sqNext (s : State) (k : Nat) : Option Nat :=
  let r := s.get .NC_rr 0 k
  if s.get .NC_burst 0 k ≠ 0 ∧ s.get .NC_burst 0 k < s.ctrlBurst k ∧ s.sqReady k r then some r
  else ((List.range 65).map (fun i => (r + 1 + i) % 65)).find? (fun q => s.sqReady k q)

/-- Whether a controller is eligible for fetch: it runs, has an entry to fetch, some region that serves it has credit, and no tracker
of a region that serves it is full (R371, R372). -/
def State.ctrlEligible (s : State) (k : Nat) : Bool :=
  s.ctrlRuns k && (s.sqNext k).isSome && s.mayIssue (ctrlEp k) (ctrlFn k) && decide (s.get .STR_cold ≠ 1) &&
  (s.ctrlRegions k).any (fun n => s.creditOk n (s.ctrlTenant k)) &&
  !(s.ctrlRegions k).any (fun n => decide (16384 ≤ (s.regionCmds n).length))

/-- One submission queue entry of a controller is fetched, and numbered when it is an I/O command (R371). -/
def State.nvmeFetch1 (s : State) (k : Nat) : State :=
  match s.sqNext k with
  | none => s
  | some q =>
    let i := qIx k q
    let id := s.get .CM_next
    let h := s.get .SQ_head 0 i
    let s := s.set .NC_burst (if s.get .NC_rr 0 k = q then s.get .NC_burst 0 k + 1 else 1) 0 k
    let s := ((s.set .NC_rr q 0 k).set .SQ_head ((h + 1) % max 1 (s.get .SQ_size 0 i)) 0 i).set .CM_next (id + 1)
    let s := (((s.set .CM_ctrl k 0 id).set .CM_sq q 0 id).set .CM_st 1 0 id).set .CM_region 15 0 id
    let s := s.set .CM_ordered (s.get .NVE_CTRL_CFG_overlap_order 0 k) 0 id
    let s := s.when (decide (q ≠ 0)) (fun s => (s.set .CM_seq (s.get .NC_seq 0 k) 0 id).addw .NC_seq 1 0 k)
    let s := (s.lpush .ctrlCmds id 0 k).ctrlCount k
    s.readReq (ctrlEp k) (ctrlFn k) (s.get .SQ_base 0 i + h * 64) 64 5 id 0

/-- Opcodes of Table STOR-1; Firmware Image Download and Commit on PF1 only (R364). -/
def State.opKnown (s : State) (id : Nat) : Bool :=
  let op := s.cmdOp id
  if s.cmdAdmin id then
    [0x00, 0x01, 0x02, 0x04, 0x05, 0x06, 0x08, 0x09, 0x0A, 0x0C].contains op ||
    ([0x10, 0x11].contains op)
  else [0x00, 0x01, 0x02, 0x08, 0x09].contains op

/-- A submission queue entry has been read: the command is FETCHED, and its serving region's block tracks it (R372); one outside Table STOR-1 completes with Invalid Command Opcode.
An entry that cannot be read leaves no command to complete: the controller's status is fatal (CSTS.CFS; log entry 53). -/
def State.sqeGot (s : State) (id : Nat) (d : Option (List Nat)) : State :=
  if s.get .CM_st 0 id ≠ 1 then s
  else match d with
    | none =>
      let k := s.get .CM_ctrl 0 id
      (((s.cmdDrop id).setb .NC_csts 1 true 0 k).set .NC_stop 1 0 k).ctrlAfter k
    | some b =>
      let s := (s.set .CM_sqe (leNat (b.take 64)) 0 id).set .CM_st 2 0 id
      let s := if s.cmdAdmin id ∨ s.cmdNs id = 0 then s else s.set .CM_region ((s.nsRegion (s.cmdNs id - 1)).getD 15) 0 id
      if s.opKnown id then s.storeKick else s.cmdOver id 0x01 0

/-- CAP of a controller (R362, R363; NVM Express Base 2.0). -/
def State.nvmeCap (s : State) : Nat :=
  let ms := min 30000 (max 1 (s.get .NVE_CFG_reset_limit_ms))
  0xFFFF + 2 ^ 16 + min 255 ((ms + 1000 + 499) / 500) * 2 ^ 24 + 2 ^ 37 + 2 ^ 59

/-- A controller becomes ready: the admin queues are set up (R363). -/
def State.ctrlReady (s : State) (k : Nat) : State :=
  let q := qIx k 0
  let aqa := s.get .NC_aqa 0 k
  let s := ((((s.set .SQ_on 1 0 q).set .SQ_base (s.get .NC_asq 0 k) 0 q).set .SQ_size (aqa % 4096 + 1) 0 q).set .SQ_head 0 0 q).set .SQ_tail 0 0 q
  let s := ((((s.set .CQ_on 1 0 q).set .CQ_base (s.get .NC_acq 0 k) 0 q).set .CQ_size (bitsOf aqa 16 12 + 1) 0 q).set .CQ_head 0 0 q).set .CQ_tail 0 0 q
  let s := ((((s.set .CQ_phase 1 0 q).set .CQ_iv 0 0 q).set .CQ_ien 1 0 q).set .SQ_cq 0 0 q).set .SQ_block 0 0 q
  ((s.set .NC_csts (putBits (s.get .NC_csts 0 k) 0 1 1) 0 k).set .NC_stop 0 0 k).set .NVE_CTRL_STAT_state 1 0 k

/-- CC.EN is written 1: RDY sets once the device has reported Device Ready and the controller is enabled (R363). -/
def State.ctrlEnable (s : State) (k : Nat) : State :=
  let s := s.set .NC_en_at (max 1 s.now) 0 k
  if s.get .BOOT_STATUS_device_ready = 1 ∧ s.get .NVE_CTRL_CFG_enable 0 k = 1 then s.ctrlReady k else s

/-- CC.SHN is written (R382): fetching stops; commands already fetched run on. -/
def State.ctrlShutdown (s : State) (k n : Nat) : State :=
  let s := (((s.set .NC_stop 1 0 k).set .NC_shn (if n = 1 then 1 else 2) 0 k).set .NVE_CTRL_STAT_state 3 0 k).set .NC_reset_at s.now 0 k
  (s.set .NC_csts (putBits (s.get .NC_csts 0 k) 2 2 1) 0 k).shnStep k

/-- A write of Controller Configuration: EN 0 to 1 enables, EN 1 to 0 resets (R379), SHN begins a shutdown (R382). -/
def State.ctrlCc (s : State) (k v : Nat) : State :=
  let old := s.get .NC_cc 0 k
  if s.get .NVE_CTRL_CFG_enable 0 k = 0 then s
  else
    let s := s.set .NC_cc v 0 k
    let s := if v % 2 = 1 ∧ old % 2 = 0 ∧ s.get .NVE_CTRL_STAT_state 0 k ≠ 2 then s.ctrlEnable k
      else if v % 2 = 0 ∧ old % 2 = 1 then s.ctrlReset k true else s
    if v % 2 = 1 ∧ bitsOf v 14 2 ≠ 0 ∧ bitsOf v 14 2 ≠ 3 ∧ bitsOf old 14 2 = 0 ∧ s.get .NC_csts 0 k % 2 = 1 then s.ctrlShutdown k (bitsOf v 14 2) else s

/-- A 32-bit read of a controller's registers (NVM Express Base 2.0; R361: none until it is enabled). -/
def State.nvmeRead (s : State) (k off : Nat) : Nat :=
  if s.get .NVE_CTRL_CFG_enable 0 k = 0 then 0
  else match off with
    | 0x00 => s.nvmeCap % 2 ^ 32
    | 0x04 => s.nvmeCap / 2 ^ 32
    | 0x08 => 0x00020000
    | 0x0C | 0x10 => s.get .NC_ints 0 k
    | 0x14 => s.get .NC_cc 0 k
    | 0x1C => s.get .NC_csts 0 k
    | 0x24 => s.get .NC_aqa 0 k
    | 0x28 => s.get .NC_asq 0 k % 2 ^ 32
    | 0x2C => s.get .NC_asq 0 k / 2 ^ 32
    | 0x30 => s.get .NC_acq 0 k % 2 ^ 32
    | 0x34 => s.get .NC_acq 0 k / 2 ^ 32
    | 0x68 => 1
    | _ => 0

/-- A doorbell of a controller: a submission queue's tail or a completion queue's head. A value outside the queue is reported as an
asynchronous event, Invalid Doorbell Write Value, and one of a queue that is not there as Invalid Doorbell (NVM Express Base 2.0). -/
def State.nvmeDoorbell (s : State) (k q : Nat) (cq : Bool) (v : Nat) : State :=
  let i := qIx k q
  if 65 ≤ q ∨ s.get .NC_csts 0 k % 2 = 0 then s
  else if cq then
    (if s.get .CQ_on 0 i = 0 then s.aerPost k 0x010000
    else if s.get .CQ_size 0 i ≤ v then s.aerPost k 0x010100
    else (s.set .CQ_head v 0 i).ctrlResume k)
  else if s.get .SQ_on 0 i = 0 then s.aerPost k 0x010000
  else if s.get .SQ_size 0 i ≤ v then s.aerPost k 0x010100
  else s.set .SQ_tail v 0 i

/-- A 32-bit write of a controller's registers. -/
def State.nvmeWrite (s : State) (k off v : Nat) : State :=
  if s.get .NVE_CTRL_CFG_enable 0 k = 0 then s
  else if 0x1000 ≤ off then s.nvmeDoorbell k ((off - 0x1000) / 8) (decide ((off - 0x1000) / 4 % 2 = 1)) (v % 65536)
  else
    let en := decide (s.get .NC_cc 0 k % 2 = 1)
    match off with
    | 0x0C => s.set .NC_ints ((BitVec.ofNat 32 (s.get .NC_ints 0 k) ||| BitVec.ofNat 32 v).toNat) 0 k
    | 0x10 => s.set .NC_ints (clearBits 32 (s.get .NC_ints 0 k) v) 0 k
    | 0x14 => s.ctrlCc k v
    | 0x24 => if en then s else s.set .NC_aqa (putBits (putBits 0 0 12 v) 16 12 (v / 65536)) 0 k
    | 0x28 => if en then s else s.set .NC_asq (putBits (s.get .NC_asq 0 k) 0 32 (v / 4096 * 4096)) 0 k
    | 0x2C => if en then s else s.set .NC_asq (putBits (s.get .NC_asq 0 k) 32 32 v) 0 k
    | 0x30 => if en then s else s.set .NC_acq (putBits (s.get .NC_acq 0 k) 0 32 (v / 4096 * 4096)) 0 k
    | 0x34 => if en then s else s.set .NC_acq (putBits (s.get .NC_acq 0 k) 32 32 v) 0 k
    | _ => s

end Sys2Proof.Machine
end

