-- ==== Sys2Proof/Machine/Storage.lean ====
section
/-! DEFINITION. Storage command offload (spec file 13, R361 to R385): channel commands, controllers, admin and I/O commands, backends.
Firmware download and activation are in Boot. -/

namespace Sys2Proof.Machine

/-- A storage channel command ends with a result (Table STOR-8). -/
def State.nveRes (s : State) (ch r : Nat) : State := (s.set .NVE_CH_busy 0 0 ch).set .NVE_CH_result r 0 ch

/-- Whether the fields of a backend record lie in Table STOR-3; of the template only those the transport takes (R366, R367). -/
def beRecOk (b r : Nat) : Bool :=
  let at_ := fun (o n : Nat) => recAt r o n
  let t := bitsOf r 256 768
  let tat := fun (o n : Nat) => recAt t o n
  decide (at_ 0 1 ≤ 2 ∧ 1 ≤ at_ 1 1 ∧ at_ 1 1 ≤ 64 ∧ at_ 2 1 < 8 ∧ at_ 3 1 < 4 ∧ 1 ≤ at_ 6 2 ∧ at_ 6 2 ≤ 1024 ∧ at_ 8 4 < 2 ^ 24 ∧ at_ 12 20 = 0) &&
  (if at_ 0 1 = 2 then cnRecOk (beCtx b 0) (putBits t 576 96 0)
   else decide (tat 20 1 < 16) && decide (tat 21 1 < 16 ∨ tat 21 1 = 0xFF) && decide (tat 22 1 < 8 ∧ tat 23 1 < 64 ∧ tat 62 2 / 4096 % 8 = 0))

/-- The connection of queue `q` of a Sillage backend is created from the template (R367). -/
def State.beConnect (s : State) (b q : Nat) : State :=
  let c := beCtx b q
  let r := s.get .BE_rec 0 b
  let t := bitsOf r 256 768
  let t := putBits (putBits t 576 96 0) 40 8 (recAt r 2 1)
  let rc := recAt t 0 4
  let t := putBits t 0 32 (rc / 2 ^ 22 * 2 ^ 22 + (rc % 2 ^ 22 + q) % 2 ^ 22)
  (s.set .CN_gen (s.get .CN_gen 0 c + 1) 0 c).cnLoad c t

/-- BE_CREATE: command BE_CREATE of channel `ch` for backend `b`: the record is written; firmware then connects its queues (R365 to
R367). -/
def execBeCreate (ch b : Nat) (s : State) : Host.Outcome State Fault Refusal :=
  .next <|
    let r := s.chRec .NVE_CH_record ch 32
    if s.get .NVE_CH_busy 0 ch = 1 then s
    else if 4096 ≤ b ∨ !beRecOk b r then s.nveRes ch 3
    else if s.get .BE_on 0 b = 1 ∨ (List.range 64).any (fun q => decide (s.get .CN_state 0 (beCtx b q) ≠ 0)) then s.nveRes ch 2
    else
      let s := (s.set .BE_on 1 0 b).set .BE_rec r 0 b
      let s := if recAt r 0 1 = 2 then s.each (List.range (recAt r 1 1)) (fun q s => s.beConnect b q) else s
      s.nveRes ch 0

/-- A queue of a backend is gone: what was outstanding on it and its connection. -/
def State.beqFree (s : State) (b q : Nat) : State :=
  let j := b * 64 + q
  let s := ((((s.set .BEQ_on 0 0 j).set .BEQ_was 0 0 j).set .BEQ_out 0 0 j).set .BEQ_tag 0 0 j).set .BEQ_rec 0 0 j
  let s := (s.lset .beUna [] 0 j).lset .beIn [] 0 (beCtx b q)
  if s.get .CN_state 0 (beCtx b q) = 0 then s
  else ((s.cnFlush (beCtx b q) msFLUSHED).set .CN_state 0 0 (beCtx b q)).each (List.range 8) (fun n s => s.set .CACHE_in 0 n (beCtx b q))

/-- BE_DESTROY: command BE_DESTROY of channel `ch`: no namespace may map to the backend; its queues are disconnected and freed
(Table STOR-2). -/
def execBeDestroy (ch b : Nat) (s : State) : Host.Outcome State Fault Refusal :=
  .next <|
    if s.get .NVE_CH_busy 0 ch = 1 then s
    else if 4096 ≤ b ∨ s.get .BE_on 0 b = 0 then s.nveRes ch 2
    else if (s.keysOf .NS_on).any (fun x => decide (s.get .NS_on 0 x.2 = 1 ∧ s.nsAt x.2 4 2 = b)) then s.nveRes ch 5
    else
      let s := s.each (List.range 64) (fun q s => s.beqFree b q)
      (((s.set .NVE_BE_STAT_connected 0 0 b).set .BE_on 0 0 b).set .BE_rec 0 0 b).nveRes ch 0

/-- Whether the fields of a namespace record lie in Table STOR-5. -/
def nsRecOk (r : Nat) : Bool :=
  let at_ := fun (o n : Nat) => recAt r o n
  decide (at_ 4 2 < 4096 ∧ (at_ 6 1 = 9 ∨ at_ 6 1 = 12) ∧ at_ 7 1 < 4 ∧ 1 ≤ at_ 16 8 ∧ at_ 29 1 < 8 ∧ at_ 30 2 = 0 ∧ at_ 48 16 = 0) &&
  (decide (at_ 24 4 < 2 ^ 24) || !(at_ 7 1).testBit 0)

/-- NS_CREATE: command NS_CREATE of channel `ch` for namespace `n` (R369, R470). -/
def execNsCreate (ch n : Nat) (s : State) : Host.Outcome State Fault Refusal :=
  .next <|
    let r := s.chRec .NVE_CH_record ch 32 % 2 ^ 512
    let t := recAt r 28 1
    if s.get .NVE_CH_busy 0 ch = 1 then s
    else if s.get .NS_on 0 n = 1 ∨ !s.tenActive t then s.nveRes ch 2
    else if !nsRecOk r then s.nveRes ch 3
    else if !(s.affMask t).testBit (recAt r 29 1) ∨ ((recAt r 7 1).testBit 0 ∧ !s.tenSlot t (recAt r 24 4 % 2 ^ 24)) then
      s.nveRes ch 4
    else ((s.set .NS_on 1 0 n).set .NS_rec r 0 n).nveRes ch 0

/-- Whether a namespace is attached to a controller, or is being detached. -/
def State.nsAttached (s : State) (n : Nat) : Bool :=
  (s.keysOf .NSA).any (fun x => decide (s.get .NSA 0 x.2 = n + 1)) || (s.keysOf .NSA_old).any (fun x => decide (s.get .NSA_old 0 x.2 = n + 1))

/-- NS_DELETE: command NS_DELETE of channel `ch`: a namespace attached to no controller is freed (Table STOR-2). -/
def execNsDelete (ch n : Nat) (s : State) : Host.Outcome State Fault Refusal :=
  .next <|
    if s.get .NVE_CH_busy 0 ch = 1 then s
    else if s.get .NS_on 0 n = 0 then s.nveRes ch 2
    else if s.nsAttached n then s.nveRes ch 5
    else ((s.set .NS_on 0 0 n).set .NS_rec 0 0 n).nveRes ch 0

/-- NS_ATTACH: command NS_ATTACH of channel `ch` for namespace `n`, controller and nsid from the channel's words (Table STOR-2,
R470). -/
def execNsAttach (ch n : Nat) (s : State) : Host.Outcome State Fault Refusal :=
  .next <|
    let k := s.get .NVE_CH_ctrl 0 ch
    let nsid := s.get .NVE_CH_nsid 0 ch
    let i := k * 257 + nsid
    if s.get .NVE_CH_busy 0 ch = 1 then s
    else if nsid = 0 ∨ 256 < nsid then s.nveRes ch 3
    else if s.get .NS_on 0 n = 0 ∨ s.get .NVE_CTRL_CFG_enable 0 k = 0 ∨ s.get .NSA 0 i ≠ 0 ∨ s.get .NSA_old 0 i ≠ 0 ∨
        !s.tenActive (s.nsAt n 28 1) then s.nveRes ch 2
    else if s.nsAt n 28 1 ≠ s.ctrlTenant k then s.nveRes ch 4
    else ((s.set .NSA (n + 1) 0 i).nsEvent k nsid).nveRes ch 0

/-- NS_DETACH: command NS_DETACH of channel `ch` (R370): from acceptance the nsid is not attached; the command completes after the
commands fetched earlier. -/
def execNsDetach (ch n : Nat) (s : State) : Host.Outcome State Fault Refusal :=
  .next <|
    let k := s.get .NVE_CH_ctrl 0 ch
    let nsid := s.get .NVE_CH_nsid 0 ch
    let i := k * 257 + nsid
    if s.get .NVE_CH_busy 0 ch = 1 then s
    else if nsid = 0 ∨ 256 < nsid then s.nveRes ch 3
    else if s.get .NSA 0 i ≠ n + 1 then s.nveRes ch 2
    else ((((s.set .NSA 0 0 i).set .NSA_old (n + 1) 0 i).set .NSA_seq (s.get .NC_seq 0 k) 0 i |>.set .NSA_det (ch + 1) 0 i).set .NVE_CH_busy 1 0 ch).detachStep k

/-- NVE_QUERY: command QUERY of channel `ch`: the record at the index. The command does not say whether it names a backend or a
namespace: which is shown is a free choice (log entry 54). -/
def execNveQuery (ch n : Nat) (s : State) : Host.Outcome State Fault Refusal :=
  .next <|
    if s.get .NVE_CH_busy 0 ch = 1 then s
    else
      let r := if s.freeVal 1 = 0 then s.get .NS_rec 0 n else if n < 4096 then s.get .BE_rec 0 n else 0
      (s.drew.chShow .NVE_CH_record ch 32 r).nveRes ch 0

/-- CONTROLLER_ENABLE: CC is written with EN = 1 (R363). -/
def execControllerEnable (k cc : Nat) (s : State) : Host.Outcome State Fault Refusal :=
  .next (s.ctrlCc k (putBits cc 0 1 1))

/-- CONTROLLER_RESET: CC.EN is cleared (R379). -/
def execControllerReset (k : Nat) (s : State) : Host.Outcome State Fault Refusal :=
  .next (s.ctrlCc k (putBits (s.get .NC_cc 0 k) 0 1 0))

/-- RESET_LIMIT_EXPIRY: reset_limit_ms after a reset or shutdown: what remains is discarded (R379, R382). -/
def execResetLimitExpiry (k : Nat) (s : State) : Host.Outcome State Fault Refusal :=
  .next <|
    let st := s.get .NVE_CTRL_STAT_state 0 k
    let ms := min 30000 (max 1 (s.get .NVE_CFG_reset_limit_ms))
    if st = 2 then (s.advanceTo (s.get .NC_reset_at 0 k + ms * msUnits)).ctrlResetEnd k
    else if st = 3 ∧ (s.get .NC_shn 0 k = 1 ∨ s.get .NC_shn 0 k = 2) then
      let s := s.advanceTo (s.get .NC_reset_at 0 k + ms * msUnits)
      (s.each (s.lget .ctrlCmds 0 k) (fun id s => s.cmdDrop id)).ctrlAfter k
    else s

/-- CONTROLLER_SHUTDOWN: CC.SHN is written, 1 normal or 2 abrupt (R382). -/
def execControllerShutdown (k n : Nat) (s : State) : Host.Outcome State Fault Refusal :=
  .next (s.ctrlCc k (putBits (s.get .NC_cc 0 k) 14 2 n))

/-- NVME_FETCH: the fetch engine of the controller's endpoint fetches one entry of an eligible controller (R371). -/
def execNvmeFetch (k : Nat) (s : State) : Host.Outcome State Fault Refusal :=
  .next (if s.ctrlEligible k then s.nvmeFetch1 k else s)

/-- Whether command `id` is a FETCHED admin command of opcode `op`. -/
def State.isAdmin (s : State) (id op : Nat) : Bool :=
  decide (s.get .CM_st 0 id = 2 ∧ s.get .CM_sq 0 id = 0 ∧ s.cmdOp id = op)

/-- Status for the fields every command shares: fused operation, reserved bits of dword 0, SGL of an admin command (Tables STOR-1 and
STOR-7); 0 none wrong. -/
def State.dw0Status (s : State) (id : Nat) : Nat :=
  let fl := s.sq4 id 1 1
  if fl % 64 ≠ 0 ∨ 2 ≤ fl / 64 ∨ (s.cmdAdmin id ∧ fl / 64 ≠ 0) then 0x02 else 0

/-- A FETCHED admin command runs `f`, unless a shared field is wrong. -/
def State.adminRun (s : State) (id op : Nat) (f : Nat → State → State) : State :=
  if !s.isAdmin id op then s
  else if s.dw0Status id ≠ 0 then s.cmdOver id (s.dw0Status id) 0
  else f (s.get .CM_ctrl 0 id) s

/-- I/O queue pairs a controller offers: max_ioq, and what feature 07h allocated. -/
def State.ioqMax (s : State) (k : Nat) : Nat :=
  let m := s.get .NVE_CTRL_CFG_max_ioq 0 k
  let m := if 1 ≤ m ∧ m ≤ 64 then m else 64
  if s.get .NC_nsq 0 k = 0 then m else min m (s.get .NC_nsq 0 k)

/-- CREATE_IO_CQ (R362; statuses of NVM Express Base 2.0). -/
def execCreateIoCq (id : Nat) (s : State) : Host.Outcome State Fault Refusal :=
  .next <| s.adminRun id 0x05 (fun k s =>
    let q := s.sq4 id 40 2
    let sz := s.sq4 id 42 2
    let i := qIx k q
    let fl := s.sq4 id 44 2
    let iv := s.sq4 id 46 2
    if q = 0 ∨ s.ioqMax k < q ∨ s.get .CQ_on 0 i = 1 then s.cmdOver id 0x101 0
    else if sz = 0 then s.cmdOver id 0x102 0
    else if fl % 2 = 0 then s.cmdOver id 0x02 0
    else if 65 ≤ iv then s.cmdOver id 0x108 0
    else if s.sq4 id 24 8 % 4096 ≠ 0 then s.cmdOver id 0x13 0
    else
      let s := ((((s.set .CQ_on 1 0 i).set .CQ_base (s.sq4 id 24 8) 0 i).set .CQ_size (sz + 1) 0 i).set .CQ_head 0 0 i).set .CQ_tail 0 0 i
      (((s.set .CQ_phase 1 0 i).set .CQ_iv iv 0 i).set .CQ_ien (fl / 2) 0 i).cmdOver id 0 0)

/-- CREATE_IO_SQ (R362). -/
def execCreateIoSq (id : Nat) (s : State) : Host.Outcome State Fault Refusal :=
  .next <| s.adminRun id 0x01 (fun k s =>
    let q := s.sq4 id 40 2
    let sz := s.sq4 id 42 2
    let i := qIx k q
    let cq := s.sq4 id 46 2
    if q = 0 ∨ s.ioqMax k < q ∨ s.get .SQ_on 0 i = 1 then s.cmdOver id 0x101 0
    else if cq = 0 ∨ 65 ≤ cq ∨ s.get .CQ_on 0 (qIx k cq) = 0 then s.cmdOver id 0x100 0
    else if sz = 0 then s.cmdOver id 0x102 0
    else if s.sq4 id 44 1 % 2 = 0 then s.cmdOver id 0x02 0
    else if s.sq4 id 24 8 % 4096 ≠ 0 then s.cmdOver id 0x13 0
    else
      let s := ((((s.set .SQ_on 1 0 i).set .SQ_base (s.sq4 id 24 8) 0 i).set .SQ_size (sz + 1) 0 i).set .SQ_head 0 0 i).set .SQ_tail 0 0 i
      ((s.set .SQ_cq cq 0 i).set .SQ_block 0 0 i).cmdOver id 0 0)

/-- DELETE_IO_SQ: commands of the queue that have not completed are discarded with it (R362; log entry 53). -/
def execDeleteIoSq (id : Nat) (s : State) : Host.Outcome State Fault Refusal :=
  .next <| s.adminRun id 0x00 (fun k s =>
    let q := s.sq4 id 40 2
    let i := qIx k q
    if q = 0 ∨ 65 ≤ q ∨ s.get .SQ_on 0 i = 0 then s.cmdOver id 0x101 0
    else
      let s := s.each ((s.lget .ctrlCmds 0 k).filter (fun j => decide (s.get .CM_sq 0 j = q))) (fun j s => s.cmdDrop j)
      ((s.set .SQ_on 0 0 i).set .SQ_tail 0 0 i |>.set .SQ_head 0 0 i).cmdOver id 0 0)

/-- DELETE_IO_CQ (R362). -/
def execDeleteIoCq (id : Nat) (s : State) : Host.Outcome State Fault Refusal :=
  .next <| s.adminRun id 0x04 (fun k s =>
    let q := s.sq4 id 40 2
    let i := qIx k q
    if q = 0 ∨ 65 ≤ q ∨ s.get .CQ_on 0 i = 0 then s.cmdOver id 0x101 0
    else if (List.range 65).any (fun j => decide (s.get .SQ_on 0 (qIx k j) = 1 ∧ s.get .SQ_cq 0 (qIx k j) = q)) then s.cmdOver id 0x10C 0
    else (((s.set .CQ_on 0 0 i).set .CQ_tail 0 0 i).set .CQ_head 0 0 i).cmdOver id 0 0)

/-- An admin command answers data, of which the host asked for `len` bytes from offset `o`; bytes past its end are not stated and free. -/
def State.adminData (s : State) (id o len : Nat) (d : List Nat) : State :=
  let x := slice d o len
  let (s, fill) := s.freeBytes (len - x.length)
  (s.lset .cmdData (x ++ fill) 0 id).dptrStart id 2 len

/-- Commands Supported and Effects log: CSUPP for each command of Table STOR-1, LBCC for those that change logical blocks. -/
def effectsLog (pf : Bool) : List Nat :=
  let adm := fun (op : Nat) => [0x00, 0x01, 0x02, 0x04, 0x05, 0x06, 0x08, 0x09, 0x0A, 0x0C].contains op || (pf && [0x10, 0x11].contains op)
  (List.range 256).flatMap (fun op => [b2n (adm op), 0, 0, 0]) ++
  (List.range 256).flatMap (fun op => [if op = 1 ∨ op = 8 ∨ op = 9 then 3 else b2n (decide (op = 0 ∨ op = 2)), 0, 0, 0]) ++ List.replicate 2048 0

/-- Firmware Slot log: active slot, and an 8-byte revision for each of the two stage 2 slots (R520); revisions are not stated and free.
No slots on a VF (R364). -/
def State.fwSlotLog (s : State) (pf : Bool) : State × List Nat :=
  if !pf then (s, List.replicate 512 0)
  else
    let (s, r) := s.freeBytes 16
    (s, [s.get .BOOT_STATUS_s2_slot + 1] ++ List.replicate 7 0 ++ r ++ List.replicate 488 0)

/-- Changed Namespace List log. -/
def State.changedLog (s : State) (k : Nat) : List Nat :=
  let l := ((List.range 257).filter (fun n => (s.lget .nsChanged 0 k).contains n))
  l.flatMap (fun n => leBytes 4 n) ++ List.replicate (4096 - 4 * l.length) 0

/-- GET_LOG_PAGE: pages 01h to 05h (Table STOR-1). What Error and SMART report is not stated: free values (log entry 53). -/
def execGetLogPage (id : Nat) (s : State) : Host.Outcome State Fault Refusal :=
  .next <| s.adminRun id 0x02 (fun k s =>
    let len := (s.sq4 id 42 2 + s.sq4 id 44 2 * 65536 + 1) * 4
    let o := s.sq4 id 48 8
    let pf := decide (k % 512 = 0)
    match s.sq4 id 40 1 with
    | 1 => s.adminData id 0 len []
    | 2 => s.adminData id 0 len []
    | 3 => let (s, d) := s.fwSlotLog pf; s.adminData id o len d
    | 4 =>
      let d := s.changedLog k
      let s := s.when (!(s.sq4 id 41 1).testBit 7) (fun s => (s.lset .nsChanged [] 0 k).set .NC_chg 0 0 k)
      s.adminData id o len d
    | 5 => s.adminData id o len (effectsLog pf)
    | _ => s.cmdOver id 0x109 0)

/-- Identify Controller data: the values of Tables STOR-1 and HOST-2; serial, model and firmware strings, OUI and FGUID are free. -/
def State.identCtrl (s : State) (k : Nat) : State × List Nat :=
  let pf := decide (k % 512 = 0)
  let e := ctrlEp k
  let (s, names) := s.freeBytes 68
  let (s, oui) := s.freeBytes 4
  let d := List.replicate 4096 0
  let d := splice d 0 (leBytes 2 0xB7E5 ++ leBytes 2 (s.get .PCI_ID_CFG_ssvid e) ++ names ++ oui)
  let d := splice d 77 ([9] ++ leBytes 2 k ++ leBytes 4 0x00020000)
  let d := splice d 92 (leBytes 4 0x100)
  let d := splice d 111 [1]
  let d := splice d 256 (leBytes 2 (if pf then 4 else 0) ++ [3, 3, (if pf then 0x14 else 0), 0x02, 0, 0])
  let d := splice d 270 (leBytes 2 (if pf then 10 else 0))
  let d := splice d 512 ([0x66, 0x44, 0, 0] ++ leBytes 4 256 ++ leBytes 2 0x000C ++ leBytes 2 0 ++ [0, 0x07] ++ leBytes 2 0 ++ leBytes 2 0 ++ [0, 0] ++
    leBytes 2 0 ++ leBytes 2 0 ++ leBytes 4 1)
  (s, d)

/-- Identify Namespace data (Table STOR-5, R385); the device reports one LBA format, that of the namespace. -/
def State.identNs (s : State) (n : Nat) : List Nat :=
  let d := List.replicate 4096 0
  let z := leBytes 8 (s.nsAt n 16 8)
  let d := splice d 0 (z ++ z ++ z)
  let d := splice d 99 [b2n ((s.nsAt n 7 1).testBit 1)]
  let d := splice d 104 (leBytes 16 (s.nsAt n 32 16))
  splice d 130 [s.nsAt n 6 1]

/-- IDENTIFY: CNS 00h to 03h (Table STOR-1). -/
def execIdentify (id : Nat) (s : State) : Host.Outcome State Fault Refusal :=
  .next <| s.adminRun id 0x06 (fun k s =>
    let nsid := s.sq4 id 4 4
    match s.sq4 id 40 1 with
    | 0 =>
      if nsid = 0 ∨ 256 < nsid then s.cmdOver id 0x0B 0
      else s.adminData id 0 4096 (if s.nsOf k nsid = 0 then List.replicate 4096 0 else s.identNs (s.nsOf k nsid - 1))
    | 1 => let (s, d) := s.identCtrl k; s.adminData id 0 4096 d
    | 2 =>
      if 0xFFFFFFFE ≤ nsid then s.cmdOver id 0x0B 0
      else
        let l := ((s.ctrlNs k).map (·.1)).filter (fun i => decide (nsid < i))
        s.adminData id 0 4096 (l.flatMap (fun i => leBytes 4 i) ++ List.replicate (4096 - 4 * l.length) 0)
    | 3 =>
      if s.nsOf k nsid = 0 then s.cmdOver id 0x0B 0
      else s.adminData id 0 4096 ([2, 16, 0, 0] ++ leBytes 16 (s.nsAt (s.nsOf k nsid - 1) 32 16) ++ List.replicate 4076 0)
    | _ => s.cmdOver id 0x02 0)

/-- NVME_ABORT (R378): caught in FETCHED, STAGING or ORDER_WAIT, and then completed as Table STOR-6 states; else it runs on. -/
def execNvmeAbort (id : Nat) (s : State) : Host.Outcome State Fault Refusal :=
  .next <| s.adminRun id 0x08 (fun k s =>
    let q := s.sq4 id 40 2
    let cid := s.sq4 id 42 2
    match (s.lget .ctrlCmds 0 k).find? (fun j => decide (j ≠ id ∧ s.get .CM_sq 0 j = q ∧ s.cmdCid j = cid ∧ 2 ≤ s.get .CM_st 0 j ∧ s.get .CM_st 0 j ≤ 4 ∧
        s.lget .flushLeft 0 j = [])) with
    | some j => ((s.bump .NVE_REGION_CNT0_aborts_caught (s.get .CM_region 0 j)).cmdOver j 0x07 0).cmdOver id 0 0
    | none => s.cmdOver id 0 1)

/-- SET_FEATURES: 01h, 06h, 07h, 08h, 09h, 0Bh, none saveable (Table STOR-1). -/
def execSetFeatures (id : Nat) (s : State) : Host.Outcome State Fault Refusal :=
  .next <| s.adminRun id 0x09 (fun k s =>
    let v := s.sq4 id 44 4
    if (s.sq4 id 43 1).testBit 7 then s.cmdOver id 0x10D 0
    else match s.sq4 id 40 1 with
      | 0x01 => (s.set .NC_feat_arb v 0 k).cmdOver id 0 0
      | 0x06 => (s.set .NC_feat_vwc (v % 2) 0 k).cmdOver id 0 0
      | 0x07 =>
        let m := s.get .NVE_CTRL_CFG_max_ioq 0 k
        let m := if 1 ≤ m ∧ m ≤ 64 then m else 64
        if v % 65536 = 0xFFFF ∨ v / 65536 = 0xFFFF then s.cmdOver id 0x02 0
        else if ((List.range 65).drop 1).any (fun q => decide (s.get .SQ_on 0 (qIx k q) = 1 ∨ s.get .CQ_on 0 (qIx k q) = 1)) then s.cmdOver id 0x0C 0
        else
          let n := min m (min (v % 65536) (v / 65536) + 1)
          (s.set .NC_nsq n 0 k).cmdOver id 0 (n - 1 + (n - 1) * 65536)
      | 0x08 => (s.set .NC_feat_coal (v % 65536) 0 k).cmdOver id 0 0
      | 0x09 => if 65 ≤ v % 65536 then s.cmdOver id 0x02 0 else (s.set .NC_feat_vec (v % 2 ^ 17) 0 (k * 65 + v % 65536)).cmdOver id 0 0
      | 0x0B => (s.set .NC_feat_aec v 0 k).cmdOver id 0 0
      | _ => s.cmdOver id 0x02 0)

/-- GET_FEATURES (Table STOR-1). -/
def execGetFeatures (id : Nat) (s : State) : Host.Outcome State Fault Refusal :=
  .next <| s.adminRun id 0x0A (fun k s =>
    let v := s.sq4 id 44 4 % 65536
    match s.sq4 id 40 1 with
    | 0x01 => s.cmdOver id 0 (s.get .NC_feat_arb 0 k)
    | 0x06 => s.cmdOver id 0 (s.get .NC_feat_vwc 0 k)
    | 0x07 => s.cmdOver id 0 (s.ioqMax k - 1 + (s.ioqMax k - 1) * 65536)
    | 0x08 => s.cmdOver id 0 (s.get .NC_feat_coal 0 k)
    | 0x09 => if 65 ≤ v then s.cmdOver id 0x02 0 else s.cmdOver id 0 (putBits (s.get .NC_feat_vec 0 (k * 65 + v)) 0 16 v)
    | 0x0B => s.cmdOver id 0 (s.get .NC_feat_aec 0 k)
    | _ => s.cmdOver id 0x02 0)

/-- ASYNCHRONOUS_EVENT_REQUEST: up to four wait for an event (Table STOR-1: AERL 3). -/
def execAsynchronousEventRequest (id : Nat) (s : State) : Host.Outcome State Fault Refusal :=
  .next <| s.adminRun id 0x0C (fun k s =>
    if 4 ≤ (s.lget .aerCids 0 k).length then s.cmdOver id 0x105 0
    else
      let cid := s.cmdCid id
      let s := (s.cmdDrop id).lpush .aerCids cid 0 k
      match s.lget .aerWait 0 k with
      | d :: r => ((s.lset .aerWait r 0 k).aerPost k d).ctrlAfter k
      | [] => s.ctrlAfter k)

/-- Whether command `id` is a FETCHED I/O command of opcode `op`. -/
def State.isIo (s : State) (id op : Nat) : Bool :=
  decide (s.get .CM_st 0 id = 2 ∧ s.get .CM_sq 0 id ≠ 0 ∧ s.cmdOp id = op)

/-- Status of the checks of an I/O command in FETCHED, 0 when they pass (Table STOR-6). `blocks` 0 where it has no LBA range. The spec
gives the checks no order: shared fields, namespace, write protection, range, length (log entry 53). -/
def State.ioStatus (s : State) (id blocks : Nat) (data : Bool) : Nat :=
  let x := s.cmdNs id
  if s.dw0Status id ≠ 0 then s.dw0Status id
  else if x = 0 then 0x0B
  else if s.cmdWrites id ∧ (s.nsAt (x - 1) 7 1).testBit 1 then 0x20
  else if blocks ≠ 0 ∧ s.nsAt (x - 1) 16 8 < s.sq4 id 40 8 + blocks then 0x80
  else if data ∧ 2 ^ 21 < blocks * 2 ^ s.nsAt (x - 1) 6 1 then 0x02
  else 0

/-- A command that passed its checks waits in FETCHED for its region's credit, holding its queue, and for staging space (R371, R373);
else it goes to STAGING and its data moves as `dir` says. -/
def State.ioAdmit (s : State) (id blocks dir len : Nat) : State :=
  let k := s.get .CM_ctrl 0 id
  let x := s.cmdNs id
  match s.nsRegion (x - 1) with
  | none => s
  | some n =>
    let i := qIx k (s.get .CM_sq 0 id)
    if !s.creditOk n (s.ctrlTenant k) then (s.set .CM_region n 0 id).set .SQ_block (id + 1) 0 i
    else if 2 ^ 29 < s.stagingUsed n + len then s
    else
      let s := (((s.sqFree id).set .CM_region n 0 id).set .CM_ns x 0 id).set .CM_nsid (s.sq4 id 4 4) 0 id
      let s := (s.set .CM_bns (s.nsAt (x - 1) 0 4) 0 id).set .CM_slba (s.nsAt (x - 1) 8 8 + s.sq4 id 40 8) 0 id
      let s := s.when (decide (blocks ≠ 0)) (·.lset .cmdRanges [s.sq4 id 40 8, blocks] 0 id)
      if dir = 0 then (s.set .CM_st 3 0 id).set .CM_dlen len 0 id else s.dptrStart id dir len

/-- Logical blocks of a command (NLB is 0's based). -/
def State.ioBlocks (s : State) (id : Nat) : Nat := s.sq4 id 48 2 + 1

/-- Bytes of `n` blocks of a command's namespace. -/
def State.ioBytes (s : State) (id n : Nat) : Nat := n * 2 ^ s.nsAt (s.cmdNs id - 1) 6 1

/-- NVME_WRITE: a fetched Write is checked and its data read into staging (R373, R374). -/
def execNvmeWrite (id : Nat) (s : State) : Host.Outcome State Fault Refusal :=
  .next <|
    if !s.isIo id 1 then s
    else match s.ioStatus id (s.ioBlocks id) true with
      | 0 => s.ioAdmit id (s.ioBlocks id) 1 (s.ioBytes id (s.ioBlocks id))
      | x => s.cmdOver id x 0

/-- NVME_READ: a fetched Read is checked and given staging (R374). -/
def execNvmeRead (id : Nat) (s : State) : Host.Outcome State Fault Refusal :=
  .next <|
    if !s.isIo id 2 then s
    else match s.ioStatus id (s.ioBlocks id) true with
      | 0 => s.ioAdmit id (s.ioBlocks id) 2 (s.ioBytes id (s.ioBlocks id))
      | x => s.cmdOver id x 0

/-- WRITE_ZEROES: on a namespace with xts it is a Write of zero blocks, encrypted (R385). -/
def execWriteZeroes (id : Nat) (s : State) : Host.Outcome State Fault Refusal :=
  .next <|
    if !s.isIo id 8 then s
    else match s.ioStatus id (s.ioBlocks id) false with
      | 0 =>
        let xts := (s.nsAt (s.cmdNs id - 1) 7 1).testBit 0
        let len := if xts then s.ioBytes id (s.ioBlocks id) else 0
        let s := s.ioAdmit id (s.ioBlocks id) 0 len
        s.when (xts && decide (s.get .CM_st 0 id = 3)) (·.lset .cmdData (List.replicate len 0) 0 id)
      | x => s.cmdOver id x 0

/-- DATASET_MANAGEMENT: deallocate, up to 256 ranges read from the host; without the deallocate attribute it is a hint with no effect
(Table STOR-1). -/
def execDatasetManagement (id : Nat) (s : State) : Host.Outcome State Fault Refusal :=
  .next <|
    if !s.isIo id 9 then s
    else match s.ioStatus id 0 false with
      | 0 =>
        if !(s.sq4 id 44 1).testBit 2 then s.cmdOver id 0 0
        else s.ioAdmit id 0 1 ((s.sq4 id 40 1 + 1) * 16)
      | x => s.cmdOver id x 0

/-- Commands that a Flush covers: Write, Write Zeroes and deallocate fetched before it, of the namespace or, with FFFFFFFFh, of every
namespace (R377). -/
def State.coverOf (s : State) (id : Nat) : List Nat :=
  let k := s.get .CM_ctrl 0 id
  let nsid := s.sq4 id 4 4
  (s.lget .ctrlCmds 0 k).filter (fun j => decide (s.get .CM_sq 0 j ≠ 0 ∧ s.get .CM_seq 0 j < s.get .CM_seq 0 id ∧ s.get .CM_answered 0 j = 0 ∧
    2 ≤ s.get .CM_st 0 j ∧ (nsid = 0xFFFFFFFF ∨ (if s.get .CM_st 0 j = 2 then s.cmdNs j else s.get .CM_ns 0 j) = s.cmdNs id)) && s.cmdWrites j)

/-- NVME_FLUSH: the Flush waits for what it covers and then becomes one Flush for each distinct backend_nsid (R377). A command fetched
before it and still being read holds it in FETCHED. -/
def execNvmeFlush (id : Nat) (s : State) : Host.Outcome State Fault Refusal :=
  .next <|
    let k := s.get .CM_ctrl 0 id
    let nsid := s.sq4 id 4 4
    let all := decide (nsid = 0xFFFFFFFF)
    let x := s.cmdNs id
    if !s.isIo id 0 then s
    else if s.dw0Status id ≠ 0 then s.cmdOver id (s.dw0Status id) 0
    else if !all ∧ x = 0 then s.cmdOver id 0x0B 0
    else if (s.lget .ctrlCmds 0 k).any (fun j => decide (s.get .CM_st 0 j = 1 ∧ s.get .CM_sq 0 j ≠ 0 ∧ s.get .CM_seq 0 j < s.get .CM_seq 0 id)) then s
    else
      let region := if all then s.lowRegion (s.ctrlTenant k) else s.nsRegion (x - 1)
      match region with
      | none => s
      | some n =>
        if !all ∧ !s.creditOk n (s.ctrlTenant k) then (s.set .CM_region n 0 id).set .SQ_block (id + 1) 0 (qIx k (s.get .CM_sq 0 id))
        else
          let s := ((s.sqFree id).set .CM_region n 0 id).set .CM_ns x 0 id
          let s := ((s.set .CM_nsid nsid 0 id).lset .flushCover (s.coverOf id) 0 id).set .CM_st 4 0 id
          let s := s.flushTry id
          if s.get .CM_st 0 id = 6 then s.ctrlAfter k else s

/-- Data units of `bs` bytes processed one by one, tweaked by the LBA of each (R384). -/
def xtsUnits (alg : Nat) (key : List Nat) (lba bs : Nat) (d : List Nat) : List Nat :=
  if bs = 0 then d
  else (List.range (d.length / bs)).flatMap (fun i =>
    (Config.crypto alg [key, leBytes 16 (lba + i), slice d (i * bs) bs] ++ List.replicate bs 0).take bs)

/-- The data of a command under its namespace's key: 2 done, 1 the key is being loaded, 3 the operation failed (R384, R392); corrupt where a
fault was injected that nothing detects (R391). -/
def State.cmdXts (s : State) (id alg : Nat) (agree : Bool) : State × Nat :=
  let n := s.get .CM_ns 0 id - 1
  if !(s.nsAt n 7 1).testBit 0 ∨ s.lget .cmdData 0 id = [] then (s, 2)
  else
    let r := s.get .CM_region 0 id
    let slot := s.nsAt n 24 4 % 2 ^ 24
    match s.cipUse r slot (s.nsAt n 28 1) agree with
    | (s, 2) => (s.lset .cmdData (xtsUnits alg (s.cipKeyBytes r slot) (s.get .CM_slba 0 id) (2 ^ s.nsAt n 6 1) (s.lget .cmdData 0 id)) 0 id, 2)
    | (s, 4) =>
      let (s, l) := s.freeBytes (s.lget .cmdData 0 id).length
      (s.lset .cmdData l 0 id, 2)
    | x => x

/-- A command in ORDER_WAIT asks for the TLS key of the queue it would go to, and is sent when nothing holds it; without a key it ends with
Internal Error (R392). -/
def State.cmdGo (s : State) (id : Nat) : State :=
  match s.pickQueue (s.cmdBackend id) (s.get .CM_avoid 0 id) with
  | none => (s.cmdTry id).flushTry id
  | some q =>
    match s.tlsUse id q with
    | (s, 3) => s.cmdOver id 0x06 0
    | (s, _) => (s.cmdTry id).flushTry id

/-- COMMAND_STAGED: a command's data is staged, and encrypted where the namespace says so; it enters the overlap check and is sent when
nothing holds it (R373 to R376, R384). -/
def execCommandStaged (id : Nat) (agree : Bool) (s : State) : Host.Outcome State Fault Refusal :=
  .next <|
    if s.get .CM_st 0 id = 4 then s.cmdGo id
    else if s.get .CM_st 0 id ≠ 3 ∨ s.cmdAdmin id ∨ s.get .CM_want 0 id ≠ 0 ∨ (s.get .CM_dir 0 id ≠ 0 ∧ s.get .CM_desc 0 id ≠ s.get .CM_dlen 0 id) then s
    else
      match (if s.opSent id = 1 then s.cmdXts id algXtsEnc agree else (s, 2)) with
      | (s, 2) => (s.set .CM_st 4 0 id).cmdGo id
      | (s, 1) => s
      | (s, _) => s.cmdOver id 0x06 0

/-- Whether a list of unacknowledged PDUs, each a number, a length and its bytes, still holds one numbered `id`. -/
def unaHas (id : Nat) : Nat → List Nat → Bool
  | fuel + 1, i :: n :: r => decide (i = id) || unaHas id fuel (r.drop n)
  | _, _ => false

/-- PDUs that a response to a command shows to be acknowledged leave the queue's store: all up to the last of that command (log entry
53). -/
def unaDrop (id : Nat) : Nat → List Nat → List Nat
  | fuel + 1, i :: n :: r =>
    let rest := unaDrop id fuel (r.drop n)
    if i = id then rest
    else if unaHas id fuel (r.drop n) then rest else i :: n :: (r.take n ++ rest)
  | _, l => l

/-- The backend has answered a command. -/
def State.beAnswer (s : State) (id status dw0 : Nat) (data : List Nat) : State :=
  let s := ((s.cmdUnsend id).set .CM_st 7 0 id).set .CM_answered 1 0 id
  let len := s.get .CM_dlen 0 id
  let s := s.when (decide (s.cmdOp id = 2 ∧ s.get .CM_parent 0 id = 0)) (·.lset .cmdData ((data ++ List.replicate len 0).take len) 0 id)
  ((s.set .CM_resp (status + 1) 0 id).set .CM_cpl dw0 0 id).set .CM_hold 2 0 id

/-- An answered command goes on: read data is decrypted, then the command ends (R373, R384). -/
def State.beFinish (s : State) (id : Nat) (agree : Bool) : State :=
  let st := s.get .CM_resp 0 id - 1
  let dw0 := s.get .CM_cpl 0 id
  match (if st = 0 ∧ s.cmdOp id = 2 ∧ s.get .CM_parent 0 id = 0 ∧ s.get .CM_shn 0 id = 0 then s.cmdXts id algXtsDec agree else (s, 2)) with
  | (s, 2) => s.cmdOver id st dw0
  | (s, 1) => s.storeKick
  | (s, _) => s.cmdOver id 0x06 0

/-- Command sent on queue `q` of backend `b` with a tag, in a state `st`. -/
def State.sentAs (s : State) (b q tag st : Nat) : Option Nat :=
  ((s.keysOf .CM_sent_at).map (·.2)).find? (fun id =>
    decide (s.get .CM_st 0 id = st ∧ s.get .CM_be 0 id = b ∧ s.get .CM_q 0 id = q ∧ s.get .CM_tag 0 id = tag))

/-- A response that answers no command outstanding is dropped in staging and counted (R379): in the region of the command, or that of
the backend. -/
def State.lateResp (s : State) (b q tag : Nat) : State :=
  let n := match s.sentAs b q tag 6 with
    | some id => s.get .CM_region 0 id
    | none => s.beField b 2 1
  s.bump .NVE_REGION_CNT1_late_resp n

/-- A response with a tag, status (type and code), dword 0 and data is taken. -/
def State.beTake (s : State) (b q tag status dw0 : Nat) (data : List Nat) (agree : Bool) : State :=
  match s.sentAs b q tag 7, s.sentAs b q tag 5 with
  | some id, _ => if s.get .CM_hold 0 id = 2 then s.beFinish id agree else s
  | none, some id =>
    let j := b * 64 + q
    let s := (s.lset .beUna (unaDrop id (s.lget .beUna 0 j).length (s.lget .beUna 0 j)) 0 j).set .BEQ_rto secUnits 0 j
    (s.beAnswer id status dw0 data).beFinish id agree
  | none, none => s.lateResp b q tag

/-- BACKEND_RESPONSE: a response arrives on queue `q` of backend `b` (R368, R369, R374). Over TCP it is what the operands say; over
Sillage it is the oldest message received on the queue's connection (Table STOR-4). -/
def execBackendResponse (b q tag status dw0 : Nat) (agree : Bool) (data : List Nat) (s : State) : Host.Outcome State Fault Refusal :=
  .next <|
    if s.get .BE_on 0 b = 0 then s
    else if s.beField b 0 1 = 2 then
      let c := beCtx b q
      match s.lget .beIn 0 c with
      | [] => (match s.sentAs b q tag 7 with
        | some id => if s.get .CM_hold 0 id = 2 then s.beFinish id agree else s
        | none => s)
      | n :: r =>
        let m := r.take n
        let s := s.lset .beIn (r.drop n) 0 c
        if m.getD 0 0 ≠ 2 ∨ m.getD 1 0 ≠ 1 ∨ n < 32 then s
        else s.beTake b q (beNat (slice m 2 2)) (leNat (slice m 30 2) / 2 % 2 ^ 11) (leNat (slice m 16 4)) (m.drop 32) agree
    else s.beTake b q tag status dw0 data agree

/-- A command whose backend queue failed it is sent again on another connected queue, up to `retries` times, and otherwise ends with
Transient Transport Error (Table STOR-6). -/
def State.cmdResend (s : State) (id : Nat) : State :=
  let b := s.get .CM_be 0 id
  let q := s.get .CM_q 0 id
  let other := (List.range (s.beField b 1 1)).any (fun j => decide (j ≠ q ∧ s.get .BEQ_on 0 (b * 64 + j) = 1))
  if s.get .NVE_CFG_retries ≤ s.get .CM_tries 0 id ∨ !other then s.cmdOver id stTRANSPORT 0
  else
    let s := ((s.cmdUnsend id).set .CM_st 4 0 id).set .CM_avoid (q + 1) 0 id
    let s := ((s.addw .CM_tries 1 0 id).bump .NVE_BE_STAT_resends 0 b)
    s.cmdTry id

/-- BACKEND_TIMEOUT: no response to a command in io_timeout_ms (Table STOR-6). -/
def execBackendTimeout (id : Nat) (s : State) : Host.Outcome State Fault Refusal :=
  .next <|
    if s.get .CM_st 0 id ≠ 5 ∨ s.get .NVE_CTRL_STAT_state 0 (s.get .CM_ctrl 0 id) = 2 then s
    else
      let s := s.advanceTo (s.get .CM_sent_at 0 id + max 1 (s.get .NVE_CFG_io_timeout_100ms) * 100 * msUnits)
      (s.bump .NVE_BE_STAT_timeouts 0 (s.get .CM_be 0 id)).cmdResend id

/-- Queues of a backend that are connected. -/
def State.beConnected (s : State) (b : Nat) : Nat :=
  ((List.range 64).filter (fun q => decide (s.get .BEQ_on 0 (b * 64 + q) = 1))).length

/-- BACKEND_QUEUE_CONNECT: a queue has connected, with the in-capsule data size and MAXH2CDATA of its target; a connection after a loss
is counted (R365, R368, R374). -/
def execBackendQueueConnect (b q incap maxh2c : Nat) (s : State) : Host.Outcome State Fault Refusal :=
  .next <|
    let j := b * 64 + q
    if s.get .BE_on 0 b = 0 ∨ s.beField b 1 1 ≤ q ∨ s.get .BEQ_on 0 j = 1 then s
    else
      let s := s.when (decide (s.get .BEQ_was 0 j = 1)) (·.bump .NVE_BE_STAT_reconnects 0 b)
      let s := s.when (decide (s.beField b 0 1 = 2 ∧ s.get .CN_state 0 (beCtx b q) ≠ 1)) (·.beConnect b q)
      let s := (((s.set .BEQ_on 1 0 j).set .BEQ_was 1 0 j).set .BEQ_ioccsz incap 0 j).set .BEQ_maxh2c maxh2c 0 j
      let s := ((s.set .BEQ_rto secUnits 0 j).set .BEQ_rec 0 0 j).lset .beUna [] 0 j
      (s.set .NVE_BE_STAT_connected (s.beConnected b) 0 b).storeKick

/-- BACKEND_QUEUE_DISCONNECT: a queue's connection is lost; its outstanding commands are sent again on another (R374). -/
def execBackendQueueDisconnect (b q : Nat) (s : State) : Host.Outcome State Fault Refusal :=
  .next <|
    let j := b * 64 + q
    if s.get .BEQ_on 0 j = 0 then s
    else
      let s := (s.set .BEQ_on 0 0 j).lset .beUna [] 0 j
      let s := s.set .NVE_BE_STAT_connected (s.beConnected b) 0 b
      let ids := ((s.keysOf .CM_sent_at).map (·.2)).filter (fun id => decide (s.get .CM_st 0 id = 5 ∧ s.get .CM_be 0 id = b ∧ s.get .CM_q 0 id = q))
      s.each ids (fun id s => if s.get .NVE_CTRL_STAT_state 0 (s.get .CM_ctrl 0 id) = 2 then s else s.cmdResend id)

/-- H2CData PDUs for a range, each no larger than MAXH2CDATA (R368). -/
def State.h2cSend (s : State) (b q id ttag off : Nat) : Nat → Nat → State
  | 0, _ => s
  | fuel + 1, left =>
    let mx := max 1 (s.get .BEQ_maxh2c 0 (b * 64 + q))
    let n := min mx left
    if left = 0 then s
    else
      let head := leBytes 2 (s.get .CM_tag 0 id) ++ leBytes 2 ttag ++ leBytes 4 off ++ leBytes 4 n ++ [0, 0, 0, 0]
      let s := s.tcpSend b q id (s.tcpPdu b 6 (if left ≤ mx then 4 else 0) head (slice (s.lget .cmdData 0 id) off n))
      s.h2cSend b q id ttag (off + n) fuel (left - n)

/-- The TLS key of the queue that a command was sent on, once a load of it, if one is needed, has ended (R398); without a key the command
ends with Internal Error (R392). Whether there is one. -/
def State.tlsHave (s : State) (id : Nat) : State × Bool :=
  let q := s.get .CM_q 0 id
  let n := s.get .CM_region 0 id
  match s.tlsUse id q with
  | (s, 2) => (s, true)
  | (s, 1) =>
    let s := s.cipLoad n (s.tlsSlot (s.cmdBackend id) q)
    if s.get .CIPC_st n (s.tlsSlot (s.cmdBackend id) q) = 2 then (s, true) else (s.cmdOver id 0x06 0, false)
  | (s, _) => (s.cmdOver id 0x06 0, false)

/-- READY_TO_TRANSFER_PDU: an R2T of a TCP target: the range it asks for is sent (R368). A range beyond the command's data is cut to
it. -/
def execReadyToTransferPdu (b q tag ttag off len : Nat) (s : State) : Host.Outcome State Fault Refusal :=
  .next <|
    match s.sentAs b q tag 5 with
    | some id =>
      let d := (s.lget .cmdData 0 id).length
      if s.beField b 0 1 = 2 ∨ d ≤ off then s
      else match s.tlsHave id with
        | (s, true) => s.h2cSend b q id ttag off (min len (d - off)) (min len (d - off))
        | (s, false) => s
    | none => s

/-- TCP_RETRANSMIT_TIMEOUT: the retransmission timer of a TCP queue expires: the oldest bytes not acknowledged are sent again and the
timer is backed off (RFC 6298; R368; log entry 53). -/
def execTcpRetransmitTimeout (b q : Nat) (s : State) : Host.Outcome State Fault Refusal :=
  .next <|
    let j := b * 64 + q
    match s.lget .beUna 0 j with
    | _ :: n :: r =>
      if s.get .BEQ_on 0 j = 0 ∨ s.beField b 0 1 = 2 then s
      else
        let s := s.advanceTo (s.now + s.get .BEQ_rto 0 j)
        (s.emit .backend [b, q, n] (r.take n)).set .BEQ_rto (min (60 * secUnits) (2 * s.get .BEQ_rto 0 j)) 0 j
    | _ => s

end Sys2Proof.Machine
end

