-- ==== Sys2Proof/Machine/Keys.lean ====
section
/-! DEFINITION. Cipher engines and the key store (spec file 14, R386 to R402). -/

namespace Sys2Proof.Machine

/-- Data bytes of a key channel, 128 of them. -/
def State.keyData (s : State) (ch : Nat) : List Nat := leBytes 128 (s.chRec .KEY_CH_data ch 32)

/-- A key command ends with a result (Table CIPH-8). -/
def State.keyRes (s : State) (ch r : Nat) : State := (s.set .KEY_CH_busy 0 0 ch).set .KEY_CH_result r 0 ch

/-- Whether slot `k` is the odd slot of a pair (R396). -/
def State.oddOfPair (s : State) (k : Nat) : Bool :=
  k.testBit 0 && attrValid (s.slotAttr (k - 1)) && attrPair (s.slotAttr (k - 1))

/-- Whether an attr to be written follows Tables CIPH-4 and CIPH-5; valid is ignored (R399). -/
def attrOk (a : Nat) : Bool :=
  let kd := attrKind a
  let len := attrLen a
  let use := bitsOf a 4 4
  decide (kd ≤ 5 ∧ a / 2 ^ 27 = 0) && (attrMasked a || !attrCheck a) &&
  (match kd with
  | 0 | 1 => decide (attrKeyLen a ≤ len ∧ len ≤ attrKeyLen a + 12) && !attrPair a
  | 2 => decide (use / 2 = 0 ∧ 32 ≤ len ∧ len ≤ 44) && !attrPair a
  | 3 => decide (use / 2 = 0 ∧ len = 64) && attrPair a
  | 4 => decide (use / 2 = 0 ∧ 32 ≤ len ∧ len ≤ 44) && !attrPair a && !attrMasked a
  | _ => decide (use = 0 ∨ use = 4) && decide (16 ≤ len ∧ len ≤ 88) && !attrMasked a && decide (attrPair a = decide (44 < len)))

/-- Result of the checks every creating command makes of its target: 0 none fails. The spec gives the checks no order: STATE,
BAD_FIELD, TENANT, then the source, then OCCUPIED (R396, R399, R470; log entry 55). -/
def State.targetCheck (s : State) (ch t : Nat) : Nat :=
  let k := s.get .KEY_CH_slot 0 ch
  let a := s.get .KEY_CH_attr 0 ch
  if !s.tenActive t then 0x0A
  else if s.oddOfPair k ∨ !attrOk a ∨ (attrPair a ∧ k.testBit 0) then 6
  else if !s.tenSlot t k ∨ (attrPair a ∧ !s.tenSlot t (k + 1)) ∨ attrTenant a ≠ t then 4
  else 0

/-- Whether the target slot, and the pair partner, are empty. -/
def State.targetEmpty (s : State) (ch : Nat) : Bool :=
  let k := s.get .KEY_CH_slot 0 ch
  !attrValid (s.slotAttr k) && (!attrPair (s.get .KEY_CH_attr 0 ch) || !attrValid (s.slotAttr (k + 1)))

/-- The checks of a slot that a command reads, with the usage bit it needs: 0 none fails; a corrupt slot is counted and reported (R395,
R396, R399). -/
def State.sourceCheck (s : State) (t k use : Nat) : State × Nat :=
  let a := s.slotAttr k
  if s.oddOfPair k then (s, 6)
  else if !s.tenSlot t k then (s, 4)
  else if !attrValid a then (s, 3)
  else if attrTenant a ≠ t then (s, 4)
  else if !a.testBit use then (s, 5)
  else if !s.slotGood k then (s.slotCorrupt k, 8)
  else (s, 0)

/-- A key is written to the channel's target slot with valid = 1 (Table CIPH-6). -/
def State.targetPut (s : State) (ch : Nat) (mat : List Nat) : State :=
  let a := putBits (s.get .KEY_CH_attr 0 ch) 11 1 1
  (s.slotStore (s.get .KEY_CH_slot 0 ch) a ((mat ++ List.replicate 88 0).take (attrLen a))).keyRes ch 0

/-- GENERATE: the target is filled from the DRBG (Table CIPH-6). -/
def execGenerate (ch t : Nat) (s : State) : Host.Outcome State Fault Refusal :=
  .next <|
    if s.get .KEY_CH_busy 0 ch = 1 then s
    else match s.targetCheck ch t with
      | 0 =>
        if !s.targetEmpty ch then s.keyRes ch 2
        else (s.addw .DRBG_ctr 1).targetPut ch (Config.crypto algDrbg [leBytes 48 (s.get .DRBG_seed), leBytes 8 (s.get .DRBG_ctr)])
      | x => s.keyRes ch x

/-- Key bytes of a slot's material. -/
def State.slotKey (s : State) (k : Nat) : List Nat := (s.slotMat k).take (attrKeyLen (s.slotAttr k))

/-- UNWRAP: RFC 3394 unwrap under src_slot, with a cleartext suffix as salt (Table CIPH-6, R400). -/
def execUnwrap (ch t : Nat) (s : State) : Host.Outcome State Fault Refusal :=
  .next <|
    let la := s.get .KEY_CH_len_a 0 ch
    let lb := s.get .KEY_CH_len_b 0 ch
    let src := s.get .KEY_CH_src_slot 0 ch
    let d := s.keyData ch
    if s.get .KEY_CH_busy 0 ch = 1 then s
    else match s.targetCheck ch t with
      | 0 =>
        if la < 24 ∨ 72 < la ∨ la % 8 ≠ 0 ∨ 12 < lb ∨ la - 8 + lb ≠ attrLen (s.get .KEY_CH_attr 0 ch) then s.keyRes ch 6
        else match s.sourceCheck t src 5 with
          | (s, 0) =>
            if !s.targetEmpty ch then s.keyRes ch 2
            else if !Config.verifies algUnwrap [s.slotKey src, d.take la] then s.keyRes ch 7
            else s.targetPut ch ((Config.crypto algUnwrap [s.slotKey src, d.take la] ++ List.replicate 72 0).take (la - 8) ++ slice d la lb)
          | (s, x) => s.keyRes ch x
      | x => s.keyRes ch x

/-- Salt slot of an HKDF-Extract: none for a zero salt (Table CIPH-7). -/
def State.saltSlot (s : State) (ch : Nat) : Option Nat :=
  let k := s.get .KEY_CH_data 0 (ch * 32) % 2 ^ 24
  if k = 0xFFFFFF then none else some k

/-- DERIVE: a key is derived from src_slot by kdf (Table CIPH-7): key bytes from info_key, salt bytes from info_salt. -/
def execDerive (ch t : Nat) (s : State) : Host.Outcome State Fault Refusal :=
  .next <|
    let kdf := s.get .KEY_CH_kdf 0 ch
    let la := s.get .KEY_CH_len_a 0 ch
    let lb := s.get .KEY_CH_len_b 0 ch
    let src := s.get .KEY_CH_src_slot 0 ch
    let a := s.get .KEY_CH_attr 0 ch
    let d := s.keyData ch
    let extract := decide (kdf = 3 ∨ kdf = 4)
    if s.get .KEY_CH_busy 0 ch = 1 then s
    else match s.targetCheck ch t with
      | 0 =>
        if kdf = 0 ∨ 5 < kdf ∨ 64 < la ∨ 64 < lb ∨ (extract ∧ attrKind a ≠ 5) then s.keyRes ch 6
        else match s.sourceCheck t src 6 with
          | (s, 0) =>
            let kd := attrKind (s.slotAttr src)
            if (if kdf = 5 then decide (1 < kd) else decide (kd ≠ 5)) then s.keyRes ch 5
            else
              match (if extract then (match s.saltSlot ch with
                  | some k => s.sourceCheck t k 6
                  | none => (s, 0)) else (s, 0)) with
              | (s, 0) =>
                if !s.targetEmpty ch then s.keyRes ch 2
                else if extract then
                  s.targetPut ch (Config.crypto (algKdf + kdf) [s.slotMat src, (match s.saltSlot ch with
                    | some k => s.slotMat k
                    | none => [])])
                else
                  let m := s.slotKey src
                  let out := fun (info : List Nat) (n : Nat) => (Config.crypto (algKdf + kdf) [m, info, leBytes 1 n] ++ List.replicate n 0).take n
                  let n := attrKeyLen a
                  s.targetPut ch (out (d.take la) n ++ out (slice d la lb) (attrLen a - n))
              | (s, x) => s.keyRes ch x
          | (s, x) => s.keyRes ch x
      | x => s.keyRes ch x

/-- Result of the checks of a slot that DESTROY or QUERY names (R396, R399). -/
def State.slotCheck (s : State) (t k : Nat) : Nat :=
  let a := s.slotAttr k
  if s.oddOfPair k then 6 else if !s.tenSlot t k ∨ (attrValid a ∧ attrTenant a ≠ t) then 4 else 0

/-- KEY_DESTROY: command DESTROY: the slot is cleared and the key leaves every engine (R401). -/
def execKeyDestroy (ch t : Nat) (s : State) : Host.Outcome State Fault Refusal :=
  .next <|
    let k := s.get .KEY_CH_slot 0 ch
    if s.get .KEY_CH_busy 0 ch = 1 then s
    else match s.slotCheck t k with
      | 0 => (s.keyDestroy k).keyRes ch 0
      | x => s.keyRes ch x

/-- KEY_QUERY: command QUERY: the slot's attr (Table CIPH-6). A slot whose tag fails is corrupt, and none of it is used (R395). -/
def execKeyQuery (ch t : Nat) (s : State) : Host.Outcome State Fault Refusal :=
  .next <|
    let k := s.get .KEY_CH_slot 0 ch
    let a := s.slotAttr k
    if s.get .KEY_CH_busy 0 ch = 1 then s
    else match s.slotCheck t k with
      | 0 =>
        if attrValid a ∧ !s.slotGood k then (s.slotCorrupt k).keyRes ch 8
        else (s.set .KEY_CH_attr a 0 ch).keyRes ch 0
      | x => s.keyRes ch x

/-- KEY_MAC: command MAC: AES-CMAC over bytes of HBM inside one window of the tenant (R465, Table CIPH-6). -/
def execKeyMac (ch t : Nat) (s : State) : Host.Outcome State Fault Refusal :=
  .next <|
    let src := s.get .KEY_CH_src_slot 0 ch
    let addr := s.get .KEY_CH_src_addr 0 ch
    let len := s.get .KEY_CH_length 0 ch
    if s.get .KEY_CH_busy 0 ch = 1 then s
    else if len = 0 ∨ 65536 < len then s.keyRes ch 6
    else if !s.inWindow t addr len then s.keyRes ch 4
    else match s.sourceCheck t src 7 with
      | (s, 0) =>
        let m := (Config.crypto algCmac [s.slotKey src, s.mread addr len] ++ List.replicate 16 0).take 16
        (s.each (List.range 4) (fun j s => s.set .KEY_CH_data (leNat (slice m (4 * j) 4)) 0 (ch * 32 + j))).keyRes ch 0
      | (s, x) => s.keyRes ch x

/-- ZEROISE_TENANT: DESTROY of every slot of a tenant's range, in ascending order (R402). Slots that hold nothing are already so. -/
def State.keyZeroise (s : State) (t : Nat) : State :=
  s.each ((s.validSlots.filter (fun k => s.tenSlot t k))) (fun k s => s.keyDestroy k)

/-- KEY_ZEROISE_TENANT: command ZEROISE_TENANT: accepted only as issued by the Onyx gate, which `gate` tells; else rejected with
PRESENCE (R402, R528). -/
def execKeyZeroiseTenant (ch t : Nat) (gate : Bool) (s : State) : Host.Outcome State Fault Refusal :=
  .next <|
    if s.get .KEY_CH_busy 0 ch = 1 then s
    else if gate then (s.keyZeroise t).keyRes ch 0
    else s.keyRes ch 9

/-- KEY_LOAD: a transfer over the key bus to a region's cipher block ends; `ok` tells whether it or its one repetition passed the
integrity check (R397, R398). -/
def execKeyLoad (n k : Nat) (ok : Bool) (s : State) : Host.Outcome State Fault Refusal :=
  .next <|
    if s.get .CIPC_st n k ≠ 1 then s
    else if ok then s.cipLoad n k
    else (s.set .CIPC_st 3 n k).lset .cipKey [] n k

/-- DRBG_RESEED: at the next millisecond of DTS the CTR_DRBG is reseeded from the entropy source: a free value (R390). -/
def execDrbgReseed (s : State) : Host.Outcome State Fault Refusal :=
  .next <|
    let s := s.advanceTo ((s.now / msUnits + 1) * msUnits)
    ((s.set .DRBG_seed (s.freeVal 384)).set .DRBG_ctr 0).drew

/-- Drop of a packet whose tag fails at the cipher stage of a pipeline: no cipher failure (R392; RFC 4303 section 3.4.4.2; log entry
56). -/
def reasonESP_TAG : Nat := 0x1001A

/-- What a packet's bytes become at the cipher stage: sealed, opened, or none when the tag fails. -/
def espBytes (kd : Nat) (enc : Bool) (key nonce aad b : List Nat) (off len : Nat) : Option (List Nat) :=
  let sealing := if kd = 4 then algChaSeal else algGcmSeal
  let opening := if kd = 4 then algChaOpen else algGcmOpen
  let d := slice b off len
  if enc then some (b.take off ++ (Config.crypto sealing [key, nonce, aad, d] ++ List.replicate (len + 16) 0).take (len + 16) ++ b.drop (off + len))
  else
    let tag := slice b (off + len) 16
    if Config.verifies opening [key, nonce, aad, d, tag] then
      some (b.take off ++ (Config.crypto opening [key, nonce, aad, d, tag] ++ List.replicate len 0).take len ++ b.drop (off + len + 16))
    else none

/-- CIPHER_OPERATION: a packet at the cipher stage of its pipeline is encrypted or decrypted (R388 to R392); of a fault that nothing
detects the output is free (R391). How a structure image tells
the block its slot, range and nonce the spec leaves to the image: they are operands (log entry 56). A kind that is no packet
algorithm of Table CIPH-1 has no key for it. -/
def execCipherOperation (n h slot : Nat) (enc : Bool) (off len : Nat) (nonce aad : List Nat) (agree : Bool) (s : State) :
    Host.Outcome State Fault Refusal :=
  .next <|
    if !s.atEngine n h 5 then s
    else
      let kd := attrKind (s.slotAttr slot)
      let fail := fun (s : State) => (s.cipFail n).dropPkt h reasonCIPHER_FAIL
      if kd = 2 ∨ kd = 3 ∨ 4 < kd then fail s
      else match s.cipUse n slot (s.pktTenant h) agree with
        | (s, 1) => s
        | (s, 2) =>
          let iv := ((s.cipMat n slot).drop (attrKeyLen (s.slotAttr slot)) ++ List.replicate 12 0).take (12 - nonce.length) ++ nonce
          match espBytes kd enc (s.cipKeyBytes n slot) iv aad (s.lget .pktBytes 0 h) off len with
          | some b => (s.lset .pktBytes b 0 h).stageNext h
          | none => s.dropPkt h reasonESP_TAG
        | (s, 4) =>
          let b := s.lget .pktBytes 0 h
          let (s, l) := s.freeBytes (len + 17)
          if enc then (s.lset .pktBytes (b.take off ++ (l.drop 1) ++ b.drop (off + len)) 0 h).stageNext h
          else if l.headD 0 % 2 = 0 then s.dropPkt h reasonESP_TAG
          else (s.lset .pktBytes (b.take off ++ (l.drop 17) ++ b.drop (off + len + 16)) 0 h).stageNext h
        | (s, _) => fail s

end Sys2Proof.Machine
end

