-- ==== Sys2Proof/Machine/Cores.lean ====
section
/-! DEFINITION. The service cores: spec file 15, rules R403 to R417. -/

namespace Sys2Proof.Machine

/-- COR_IPI: the identity is set pending in the named file of the named core (R410). -/
def execCorIpi (hart file identity : Nat) (s : State) : Host.Outcome State Fault Refusal :=
  .next (s.coreMsi hart file identity)

/-- A write of a core queue's cons: ignored with cons_err when it passes prod, else taken; with arm it arms the interrupt,
which is sent at once while entries remain (R413, R414). -/
def State.queueCons (s : State) (n q cons : Nat) (arm : Bool) : State :=
  let new := (s.get .COR_Q_prod n q + 0x10000 - cons % 0x10000) % 0x10000
  if s.queueHeld n q < new then s.set .COR_Q_cons_err 1 n q
  else
    let s := s.set .COR_Q_cons cons n q
    if arm then
      let s := s.set .COR_Q_armed 1 n q
      s.when (decide (0 < new)) (·.queueMsi n q)
    else s

/-- QUEUE_CONS_WRITE: the word written to COR_Q[q] offset 0x10. -/
def execQueueConsWrite (n q v : Nat) (s : State) : Host.Outcome State Fault Refusal :=
  .next (s.queueCons n q (v % 0x10000) (v.testBit 31))

/-- A read of COR_PKT_ALLOC: a span of 9,856 bytes goes to firmware, or valid reads 0 (R415). -/
def State.pktAlloc (s : State) (n : Nat) : State :=
  match s.spanPick n 154 0 with
  | some h => (s.spanTake n h 154).answer [h + 2 ^ 31]
  | none => s.answer [0]

/-- COR_PKT_ALLOC. -/
def execCorPktAlloc (n : Nat) (s : State) : Host.Outcome State Fault Refusal := .next (s.pktAlloc n)

/-- Descriptors waiting in a core's injection ring. -/
def State.injWaiting (s : State) (n i : Nat) : Nat :=
  (s.get .COR_CORE_inj_prod n i + 0x10000 - s.get .COR_CORE_inj_cons n i) % 0x10000

/-- log2 of an injection ring: values outside 4 to 12 act as 4 below and 12 above (log entry 19). -/
def State.injLog (s : State) (n i : Nat) : Nat := max 4 (min 12 (s.get .COR_CORE_inj_log2 n i))

/-- The injection descriptor at the front of a core's ring (Table CORE-7). -/
def State.injDesc (s : State) (n i : Nat) : List Nat :=
  s.mread (s.get .COR_CORE_inj_base n i + s.get .COR_CORE_inj_cons n i % 2 ^ s.injLog n i * 64) 64

/-- Whether a descriptor is well formed: its action known, its reserved bytes 0, its handle held by firmware and its fields in
range (R416). -/
def State.injOk (s : State) (n : Nat) (d : List Nat) : Bool :=
  let act := d.getD 0 0
  let len := leNat (slice d 2 2)
  let h := leNat (slice d 4 4)
  let st := d.getD 8 0
  decide (1 ≤ act ∧ act ≤ 4) && decide (d.getD 1 0 < 2) && decide (h < 32768) &&
  decide (s.get .SPAN_fw n h = 1) && decide (act = 3 ∨ (1 ≤ len ∧ len ≤ 9728 ∧ 128 + len ≤ 64 * s.get .SPAN_units n h)) &&
  decide (act ≠ 1 ∨ st < 32) && decide (leNat (slice d 10 6) = 0) && decide (leNat (slice d 24 40) = 0)

/-- Tenant whose credit a descriptor needs: its own at stage 0 of INJECT, else that of the span's metadata (R485). -/
def State.injTenant (s : State) (n : Nat) (d : List Nat) : Nat :=
  if d.getD 0 0 = 1 ∧ d.getD 8 0 = 0 then d.getD 9 0
  else bitsOf (leNat (s.mread (spanAddr n (leNat (slice d 4 4))) 128)) 5 8

/-- A packet made from a span, which it takes from firmware (R415, R416). -/
def State.injPkt (s : State) (n handle len md : Nat) : State :=
  let h := s.newHandle
  let s := (s.newPkt (s.mread (spanAddr n handle + 128) len) md).set .PKT_rxlen (len + 4) 0 h
  (((s.set .SPAN_fw 0 n handle).set .PKT_span (handle + 1) 0 h).stampEpoch h n).enterRegion h n

/-- A packet `h` that resumes from a span is again what it was when it was punted, beside its metadata; one whose span held no punted packet
sees its port's registers as they are now (R199; log entry 23). -/
def State.spanRestore (s : State) (n handle h : Nat) : State :=
  if s.get .SPAN_saved n handle = 0 then s.clsSnap n h
  else
    let s := ((s.set .PKT_cls (s.get .SPAN_cls n handle) 0 h).set .PKT_clsf (s.get .SPAN_clsf n handle) 0 h).set .PKT_fragkey
      (s.get .SPAN_fragkey n handle) 0 h
    (s.set .PKT_follow (s.get .SPAN_follow n handle) 0 h).set .PKT_outer (s.get .SPAN_outer n handle) 0 h

/-- A packet `h` made from a span resumes at stage `k` of pipeline `pl` (R416). The spec does not say what vector it carries: it is a free
value (log entry 23). -/
def State.resumeAt (s : State) (n handle h pl k : Nat) : State :=
  let s := ((s.spanRestore n handle h).set .PKT_phv (s.freeVal 4096) 0 h).drew
  (((s.set .PKT_pl pl 0 h).set .PKT_stage 1 0 h).set .PKT_nstage k 0 h).settle h 33

/-- What a well-formed descriptor does (R415, R416). An INJECT at stage 0 waits at the region's arbiter (R36). A packet that SCAN_DONE resumes
keeps its length as received; one that INJECT returns has the length that it will be sent with (R209). -/
def State.injDo (s : State) (n : Nat) (d : List Nat) : State :=
  let len := leNat (slice d 2 2)
  let handle := leNat (slice d 4 4)
  let md := leNat (s.mread (spanAddr n handle) 128)
  let h := s.newHandle
  let pl := d.getD 1 0
  match d.getD 0 0 with
  | 1 =>
    if d.getD 8 0 = 0 then
      (((s.injPkt n handle len (freshMeta 17 (d.getD 9 0))).set .PKT_pl pl 0 h).set .PKT_wire (len + 4) 0 h).arbEnter (d.getD 9 0)
    else (s.injPkt n handle len md).resumeAt n handle h pl (d.getD 8 0)
  | 2 => (s.injPkt n handle len md).forwardTo h (leNat (slice d 16 8))
  | 3 => (s.set .SPAN_units 0 n handle).set .SPAN_fw 0 n handle
  | _ =>
    let s := (s.injPkt n handle len md).setMeta h 922 1 1
    let s := s.when (decide (s.get .SPAN_saved n handle = 1)) (fun s =>
      (s.set .PKT_rxlen (s.get .SPAN_rxlen n handle) 0 h).set .PKT_wire (s.get .SPAN_wire n handle) 0 h)
    s.resumeAt n handle h pl (s.get .SCAN_stage n handle + 1)

/-- The front descriptor of a core's injection ring is consumed when its action is `act` and its tenant has credit (R415, R416,
R485); one that is not well formed is skipped and counted whichever action was awaited. -/
def State.injConsume (s : State) (n i act : Nat) : State :=
  if s.get .COR_CORE_inj_enable n i = 0 ∨ s.injWaiting n i = 0 then s
  else
    let d := s.injDesc n i
    if !s.injOk n d then (s.addw .COR_CORE_inj_cons 1 n i).bump .COR_CORE_bad_desc n i
    else if d.getD 0 0 ≠ act then s
    else if act ≠ 3 ∧ !s.creditOk n (s.injTenant n d) then s
    else (s.addw .COR_CORE_inj_cons 1 n i).injDo n d

/-- INJECT: an INJECT descriptor returns a packet to a pipeline. -/
def execInject (n i : Nat) (s : State) : Host.Outcome State Fault Refusal := .next (s.injConsume n i 1)

/-- INJ_SEND: a SEND descriptor enqueues a frame as FORWARD does. -/
def execInjSend (n i : Nat) (s : State) : Host.Outcome State Fault Refusal := .next (s.injConsume n i 2)

/-- INJ_FREE: a FREE descriptor frees a span. -/
def execInjFree (n i : Nat) (s : State) : Host.Outcome State Fault Refusal := .next (s.injConsume n i 3)

/-- SCAN_DONE: a bypassed packet resumes at the stage after its automata stage. -/
def execScanDone (n i : Nat) (s : State) : Host.Outcome State Fault Refusal := .next (s.injConsume n i 4)

/-- Whether an address may be a core's entry: 2-byte aligned, in HBM or a region SRAM window (R417). -/
def entryOk (a : Nat) : Bool :=
  let d := a / 2 ^ 44
  let o := a % 2 ^ 44
  decide (a % 2 = 0) && ((decide (d = 5 ∨ d = 6) && within o 0x1000000000 0x600000000) ||
    (decide (4 ≤ d ∧ d < 8) && within o 0x10000000 0x4000000))

/-- CORE_RUN: run written 1; a core in RESET starts in M-mode at entry with a0 = hartid and a1 = arg, or takes an instruction
access fault at once (R417). -/
def execCoreRun (n i : Nat) (s : State) : Host.Outcome State Fault Refusal :=
  .next <|
    let s := s.set .COR_CORE_run 1 n i
    if s.get .COR_CORE_state n i ≠ 0 then s
    else
      let h := hartOf n i
      let e := s.get .COR_CORE_entry n i
      (((((s.set .COR_CORE_state 1 n i).set .CORE_pc e 0 h).set .CORE_a0 h 0 h).set .CORE_a1 (s.get .COR_CORE_arg n i) 0 h).set
        .CORE_mode 3 0 h).set .CORE_iaf (b2n (!entryOk e)) 0 h

/-- HALT_REQ: a RUNNING core stops at the next instruction boundary (R417). -/
def execHaltReq (n i : Nat) (s : State) : Host.Outcome State Fault Refusal :=
  .next (if s.get .COR_CORE_state n i = 1 then s.set .CORE_halting 1 0 (hartOf n i) else s)

/-- CORE_HALTED: a stopping core has completed its accesses and written back its dirty lines (R417). -/
def execCoreHalted (n i : Nat) (s : State) : Host.Outcome State Fault Refusal :=
  .next (if s.get .CORE_halting 0 (hartOf n i) = 1 ∧ s.get .COR_CORE_state n i = 1 then
      (s.set .COR_CORE_state 2 n i).set .CORE_halting 0 0 (hartOf n i)
    else s)

/-- CORE_RESET: run written 0; a HALTED core is cleared to RESET (R417). -/
def execCoreReset (n i : Nat) (s : State) : Host.Outcome State Fault Refusal :=
  .next <|
    let s := s.set .COR_CORE_run 0 n i
    if s.get .COR_CORE_state n i = 2 then (s.set .COR_CORE_state 0 n i).hartClear (hartOf n i) else s

/-- TIMER_INTERRUPT: time reaches compare value `k` of hart `h` (0 mtimecmp, 1 stimecmp, 2 vstimecmp), and its interrupt is pending
(R408). stimecmp and vstimecmp are CSRs of the application core, of which only its own instructions tell the value: it is the operand
(log entry 164). -/
def execTimerInterrupt (h k v : Nat) (s : State) : Host.Outcome State Fault Refusal :=
  .next <|
    if k ≠ 0 ∧ 48 ≤ h then s
    else
      let s := if k = 0 then s else (s.set .CORE_cmp v h k).set .CORE_cmp_set 1 h k
      if s.get .CORE_cmp_set h k = 0 then s
      else (s.advanceTo (s.get .CORE_cmp h k)).timerTest h k

end Sys2Proof.Machine
end

