-- ==== Sys2Proof/Machine/Rings.lean ====
section
/-! DEFINITION. Descriptor rings and work queues (spec file 17, R445 to R462). -/

namespace Sys2Proof.Machine

/-- Whether a write of enable = 1 finds ring `r` consistent (R447), its tenant ACTIVE and its PASID the tenant's (R470). -/
def State.ringOk (s : State) (e r : Nat) : Bool :=
  let kd := s.get .RNG_RING_kind e r
  match s.ringFn e r with
  | none => false
  | some f =>
    let t := s.ownerOf e f
    let c := s.get .RNG_RING_cfg10 e r
    let port := c % 16
    let q := bitsOf c 4 14
    decide (kd < 6) && s.tenActive t && (decide (s.get .RNG_RING_pasid_en e r = 0) || s.tenPasid t (s.get .RNG_RING_pasid e r)) &&
    (decide (4 ≤ kd) || (match s.ringCq e r with
      | some cq => decide (s.get .RNG_RING_kind e cq = 4 ∧ (s.get .RNG_RING_state e cq = 1 ∨ s.get .RNG_RING_state e cq = 2))
      | none => false)) &&
    (decide (kd ≠ 0) ||
      (if q = 0x3FFF then (s.defaultQueue (port / 8) (port % 8) t 0).isSome
       else s.qExists (port / 8) q && decide (s.qPort (port / 8) q = port % 8 ∧ s.qTenant (port / 8) q = t)))

/-- Target region of a TX ring, plus 1: the k-th set bit of its tenant's affinity mask without offline regions, 0 when there is none
(R452). -/
def State.ringTarget (s : State) (e r : Nat) : Nat :=
  match s.ringTenant e r with
  | none => 0
  | some t =>
    let l := s.regionsOf t
    match l[r % max 1 l.length]? with
    | some n => n + 1
    | none => 0

/-- The target region in force: chosen again when its region has gone offline (R452). -/
def State.ringRegion (s : State) (e r : Nat) : State × Option Nat :=
  let n := s.get .RNG_target e r
  let s := if n ≠ 0 ∧ s.online (n - 1) then s else s.set .RNG_target (s.ringTarget e r) e r
  let n := s.get .RNG_target e r
  (s, if n = 0 then none else some (n - 1))

/-- RING_ENABLE: enable is written 1 (Table RING-9, R447). -/
def execRingEnable (e r : Nat) (s : State) : Host.Outcome State Fault Refusal :=
  .next <|
    let st := s.get .RNG_RING_state e r
    let on := fun (s : State) => ((s.set .RNG_RING_state 1 e r).set .RNG_RING_enable 1 e r).set .RNG_target (s.ringTarget e r) e r
    if st = 0 then
      if s.ringOk e r then on (s.when (s.isWork e r) (fun s => s.set .RNG_fetch (s.get .RNG_RING_head e r) e r))
      else s.set .RNG_RING_cfg_err 1 e r
    else if st = 3 then
      match s.ringFn e r with
      | some f => if s.fnRuns e f then on s else s
      | none => s
    else s

/-- RING_DISABLE: enable is written 0 (Table RING-9, R460). -/
def execRingDisable (e r : Nat) (s : State) : Host.Outcome State Fault Refusal :=
  .next <|
    let st := s.get .RNG_RING_state e r
    let s := s.when (decide (st = 1 ∨ st = 2) && s.isWork e r) (·.ringUnfetch e r)
    let s := s.when (decide (st ≠ 0) && decide (s.get .RNG_RING_kind e r = 4)) (·.cplDiscard e r)
    (s.set .RNG_RING_enable 0 e r).set .RNG_RING_state 0 e r

/-- Whether a function is PF0, PF3 or one of their VFs (R446). -/
def isNetFn (f : Nat) : Bool := decide (f = 0 ∨ f = 3 ∨ (4 ≤ f ∧ f < 517))

/-- FN_MAP_WRITE: RNG_FN_MAP of function `f` is written: outside the limits of R446 or the owner's ring range (R470), it is ignored and
map_err set. -/
def execFnMapWrite (e f base count : Nat) (s : State) : Host.Outcome State Fault Refusal :=
  .next <|
    let lim := if f < 4 then 32768 else 1024
    let own := recRings (s.get .TREC 0 (s.ownerOf e f)) e
    let past := (s.keysOf .RNG_FN_MAP_ring_count).any (fun k =>
      decide (k.1 = e ∧ k.2 ≠ f ∧ base < s.get .RNG_FN_MAP_ring_base e k.2 + s.get .RNG_FN_MAP_ring_count e k.2 ∧
        s.get .RNG_FN_MAP_ring_base e k.2 < base + count ∧ count ≠ 0 ∧ s.get .RNG_FN_MAP_ring_count e k.2 ≠ 0))
    if !isNetFn f ∨ lim < count ∨ 32768 < base + count ∨ past ∨ (count ≠ 0 ∧ (base < own.1 ∨ own.1 + own.2 < base + count)) then
      s.set .RNG_CFG_map_err 1 e
    else (s.set .RNG_FN_MAP_ring_base base e f).set .RNG_FN_MAP_ring_count count e f

/-- Whether a doorbell may reach ring `r`: it is ENABLED or PAUSED (R449). -/
def State.ringOpen (s : State) (e r : Nat) : Bool := decide (s.get .RNG_RING_state e r = 1 ∨ s.get .RNG_RING_state e r = 2)

/-- A doorbell write that is not taken sets doorbell_err (R449). -/
def State.doorbellErr (s : State) (e r : Nat) : State := s.set .RNG_RING_doorbell_err 1 e r

/-- DOORBELL_TAIL: a doorbell of a work ring sets tail (R449). -/
def execDoorbellTail (e r v : Nat) (s : State) : Host.Outcome State Fault Refusal :=
  .next <|
    let h := s.get .RNG_RING_head e r
    if !s.isWork e r ∨ !s.ringOpen e r then s
    else if bitsOf v 17 14 ≠ 0 ∨ s.ringSize e r < cnt17 v h ∨ cnt17 (v % 2 ^ 17) h < cnt17 (s.get .RNG_RING_tail e r) h then s.doorbellErr e r
    else s.set .RNG_RING_tail v e r

/-- DOORBELL_CONS: a doorbell of a CPL or EVT ring sets cons and, with bit 31, its arm bit; the overflow drains, a PAUSED ring
resumes, and the interrupt test is applied (R449, R459, R461, R462). -/
def execDoorbellCons (e r v : Nat) (s : State) : Host.Outcome State Fault Refusal :=
  .next <|
    let p := s.get .RNG_RING_head e r
    if s.isWork e r ∨ !s.ringOpen e r then s
    else if bitsOf v 17 14 ≠ 0 ∨ s.ringHeld e r < cnt17 p (v % 2 ^ 17) then s.doorbellErr e r
    else
      let s := s.set .RNG_RING_tail v e r
      let s := s.when (v.testBit 31) (·.set .RNG_RING_armed 1 e r)
      match s.ringFn e r with
      | some f => (((s.cplDrain e f r (s.lget .cplOver e r)).cqResume e f r).ringIrq e f r)
      | none => s

/-- Descriptors between what a ring has fetched and its tail. -/
def State.ringAvail (s : State) (e r : Nat) : Nat := cnt17 (s.get .RNG_RING_tail e r) (s.get .RNG_fetch e r)

/-- Connection that a SEND (`off` 72) or RECV (76) ring serves: the ACTIVE one whose sq or rq names it (R455). -/
def State.ringConn (s : State) (e r off : Nat) : Option Nat :=
  (s.cnWhere (fun s c => decide (s.cn c off 4 = 32768 * e + r) && !isBackendCtx c)).head?

/-- Whether a TX or SEND ring has energy credit in its target region and a free reservation (R451); other kinds need neither. -/
def State.ringCredit (s : State) (e r : Nat) : Bool :=
  let kd := s.get .RNG_RING_kind e r
  let t := (s.ringTenant e r).getD 0
  let n := if kd = 0 then (s.ringRegion e r).2 else (s.ringConn e r 72).map (fun c => s.cnRegion c)
  if kd = 1 ∨ kd = 3 then true
  else (match n with
    | some n => s.creditOk n t
    | none => decide (kd = 2)) &&
    (match s.ringCq e r with
    | some c => s.cqFree e c
    | none => false)

/-- Whether a ring is eligible for fetch (R451). -/
def State.ringEligible (s : State) (e r : Nat) : Bool :=
  decide (s.get .RNG_RING_state e r = 1) && s.isWork e r && decide (0 < s.ringAvail e r) && s.ringCredit e r &&
  (match s.ringFn e r with
  | some f => s.mayIssue e f
  | none => false)

/-- `n` descriptors of a ring are fetched: one read for each stretch without a wrap (R451). -/
def State.ringFetchN (s : State) (e r n : Nat) : State :=
  match s.ringFn e r with
  | none => s
  | some f =>
    let size := s.ringSize e r
    let i := s.get .RNG_fetch e r
    let k := min n (size - i % size)
    let rd := fun (s : State) (i k : Nat) =>
      if k = 0 then s else s.readReqP e f (s.get .RNG_RING_base e r + i % size * 64) (k * 64) 1 r (i % 2 ^ 17) (s.ringPasid e r)
    (rd (rd s i k) (i + k) (n - k)).set .RNG_fetch (i + n) e r

/-- Participants of the fetch engine: work rings in local order, then controllers (R451); a controller is its number plus 2^15. -/
def State.participants (s : State) (e : Nat) : List Nat :=
  ((s.keysOf .RNG_RING_state).filterMap (fun k => if k.1 = e ∧ s.get .RNG_RING_state e k.2 = 1 ∧ s.isWork e k.2 then some k.2 else none)) ++
  ((s.keysOf .NVE_CTRL_CFG_enable).filterMap (fun k => if k.2 / 512 = e ∧ s.get .NVE_CTRL_CFG_enable 0 k.2 = 1 then some (2 ^ 15 + k.2) else none))

/-- Weight of a participant; 0 acts as 1. -/
def State.partWeight (s : State) (e p : Nat) : Nat :=
  max 1 (if p < 2 ^ 15 then s.get .RNG_RING_weight e p else s.get .RNG_NVME_WRR_weight e ((p - 2 ^ 15) % 512))

/-- Whether a participant is eligible. -/
def State.partOk (s : State) (e p : Nat) : Bool := if p < 2 ^ 15 then s.ringEligible e p else s.ctrlEligible (p - 2 ^ 15)

/-- Up to `n` entries of a controller are fetched while it is eligible; how many were. -/
def State.ctrlFetchN (s : State) (k : Nat) : Nat → State × Nat
  | 0 => (s, 0)
  | n + 1 =>
    if s.ctrlEligible k then
      let (s, m) := (s.nvmeFetch1 k).ctrlFetchN k n
      (s, m + 1)
    else (s, 0)

/-- One pass over the participants with their credits (R451). -/
def State.fetchPass (s : State) (e : Nat) : List (Nat × Nat) → State × List (Nat × Nat)
  | [] => (s, [])
  | (p, c) :: r =>
    let (s, c) :=
      if c = 0 ∨ !s.partOk e p then (s, c)
      else if p < 2 ^ 15 then
        let n := min (min (s.get .RNG_RING_burst_m1 e p + 1) c) (s.ringAvail e p)
        (s.ringFetchN e p n, c - n)
      else
        let (s, n) := s.ctrlFetchN (p - 2 ^ 15) (min (s.ctrlBurst (p - 2 ^ 15)) c)
        (s, c - n)
    let (s, l) := s.fetchPass e r
    (s, (p, c) :: l)

/-- A round: passes while an eligible participant has credit. -/
def State.fetchRound (s : State) (e : Nat) : Nat → List (Nat × Nat) → State
  | 0, _ => s
  | fuel + 1, l =>
    if l.any (fun x => decide (0 < x.2) && s.partOk e x.1) then
      let (s, l) := s.fetchPass e l
      s.fetchRound e fuel l
    else s

/-- RING_FETCH: one round of the fetch engine of an IOD (R451). Nothing is fetched while dispatch is stopped for COLD_APPLY (R174). -/
def execRingFetch (e : Nat) (s : State) : Host.Outcome State Fault Refusal :=
  .next <|
    if s.get .STR_cold = 1 ∨ s.fatal then s
    else
      let s := s.each (s.participants e) (fun p s => if p < 2 ^ 15 ∧ s.get .RNG_RING_kind e p = 0 then (s.ringRegion e p).1 else s)
      s.fetchRound e 256 ((s.participants e).map (fun p => (p, s.partWeight e p)))

/-- Fetched descriptors of a ring, split. -/
def descList : Nat → List Nat → List (Nat × List Nat)
  | 0, _ => []
  | fuel + 1, i :: r => if r = [] then [] else (i, r.take 64) :: descList fuel (r.drop 64)
  | _, [] => []

/-- Descriptors read for a ring have arrived, from count `i` on; `none` when the read failed: the ring enters ERROR (R453, Table
RING-9). -/
def State.descGot (s : State) (e r i : Nat) (d : Option (List Nat)) : State :=
  match d with
  | none => s.ringError e r 1
  | some b =>
    let l := (List.range (b.length / 64)).flatMap (fun k => ((i + k) % 2 ^ 17) :: slice b (64 * k) 64)
    s.lset .ringFetched (s.lget .ringFetched e r ++ l) e r

/-- The descriptor at a ring's head, if it has been fetched, and the others. -/
def State.headDesc (s : State) (e r : Nat) : Option (List Nat) × List Nat :=
  let all := s.lget .ringFetched e r
  let l := descList all.length all
  let h := s.get .RNG_RING_head e r
  ((l.find? (fun x => x.1 = h)).map (·.2), (l.filter (fun x => decide (x.1 ≠ h))).flatMap (fun x => x.1 :: x.2))

/-- Little-endian field of a descriptor. -/
def dAt (d : List Nat) (o n : Nat) : Nat := leNat (slice d o n)

/-- Whether a TX descriptor is well formed (Table RING-3, R453). -/
def txOk (d : List Nat) : Bool :=
  let ind := (d.getD 12 0).testBit 0
  decide (14 ≤ dAt d 8 2 ∧ dAt d 8 2 ≤ 9724 ∧ d.getD 12 0 < 2 ∧ d.getD 13 0 < 8 ∧ dAt d 32 32 = 0) &&
  (if ind then decide (1 ≤ dAt d 10 2 ∧ dAt d 10 2 ≤ 256 ∧ dAt d 0 8 % 16 = 0) else decide (dAt d 10 2 = 0))

/-- Whether an RX or RECV descriptor is well formed (Table RING-4). -/
def rxOk (d : List Nat) (recv : Bool) : Bool :=
  decide (dAt d 24 40 = 0) && (recv || decide (64 ≤ dAt d 8 4 ∧ dAt d 8 4 ≤ 65536 ∧ dAt d 12 4 = 0))

/-- Whether a SEND descriptor is well formed (Table RING-5). -/
def sendOk (d : List Nat) : Bool :=
  let op := d.getD 0 0
  decide (op ≤ 6 ∧ dAt d 1 3 = 0 ∧ dAt d 56 8 = 0) && (decide (op ≠ 4 ∧ op ≠ 5) || decide (dAt d 16 4 = 8)) && (decide (op ≠ 6) || decide (dAt d 16 4 = 0))

/-- A work completes with BAD_DESC (R453). -/
def State.badDesc (s : State) (e w : Nat) : State := (s.bump .RNG_STAT_bad_desc e).workDone w 0x80

/-- A packet of tenant `t` for TX work `w`, whose bytes are still to come, is dispatched to its ring's target region, the epoch bit stamped
(R47, R161, R452), or, with none, is dropped. While the bytes are on their way it counts in the region and is not yet at its arbiter. -/
def State.txDispatch (s : State) (e r w : Nat) : State :=
  let t := (s.ringTenant e r).getD 0
  let h := s.newHandle
  let s := ((((s.newPkt [] (freshMeta 16 t)).set .PKT_work (w + 1) 0 h).set .PKT_launch (s.get .WRK_launch 0 w) 0 h).set .PKT_prof
    (s.get .WRK_prof 0 w) 0 h).set .PKT_stage 3 0 h
  let s := s.set .WRK_pkt (h + 1) 0 w
  if s.fatal then s.dropPkt h reasonFATAL
  else match s.ringRegion e r with
    | (s, some n) => (((s.stampEpoch h n).enterRegion h n).set .PKT_pl (s.freeVal 1) 0 h).drew
    | (s, none) => s.dropPkt h reasonNO_REGION

/-- The packet of a TX work whose bytes will not come is gone. -/
def State.txGone (s : State) (w : Nat) : State :=
  let h := s.get .WRK_pkt 0 w - 1
  if s.get .WRK_pkt 0 w ≠ 0 ∧ s.get .PKT_live 0 h = 1 ∧ s.get .PKT_stage 0 h = 3 then s.freePkt h else s

/-- A TX descriptor has been started: its work is dispatched (R452), and its frame, or its fragment table, read (R454). -/
def State.txStart (s : State) (e f r w : Nat) (d : List Nat) : State :=
  let c := s.get .RNG_RING_cfg10 e r
  let s := (((s.set .WRK_addr (dAt d 0 8) 0 w).set .WRK_len (dAt d 8 2) 0 w).set .WRK_bytes (dAt d 8 2) 0 w).set .WRK_want (dAt d 8 2) 0 w
  let s := (((s.set .WRK_ts_op (d.getD 13 0) 0 w).set .WRK_ptp_off (dAt d 14 2) 0 w).set .WRK_launch (dAt d 16 8) 0 w).set .WRK_prof (bitsOf c 18 4) 0 w
  let s := ((s.set .WRK_dest (c % 2 ^ 18) 0 w).lset .wrkData (List.replicate (dAt d 8 2) 0) 0 w).txDispatch e r w
  if s.get .WRK_done 0 w = 1 then s.lset .wrkData [] 0 w
  else if d.getD 12 0 = 1 then s.readReqP e f (dAt d 0 8) (dAt d 10 2 * 16) 3 w 0 (s.ringPasid e r)
  else s.readReqP e f (dAt d 0 8) (dAt d 8 2) 2 w 0 (s.ringPasid e r)

/-- A SEND descriptor has been started: it joins its connection's work (R323, R324). -/
def State.sendStart (s : State) (c w : Nat) (d : List Nat) : State :=
  let s := (((s.set .WRK_op (d.getD 0 0) 0 w).set .WRK_lkey (dAt d 4 4) 0 w).set .WRK_addr (dAt d 8 8) 0 w).set .WRK_len (dAt d 16 4) 0 w
  let s := (((s.set .WRK_rkey (dAt d 20 4) 0 w).set .WRK_raddr (dAt d 24 8) 0 w).set .WRK_operand (dAt d 40 8) 0 w).set .WRK_compare (dAt d 48 8) 0 w
  (((s.set .WRK_bytes (dAt d 16 4) 0 w).set .WRK_now_ts 1 0 w).set .WRK_conn (c + 1) 0 w).lpush .cnWq w 0 c

/-- The descriptor `d` at the head of a ring is started (R452, R453, R461). -/
def State.descStart (s : State) (e f r c : Nat) (d : List Nat) : State :=
  let kd := s.get .RNG_RING_kind e r
  let w := s.get .WRK_next
  let cookie := if kd = 0 then dAt d 24 8 else if kd = 2 then dAt d 32 8 else dAt d 16 8
  let s := (s.newWork e r cookie).set .RNG_RING_head (s.get .RNG_RING_head e r + 1) e r
  let bad := fun (s : State) => ((s.reserve e c w).badDesc e w).cqPause e f c
  match kd with
  | 0 => if txOk d then ((s.reserve e c w).txStart e f r w d).cqPause e f c else bad s
  | 1 =>
    if rxOk d false then (((s.set .WRK_addr (dAt d 0 8) 0 w).set .WRK_len (dAt d 8 4) 0 w)).lpush .rxBufs w e r else bad s
  | 2 =>
    match s.ringConn e r 72 with
    | some k => if sendOk d then ((s.reserve e c w).sendStart k w d).cqPause e f c else bad s
    | none => bad s
  | _ =>
    match s.ringConn e r 76 with
    | some k =>
      if rxOk d true then
        ((((s.set .WRK_addr (dAt d 0 8) 0 w).set .WRK_len (dAt d 8 4) 0 w).set .WRK_lkey (dAt d 12 4) 0 w).set .WRK_now_ts 1 0 w |>.set
          .WRK_conn (k + 1) 0 w).lpush .rxBufs w e r
      else bad s
    | none => bad s

/-- A work ring whose CPL ring has no free reservation starts nothing and is PAUSED with it (Table RING-9, R461). -/
def State.workPause (s : State) (e f r c : Nat) : State :=
  let s := s.cqPause e f c
  s.when (decide (s.get .RNG_RING_state e r = 1)) (·.set .RNG_RING_state 2 e r)

/-- DESCRIPTOR_START: the next descriptor of a ring, in ring order, is started (R452), unless its completion ring has no free
reservation (R461, Table RING-9). -/
def execDescriptorStart (e r : Nat) (s : State) : Host.Outcome State Fault Refusal :=
  .next <|
    match s.ringFn e r, s.ringCq e r, s.headDesc e r with
    | some f, some c, (some d, rest) =>
      if s.get .RNG_RING_state e r ≠ 1 ∨ s.get .STR_cold = 1 ∨ !s.isWork e r then s
      else if !s.cqFree e c then s.workPause e f r c
      else (s.lset .ringFetched rest e r).descStart e f r c d
    | _, _, _ => s

/-- A TX frame's bytes are all there: it waits at its region's arbiter, with the length it will have on its port (R36, R298, R454). -/
def State.txGo (s : State) (w : Nat) : State :=
  let h := s.get .WRK_pkt 0 w - 1
  let bytes := s.lget .wrkData 0 w
  let dp := s.get .WRK_dest 0 w % 16
  let s := (((s.lset .pktBytes bytes 0 h).set .PKT_rxlen bytes.length 0 h).set .PKT_wire (s.frameL (dp / 8) (dp % 8) bytes.length) 0 h).lset
    .wrkData [] 0 w
  (s.set .PKT_stage 0 0 h).arbEnter (s.pktTenant h)

/-- Frame bytes of a TX work have arrived, from offset `o`; `none` when the read failed: DMA_ERR (R457, Table RING-7). -/
def State.frameGot (s : State) (w o : Nat) (d : Option (List Nat)) : State :=
  if s.get .WRK_done 0 w = 1 then s
  else match d with
    | none => ((s.workDone w 0x81).txGone w).lset .wrkData [] 0 w
    | some b =>
      let s := (s.lset .wrkData (splice (s.lget .wrkData 0 w) o b) 0 w).set .WRK_want (s.get .WRK_want 0 w - b.length) 0 w
      if s.get .WRK_want 0 w = 0 then s.txGo w else s

/-- Fragments of a table, each an address and a length. -/
def fragsOf (b : List Nat) : List (Nat × Nat) := (List.range (b.length / 16)).map (fun i => (dAt b (16 * i) 8, dAt b (16 * i + 8) 4))

/-- A fragment table has arrived: its fragments are read in order (R454); one that breaks its bounds is BAD_DESC, and one that cannot be
read puts the ring in ERROR (R453). -/
def State.fragGot (s : State) (w : Nat) (d : Option (List Nat)) : State :=
  let e := s.get .WRK_ep 0 w
  let r := s.get .WRK_ring 0 w
  if s.get .WRK_done 0 w = 1 then s
  else match d with
    | none => ((s.workDone w 0x81).txGone w).ringError e r 1
    | some b =>
      let l := fragsOf b
      if l.any (fun x => decide (x.2 = 0 ∨ 9724 < x.2)) ∨ (List.range (b.length / 16)).any (fun i => decide (dAt b (16 * i + 12) 4 ≠ 0)) ∨
          (l.map (·.2)).sum ≠ s.get .WRK_len 0 w then (s.badDesc e w).txGone w
      else match s.ringFn e r with
        | none => (s.workDone w 0x81).txGone w
        | some f =>
          (l.foldl (fun (p : State × Nat) x => (p.1.readReqP e f x.1 x.2 2 w p.2 (p.1.ringPasid e r), p.2 + x.2)) (s, 0)).1

/-- The buffers that a frame of `n` bytes takes from the front of a list, at most 8. -/
def State.bufsFor (s : State) (n : Nat) : Nat → List Nat → Option (List Nat)
  | _, [] => none
  | 0, _ => none
  | fuel + 1, w :: r =>
    if n ≤ s.get .WRK_len 0 w then some [w]
    else (s.bufsFor (n - s.get .WRK_len 0 w) fuel r).map (w :: ·)

/-- A frame's bytes are written over its buffers (R455). -/
def State.bufsWrite (s : State) (e f pasid : Nat) : List Nat → List Nat → State
  | [], _ => s
  | w :: r, b => (s.hostWriteD e f (s.get .WRK_addr 0 w) pasid true (b.take (s.get .WRK_len 0 w))).bufsWrite e f pasid r (b.drop (s.get .WRK_len 0 w))

/-- HOST_RX_PLACE: a frame addressed to an RX ring is written to posted buffers, or dropped and counted (R442, R455). A host-originated
frame is thereby diverted (R457). -/
def execHostRxPlace (h : Nat) (s : State) : Host.Outcome State Fault Refusal :=
  .next <|
    if s.get .PKT_live 0 h = 0 ∨ s.get .PKT_hostring 0 h = 0 then s
    else
      let (e, r) := ringNo (s.get .PKT_hostring 0 h - 1)
      let b := s.lget .pktBytes 0 h
      let drop := fun (s : State) => (s.bump .RNG_RING_drops e r).dropPkt h reasonRX_RING
      if s.get .PCI_EP_CFG_link_up e = 0 then (s.hostDown e).dropPkt h reasonHOST_DOWN
      else match s.ringFn e r, s.ringCq e r, s.bufsFor b.length 8 (s.lget .rxBufs e r) with
        | some f, some c, some ws =>
          if s.get .RNG_RING_state e r ≠ 1 ∨ s.get .RNG_RING_kind e r ≠ 1 ∨ !s.mayIssue e f ∨ !s.cqFree e c then drop s
          else
            let w := ws.headD 0
            let s := (s.reserve e c w).bufsWrite e f (s.ringPasid e r) ws b
            let s := (s.lset .rxBufs ((s.lget .rxBufs e r).drop ws.length) e r).lset .ringOrder
              ((s.lget .ringOrder e r).filter (fun x => !(ws.drop 1).contains x)) e r
            let s := (((s.set .WRK_ts (s.meta_ h 416 64 + s.meta_ h 480 32 * 2 ^ 64) 0 w).set .WRK_bytes b.length 0 w).set .WRK_nbufs ws.length 0 w).set
              .WRK_detail (s.pktInPort h) 0 w
            let s := ((s.set .WRK_hash (s.meta_ h 16 32) 0 w).set .WRK_class (s.meta_ h 96 64) 0 w).workDone w 0
            ((s.txDiverted h).freePkt h).cqPause e f c
        | _, _, _ => drop s

/-- A connection's late status goes with its next completion (R340, Table RING-6). -/
def State.lateTake (s : State) (w : Nat) : State :=
  let c := s.get .WRK_conn 0 w - 1
  if s.get .WRK_conn 0 w = 0 ∨ s.get .CN_late_st 0 c = 0 then s
  else
    let s := ((s.set .WRK_late_msg (s.get .CN_late_msg 0 c) 0 w).set .WRK_late_st (s.get .CN_late_st 0 c) 0 w).setb .WRK_flags 2 true 0 w
    (s.set .CN_late_st 0 0 c).set .CN_late_msg 0 0 c

/-- COMPLETION_POST: the completion of the oldest work of a ring, once it is due, is written to its CPL ring or held (R456 to R461). A
buffer of an ACTIVE connection stays the one its SEND takes until that SEND is complete (R328). -/
def execCompletionPost (e r : Nat) (s : State) : Host.Outcome State Fault Refusal :=
  .next <|
    match s.lget .ringOrder e r, s.ringFn e r, s.ringCq e r with
    | w :: rest, some f, some c =>
      if s.get .WRK_done 0 w = 0 then s
      else
        let s := (s.lset .ringOrder rest e r).lateTake w
        let own := decide (s.get .WRK_conn 0 w ≠ 0 ∧ s.get .CN_state 0 (s.get .WRK_conn 0 w - 1) = 1)
        let s := if own then s else s.lset .rxBufs ((s.lget .rxBufs e r).erase w) e r
        let s := s.when (decide (s.get .WRK_resv 0 w = 0)) (·.reserve e c w)
        (s.cplPost e f c w).cqResume e f c
    | _, _, _ => s

/-- COMPLETION_STALL_TIMEOUT: stall_ms after a CPL ring became PAUSED: its held completions are lost, and it and every work ring that
names it enter ERROR (Table RING-9). -/
def execCompletionStallTimeout (e c : Nat) (s : State) : Host.Outcome State Fault Refusal :=
  .next <|
    match s.ringFn e c with
    | none => s
    | some f =>
      if s.get .RNG_RING_state e c ≠ 2 ∨ s.get .RNG_RING_kind e c ≠ 4 then s
      else
        let s := s.advanceTo (s.get .RNG_stall_at e c + max 1 (s.get .RNG_CFG_stall_ms e) * msUnits)
        let s := (s.cplDiscard e c).set .RNG_RING_state 4 e c
        (s.ringsNaming e f c 1 ++ s.ringsNaming e f c 2).foldl (fun s r => s.ringError e r 2) s

/-- MODERATION_TIMER: mod_time after the first entry since the last interrupt, an armed ring's interrupt is sent (R462). -/
def execModerationTimer (e r : Nat) (s : State) : Host.Outcome State Fault Refusal :=
  .next <|
    match s.ringFn e r with
    | none => s
    | some f =>
      if s.isWork e r ∨ s.get .RNG_RING_armed e r = 0 ∨ s.get .RNG_irq_cnt e r = 0 ∨ s.get .RNG_RING_mod_time e r = 0 then s
      else (s.advanceTo (s.get .RNG_irq_at e r + s.get .RNG_RING_mod_time e r * 1024)).ringIrq e f r

end Sys2Proof.Machine
end

