-- ==== Sys2Proof/Machine/HostIf.lean ====
section
/-! DEFINITION. The host interface (spec file 16): completions of the device's reads, bus mastering, FLR, D3hot, link loss and
reset, the expansion ROM, IDE streams (R418 to R444). -/

namespace Sys2Proof.Machine

/-- The operation (kind, x, y) that waits on a read gets its data, or `none` when the read failed (R433). -/
def State.readEnd (s : State) (e kind x y : Nat) (d : Option (List Nat)) : State :=
  match kind with
  | 1 => s.descGot e x y d
  | 2 => s.frameGot x y d
  | 3 => s.fragGot x d
  | 4 => s.msgGot x y d
  | 5 => s.sqeGot x d
  | 6 => s.storeRead x y d
  | 8 => s.respGot x y d
  | _ => s

/-- IDE streams of endpoint `e` that function `f` belongs to: the Link stream, and the Selective ones whose routing IDs hold its own
(R444). -/
def State.ideBad (s : State) (e f : Nat) : Bool :=
  (List.range 5).any (fun k => decide (s.get .IDE_bad e k = 1) && (decide (k = 0) ||
    decide (s.get .IDE_rid_v e k = 1 ∧ s.get .IDE_rid_base e k ≤ s.get .FN_bus e 0 * 256 + f ∧
      s.get .FN_bus e 0 * 256 + f ≤ s.get .IDE_rid_lim e k)))

/-- AER bit of a failed completion: Poisoned TLP Received, Completer Abort, else Unsupported Request. -/
def cplBit (status : Nat) (poison : Bool) : Nat := if status = 4 then 15 else if status = 0 ∧ poison then 12 else 20

/-- A HOST_READ error of function `f` is logged (Table SERV-2). -/
def State.readErr (s : State) (e f : Nat) : State := s.report (tenantErr 0x12 (s.ownerOf e f) (2 + e) (8 + e))

/-- COMPLETION_RECEIVE: a completion for a device read (R433, R434, R435). -/
def execCompletionReceive (e tag status : Nat) (poison : Bool) (data : List Nat) (s : State) : Host.Outcome State Fault Refusal :=
  .next <|
    let f := s.get .TAG_fn e tag
    if s.get .PCI_EP_CFG_link_up e = 0 then s
    else match s.get .TAG_state e tag with
    | 1 =>
      let got := (s.lget .tagData e tag ++ data).take (s.get .TAG_len e tag)
      let bad := decide (status ≠ 0) || poison || s.ideBad e f
      let past := decide (status ≠ 0) || decide (s.get .TAG_len e tag ≤ got.length)
      if s.get .TAG_flush e tag = 1 then
        let s := (s.lset .tagData got e tag).bump .PCI_CPL_STAT1_flushed_cpls e
        if past then s.tagFree e tag else s
      else
        let kind := s.get .TAG_kind e tag
        let x := s.get .TAG_a e tag
        let y := s.get .TAG_b e tag
        if bad then
          let s := (s.bump .PCI_CPL_STAT1_err_cpls e).aerU e f (cplBit status poison)
          let s := (s.readErr e f).set .TAG_kind 0 e tag
          let s := s.lset .tagData got e tag
          let s := if past then s.tagFree e tag else s
          s.readEnd e kind x y none
        else if past then (s.tagFree e tag).readEnd e kind x y (some got)
        else s.lset .tagData got e tag
    | 2 => ((s.bump .PCI_CPL_STAT0_late_cpls e).aerU e f 16 true).readErr e f
    | _ => s.aerU e 0 16 true

/-- Length of the quarantine of a tag (R434). -/
def State.quarantine (s : State) (e : Nat) : Nat := max 1 (s.get .PCI_TAG_CFG_quarantine_ms e) * msUnits

/-- Tags of endpoint `e` now in quarantine (PCI_TAG_CFG). -/
def State.quarantineCount (s : State) (e : Nat) : State :=
  s.set .PCI_TAG_CFG_quarantined (min 0xFFFF ((s.keysOf .TAG_state).filter (fun k => decide (k.1 = e ∧ s.get .TAG_state e k.2 = 2))).length) e

/-- COMPLETION_TIMEOUT: a read times out (R432, R433); one that the function's stop left outstanding is not reported in AER (R435). -/
def execCompletionTimeout (e tag : Nat) (s : State) : Host.Outcome State Fault Refusal :=
  .next <|
    if s.get .TAG_state e tag ≠ 1 then s
    else
      let f := s.get .TAG_fn e tag
      let s := (s.advanceTo (s.get .TAG_at e tag + timeoutOf (s.get .FN_cpl_timeout e f))).bump .PCI_CPL_STAT0_timeouts e
      let kind := s.get .TAG_kind e tag
      let x := s.get .TAG_a e tag
      let y := s.get .TAG_b e tag
      let s := ((s.set .TAG_state 2 e tag).set .TAG_free_at (s.now + s.quarantine e) e tag).quarantineCount e
      let s := s.lset .tagData [] e tag
      if s.get .TAG_flush e tag = 1 then s
      else ((s.aerU e f 14).readErr e f).readEnd e kind x y none

/-- TAG_QUARANTINE_EXPIRY: the tag of a read that timed out is free (R434). -/
def execTagQuarantineExpiry (e tag : Nat) (s : State) : Host.Outcome State Fault Refusal :=
  .next <|
    if s.get .TAG_state e tag ≠ 2 then s
    else ((s.advanceTo (s.get .TAG_free_at e tag)).tagFree e tag).quarantineCount e

/-- Present virtual functions of PF `f`. -/
def State.vfsOf (s : State) (e f : Nat) : List Nat :=
  (s.keysOf .PCI_FN_STAT_present).filterMap (fun k =>
    if k.1 = e ∧ 4 ≤ k.2 ∧ s.get .PCI_FN_STAT_present e k.2 = 1 ∧ s.pfOf e k.2 = f then some k.2 else none)

/-- A function is stopped (R435, R436): operations on its outstanding reads end as failed, with bme_abort, and their tags wait for
their completions; its rings go to STOPPED. A request that waited to be issued is one of them. -/
def State.fnStop (s : State) (e f : Nat) : State :=
  let tags := (s.keysOf .TAG_state).filterMap (fun k =>
    if k.1 = e ∧ s.get .TAG_state e k.2 = 1 ∧ s.get .TAG_fn e k.2 = f ∧ s.get .TAG_flush e k.2 = 0 then some k.2 else none)
  let ops := tags.map (fun t => (s.get .TAG_kind e t, s.get .TAG_a e t, s.get .TAG_b e t)) ++ waitOps f (s.lget .readWait e)
  let s := s.each tags (fun t s => s.set .TAG_flush 1 e t)
  let s := s.lset .readWait (waitOthers f (s.lget .readWait e)) e
  let s := s.when (decide (ops ≠ [])) (·.set .PCI_FN_STAT_bme_abort 1 e f)
  let s := s.each (s.fnRings e f) (fun r s => s.ringStop e r)
  s.each ops (fun o s => s.readEnd e o.1 o.2.1 o.2.2 none)

/-- A function may master the bus again: its pending unmasked MSI-X vectors are sent, requests and storage commands that waited go on
(R436, R437). -/
def State.fnResume (s : State) (e f : Nat) : State :=
  let s := s.each (s.keysOf .MSIX_pend) (fun k s => if k.1 = e ∧ k.2 / 4096 = f then s.msix e f (k.2 % 4096) else s)
  let s := (s.readDrain e).pfAll
  match fnCtrl e f with
  | some k => s.ctrlResume k
  | none => s

/-- BME_CLEAR: Bus Master Enable of a function is cleared (R436). -/
def execBmeClear (e f : Nat) (s : State) : Host.Outcome State Fault Refusal :=
  .next <| if s.get .PCI_FN_STAT_bme e f = 0 then s else (s.set .PCI_FN_STAT_bme 0 e f).fnStop e f

/-- BME_SET: Bus Master Enable of a present function is set (R436). -/
def execBmeSet (e f : Nat) (s : State) : Host.Outcome State Fault Refusal :=
  .next <|
    if s.get .PCI_FN_STAT_present e f = 0 ∨ s.get .PCI_EP_CFG_link_up e = 0 ∨ s.get .PCI_FN_STAT_flr_active e f = 1 then s
    else (s.set .PCI_FN_STAT_bme 1 e f).fnResume e f

/-- Page requests of a function are abandoned and its translations dropped (Table HOST-7). -/
def State.fnPages (s : State) (e f : Nat) : State :=
  let s := s.each (s.keysOf .PRI_out) (fun k s => if k.1 = e ∧ k.2 / 2 ^ 73 = f then
    (s.set .PRI_out 0 e k.2).set .MKY_PRI_STAT_outstanding (s.get .MKY_PRI_STAT_outstanding e - 1) e else s)
  let s := s.each (s.keysOf .PRI_wait) (fun k s => if k.1 = e ∧ k.2 / 2 ^ 73 = f then s.set .PRI_wait 0 e k.2 else s)
  ((s.atcDrop e (fun i => decide (i / 2 ^ 73 = f))).set .PRI_stop 0 e f).set .ATS_inv 0 e f

/-- Keys of a function (Table HOST-7). -/
def State.fnKeys (s : State) (e f : Nat) : List Nat := s.keysWhere (fun r => decide (mkEp r = e ∧ mkFn r = f))

/-- The effects of Table HOST-7 that begin with a function's FLR. -/
def State.fnReset (s : State) (e f : Nat) : State :=
  let s := s.fnStop e f
  if isNetFn f then
    let s := s.each (s.cnWhere (fun s c => decide ((ringNo (s.cn c 72 4)).1 = e ∧ s.ringFn e (ringNo (s.cn c 72 4)).2 = some f) &&
      !isBackendCtx c)) (fun c s => s.cnError c)
    let s := s.each (s.fnRingsAll e f) (fun r s => (s.each (s.lget .ringOrder e r) (fun w s => s.txGone w)).ringReset e r)
    let s := s.each (s.fnKeys e f) (fun k s => s.when (decide (s.get .MK_revoke_at 0 k = 0)) (·.mkRevoke k 0))
    let s := (s.fnPages e f).clr .RNG_FN_EVT_enable e f |>.clr .RNG_FN_EVT_ring e f |>.clr .RNG_FN_STAT_evt_drops e f
    if f = 0 then s.ptmStop e else s
  else if f = 2 then
    let s := s.when (decide (s.get .TS_RING_CFG_endpoint = e)) (·.set .TS_RING_CFG_enable 0)
    s.each [0, 1] (fun d s => s.when (decide (s.get .SCH_SAMPLE_CFG_endpoint d = e)) (·.set .SCH_SAMPLE_CFG_enable 0 d))
  else match fnCtrl e f with
    | some k => s.ctrlReset k false
    | none => s

/-- A function's configuration space and MSI-X table return to their reset values (R438). PME_En and PME_Status lie in the VAUX well. -/
def State.cfgReset (s : State) (e f : Nat) : State :=
  let s := [Field.PCI_FN_STAT_bme, .PCI_FN_STAT_bme_abort, .PCI_FN_STAT_dstate, .FN_msix_en, .FN_msix_fmask, .FN_cpl_timeout, .FN_ats_en,
    .FN_pri_en, .FN_pasid_en, .FN_pri_alloc, .AER_u, .AER_c, .AER_umask, .AER_usev, .AER_cmask, .FN_cmd, .FN_cls, .FN_intl, .FN_rom, .FN_devctl,
    .FN_devsta, .FN_lnkctl, .FN_devctl2, .FN_lnkctl2, .FN_devctl3, .FN_tag10, .FN_vf_en, .FN_vf_mse, .FN_vf_ari, .FN_numvfs, .FN_vf_psz, .FN_ats_stu,
    .FN_acs, .ROM_at].foldl (fun s x => s.clr x e f) s
  let s := [0, 1, 2].foldl (fun s b => (s.clr .FN_bar e (f * 4 + b)).clr .FN_vf_bar e (f * 4 + b)) s
  let s := [Field.MSIX_mask, .MSIX_pend, .MSIX_addr, .MSIX_data].foldl (fun s x =>
    s.each (s.keysOf x) (fun k s => if k.1 = e ∧ k.2 / 4096 = f then s.clr x e k.2 else s)) s
  if f = 0 then
    let s := s.set .TSU_PTM_STATUS_ptm_enabled 0 e
    s.each (List.range 5) (fun k s => [Field.IDE_state, .IDE_ctl, .IDE_bad, .IDE_prog, .IDE_go, .IDE_rid_base, .IDE_rid_lim, .IDE_rid_v].foldl (fun s x => s.clr x e k) s)
  else s

/-- What a function's reset leaves: its key revocations complete, its registers at reset (R438). -/
def State.fnResetEnd (s : State) (e f : Nat) : State :=
  let s := s.each (s.fnKeys e f) (fun k s => s.when (decide (s.get .MK_revoke_at 0 k ≠ 0)) (·.mkDone k))
  (s.cfgReset e f).set .PCI_FN_STAT_flr_active 0 e f

/-- The VFs of a PF are reset, and absent from here on (R439). -/
def State.vfsGone (s : State) (e f : Nat) : State :=
  s.each (s.vfsOf e f) (fun v s => (((s.fnReset e v).fnResetEnd e v).set .PCI_FN_STAT_present 0 e v))

/-- Function Readiness Status message (R423). -/
def State.frs (s : State) (e f : Nat) : State :=
  s.when (decide (s.get .PCI_EP_CFG_link_up e = 1)) (·.emit .pcieMsg [e, f, 7, 0, 0])

/-- FLR: FLR of a present function is initiated; that of a PF acts on its VFs too (R438, R439). -/
def execFlr (e f : Nat) (s : State) : Host.Outcome State Fault Refusal :=
  .next <|
    if s.get .PCI_FN_STAT_present e f = 0 ∨ s.get .PCI_EP_CFG_link_up e = 0 ∨ s.get .PCI_FN_STAT_flr_active e f = 1 then s
    else
      let s := s.each (if f < 4 then s.vfsOf e f else []) (fun v s => (s.set .PCI_FN_STAT_flr_active 1 e v).fnReset e v)
      (s.set .PCI_FN_STAT_flr_active 1 e f).fnReset e f

/-- FLR_COMPLETE: the function is at its reset values and says so (R438). The VFs of a PF are gone with its VF Enable. -/
def execFlrComplete (e f : Nat) (s : State) : Host.Outcome State Fault Refusal :=
  .next <|
    if s.get .PCI_FN_STAT_flr_active e f = 0 then s
    else
      let s := if f < 4 then s.vfsGone e f else s
      (s.fnResetEnd e f).frs e f

/-- VF_ENABLE_CLEAR: VF Enable of a PF is cleared (R439). -/
def execVfEnableClear (e f : Nat) (s : State) : Host.Outcome State Fault Refusal :=
  .next <| (s.vfsGone e f).set .FN_vf_en 0 e f

/-- D3HOT_ENTRY: a PF enters D3hot; it and its VFs stop (R440). -/
def execD3hotEntry (e f : Nat) (s : State) : Host.Outcome State Fault Refusal :=
  .next <|
    if s.get .PCI_FN_STAT_present e f = 0 ∨ s.get .PCI_FN_STAT_dstate e f = 3 then s
    else (s.set .PCI_FN_STAT_dstate 3 e f).each (f :: s.vfsOf e f) (fun g s => s.fnStop e g)

/-- D0_RETURN: a PF returns to D0 with its configuration and state, and says so (R423, R440); its rings stay STOPPED. -/
def execD0Return (e f : Nat) (s : State) : Host.Outcome State Fault Refusal :=
  .next <|
    if s.get .PCI_FN_STAT_dstate e f ≠ 3 then s
    else ((s.set .PCI_FN_STAT_dstate 0 e f).each (f :: s.vfsOf e f) (fun g s => if s.fnRuns e g then s.fnResume e g else s)).frs e f

/-- Endpoint `e` loses its link: every function is reset without a readiness message, every outstanding request fails without an AER
report, all tags are free (Table HOST-8). -/
def State.linkDown (s : State) (e : Nat) : State :=
  let s := s.when (decide (s.get .PCI_EP_CFG_link_up e = 1)) (·.bump .PCI_LINK_STAT_dl_down e)
  let s := (((s.set .PCI_EP_CFG_link_up 0 e).set .PCI_EP_CFG_speed 0 e).set .PCI_EP_CFG_width 0 e).set .PCI_EP_CFG_flit 0 e
  let s := s.each [0, 1, 2, 3] (fun f s => s.vfsGone e f)
  let s := s.each [0, 1, 2, 3] (fun f s => ((s.fnReset e f).fnResetEnd e f).set .FN_bus 0 e f)
  let s := s.each (s.keysOf .TAG_state) (fun k s => if k.1 = e then ((s.set .TAG_state 0 e k.2).lset .tagData [] e k.2) else s)
  ((s.lset .readWait [] e).set .PCI_TAG_CFG_quarantined 0 e).ptmStop e

/-- DL_DOWN: the data link of endpoint `e` goes down (R441, R442). -/
def execDlDown (e : Nat) (s : State) : Host.Outcome State Fault Refusal :=
  .next <| if s.get .PCI_EP_CFG_link_up e = 0 then s else s.linkDown e

/-- Once the link is up and the configuration space answers: Device Readiness Status (R423), and PM_PME where PME_Status and PME_En
are 1 (R440). -/
def State.readiness (s : State) (e : Nat) : State :=
  if s.get .PCI_EP_CFG_link_up e = 1 ∧ s.get .PCI_EP_CFG_cfg_ready e = 1 ∧ s.get .PCI_drs e = 1 then s.emit .pcieMsg [e, 0, 5, 0, 0] else s

/-- DL_UP: the link of endpoint `e` comes up, where its reset is not asserted and its clock is present (R423, R440, R441). -/
def execDlUp (e speed width : Nat) (flit drs : Bool) (s : State) : Host.Outcome State Fault Refusal :=
  .next <|
    if s.get .PCI_EP_CFG_link_up e = 1 ∨ s.get .PCI_perst e = 1 ∨ s.get .PWR_reset = 1 ∨
        s.getb .XD_CLK_DIE_PRESENT_present (7 + e) 0 (2 + e) = false then s
    else
      let s := (((s.set .PCI_EP_CFG_link_up 1 e).set .PCI_EP_CFG_speed speed e).set .PCI_EP_CFG_width width e).set .PCI_EP_CFG_flit (b2n flit) e
      let s := ((s.set .PCI_drs (b2n drs) e).set .PTM_count 0 e).readiness e
      if s.get .PME_st e = 1 ∧ s.get .PME_en e = 1 then s.emit .pcieMsg [e, 0, 6, 0, 0] else s

/-- PERST_ASSERT: PEn_PERST_N is asserted: as DL_Down, and the link is held in reset (R441). -/
def execPerstAssert (e : Nat) (s : State) : Host.Outcome State Fault Refusal :=
  .next <| if s.get .PCI_perst e = 1 then s else (s.linkDown e).set .PCI_perst 1 e

/-- PERST_DEASSERT: link training may start (R441). -/
def execPerstDeassert (e : Nat) (s : State) : Host.Outcome State Fault Refusal :=
  .next <| s.set .PCI_perst 0 e

/-- EXPANSION_ROM_READ: a read of the expansion ROM window of PF0 or PF1 (R427): it returns the image only while ROM Enable and
Memory Space Enable are 1, else the request is unsupported (R428). -/
def execExpansionRomRead (e f off len : Nat) (s : State) : Host.Outcome State Fault Refusal :=
  .next <|
    if s.get .FN_rom e f % 2 = 1 ∧ s.getb .FN_cmd 1 e f ∧ s.get .PCI_FN_STAT_dstate e f = 0 ∧ s.get .PCI_FN_STAT_flr_active e f = 0 ∧
        s.get .PCI_EP_CFG_link_up e = 1 then
      let b := s.lget .romBytes 0 f
      (s.answer ((List.range len).map (fun i => b.getD (off + i) 0))).emit .cpl [e, 0] ((List.range len).map (fun i => b.getD (off + i) 0))
    else (s.answer []).emit .cpl [e, 1] []

/-- IDE_CHECK_FAILED: a received TLP fails IDE integrity: it is discarded, the stream goes Insecure and PF0's AER reports it (R444). -/
def execIdeCheckFailed (e stream : Nat) (s : State) : Host.Outcome State Fault Refusal :=
  .next <|
    if s.get .IDE_state e stream ≠ 2 then s
    else (((s.set .IDE_state 0 e stream).set .IDE_bad 1 e stream).set .IDE_go 0 e stream |>.set .IDE_prog 0 e stream).aerU e 0 28

end Sys2Proof.Machine
end

