-- ==== Sys2Proof/Machine/Tenants.lean ====
section
/-! DEFINITION. Tenant partitions: tenant records and their checks, the tenant commands, function owners (spec file 18, R463 to
R477). -/

namespace Sys2Proof.Machine

/-- A tenant command ends with a result (Table TEN-7). -/
def State.tenRes (s : State) (r : Nat) : State := (s.set .TEN_CMD_STATUS_busy 0).set .TEN_CMD_STATUS_result r

/-- The record that firmware has written to TEN_REC, as one little-endian number (Table TEN-2). -/
def State.tenNew (s : State) : Nat := (List.range 12).foldl (fun a k => a + s.get .TEN_REC 0 k * 2 ^ (32 * k)) 0

/-- Whether two ranges meet. -/
def rangesCross (a b : Nat × Nat) : Bool := decide (a.2 ≠ 0 ∧ b.2 ≠ 0 ∧ a.1 < b.1 + b.2 ∧ b.1 < a.1 + a.2)

/-- Windows of a record that are present. -/
def recWindows (r : Nat) : List (Nat × Nat × Nat) := ((List.range 4).map (recWindow r)).filter (fun w => decide (w.2.2 ≠ 0))

/-- Whether two windows meet (R465). -/
def windowsCross (a b : Nat × Nat × Nat) : Bool := decide (a.2.1 = b.2.1) && rangesCross (a.1, a.2.2) (b.1, b.2.2)

/-- Whether two records overlap (R473). -/
def recsOverlap (a b : Nat) : Bool :=
  rangesCross (recKeys a) (recKeys b) || rangesCross (recRings a 0) (recRings b 0) || rangesCross (recRings a 1) (recRings b 1) ||
  (recWindows a).any (fun x => (recWindows b).any (fun y => windowsCross x y))

/-- Whether a window covers a channel that is not in service (R473, R546): channel 16 + j begins j × 384 units into the pool. -/
def State.windowBad (s : State) (w : Nat × Nat × Nat) : Bool :=
  (List.range 16).any (fun j => decide (s.get .ERR_HBM_PC_state 0 (w.2.1 * 32 + 16 + j) ≠ 0) && rangesCross (w.1, w.2.2) (384 * j, 384))

/-- Whether a field of a record is bad: a range past its space, a window past the pool or on such a channel, a reserved bit set
(R473). -/
def State.recBad (s : State) (r : Nat) : Bool :=
  decide (recAt r 3 1 ≠ 0 ∨ 2 ^ 25 ≤ recAt r 4 4 ∨ 2 ^ 24 < (recKeys r).1 + (recKeys r).2 ∨ 2 ^ 15 < (recRings r 0).1 + (recRings r 0).2 ∨
    2 ^ 15 < (recRings r 1).1 + (recRings r 1).2 ∨ 2 ^ 20 ≤ recAt r 16 4 ∨ 2 ^ 21 ≤ recAt r 20 4 ∨ 2 ^ 20 < (recPasids r).1 + (recPasids r).2 ∨
    recAt r 40 8 ≠ 0) ||
  (List.range 4).any (fun w => decide (2 ^ 27 ≤ recAt r (24 + 4 * w) 4)) ||
  (recWindows r).any (fun w => decide (6144 < w.1 + w.2.2) || s.windowBad w)

/-- The checks of R473 on a record for tenant `t`: 0 pass, OVERLAP, BAD_FIELD. -/
def State.recCheck (s : State) (t r : Nat) : Nat :=
  if (List.range 256).any (fun u => decide (u ≠ t ∧ s.get .TEN_STATE_state 0 u ≠ 0) && recsOverlap r (s.get .TREC 0 u)) then 3
  else if s.recBad r then 4 else 0

/-- Whether device address `a` lies in a window of a record. -/
def recHolds (r a : Nat) : Bool := (recWindows r).any (fun w => within a (windowAddr w) (w.2.2 * 2 ^ 21))

/-- Units that only one of two records holds are zeroed (R472). -/
def State.windowZero (s : State) (a b : Nat) : State :=
  s.each ((s.mem.filter (fun c => recHolds a c.1 != recHolds b c.1)).map (·.1)) (fun k s => s.mput k 0)

/-- Functions that tenant `t` owns, beyond those that no register names (R463). -/
def State.fnsOf (s : State) (t : Nat) : List (Nat × Nat) :=
  (s.keysOf .TEN_FN_OWNER_tenant).filter (fun k => decide (s.ownerOf k.1 k.2 = t))

/-- Functions with a ring range whose owner is `t`. -/
def State.mapsOf (s : State) (t : Nat) : List (Nat × Nat) :=
  (s.keysOf .RNG_FN_MAP_ring_count).filter (fun k => decide (s.ownerOf k.1 k.2 = t))

/-- Whether a new record would leave something of tenant `t` outside its ranges (R474). -/
def State.recInUse (s : State) (t r : Nat) : Bool :=
  s.validSlots.any (fun k => s.tenSlot t k && !inRange (recKeys r) k) ||
  (s.mapsOf t).any (fun k =>
    let b := s.get .RNG_FN_MAP_ring_base k.1 k.2
    let n := s.get .RNG_FN_MAP_ring_count k.1 k.2
    decide (b < (recRings r k.1).1 ∨ (recRings r k.1).1 + (recRings r k.1).2 < b + n)) ||
  (s.keysWhere (fun m => decide (recAt m 4 1 = t ∧ mkPasid m ≠ 0) && !inRange (recPasids r) (mkPasid m - 1))) != [] ||
  (s.keysOf .RNG_RING_state).any (fun k => decide (s.ringTenant k.1 k.2 = some t ∧ s.get .RNG_RING_pasid_en k.1 k.2 = 1) &&
    !inRange (recPasids r) (s.get .RNG_RING_pasid k.1 k.2))

/-- TEN_CREATE: a FREE tenant becomes ACTIVE with the record of TEN_REC, its windows zeroed (R472, R473). -/
def execTenCreate (t : Nat) (s : State) : Host.Outcome State Fault Refusal :=
  .next <|
    let r := s.tenNew
    if s.get .TEN_CMD_STATUS_busy = 1 then s
    else if s.get .TEN_STATE_state 0 t ≠ 0 then s.tenRes 2
    else match s.recCheck t r with
    | 0 => ((((s.windowZero 0 r).set .TREC r 0 t).set .TEN_STATE_state 1 0 t).set .TEN_STATE_forced 0 0 t).tenRes 0
    | x => s.tenRes x

/-- TEN_MODIFY: an ACTIVE tenant's record is replaced; units gained and lost are zeroed (R472, R473, R474). -/
def execTenModify (t : Nat) (s : State) : Host.Outcome State Fault Refusal :=
  .next <|
    let r := s.tenNew
    if s.get .TEN_CMD_STATUS_busy = 1 then s
    else if s.get .TEN_STATE_state 0 t ≠ 1 then s.tenRes 2
    else match s.recCheck t r with
    | 0 => if s.recInUse t r then s.tenRes 5 else ((s.windowZero (s.get .TREC 0 t) r).set .TREC r 0 t).tenRes 0
    | x => s.tenRes x

/-- Accounts of a tenant are cleared (R492). -/
def State.accountsClear (s : State) (t : Nat) : State :=
  s.each (List.range 10) (fun sc s => (((s.set .NRL_CREDIT_balance 0 sc t).set .NRL_frac 0 sc t).set .NRL_chg 0 sc t).set .NRL_chg_last 0 sc t)

/-- TEN_DESTROY: a tenant that owns no function, valid key slot, connection or namespace becomes FREE (R472, R476). -/
def execTenDestroy (t : Nat) (s : State) : Host.Outcome State Fault Refusal :=
  .next <|
    if s.get .TEN_CMD_STATUS_busy = 1 then s
    else if t = 0 then s.tenRes 6
    else if s.get .TEN_STATE_state 0 t = 0 then s.tenRes 2
    else if s.fnsOf t ≠ [] ∨ s.validSlots.any (fun k => s.tenSlot t k) ∨ s.cnOfTenant t ∨
        (s.keysOf .NS_on).any (fun k => decide (s.nsAt k.2 28 1 = t)) then s.tenRes 5
    else ((((s.windowZero (s.get .TREC 0 t) 0).set .TREC 0 0 t).set .TEN_STATE_state 0 0 t).accountsClear t).tenRes 0

/-- TEN_RESUME: a FATAL tenant with every ring DISABLED and every connection FREE is ACTIVE again (Table TEN-5). -/
def execTenResume (t : Nat) (s : State) : Host.Outcome State Fault Refusal :=
  .next <|
    if s.get .TEN_CMD_STATUS_busy = 1 then s
    else if s.get .TEN_STATE_state 0 t ≠ 2 ∨ s.cnOfTenant t ∨
        (s.keysOf .RNG_RING_state).any (fun k => decide (s.ringTenant k.1 k.2 = some t)) then s.tenRes 2
    else (s.set .TEN_STATE_state 1 0 t).tenRes 0

/-- FORCE_FATAL: an ACTIVE tenant other than tenant 0 becomes FATAL and is contained (R475, R476). -/
def execForceFatal (t : Nat) (s : State) : Host.Outcome State Fault Refusal :=
  .next <|
    if s.get .TEN_CMD_STATUS_busy = 1 then s
    else if t = 0 then s.tenRes 6
    else if s.get .TEN_STATE_state 0 t ≠ 1 then s.tenRes 2
    else (s.tenantFatal { src := 0x1B, cls := .tenantFatal, tenant := t } true).tenRes 0

/-- TEN_QUERY: the record in force is copied to TEN_REC (Table TEN-6). -/
def execTenQuery (t : Nat) (s : State) : Host.Outcome State Fault Refusal :=
  .next <|
    if s.get .TEN_CMD_STATUS_busy = 1 then s
    else (s.each (List.range 12) (fun k s => s.set .TEN_REC (recAt (s.get .TREC 0 t) (4 * k) 4) 0 k)).tenRes 0

/-- Whether a function may change its owner (R471). -/
def State.fnQuiet (s : State) (e f : Nat) : Bool :=
  decide (s.get .PCI_FN_STAT_bme e f = 0 ∧ s.fnRings e f = [] ∧ s.fnKeys e f = []) &&
  (match fnCtrl e f with
  | some k => decide (s.get .NVE_CTRL_CFG_enable 0 k = 0)
  | none => true)

/-- FN_OWNER_WRITE: TEN_FN_OWNER of a function is written: the write takes effect while the function is quiet and the new owner ACTIVE;
else all of it is ignored, and own_err is set; PF2 stays tenant 0's (R421, R471; log entry 60). -/
def execFnOwnerWrite (e f v : Nat) (s : State) : Host.Outcome State Fault Refusal :=
  .next <|
    if f ≠ 2 ∧ s.fnQuiet e f ∧ s.tenActive (v % 256) then
      (s.when (v.testBit 8) (·.set .TEN_FN_OWNER_own_err 0 e f)).set .TEN_FN_OWNER_tenant (v % 256) e f
    else s.set .TEN_FN_OWNER_own_err 1 e f

end Sys2Proof.Machine
end

