-- ==== Sys2Proof/Machine/CreditOps.lean ====
section
/-! DEFINITION. Work that waits for energy credit, and the tenants that it holds (spec file 19, R485; R311). -/

namespace Sys2Proof.Machine

/-- Injection descriptors of tenant `t` that wait in region `n`. -/
def State.waitInj (s : State) (n t : Nat) : Nat :=
  ((List.range 6).map (fun i => if s.get .COR_CORE_inj_enable n i = 0 then 0 else
    ((List.range (min (2 ^ s.injLog n i) (s.injWaiting n i))).filter (fun j =>
      decide (s.injTenant n (s.mread (s.get .COR_CORE_inj_base n i + (s.get .COR_CORE_inj_cons n i + j) % 2 ^ s.injLog n i * 64) 64) = t))).length)).sum

/-- TX and SEND descriptors of tenant `t` that wait for region `n`. -/
def State.waitRings (s : State) (n t : Nat) : Nat :=
  ((s.keysOf .RNG_RING_state).map (fun k =>
    let (e, r) := k
    let kd := s.get .RNG_RING_kind e r
    let here := if kd = 0 then decide (s.get .RNG_target e r = n + 1)
      else if kd = 2 then decide ((s.ringConn e r 72).map (fun c => s.cnRegion c) = some n) else false
    if s.get .RNG_RING_state e r = 1 ∧ here ∧ s.ringTenant e r = some t then s.ringAvail e r else 0)).sum

/-- Storage commands of tenant `t` that wait for region `n`: entries of submission queues whose controller the region serves, and
fetched commands (Table ENGY-2). -/
def State.waitStore (s : State) (n t : Nat) : Nat :=
  ((s.ctrlsOfTenant t).map (fun k => if (s.ctrlRegions k).contains n then
    ((List.range 65).map (fun q =>
      let i := qIx k q
      if s.get .SQ_on 0 i = 0 then 0 else (s.get .SQ_tail 0 i + s.get .SQ_size 0 i - s.get .SQ_head 0 i) % max 1 (s.get .SQ_size 0 i))).sum else 0)).sum +
  ((s.regionCmds n).filter (fun id => decide (s.get .CM_st 0 id = 2 ∧ s.cmdTenant id = t))).length

/-- New Sillage packets and retransmissions of tenant `t` that wait in region `n`. -/
def State.waitSil (s : State) (n t : Nat) : Nat :=
  ((s.cnWhere (fun s c => decide (s.cnRegion c = n ∧ s.cnTenant c = t))).map (fun c =>
    ((s.lget .cnMsgs 0 c).map (fun m =>
      let i := msIx c m
      if s.get .MS_st 0 i = 1 then max 1 ((s.get .MS_len 0 i - s.get .MS_off 0 i + s.cnMtu c - 1) / s.cnMtu c) else 0)).sum +
    (s.lget .cnWq 0 c).length + (s.rtWhere c (fun s j => decide (s.get .RT_st 0 j = 2 ∨ s.get .RT_st 0 j = 4))).length)).sum

/-- Items of tenant `t` that wait at account `sc` (Table ENGY-2). -/
def State.waitAt (s : State) (sc t : Nat) : Nat :=
  if sc < 8 then s.waitRings sc t + s.waitStore sc t + s.waitSil sc t + s.waitInj sc t
  else (((s.lkeysOf .txq).filter (fun k => decide (k.1 = sc - 8 ∧ s.qTenant k.1 k.2 = t))).map (fun k => (s.lget .txq k.1 k.2).length)).sum

/-- Accounts at which a tenant's credit is tested: the regions in service, and both IODs. -/
def State.creditAccounts (s : State) : List Nat := (List.range 8).filter (fun n => s.online n) ++ [8, 9]

/-- Whether tenant `t` is held for energy credit now: work waits at an account that is not above 0 while credit is enforced (R311, R485). -/
def State.heldNow (s : State) (t : Nat) : Bool :=
  decide (s.get .NRL_CFG_enforce ≠ 0) && s.creditAccounts.any (fun sc =>
    decide (sgn 32 (s.get .NRL_CREDIT_balance sc t) ≤ 0) && decide (s.waitAt sc t ≠ 0))

/-- The tenants that are held for energy credit now are noted (R311). -/
def State.noteHeld (s : State) : State :=
  s.each ((List.range 256).filter (fun t => decide (s.get .TEN_STATE_state 0 t ≠ 0) && s.heldNow t)) (fun t s =>
    s.set .NRL_held_at (s.mono + 1) 0 t)

end Sys2Proof.Machine
end

