-- ==== Sys2Proof/Machine/Package.lean ====
section
/-! DEFINITION. Peing links, cells and blocks, voltage islands and measured speed: spec files 01 and 02. -/

namespace Sys2Proof.Machine

/-- Link states (Table PKG-9). -/
def peingFAILED : Nat := 3

/-- Spare wire groups of a link kind (R23). -/
def spareGroups (kind : Nat) : Nat := if kind = 2 then 1 else 4

/-- State of the link between dies `a` and `b`. -/
def State.linkState (s : State) (a b : Nat) : Nat := s.get .PKG_PEING_LINK_state a b

/-- Whether a link carries traffic: UP or DEGRADED. -/
def State.linkUp (s : State) (a b : Nat) : Bool := decide (s.linkState a b = 1 ∨ s.linkState a b = 2)

/-- Both ends of a link enter a state; FAILED is left only at power-on reset (R45). -/
def State.setLink (s : State) (a b st : Nat) : State :=
  if s.linkState a b = peingFAILED then s
  else (s.set .PKG_PEING_LINK_state st a b).set .PKG_PEING_LINK_state st b a

/-- Mesh neighbour of a fabric die in x. -/
def meshX (d : Nat) : Nat := 4 + (d - 4) ^^^ 1
/-- Mesh neighbour in y. -/
def meshY (d : Nat) : Nat := 4 + (d - 4) ^^^ 2

/-- Whether every link along a path of dies has not FAILED. -/
def State.pathOk (s : State) : List Nat → Bool
  | a :: b :: r => decide (s.linkState a b ≠ peingFAILED) && s.pathOk (b :: r)
  | _ => true

/-- Route between two fabric dies (R22, R24): direct or x first, and around a failed link the other way; none when no route
of those rules works. -/
def State.meshRoute (s : State) (a b : Nat) : Option (List Nat) :=
  let cand : List (List Nat) :=
    if a = b then [[a]]
    else if meshX a = b then [[a, b], [a, meshY a, meshY b, b]]
    else if meshY a = b then [[a, b], [a, meshX a, meshX b, b]]
    else [[a, meshX a, b], [a, meshY a, b]]
  cand.find? s.pathOk

/-- Fabric die over which IOD die `i` reaches fabric die `t`: itself, else its neighbour in x, in y, the diagonal, the first
whose I/O link carries traffic (R25). -/
def State.ioForward (s : State) (i t : Nat) : Option Nat :=
  [t, meshX t, meshY t, meshY (meshX t)].find? (fun d => s.linkUp i d)

/-- Whether IOD die `i` reaches every fabric die (R25). -/
def State.ioReaches (s : State) (i : Nat) : Bool :=
  [4, 5, 6, 7].all (fun t =>
    match s.ioForward i t with
    | some d => (s.meshRoute d t).isSome
    | none => false)

/-- A link enters FAILED: its traffic is rerouted with a CONTAINED error, or, where no route is left or a service link has
failed, the error is DEVICE_FATAL (R24, R25, R26, R39). -/
def State.linkFail (s : State) (a b : Nat) : State :=
  let kind := s.get .PKG_PEING_LINK_kind a b
  let s := s.setLink a b peingFAILED
  let routed := if kind = 1 then [4, 5, 6, 7].all (fun x => [4, 5, 6, 7].all (fun y => (s.meshRoute x y).isSome))
    else s.ioReaches (min a b)
  if 1 < kind then s.report { src := 0x0A, cls := .deviceFatal, die := a }
  else if routed then s.report { src := 0x09, cls := .contained, die := a }
  else s.report { src := 0x1C, cls := .deviceFatal, die := a }

/-- Whether a spare of the link is free. -/
def State.spareFree (s : State) (a b : Nat) : Bool :=
  decide (s.get .PKG_PEING_LINK_spares_used a b < spareGroups (s.get .PKG_PEING_LINK_kind a b))

/-- A wire group's traffic moves to a spare: DEGRADED, and PEING_DEGRADED is reported (R23). -/
def State.toSpare (s : State) (a b g : Nat) : State :=
  let n := s.get .PKG_PEING_LINK_spares_used a b + 1
  (((s.set .PKG_PEING_LINK_spares_used n a b).set .PKG_PEING_LINK_spares_used n b a).setLink a b 2).report
    { src := 0x08, cls := .corrected, die := a }

/-- PEING_CORRECTABLE_ERROR: counted at the receiving end; a group with more than 64 within 1 ms of DTS moves to a free spare,
or is reported again where none is free (R23). -/
def execPeingCorrectableError (a b g : Nat) (s : State) : Host.Outcome State Fault Refusal :=
  .next <|
    if !s.linkUp a b then s
    else
      let s := s.bump .PKG_PEING_LINK_corrected_count a b
      let l := s.now :: (s.lget .wireTimes a (b * 256 + g)).filter (fun t => decide (s.now ≤ t + msUnits))
      if l.length ≤ 64 then s.lset .wireTimes l a (b * 256 + g)
      else
        let s := s.lset .wireTimes [] a (b * 256 + g)
        if s.spareFree a b then s.toSpare a b g
        else s.report { src := 0x08, cls := .corrected, die := a, detail := some g }

/-- PEING_WIRE_FAULT: an uncorrectable error or stopped handshakes move the group to a free spare, the transfer resent, or
else fail the link (R576). -/
def execPeingWireFault (a b g : Nat) (s : State) : Host.Outcome State Fault Refusal :=
  .next <|
    if !s.linkUp a b then s
    else if s.spareFree a b then s.toSpare a b g
    else s.linkFail a b

/-- A cell fault that its block handles with its spare (R30, R31): the failed cell is quarantined; the packet re-executes in
the spare when the local state was corrected, else it is dropped. -/
def State.spareCell (s : State) (n b c : Nat) (uncorrectable : Bool) (h : Nat) : State :=
  let s := ((s.set .CELL_quar 1 n (b * 17 + c)).set .CELL_spare_used 1 n b).set .CELL_spare_for c n b
  let s := (s.set .CELL_retry 0 n (b * 17 + c)).set .ERR_REGION_STATE_spares_used
    (((List.range 16).filter (fun k => decide (s.get .CELL_spare_used n k = 1))).length) 0 n
  let s := s.report { src := 0x06, cls := .corrected, level := some 1, die := 4 + n / 2, region := n }
  if uncorrectable then
    let t := if h = 0 then 0 else s.pktTenant (h - 1)
    let s := if h = 0 then s else s.dropPkt (h - 1) reasonCELL_FAULT
    s.report { src := 0x07, cls := .contained, level := some 1, die := 4 + n / 2, region := n, tenant := t }
  else s

/-- A fault of a cell or engine: a correctable one is corrected and the operation retried at most 3 times (R28); beyond that, or when
uncorrectable, the block's spare takes the cell's place (R30, R31); with the spare in use, or in an engine (block 16 up), it is a
region fault (R33, R37). Where the fault passes to the region the spec names no drop reason for the packet at hand: here an uncorrectable
one drops it at once with CELL_FAULT and no CELL_FAULT record (DESIGN CHOICE, log entry 155). -/
def State.cellFault (s : State) (n b c : Nat) (uncorrectable fresh : Bool) (h : Nat) : State :=
  let i := b * 17 + c
  let tries := if fresh then 0 else s.get .CELL_retry n i
  if b < 16 ∧ !uncorrectable ∧ tries < 3 then
    (s.set .CELL_retry (tries + 1) n i).report
      { src := 0x05, cls := .corrected, level := some 0, die := 4 + n / 2, region := n }
  else if b < 16 ∧ s.get .CELL_spare_used n b = 0 then s.spareCell n b c uncorrectable h
  else
    let s := if uncorrectable ∧ h ≠ 0 then s.dropPkt (h - 1) reasonCELL_FAULT else s
    s.regionFault n

/-- CELL_FAULT. -/
def execCellFault (n b c : Nat) (uncorrectable fresh : Bool) (h : Nat) (s : State) : Host.Outcome State Fault Refusal :=
  .next (s.cellFault n b c uncorrectable fresh h)

/-- Voltage toward which an island moves, 0 where none has been set: a region's planned target, or 750 mV while it is offline
for test (R539); a common island the higher of its die's regions (R21); a handshake island its planned target (R489). -/
def State.islandTarget (s : State) (k : Nat) : Nat :=
  if k < 8 then
    let st := s.get .ERR_REGION_STATE_state 0 k
    if st = 2 ∨ st = 3 ∨ st = 5 then 750 else s.get .NRL_REGION_STAT_v_target_mv k
  else if k < 12 then max (s.get .ISLAND_mv 0 (2 * (k - 8))) (s.get .ISLAND_mv 0 (2 * (k - 8) + 1))
  else s.get .ISLAND_tgt 0 k

/-- Whether every region and handshake island stands at its target (R494). -/
def State.islandsSettled (s : State) : Bool :=
  (List.range 15).all (fun k => decide (s.islandTarget k = 0 ∨ s.islandTarget k = s.get .ISLAND_mv 0 k))

/-- After THROUGHPUT the instant is noted at which the last island has settled (R494). -/
def State.settleNote (s : State) : State :=
  if s.get .NRL_wide = 2 ∧ s.get .NRL_settle = 0 ∧ s.islandsSettled then s.set .NRL_settle (s.now + 1) else s

/-- VOLTAGE_STEP: one step of at most 10 mV toward the target, at most 5 mV/µs; work in flight is untouched (R21, R52). -/
def execVoltageStep (k : Nat) (s : State) : Host.Outcome State Fault Refusal :=
  .next <|
    let v := s.get .ISLAND_mv 0 k
    let t := s.islandTarget k
    if t = 0 ∨ t = v then s
    else
      let s := s.advanceTo (s.get .ISLAND_at 0 k + 2 * usUnits)
      (s.set .ISLAND_mv (if v < t then min t (v + 10) else max t (v - 10)) 0 k).set .ISLAND_at s.now 0 k |>.settleNote

/-- S(V) of Table CLK-1 in 1/70,000, linear between its points (R54). -/
def voltS (v : Nat) : Nat :=
  if v ≤ 680 then 43400 + (v - 600) * 175 else if v ≤ 750 then 57400 + (v - 680) * 180 else 70000 + (v - 750) * 126

/-- f_A of an ageing index in 1/10,000 (R56). -/
def ageF (a : Nat) : Nat := 10000 - a

/-- f_T in 1/4,000 (R55). -/
def tempF (tj : Int) : Nat := 4000 - (tj - 340).toNat

/-- The guaranteed minimum speed of a region at voltage `v`, temperature `tj` (0.25 °C) and ageing index `a`, in units of 1/2,048 (R53, R58). -/
def speedFloor (v : Nat) (tj : Int) (a : Nat) : Nat := 2048 * (voltS v * tempF tj * ageF a) / (70000 * 4000 * 10000)

/-- REGION_SPEED_MEASURE: at the next whole 1 ms of DTS the region's speed, voltage and temperature are updated together; a
region that is offline for test keeps its last measurement (R73). A boundary that DTS has already passed without this region's
measurement is measured before the next one falls due. The measured speed is never below the guaranteed one (R58). -/
def execRegionSpeedMeasure (n rel tj : Nat) (s : State) : Host.Outcome State Fault Refusal :=
  .next <|
    if s.offlineForTest n then s
    else
      let b := s.now / msUnits * msUnits
      let b := if s.get .XD_mark n < b + 1 then b else b + msUnits
      let s := (s.advanceTo b).set .XD_mark (b + 1) n
      ((s.set .XD_SPEED_rel_speed (max (rel % 4096) (speedFloor (s.get .ISLAND_mv 0 n) (sgn 10 tj) (s.get .AGE_REGION_index 0 n))) n).set .XD_SPEED_v_mv (s.get .ISLAND_mv 0 n) n).set .XD_SPEED_tj_qc tj n

end Sys2Proof.Machine
end

