-- ==== Sys2Proof/Machine/Neroli.lean ====
section
/-! DEFINITION. The energy ledger, the planner of voltages and credit, ageing (spec file 19, R478 to R500). -/

namespace Sys2Proof.Machine

/-- The lowest voltage in [lo, hi] that satisfies `p`, else `hi`. -/
def lowestV (lo hi : Nat) (p : Nat → Bool) : Nat :=
  (((List.range (hi + 1 - lo)).map (fun k => lo + k)).find? p).getD hi

/-- v_floor of an ageing index (R498). -/
def vFloor (a : Nat) : Nat := lowestV 600 850 (fun v => decide (434000000 ≤ voltS v * ageF a))

/-- v_rop of an ageing index (R498). -/
def vRop (a : Nat) : Nat := lowestV 600 850 (fun v => decide (700000000 ≤ voltS v * ageF a))

/-- The margin of a region and its ageing floor follow its index; the first fall of the margin below its threshold raises the alert
(R498, R499). -/
def State.ageDerive (s : State) (n : Nat) : State :=
  let a := s.get .AGE_REGION_index 0 n
  let m := 850 - vRop a
  let s := ((s.set .AGE_REGION_v_rop_mv (vRop a) 0 n).set .AGE_REGION_margin_mv m 0 n).set .NRL_REGION_STAT_v_floor_mv (vFloor a) n
  if m < s.get .AGE_CFG_margin_thr_mv then
    if s.get .AGE_below 0 n = 1 then s
    else ((s.set .AGE_below 1 0 n).set .AGE_REGION_alert 1 0 n).report { src := 0x13, cls := .corrected, die := 4 + n / 2, region := n }
  else s.set .AGE_below 0 0 n

/-- Tj of a region as last measured, signed quarter degrees (R73). -/
def State.regionTj (s : State) (n : Nat) : Int := sgn 10 (s.get .XD_SPEED_tj_qc n)

/-- Whether the guaranteed rate of region `n`'s two pipelines at voltage `v` carries `count` packets in 1 ms (R51, R58, R489). -/
def State.carries (s : State) (n count v : Nat) : Bool :=
  decide (count * (70000 * 4000 * 10000) ≤ 1600000 * (voltS v * tempF (s.regionTj n) * ageF (s.get .AGE_REGION_index 0 n)))

/-- The largest number below 2^k, on top of `m`, that satisfies a downward closed `p`. -/
def largest (p : Nat → Bool) : Nat → Nat → Nat
  | 0, m => m
  | k + 1, m => if p (m + 2 ^ k) then largest p k (m + 2 ^ k) else largest p k m

/-- Leakage of a region at voltage `v` over 1 ms, whole µJ: leak_rop × (V / 0.75 V)³ × 2^((Tj − 85) / 25) (R480); the 100th powers
of both sides are compared, for Tj in quarter degrees. -/
def State.leakAt (s : State) (n v : Nat) : Nat :=
  let d := s.regionTj n - 340
  let x := (s.get .NRL_LEAK_leak_rop_mw n * v ^ 3) ^ 100 * 2 ^ d.toNat
  largest (fun m => decide ((m * 750 ^ 3) ^ 100 * 2 ^ (-d).toNat ≤ x)) 32 0

/-- Highest voltage of a profile (Table ENGY-3). -/
def profHi (p fl : Nat) : Nat := if p = 3 then min fl 680 else if p = 2 then 850 else 800
/-- Lowest voltage of a profile, the ageing floor apart. -/
def profLo (p fl : Nat) : Nat := if p = 3 then min fl 680 else 600

/-- Effective profile of a region (R493, R495). -/
def State.regionProf (s : State) (n : Nat) : Nat :=
  if s.get .NRL_REGION_CFG_ovr_en 0 n = 1 then s.get .NRL_REGION_CFG_ovr_profile 0 n else s.get .NRL_CFG_profile

/-- Whether warn is set on any die (R567). -/
def State.anyWarn (s : State) : Bool := (List.range 8).any (fun d => decide (s.get .PKG_THERM_warn d = 1))

/-- Voltage range of a region (R489, R495, R567). -/
def State.regionRange (s : State) (n : Nat) : Nat × Nat :=
  let fl := s.get .NRL_REGION_STAT_v_floor_mv n
  let p := if s.anyWarn then 3 else s.regionProf n
  let vmin := if s.get .NRL_REGION_CFG_ovr_en 0 n = 1 ∧ !s.anyWarn then s.get .NRL_REGION_CFG_vmin_mv 0 n else 0
  let vmax := if s.get .NRL_REGION_CFG_ovr_en 0 n = 1 ∧ !s.anyWarn then s.get .NRL_REGION_CFG_vmax_mv 0 n else 0
  let hi := max fl (if vmax = 0 then profHi p fl else min vmax (profHi p fl))
  let lo := max fl (if vmin = 0 then profLo p fl else vmin)
  (min lo hi, hi)

/-- Regions in service. -/
def State.onlineRegions (s : State) : List Nat := (List.range 8).filter (fun n => s.online n)

/-- CHARGE_POST: a region posts the charges of a tenant's events: fused energy × (V / 0.75 V)² × k (R479). -/
def execChargePost (n t : Nat) (counts : List Nat) (rx : Bool) (s : State) : Host.Outcome State Fault Refusal :=
  .next <|
    let v := s.get .ISLAND_mv 0 n
    let e := ((counts.take 9).zipIdx.map (fun x => x.1 * s.get .NRL_EPE_e_fpj n x.2)).sum * v ^ 2
    let was := s.get .NRL_chg n t
    let s := s.charge n t (e * s.get .NRL_K_k) (e * 4096)
    s.when rx (fun s => s.addw .NRL_rx_uj (s.get .NRL_chg n t - was) n)

/-- A PMBus LINEAR11 power in mW; a negative one counts 0 (R483). -/
def linear11 (w : Nat) : Nat :=
  let m := (sgn 11 w).toNat * 1000
  let e := sgn 5 (w / 2048)
  m * 2 ^ e.toNat / 2 ^ (-e).toNat

/-- Rails that are read. -/
def State.nRails (s : State) : Nat := min 8 (s.get .NRL_PMBUS_CFG_n_rails)

/-- The bus transactions that read rail `k`: PAGE is set where one is configured, then READ_POUT is read (R483; PMBus 1.3 command codes
0x00 and 0x96). -/
def State.railAsk (s : State) (k : Nat) : State :=
  let a := s.get .NRL_PMBUS_ADDR_addr 0 k
  let pg := s.get .NRL_PMBUS_ADDR_page 0 k
  (s.when (decide (pg ≠ 0xFF)) (·.emit .pmbus [k, a, 0x00] [pg])).emit .pmbus [k, a, 0x96] []

/-- PMBUS_READ: the regulators are read, once per epoch and not while parked (Table PINS-10), and k follows the reading unless it is stale (R483, R484). -/
def execPmbusRead (good : Nat) (words : List Nat) (s : State) : Host.Outcome State Fault Refusal :=
  .next <|
    if s.nRails = 0 ∨ s.get .NRL_pm_done = 1 ∨ s.get .PWR_fail = 1 then s
    else
      let s := (s.each (List.range s.nRails) (fun k s => s.railAsk k)).set .NRL_pm_done 1
      let s := s.each (List.range s.nRails) (fun k s =>
        if good.testBit k then (s.set .NRL_rail_mw (linear11 (words.getD k 0)) 0 k).set .NRL_rail_at s.now 0 k
        else s.bump .NRL_PMBUS_ADDR_pmbus_err 0 k)
      let s := s.when ((List.range s.nRails).all (fun k => good.testBit k)) (·.set .NRL_CFG_meas_stale 0)
      let meas := ((List.range s.nRails).map (fun k => s.get .NRL_rail_mw 0 k)).sum
      let s := s.set .NRL_MEAS_meas_mw (min meas (2 ^ 20 - 1))
      let est := s.get .NRL_EST_est_mw
      if s.get .NRL_CFG_meas_stale = 1 ∨ est = 0 then s
      else
        let k := (63 * s.get .NRL_K_k * est + 4096 * meas) / (64 * est)
        (s.set .NRL_K_k (max 3277 (min 5120 k))).when (decide (k ≤ 3277 ∨ 5120 ≤ k)) (·.set .NRL_CFG_cal_alert 1)

/-- METER_STALE: a rail has had no good read for 100 ms (R484). -/
def execMeterStale (k : Nat) (s : State) : Host.Outcome State Fault Refusal :=
  .next <|
    if s.nRails ≤ k then s
    else (s.advanceTo (s.get .NRL_rail_at 0 k + 100 * msUnits)).set .NRL_CFG_meas_stale 1

/-- Overhead of an epoch at a voltage for each region, µJ (R480, R489); × 1.25 under meas_stale (R484; log entry 61). -/
def State.overhead (s : State) (fixed : Nat) (vs : List Nat) : Nat :=
  let o := fixed + (vs.zipIdx.map (fun x => s.leakAt x.2 x.1)).sum
  if s.get .NRL_CFG_meas_stale = 1 then o * 5 / 4 else o

/-- A region's plan: its lowest, present and received-load voltages. -/
structure Plan where
  on : Bool
  lo : Nat
  v : Nat
  rx : Nat
deriving DecidableEq, Repr

/-- The first region with the highest voltage among those that can be lowered. -/
def planPick (l : List Plan) : Option Nat :=
  let c : List (Plan × Nat) := l.zipIdx.filter (fun x => x.1.on && decide (max x.1.lo x.1.rx < x.1.v))
  let top : Nat := c.foldl (fun m x => max m x.1.v) 0
  (c.find? (fun x => decide (x.1.v = top))).map (·.2)

/-- The budget loop of R489: voltages are lowered by 10 mV, not below max(lo, v_rx), until d is positive. -/
def State.planLoop (s : State) (fixed avail : Nat) (rx : Nat) : Nat → List Plan → List Plan
  | 0, l => l
  | fuel + 1, l =>
    if s.overhead fixed (l.map (·.v)) + rx < avail then l
    else match planPick l with
    | none => l
    | some i => s.planLoop fixed avail rx fuel (l.modify i (fun p => { p with v := max (p.v - 10) (max p.lo p.rx) }))

/-- Voltage range of the IOD and TMD handshake islands under the device profile (Table ENGY-3). -/
def State.islandPlan (s : State) (top : Nat) : Nat :=
  match s.get .NRL_CFG_profile with
  | 0 => 750
  | 1 => max 680 (min 800 top)
  | 2 => max 680 (min 850 top)
  | _ => 680

/-- The plan of every region for the coming epoch. -/
def State.plan (s : State) (n : Nat) : Plan :=
  if s.online n then
    let (lo, hi) := s.regionRange n
    let wait := ((List.range 256).map (fun t => if s.get .TEN_STATE_state 0 t = 0 then 0 else s.waitAt n t)).sum
    { on := true, lo := lo, v := lowestV lo hi (s.carries n (s.get .NRL_adm n + wait)), rx := lowestV lo hi (s.carries n (s.get .NRL_rxf n)) }
  else { on := false, lo := 0, v := s.get .ISLAND_mv 0 n, rx := 0 }

/-- Accounts of the ledger: online regions and the IODs (R478). -/
def State.accounts (s : State) : List Nat := s.onlineRegions ++ [8, 9]

/-- Grants of the tenants (tenant, weight, cap in µJ or 0) from `d`: the first share by weight, limited by the cap; what caps remove
shared once more among the others (R490). -/
def grants (d : Nat) (l : List (Nat × Nat × Nat)) : List (Nat × Nat) :=
  let w := max 1 (l.map (fun x => x.2.1)).sum
  let capped := fun (x : Nat × Nat × Nat) => decide (x.2.2 ≠ 0 ∧ x.2.2 * w < d * x.2.1)
  let past := (l.map (fun x => if capped x then d * x.2.1 - x.2.2 * w else 0)).sum
  let wu := max 1 (l.map (fun x => if capped x then 0 else x.2.1)).sum
  l.map (fun x =>
    if capped x then (x.1, x.2.2)
    else
      let g := x.2.1 * (d * wu + past) / (w * wu)
      (x.1, if x.2.2 = 0 then g else min g x.2.2))

/-- A tenant's grant split among its accounts (R490): each account with its amount. -/
def State.grantSplit (s : State) (t g : Nat) : List (Nat × Nat) :=
  let l := s.accounts.map (fun sc => (sc, s.get .NRL_chg sc t, s.waitAt sc t))
  let sum := (l.map (fun x => x.2.1)).sum
  let waiting := (l.filter (fun x => decide (x.2.2 ≠ 0))).length
  l.map (fun x =>
    let part := if sum ≠ 0 then g * x.2.1 / sum else if x.2.2 ≠ 0 then g / max 1 waiting else 0
    (x.1, if x.2.2 ≠ 0 then max part (s.get .NRL_MIN_GRANT_min_grant_uj) else part))

/-- A grant enters an account, whose balance is limited to twice it (R490). -/
def State.grantTo (s : State) (sc t g : Nat) : State :=
  s.set .NRL_CREDIT_balance (unsgn 32 (min (sgn 32 (s.get .NRL_CREDIT_balance sc t) + Int.ofNat g) (Int.ofNat (2 * g)))) sc t

/-- The next whole 1 ms of DTS, steps excluded (R488). -/
def State.planTick (s : State) : State := s.advanceTo (s.now + ((s.mono / msUnits + 1) * msUnits - s.mono))

/-- µJ that frames received from the wire charged in the epoch that ends. -/
def State.planRx (s : State) : Nat := ((List.range 8).map (fun n => s.get .NRL_rx_uj n)).sum

/-- The ledger closes its epoch: the overhead is posted and the estimate published (R480, R481, R488). -/
def State.planClose (s : State) (fixed : Nat) : State :=
  let spent := s.overhead fixed ((List.range 8).map (fun n => s.get .ISLAND_mv 0 n))
  let s := (s.addw .NRL_OVERHEAD spent).addw .NRL_TOTAL spent
  (s.set .NRL_EST_est_mw (min (2 ^ 20 - 1) (s.get .NRL_est / ujParts + spent))).set .NRL_est 0

/-- Budget of an epoch, µJ (R489). -/
def State.planAvail (s : State) : Nat := max 80000 (min 340000 (s.get .NRL_BUDGET_budget_mw))

/-- The plans of the coming epoch (R489). -/
def State.plans (s : State) (fixed rx : Nat) : List Plan :=
  s.planLoop fixed s.planAvail rx 256 ((List.range 8).map (fun n => s.plan n))

/-- The plans set the voltages that the islands move to (R489, R493, Table ENGY-3). -/
def State.planVolts (s : State) (plans : List Plan) : State :=
  let s := s.each plans.zipIdx (fun x s => if x.1.on then
    (s.set .NRL_REGION_STAT_v_target_mv x.1.v x.2).set .NRL_REGION_STAT_profile (s.regionProf x.2) x.2 else s)
  let top := plans.foldl (fun m p => if p.on then max m p.v else m) 0
  s.each [12, 13, 14] (fun k s => s.set .ISLAND_tgt (s.islandPlan top) 0 k)

/-- The THROUGHPUT terms, in force from the epoch in which a profile is THROUGHPUT, before any voltage rises, until 1 ms after the last
island has settled at what the narrower profiles plan (R494). -/
def State.planWide (s : State) : State :=
  let wide := decide (s.get .NRL_CFG_profile = 2) || (List.range 8).any (fun n => decide (s.regionProf n = 2))
  if wide then (s.set .NRL_wide 1).set .NRL_settle 0
  else if s.get .NRL_wide = 1 then ((s.set .NRL_wide 2).set .NRL_settle 0).settleNote
  else if s.throughput then s.settleNote
  else (s.set .NRL_wide 0).set .NRL_settle 0

/-- Tenants that take part in the grants of an epoch (R490). -/
def State.planWho (s : State) : List Nat :=
  (List.range 256).filter (fun t => decide (s.get .TEN_STATE_state 0 t = 1) &&
    s.accounts.any (fun sc => decide (s.get .NRL_chg sc t ≠ 0 ∨ s.waitAt sc t ≠ 0)))

/-- The grants out of `d` µJ: account, tenant, amount (R490). -/
def State.planGrants (s : State) (d : Nat) : List (Nat × Nat × Nat) :=
  (grants d (s.planWho.map (fun t => (t, max 1 (s.get .NRL_TENANT_CFG_weight 0 t), s.get .NRL_TENANT_CFG_cap_mw 0 t)))).flatMap
    (fun x => (s.grantSplit x.1 x.2).map (fun y => (y.1, x.1, y.2)))

/-- Grants enter their accounts, no grant the others, and over_budget says whether they pass `d` µJ (R490, R491). -/
def State.planCredit (s : State) (d : Nat) (plans : List Plan) : State :=
  let gs := s.planGrants d
  let past := decide (d < (gs.map (fun x => x.2.2)).sum) || (decide (d = 0) && plans.any (fun p => p.on && decide (p.lo < p.v)))
  let rest := (s.keysOf .NRL_CREDIT_balance).filter (fun k => !gs.any (fun x => decide (x.1 = k.1 ∧ x.2.1 = k.2)))
  let s := s.each rest (fun k s => s.grantTo k.1 k.2 0)
  (s.each gs (fun x s => s.grantTo x.1 x.2.1 x.2.2)).set .NRL_CFG_over_budget (b2n past)

/-- What the epoch counted is kept as the last epoch's and counts anew. -/
def State.planRoll (s : State) : State :=
  let s := s.each (s.keysOf .NRL_chg_last) (fun k s => s.set .NRL_chg_last 0 k.1 k.2)
  let s := s.each (s.keysOf .NRL_chg) (fun k s => (s.set .NRL_chg_last (s.get .NRL_chg k.1 k.2) k.1 k.2).set .NRL_chg 0 k.1 k.2)
  (s.set .NRL_pm_done 0).each (List.range 8) (fun n s => (((s.set .NRL_rx_last (s.get .NRL_rx_uj n) n).set .NRL_rx_uj 0 n).set .NRL_adm 0 n).set .NRL_rxf 0 n)

/-- PLANNER_EPOCH: at each whole 1 ms of DTS, steps excluded, the ledger closes its epoch and the planner sets the voltages and grants
energy credit (R488 to R491, R493, R494). -/
def execPlannerEpoch (fixed : Nat) (s : State) : Host.Outcome State Fault Refusal :=
  .next <|
    let s := s.planTick.planClose fixed
    let rx := s.planRx
    let plans := s.plans fixed rx
    let d := s.planAvail - (s.overhead fixed (plans.map (·.v)) + rx)
    ((((s.planVolts plans).planWide).noteHeld).planCredit d plans).planRoll

/-- What one sentinel shows: 10,000 × (1 − d0 / d) to the nearest whole, limited to 0 to 1,000 (R497; log entry 62). -/
def sentinelA (d0 d : Nat) : Nat := if d ≤ d0 then 0 else min 1000 ((20000 * (d - d0) + d) / (2 * d))

/-- Middle of the measurements: the (⌊n / 2⌋ + 1)-th smallest (R497). -/
def median (l : List Nat) : Nat := (sortUp l).getD (l.length / 2) 0

/-- Start of the interval in which region `n`'s next ageing measurement lies: in the present second of DTS, or, once that has one, in the
next (R496). -/
def State.ageFrom (s : State) (n : Nat) : Nat :=
  let sec := s.now / secUnits
  if s.get .AGE_sec n = sec + 1 then (sec + 1) * secUnits else max (sec * secUnits) (s.get .REG_idle_at n)

/-- AGEING_MEASURE: a region without admitted work measures its sentinels, once in each second of DTS, at the end of the first 10 µs
without work; the index never falls (R496 to R499). -/
def execAgeingMeasure (n : Nat) (d0 d : List Nat) (s : State) : Host.Outcome State Fault Refusal :=
  .next <|
    if s.get .REG_pop n 0 ≠ 0 ∨ s.get .REG_pop n 1 ≠ 0 then s
    else
      let b := s.ageFrom n
      let s := ((s.advanceTo (b + 10 * usUnits)).set .AGE_sec (b / secUnits + 1) n)
      let s := s.set .AGE_at s.now n
      let a := (sortUp ((d0.zip d).map (fun x => sentinelA x.1 x.2))).reverse.getD 3 0
      let l := (a :: s.lget .ageMeas 0 n).take 64
      ((s.lset .ageMeas l 0 n).set .AGE_REGION_index (max (s.get .AGE_REGION_index 0 n) (median l)) 0 n).ageDerive n

/-- AGEING_FORCED_IDLE: 24 h after the last interval in which a region could measure, admission to it is held for 20 µs (R496). -/
def execAgeingForcedIdle (n : Nat) (s : State) : Host.Outcome State Fault Refusal :=
  .next <|
    let s := s.advanceTo (s.get .AGE_at n + 86400 * secUnits)
    ((s.bump .AGE_CFG_forced).set .NRL_hold_until (s.now + 20 * usUnits) n).set .AGE_at s.now n

/-- The persistent state as embedded flash keeps it: ageing indices and energy totals (R497, R500). -/
def State.persist (s : State) : State :=
  let s := s.each (List.range 8) (fun n s => s.set .FL_age (s.get .AGE_REGION_index 0 n) 0 n)
  let s := s.set .FL_total (s.get .NRL_TOTAL)
  s.each ((s.keysOf .NRL_TENANT_CFG_used) ++ (s.keysOf .FL_used)) (fun k s => s.set .FL_used (s.get .NRL_TENANT_CFG_used 0 k.2) 0 k.2)

/-- Whether CK_FLASH is present on the CTD (R529). -/
def State.embFlashOk (s : State) : Bool := s.getb .XD_CLK_DIE_PRESENT_present 13 0 0

/-- PERSISTENT_STATE_WRITE: the hourly store of the persistent state; skipped and counted while CK_FLASH is absent (R497, R529). -/
def execPersistentStateWrite (s : State) : Host.Outcome State Fault Refusal :=
  .next <|
    let s := s.advanceTo (s.get .FL_at + 3600 * secUnits)
    (if s.embFlashOk then s.persist else s.bump .BOOT_FLASH_STAT_flash_err).set .FL_at s.now

end Sys2Proof.Machine
end

