-- ==== Sys2Proof/Machine/BootOps.lean ====
section
/-! DEFINITION. Shared operations of boot and trust (spec file 20): power-on reset and its domains, image selection, stage 0, the hand-over
to stage 2, recovery, identity, the structure image at boot. -/

namespace Sys2Proof.Machine

/-- Derivation of identity secrets and keys (R521), among the primitives of `Config.crypto` (log entry 4). -/
def algCdi : Nat := 17

/-- Scalars of domain VAUX (R565, R571), what the well's logic samples, and the state of VAUX and of PEn_WAKE_N. -/
def vauxFields : List Field :=
  [.ETH_WAKE_CFG_wake_en, .ETH_WAKE_CFG_magic_en, .ETH_WAKE_CFG_pat_en, .ETH_WAKE_CFG_an_en, .ETH_WAKE_CFG_fec_en, .ETH_WAKE_MAC,
    .ETH_WAKE_PAT_word, .ETH_WAKE_PAT_mask, .ETH_WAKE_STATUS_woke, .ETH_WAKE_STATUS_by_magic, .ETH_WAKE_STATUS_pattern,
    .PKG_PWR_EVENTS_pwr_fail, .PKG_PWR_EVENTS_pwr_fail_done, .PKG_PWR_EVENTS_rail_drop, .PKG_PWR_EVENTS_thermtrip, .PKG_PWR_EVENTS_rail,
    .ONX_STATUS_seal_broken, .ONX_STATUS_jumper, .ONX_STATUS_button, .PME_en, .PME_st, .PIN_wake]

/-- Scalars that a power-on reset keeps: those of domain PERSIST, the VAUX well where VAUX stayed, and what lies outside the device
(R571 to R573). -/
def keepScalar (f : Field) (vaux : Bool) : Bool :=
  [Field.BOOT_ARB_counter, .BOOT_KEY_state, .ONX_OWNER_used, .ONX_SERIAL, .NRL_EPE_e_fpj, .NRL_LEAK_leak_rop_mw, .FL_age, .FL_total, .FL_used, .FL_boot,
    .FL_boot_ok, .FL_ok, .BOOT_density, .PCI_perst, .PWR_main, .PWR_vaux].contains f || (vaux && vauxFields.contains f)

/-- Sequences that a power-on reset keeps: flash and fuses. -/
def keepSeq (n : LName) : Bool :=
  [LName.slotDir, .partManifest, .partBytes, .romBytes, .stage2Slot, .bootKeyHash, .amberLog, .ownerHash, .uds].contains n

/-- Offset of embedded flash on the CTD (Table PKG-7). -/
def embFlash : Nat := 0x20000000

/-- The power-on reset event: every domain at its reset values but PERSIST, and, where `vaux` tells that VAUX stayed, VAUX (R571,
R572). Memory but embedded flash holds what an unlisted byte reads as. CK_AUX belongs to the VAUX well, every other clock starts
absent (R61). -/
def State.porReset (s : State) (vaux : Bool) : State :=
  let aux := (List.range 8).map (fun d => s.getb .XD_CLK_DIE_PRESENT_present 15 0 d)
  let t : State := { s with
    regs := s.regs.filter (fun p => keepScalar p.1.f vaux)
    lists := s.lists.filter (fun p => keepSeq p.1.n)
    mem := s.mem.filter (fun c => within c.1 embFlash 0x1000000)
    reply := [] }
  if vaux then
    (t.each aux.zipIdx (fun x t => t.when x.1 (·.setb .XD_CLK_DIE_PRESENT_present 15 true 0 x.2))).setb .XD_CLK_PRESENT_present 15 ([0, 2, 3].all (fun d => aux.getD d false))
  else t

/-- Embedded flash offset of stage 1 slot `j` (Table BOOT-4). -/
def s1Slot (j : Nat) : Nat := embFlash + 0x100000 + j * 0x200000

/-- Manifest and image of stage 1 slot `j`. -/
def State.s1Image (s : State) (j : Nat) : List Nat × List Nat :=
  let man := s.mread (s1Slot j) 65536
  (man, s.mread (s1Slot j + 65536) (min 0x1F0000 (leAt man 16 4)))

/-- Manifest and image of stage 2 slot `j` (Table BOOT-3). -/
def State.s2Image (s : State) (j : Nat) : List Nat × List Nat :=
  let b := s.lget .stage2Slot 0 j
  (b.take 65536, (b.drop 65536).take (leAt b 16 4))

/-- Image space of a stage (Table BOOT-1). -/
def imgSpace (kind : Nat) : Nat := if kind = 1 then 0x1F0000 else if kind = 2 then 0x7F0000 else 0x2000000

/-- Whether a slot is empty: its manifest is erased (log entry 63). -/
def slotEmpty (man : List Nat) : Bool := (man.take 64).all (fun b => decide (b = 0)) || (man.take 64).all (fun b => decide (b = 0xFF))

/-- BOOT_IMAGE[k] shows a slot's image and the result of its checks (R513). -/
def State.imgShow (s : State) (k : Nat) (man : List Nat) (r : Nat × Nat) : State :=
  let s := (s.set .BOOT_IMAGE_security_version (leAt man 8 4) 0 k).set .BOOT_IMAGE_key_slot (man.getD 7 0) 0 k
  ((s.set .BOOT_IMAGE_build (leAt man 12 4) 0 k).set .BOOT_IMAGE_result (if slotEmpty man then 7 else bootResult r.1) 0 k).set .BOOT_IMAGE_detail r.2 0 k

/-- Slot `j` of a stage is erased. -/
def State.slotErase (s : State) (kind j : Nat) : State :=
  let s := if kind = 1 then s.mzero (s1Slot j) 0x200000 else s.lset .stage2Slot [] 0 j
  s.imgShow ((if kind = 1 then 0 else 2) + j) [] (1, 0)

/-- Whether slot `j` of a stage is invalid: its checks failed, it is empty, or it is given up for this boot (R506, R515). -/
def State.slotInvalid (s : State) (kind j : Nat) : Bool :=
  decide (s.get .BOOT_IMAGE_result 0 ((if kind = 1 then 0 else 2) + j) ≠ 0) || (decide (kind = 2) && s.getb .BOOT_s2_bad j)

/-- A slot that the recovery window is writing is left invalid (R519, R530): its content counts as erased. -/
def State.rcvCut (s : State) : State :=
  if s.get .BOOT_RCV_STATUS_open = 0 then s
  else (s.slotErase (s.get .BOOT_rcv_kind) (s.get .BOOT_RCV_STATUS_target)).set .BOOT_RCV_STATUS_open 0

/-- Measurement of a manifest (R512). -/
def manMeas (man : List Nat) : List Nat := sha384 (manSigned man)

/-- The two slots of a stage are checked; the slot that runs and whether the choice was ambiguous (R515). `bad` marks slots not to be
tried again in this boot. -/
def State.slotSelect (s : State) (kind bad : Nat) : State × Option Nat × Bool :=
  let img := fun (s : State) (j : Nat) => if kind = 1 then s.s1Image j else s.s2Image j
  let chk := fun (s : State) (j : Nat) => let (m, b) := img s j; s.imageValid m b kind (imgSpace kind)
  let base := if kind = 1 then 0 else 2
  let ra := chk s 0
  let rb := chk s 1
  let s := (s.imgShow base (img s 0).1 ra).imgShow (base + 1) (img s 1).1 rb
  let a := decide (ra.1 = 0) && !bad.testBit 0
  let b := decide (rb.1 = 0) && !bad.testBit 1
  let ma := (img s 0).1
  let mb := (img s 1).1
  if a && b then
    let va := (leAt ma 8 4, leAt ma 12 4)
    let vb := (leAt mb 8 4, leAt mb 12 4)
    if va.1 < vb.1 ∨ (va.1 = vb.1 ∧ va.2 < vb.2) then (s, some 1, false)
    else (s, some 0, decide (va = vb) && decide (manMeas ma ≠ manMeas mb))
  else (s, if a then some 0 else if b then some 1 else none, false)

/-- The fuse state that CDI1 and measurement 5 cover: boot-key slot states, counter, owner slot in use (R521, R523). -/
def State.fuseState (s : State) : List Nat :=
  (List.range 4).map (fun k => s.get .BOOT_KEY_state 0 k) ++ [s.get .BOOT_ARB_counter, s.get .ONX_OWNER_used]

/-- Attestation key under the running stage 1 and a stage 2 manifest (R521). -/
def State.attestOf (s : State) (man : List Nat) : List Nat :=
  fixLen 48 (Config.crypto algCdi [fixLen 48 (Config.crypto algCdi [s.lget .cdi1, manMeas man]), [1]])

/-- SPDM sessions of both endpoints end (R522, R527). -/
def State.spdmEnd (s : State) : State :=
  s.each [0, 1, 2, 3] (fun k s => (((s.set .SPDM_sess 0 (k / 2) (k % 2)).set .SPDM_sid 0 (k / 2) (k % 2)).lset .spdmKey [] (k / 2) (k % 2)).lset .spdmTh [] (k / 2) (k % 2))

/-- Log slots of format 0x0001, highest seq first: seq and slot (R577). -/
def State.logSlots (s : State) : List (Nat × Nat) :=
  let l := (s.lkeysOf .amberLog).filterMap (fun k =>
    let b := s.lget .amberLog k.1 k.2
    if within k.2 s.logBase 131072 ∧ leAt b 0 2 = 1 then some (leAt b 4 4, k.2) else none)
  l.foldr (fun x acc => (acc.takeWhile (fun y => decide (x.1 < y.1))) ++ [x] ++ acc.dropWhile (fun y => decide (x.1 < y.1))) []

/-- The last record of the log is found: seq of the next record, prev_digest and the next log slot follow it (R111, R577). -/
def State.logResume (s : State) : State :=
  let keys := s.lget .attestKey :: (List.range 2).filterMap (fun j =>
    let (m, b) := s.s2Image j
    if (s.imageValid m b 2 (imgSpace 2)).1 = 0 then some (s.attestOf m) else none)
  let l := s.logSlots
  match l.find? (fun x =>
    let b := s.lget .amberLog 0 x.2
    keys.any (fun k => Config.verifies algEcdsa [k, b.take 160, slice b 160 96])) with
  | some x => ((s.set .AMBER_next (x.1 + 1)).lset .amberPrev (fixLen 32 (Config.crypto algSha384 [s.lget .amberLog 0 x.2]))).set .AMBER_slot (x.2 - s.logBase + 1)
  | none => (s.set .AMBER_next (match l with | x :: _ => x.1 + 1 | [] => 0)).lset .amberPrev (List.replicate 32 0)

/-- Both endpoints answer configuration requests from here on (R423). -/
def State.cfgReady (s : State) : State :=
  s.each [0, 1] (fun e s => if s.get .PCI_EP_CFG_cfg_ready e = 1 then s else (s.set .PCI_EP_CFG_cfg_ready 1 e).readiness e)

/-- RECOVERY: the running stage sets cfg_ready, device_ready stays 0, the ports are DISABLED and the time die runs FREERUN (R517): from LOCKED
and ACQUIRING as Table TIME-5 has it where no time reference is left, from HOLDOVER with growth continuing; FAULT, which no row but
fault_resolve leaves, stays (DEDUCED, log entry 154). -/
def State.enterRecovery (s : State) : State :=
  let s := ((s.set .BOOT_STATUS_recovery 1).set .BOOT_STATUS_device_ready 0).cfgReady
  let s := s.each (List.range 16) (fun k s =>
    if s.get .ETH_PORT_STATUS_state (k / 8) (k % 8) = ethDISABLED then s
    else
      let s := (s.leaveUp (k / 8) (k % 8)).macDiscard (k / 8) (k % 8)
      (s.portDiscardAll (k / 8) (k % 8)).set .ETH_PORT_STATUS_state ethDISABLED (k / 8) (k % 8))
  let st := s.get .TS_STATUS_state
  if st = tsLOCKED then (((s.deselect.predictFreq.enterDisc tsFREERUN).set .TIME_after_hold 1).startHold 1 s.now).evidence s none
  else if st = tsACQUIRING then ((s.deselect.enterDisc tsFREERUN).startHold 2 s.now).evidence s none
  else if st = tsHOLDOVER then ((s.enterDisc tsFREERUN).set .TIME_after_hold 1).growHold.evidence s none
  else s

/-- The management cores are held in reset. -/
def State.mgtHold (s : State) : State := s.each (List.range 4) (fun i s => s.set .MGT_on 0 0 i)

/-- Stage 2 slot `j` is handed over to: the attestation key is derived, the START record issued once, the management cores released
(R504, R108, R521). -/
def State.s2Run (s : State) (j : Nat) : State :=
  let s := ((s.set .BOOT_STATUS_s2_slot j).set .BOOT_STATUS_stage 2).set .BOOT_s2_at s.now
  let first := decide (s.get .ATT_on = 0)
  let s := (s.when first (·.set .AMBER_due (s.now / secUnits))).lset .attestKey (s.attestOf (s.s2Image j).1) |>.set .ATT_on 1
  let s := s.when first (fun s => s.logResume.issueAmber 0 s.offEst)
  s.each (List.range 4) (fun i s => s.set .MGT_on 1 0 i)

/-- Stage 1 selects stage 2 and hands over to it, or enters RECOVERY (R506, R515). -/
def State.s2Boot (s : State) : State :=
  match s.slotSelect 2 (s.get .BOOT_s2_bad) with
  | (s, some j, amb) => (s.when amb (·.set .BOOT_EVENTS_s2_ambiguous 1)).s2Run j
  | (s, none, _) => s.enterRecovery

/-- Stage 0 (R502, R503, R510, R573): boot_count, the key store root, the choice of stage 1, CDI1, KEYLOCK and the hand-over, at
which the fields kept in flash take their stored values. -/
def State.stage0 (s : State) : State :=
  let s := s.when (decide (s.get .FL_boot_ok = 0)) (·.bump .BOOT_FLASH_STAT_flash_err)
  let s := (s.set .FL_boot (if s.get .FL_boot_ok = 1 then s.get .FL_boot + 1 else 1)).set .FL_boot_ok 1
  let (s, root) := s.freeBytes 32
  let s := (((s.lset .keyRoot root).set .FRAG_seed (s.freeVal 64)).drew.set .DRBG_seed (s.drew.freeVal 384)).drew
  match s.slotSelect 1 0 with
  | (s, none, _) => s.enterRecovery
  | (s, some j, amb) =>
    let s := s.when amb (·.set .BOOT_EVENTS_s1_ambiguous 1)
    let man := (s.s1Image j).1
    let s := s.lset .cdi1 (fixLen 48 (Config.crypto algCdi [s.lget .uds, manMeas man, s.fuseState]))
    let b := leAt man 24 4
    let good := decide (b = 0x08000000 ∨ (b % 65536 = 0 ∧ 0x0A000000 ≤ b ∧ b + 0x2000000 ≤ s.get .BOOT_density))
    let s := (s.set .TS_AMBER_LOG_BASE (if good then b else 0x08000000)).set .BOOT_STATUS_log_base_default (b2n (!good))
    let s := ((s.set .STR_MIN_VERSION_min_version (leAt man 28 4)).set .BOOT_STATUS_keylock 1).set .BOOT_STATUS_stage 1
    let s := (s.set .BOOT_STATUS_s1_slot j).set .BOOT_COUNT (s.get .FL_boot)
    let s := s.when (decide (s.get .FL_ok = 0)) (·.bump .BOOT_FLASH_STAT_flash_err)
    let s := s.set .NRL_TOTAL (s.get .FL_total)
    let s := s.each (s.keysOf .FL_used) (fun k s => s.set .NRL_TENANT_CFG_used (s.get .FL_used 0 k.2) 0 k.2)
    s.each (List.range 8) (fun n s => (s.set .AGE_REGION_index (s.get .FL_age 0 n) 0 n).ageDerive n)

/-- Whether every Peing link has left DOWN (R576). -/
def State.linksTrained (s : State) : Bool :=
  (List.range 8).all (fun a => (List.range a).all (fun b =>
    decide (s.get .PKG_PEING_LINK_present a b = 0 ∨ s.linkState a b ≠ 0)))

/-- Stage 0, where it still waits, runs once CK_FLASH is there and no Peing link is DOWN (R502, R529, R576). -/
def State.stage0Go (s : State) : State :=
  if s.get .BOOT_s0 = 1 ∧ s.linksTrained ∧ s.getb .XD_CLK_DIE_PRESENT_present 13 0 0 then (s.set .BOOT_s0 0).stage0 else s

/-- Power-on reset is released: the nonce of the Onyx gate is fresh, and stage 0 waits for CK_FLASH and the Peing links (R502, R525, R529,
R576). -/
def State.porRelease (s : State) (clk : Bool) : State :=
  let s := (s.each (List.range 4) (fun k s => (s.set .ONX_NONCE (s.freeVal 32) 0 k).drew)).set .PWR_reset 0
  let s := s.when clk (fun s => (s.setb .XD_CLK_DIE_PRESENT_present 13 true 0 0).setb .XD_CLK_PRESENT_present 13 true)
  (s.set .BOOT_s0 1).stage0Go

/-- The device reset that follows a recovered stage 1: every domain but VAUX, both endpoints to DL_Down (R518, R572). -/
def State.deviceReset (s : State) : State := (((s.linkDown 0).linkDown 1).porReset true).porRelease true

/-- PF3's presence on endpoint `e` as stage 1 reads it at reset, from ACTIVE, else PREVIOUS (R420). -/
def State.pf3Of (s : State) : Nat :=
  let ok := fun (k : Nat) =>
    let img := s.slotImg k
    let man := s.lget .partManifest 0 (s.slotPart k)
    let n := leAt img 14 2
    match secOf (secsOf img) 10 0 0xFF, ((List.range n).map (dirAt img)).find? (fun d => decide (leAt d 0 2 = 10)) with
    | some x, some d =>
      let last := (leAt d 8 4 + leAt d 12 4 + 65535) / 65536
      let blocks := (List.range ((128 + 64 * n + 65535) / 65536)) ++ ((List.range last).filter (fun b => decide (leAt d 8 4 / 65536 ≤ b)))
      if s.manifestValid man 3 0x2000000 = 0 ∧ blocks.all (fun b => blockOk man img b) ∧ sha384 x.data = x.digest then some (x.data.getD 0 0) else none
    | _, _ => none
  ((ok 0).orElse (fun _ => ok 1)).getD 0

/-- Slot `k` of the structure image is verified and loaded into both contexts of every region and the IODs; none when it fails (R507). -/
def State.bootLoad (s : State) (k : Nat) : Option State :=
  match s.imageVerify k false with
  | some _ => none
  | none =>
    let l := secsOf (s.slotImg k)
    match s.makeTables [] l (rebuiltTables [] l) with
    | none => none
    | some t =>
      let t := t.each (List.range 8) (fun n t => (t.loadCtx l n 0 (s.newTi [] l)).loadCtx l n 1 (s.newTi [] l))
      let t := ((t.loadCommon l 0).loadCommon l 1).loadTopo l
      let t := t.freeUnused.each (rebuiltTables [] l) (fun x t => match t.liveTi x with
        | some ti => (t.when (layExact (t.lay ti)) (·.emFlipStamp ti)).emStat x
        | none => t)
      some (((t.bankStat).set .STR_loaded 1).set .BOOT_STATUS_struct_none 0)

/-- pf3_mismatch: the image applied carries another pf3_en than the presence read at reset, or no image is applied (R420). -/
def State.pf3Check (s : State) : State :=
  s.each [0, 1] (fun e s =>
    let want := s.getb .PLC_pf3 e (s.get .STR_common_ctx)
    s.set .PCI_EP_CFG_pf3_mismatch (b2n (decide (s.get .STR_loaded = 0) || (want != decide (s.get .PCI_EP_CFG_pf3_present e = 1)))) e)

end Sys2Proof.Machine
end

