-- ==== Sys2Proof/Machine/Boot.lean ====
section
/-! DEFINITION. Boot, recovery, firmware update and the Onyx gate (spec file 20, R501 to R530; R364 and R383). -/

namespace Sys2Proof.Machine

/-- STAGE1_BOOT: stage 1 reads the slot directory and PF3's presence, sets cfg_ready, selects and hands over to stage 2 (R420, R423,
R504, R511). -/
def execStage1Boot (s : State) : Host.Outcome State Fault Refusal :=
  .next <|
    if s.get .BOOT_STATUS_stage ≠ 1 ∨ s.get .BOOT_STATUS_recovery = 1 then s
    else
      let s := s.dirRead
      let p := s.pf3Of
      let s := s.each [0, 1] (fun e s => (s.set .PCI_EP_CFG_pf3_present (b2n (p.testBit e)) e).set .PCI_FN_STAT_present (b2n (p.testBit e)) e 3)
      s.cfgReady.s2Boot

/-- HBM_TRAINED: stage 1 ends the training of a stack (R504). -/
def execHbmTrained (k : Nat) (s : State) : Host.Outcome State Fault Refusal :=
  .next <| if s.get .BOOT_STATUS_stage = 0 then s else s.set .PKG_DIE_INFO_hbm_trained 1 (5 + k)

/-- STRUCTURE_IMAGE_APPLIED: stage 1 applies ACTIVE, else PREVIOUS, exchanging the two, else sets struct_none (R420, R507). -/
def execStructureImageApplied (s : State) : Host.Outcome State Fault Refusal :=
  .next <|
    if s.get .BOOT_STATUS_stage ≠ 2 ∨ s.get .STR_loaded = 1 ∨ s.get .BOOT_STATUS_struct_none = 1 then s
    else match s.bootLoad 0 with
    | some t => (((t.slotShow 0).slotShow 1).slotShow 2).pf3Check
    | none =>
      match s.bootLoad 1 with
      | some t =>
        let (a, p) := (t.slotPart 0, t.slotPart 1)
        let t := ((t.set .STR_SLOT_partition p 0 0).set .STR_SLOT_partition a 0 1).set .STR_SLOT_empty 0 0 0
        ((((t.slotShow 0).slotShow 1).slotShow 2).dirWrite.set .BOOT_EVENTS_struct_fallback 1).pf3Check
      | none => (s.set .BOOT_STATUS_struct_none 1).pf3Check

/-- FW_ALIVE: stage 2 writes fw_alive; a write from another access path is ignored (R504, BOOT_CTRL). -/
def execFwAlive (h : Nat) (s : State) : Host.Outcome State Fault Refusal :=
  .next <|
    if 48 ≤ h ∧ h < 52 ∧ s.get .BOOT_STATUS_stage = 2 ∧ s.get .MGT_on 0 (h - 48) = 1 then s.set .BOOT_CTRL_fw_alive 1 else s

/-- DEVICE_READY: once stage 2 lives, both stacks are trained and the structure image is applied, or struct_none set, stage 1 sets
device_ready; controllers that wait for it become ready (R363, R504). -/
def execDeviceReady (s : State) : Host.Outcome State Fault Refusal :=
  .next <|
    if s.get .BOOT_STATUS_stage = 2 ∧ s.get .BOOT_STATUS_recovery = 0 ∧ s.get .BOOT_CTRL_fw_alive = 1 ∧ s.get .PKG_DIE_INFO_hbm_trained 5 = 1 ∧
        s.get .PKG_DIE_INFO_hbm_trained 6 = 1 ∧ (s.get .STR_loaded = 1 ∨ s.get .BOOT_STATUS_struct_none = 1) ∧ s.get .BOOT_STATUS_device_ready = 0 then
      let s := s.set .BOOT_STATUS_device_ready 1
      s.each (s.keysOf .NC_en_at) (fun k s =>
        if s.get .NVE_CTRL_CFG_enable 0 k.2 = 1 ∧ s.get .NC_csts 0 k.2 % 2 = 0 then s.ctrlReady k.2 else s)
    else s

/-- STAGE2_WATCHDOG: 2 s after the hand-over without fw_alive the management cores are held, the slot is given up for this boot and the
other one, if valid, tried; else RECOVERY (R506). -/
def execStage2Watchdog (s : State) : Host.Outcome State Fault Refusal :=
  .next <|
    if s.get .BOOT_STATUS_stage ≠ 2 ∨ s.get .BOOT_CTRL_fw_alive = 1 ∨ s.get .BOOT_STATUS_recovery = 1 then s
    else
      let s := (s.advanceTo (s.get .BOOT_s2_at + 2 * secUnits)).mgtHold
      let s := (s.set .BOOT_EVENTS_s2_wdog 1).setb .BOOT_s2_bad (s.get .BOOT_STATUS_s2_slot) true
      (s.set .BOOT_STATUS_stage 1).s2Boot

/-- Highest security_version that BOOT_ARB may be raised to: that of either running stage (R516). -/
def State.arbLimit (s : State) : Nat :=
  let a := s.get .BOOT_IMAGE_security_version 0 (s.get .BOOT_STATUS_s1_slot)
  let b := s.get .BOOT_IMAGE_security_version 0 (2 + s.get .BOOT_STATUS_s2_slot)
  if s.get .BOOT_STATUS_stage = 0 then 0 else if s.get .BOOT_STATUS_stage = 1 then a else min a b

/-- BOOT_ARB: a write of a target starts programming, or is rejected (R516); nothing starts after the power-fail warning. -/
def execBootArb (v : Nat) (s : State) : Host.Outcome State Fault Refusal :=
  .next <|
    if s.get .BOOT_ARB_counter < v ∧ v ≤ 64 ∧ v ≤ s.arbLimit ∧ s.get .BOOT_ARB_busy = 0 ∧ s.get .PWR_fail = 0 then
      (s.set .BOOT_ARB_target v).set .BOOT_ARB_busy 1
    else s.set .BOOT_EVENTS_arb_rejected 1

/-- ARB_PROGRAM_DONE: the fuses up to the target are blown (R516). -/
def execArbProgramDone (s : State) : Host.Outcome State Fault Refusal :=
  .next <| if s.get .BOOT_ARB_busy = 0 then s else (s.set .BOOT_ARB_counter (s.get .BOOT_ARB_target)).set .BOOT_ARB_busy 0

/-- A recovery operation ends with a result (BOOT_RCV_STATUS). -/
def State.rcvRes (s : State) (r : Nat) : State := (s.set .BOOT_RCV_STATUS_busy 0).set .BOOT_RCV_STATUS_result r

/-- RECOVERY_BEGIN: an invalid slot, A before B, is selected and erased (R518). -/
def execRecoveryBegin (kind : Nat) (s : State) : Host.Outcome State Fault Refusal :=
  .next <|
    if s.get .BOOT_STATUS_recovery = 0 ∨ s.get .BOOT_RCV_STATUS_open = 1 ∨ s.get .PWR_fail = 1 ∨ (kind ≠ 1 ∧ kind ≠ 2) then s.rcvRes 7
    else match [0, 1].find? (fun j => s.slotInvalid kind j) with
    | none => s.rcvRes 7
    | some j =>
      let s := ((s.slotErase kind j).set .BOOT_RCV_STATUS_open 1).set .BOOT_RCV_STATUS_target j
      ((s.set .BOOT_rcv_kind kind).set .BOOT_rcv_next 0).rcvRes 0

/-- RECOVERY_CHUNK: the buffer's first bytes go to the slot at BOOT_RCV_OFFSET, in rising multiples of 64 KiB that begin at 0 (R518; log entry
64). -/
def execRecoveryChunk (s : State) : Host.Outcome State Fault Refusal :=
  .next <|
    let o := s.get .BOOT_RCV_OFFSET
    let n := s.get .BOOT_RCV_LEN
    let kind := s.get .BOOT_rcv_kind
    let size := if kind = 1 then 0x200000 else 0x800000
    if s.get .BOOT_RCV_STATUS_open = 0 ∨ s.get .PWR_fail = 1 then s.rcvRes 7
    else if o % 65536 ≠ 0 ∨ o < s.get .BOOT_rcv_next ∨ (s.get .BOOT_rcv_next = 0 ∧ o ≠ 0) ∨ n = 0 ∨ 0x200000 < n ∨ size < o + n then s.rcvRes 6
    else
      let b := fixLen n (s.lget .rcvBuf)
      let j := s.get .BOOT_RCV_STATUS_target
      let was := s.lget .stage2Slot 0 j
      let s := if kind = 1 then s.mwrite (s1Slot j + o) b else s.lset .stage2Slot (splice (was ++ List.replicate (o - was.length) 0) o b) 0 j
      (s.set .BOOT_rcv_next (o + 1)).rcvRes 0

/-- RECOVERY_FINISH: the slot is verified; a good stage 1 resets the device, a good stage 2 lets the boot go on (R513, R518). -/
def execRecoveryFinish (s : State) : Host.Outcome State Fault Refusal :=
  .next <|
    if s.get .BOOT_RCV_STATUS_open = 0 then s.rcvRes 7
    else
      let kind := s.get .BOOT_rcv_kind
      let j := s.get .BOOT_RCV_STATUS_target
      let (m, b) := if kind = 1 then s.s1Image j else s.s2Image j
      let r := s.imageValid m b kind (imgSpace kind)
      let s := ((s.set .BOOT_RCV_STATUS_open 0).imgShow ((if kind = 1 then 0 else 2) + j) m r).rcvRes (bootResult r.1)
      if r.1 ≠ 0 then s
      else if kind = 1 then s.deviceReset
      else ((s.set .BOOT_STATUS_recovery 0).setb .BOOT_s2_bad j false).s2Boot

/-- RECOVERY_ABORT: the slot is left invalid (R518). -/
def execRecoveryAbort (s : State) : Host.Outcome State Fault Refusal :=
  .next <|
    if s.get .BOOT_RCV_STATUS_open = 0 then s.rcvRes 7
    else ((s.slotErase (s.get .BOOT_rcv_kind) (s.get .BOOT_RCV_STATUS_target)).set .BOOT_RCV_STATUS_open 0).rcvRes 0

/-- The slot of a stage that an update is written to: in RECOVERY an invalid one, A before B; else the one that does not run (R519, R520;
log entry 65). -/
def State.updSlot (s : State) (kind : Nat) : Nat :=
  if s.get .BOOT_STATUS_recovery = 1 then (if s.slotInvalid kind 0 then 0 else 1)
  else 1 - (if kind = 1 then s.get .BOOT_STATUS_s1_slot else s.get .BOOT_STATUS_s2_slot)

/-- PLDM_UPDATE: a component that passes the checks of Table BOOT-7 is written; STRUCTURE goes to STAGED, outside RECOVERY only; there stage 2 serves
PLDM, in RECOVERY the running stage (R519). The slot directory is written at COMMIT and COLD_APPLY alone (R156).
The answer is 0 when it was applied, else the check that failed, 8 when the component is not offered. -/
def execPldmUpdate (comp : Nat) (image : List Nat) (s : State) : Host.Outcome State Fault Refusal :=
  .next <|
    let man := image.take 65536
    let img := (image.drop 65536).take (leAt man 16 4)
    if comp = 0 ∨ 3 < comp ∨ (comp = 3 ∧ s.get .BOOT_STATUS_recovery = 1) ∨ s.get .PWR_fail = 1 ∨
        (s.get .BOOT_STATUS_recovery = 0 ∧ s.get .BOOT_STATUS_stage ≠ 2) then s.answer [8]
    else
      let r := s.imageValid man img comp (imgSpace comp)
      if r.1 ≠ 0 then s.answer [bootResult r.1]
      else match comp with
      | 1 =>
        let j := s.updSlot 1
        (((s.mzero (s1Slot j) 0x200000).mwrite (s1Slot j) (fixLen 65536 man ++ img)).imgShow j man r).answer [0]
      | 2 =>
        let j := s.updSlot 2
        ((s.lset .stage2Slot (fixLen 65536 man ++ img) 0 j).imgShow (2 + j) man r).answer [0]
      | _ =>
        let p := s.slotPart 2
        let s := ((s.lset .partManifest man 0 p).lset .partBytes img 0 p).set .STR_SLOT_empty 0 0 2
        (s.slotShow 2).answer [0]

/-- FIRMWARE_IMAGE_DOWNLOAD: part of an image is fetched from the host on a PF1 controller; on a VF it is an invalid opcode (R364, R520). -/
def execFirmwareImageDownload (id : Nat) (s : State) : Host.Outcome State Fault Refusal :=
  .next <| s.adminRun id 0x11 (fun k s =>
    if k % 512 ≠ 0 then s.cmdOver id 0x01 0
    else
      let n := (s.sq4 id 40 4 + 1) * 4
      if 0x800000 < s.sq4 id 44 4 * 4 + n then s.cmdOver id 0x02 0 else s.dptrStart id 1 n)

/-- FIRMWARE_COMMIT: the downloaded image is verified and written to a slot; action 011b activates it (R383, R520). With FS = 0 the slot
that does not run is taken (log entry 66). -/
def execFirmwareCommit (id : Nat) (s : State) : Host.Outcome State Fault Refusal :=
  .next <| s.adminRun id 0x10 (fun k s =>
    let d := s.sq4 id 40 4
    let ca := bitsOf d 3 3
    let fs := d % 8
    let run := s.get .BOOT_STATUS_s2_slot
    let j := if fs = 0 then 1 - run else fs - 1
    let b := s.lget .fwImage 0 k
    let man := b.take 65536
    let img := (b.drop 65536).take (leAt man 16 4)
    if k % 512 ≠ 0 then s.cmdOver id 0x01 0
    else if ca = 2 ∨ 3 < ca then s.cmdOver id 0x02 0
    else if 2 < fs ∨ j = run then s.cmdOver id 0x106 0
    else if s.get .PWR_fail = 1 ∨ s.get .ACT_on = 1 then s.cmdOver id 0x06 0
    else
      let r := s.imageValid man img 2 (imgSpace 2)
      if r.1 ≠ 0 then s.cmdOver id 0x107 0
      else
        let s := ((s.lset .stage2Slot (fixLen 65536 man ++ img) 0 j).imgShow (2 + j) man r).lset .fwImage [] 0 k
        if ca = 3 then (((s.set .ACT_on 1).set .ACT_at s.now).set .ACT_cmd (id + 1)).set .ACT_slot j
        else s.cmdOver id 0 0)

/-- Commands that are fetched and not completed on any controller, the waiting Firmware Commit apart (R383). -/
def State.actLeft (s : State) : Bool :=
  (s.lkeysOf .ctrlCmds).any (fun k => (s.lget .ctrlCmds k.1 k.2).any (fun id => decide (id + 1 ≠ s.get .ACT_cmd)))

/-- Fetching resumes and the Firmware Commit completes with a status. -/
def State.actEnd (s : State) (status : Nat) : State :=
  let id := s.get .ACT_cmd - 1
  let s := (s.set .ACT_on 0).set .ACT_cmd 0
  if s.get .CM_st 0 id = 2 then s.cmdOver id status 0 else s

/-- ACTIVATION_DRAIN_DONE: every fetched command has completed within 600 ms: stage 2 is activated, with a new attestation key; open SPDM
sessions end (R383, R522). -/
def execActivationDrainDone (s : State) : Host.Outcome State Fault Refusal :=
  .next <|
    if s.get .ACT_on = 0 ∨ s.actLeft ∨ s.get .ACT_at + 600 * msUnits < s.now then s
    else
      let j := s.get .ACT_slot
      let s := (s.set .BOOT_STATUS_s2_slot j).lset .attestKey (s.attestOf (s.s2Image j).1)
      s.spdmEnd.actEnd 0

/-- ACTIVATION_DRAIN_TIMEOUT: commands are still outstanding at 600 ms: nothing is activated, and the commit completes with status 0x12
(R383). -/
def execActivationDrainTimeout (s : State) : Host.Outcome State Fault Refusal :=
  .next <|
    if s.get .ACT_on = 0 ∨ !s.actLeft then s
    else (s.advanceTo (s.get .ACT_at + 600 * msUnits)).actEnd 0x12

/-- Bytes of the Onyx mailbox (Table BOOT-10). -/
def State.onxBytes (s : State) : List Nat := (List.range 2048).flatMap (fun j => leBytes 4 (s.get .ONX_MBOX 0 j))

/-- A fresh nonce (R525). -/
def State.onxNonce (s : State) : State := s.each (List.range 4) (fun k s => (s.set .ONX_NONCE (s.freeVal 32) 0 k).drew)

/-- The gate ends an evaluation or a window with a result and a new nonce, and is IDLE (Table BOOT-11). -/
def State.onxEnd (s : State) (r : Nat) : State :=
  ((((s.set .ONX_STATUS_result r).set .ONX_STATUS_wait 0).set .ONX_STATUS_window_s 0).lset .onxHeld []).onxNonce

/-- The checks of a submitted command, in the order of their results (R525, Table BOOT-13): 0 when all pass. -/
def State.onxCheck (s : State) (b : List Nat) : Nat :=
  let c := b.getD 6 0
  if leAt b 0 4 ≠ 0x43584E4F ∨ leAt b 4 2 ≠ 1 ∨ b.getD 7 0 ≠ 0 ∨ c = 0 ∨ 5 < c ∨ ((c = 2 ∨ c = 4) ∧ 3 < b.getD 32 0) then 1
  else if leAt b 8 8 ≠ s.get .ONX_SERIAL then 2
  else if leAt b 16 16 ≠ leNat ((List.range 4).flatMap (fun k => leBytes 4 (s.get .ONX_NONCE 0 k))) then 3
  else if sha384 (slice b 96 2688) ≠ s.lget .ownerHash 0 (s.get .ONX_OWNER_used - 1) then 4
  else if !Config.verifies algEcdsa [slice b 96 96, b.take 2784, slice b 2784 96] ∨
      !Config.verifies algMldsa [slice b 192 2592, b.take 2784, slice b 2880 4627] then 5
  else 0

/-- DEBUG_UNLOCK's effect (Table BOOT-12). -/
def State.doUnlock (s : State) : State := (s.set .ONX_STATUS_debug_unlocked 1).spdmEnd.onxEnd 0

/-- REVOKE_KEY's effect: refused when no other slot would remain PROGRAMMED. -/
def State.doRevoke (s : State) (k : Nat) : State :=
  if (List.range 4).any (fun j => decide (j ≠ k ∧ s.get .BOOT_KEY_state 0 j = 1)) then (s.set .BOOT_KEY_state 2 0 k).onxEnd 0 else s.onxEnd 9

/-- TRANSFER_OWNER's effect: refused when all 8 owner slots are used. -/
def State.doTransfer (s : State) (h : List Nat) : State :=
  let n := s.get .ONX_OWNER_used
  if 8 ≤ n then s.onxEnd 0xA
  else (((s.lset .ownerHash h 0 n).set .ONX_OWNER_used (n + 1)).set .ONX_STATUS_seal_broken 0).onxEnd 0

/-- FUSE_PROVISION's effect: refused when the slot is not EMPTY. -/
def State.doProvision (s : State) (k : Nat) (h : List Nat) : State :=
  if s.get .BOOT_KEY_state 0 k ≠ 0 then s.onxEnd 0xB else ((s.lset .bootKeyHash h 0 k).set .BOOT_KEY_state 1 0 k).onxEnd 0

/-- ZEROISE_TENANT's effect (R402, R528). -/
def State.doZeroise (s : State) (t : Nat) : State := (s.keyZeroise t).onxEnd 0

/-- The gate executes command block `b` (Table BOOT-12). After the power-fail warning no fuse is programmed (R530). -/
def State.onxRun (s : State) (b : List Nat) : State :=
  let s := s.set .ONX_STATUS_last_cmd (b.getD 6 0)
  match b.getD 6 0 with
  | 1 => s.doUnlock
  | 5 => s.doZeroise (b.getD 32 0)
  | c =>
    if s.get .PWR_fail = 1 then s
    else if c = 2 then s.doRevoke (b.getD 32 0)
    else if c = 3 then s.doTransfer (slice b 32 48)
    else s.doProvision (b.getD 32 0) (slice b 48 48)

/-- ONYX_SUBMIT: the mailbox's command is evaluated: executed with the jumper fitted, else a window opens (Table BOOT-11). -/
def execOnyxSubmit (s : State) : Host.Outcome State Fault Refusal :=
  .next <|
    if s.get .ONX_STATUS_wait = 1 then s.set .ONX_STATUS_result 6
    else
      let b := s.onxBytes
      let s := s.set .ONX_STATUS_last_cmd (b.getD 6 0)
      match s.onxCheck b with
      | 0 =>
        if s.get .ONX_STATUS_jumper = 1 then s.onxRun b
        else (((s.set .ONX_STATUS_wait 1).set .ONX_STATUS_window_s 60).set .ONX_wait_at s.now).lset .onxHeld (b.take 96)
      | r => s.onxEnd r

/-- ONYX_CANCEL: the window closes (Table BOOT-11). -/
def execOnyxCancel (s : State) : Host.Outcome State Fault Refusal :=
  .next <| if s.get .ONX_STATUS_wait = 0 then s else s.onxEnd 8

/-- PRESENCE_EVENT: the gate samples its inputs on CK_AUX, or on the well's oscillator while that is absent, so that only VAUX is needed: a
press of 100 ms or a fitted jumper executes the command that waits (R524, R526, R564). -/
def execPresenceEvent (jumper button press : Bool) (s : State) : Host.Outcome State Fault Refusal :=
  .next <|
    if s.get .PWR_vaux = 0 then s
    else
      let s := (s.set .ONX_STATUS_jumper (b2n jumper)).set .ONX_STATUS_button (b2n button)
      if s.get .ONX_STATUS_wait = 1 ∧ (jumper ∨ press) then s.onxRun (s.lget .onxHeld) else s

/-- ONYX_WINDOW_EXPIRY: 60 s pass in WAIT (Table BOOT-11). -/
def execOnyxWindowExpiry (s : State) : Host.Outcome State Fault Refusal :=
  .next <| if s.get .ONX_STATUS_wait = 0 then s else (s.advanceTo (s.get .ONX_wait_at + 60 * secUnits)).onxEnd 7

/-- The command block that the gate would execute now: the one that waits, or, with the jumper fitted, the mailbox's when every check
passes (log entry 67). -/
def State.onxReady (s : State) : List Nat :=
  if s.get .ONX_STATUS_wait = 1 then s.lget .onxHeld
  else if s.get .ONX_STATUS_jumper = 1 ∧ s.onxCheck s.onxBytes = 0 then s.onxBytes else []

/-- Whether the gate would execute command `c` with first argument byte `a`. -/
def State.onxMay (s : State) (c a : Nat) : Bool :=
  decide (s.onxReady.getD 6 0 = c) && (decide (c = 1 ∨ c = 3) || decide (s.onxReady.getD 32 0 = a)) && (decide (c = 1 ∨ c = 5) || decide (s.get .PWR_fail = 0))

/-- The gate executes a command, presence having been shown. -/
def State.onxStep (s : State) (c a : Nat) : State := if s.onxMay c a then s.onxRun s.onxReady else s

/-- DEBUG_UNLOCK: the gate executes command 1 (R527). -/
def execDebugUnlock (s : State) : Host.Outcome State Fault Refusal := .next (s.onxStep 1 0)

/-- REVOKE_KEY: the gate executes command 2 for slot `k` (R527). -/
def execRevokeKey (k : Nat) (s : State) : Host.Outcome State Fault Refusal := .next (s.onxStep 2 k)

/-- TRANSFER_OWNER: the gate executes command 3 (R527). -/
def execTransferOwner (s : State) : Host.Outcome State Fault Refusal := .next (s.onxStep 3 0)

/-- FUSE_PROVISION: the gate executes command 4 for slot `k` (R527). -/
def execFuseProvision (k : Nat) (s : State) : Host.Outcome State Fault Refusal := .next (s.onxStep 4 k)

/-- ONYX_ZEROISE_TENANT: the gate executes command 5 for tenant `t` (R402, R527). -/
def execOnyxZeroiseTenant (t : Nat) (s : State) : Host.Outcome State Fault Refusal := .next (s.onxStep 5 t)

/-- SEAL_BREAK: a toggle of the seal loop is missed, or the loop is open when VAUX comes up; without VAUX nothing is seen (R524). -/
def execSealBreak (s : State) : Host.Outcome State Fault Refusal :=
  .next <| if s.get .PWR_vaux = 0 then s else s.set .ONX_STATUS_seal_broken 1

end Sys2Proof.Machine
end

