-- ==== Sys2Proof/Machine/Cells.lean ====
section
/-! DEFINITION. The cells' instruction words: spec file 05, rules R149 to R153, and the meters of spec file 06. A command names a
region, a cell and a packet; the word executed is the one at which the cell stands in the context of the packet's epoch (R162). A
command that finds the cell not standing at a word of its opcode changes nothing. -/

namespace Sys2Proof.Machine

/-- Instance of a cell's view of a packet. -/
def cellIx (h cell : Nat) : Nat := h * 256 + cell

/-- The word at which cell `cell` of region `n` stands for packet `h`, when it is one of opcode `op`: its place in the stage
record and the word. -/
def State.cellAt (s : State) (n cell h op : Nat) : Option (Nat × Nat) :=
  match s.atStage n h with
  | none => none
  | some r =>
    match (List.range (stCount r)).find? (fun k => decide (stKind r = 0 ∧ stCell r k = cell) && s.getb .PKT_todo k 0 h) with
    | none => none
    | some k =>
      match cellRec (s.pktSec h 2) cell with
      | none => none
      | some c =>
        let w := cellWord c (s.get .PKT_cell_word 0 (cellIx h cell))
        if wOp w = op then some (k, w) else none

/-- The cell takes up the packet as it entered the stage, if it has not yet (R151). -/
def State.cellBegin (s : State) (cell h : Nat) : State :=
  if s.get .PKT_cell_on 0 (cellIx h cell) = 1 then s
  else ((s.set .PKT_cell_on 1 0 (cellIx h cell)).set .PKT_cell_phv (s.get .PKT_phv0 0 h) 0 (cellIx h cell)).set .PKT_cell_meta
    (s.get .PKT_meta0 0 h) 0 (cellIx h cell)

/-- An operand as the cell sees it (R188). -/
def State.cellOperand (s : State) (cell h b w : Nat) : Nat :=
  operandOf (s.get .PKT_cell_phv 0 (cellIx h cell)) (s.get .PKT_cell_meta 0 (cellIx h cell)) b w (Config.freeValue s.free)

/-- A write by a cell: to its own view and to the packet (R151, R188). -/
def State.cellPut (s : State) (cell h b w v : Nat) : State :=
  let i := cellIx h cell
  let s := if b + w ≤ 4096 then s.set .PKT_cell_phv (putBits (s.get .PKT_cell_phv 0 i) (4096 - b - w) w v) 0 i
    else if 4096 ≤ b ∧ b + w ≤ 5120 then s.set .PKT_cell_meta (putBits (s.get .PKT_cell_meta 0 i) (b - 4096) w v) 0 i
    else s
  s.putOperand h b w v

/-- The cell is done with the packet; when every cell of the group is, the packet passes to the next stage (R151). -/
def State.cellEnd (s : State) (cell h k : Nat) : State :=
  let i := cellIx h cell
  let s := (((s.set .PKT_cell_on 0 0 i).set .PKT_cell_word 0 0 i).set .PKT_cell_phv 0 0 i).set .PKT_cell_meta 0 0 i
  let s := s.setb .PKT_todo k false 0 h
  if s.get .PKT_todo 0 h = 0 then s.stageNext h else s

/-- The cell goes to the word's next, or passes the packet on (R152, R153). -/
def State.cellStep (s : State) (cell h k w : Nat) : State :=
  if wNext w = 0xFF then s.cellEnd cell h k else s.set .PKT_cell_word (wNext w) 0 (cellIx h cell)

/-- A predicate of a cell's local state. -/
def State.pred (s : State) (n cell p : Nat) : Bool := s.getb .CELL_pred p n cell

/-- One word executed where the cell stands at opcode `op`: `f` is its action, made when the word is not predicated or its
predicate is 1 (Table STRC-6); then the cell goes on, unless the packet is gone or its punt waits for a span. -/
def State.cellDo (s : State) (n cell h op : Nat) (f : Nat → State → State) : State :=
  match s.cellAt n cell h op with
  | none => s
  | some (k, w) =>
    let s := s.cellBegin cell h
    let s := if wPredEn w && !s.pred n cell (wPred w) then s else f w s
    if s.get .PKT_live 0 h = 0 ∨ s.get .PKT_puntr 0 h ≠ 0 then s else s.cellStep cell h k w

/-- Operand A. -/
def State.opA (s : State) (cell h w : Nat) : Nat := s.cellOperand cell h (wA w) (wWidth w)
/-- Operand B: imm where b_imm is set, else the operand at b_off. -/
def State.opB (s : State) (cell h w : Nat) : Nat :=
  if wBimm w then wImm w % 2 ^ wWidth w else s.cellOperand cell h (wB w) (wWidth w)

/-- Draws used up by operands that ran past their space (log entry 13). -/
def State.opDrawn (s : State) (w : Nat) : State :=
  (s.operandDrawn (wA w) (wWidth w)).operandDrawn (if wBimm w then 0 else wB w) (wWidth w)

/-- The shape of the two-operand opcodes: d becomes `f` of A, B and the width, modulo 2^width (Table STRC-7). -/
def State.alu (s : State) (n cell h op : Nat) (f : Nat → Nat → Nat → Nat) : State :=
  s.cellDo n cell h op (fun w s =>
    (s.cellPut cell h (wD w) (wWidth w) (f (s.opA cell h w) (s.opB cell h w) (wWidth w))).opDrawn w)

/-- NOP: none. -/
def execNop (n cell h : Nat) (s : State) : Host.Outcome State Fault Refusal := .next (s.cellDo n cell h 0x00 (fun _ s => s))

/-- MOV: d becomes B. -/
def execMov (n cell h : Nat) (s : State) : Host.Outcome State Fault Refusal := .next (s.alu n cell h 0x01 (fun _ b _ => b))

/-- ADD: d becomes A + B modulo 2^width. -/
def execAdd (n cell h : Nat) (s : State) : Host.Outcome State Fault Refusal := .next (s.alu n cell h 0x02 (fun a b _ => a + b))

/-- SUB: d becomes A − B modulo 2^width. -/
def execSub (n cell h : Nat) (s : State) : Host.Outcome State Fault Refusal :=
  .next (s.alu n cell h 0x03 (fun a b w => a + 2 ^ w - b % 2 ^ w))

/-- AND: d becomes A AND B. -/
def execAnd (n cell h : Nat) (s : State) : Host.Outcome State Fault Refusal := .next (s.alu n cell h 0x04 (fun a b _ => a &&& b))

/-- OR: d becomes A OR B. -/
def execOr (n cell h : Nat) (s : State) : Host.Outcome State Fault Refusal := .next (s.alu n cell h 0x05 (fun a b _ => a ||| b))

/-- XOR: d becomes A xor B. -/
def execXor (n cell h : Nat) (s : State) : Host.Outcome State Fault Refusal := .next (s.alu n cell h 0x06 (fun a b _ => a ^^^ b))

/-- SHL: d becomes A shifted left by B[5:0]. -/
def execShl (n cell h : Nat) (s : State) : Host.Outcome State Fault Refusal :=
  .next (s.alu n cell h 0x07 (fun a b _ => a * 2 ^ (b % 64)))

/-- SHR: d becomes A shifted right by B[5:0]. -/
def execShr (n cell h : Nat) (s : State) : Host.Outcome State Fault Refusal :=
  .next (s.alu n cell h 0x08 (fun a b _ => a / 2 ^ (b % 64)))

/-- The compares: predicate pred_sel becomes `f` of A and B. -/
def State.cmp (s : State) (n cell h op : Nat) (f : Nat → Nat → Bool) : State :=
  s.cellDo n cell h op (fun w s => (s.setb .CELL_pred (wPred w) (f (s.opA cell h w) (s.opB cell h w)) n cell).opDrawn w)

/-- CMP_EQ: the predicate becomes A = B. -/
def execCmpEq (n cell h : Nat) (s : State) : Host.Outcome State Fault Refusal := .next (s.cmp n cell h 0x09 (fun a b => decide (a = b)))

/-- CMP_LT: the predicate becomes A < B, unsigned. -/
def execCmpLt (n cell h : Nat) (s : State) : Host.Outcome State Fault Refusal := .next (s.cmp n cell h 0x0A (fun a b => decide (a < b)))

/-- HASH: the 32 bits at d become the hash of A with seed imm; the spec does not give the hash (log entry 5). -/
def execHash (n cell h : Nat) (s : State) : Host.Outcome State Fault Refusal :=
  .next (s.cellDo n cell h 0x0B (fun w s =>
    (s.cellPut cell h (wD w) 32 (Config.cellHash (s.opA cell h w) (wImm w))).operandDrawn (wA w) (wWidth w)))

/-- Tokens of a bucket of rate `r` and burst `b` brought forward by `dt` (R208). -/
def tokens (have_ r b dt : Nat) : Nat := min (b * 32000) (have_ + r * dt)

/-- Colour of a packet of `len` bytes and the tokens left, for a pre-colour (RFC 2698, R208). -/
def meterColour (tc tp len pre : Nat) : Nat × Nat × Nat :=
  let b := len * 32000
  if 2 ≤ pre ∨ tp < b then (2, tc, tp)
  else if pre = 1 ∨ tc < b then (1, tc, tp - b)
  else (0, tc - b, tp - b)

/-- Length B of a packet for a meter (R209): as received, or, host-originated or injected, as it will be sent without FCS. -/
def State.meterLen (s : State) (h : Nat) : Nat :=
  if s.fromPort h ∧ s.get .PKT_wire 0 h ≠ 0 then s.get .PKT_wire 0 h else (s.lget .pktBytes 0 h).length

/-- A meter applied to a packet: its colour, and the tokens kept (R208, R210). -/
def State.meterApply (s : State) (n k h pre : Nat) : State × Nat :=
  if s.get .POL_en n k = 0 then (s, 0)
  else
    let dt := s.now - s.get .POL_at n k
    let tc := tokens (s.get .POL_tc n k) (s.get .POL_cir n k) (s.get .POL_cbs n k) dt
    let tp := tokens (s.get .POL_tp n k) (s.get .POL_pir n k) (s.get .POL_pbs n k) dt
    let (c, tc, tp) := meterColour tc tp (s.meterLen h) (if s.get .POL_aware n k = 1 then pre else 0)
    (((s.set .POL_tc tc n k).set .POL_tp tp n k).set .POL_at s.now n k, c)

/-- METER: policer ref is applied and the colour written to d (R208 to R210). A ref past the 8,192 policers names the one of
its low 13 bits (log entry 29). -/
def execMeter (n cell h : Nat) (s : State) : Host.Outcome State Fault Refusal :=
  .next (s.cellDo n cell h 0x23 (fun w s =>
    let (s, c) := s.meterApply n (wRef w % 8192) h (s.opA cell h w % 4)
    (s.cellPut cell h (wD w) (wWidth w) c).operandDrawn (wA w) (wWidth w)))

/-- PUNT: the packet goes to core queue ref with reason OPCODE (R197, R411 to R414); it leaves its pipeline. -/
def execPunt (n cell h : Nat) (s : State) : Host.Outcome State Fault Refusal :=
  .next (s.cellDo n cell h 0x30 (fun w s => (s.fragRecord h).puntTo h (wRef w) 0))

/-- DROP: the packet is dropped with reason code imm[15:0]; it leaves its pipeline. -/
def execDrop (n cell h : Nat) (s : State) : Host.Outcome State Fault Refusal :=
  .next (s.cellDo n cell h 0x31 (fun w s => (s.fragRecord h).dropWith h (wImm w % 65536) 0x19))

/-- FORWARD: fwd_dest becomes A[21:0] and fwd_set 1 (R190). -/
def execForward (n cell h : Nat) (s : State) : Host.Outcome State Fault Refusal :=
  .next (s.cellDo n cell h 0x32 (fun w s =>
    ((s.cellPut cell h (4096 + 988) 22 (s.opA cell h w)).cellPut cell h (4096 + 1010) 1 1).operandDrawn (wA w) (wWidth w)))

/-- SET_TS_OP: ts_op becomes imm[2:0] and ptp_off imm[24:16]. -/
def execSetTsOp (n cell h : Nat) (s : State) : Host.Outcome State Fault Refusal :=
  .next (s.cellDo n cell h 0x33 (fun w s =>
    (s.cellPut cell h (4096 + 976) 3 (wImm w)).cellPut cell h (4096 + 979) 9 (wImm w / 65536)))

/-- SET_EPOCH_HINT executes as NOP. -/
def execSetEpochHint (n cell h : Nat) (s : State) : Host.Outcome State Fault Refusal :=
  .next (s.cellDo n cell h 0x34 (fun _ s => s))

end Sys2Proof.Machine
end

