-- ==== Sys2Proof/Machine/ExactMatch.lean ====
section
/-! DEFINITION. Exact-match tables: lookups, learning, ageing and the table commands of spec file 07. A command runs on a channel,
reads its key, value, header and cursor there, and leaves its result there (R231, Table EXM-7). -/

namespace Sys2Proof.Machine

/-- Key bytes `kb` gathered from operands of width 8 at `off` up (R220). -/
def State.cellKey (s : State) (cell h off kb : Nat) : Nat :=
  leNat ((List.range kb).map (fun i => s.cellOperand cell h (off + 8 * i) 8))

/-- Result slot `r` of a cell made `v` (R219, R244). -/
def State.cellRes (s : State) (n cell r v : Nat) : State :=
  s.set .CELL_res (putBits (s.get .CELL_res n cell) (3 * r) 3 v) n cell

/-- Place that a lookup from region `n` reads (R217): the replica of its own region where there is one (log entry 30). -/
def lookupPlace (l : List Nat) (n key : Nat) : Nat :=
  let p := keyPlaces l key
  if layRepl l ∧ p.contains n then n else p.headD 0

/-- A hit or learn touches the entry: its age stamp becomes the tick now, in every place that holds it (R222; log entry 30). -/
def State.emTouch (s : State) (t ti key : Nat) : State :=
  let st := s.emStamp (s.lay ti)
  (s.emEdit t ti key (fun e => putBits e 16 16 st)).emStamped (s.lay ti)

/-- A lookup by a cell (R219, R221). -/
def State.emLookup (s : State) (n cell h w : Nat) : State :=
  match s.pktTi h (wRef w) with
  | none => (s.cellRes n cell (wRes w) 0).cellPut cell h (4096 + 512) 256 0
  | some ti =>
    let l := s.lay ti
    let key := s.cellKey cell h (wA w) (layKey l)
    let pl := lookupPlace l n key
    if s.placeUp pl then
      match s.emFind pl (s.emLive ti) (layKey l) key with
      | some k =>
        let e := s.exe pl (s.emLive ti) k
        let s := (s.cellRes n cell (wRes w) 1).cellPut cell h (4096 + 512) 256 (1 + bitsOf e 4 5 * 4 + exeVal l e * 2 ^ 32)
        s.when (layFlag l 1 && decide (s.liveTi (wRef w) = some ti)) (fun s => s.emTouch (wRef w) ti key)
      | none => (s.cellRes n cell (wRes w) 0).cellPut cell h (4096 + 512) 256 0
    else ((s.cellRes n cell (wRes w) 2).cellPut cell h (4096 + 512) 256 2).bump .EXM_REGION_CNT_shard_down_miss n

/-- LOOKUP_EM: an exact-match lookup on table ref with key A, its result to res and the metadata (R219, R220). -/
def execLookupEm (n cell h : Nat) (s : State) : Host.Outcome State Fault Refusal :=
  .next (s.cellDo n cell h 0x20 (fun w s => s.emLookup n cell h w))

/-- Live damping records of a hash-table block at a place. -/
def State.dampCount (s : State) (pl blk : Nat) : Nat :=
  ((s.keysOf .DAMP_at).filter (fun k => decide (k.1 = pl ∧ s.get .DAMP_blk k.1 k.2 = blk ∧ s.now < s.get .DAMP_at k.1 k.2))).length

/-- Instance of a key's damping record. -/
def dampIx (ti key : Nat) : Nat := ti * 2 ^ 224 + key

/-- A damping record starts, unless the block that would keep it has none free, which is counted (R235; which of the two
blocks of a region keeps it is a free value, log entry 31). -/
def State.dampStart (s : State) (l : List Nat) (pl ti key : Nat) : State :=
  let blk := s.freeVal 1
  if 4096 ≤ s.dampCount pl blk then (s.drew).bump .EXM_REGION_CNT_tracker_full (evtRegion l pl)
  else ((s.drew).set .DAMP_at (s.now + layDamp l * usUnits) pl (dampIx ti key)).set .DAMP_blk blk pl (dampIx ti key) |>.set
    .DAMP_cand 0 pl (dampIx ti key)

/-- A learn of key `key` with value `v` from port `q`, at the key's place: the first row of Table EXM-8 that holds (R234 to
R237). -/
def State.emLearn (s : State) (t ti key v q : Nat) : State :=
  let l := s.lay ti
  let pl := (keyPlaces l key).headD 0
  let fail := fun (s : State) => s.bump .EXM_TABLE_STAT_learn_fail 0 t
  if !layFlag l 0 then fail s
  else if !s.placeUp pl then fail s
  else match s.emEntry ti key with
  | none =>
    if s.quotaFull t ti key then fail (s.quotaHit ti key)
    else
      let hdr := 1 + 8 + q % 32 * 16 + s.emStamp l * 2 ^ 16
      match s.emInsert t ti key (exeMake (layKey l) hdr key v) with
      | none => (fail s).rehashAsk t pl key l
      | some s =>
        let s := ((s.emStamped l).bump .EXM_TABLE_STAT_learns 0 t).dampStart l pl ti key
        s.when (layFlag l 3) (fun s => s.exmEvent 1 (evtRegion l pl) t (q % 32) 0 0 key)
  | some e =>
    let old := bitsOf e 4 5
    if old = q % 32 then
      ((s.emEdit t ti key (fun e => exeMake (layKey l) (e % 2 ^ 32) key v)).emTouch t ti key).bump .EXM_REGION_CNT_refreshes
        (evtRegion l pl)
    else if e.testBit 1 then s.bump .EXM_TABLE_STAT_static_conflict 0 t
    else if s.now < s.get .DAMP_at pl (dampIx ti key) then
      (s.set .DAMP_cand (q % 32 + 1) pl (dampIx ti key)).bump .EXM_TABLE_STAT_move_cands 0 t
    else if e.testBit 13 ∧ layFlag l 4 then s.bump .EXM_TABLE_STAT_move_cands 0 t
    else
      let mc := min 15 (bitsOf e 9 4 + 1)
      let flap := decide (layFlap l < bitsOf e 9 4 + 1)
      let s := s.emEdit t ti key (fun e =>
        exeMake (layKey l) (setBit (putBits (putBits (e % 2 ^ 32) 4 5 q) 9 4 mc) 13 (e.testBit 13 || flap)) key v)
      let s := ((s.emTouch t ti key).bump .EXM_TABLE_STAT_moves 0 t).dampStart l pl ti key
      let s := s.when (layFlag l 3) (fun s => s.exmEvent 2 (evtRegion l pl) t (q % 32) old mc key)
      s.when flap (fun s => (s.bump .EXM_TABLE_STAT_flaps 0 t).exmEvent 3 (evtRegion l pl) t (q % 32) old mc key)

/-- LEARN: key A with value B into table ref (R220, R234); one of an old-epoch packet into a rebuilt table is discarded (R169). -/
def execLearn (n cell h : Nat) (s : State) : Host.Outcome State Fault Refusal :=
  .next (s.cellDo n cell h 0x22 (fun w s =>
    match s.pktTi h (wRef w) with
    | none => s.bump .EXM_TABLE_STAT_learn_fail 0 (wRef w)
    | some ti =>
      let l := s.lay ti
      if s.liveTi (wRef w) = some ti then
        s.emLearn (wRef w) ti (s.cellKey cell h (wA w) (layKey l)) (s.cellKey cell h (wB w) (layVal l)) (s.pktInPort h)
      else s.bump .STR_DROP_CNT_stale_learns))

/-- DAMPING_RECORD_EXPIRY: once its damp_us have passed a damping record is free (R235). -/
def execDampingRecordExpiry (pl i : Nat) (s : State) : Host.Outcome State Fault Refusal :=
  .next (if s.get .DAMP_at pl i = 0 then s
    else (((s.advanceTo (s.get .DAMP_at pl i)).set .DAMP_at 0 pl i).set .DAMP_blk 0 pl i).set .DAMP_cand 0 pl i)

/-- AGEING_SCAN: the scanner visits a slot of table `t`'s live instance at a place: an entry older than max_age is deleted as
DELETE does, with an AGED event where age_notify is 1 (R223). -/
def execAgeingScan (t pl slot : Nat) (s : State) : Host.Outcome State Fault Refusal :=
  .next <|
    match s.liveTi t with
    | none => s
    | some ti =>
      let l := s.lay ti
      let e := s.exe pl (s.emLive ti) slot
      if layExact l ∧ layAge l ≠ 0xFF ∧ (layPlaces l).contains pl ∧ s.placeUp pl ∧ e.testBit 0 ∧ !e.testBit 1 ∧
          layMaxAge l < (s.emStamp l + 65536 - bitsOf e 16 16) % 65536 then
        let key := exeKey (layKey l) e
        let s := s.emDelete t ti key
        s.when (layFlag l 2) (fun s => s.exmEvent 4 (evtRegion l pl) t (bitsOf e 4 5) 0 (bitsOf e 9 4) key)
      else s

/-- The words of a channel from `f`, little-endian. -/
def State.chWords (s : State) (f : Field) (n c : Nat) : Nat :=
  leNat ((List.range n).flatMap (fun j => leBytes 4 (s.get f 0 (c * n + j))))

/-- The low `len` bytes of a channel's words of `f` made those of `v`; the bytes above stay. -/
def State.chPut (s : State) (f : Field) (n c len v : Nat) : State :=
  let old := s.chWords f n c
  let new := putBits old 0 (8 * len) v
  s.each (List.range n) (fun j s => s.set f (bitsOf new (32 * j) 32) 0 (c * n + j))

/-- A command ends with a result (Table EXM-7). -/
def State.exmRes (s : State) (c r : Nat) : State := (s.set .EXM_CH_busy 0 0 c).set .EXM_CH_result r 0 c

/-- Whether a table is REPLICATED and its home region, which commands on it read and iterate, is offline (R221, R233). -/
def State.homeDown (s : State) (l : List Nat) : Bool :=
  decide (layKind l = 0) && layRepl l && !s.placeUp ((layPlaces l).headD 0)

/-- A table command on channel `c`: BAD_TABLE where no live exact-match table has the id, OFFLINE while the home region of a REPLICATED
one is offline (R221, Table EXM-7). `f` takes the instance and its layout. -/
def State.exmCmd (s : State) (c t : Nat) (f : Nat → List Nat → State → State) : State :=
  match s.liveTi t with
  | some ti =>
    if !layExact (s.lay ti) then s.exmRes c 5
    else if s.homeDown (s.lay ti) then s.exmRes c 6 else f ti (s.lay ti) s
  | none => s.exmRes c 5

/-- A table command on the key in EXM_CH_KEY, addressed to the key's shard, stack or home region; OFFLINE while that region is
offline (R221, R231). -/
def State.exmKeyCmd (s : State) (c t : Nat) (f : Nat → List Nat → Nat → State → State) : State :=
  s.exmCmd c t (fun ti l s =>
    let key := s.chWords .EXM_CH_key 7 c % 2 ^ (8 * layKey l)
    if s.placeUp ((keyPlaces l key).headD 0) then f ti l key s else s.exmRes c 6)

/-- An entry's header and value are returned (Table EXM-4). -/
def State.exmShow (s : State) (c : Nat) (l : List Nat) (e : Nat) : State :=
  (s.set .EXM_CH_hdr e 0 c).chPut .EXM_CH_value 8 c (layVal l) (exeVal l e)

/-- EXM_SEARCH: header and value of the key's entry, or NOT_FOUND. -/
def execExmSearch (c t : Nat) (s : State) : Host.Outcome State Fault Refusal :=
  .next (s.exmKeyCmd c t (fun ti l key s =>
    match s.emEntry ti key with
    | some e => (s.exmShow c l e).exmRes c 0
    | none => s.exmRes c 1))

/-- EXM_INSERT: the key with its value, static and port; EXISTS when present, NO_ROOM without room (R225) or past the tenant's
quota (R469). -/
def execExmInsert (c t : Nat) (s : State) : Host.Outcome State Fault Refusal :=
  .next (s.exmKeyCmd c t (fun ti l key s =>
    match s.emEntry ti key with
    | some _ => s.exmRes c 2
    | none =>
      if s.quotaFull t ti key then (s.quotaHit ti key).exmRes c 3
      else
        let h := s.get .EXM_CH_hdr 0 c
        let hdr := 1 + bitsOf h 1 1 * 2 + bitsOf h 4 5 * 16 + s.emStamp l * 2 ^ 16
        match s.emInsert t ti key (exeMake (layKey l) hdr key (s.chWords .EXM_CH_value 8 c % 2 ^ (8 * layVal l))) with
        | some s => (s.emStamped l).exmRes c 0
        | none => (s.rehashAsk t ((keyPlaces l key).headD 0) key l).exmRes c 3))

/-- EXM_UPDATE: value, static and port replaced, and move_count and flapping cleared when clear_moves is 1 (R236); the entry is
touched (R222). -/
def execExmUpdate (c t : Nat) (clearMoves : Bool) (s : State) : Host.Outcome State Fault Refusal :=
  .next (s.exmKeyCmd c t (fun ti l key s =>
    match s.emEntry ti key with
    | none => s.exmRes c 1
    | some _ =>
      let h := s.get .EXM_CH_hdr 0 c
      let v := s.chWords .EXM_CH_value 8 c % 2 ^ (8 * layVal l)
      ((s.emEdit t ti key (fun e =>
        let hd := putBits (putBits (e % 2 ^ 32) 1 1 (bitsOf h 1 1)) 4 5 (bitsOf h 4 5)
        exeMake (layKey l) (if clearMoves then putBits hd 9 5 0 else hd) key v)).emTouch t ti key).exmRes c 0))

/-- EXM_DELETE: the key's entry removed from every place, or NOT_FOUND (R226). -/
def execExmDelete (c t : Nat) (s : State) : Host.Outcome State Fault Refusal :=
  .next (s.exmKeyCmd c t (fun ti _ key s =>
    match s.emEntry ti key with
    | some _ => (s.emDelete t ti key).exmRes c 0
    | none => s.exmRes c 1))

/-- Region or stack number of a place, as a cursor holds it (Table EXM-6). -/
def cursorPlace (pl : Nat) : Nat := pl % 8

/-- Valid entries of a table's live instance from a cursor on, in storage order: place and slot (R233). Offline shards are passed
over. -/
def State.exmFrom (s : State) (ti cursor : Nat) : List (Nat × Nat) :=
  let px := s.emLive ti
  let p0 := bitsOf cursor 28 3
  (countPlaces (s.lay ti)).flatMap (fun pl =>
    if !s.placeUp pl ∨ cursorPlace pl < p0 then []
    else ((s.keysOf .EXE).filter (fun k => decide (k.1 = pl ∧ k.2 / 2 ^ 28 = px ∧ (p0 < cursorPlace pl ∨ cursor % 2 ^ 28 ≤ k.2 % 2 ^ 28)) &&
      (s.get .EXE pl k.2).testBit 0)).map (fun k => (pl, k.2 % 2 ^ 28)))

/-- The cursor after an entry. -/
def cursorAfter (x : Nat × Nat) : Nat := cursorPlace x.1 * 2 ^ 28 + (x.2 + 1)

/-- EXM_NEXT: the first valid entry at or after the cursor, and the cursor after it, or END (R233). -/
def execExmNext (c t : Nat) (s : State) : Host.Outcome State Fault Refusal :=
  .next (s.exmCmd c t (fun ti l s =>
    match s.exmFrom ti (s.get .EXM_CH_cursor 0 c) with
    | [] => s.exmRes c 7
    | x :: _ =>
      let e := s.exe x.1 (s.emLive ti) x.2
      let s := (s.exmShow c l e).chPut .EXM_CH_key 7 c (layKey l) (exeKey (layKey l) e)
      (s.set .EXM_CH_cursor (cursorAfter x) 0 c).exmRes c 0))

/-- Every entry that matches is deleted, static ones only where asked (R232). -/
def State.exmFlush (s : State) (t ti : Nat) (static : Bool) (p : Nat → Bool) : State :=
  let kb := layKey (s.lay ti)
  s.each ((s.exmFrom ti 0).map (fun x => s.exe x.1 (s.emLive ti) x.2)) (fun e s =>
    if p e && (static || !e.testBit 1) then s.emDelete t ti (exeKey kb e) else s)

/-- FLUSH_BY_PORT: entries whose port is EXM_CH_KEY[0][4:0] are deleted. -/
def execFlushByPort (c t : Nat) (static : Bool) (s : State) : Host.Outcome State Fault Refusal :=
  .next (s.exmCmd c t (fun ti _ s =>
    let q := s.get .EXM_CH_key 0 (c * 7) % 32
    (s.exmFlush t ti static (fun e => decide (bitsOf e 4 5 = q))).exmRes c 0))

/-- FLUSH_BY_TENANT: entries whose key byte tenant_off is EXM_CH_KEY[0][7:0] are deleted; BAD_TABLE without a tenant_off. -/
def execFlushByTenant (c t : Nat) (static : Bool) (s : State) : Host.Outcome State Fault Refusal :=
  .next (s.exmCmd c t (fun ti l s =>
    if layTen l = 0xFF then s.exmRes c 5
    else
      let x := s.get .EXM_CH_key 0 (c * 7) % 256
      (s.exmFlush t ti static (fun e => decide (bitsOf e (32 + 8 * layTen l) 8 = x))).exmRes c 0))

/-- Whether every place of a table has room for a shadow of 2^`log2` buckets (R227). -/
def State.shadowRoom (s : State) (l : List Nat) (log2 : Nat) : Bool :=
  (layPlaces l).all (fun pl =>
    if pl < 8 then decide (s.regionMem pl + emBytes l log2 ≤ 2 ^ 24) else decide (s.stackMem (pl - 8) + 128 * 2 ^ log2 ≤ 2 ^ 32))

/-- SHADOW_OPEN: an empty shadow with seed0, seed1 and log2_buckets of EXM_CH_KEY[0..2]; NO_MEMORY where table memory is short,
SHADOW_STATE where one is open (R227). -/
def execShadowOpen (c t : Nat) (s : State) : Host.Outcome State Fault Refusal :=
  .next (s.exmCmd c t (fun ti l s =>
    let g := s.get .EXM_CH_key 0 (c * 7 + 2)
    let px := s.emShadow ti
    if s.get .EXM_TABLE_STAT_shadow 0 t ≠ 0 then s.exmRes c 9
    else if 26 ≤ g ∨ !s.shadowRoom l g then s.exmRes c 8
    else
      let s := (((s.emClear px (fun _ => true)).set .EXI_seed0 (s.get .EXM_CH_key 0 (c * 7)) 0 px).set .EXI_seed1
        (s.get .EXM_CH_key 0 (c * 7 + 1)) 0 px).set .EXI_log2 g 0 px
      ((s.set .EXM_TABLE_STAT_shadow 1 0 t).set .EXM_sh_end 0 0 t).exmRes c 0))

/-- One entry of the live instance is copied to the shadow where its key is absent there (R228). -/
def State.shadowCopy1 (s : State) (t ti : Nat) (x : Nat × Nat) : State :=
  let l := s.lay ti
  let e := s.exe x.1 (s.emLive ti) x.2
  let key := exeKey (layKey l) e
  let pls := if layKind l = 0 ∧ layRepl l then (layPlaces l).filter (fun p => s.placeUp p) else [x.1]
  if (s.emFind x.1 (s.emShadow ti) (layKey l) key).isSome then s
  else match s.emPutAll (s.emShadow ti) (layKey l) key e pls with
    | some s => s
    | none => s.shadowFail t

/-- SHADOW_COPY: up to 4,096 entries from the cursor on, and the next cursor, or END (R228). -/
def execShadowCopy (c t : Nat) (s : State) : Host.Outcome State Fault Refusal :=
  .next (s.exmCmd c t (fun ti _ s =>
    if s.get .EXM_TABLE_STAT_shadow 0 t = 0 then s.exmRes c 9
    else
      let l := s.exmFrom ti (s.get .EXM_CH_cursor 0 c)
      let s := s.each (l.take 4096) (fun x s => s.shadowCopy1 t ti x)
      match (l.take 4096).getLast?, l.drop 4096 with
      | some x, _ :: _ => (s.set .EXM_CH_cursor (cursorAfter x) 0 c).exmRes c 0
      | _, _ => (s.set .EXM_sh_end 1 0 t).exmRes c 7))

/-- SHADOW_SWAP: NO_ROOM when FAILED, INCOMPLETE without an END, else the shadow becomes live and the old instance is freed
(R229). -/
def execShadowSwap (c t : Nat) (s : State) : Host.Outcome State Fault Refusal :=
  .next (s.exmCmd c t (fun ti _ s =>
    match s.get .EXM_TABLE_STAT_shadow 0 t with
    | 0 => s.exmRes c 9
    | 1 =>
      if s.get .EXM_sh_end 0 t = 0 then s.exmRes c 0xA
      else
        let s := s.emClear (s.emLive ti) (fun _ => true)
        let s := ((s.set .EXI_half (1 - s.get .EXI_half 0 ti) 0 ti).set .EXM_TABLE_STAT_shadow 0 0 t).set .EXM_sh_end 0 0 t
        ((s.set .EXM_TABLE_STAT_rehash_req 0 0 t).emStat t).exmRes c 0
    | _ => s.exmRes c 3))

/-- SHADOW_DISCARD: the shadow is freed and mirroring stops. -/
def execShadowDiscard (c t : Nat) (s : State) : Host.Outcome State Fault Refusal :=
  .next (s.exmCmd c t (fun ti _ s =>
    if s.get .EXM_TABLE_STAT_shadow 0 t = 0 then s.exmRes c 9 else (s.shadowDrop t ti).exmRes c 0))

end Sys2Proof.Machine
end

