-- ==== Sys2Proof/Machine/Parse.lean ====
section
/-! DEFINITION. The parser, the tree-walk block, pipeline exit, fragments and policers: spec file 06, rules R184 to R211. -/

namespace Sys2Proof.Machine

/-- What a walk of the parse graph has found so far. -/
structure Walk where
  /-- Byte offset of the next header. -/
  off : Nat
  phv : Nat
  /-- Header stack, oldest first: type and byte offset. -/
  stack : List (Nat × Nat)
  /-- The packet is a fragment, and a first one. -/
  frag : Bool
  first : Bool
  /-- Bytes of the fragment's key (R202). -/
  key : List Nat
  /-- Offset of the last IPv6 header. -/
  v6 : Nat
deriving DecidableEq, Repr

/-- A bit field of a header at byte `o` of the frame; none where it runs past the frame's end. -/
def hdrField (f : List Nat) (o off w : Nat) : Option Nat :=
  if 8 * f.length < 8 * o + off + w then none
  else
    let a := off / 8
    let n := (off % 8 + w + 7) / 8
    some (bitsOf (beAt f (o + a) n) (8 * n - off % 8 - w) w)

/-- One's complement sum of 16-bit words. -/
def onesSum : Nat → List Nat → Nat
  | acc, a :: b :: r => onesSum ((acc + a * 256 + b) % 65536 + (acc + a * 256 + b) / 65536) r
  | acc, [a] => (acc + a * 256) % 65536 + (acc + a * 256) / 65536
  | acc, [] => acc

/-- Whether a fragment's offset and payload length are malformed (Table PARS-5). -/
def fragBad (off mf len : Nat) : Bool := decide (65535 < off * 8 + len ∨ (mf = 1 ∧ len % 8 ≠ 0))

/-- The checks of a node's role (Table PARS-4): failure reason, 0 none, and what is now known of the packet as a fragment. -/
def roleCheck (f : List Nat) (role : Nat) (csum : Bool) (w : Walk) : Nat × Walk :=
  let o := w.off
  match role with
  | 1 =>
    let ihl := f.getD o 0 % 16
    let tl := beAt f (o + 2) 2
    let fo := beAt f (o + 6) 2
    if f.getD o 0 / 16 ≠ 4 then (6, w)
    else if ihl < 5 ∨ tl < 4 * ihl then (4, w)
    else if csum ∧ onesSum 0 (slice f o (4 * ihl)) ≠ 0xFFFF then (5, w)
    else if fo % 0x4000 ≠ 0 then
      if fragBad (fo % 0x2000) (fo / 0x2000 % 2) (tl - 4 * ihl) then (8, w)
      else if w.frag then (0, w)
      else (0, { w with frag := true, first := decide (fo % 0x2000 = 0), key := slice f (o + 12) 8 ++ [f.getD (o + 9) 0] ++ slice f (o + 4) 2 })
    else (0, w)
  | 2 => if f.getD o 0 / 16 ≠ 6 then (6, w) else (0, { w with v6 := o })
  | 3 =>
    let fo := beAt f (o + 2) 2
    if fragBad (fo / 8) (fo % 2) (beAt f (w.v6 + 4) 2 + w.v6 + 40 - (o + 8)) then (8, w)
    else if w.frag then (0, w)
    else (0, { w with frag := true, first := decide (fo / 8 = 0), key := slice f (w.v6 + 8) 32 ++ [f.getD o 0] ++ slice f (o + 4) 4 })
  | _ => (0, w)

/-- The node that a select value leads to (R185 step 7). -/
def pgSelect (r : List Nat) (v : Nat) : Nat :=
  match (List.range (r.getD 17 0)).find? (fun k =>
    let t := slice r (32 + 12 * k) 12
    decide (v &&& leAt t 4 4 = leAt t 0 4 &&& leAt t 4 4)) with
  | some k => leAt r (40 + 12 * k) 2
  | none => leAt r 18 2

/-- A walk of the parse graph from node `k` (R184, R185, R200, R201): the failure reason, 0 for ACCEPT. `outer` ends the parse of
every fragment at its fragmented header. A select field past the frame's end reads a value the spec does not state, `fr` (log
entry 28). -/
def pgWalk (d f : List Nat) (outer : Bool) (fr : Nat) : Nat → Nat → Walk → Nat × Walk
  | 0, _, w => (7, w)
  | fuel + 1, k, w =>
    if k = 0xFFFF then (0, w)
    else if pgCount d ≤ k then (7, w)
    else
      let r := pgNode d k
      match (if (r.getD 2 0) % 2 = 1 then
          (hdrField f w.off (leAt r 6 2) (r.getD 8 0)).map (fun v => v * r.getD 9 0 + leAt r 4 2)
        else some (leAt r 4 2)) with
      | none => (1, w)
      | some len =>
        if len < leAt r 10 2 then (4, w)
        else if f.length < w.off + len then (1, w)
        else if 512 < w.off + len then (2, w)
        else
          let wasFrag := w.frag
          match roleCheck f (r.getD 1 0) ((r.getD 2 0).testBit 1) w with
          | (0, w) =>
            let n := min (r.getD 3 0) len
            let w := { w with phv := putBits w.phv (4096 - 8 * (leAt r 12 2 + n)) (8 * n) (beAt f w.off n) }
            if 16 ≤ w.stack.length then (3, w)
            else
              let w := { w with stack := w.stack ++ [(r.getD 0 0, w.off)] }
              if w.frag && !wasFrag && (outer || !w.first) then (0, w)
              else
                let v := match hdrField f w.off (leAt r 14 2) (r.getD 16 0) with
                  | some v => v
                  | none => fr
                let nx := if r.getD 16 0 = 0 then leAt r 18 2 else pgSelect r v
                pgWalk d f outer fr fuel nx { w with off := w.off + len }
          | (e, w) => (e, w)

/-- The header stack as metadata bits [415:160] (Table PARS-6). -/
def stackBits (l : List (Nat × Nat)) : Nat := l.foldr (fun p acc => p.1 % 128 + p.2 % 512 * 128 + 65536 * acc) 0

/-- What the parser writes of a walk (Table PARS-6). -/
def State.parseWrite (s : State) (h reason : Nat) (w : Walk) : State :=
  let s := (s.set .PKT_phv w.phv 0 h).setMeta h 48 1 (b2n (reason = 0))
  let s := ((s.setMeta h 49 4 reason).setMeta h 53 5 w.stack.length).setMeta h 160 256 (stackBits w.stack)
  let s := (s.setMeta h 58 1 (b2n w.frag)).setMeta h 59 1 (b2n (w.frag && w.first))
  s.set .PKT_fragkey (if w.frag then s.fragDigest w.key + 1 else 0) 0 h

/-- The parser takes packet `h` and walks the graph of its epoch; ACCEPT brings it to its first stage, anything else is a parse failure,
counted, and takes the port's action (R184 to R187, R195). A region without a parse graph rejects (R507). -/
def State.parsePkt (s : State) (n h : Nat) : State :=
  let s := s.clsSnap n h
  let d := s.pktSec h 1
  let start := if d = [] then 0xFFFE else leAt d (4 + 2 * s.pktInPort h) 2
  let (reason, w) := pgWalk d (s.lget .pktBytes 0 h) (decide (s.pktCls h 5 1 = 0)) (s.freeVal 32) 257 start
    ⟨0, 0, [], false, false, [], 0⟩
  let s := s.drew.parseWrite h reason w
  if reason = 0 then (s.set .PKT_nstage 0 0 h).settle h 33
  else (s.bump .PAR_FAIL_CNT_count n reason).defaultAct h true

/-- PACKET_PARSE: the parser takes packet `h` where it is the one that the region's arbiter grants next (R36), and the packet buffer has room
for it; else the packet waits (R49, R297). -/
def execPacketParse (n h : Nat) (s : State) : Host.Outcome State Fault Refusal :=
  .next <|
    if s.get .PKT_live 0 h = 0 ∨ !s.bufRoom n h then s
    else match s.arbPick n with
      | (s1, some g) => if g = h then (s1.arbGrant n h).parsePkt n h else s
      | (_, none) => s

/-- The class result written (R192). -/
def State.classWrite (s : State) (h src hit rule result : Nat) : State :=
  (((s.setMeta h 60 2 src).setMeta h 70 1 hit).setMeta h 72 16 rule).setMeta h 96 64 result

/-- Whether a check of a rule passes (Table PARS-9). -/
def State.checkPass (s : State) (h : Nat) (c : List Nat) : Bool :=
  let v := s.operand h (leAt c 0 2) (c.getD 2 0)
  if c.getD 3 0 = 0 then decide (leAt c 4 4 ≤ v ∧ v ≤ leAt c 8 4) else decide (v &&& leAt c 8 4 = leAt c 4 4)

/-- The leaf that a walk from node `k` reaches (R192). -/
def State.treeLeaf (s : State) (h : Nat) (d : List Nat) : Nat → Nat → Nat
  | 0, k => k
  | fuel + 1, k =>
    let r := treeNode d k
    if r.getD 0 0 = 0 then
      s.treeLeaf h d fuel (if s.operand h (leAt r 2 2) (r.getD 1 0) < leAt r 4 4 then leAt r 8 4 else leAt r 12 4)
    else k

/-- A tree walk: the first rule of the leaf that passes every check, or a miss (R192). -/
def State.treeWalk (s : State) (n h src : Nat) : State :=
  let d := s.pktSec h 6
  let root := treeRoot d (s.meta_ h 64 6)
  if root = 0xFFFFFFFF then (s.bump .CLS_FRAG_CNT1_tree_absent n).classWrite h src 0 0xFFFF 0
  else
    let leaf := treeNode d (s.treeLeaf h d 24 root)
    match ((List.range (leaf.getD 1 0)).map (leAt leaf 4 4 + ·)).find? (fun i =>
      let r := treeRule d i
      (List.range (r.getD 0 0)).all (fun j => s.checkPass h (slice r (16 + 12 * j) 12))) with
    | some i => s.classWrite h src 1 i (leAt (treeRule d i) 8 8)
    | none => s.classWrite h src 0 0xFFFF 0

/-- A non-first fragment under FOLLOW_FIRST looks up the fragment table before its tree-walk stages: it follows a hit of its
epoch, ignores one of the other, and on a miss is held where it can be (R203, R204, R206). -/
def State.fragLookup (s : State) (n h : Nat) : State :=
  let dig := s.get .PKT_fragkey 0 h - 1
  if s.get .FRE_on n dig = 1 then
    if s.get .FRE_epoch n dig = s.pktEpoch h then
      (s.set .PKT_follow (2 ^ 17 + s.get .FRE_hit n dig * 2 ^ 16 + s.get .FRE_rule n dig) 0 h).set .FRE_at s.now n dig
    else (s.set .PKT_outer 1 0 h).bump .CLS_FRAG_CNT1_epoch_mismatch n
  else if s.get .PKT_clsf 0 h / 65536 = 0 then s.set .PKT_outer 1 0 h
  else if 65536 < s.heldBytes n + s.get .PKT_rxlen 0 h then (s.set .PKT_outer 1 0 h).bump .CLS_FRAG_CNT0_hold_full n
  else ((s.set .PKT_stage 2 0 h).set .PKT_held_at s.now 0 h).fragStat n

/-- What a tree-walk stage does with a packet that is not held: it follows the fragment table or walks (R192, R203). -/
def State.treeStage (s : State) (n h : Nat) : State :=
  let fo := s.get .PKT_follow 0 h
  if fo.testBit 17 then
    s.classWrite h 2 (bitsOf fo 16 1) (fo % 65536) (if fo.testBit 16 then leAt (treeRule (s.pktSec h 6) (fo % 65536)) 8 8 else 0)
  else s.treeWalk n h (if s.get .PKT_outer 0 h = 1 then 3 else 1)

/-- TREE_WALK: a tree-walk stage (R192, R203, R204, R206). -/
def execTreeWalk (n h : Nat) (s : State) : Host.Outcome State Fault Refusal :=
  .next <|
    if !s.atEngine n h 0 then s
    else
      let s := if s.get .PKT_fragkey 0 h ≠ 0 ∧ s.meta_ h 59 1 = 0 ∧ s.pktCls h 5 1 = 1 ∧ s.get .PKT_follow 0 h = 0 ∧
          s.get .PKT_outer 0 h = 0 then s.fragLookup n h else s
      if s.get .PKT_stage 0 h = 2 then s else (s.treeStage n h).stageNext h

/-- PIPELINE_EXIT: past its last stage a packet takes its FORWARD, or is unmatched (R190, R194, R195); a first fragment records
its entry (R202). A host-originated packet of a pipeline without stages, which leaves no last stage, enters its ring's queue (R296; log
entry 58). A packet whose punt waited for a span takes it now. -/
def execPipelineExit (n h : Nat) (s : State) : Host.Outcome State Fault Refusal :=
  .next <|
    if s.get .PKT_live 0 h = 0 ∨ s.get .PKT_in_region 0 h = 0 ∨ s.get .PKT_region 0 h ≠ n ∨ s.get .PKT_stage 0 h ≠ 1 then s
    else if s.get .PKT_puntr 0 h ≠ 0 then s.puntTo h (s.get .PKT_puntq 0 h) (s.get .PKT_puntr 0 h - 1)
    else if (s.atStage n h).isSome then s
    else
      let s := s.fragRecord h
      if s.meta_ h 1010 1 = 1 then s.forwardOut h
      else if s.get .PKT_work 0 h ≠ 0 ∧ s.pktChain h = [] then
        let x := s.get .WRK_dest 0 (s.get .PKT_work 0 h - 1)
        (s.set .PKT_disp 1 0 h).enqueue h (x % 16) (x / 16) 0
      else s.defaultAct h false

/-- PUNT_BUCKET_RECOMPUTE: the buckets follow CLS_PUNT_RATE and the online regions, each full (R196). -/
def execPuntBucketRecompute (s : State) : Host.Outcome State Fault Refusal := .next s.puntRecompute

/-- CLS_REGISTER_PROPAGATE: the CLS_ registers of the CTD are copied to region `n` (R199). -/
def execClsRegisterPropagate (n : Nat) (s : State) : Host.Outcome State Fault Refusal :=
  .next <|
    let s := s.each (List.range 16) (fun d s => s.set .CLSR_port
      (s.get .CLS_PORT_DEF_nomatch_act 0 d + 4 * s.get .CLS_PORT_DEF_parsefail_act 0 d + 16 * s.get .CLS_PORT_DEF_secondary 0 d +
        32 * s.get .CLS_PORT_DEF_frag_mode 0 d + 64 * s.get .CLS_PORT_DEF_punt_q 0 d + 2 ^ 22 * s.get .CLS_PORT_DEST_index 0 d +
        2 ^ 38 * s.get .CLS_PORT_DEST_kind 0 d + 2 ^ 39 * s.get .CLS_PORT_DEST_tclass 0 d) n d)
    s.set .CLSR_frag (s.get .CLS_FRAG_CFG_lifetime_us + 65536 * s.get .CLS_FRAG_CFG_hold_us) n

/-- FRAG_HOLD_EXPIRY: a fragment held for hold_us is released to be walked on outer fields (R204). -/
def execFragHoldExpiry (n h : Nat) (s : State) : Host.Outcome State Fault Refusal :=
  .next <|
    if s.get .PKT_live 0 h = 0 ∨ s.get .PKT_stage 0 h ≠ 2 ∨ s.get .PKT_region 0 h ≠ n then s
    else
      let s := s.advanceTo (s.get .PKT_held_at 0 h + s.get .PKT_clsf 0 h / 65536 * usUnits)
      (((s.set .PKT_stage 1 0 h).set .PKT_outer 1 0 h).bump .CLS_FRAG_CNT0_hold_expired n).fragStat n

/-- FRAG_ENTRY_EXPIRY: an entry is removed lifetime_us after its last hit or recording (R205). -/
def execFragEntryExpiry (n dig : Nat) (s : State) : Host.Outcome State Fault Refusal :=
  .next <|
    if s.get .FRE_on n dig = 0 then s
    else
      let s := s.advanceTo (s.get .FRE_at n dig + max 1 (s.get .CLSR_frag n % 65536) * usUnits)
      (s.fragRemove n dig).fragStat n

/-- POLICER_APPLY: the PBS word applies all four words of a policer and fills both buckets (R211). -/
def execPolicerApply (n k v : Nat) (s : State) : Host.Outcome State Fault Refusal :=
  .next <|
    let s := s.set .CLS_POLICER_pbs (v % 2 ^ 24) n k
    let cir := s.get .CLS_POLICER_cir n k
    let s := (((s.set .POL_cir cir n k).set .POL_pir (max cir (s.get .CLS_POLICER_pir n k)) n k).set .POL_cbs
      (s.get .CLS_POLICER_cbs n k) n k).set .POL_pbs (v % 2 ^ 24) n k
    let s := (s.set .POL_en (s.get .CLS_POLICER_enable n k) n k).set .POL_aware (s.get .CLS_POLICER_colour_aware n k) n k
    ((s.set .POL_tc (s.get .POL_cbs n k * 32000) n k).set .POL_tp (s.get .POL_pbs n k * 32000) n k).set .POL_at s.now n k

end Sys2Proof.Machine
end

