-- ==== Sys2Proof/Machine/Pattern.lean ====
section
/-! DEFINITION. Pattern automata: the format of a set, scans of packets and of HBM, the set commands, loss of engines and bypass
(spec file 08, R254 to R264). -/

namespace Sys2Proof.Machine

/-- Entry word `k` of 4 bytes from `off`. -/
def word4 (b : List Nat) (off k : Nat) : Nat := leNat (slice b (off + 4 * k) 4)
/-- kind of a set: 0 DFA, 1 BNFA (Table ASOC-6). -/
def psKind (b : List Nat) : Nat := b.getD 6 0
/-- bnfa_width. -/
def psWidth (b : List Nat) : Nat := b.getD 7 0
/-- n_states. -/
def psStates (b : List Nat) : Nat := leNat (slice b 8 4)
/-- n_classes. -/
def psClasses (b : List Nat) : Nat := leNat (slice b 12 2)
/-- n_patterns. -/
def psPatterns (b : List Nat) : Nat := leNat (slice b 14 2)
/-- total_len. -/
def psTotal (b : List Nat) : Nat := leNat (slice b 16 4)
/-- start_state. -/
def psStart (b : List Nat) : Nat := leNat (slice b 20 4)
/-- max_len. -/
def psMax (b : List Nat) : Nat := leNat (slice b 24 2)
/-- Offset `k`: 0 class_off, 1 fwd_off, 2 acc_off, 3 list_off, 4 rev_off. -/
def psOff (b : List Nat) (k : Nat) : Nat := word4 b 28 k
/-- Class of a byte value. -/
def psClass (b : List Nat) (v : Nat) : Nat := b.getD (psOff b 0 + v % 256) 0
/-- The dead state. -/
def psDead : Nat := 0xFFFFFF
/-- Transition word of state `q` on byte `v` in the table at `off` (R255). -/
def psTrans (b : List Nat) (off q v : Nat) : Nat := word4 b off (q * psClasses b + psClass b v)
/-- Accept word of a state in the accept table. -/
def psTable (b : List Nat) (q : Nat) : Nat := word4 b (psOff b 2) q
/-- Accept word of a state: the accept table's, or, in a BNFA, bytes 40 to 43 of its state record (R255; log entry 35). -/
def psAccept (b : List Nat) (q : Nat) : Nat :=
  if psKind b = 1 then leNat (slice b (psOff b 1 + 48 * q + 40) 4) else psTable b q
/-- Count of an accept word. -/
def accCount (a : Nat) : Nat := bitsOf a 20 8
/-- First list index of an accept word. -/
def accFirst (a : Nat) : Nat := a % 2 ^ 20
/-- Entries of the match list: as many as the accept words reach (log entry 34). -/
def psList (b : List Nat) : Nat :=
  (List.range (psStates b)).foldl (fun m q =>
    [psAccept b q, psTable b q].foldl (fun m a => if accCount a = 0 then m else max m (accFirst a + accCount a)) m) 0
/-- Pattern id at a list index. -/
def psId (b : List Nat) (k : Nat) : Nat := leNat (slice b (psOff b 3 + 2 * k) 2)
/-- Pattern ids of an accept word. -/
def psIds (b : List Nat) (a : Nat) : List Nat := (List.range (accCount a)).map (fun k => psId b (accFirst a + k))
/-- State record of a BNFA. -/
def psRec (b : List Nat) (q : Nat) : List Nat := slice b (psOff b 1 + 48 * q) 48
/-- Whether a record's byte set admits a byte value. -/
def psAdmits (r : List Nat) (v : Nat) : Bool := (r.getD (v / 8) 0).testBit (v % 8)
/-- Successor states of a record: numbers that follow the match list. -/
def psNext (b r : List Nat) : List Nat :=
  (List.range (leNat (slice r 36 2))).map (fun k => word4 b (psOff b 3 + 2 * psList b) (leNat (slice r 32 4) + k))

/-- Parts of a set, each an offset and a length (R255). -/
def psParts (b : List Nat) : List (Nat × Nat) :=
  let succ := (List.range (psStates b)).foldl (fun m q =>
    let r := psRec b q
    if leNat (slice r 36 2) = 0 then m else max m (leNat (slice r 32 4) + leNat (slice r 36 2))) 0
  if psKind b = 0 then
    [(psOff b 0, 256), (psOff b 1, psStates b * psClasses b * 4), (psOff b 2, psStates b * 4), (psOff b 3, 2 * psList b),
     (psOff b 4, 4 + 4 * psPatterns b + word4 b (psOff b 4) 0 * psClasses b * 4)]
  else
    [(psOff b 0, 256), (psOff b 1, psStates b * 48), (psOff b 2, psStates b * 4), (psOff b 3, 2 * psList b + 4 * succ)]

/-- Whether two parts do not overlap. -/
def partApart (x y : Nat × Nat) : Bool := decide (x.1 + x.2 ≤ y.1 ∨ y.1 + y.2 ≤ x.1)

/-- Whether a list of parts lies in the body and does not overlap. -/
def partsOk (total : Nat) : List (Nat × Nat) → Bool
  | [] => true
  | x :: r => decide (96 ≤ x.1 ∧ x.1 + x.2 ≤ total) && r.all (partApart x) && partsOk total r

/-- Whether the header's fields lie in Table ASOC-6. -/
def psHeadOk (b : List Nat) : Bool :=
  decide (leNat (slice b 0 4) = 0x54455350 ∧ leNat (slice b 4 2) = 1 ∧ psKind b ≤ 1 ∧
    (psKind b = 0 → psWidth b = 0 ∧ psOff b 4 ≠ 0) ∧ (psKind b = 1 → 1 ≤ psWidth b ∧ psWidth b ≤ 64 ∧ psOff b 4 = 0) ∧
    1 ≤ psStates b ∧ psStates b ≤ 1048576 ∧ 1 ≤ psClasses b ∧ psClasses b ≤ 256 ∧ 1 ≤ psPatterns b ∧
    96 ≤ psTotal b ∧ psTotal b ≤ 2 ^ 22 ∧ psStart b < psStates b ∧ 1 ≤ psMax b ∧ psMax b ≤ 4096 ∧ leNat (slice b 26 2) = 0)

/-- Whether every state, class, list index and pattern id of the body is in range (R256). -/
def psBodyOk (b : List Nat) : Bool :=
  let n := psStates b
  let ok := fun (m w : Nat) => decide (w % 2 ^ 24 < m ∨ w % 2 ^ 24 = psDead)
  partsOk (psTotal b) (psParts b) &&
  (List.range 256).all (fun v => decide (psClass b v < psClasses b)) &&
  (List.range (psList b)).all (fun k => decide (psId b k < psPatterns b)) &&
  (if psKind b = 0 then
    (List.range (n * psClasses b)).all (fun k => ok n (word4 b (psOff b 1) k)) &&
    (List.range (psPatterns b)).all (fun k =>
      let q := word4 b (psOff b 4) (1 + k)
      decide (q < word4 b (psOff b 4) 0 ∨ q = psDead)) &&
    (List.range (word4 b (psOff b 4) 0 * psClasses b)).all (fun k =>
      ok (word4 b (psOff b 4) 0) (word4 b (psOff b 4) (1 + psPatterns b + k)))
  else (List.range n).all (fun q => (psNext b (psRec b q)).all (fun x => decide (x < n))))

/-- A report: end offset, pattern id, start offset, start_clipped. -/
structure Report where
  stop : Nat
  id : Nat
  start : Nat
  clipped : Bool
deriving DecidableEq, Repr

/-- The reverse run of a pattern from an end: the bytes before it, nearest first, each with its offset; the furthest candidate so
far, and whether the dead state was reached (R259). -/
def psReverse (b : List Nat) : Nat → Option Nat → List (Nat × Nat) → Option Nat × Bool
  | _, best, [] => (best, false)
  | q, best, (off, v) :: r =>
    if q = psDead then (best, true)
    else
      let w := psTrans b (psOff b 4 + 4 + 4 * psPatterns b) q v
      let best := if w.testBit 24 then some off else best
      if w % 2 ^ 24 = psDead then (best, true) else psReverse b (w % 2 ^ 24) best r

/-- The report of pattern `id` that ends at the head of `seen`, the bytes up to there, nearest first (R259). -/
def psReport (b : List Nat) (free id : Nat) (seen : List (Nat × Nat)) : Report :=
  let (best, dead) := psReverse b (word4 b (psOff b 4) (1 + id) % 2 ^ 24) none (seen.take (psMax b))
  ⟨(seen.headD (0, 0)).1, id, best.getD free, !dead⟩

/-- The ids in ascending order, once each. -/
def psSort (l : List Nat) : List Nat := (l.eraseDups).mergeSort (· ≤ ·)

/-- A DFA scan: reports by end offset, then pattern id (R259). -/
def psDfa (b : List Nat) (free : Nat) : Nat → List (Nat × Nat) → List (Nat × Nat) → List Report
  | _, _, [] => []
  | q, seen, (off, v) :: r =>
    let w := psTrans b (psOff b 1) q v
    let seen := (off, v) :: seen
    if w % 2 ^ 24 = psDead then []
    else
      let ids := if w.testBit 24 then psSort (psIds b (psAccept b (w % 2 ^ 24))) else []
      ids.map (fun id => psReport b free id seen) ++ psDfa b free (w % 2 ^ 24) seen r

/-- The active states of a BNFA, each once with its leftmost start. -/
def psMerge : List (Nat × Nat) → List (Nat × Nat)
  | [] => []
  | x :: r =>
    let m := psMerge r
    match m.find? (fun y => decide (y.1 = x.1)) with
    | none => x :: m
    | some y => if x.2 < y.2 then x :: m.filter (fun z => decide (z.1 ≠ x.1)) else m

/-- Patterns that the entered states complete, each with its leftmost start. -/
def psDone (b : List Nat) (act : List (Nat × Nat)) : List (Nat × Nat) :=
  psMerge (act.flatMap (fun x => (psIds b (psAccept b x.1)).map (fun id => (id, x.2))))

/-- A BNFA scan: an active state consumes a byte its set admits and its successors become active with its start; the start
state is active at every byte (log entry 35). The flag tells that the set would have exceeded bnfa_width (R261). -/
def psBnfa (b : List Nat) : List (Nat × Nat) → List (Nat × Nat) → List Report × Bool
  | _, [] => ([], false)
  | act, (off, v) :: r =>
    let cur := psMerge ((psStart b, off) :: act)
    let nxt := psMerge (cur.flatMap (fun x =>
      let rec_ := psRec b x.1
      if psAdmits rec_ v then (psNext b rec_).map (fun y => (y, x.2)) else []))
    if psWidth b < nxt.length then ([], true)
    else
      let done := (psDone b nxt).mergeSort (fun x y => x.1 ≤ y.1)
      let (rs, inc) := psBnfa b nxt r
      (done.map (fun x => ⟨off, x.1, x.2, false⟩) ++ rs, inc)

/-- A scan of bytes, the first at offset `off`: its reports, and whether it ended early (R258 to R261). -/
def psScan (b : List Nat) (free off : Nat) (bytes : List Nat) : List Report × Bool :=
  let l := (List.range bytes.length).map (fun k => (off + k, bytes.getD k 0))
  if psKind b = 0 then (psDfa b free (psStart b) [] l, false) else psBnfa b [] l

/-- The active version of a set in a region, if any. -/
def State.psActive (s : State) (n set : Nat) : Option (List Nat) :=
  match s.lget .patSet n (2 * set) with
  | [] => none
  | b => some b

/-- bypass_active of region `n` follows its engines and its bypass bit (R263). -/
def State.patBypass (s : State) (n : Nat) : State :=
  s.set .PAT_REGION_STAT_bypass_active (b2n (s.get .PAT_REGION_STAT_engine_ok n = 0 ∨ s.get .PAT_REGION_CFG_bypass n = 1)) n

/-- Metadata [975:920] of a scan (Table ASOC-3). -/
def psMeta (rs : List Report) (inc : Bool) : Nat :=
  match rs with
  | [] => 2 * b2n inc
  | r :: _ => 1 + 2 * b2n inc + min 31 rs.length * 2 ^ 3 + r.id % 2 ^ 16 * 2 ^ 8 + r.start % 2 ^ 16 * 2 ^ 24 + r.stop % 2 ^ 16 * 2 ^ 40

/-- The scan of a packet at an automata stage, or its hand-over in bypass (R258, R263). -/
def State.patStage (s : State) (n h : Nat) : State :=
  let set := s.meta_ h 880 8
  if set = 0xFF then s.stageNext h
  else match (if set < 64 then s.psActive n set else none) with
    | none => (s.bump .PAT_REGION_STAT_set_absent n).stageNext h
    | some b =>
      if s.get .PAT_REGION_STAT_bypass_active n = 1 then s.puntTo h (s.get .PAT_REGION_CFG_scan_q n) 3
      else
        let frame := s.lget .pktBytes 0 h
        let off := s.meta_ h 888 16
        let len := s.meta_ h 904 16
        let data := if len = 0 then frame.drop off else slice frame off len
        let (rs, inc) := psScan b (s.freeVal 16) off data
        let s := s.drew.when inc (·.bump .PAT_REGION_STAT_nfa_overflow n)
        (s.setMeta h 920 56 (psMeta rs inc)).stageNext h

/-- AUTOMATA_SCAN: packet `h` at an automata stage of region `n` is scanned with its pattern set, or handed to a core in bypass
(R258 to R263). -/
def execAutomataScan (n h : Nat) (s : State) : Host.Outcome State Fault Refusal :=
  .next (if s.atEngine n h 4 then s.patStage n h else s)

/-- A command ends with a result (Table ASOC-5). -/
def State.patRes (s : State) (c r : Nat) : State := (s.set .PAT_CH_busy 0 0 c).set .PAT_CH_result r 0 c

/-- Whether `len` bytes from a device address lie in HBM. -/
def inHbm (a len : Nat) : Bool :=
  decide ((a / 2 ^ 44 = 5 ∨ a / 2 ^ 44 = 6) ∧ 0x1000000000 ≤ a % 2 ^ 44 ∧ a % 2 ^ 44 + len ≤ 0x1600000000)

/-- Bytes of automata memory in use in region `n`. -/
def State.patMem (s : State) (n : Nat) : Nat :=
  ((s.lkeysOf .patSet).map (fun k => if k.1 = n then (s.lget .patSet k.1 k.2).length else 0)).sum

/-- Online regions of a mask. -/
def State.maskOnline (s : State) (mask : Nat) : List Nat := (bitList 8 mask).filter (fun n => s.online n)

/-- LOAD_SET: a set read from HBM, checked and loaded as the staged version of every named region (R256). -/
def execLoadSet (c set mask : Nat) (s : State) : Host.Outcome State Fault Refusal :=
  .next <|
    let a := s.get .PAT_CH_src 0 c
    if s.maskOnline mask = [] then s.patRes c 6
    else if !inHbm a 96 then s.patRes c 0xC
    else
      let hd := s.mread a 96
      if !psHeadOk hd then s.patRes c 9
      else if !inHbm a (psTotal hd) then s.patRes c 0xC
      else
        let b := s.mread a (psTotal hd)
        if sha384 (b.drop 96) ≠ slice b 48 48 then s.patRes c 0xA
        else if !psBodyOk b then s.patRes c 9
        else if (bitList 8 mask).any (fun n => decide (2 ^ 22 < s.patMem n + b.length)) then s.patRes c 0xB
        else (s.each (s.maskOnline mask) (fun n s => s.lset .patSet b n (2 * set + 1))).patRes c 0

/-- A change of a set (`kind` 0 activation, 1 deletion) in the regions of `mask` is accepted, for 10 µs from now (R257). -/
def State.patLater (s : State) (set kind mask : Nat) : State :=
  s.lset .patPend (s.lget .patPend 0 set ++ [kind, s.now + 10 * usUnits, mask]) 0 set

/-- ACTIVATE_SET: the staged version is to become active in every region holding it, 10 µs from now (R257); BAD_SET where none
holds one. -/
def execActivateSet (c set : Nat) (s : State) : Host.Outcome State Fault Refusal :=
  .next <|
    let m := (List.range 8).foldl (fun m n => if s.lget .patSet n (2 * set + 1) = [] then m else m + 2 ^ n) 0
    if m = 0 then s.patRes c 8
    else (s.patLater set 0 m).patRes c 0

/-- The staged version of a set in region `n`, where it holds one, becomes the active one, which is freed (R257). -/
def State.setActivate (s : State) (n set : Nat) : State :=
  if s.lget .patSet n (2 * set + 1) = [] then s
  else (s.lset .patSet (s.lget .patSet n (2 * set + 1)) n (2 * set)).lset .patSet [] n (2 * set + 1)

/-- Both versions of a set are removed in region `n` (R257). -/
def State.setDelete (s : State) (n set : Nat) : State := (s.lset .patSet [] n (2 * set)).lset .patSet [] n (2 * set + 1)

/-- SET_ACTIVATION: the instant of the activation or deletion accepted first; a replaced version is freed (R257). -/
def execSetActivation (set : Nat) (s : State) : Host.Outcome State Fault Refusal :=
  .next <|
    match s.lget .patPend 0 set with
    | kind :: t :: mask :: rest =>
      ((s.advanceTo t).each (bitList 8 mask) (fun n s => if kind = 0 then s.setActivate n set else s.setDelete n set)).lset .patPend rest 0 set
    | _ => s

/-- DELETE_SET: both versions are to be removed in the named regions, 10 µs from now (R257); BAD_SET where none of them holds the set. -/
def execDeleteSet (c set mask : Nat) (s : State) : Host.Outcome State Fault Refusal :=
  .next <|
    if s.maskOnline mask = [] then s.patRes c 6
    else if (s.maskOnline mask).all (fun n => s.lget .patSet n (2 * set) = [] && s.lget .patSet n (2 * set + 1) = []) then s.patRes c 8
    else (s.patLater set 1 (mask % 256)).patRes c 0

/-- A report as a record of 8 bytes (R262). -/
def reportBytes (r : Report) : List Nat := leBytes 2 r.id ++ leBytes 2 r.start ++ leBytes 2 r.stop ++ leBytes 2 (b2n r.clipped)

/-- PAT_SCAN: length bytes of HBM scanned with the set's active version in the lowest named region, and report records written
(R262). -/
def execPatScan (c set mask : Nat) (s : State) : Host.Outcome State Fault Refusal :=
  .next <|
    match bitList 8 mask with
    | [] => s.patRes c 6
    | n :: _ =>
      let a := s.get .PAT_CH_src 0 c
      let d := s.get .PAT_CH_dst 0 c
      let len := min 65536 (s.get .PAT_CH_length 0 c)
      let most := min 4096 (s.get .PAT_CH_max_reports 0 c)
      if !s.online n ∨ s.get .PAT_REGION_STAT_bypass_active n = 1 then s.patRes c 6
      else if !inHbm a len ∨ !inHbm d (8 * most) then s.patRes c 0xC
      else match s.psActive n set with
        | none => s.patRes c 8
        | some b =>
          let (rs, inc) := psScan b (s.freeVal 16) 0 (s.mread a len)
          let s := s.drew.when inc (·.bump .PAT_REGION_STAT_nfa_overflow n)
          let s := s.mwrite d ((rs.take most).flatMap reportBytes)
          ((s.set .PAT_CH_count (min most rs.length) 0 c).set .PAT_CH_more (b2n (most < rs.length)) 0 c).patRes c 0

/-- PAT_ENGINE: an automata engine of region `n` fails: the other serves, or the region enters bypass (R263). -/
def execPatEngine (n e : Nat) (s : State) : Host.Outcome State Fault Refusal :=
  .next <|
    let s := (s.setb .PAT_REGION_STAT_engine_ok e false n).patBypass n
    s.report { src := 0x0E, cls := .contained, die := 4 + n / 2, region := n }

/-- A region that returns takes each set version from the lowest online region that holds it (R264). -/
def State.patReturn (s : State) (n : Nat) : State :=
  s.each (List.range 128) (fun k s =>
    match (List.range 8).find? (fun m => decide (m ≠ n) && s.online m && decide (s.lget .patSet m k ≠ [])) with
    | some m => s.lset .patSet (s.lget .patSet m k) n k
    | none => s.lset .patSet [] n k)

end Sys2Proof.Machine
end

