-- ==== Sys2Proof/Machine/Sched.lean ====
section
/-! DEFINITION. The transmit scheduler, sampling of its queues, and the share reconciler: spec file 10, rules R299 to R313. -/

namespace Sys2Proof.Machine

/-- A frame is charged to its tenant's credit at an IOD (R481); an ACK, NAK or PROBE packet is charged to no tenant (R486). -/
def State.chargeFrame (s : State) (d t parts h : Nat) : State :=
  if s.get .PKT_sil 0 h ≠ 0 ∧ 2 ≤ s.get .PKT_sil_data 0 h then s else s.charge (8 + d) t parts parts

/-- Frame `h` at the head of queue `q` is dispatched to the MAC of a port: the path and the tenant's credit are charged, its
data leaves the region's packet buffer (R297), and a launch frame holds its queue until the gate judged it (R301, R304, R306, R481). -/
def State.dispatch (s : State) (d p i q h : Nat) : State :=
  let len := s.get .PKT_L 0 h
  let s := ((s.chargePath d q len).chargeFrame d (s.get .TOPO_tn_tenant d i) (s.iodCost len) h).dequeue d q h
  let s := (s.bufFree h).lpush .mac h d p
  s.set .NODE_gate (if s.get .PKT_launch 0 h = 0 then 0 else h + 1) d q

/-- SCHEDULER_DISPATCH: port `p` of IOD `d` chooses a frame and dispatches it (R299 to R306). A port that is not UP holds its queues
(R307), and in DEVICE_FATAL nothing is sent (R534). -/
def execSchedulerDispatch (d p : Nat) (s : State) : Host.Outcome State Fault Refusal :=
  .next <|
    if !s.macUp d p then s
    else match s.pickPort d p with
      | (s, some ([i, _, n], _)) =>
        match s.lget .txq d (n - 9216) with
        | h :: _ => s.dispatch d p i (n - 9216) h
        | [] => s
      | (s, _) => s

/-- SHAPER_APPLY: a write of `v` to the pbs word of node `n` applies its shaper (R303). -/
def execShaperApply (d n v : Nat) (s : State) : Host.Outcome State Fault Refusal :=
  .next ((s.set .SCH_NODE_pbs v d n).shaperApply d n)

/-- Slots of a sample ring (R310). -/
def State.sampleSlots (s : State) (d : Nat) : Nat := 2 ^ max 8 (min 16 (s.get .SCH_SAMPLE_CFG_log2_slots d))

/-- One sample record of queue `q` at boundary `t` (Table SCHD-4). -/
def State.sampleRec (s : State) (d q t : Nat) : List Nat :=
  let p := s.qPort d q
  let on := s.qExists d q
  let fl := s.get .QSAMP_gap d q + 2 * b2n (on && decide (s.get .ETH_PORT_STATUS_state d p ≠ ethUP)) +
    4 * b2n (on && s.nodeHeld d (s.qTenantNode d q)) + 8 * b2n (on && s.nodeHeld d (nodeClass (s.qClassNode d q)))
  let soj := match s.lget .txq d q with
    | h :: _ => min 0xFFFFFFFF ((t - s.get .PKT_enq_at 0 h) / nsUnits)
    | [] => 0
  leBytes 8 t ++ leBytes 2 (s.repUnc (2 + d) 0) ++ leBytes 2 q ++ leBytes 2 fl ++ [0, 0] ++
  leBytes 4 (s.get .SCH_QSTAT_depth_bytes d q) ++ leBytes 4 (s.lget .txq d q).length ++ leBytes 4 soj ++
  leBytes 4 (s.get .QSAMP_drops d q)

/-- A record goes to the sample ring, or is counted in sample_drops and the queue's next record carries gap (R310, R436); without
DL_Up it is dropped with HOST_DOWN (R442). -/
def State.samplePut (s : State) (d q t : Nat) : State :=
  let n := s.sampleSlots d
  let e := s.get .SCH_SAMPLE_CFG_endpoint d
  let p := s.get .SCH_SAMPLE_PROD d % n
  if s.get .PCI_EP_CFG_link_up e = 0 then (s.hostDown e).set .QSAMP_gap 1 d q
  else if (p + 1) % n = s.get .SCH_SAMPLE_CONS d % n ∨ s.mayIssue e 2 = false then
    (s.bump .SCH_SAMPLE_STAT_sample_drops d).set .QSAMP_gap 1 d q
  else
    (((s.hostWrite e 2 (s.get .SCH_SAMPLE_RING_BASE d + p * 32) (s.sampleRec d q t)).set .SCH_SAMPLE_PROD ((p + 1) % n) d).set
      .QSAMP_gap 0 d q).set .QSAMP_drops 0 d q

/-- QUEUE_SAMPLE: at the next multiple of period_us the IOD writes a record for every enabled entry, in ascending order (R309). -/
def execQueueSample (d : Nat) (s : State) : Host.Outcome State Fault Refusal :=
  .next <|
    if s.get .SCH_SAMPLE_CFG_enable d = 0 then s
    else
      let per := max 10 (s.get .SCH_SAMPLE_CFG_period_us d) * usUnits
      let t := (s.now / per + 1) * per
      (s.advanceTo t).each (List.range 256) (fun k s =>
        if s.get .SCH_SAMPLE_Q_enable d k = 1 then s.samplePut d (s.get .SCH_SAMPLE_Q_queue d k) t else s)

/-- weight of a tenant (SCH_TENANT_WEIGHT). -/
def State.weight (s : State) (t : Nat) : Nat := max 1 (s.get .SCH_TENANT_WEIGHT_weight 0 t)

/-- Debt of a tenant, bytes. -/
def State.debt (s : State) (t : Nat) : Int := sgn 64 (s.get .DEBT 0 t)

/-- New debt of a contending tenant and whether it was clamped (R312; divisions round down, log entry 43). -/
def State.newDebt (s : State) (total wsum t : Nat) : Int × Bool :=
  let cap := Int.ofNat (max 1 (s.get .SCH_RECON_CFG_debt_cap) * 1024)
  let x := s.debt t + Int.ofNat (total * s.weight t / wsum) - Int.ofNat (s.get .SERVED 0 t)
  (max (-cap) (min cap x), decide (x < -cap ∨ cap < x))

/-- The quanta of every region follow the debts (R312). -/
def State.setQuanta (s : State) : State :=
  s.each (List.range 256) (fun t s =>
    let m := s.affinity t
    let n := popcount 8 m
    s.each (List.range 8) (fun r s =>
      let b := Int.ofNat (Config.baseQuantum r t)
      let q := if s.get .SCH_RECON_CFG_enable = 0 then b else max 64 (min 16777216 (b + (s.debt t).fdiv (Int.ofNat n)))
      s.set .SCH_REGION_QUANTUM_quantum (if m.testBit r then q.toNat else 0) r t))

/-- Contending tenants of the reconciler's epoch that ends now and began at `from_` of DTS without steps: those that had work waiting at a
region arbiter throughout it and were not held for energy credit (R311). Credit comes back at the planner's grants, so a tenant is looked at
there and at the end of the epoch (log entry 124). -/
def State.contending (s : State) (from_ : Nat) : List Nat :=
  (List.range 256).filter (fun t => decide (s.get .ARB_from 0 t ≠ 0 ∧ s.get .ARB_from 0 t ≤ from_ + 1 ∧
    s.get .NRL_held_at 0 t ≤ from_) && !s.heldNow t)

/-- RECONCILER_EPOCH: an epoch of 10 µs of DTS without steps ends (R311, R312). -/
def execReconcilerEpoch (s : State) : Host.Outcome State Fault Refusal :=
  .next <|
    let s := s.advanceTo (s.now + (10 * usUnits - s.mono % (10 * usUnits)))
    let l := if s.get .SCH_RECON_CFG_enable = 0 then [] else s.contending (s.mono - 10 * usUnits)
    let total := (l.map (fun t => s.get .SERVED 0 t)).sum
    let wsum := (l.map (fun t => s.weight t)).sum
    let new := l.map (fun t => (t, s.newDebt total wsum t))
    let s := s.each (List.range 256) (fun t s => s.set .DEBT 0 0 t)
    let s := s.each new (fun x s => s.set .DEBT (unsgn 64 x.2.1) 0 x.1)
    let top := new.foldl (fun m x => max m (x.2.1.natAbs / 1024)) 0
    let s := s.set .SCH_RECON_STAT_max_debt (min 0xFFFF (max top (s.get .SCH_RECON_STAT_max_debt)))
    let s := s.when (new.any (fun x => x.2.2)) (·.bump .SCH_RECON_STAT_cap_hits)
    (s.each (List.range 256) (fun t s => s.set .SERVED 0 0 t)).setQuanta

end Sys2Proof.Machine
end

