-- ==== Sys2Proof/Machine/Service.lean ====
section
/-! DEFINITION. Online test, repair and debug access: spec file 21, rules R535 to R549. -/

namespace Sys2Proof.Machine

/-- Region service states (ERR_REGION_STATE). -/
def srvDRAINING : Nat := 1
/-- TESTING. -/
def srvTESTING : Nat := 2
/-- OFFLINE. -/
def srvOFFLINE : Nat := 3
/-- RETURNING. -/
def srvRETURNING : Nat := 4
/-- FAILED. -/
def srvFAILED : Nat := 5

/-- Service state of region `n`. -/
def State.srv (s : State) (n : Nat) : Nat := s.get .ERR_REGION_STATE_state 0 n

/-- Whether a region is between states. -/
def State.srvMoves (s : State) (n : Nat) : Bool := decide (s.srv n = 1 ∨ s.srv n = 2 ∨ s.srv n = 4)

/-- Some ACTIVE tenant whose affinity mask includes region `n` has no other online region (LAST_REGION). -/
def State.lastRegion (s : State) (n : Nat) : Bool :=
  (List.range 256).any (fun t => decide (s.get .TEN_STATE_state 0 t = 1) &&
    (s.get .PLC_mask (s.get .STR_common_ctx) t).testBit n && (s.regionsOf t).all (fun m => decide (m = n)))

/-- The checks of R536 on a command for region `n`, in the order of the rule: 0 accepted, else its result. -/
def State.srvCheck (s : State) (n : Nat) (online force : Bool) : Nat :=
  if (List.range 8).any (fun m => decide (s.get .STR_REGION_STATE_state 0 m ≠ 0)) then 2
  else if (List.range 8).any (fun m => decide (m ≠ n) && s.srvMoves m) then 1
  else if online then (if s.srv n = srvOFFLINE ∧ s.get .ERR_REGION_STATE_bist_pass 0 n = 1 then 0 else 3)
  else if s.srv n ≠ 0 then 3
  else if !force && s.lastRegion n then 4
  else 0

/-- A region command has ended when no region that a command moved is between states (log entry 69). -/
def State.srvBusy (s : State) : State :=
  s.set .ERR_REGION_CMD_busy (b2n ((List.range 8).any (fun m => s.srvMoves m && decide (s.get .SRV_fault 0 m = 0))))

/-- REGION_OFFLINE: OFFLINE for region `n`: rejected, or the region begins to drain (R536, R541). -/
def execRegionOffline (n : Nat) (force : Bool) (s : State) : Host.Outcome State Fault Refusal :=
  .next <|
    let r := s.srvCheck n false force
    let s := s.set .ERR_REGION_CMD_result r
    if r ≠ 0 then s
    else
      let s := ((s.set .ERR_REGION_STATE_state srvDRAINING 0 n).set .ERR_REGION_STATE_bist_pass 0 0 n).set .SRV_fault 0 0 n
      let s := (s.set .SRV_accept_at s.now 0 n).set .SRV_limit (s.get .ERR_REGION_CMD_drain_limit_us) 0 n
      (s.set .SRV_effective 0 0 n).srvBusy

/-- The tables that keep part of their entries in region `n`. -/
def State.tablesIn (s : State) (n : Nat) : List Nat :=
  ((s.lkeysOf .tblLay).filterMap (fun k => if layKind (s.lay k.2) = 0 ∧ (laySet (s.lay k.2)).testBit n then some (k.2 / 2) else none)).eraseDups

/-- Accounts of region `n` are discarded (R492). -/
def State.accountsDiscard (s : State) (n : Nat) : State :=
  s.each (List.range 256) (fun t s => ((s.set .NRL_CREDIT_balance 0 n t).set .NRL_frac 0 n t).set .NRL_chg 0 n t)

/-- TX rings that are enabled choose their target regions again (R452). -/
def State.ringsRetarget (s : State) : State :=
  s.each (s.keysOf .RNG_target) (fun k s => s.when (decide (s.get .RNG_RING_state k.1 k.2 = 1 ∨ s.get .RNG_RING_state k.1 k.2 = 2)) (fun s =>
    s.set .RNG_target (s.ringTarget k.1 k.2) k.1 k.2))

/-- REGION_OFFLINE_EFFECTIVE: from acceptance plus 10 µs region `n` counts as offline: its cores, spans, fragment table and accounts are
discarded, its shards are down, its connections move to the lowest online region, and rings choose their targets again (R207, R221,
R342, R452, R492, R537). -/
def execRegionOfflineEffective (n : Nat) (s : State) : Host.Outcome State Fault Refusal :=
  .next <|
    if s.srv n ≠ srvDRAINING ∨ s.get .SRV_effective 0 n = 1 then s
    else
      let s := (s.advanceTo (s.get .SRV_accept_at 0 n + 10 * usUnits)).set .SRV_effective 1 0 n
      let s := match s.onlineRegions with
        | m :: _ => s.set .SIL_REDIRECT_region m 0 n
        | [] => s
      let s := ((s.coresDiscard n).fragLost n).accountsDiscard n
      let s := s.each (s.tablesIn n) (fun t s => s.setb .EXM_TABLE_STAT_shard_down n true 0 t)
      s.ringsRetarget

/-- Packets still in region `n`. -/
def State.regionPkts (s : State) (n : Nat) : List Nat :=
  (s.keysOf .PKT_live).filterMap (fun k => if s.get .PKT_in_region 0 k.2 = 1 ∧ s.get .PKT_region 0 k.2 = n then some k.2 else none)

/-- Frames of region `n`'s packet buffer that wait in a transmit queue: IOD, queue, packet (R297). -/
def State.regionQueued (s : State) (n : Nat) : List (Nat × Nat × Nat) :=
  (s.lkeysOf .txq).flatMap (fun k => ((s.lget .txq k.1 k.2).filter (fun h => decide (s.get .PKT_buf 0 h = 1 ∧ s.get .PKT_region 0 h = n))).map
    (fun h => (k.1, k.2, h)))

/-- What is left of region `n`'s packets is lost: held fragments with FRAG_REGION_DOWN (R207), the others, and the queued frames whose data
is in its packet buffer, with REGION_OFFLINE (R297, R537). -/
def State.regionPktsLost (s : State) (n : Nat) : State :=
  let s := s.fragLost n
  let s := s.each (s.regionPkts n) (fun h s => s.dropPkt h reasonREGION_OFFLINE)
  s.each (s.regionQueued n) (fun x s => (s.dequeue x.1 x.2.1 x.2.2).dropPkt x.2.2 reasonREGION_OFFLINE)

/-- REGION_DRAIN_DONE: region `n` has drained, or its drain time has passed and what is left is dropped with REGION_OFFLINE; cached
contexts are written back, but for those of `lost` after a fault, which enter ERROR; BIST starts (R537, R538, R541). -/
def execRegionDrainDone (n : Nat) (lost : List Nat) (s : State) : Host.Outcome State Fault Refusal :=
  .next <|
    if s.srv n ≠ srvDRAINING ∨ s.get .SRV_effective 0 n = 0 then s
    else
      let s := if s.regionPkts n = [] ∧ s.regionQueued n = [] ∧ s.regionCmds n = [] then s.fragLost n
        else
          let s := s.advanceTo (s.get .SRV_accept_at 0 n + 10 * usUnits + s.get .SRV_limit 0 n * usUnits)
          (s.regionPktsLost n).storeRegionLost n
      let s := if s.get .SRV_fault 0 n = 1 then
          s.each lost (fun c s => if s.get .CACHE_in n c = 1 then (s.set .CACHE_in 0 n c).cnError c else s)
        else s
      (s.cacheWriteBack n).set .ERR_REGION_STATE_state srvTESTING 0 n

/-- Cells of block `b` among the cells that failed BIST. -/
def blockFails (failed : List Nat) (b : Nat) : List Nat := (failed.filter (fun i => decide (i / 17 = b))).eraseDups

/-- A block after BIST: the cells that failed are quarantined; with none its spare is free again, with one the spare is in its
place (R30, R539). -/
def State.blockBist (s : State) (n b : Nat) (failed : List Nat) : State :=
  let f := blockFails failed b
  let s := s.each (List.range 17) (fun c s => (s.set .CELL_quar (b2n (f.contains (b * 17 + c))) n (b * 17 + c)).set .CELL_retry 0 n (b * 17 + c))
  (s.set .CELL_spare_used (b2n (f ≠ [])) n b).set .CELL_spare_for (f.headD 0 % 17) n b

/-- The SRAM of region `n` after BIST holds what memory that nothing has written reads as (log entry 6); its shards are empty (R221,
R539). -/
def State.sramBist (s : State) (n : Nat) : State :=
  let s := s.mzero ((4 + n / 2) * 2 ^ 44 + 0x10000000 + n % 2 * 0x2000000) 0x2000000
  let s := s.each ((s.keysOf .EXE).filter (fun k => decide (k.1 = n))) (fun k s => s.set .EXE 0 k.1 k.2)
  s.each (s.tablesIn n) (fun t s => s.emStat t)

/-- REGION_BIST_END: BIST has tested region `n`; `failed` lists the cells that failed, block × 17 + cell (R539). -/
def execRegionBistEnd (n : Nat) (failed : List Nat) (s : State) : Host.Outcome State Fault Refusal :=
  .next <|
    if s.srv n ≠ srvTESTING then s
    else
      let s := (s.each (List.range 16) (fun b s => s.blockBist n b failed)).sramBist n
      let bad := (List.range 16).filter (fun b => decide (2 ≤ (blockFails failed b).length))
      let s := s.set .ERR_REGION_STATE_spares_used (((List.range 16).filter (fun b => decide (s.get .CELL_spare_used n b = 1))).length) 0 n
      let s := s.set .ERR_REGION_STATE_failed_blocks (bad.foldl (fun m b => m + 2 ^ b) 0) 0 n
      if bad = [] then ((s.set .ERR_REGION_STATE_bist_pass 1 0 n).set .ERR_REGION_STATE_state srvOFFLINE 0 n).srvBusy
      else ((s.set .ERR_REGION_STATE_state srvFAILED 0 n).srvBusy).report
        { src := 0x18, cls := .contained, level := some 2, die := 4 + n / 2, region := n }

/-- REGION_ONLINE: ONLINE for region `n`: rejected, or the copies into the region begin (R536, R540, R541). -/
def execRegionOnline (n : Nat) (s : State) : Host.Outcome State Fault Refusal :=
  .next <|
    let r := s.srvCheck n true false
    let s := s.set .ERR_REGION_CMD_result r
    if r ≠ 0 then s else ((s.set .ERR_REGION_STATE_state srvRETURNING 0 n).set .SRV_fault 0 0 n).srvBusy

/-- One TCAM table instance is copied from its home replica into region `n` (R253). -/
def State.tcCopyIn (s : State) (n ti : Nat) : State :=
  match s.tcRegions ti with
  | [] => s
  | m :: _ =>
    let s := s.tcClear ti (fun k => decide (k = n))
    s.each (s.tcUnits m ti) (fun u s => s.tcPut n ti u (s.get .TCE_width m u) (s.get .TCE_prio m u) (s.get .TCE_res m u) (s.get .TCE_key m u)
      (s.get .TCE_mask m u))

/-- Every TCAM table is copied from its home replica into region `n` (R253). -/
def State.tcReturn (s : State) (n : Nat) : State :=
  s.each ((s.lkeysOf .tblLay).filter (fun k => decide (layKind (s.lay k.2) = 2) && (laySet (s.lay k.2)).testBit n)) (fun k s => s.tcCopyIn n k.2)

/-- REGION_RETURN_COMPLETE: the copies into region `n` are complete: SHARD_EMPTY is posted for its shards, every context of home `n` is
written back and SIL_REDIRECT restored, and steering resumes (R221, R253, R264, R342, R540, R541). -/
def execRegionReturnComplete (n : Nat) (s : State) : Host.Outcome State Fault Refusal :=
  .next <|
    if s.srv n ≠ srvRETURNING then s
    else
      let s := (s.tcReturn n).patReturn n
      let s := s.each (s.tablesIn n) (fun t s => (s.setb .EXM_TABLE_STAT_shard_down n false 0 t).exmEvent 7 n t 0 0 0 0)
      let s := s.each (s.keysOf .CACHE_in) (fun k s => if s.cnHome k.2 = n then s.set .CACHE_in 0 k.1 k.2 else s)
      let s := s.set .SIL_REDIRECT_region n 0 n
      ((s.set .SRV_effective 0 0 n).set .ERR_REGION_STATE_state 0 0 n).srvBusy

/-- TCAM_BANK_TEST: the next bank of region `n` is swapped with the shadow and tested. A first bank that fails stays replaced by the shadow;
with no shadow left, the entries of `stuck`, which failed, become stuck (R248, R542). -/
def execTcamBankTest (n : Nat) (pass : Bool) (stuck : List Nat) (s : State) : Host.Outcome State Fault Refusal :=
  .next <|
    if !s.online n then s
    else
      let s := s.advanceTo (s.get .SRV_tcam_at n + max 1 (s.get .ERR_TEST_CFG_tcam_period_s) * secUnits)
      let b := s.get .SRV_tcam_bank n
      let b := if s.get .SRV_tcam_shadow n = b + 1 then (b + 1) % 4 else b
      let s := (s.set .SRV_tcam_at s.now n).set .SRV_tcam_bank (b + 1) n
      let e : Err := { src := 0x0D, cls := .corrected, level := some 1, die := 4 + n / 2, region := n }
      if pass then s
      else if s.get .SRV_tcam_shadow n = 0 then (s.set .SRV_tcam_shadow (b + 1) n).report e
      else
        let s := s.each stuck (fun u s =>
          if u / 4096 = b ∧ s.get .TCE_inst n u ≠ 0 ∧ s.get .TCE_stuck n u = 0 then
            ((s.set .TCE_quar 1 n u).set .TCE_stuck 1 n u).tcStuckStat n
          else s)
        s.report { e with cls := .contained }

/-- CIPHER_KAT: a known-answer operation in the cipher block of region `k`, or for `k` 8 and 9 in the MACsec engines of an IOD: a region block
that fails is a region fault; a MACsec engine that fails stops its IOD's SecYs (R543). -/
def execCipherKat (k : Nat) (pass : Bool) (s : State) : Host.Outcome State Fault Refusal :=
  .next <|
    if pass then s
    else if k < 8 then
      if s.offlineForTest k then s
      else (s.report { src := 0x10, cls := .contained, level := some 1, die := 4 + k / 2, region := k }).regionFault k
    else (s.report { src := 0x10, cls := .contained, die := k - 6, region := k }).set .ETH_kat_fail 1 (k - 8)

/-- What the reader of an uncorrectable word does (R544). `kind` tells the reader: 0 the entry of key `y` of table `x` is deleted, 1 connection
`x` enters ERROR, 2 key slot `x` is corrupt, 3 block `y` / 32, cell `y` mod 32 of region `x` has failed, 4 the packet `x`, if any, is dropped. -/
def State.poisonRead (s : State) (kind x y : Nat) : State :=
  match kind with
  | 0 =>
    match s.liveTi x with
    | some ti => if (s.emEntry ti y).isSome then s.emDelete x ti y else s
    | none => s
  | 1 => s.cnError x
  | 2 => (s.set .KEY_bad 1 0 x).slotCorrupt x
  | 3 => s.cellFault (x % 8) (y / 32) (y % 32) true true 0
  | _ => if s.get .PKT_live 0 x = 1 then s.dropPkt x reasonPOISON else s

/-- Tenant that an uncorrectable word's reader belongs to (R532). -/
def State.poisonTenant (s : State) (kind x y : Nat) : Nat :=
  match kind with
  | 0 =>
    match s.liveTi x with
    | some ti => if layKey (s.lay ti) ≤ layTen (s.lay ti) then 0 else bitsOf y (8 * layTen (s.lay ti)) 8
    | none => 0
  | 1 => s.cnTenant x
  | 2 => attrTenant (s.slotAttr x)
  | 3 => 0
  | _ => if s.get .PKT_live 0 x = 1 then s.pktTenant x else 0

/-- An uncorrectable word is poisoned: what its 8 bytes of a memory window hold from here on is a free value (R544). -/
def State.poison (s : State) (a : Nat) : State :=
  if s.target a = .mem then
    let (s, l) := s.freeBytes 8
    s.mwrite (a / 8 * 8) l
  else s

/-- Region whose SRAM holds device address `a`, 15 for HBM (Table PKG-7, ERR_LOG). -/
def sramRegion (a : Nat) : Nat :=
  let d := a / 2 ^ 44
  if a / 2 ^ 36 % 256 ≠ 0 then 15
  else if 4 ≤ d then 2 * (d - 4) + a / 0x2000000 % 2
  else if d = 0 then 10 else if d = 1 then 11 else 6 + d

/-- A scrub pass meets at address `a` a single error (`found` 1), which it corrects, or an uncorrectable word (2), whose reader acts
(R544). -/
def State.scrub (s : State) (a found kind x y : Nat) : State :=
  match found with
  | 1 => s.report { src := 0x14, cls := .corrected, die := a / 2 ^ 44, region := sramRegion a, addr := a }
  | 2 =>
    let t := s.poisonTenant kind x y
    ((s.poison a).report { src := 0x15, cls := .contained, die := a / 2 ^ 44, region := sramRegion a, addr := a, tenant := t }).poisonRead kind x y
  | _ => s

/-- SRAM_SCRUB: a pass over the SRAM of die `d`, and what it finds at offset `o` (R544). -/
def execSramScrub (d o found kind x y : Nat) (s : State) : Host.Outcome State Fault Refusal :=
  .next <|
    let s := s.advanceTo (s.get .SRV_sram_at 0 d + max 1 (s.get .ERR_TEST_CFG_sram_scrub_s) * secUnits)
    (s.set .SRV_sram_at s.now 0 d).scrub (d * 2 ^ 44 + o) found kind x y

/-- Whether a tenant window of stack `k` covers part of tenant-pool channel `pc`. -/
def State.channelUsed (s : State) (k pc : Nat) : Bool :=
  (List.range 256).any (fun t => decide (s.get .TEN_STATE_state 0 t ≠ 0) &&
    (recWindows (s.get .TREC 0 t)).any (fun w => decide (w.2.1 = k) && rangesCross (w.1, w.2.2) (384 * (pc - 16), 384)))

/-- The substitute for a channel of 0 to 15: the highest tenant-pool channel of the stack that is in service and in no tenant window
(R547). -/
def State.substituteOf (s : State) (k : Nat) : Option Nat :=
  ((List.range 16).map (fun j => 31 - j)).find? (fun j => decide (s.get .ERR_HBM_PC_state 0 (k * 32 + j) = 0) && !s.channelUsed k j)

/-- HBM_PC_RETIRED. -/
def hbmRetired (k : Nat) (c : ErrClass) (detail : Option Nat := none) : Err :=
  { src := 0x16, cls := c, die := 5 + k, detail := detail }

/-- Channel `pc` of stack `k` is retired: a tenant-pool channel becomes unmapped, another is copied to its substitute, or, without one,
stays; a retirement waits while a copy is in progress (R546, R547). -/
def State.hbmRetire (s : State) (k pc : Nat) : State :=
  let i := k * 32 + pc
  if s.get .ERR_HBM_PC_state 0 i ≠ 0 then s
  else if s.get .ERR_HBM_CMD_busy = 1 then if (s.lget .hbmWait).contains i then s else s.lpush .hbmWait i
  else if 16 ≤ pc then (s.set .ERR_HBM_PC_state 2 0 i).report (hbmRetired k .contained)
  else
    match s.substituteOf k with
    | none => s.report (hbmRetired k .contained (some 0xFFFF))
    | some j =>
      let s := ((s.set .ERR_HBM_PC_state 1 0 i).set .ERR_HBM_PC_partner j 0 i).set .ERR_HBM_CMD_busy 1
      (s.set .ERR_HBM_PC_state 1 0 (k * 32 + j)).set .ERR_HBM_PC_partner pc 0 (k * 32 + j)

/-- HBM_PC_RETIRE: a pseudo-channel is retired (R546). -/
def execHbmPcRetire (k pc : Nat) (s : State) : Host.Outcome State Fault Refusal := .next (s.hbmRetire k pc)

/-- Retirements that waited, each until one begins another copy. -/
def State.hbmNext (s : State) : List Nat → State
  | [] => s.lset .hbmWait []
  | i :: r => if s.get .ERR_HBM_CMD_busy = 1 then s.lset .hbmWait (i :: r) else (s.hbmRetire (i / 32) (i % 32)).hbmNext r

/-- HBM_PC_SUBSTITUTE_DONE: the copy of a retired channel is complete and the channel remapped; the substitute's own range is unmapped
(R547). -/
def execHbmPcSubstituteDone (s : State) : Host.Outcome State Fault Refusal :=
  .next <|
    match (List.range 64).find? (fun i => decide (i % 32 < 16 ∧ s.get .ERR_HBM_PC_state 0 i = 1)) with
    | none => s
    | some i =>
      let j := i / 32 * 32 + s.get .ERR_HBM_PC_partner 0 i
      let s := ((s.set .ERR_HBM_PC_state 2 0 i).set .ERR_HBM_PC_state 3 0 j).set .ERR_HBM_CMD_busy 0
      (s.report (hbmRetired (i / 32) .corrected)).hbmNext (s.lget .hbmWait)

/-- A corrected error in channel `i` is counted; more than retire_thr in 24 h retire it when auto_retire is 1 (R546). -/
def State.hbmCorrected (s : State) (i : Nat) : State :=
  let l := s.now :: (s.lget .hbmTimes 0 i).filter (fun t => decide (s.now ≤ t + 86400 * secUnits))
  let s := (s.bump .ERR_HBM_PC_corr_cnt 0 i).lset .hbmTimes l 0 i
  if s.get .ERR_HBM_CMD_auto_retire = 1 ∧ s.get .ERR_HBM_CMD_retire_thr < l.length then s.hbmRetire (i / 32) (i % 32) else s

/-- HBM_SCRUB: a pass over stack `k`, and what it finds at byte `o` of the stack (R544, R546). -/
def execHbmScrub (k o found kind x y : Nat) (s : State) : Host.Outcome State Fault Refusal :=
  .next <|
    let s := s.advanceTo (s.get .SRV_hbm_at 0 k + max 1 (s.get .ERR_TEST_CFG_hbm_scrub_h) * 3600 * secUnits)
    let s := (s.set .SRV_hbm_at s.now 0 k).scrub ((5 + k) * 2 ^ 44 + 0x1000000000 + o) found kind x y
    let i := k * 32 + o / 0x30000000
    match found with
    | 1 => s.hbmCorrected i
    | 2 => s.when (decide (s.get .ERR_HBM_CMD_auto_retire = 1)) (·.hbmRetire (i / 32) (i % 32))
    | _ => s

/-- The TAP executes an instruction: what it selects and what drives the pins (R548). -/
def State.tap (s : State) (inst pins : Nat) : State := (s.set .JTAG_inst inst).set .JTAG_pins pins

/-- BYPASS: the bypass register, which captures 0 (R548). -/
def execBypass (s : State) : Host.Outcome State Fault Refusal := .next ((s.tap 0 0).answer [0])

/-- IDCODE: 0x1B88_012F (R548). -/
def execIdcode (s : State) : Host.Outcome State Fault Refusal := .next ((s.tap 1 0).answer [0x1B88012F])

/-- SAMPLE/PRELOAD: the boundary register takes `bits` and shows the pins. Its order is the BSDL file's, which the spec does not hold: what it
shows is a free value (R548; log entry 70). -/
def execSamplePreload (bits : List Nat) (s : State) : Host.Outcome State Fault Refusal :=
  .next <|
    let (s, l) := ((s.tap 2 0).lset .bscan bits).freeBytes bits.length
    s.answer (l.map (· % 2))

/-- EXTEST, CLAMP and HIGHZ are executed only below stage 2, else they are BYPASS (R548). -/
def State.tapBelow2 (s : State) (inst pins : Nat) : State :=
  if s.get .BOOT_STATUS_stage < 2 then s.tap inst pins else s.tap 0 0

/-- EXTEST: the boundary register drives the pins and shows them (R548; log entry 70). -/
def execExtest (s : State) : Host.Outcome State Fault Refusal :=
  .next <|
    if s.get .BOOT_STATUS_stage < 2 then
      let (s, l) := (s.tap 3 1).freeBytes (s.lget .bscan).length
      s.answer (l.map (· % 2))
    else (s.tap 0 0).answer [0]

/-- CLAMP: the boundary register drives the pins and the bypass register is selected (R548). -/
def execClamp (s : State) : Host.Outcome State Fault Refusal := .next ((s.tapBelow2 4 1).answer [0])

/-- HIGHZ: the pins are high-impedance and the bypass register is selected (R548). -/
def execHighz (s : State) : Host.Outcome State Fault Refusal := .next ((s.tapBelow2 5 2).answer [0])

end Sys2Proof.Machine
end

