-- ==== Sys2Proof/Machine/Tcam.lean ====
section
/-! DEFINITION. TCAM tables: searches by cells, repair of quarantined entries and the table commands of spec file 08. `bad` names the
units whose match rows wrongly match (R247), `lost` those whose match rows do not match their own key (R249). -/

namespace Sys2Proof.Machine

/-- The search key of a LOOKUP_TCAM word: operand A and the key-map segments, key bit 0 the most significant bit of A (R242). -/
def State.tcCellKey (s : State) (cell h w : Nat) (l : List Nat) : Nat :=
  let k := (tlMap l).foldl (fun acc seg => acc * 2 ^ seg.2 + s.cellOperand cell h seg.1 seg.2) (s.opA cell h w)
  k * 2 ^ (640 - tlBits l) % 2 ^ 640

/-- Metadata [879:768] of a search (Table ASOC-3). -/
def State.tcMeta (s : State) (n : Nat) (r : TcHit) : Nat :=
  let fl := b2n r.reresolved * 4 + b2n r.failed * 8
  match r.unit with
  | none => fl
  | some u => 1 + b2n r.multi * 2 + fl + u * 2 ^ 16 + s.get .TCE_prio n u * 2 ^ 32 + s.get .TCE_res n u * 2 ^ 48

/-- The second step of the MOVE of channel `c`: the original is invalidated where its copy stands, and the command ends (R252). -/
def State.moveEnd (s : State) (c : Nat) : State :=
  let ti := s.get .TCM_mv_inst 0 c
  let u := s.get .TCM_mv_src 0 c
  let v := s.get .TCM_mv_dst 0 c
  let has := fun (s : State) (n u : Nat) => decide (s.get .TCE_inst n u = ti + 1)
  let s := s.each (s.tcRegions ti) (fun n s => s.when (has s n u && has s n v) (·.tcRemove n u))
  ((s.set .TCM_mv_on 0 0 c).set .TCM_CH_busy 0 0 c).set .TCM_CH_result 0 0 c

/-- MOVE commands whose 4 µs have passed end, and that of channel `c` (R250, R252; log entry 160). -/
def State.movesDue (s : State) (c : Nat) : State :=
  s.each (s.keysOf .TCM_mv_on) (fun k s =>
    if k.2 = c ∨ s.get .TCM_mv_at 0 k.2 + 4 * usUnits ≤ s.now then s.moveEnd k.2 else s)

/-- LOOKUP_TCAM: a search of table ref with key A in the packet's own region, its result to res and the metadata (R242 to
R247). -/
def execLookupTcam (n cell h : Nat) (bad lost : List Nat) (s : State) : Host.Outcome State Fault Refusal :=
  .next (s.cellDo n cell h 0x21 (fun w s =>
    match s.pktTi h (wRef w) with
    | none => (s.cellRes n cell (wRes w) 0).cellPut cell h (4096 + 768) 112 0
    | some ti =>
      let s := s.movesDue 8
      let (s, r) := s.tcSearch (fun _ _ => true) n ti (s.tcCellKey cell h w (s.lay ti)) (s.pktTenant h) bad lost false 3
      (s.cellRes n cell (wRes w) (b2n r.unit.isSome + 2 * b2n r.multi + 4 * b2n r.failed)).cellPut cell h (4096 + 768) 112
        (s.tcMeta n r)))

/-- TCAM_REPAIR: the match row of a quarantined entry is rewritten from its copy and read back: the quarantine ends when they
agree, else, or when the copy has an uncorrectable error, the entry is stuck (R248). -/
def execTcamRepair (n u : Nat) (agree copyBad : Bool) (s : State) : Host.Outcome State Fault Refusal :=
  .next <|
    if s.get .TCE_inst n u = 0 ∨ s.get .TCE_quar n u = 0 ∨ s.get .TCE_stuck n u = 1 then s
    else if agree && !copyBad then s.set .TCE_quar 0 n u
    else
      let s := ((s.set .TCE_stuck 1 n u).set .TCE_bad (b2n copyBad) n u).tcStuckStat n
      let s := s.when (decide (s.get .TCM_QUAR_LOG_unit n = u)) (·.set .TCM_QUAR_LOG_stuck 1 n)
      s.report { src := 0x0C, cls := .contained, die := 4 + n / 2, region := n }

/-- A command ends with a result (Table ASOC-5). -/
def State.tcmRes (s : State) (c r : Nat) : State := (s.set .TCM_CH_busy 0 0 c).set .TCM_CH_result r 0 c

/-- A TCAM command on channel `c`: BAD_TABLE where no live TCAM table has the id, OFFLINE while no region of its set is online
(R253). `f` takes the instance, its layout and its online regions, the home replica first. -/
def State.tcmCmd (s : State) (c t : Nat) (f : Nat → List Nat → Nat → List Nat → State → State) : State :=
  let s := s.movesDue c
  match s.liveTi t with
  | none => s.tcmRes c 5
  | some ti =>
    if layKind (s.lay ti) ≠ 2 then s.tcmRes c 5
    else match s.tcRegions ti with
      | [] => s.tcmRes c 6
      | n :: r => f ti (s.lay ti) n (n :: r) s

/-- Bytes of a channel's key or mask words. -/
def State.tcmBytes (s : State) (f : Field) (c : Nat) : List Nat :=
  (List.range 20).flatMap (fun j => leBytes 4 (s.get f 0 (c * 20 + j)))

/-- A key or mask returned to a channel's words. -/
def State.tcmShow (s : State) (f : Field) (c k : Nat) : State :=
  s.each (List.range 20) (fun j s => s.set f (leNat (slice (tcBytes k) (4 * j) 4)) 0 (c * 20 + j))

/-- The search key of a channel: key bits from key_bits up are 0 (R242). -/
def State.tcmKey (s : State) (c : Nat) (l : List Nat) : Nat :=
  tcKey 4 (s.tcmBytes .TCM_CH_key c) / 2 ^ (640 - tlBits l) * 2 ^ (640 - tlBits l)

/-- A search's winner is returned, and becomes the cursor (R251; log entry 32); END without one. -/
def State.tcmHit (s : State) (c n : Nat) (r : TcHit) : State :=
  match r.unit with
  | none => (s.set .TCM_CH_multi 0 0 c).tcmRes c 7
  | some u =>
    let s := ((s.set .TCM_CH_unit u 0 c).set .TCM_CH_priority (s.get .TCE_prio n u) 0 c).set .TCM_CH_entry_result (s.get .TCE_res n u) 0 c
    (((s.set .TCM_CH_multi (b2n r.multi) 0 c).set .TCM_CH_cur_priority (s.get .TCE_prio n u) 0 c).set .TCM_CH_cur_unit u 0 c).tcmRes c 0

/-- TCM_SEARCH: the winner's unit, priority, result and multi, as a search from the home replica. -/
def execTcmSearch (c t : Nat) (bad lost : List Nat) (s : State) : Host.Outcome State Fault Refusal :=
  .next (s.tcmCmd c t (fun ti l n _ s =>
    let (s, r) := s.tcSearch (fun _ _ => true) n ti (s.tcmKey c l) 0 bad lost false 3
    s.tcmHit c n r))

/-- TCM_STEP: the best match after the cursor in (priority, unit) order, which becomes the cursor, or END (R251). -/
def execTcmStep (c t : Nat) (bad lost : List Nat) (s : State) : Host.Outcome State Fault Refusal :=
  .next (s.tcmCmd c t (fun ti l n _ s =>
    let cp := s.get .TCM_CH_cur_priority 0 c
    let cu := s.get .TCM_CH_cur_unit 0 c
    let (s, r) := s.tcSearch (fun s u => decide (cp < s.get .TCE_prio n u ∨ (cp = s.get .TCE_prio n u ∧ cu < u))) n ti
      (s.tcmKey c l) 0 bad lost false 3
    s.tcmHit c n r))

/-- Whether an entry of a width may stand at unit `u` of a table (R238; BAD_INDEX of Table ASOC-5). -/
def tcIndexOk (l : List Nat) (u w : Nat) : Bool :=
  decide (w ≤ tlWidth l ∧ w ≤ 2 ∧ u % unitsOf w = 0 ∧ tlFirst l ≤ u ∧ u + unitsOf w ≤ tlFirst l + tlUnits l)

/-- Whether a table's entry begins at unit `u` of region `n`. -/
def State.tcHas (s : State) (n ti u : Nat) : Bool := decide (s.get .TCE_inst n u = ti + 1)

/-- A command on the entry at a unit: BAD_INDEX outside the range, NOT_FOUND without an entry. -/
def State.tcmEntry (s : State) (c ti : Nat) (l : List Nat) (n u : Nat) (f : State → State) : State :=
  if u < tlFirst l ∨ tlFirst l + tlUnits l ≤ u then s.tcmRes c 3
  else if s.tcHas n ti u then f s else s.tcmRes c 1

/-- TCM_WRITE: an entry written into free units of every online replica (R250, R253). -/
def execTcmWrite (c t : Nat) (s : State) : Host.Outcome State Fault Refusal :=
  .next (s.tcmCmd c t (fun ti l n ns s =>
    let u := s.get .TCM_CH_unit 0 c
    let w := s.get .TCM_CH_width 0 c
    if !tcIndexOk l u w then s.tcmRes c 3
    else if s.tcOccupied n u (unitsOf w) then s.tcmRes c 2
    else
      (s.each ns (fun m s => s.tcPut m ti u w (s.get .TCM_CH_priority 0 c) (s.get .TCM_CH_entry_result 0 c)
        (tcKey (unitsOf w) (s.tcmBytes .TCM_CH_key c)) (tcKey (unitsOf w) (s.tcmBytes .TCM_CH_mask c)))).tcmRes c 0))

/-- TCM_UPDATE: priority and result replaced; key and mask unchanged. -/
def execTcmUpdate (c t : Nat) (s : State) : Host.Outcome State Fault Refusal :=
  .next (s.tcmCmd c t (fun ti l n ns s =>
    let u := s.get .TCM_CH_unit 0 c
    s.tcmEntry c ti l n u (fun s =>
      (s.each ns (fun m s => s.when (s.tcHas m ti u) (fun s =>
        (s.set .TCE_prio (s.get .TCM_CH_priority 0 c) m u).set .TCE_res (s.get .TCM_CH_entry_result 0 c) m u))).tcmRes c 0)))

/-- TCM_INVALIDATE: the entry removed, quarantined or not. -/
def execTcmInvalidate (c t : Nat) (s : State) : Host.Outcome State Fault Refusal :=
  .next (s.tcmCmd c t (fun ti l n ns s =>
    let u := s.get .TCM_CH_unit 0 c
    s.tcmEntry c ti l n u (fun s =>
      (s.each ns (fun m s => s.when (s.tcHas m ti u) (fun s => s.tcRemove m u))).tcmRes c 0)))

/-- An entry's ECC copy: priority, result, key and mask. What a copy with an uncorrectable error holds is a free value (log entry
33). -/
def State.tcCopy (s : State) (n u : Nat) : Nat × Nat × Nat × Nat :=
  if s.get .TCE_bad n u = 1 then
    let v := Config.freeValue s.free
    (v % 2 ^ 16, v / 2 ^ 16 % 2 ^ 64, v / 2 ^ 80 % 2 ^ 640, v / 2 ^ 720 % 2 ^ 640)
  else (s.get .TCE_prio n u, s.get .TCE_res n u, s.get .TCE_key n u, s.get .TCE_mask n u)

/-- TCM_READ: the ECC copy, with quarantined and copy_bad. -/
def execTcmRead (c t : Nat) (s : State) : Host.Outcome State Fault Refusal :=
  .next (s.tcmCmd c t (fun ti l n _ s =>
    let u := s.get .TCM_CH_unit 0 c
    s.tcmEntry c ti l n u (fun s =>
      let (p, r, k, m) := s.tcCopy n u
      let s := ((s.set .TCM_CH_width (s.get .TCE_width n u) 0 c).set .TCM_CH_quarantined (s.get .TCE_quar n u) 0 c).set .TCM_CH_copy_bad
        (s.get .TCE_bad n u) 0 c
      let s := ((s.set .TCM_CH_priority p 0 c).set .TCM_CH_entry_result r 0 c).when (decide (s.get .TCE_bad n u = 1)) (·.drew)
      (((s.tcmShow .TCM_CH_key c k).tcmShow .TCM_CH_mask c m)).tcmRes c 0)))

/-- One replica's part of a MOVE's first step: the entry made valid at dst from its copy (R252). -/
def State.tcMove1 (s : State) (n ti u v : Nat) : State :=
  if s.tcHas n ti u then
    let (p, r, k, m) := s.tcCopy n u
    let bad := s.get .TCE_bad n u
    ((s.tcPut n ti v (s.get .TCE_width n u) p r k m).set .TCE_bad bad n v).when (decide (bad = 1)) (·.drew)
  else s

/-- A MOVE stands between its two steps: both copies are valid, and the channel is busy (R252). -/
def State.moveOpen (s : State) (c ti u v : Nat) : State :=
  (((((s.set .TCM_mv_on 1 0 c).set .TCM_mv_inst ti 0 c).set .TCM_mv_src u 0 c).set .TCM_mv_dst v 0 c).set .TCM_mv_at s.now 0 c).set
    .TCM_CH_busy 1 0 c

/-- TCM_MOVE: the entry at unit is made valid at dst; the original is invalidated when the command completes (R252; log entry 160). -/
def execTcmMove (c t : Nat) (s : State) : Host.Outcome State Fault Refusal :=
  .next (s.tcmCmd c t (fun ti l n ns s =>
    let u := s.get .TCM_CH_unit 0 c
    let v := s.get .TCM_CH_dst 0 c
    s.tcmEntry c ti l n u (fun s =>
      let w := s.get .TCE_width n u
      if !tcIndexOk l v w then s.tcmRes c 3
      else if s.tcOccupied n v (unitsOf w) then s.tcmRes c 2
      else (s.each ns (fun m s => s.tcMove1 m ti u v)).moveOpen c ti u v)))

end Sys2Proof.Machine
end

