-- ==== Sys2Proof/Machine/RegAccess.lean ====
section
/-! DEFINITION. Accesses over the access paths of R14: a read or write of a device address with the effect the register at that
address gives it, and the commands REGISTER_WRITE, PARTIAL_WRITE, READ_LO, READ_HI, WRITE_LO, WRITE_HI and RC_READ. A write that
issues a command has the effect of that command's own row. -/

namespace Sys2Proof.Machine

/-- The commands of a table channel (Tables EXM-4 and EXM-5); a reserved code is rejected with OPCODE. -/
def State.exmCommand (s : State) (c v : Nat) : State :=
  let t := bitsOf v 6 10
  match v % 16 with
  | 1 => s.run (execExmSearch c t)
  | 2 => s.run (execExmInsert c t)
  | 3 => s.run (execExmUpdate c t (v.testBit 5))
  | 4 => s.run (execExmDelete c t)
  | 5 => s.run (execExmNext c t)
  | 6 => s.run (execFlushByPort c t (v.testBit 4))
  | 7 => s.run (execFlushByTenant c t (v.testBit 4))
  | 8 => s.run (execShadowOpen c t)
  | 9 => s.run (execShadowCopy c t)
  | 10 => s.run (execShadowSwap c t)
  | 11 => s.run (execShadowDiscard c t)
  | _ => if s.get .EXM_CH_busy 0 c = 1 then s else s.exmRes c 4

/-- The commands of a TCAM channel (Table ASOC-4). -/
def State.tcmCommand (s : State) (c v : Nat) : State :=
  let t := bitsOf v 4 10
  match v % 16 with
  | 1 => s.run (execTcmSearch c t [] [])
  | 2 => s.run (execTcmStep c t [] [])
  | 3 => s.run (execTcmWrite c t)
  | 4 => s.run (execTcmUpdate c t)
  | 5 => s.run (execTcmInvalidate c t)
  | 6 => s.run (execTcmRead c t)
  | 7 => s.run (execTcmMove c t)
  | _ => if s.get .TCM_CH_busy 0 c = 1 then s else s.tcmRes c 4

/-- The commands of an automata channel (Table ASOC-8). -/
def State.patCommand (s : State) (c v : Nat) : State :=
  let (set, mask) := (bitsOf v 3 6, bitsOf v 16 8)
  match v % 8 with
  | 1 => s.run (execLoadSet c set mask)
  | 2 => s.run (execActivateSet c set)
  | 3 => s.run (execDeleteSet c set mask)
  | 4 => s.run (execPatScan c set mask)
  | _ => if s.get .PAT_CH_busy 0 c = 1 then s else s.patRes c 4

/-- The commands of a connection channel (Table SILL-5). -/
def State.silCommand (s : State) (ch v : Nat) : State :=
  let c := bitsOf v 4 22
  match v % 16 with
  | 1 => s.run (execSilCreate ch c)
  | 2 => s.run (execSilModify ch c)
  | 3 => s.run (execSilDestroy ch c)
  | 4 => s.run (execSilQuery ch c)
  | _ => if s.get .SIL_CH_busy 0 ch = 1 then s else s.silRes ch 1

/-- The commands of a memory-key channel (Table MREG-4). -/
def State.mkyCommand (s : State) (ch v : Nat) : State :=
  let (k, var) := (bitsOf v 4 20, bitsOf v 24 8)
  match v % 16 with
  | 1 => s.run (execRegisterMkey ch k var)
  | 2 => s.run (execInvalidateMkey ch k var)
  | 3 => s.run (execMkyQuery ch k)
  | 4 => s.run (execPrefetch ch k var)
  | _ => if s.get .MKY_CH_busy 0 ch = 1 then s else s.mkyRes ch 1

/-- The commands of a storage channel (Table STOR-2). -/
def State.nveCommand (s : State) (ch v : Nat) : State :=
  let n := bitsOf v 4 14
  match v % 16 with
  | 1 => s.run (execBeCreate ch n)
  | 2 => s.run (execBeDestroy ch n)
  | 3 => s.run (execNsCreate ch n)
  | 4 => s.run (execNsDelete ch n)
  | 5 => s.run (execNsAttach ch n)
  | 6 => s.run (execNsDetach ch n)
  | 7 => s.run (execNveQuery ch n)
  | _ => if s.get .NVE_CH_busy 0 ch = 1 then s else s.nveRes ch 1

/-- The commands of a key channel (Table CIPH-6). ZEROISE_TENANT over a channel has no presence of its own (R402). -/
def State.keyCommand (s : State) (ch v : Nat) : State :=
  let t := bitsOf v 8 8
  match v % 16 with
  | 1 => s.run (execGenerate ch t)
  | 2 => s.run (execUnwrap ch t)
  | 3 => s.run (execDerive ch t)
  | 4 => s.run (execKeyDestroy ch t)
  | 5 => s.run (execKeyQuery ch t)
  | 6 => s.run (execKeyMac ch t)
  | 7 => s.run (execKeyZeroiseTenant ch t false)
  | _ => if s.get .KEY_CH_busy 0 ch = 1 then s else s.keyRes ch 1

/-- The tenant commands (Table TEN-6). -/
def State.tenCommand (s : State) (v : Nat) : State :=
  let t := bitsOf v 8 8
  match v % 8 with
  | 1 => s.run (execTenCreate t)
  | 2 => s.run (execTenModify t)
  | 3 => s.run (execTenDestroy t)
  | 4 => s.run (execTenResume t)
  | 5 => s.run (execForceFatal t)
  | 6 => s.run (execTenQuery t)
  | _ => if s.get .TEN_CMD_STATUS_busy = 1 then s else s.tenRes 1

/-- The structure-image commands (Table STRC-8). -/
def State.strCommand (s : State) (v : Nat) : State :=
  let mask := bitsOf v 8 8
  match v % 16 with
  | 1 => s.run execStage
  | 2 => s.run (execSwap mask)
  | 3 => s.run (execRollback mask)
  | 4 => s.run execCommit
  | 5 => s.run execStrAbort
  | 6 => s.run (execColdApply (bitsOf v 4 1))
  | op => s.strCmd (fun s => s.strDone op 2 0)

/-- The region commands (ERR_REGION_CMD): drain_limit_us is taken first. -/
def State.regionCommand (s : State) (v : Nat) : State :=
  let s := s.set .ERR_REGION_CMD_drain_limit_us (v / 65536)
  match v % 4 with
  | 1 => s.run (execRegionOffline (bitsOf v 2 3) (v.testBit 5))
  | 2 => s.run (execRegionOnline (bitsOf v 2 3))
  | _ => s

/-- The recovery commands (R518). -/
def State.rcvCommand (s : State) (v : Nat) : State :=
  match v % 8 with
  | 1 => s.run (execRecoveryBegin (bitsOf v 3 2))
  | 2 => s.run execRecoveryChunk
  | 3 => s.run execRecoveryFinish
  | 4 => s.run execRecoveryAbort
  | _ => s

/-- A write of TS_REF_CFG: enabling a reference starts it afresh; a disabled one can stay neither qualified nor selected (R86, R87;
log entry 73). -/
def State.refCfg (s : State) (path addr : Nat) (r : RegRow) (n v : Nat) : State :=
  let was := s.get .TS_REF_CFG_enable 0 n
  let t := (s.regWrite path addr r 0 n v).publishUnc
  if was = 0 ∧ v % 2 = 1 then ((t.set .REF_hist 0 0 n).set .REF_run 0 0 n).set .REF_miss 0 0 n
  else if was = 1 ∧ v % 2 = 0 then (t.disqualify n).evidence s none
  else t

/-- A write of ETH_MSEC_CFG: a change of tx_an ends the dropping of frames of SAs whose PN is not used up (R282). -/
def State.msecCfg (s : State) (path addr : Nat) (r : RegRow) (d p v : Nat) : State :=
  let an := s.get .ETH_MSEC_CFG_tx_an d p
  let s := s.regWrite path addr r d p v
  if s.get .ETH_MSEC_CFG_tx_an d p = an then s
  else s.each (List.range 4) (fun a s => s.when
    (decide (s.get .ETH_MSEC_SA_pn d (saIx p a) < (if s.get .ETH_MSEC_CFG_suite d p < 2 then 2 ^ 32 else 2 ^ 64 - 1)))
    (·.set .ETH_sc_drop 0 d (p * 4 + a)))

/-- A write of ETH_PORT_CFG: enable brings the port up or down, reset_thr acts, lossless moves the headroom reserve, and fc_mode
and lossless say where the XOFF rule acts (Table ETH-3, R273, R274, R279). -/
def State.portCfg (s : State) (path addr : Nat) (r : RegRow) (d p v : Nat) : State :=
  let was := s.get .ETH_PORT_CFG_enable d p
  let s := ((s.regWrite path addr r d p v).hrStat d).xoffCfg d p
  let s := s.when (v.testBit 13) (·.run (execResetThr d p))
  if was = 0 ∧ v % 2 = 1 then s.run (execPortEnable d p)
  else if was = 1 ∧ v % 2 = 0 then s.run (execPortDisable d p)
  else s

/-- A write of a ring's word 0x08: enable acts through the ring's state, the other fields are stored (Table RING-9). -/
def State.ringCfg (s : State) (e r v : Nat) : State :=
  let keep := fun (s : State) => (((s.set .RNG_RING_kind v e r).set .RNG_RING_log2_size (v / 8) e r).set .RNG_RING_pasid_en (v / 512) e r).set
    .RNG_RING_pasid (v / 1024) e r
  if v.testBit 8 then (keep s).run (execRingEnable e r) else keep (s.run (execRingDisable e r))

/-- A write of the run and halt_req bits of a core (R417). -/
def State.coreCtl (s : State) (n i v : Nat) : State :=
  let s := if v % 2 = 1 then s.run (execCoreRun n i) else s.run (execCoreReset n i)
  s.when (v.testBit 1) (·.run (execHaltReq n i))

/-- The effect of writing `v` to a register word: that of the command or event the register's description names, else that of its access
types (R9). -/
def State.regEffect (s : State) (path addr : Nat) (r : RegRow) (sc i v : Nat) : State :=
  match r.reg with
  | .TS_CTRL =>
    let s := s.run (execServoEnWrite v true)
    if bitsOf v 1 2 = 1 then s.run execFaultResolveAToB else if bitsOf v 1 2 = 2 then s.run execFaultResolveBToA else s
  | .TS_TOD_SET_UNC => s.run (execTsTodSetUnc (v % 65536) true)
  | .TS_OSC_CFG => s.run (execOscModeWrite v)
  | .TS_REF_CFG => s.refCfg path addr r i v
  | .TS_CHAIN_DIGEST => if i = 11 then s.run (execChainDigestCommit v) else s.regWrite path addr r sc i v
  | .TS_RING_CFG => (s.regWrite path addr r sc i v).ringResize
  | .TS_AMBER_FETCH => s.run (execTsAmberFetch v)
  | .TS_PPS_CFG =>
    let s := s.regWrite path addr r sc i v
    if v % 2 = 0 ∧ s.get .PPS_high 0 i = 1 then (s.set .PPS_high 0 0 i).emit .pin [i, 0] else s
  | .STR_CMD => s.strCommand v
  | .EXM_CH_W00 => s.exmCommand i v
  | .TCM_CH_W00 => s.tcmCommand i v
  | .PAT_CH_W00 => s.patCommand i v
  | .SIL_CH_W00 => s.silCommand i v
  | .MKY_CH_W00 => s.mkyCommand i v
  | .NVE_CH_W00 => s.nveCommand i v
  | .KEY_CH_W00 => s.keyCommand i v
  | .TEN_CMD => s.tenCommand v
  | .CLS_POLICER_W0C => s.run (execPolicerApply sc i (v % 2 ^ 24))
  | .SCH_NODE_W10 => s.run (execShaperApply sc i (v % 2 ^ 24))
  | .SCH_NODE_W18 => if i < 9216 then s else s.regWrite path addr r sc i v
  | .ETH_MODE => s.run (execEthModeWrite sc v)
  | .ETH_PORT_CFG => s.portCfg path addr r sc i v
  | .ETH_MSEC_CFG => s.msecCfg path addr r sc i v
  | .ETH_PFC_CLASS => ((s.regWrite path addr r sc i v).hrStat sc).xoffCfg sc (i / 8)
  | .ETH_MSEC_SA_W00 =>
    let s := s.regWrite path addr r sc i v
    if v.testBit 24 then s.run (execSaValidWrite sc (i / 132) (i % 132)) else s.saInvalid sc (i / 132) (i % 132)
  | .SIL_REDIRECT => if s.online (v % 8) then s.regWrite path addr r sc i v else s
  | .COR_CORE_W00 => s.coreCtl sc i v
  | .COR_CORE_entry_LO | .COR_CORE_entry_HI | .COR_CORE_arg_LO | .COR_CORE_arg_HI =>
    if s.get .COR_CORE_state sc i = 0 then s.regWrite path addr r sc i v else s
  | .COR_Q_W10 => s.run (execQueueConsWrite sc i v)
  | .COR_IPI => s.run (execCorIpi (bitsOf v 0 6) (bitsOf v 6 3) (bitsOf v 9 8))
  | .PCI_EP_CFG =>
    let was := s.get .PCI_EP_CFG_cfg_ready sc
    let s := s.regWrite path addr r sc i v
    if was = 0 ∧ v % 2 = 1 then s.readiness sc else s
  | .RNG_FN_MAP_W00 => s.run (execFnMapWrite sc i (v % 2 ^ 15) (s.get .RNG_FN_MAP_ring_count sc i))
  | .RNG_FN_MAP_W04 => s.run (execFnMapWrite sc i (s.get .RNG_FN_MAP_ring_base sc i) (v % 2 ^ 16))
  | .RNG_RING_W08 => s.ringCfg sc i v
  | .TEN_FN_OWNER => s.run (execFnOwnerWrite sc i v)
  | .AGE_CFG =>
    let s := s.regWrite path addr r sc i v
    if s.get .BOOT_STATUS_stage = 0 then s else s.each (List.range 8) (fun n s => s.ageDerive n)
  | .NRL_PMBUS_CFG =>
    let was := s.nRails
    let s := s.regWrite path addr r sc i v
    s.each ((List.range s.nRails).drop was) (fun k s => s.set .NRL_rail_at s.now 0 k)
  | .PAT_REGION_CFG => (s.regWrite path addr r sc i v).patBypass sc
  | .BOOT_CTRL => if v % 2 = 1 ∧ 4 ≤ path then s.run (execFwAlive (path - 4)) else s
  | .BOOT_ARB => s.run (execBootArb (bitsOf v 8 7))
  | .BOOT_RCV_CTRL => s.rcvCommand v
  | .ONX_CTRL =>
    let s := s.when (v.testBit 0) (·.run execOnyxSubmit)
    s.when (v.testBit 1) (·.run execOnyxCancel)
  | .ERR_REGION_CMD => s.regionCommand v
  | .ERR_HBM_CMD => ((s.set .ERR_HBM_CMD_auto_retire (v / 64)).set .ERR_HBM_CMD_retire_thr (v / 256)).run
      (execHbmPcRetire (bitsOf v 5 1) (bitsOf v 0 5))
  | .TMX_CFG | .TMX_SEL => if s.get .ONX_STATUS_debug_unlocked = 1 then s.regWrite path addr r sc i v else s
  | _ => s.regWrite path addr r sc i v

/-- Fields that show what other state holds at the moment of the read. -/
def State.live (s : State) (r : RegRow) (sc i : Nat) : State :=
  match r.reg with
  | .TS_STATUS | .TS_NOW_LO => s.growHold
  | .TCM_CH_W04 => s.movesDue i
  | .SCH_NODE_W14 =>
    (((s.set .SCH_NODE_backlogged (b2n (s.nodeBacklogged sc i)) sc i).set .SCH_NODE_shaped (b2n (s.nodeShaped sc i)) sc i).set
      .SCH_NODE_committed (b2n (s.nodeCommitted sc i)) sc i).set .SCH_NODE_held (b2n (s.nodeHeld sc i)) sc i
  | .STR_WDOG => s.set .STR_WDOG_remaining
      (if s.get .STR_STATUS_wdog_running = 1 then (s.get .STR_wdog_at - s.now + 100 * msUnits - 1) / (100 * msUnits) else 0)
  | .ONX_STATUS => s.set .ONX_STATUS_window_s
      (if s.get .ONX_STATUS_wait = 1 then (s.get .ONX_wait_at + 60 * secUnits - s.now + secUnits - 1) / secUnits else 0)
  | .NVE_CTRL_STAT => s.set .NVE_CTRL_STAT_activating (s.get .ACT_on) sc i
  | _ => s

/-- The port number of a covered register instance (R266). -/
def portOfRow (r : RegRow) (i : Nat) : Option Nat :=
  match r.reg with
  | .ETH_PORT_CFG | .ETH_PORT_STATUS | .ETH_PFC_CLASS | .ETH_MSEC_CFG | .ETH_MSEC_RXSC_sci_LO
  | .ETH_MSEC_RXSC_sci_HI | .ETH_MSEC_RXSC_W08 | .ETH_MSEC_SA_W00 | .ETH_MSEC_SA_pn_LO | .ETH_MSEC_SA_pn_HI
  | .ETH_MSEC_SA_pn_warn_LO | .ETH_MSEC_SA_pn_warn_HI | .ETH_MSEC_SA_W14 | .ETH_MSEC_SA_W18 | .ETH_STAT_count_LO | .ETH_STAT_count_HI
  | .ETH_STAT_HALF_LO | .ETH_STAT_HALF_HI | .TSU_PORT_CAL | .TSU_PORT_STATUS | .TSU_PEER_DELAY | .TSU_PORT_ERR | .TSU_LATE_CNT
  | .SCH_PORT_CFG | .SCH_PORT_DROP => some (i / (r.dims.tail.map (·.1)).prod)
  | _ => none

/-- Whether a register instance is one of a port that the mode has, or of no port (R266). -/
def State.covered (s : State) (r : RegRow) (sc i : Nat) : Bool :=
  match portOfRow r i with
  | some p => s.portOk sc p
  | none => true

/-- The write of a register word: nothing to a port the mode lacks (R266). -/
def State.writeReg (s : State) (path addr : Nat) (r : RegRow) (sc i v : Nat) : State :=
  if s.covered r sc i then s.regEffect path addr r sc i v else s

/-- The read of a register word: 0 from a port the mode lacks (R266), a span from COR_PKT_ALLOC (R415), 0 from max_depth of a node that
is no queue. -/
def State.readReg (s : State) (path : Nat) (r : RegRow) (sc i : Nat) : State :=
  if !s.covered r sc i then s.answer [0]
  else if r.reg = .COR_PKT_ALLOC then s.pktAlloc sc
  else if r.reg = .SCH_NODE_W18 ∧ i < 9216 then s.answer [0]
  else (s.live r sc i).regRead path r sc i

/-- Whether the register belongs to block ERR_. -/
def RegRow.isErr (r : RegRow) : Bool :=
  r.slots.any (fun t => within t.f.ctorIdx Field.ERR_STATUS_corrected.ctorIdx (Field.ERR_HBM_PC_partner.ctorIdx + 1 - Field.ERR_STATUS_corrected.ctorIdx))

/-- Whether the register belongs to block BOOT_ or ONX_. -/
def RegRow.isBootOnx (r : RegRow) : Bool :=
  r.slots.any (fun t => within t.f.ctorIdx Field.BOOT_STATUS_stage.ctorIdx (Field.ONX_MBOX.ctorIdx + 1 - Field.BOOT_STATUS_stage.ctorIdx))

/-- Whether an endpoint's window decodes a target: in DEVICE_FATAL the ERR_ block alone (R534), in RECOVERY the BOOT_ and ONX_ blocks
alone (R517). -/
def State.windowServes (s : State) (t : Target) : Bool :=
  match t with
  | .reg r _ _ => (!s.fatal || r.isErr) && (decide (s.get .BOOT_STATUS_recovery = 0) || r.isBootOnx)
  | _ => !s.fatal && decide (s.get .BOOT_STATUS_recovery = 0)

/-- Whether an access path reaches a target: nothing answers in reset (R559); SMBus acknowledges nothing after a power-fail warning
(R530); the TAP reaches the device only when debug is unlocked (R549). -/
def State.pathServes (s : State) (path : Nat) (t : Target) : Bool :=
  decide (s.get .PWR_reset = 0) &&
  (if path < 2 then s.windowServes t
   else if path = pathSmbus then decide (s.get .PWR_fail = 0)
   else if path = pathJtag then decide (s.get .ONX_STATUS_debug_unlocked = 1)
   else true)

/-- The embedded flash window takes no write (R509). -/
def flashWindow (a : Nat) : Bool := within a 0x20000000 0x1000000

/-- Whether an access of a core lies beyond the device address space (Table CORE-2). -/
def coreSpace (path a : Nat) : Bool := decide (4 ≤ path ∧ 2 ^ 48 ≤ a)

/-- Whether hart `h` has interrupt file `f` (Table CORE-3). -/
def fileOn (h f : Nat) : Bool := decide (f = 0 ∨ (h < 48 ∧ f < 7))

/-- A write of hart `h` at offset `o` of the space of its own (Tables CORE-2, CORE-3): an MSI to one of its files, little-endian at offset 0
and big-endian at offset 4 as the RISC-V Advanced Interrupt Architecture has them; a half of mtimecmp, which takes effect at once (log
entry 164); an access fault elsewhere. -/
def State.coreWrite (s : State) (h o v : Nat) : State :=
  if o = 0x8000 ∨ o = 0x8004 then
    let s := (s.set .CORE_cmp (putBits (s.get .CORE_cmp h 0) (8 * (o - 0x8000)) 32 v) h 0).set .CORE_cmp_set 1 h 0
    s.timerTest h 0
  else if o < 0x7000 ∧ fileOn h (o / 0x1000) then
    (if o % 0x1000 = 0 then s.coreMsi h (o / 0x1000) v
    else if o % 0x1000 = 4 then s.coreMsi h (o / 0x1000) (beNat (leBytes 4 v)) else s)
  else s.set .CORE_fault 7 0 h

/-- A read of hart `h` at offset `o` of the space of its own: an interrupt file's words read 0. -/
def State.coreRead (s : State) (h o : Nat) : State :=
  if o = 0x8000 ∨ o = 0x8004 then s.answer [bitsOf (s.get .CORE_cmp h 0) (8 * (o - 0x8000)) 32]
  else if o < 0x7000 ∧ fileOn h (o / 0x1000) then s.answer [0]
  else (s.set .CORE_fault 5 0 h).answer []

/-- A 32-bit write of device address `a` on a path (R5, R9, R17, R41, R43, R68, R70, R570). -/
def State.writeAt (s : State) (path a v : Nat) : State :=
  let t := s.target a
  if !s.pathServes path t then s
  else if coreSpace path a then s.coreWrite (path - 4) (a - 2 ^ 48) v
  else match t with
  | .reg r sc i => if s.clockOk r sc then s.writeReg path a r sc i v else s.hold path a 2 v
  | .gap => s
  | .mem => if flashWindow a then s else if s.memOk a then s.mwrite a (leBytes 4 v) else s.hold path a 2 v
  | .unmapped => s.unmapped path a

/-- A 32-bit read of device address `a` on a path. -/
def State.readAt (s : State) (path a : Nat) : State :=
  let t := s.target a
  if !s.pathServes path t then s.answer []
  else if coreSpace path a then s.coreRead (path - 4) (a - 2 ^ 48)
  else match t with
  | .reg r sc i => if s.clockOk r sc then s.readReg path r sc i else (s.answer []).hold path a 1 0
  | .gap => s.answer [0]
  | .mem => if s.memOk a then s.answer [leNat (s.mread a 4)] else (s.answer []).hold path a 1 0
  | .unmapped => (s.unmapped path a).answer [0]

/-- REGISTER_WRITE: a write of a register word, or of 4 bytes of a memory window (R9). -/
def execRegisterWrite (path addr v : Nat) (s : State) : Host.Outcome State Fault Refusal := .next (s.writeAt path addr v)

/-- PARTIAL_WRITE: a register write with partial byte enables has no effect and is logged (R6). A memory window takes bytes, and is no
register. Whether one at an offset that decodes to no register is recorded the spec leaves open; here it is (DESIGN CHOICE, log entry
153). -/
def execPartialWrite (path addr : Nat) (s : State) : Host.Outcome State Fault Refusal :=
  .next <|
    if !s.pathServes path (s.target addr) ∨ s.target addr = .mem ∨ coreSpace path addr then s else s.report1 (s.pathErr 0x01 path addr)

/-- READ_LO: a read of a _LO word returns the low half, takes the path's snapshot and clears the RC fields (R13). -/
def execReadLo (path addr : Nat) (s : State) : Host.Outcome State Fault Refusal := .next (s.readAt path addr)

/-- READ_HI: a read of a _HI word returns the path's snapshot (R13). -/
def execReadHi (path addr : Nat) (s : State) : Host.Outcome State Fault Refusal := .next (s.readAt path addr)

/-- WRITE_LO: a write of a _LO word is held as the path's pending low half (R15). -/
def execWriteLo (path addr v : Nat) (s : State) : Host.Outcome State Fault Refusal := .next (s.writeAt path addr v)

/-- WRITE_HI: a write of a _HI word applies the whole quantity (R15). -/
def execWriteHi (path addr v : Nat) (s : State) : Host.Outcome State Fault Refusal := .next (s.writeAt path addr v)

/-- RC_READ: a read of a word with RC fields returns and clears them (R11). -/
def execRcRead (path addr : Nat) (s : State) : Host.Outcome State Fault Refusal := .next (s.readAt path addr)

end Sys2Proof.Machine
end

