-- ==== Sys2Proof/Machine/Clocks.lean ====
section
/-! DEFINITION. Clocks: spec file 02, rules R59 to R71, the losses of R82, R99, R121, R269, R441, R529, R534 and R564, and the accesses
that wait for a clock (R70). -/

namespace Sys2Proof.Machine

/-- Dies that have an instance of clock domain `k` (Table CLK-3). -/
def clockDies : Nat → List Nat
  | 0 | 2 => List.range 8
  | 1 => [1]
  | 3 | 5 | 7 | 9 | 16 => [2]
  | 4 | 6 | 8 | 10 => [3]
  | 11 => [5]
  | 12 => [6]
  | 13 | 14 | 17 => [0]
  | 15 => [0, 2, 3]
  | _ => []

/-- The watch of a clock instance finds it present or absent; the domain is present when every instance is (XD_CLK_PRESENT). -/
def State.clockMark (s : State) (k d : Nat) (v : Bool) : State :=
  let s := s.setb .XD_CLK_DIE_PRESENT_present k v 0 d
  s.setb .XD_CLK_PRESENT_present k ((clockDies k).all (fun d => s.getb .XD_CLK_DIE_PRESENT_present k 0 d))

/-- Whether the watch of domain `k` runs: CK_AUX's in the VAUX well, the others from power-on reset release (R61). -/
def State.watched (s : State) (k : Nat) : Bool :=
  if k = 15 then decide (s.get .PWR_vaux = 1) else decide (s.get .PWR_reset = 0 ∧ s.get .PWR_main = 1)

/-- The report of a lost clock: its die, and the domain in detail. -/
def clockErr (src : Nat) (c : ErrClass) (k d : Nat) : Err := { src := src, cls := c, die := d, detail := some k }

/-- CK_OSC is lost in EXT_OCXO mode: DIGITAL mode with CK_TS at the frequency it had, its correction expressed against CK_REF from
here (a difference the spec leaves open: log entry 3), and the learning discarded (R99). -/
def State.oscLost (s : State) : State :=
  let d := sgn 32 (s.freeVal 32)
  let move := fun (v : Nat) => unsgn 64 (sgn 64 v + d)
  let t := ((s.drew.set .TS_OSC_CFG_mode 0).set .TS_STATUS_osc_lost 1).lset .freqWindow
    ((s.lget .freqWindow).map (fun x => x / 2 ^ 64 * 2 ^ 64 + move (x % 2 ^ 64)))
  let t := ((t.set .TIME_freq (move (s.get .TIME_freq))).set .TIME_f0 (move (s.get .TIME_f0))).set .TIME_integ
    (unsgn 64 (sat64 (sgn 64 (s.get .TIME_integ) - d * 2 ^ 32)))
  let t := (((t.lset .learnSamples []).set .TS_LEARN_learn_valid 0).set .TS_LEARN_age_rate 0).set .TS_LEARN_hours 0
  let st := s.get .TS_STATUS_state
  let t :=
    if st = tsLOCKED then
      if (s.bestRef 8).isSome then ((t.enterDisc tsACQUIRING).set .TIME_bw (s.get .TS_SERVO_CFG_acq_bw)).trackUnc
      else (t.deselect.enterDisc tsFREERUN).startHold 2 s.now
    else if st = tsHOLDOVER then ((t.enterDisc tsFREERUN).set .TIME_after_hold 1).startHold 2 (s.get .TIME_hold_from)
    else t
  t.evidence s none

/-- What the loss of a present clock instance does, beyond its bits (Table CLK-3, last column). -/
def State.clockLoss (s : State) (k d : Nat) : State :=
  match k with
  | 0 | 11 | 12 => s.deviceFatal (clockErr 0x1A .deviceFatal k d)
  | 1 => if s.get .TS_OSC_CFG_mode = 1 then s.oscLost else s
  | 2 => if d = 1 then s.timeFault.evidence s none else (s.repLost d).report (clockErr 0x04 .contained k d)
  | 3 | 4 | 5 | 6 => s.each (List.range 8) (fun p s => s.portClkLost (d - 2) p k)
  | 7 | 8 => s.linkDown (d - 2)
  | 9 | 10 => ((s.each (List.range 8) (fun p s => s.set .TSU_PORT_STATUS_cal_done 0 (d - 2) p)).set .TSU_tdc 1 (d - 2)).report
      (clockErr 0x04 .contained k d)
  | 15 => s.when (decide (s.get .PWR_main = 1)) (·.report (clockErr 0x04 .contained k d))
  | _ => s

/-- CLOCK_ABSENT: the instance of domain `k` on die `d` shows no edge for its timeout: a present one is marked absent, the domain's lost
bit sets where the domain was present, so on every die that has it, and the loss has its effect (R61, R62). -/
def execClockAbsent (k d : Nat) (s : State) : Host.Outcome State Fault Refusal :=
  .next <|
    if !(clockDies k).contains d ∨ !s.watched k ∨ s.getb .XD_CLK_DIE_PRESENT_present k 0 d = false then s
    else
      let t := s.clockMark k d false
      let t := t.when (s.getb .XD_CLK_PRESENT_present k && decide (k ≠ 15 ∨ s.get .PWR_main = 1)) (·.setb .XD_CLK_LOST_lost k true)
      t.clockLoss k d

/-- What the return of a clock instance does. -/
def State.clockBack (s : State) (k d : Nat) : State :=
  match k with
  | 3 | 4 | 5 | 6 => s.each (List.range 8) (fun p s =>
      if s.portOk (d - 2) p ∧ s.get .ETH_clk_down (d - 2) p = 1 ∧ s.ethClk (d - 2) then
        ((s.set .ETH_clk_down 0 (d - 2) p).ethTrain (d - 2) p).set .ETH_PORT_STATUS_remote_fault 0 (d - 2) p
      else s)
  | 9 | 10 => (s.set .TSU_tdc 0 (d - 2)).each (List.range 8) (fun p s =>
      s.when (s.portOk (d - 2) p && decide (s.get .ETH_PORT_STATUS_state (d - 2) p = ethUP)) (fun s =>
        (s.set .TSU_cal_busy 1 (d - 2) p).set .TSU_cal_at s.now (d - 2) p))
  | 13 => s.stage0Go
  | 14 => s.set .XSPI_back s.now
  | _ => s

/-- Whether the island of the register at an address has its clock. -/
def State.islandOk (s : State) (a : Nat) : Bool :=
  match s.target a with
  | .reg r sc _ => s.clockOk r sc
  | .mem => s.memOk a
  | _ => true

/-- One access that waited takes place; a host read is completed (R70). -/
def State.heldDo (s : State) (path a kind v : Nat) : State :=
  match kind with
  | 2 => s.writeAt path a v
  | 3 =>
    let s := s.readAt path a
    s.emit .cpl [path, 0] (leBytes 4 (s.reply.headD 0))
  | 4 =>
    let s := s.readAt path a
    let t := s.readAt path (a + 4)
    t.emit .cpl [path, 0] (leBytes 4 (s.reply.headD 0) ++ leBytes 4 (t.reply.headD 0))
  | 1 => s.readAt path a
  | n =>
    if n % 8 = 5 then
      let d := s.mread a (n / 8)
      (s.answer d).emit .cpl [path, 0] d
    else s.mwrite a (leBytes (n / 8) v)

/-- One access whose clock stayed absent for 10 µs ends: a read returns 0, a write has no effect, and it is logged CLOCK_ABSENT (R70). -/
def State.heldEnd (s : State) (path a kind : Nat) : State :=
  let s := s.report1 (s.pathErr 0x04 path a)
  match kind with
  | 2 => s
  | 3 => (s.answer [0]).emit .cpl [path, 0] (leBytes 4 0)
  | 4 => (s.answer [0]).emit .cpl [path, 0] (leBytes 8 0)
  | 1 => s.answer [0]
  | n => if n % 8 = 5 then (s.answer [0]).emit .cpl [path, 0] (List.replicate (n / 8) 0) else s

/-- The accesses of a path that waited, in order: one that has waited more than 10 µs has ended, those whose clock is present take place,
the others wait on (R68, R70). -/
def State.heldRun (s : State) (path : Nat) : List Nat → State
  | a :: k :: v :: t :: r =>
    (if t + 10 * usUnits < s.now then s.heldEnd path a k
     else if s.islandOk a then s.heldDo path a k v
     else s.lset .busHeld (s.lget .busHeld 0 path ++ [a, k, v, t]) 0 path).heldRun path r
  | _ => s

/-- CLOCK_PRESENT: 64 good periods of the instance of domain `k` on die `d` mark it present; CK_OSC's must be of the frequency that
osc_20m selects (R61). Accesses that waited for it take place (R70). -/
def execClockPresent (k d : Nat) (hz20 : Bool) (s : State) : Host.Outcome State Fault Refusal :=
  .next <|
    if !(clockDies k).contains d ∨ !s.watched k ∨ s.getb .XD_CLK_DIE_PRESENT_present k 0 d ∨
        (k = 1 ∧ b2n hz20 ≠ s.get .TS_OSC_CFG_osc_20m) then s
    else
      let s := (s.clockMark k d true).clockBack k d
      s.each (s.lkeysOf .busHeld) (fun p s => (s.lset .busHeld [] 0 p.2).heldRun p.2 (s.lget .busHeld 0 p.2))

/-- CLOCK_ACCESS_TIMEOUT: 10 µs after it began, the oldest access of the path that waits for a clock ends (R70). -/
def execClockAccessTimeout (path : Nat) (s : State) : Host.Outcome State Fault Refusal :=
  .next <|
    match s.lget .busHeld 0 path with
    | a :: k :: _ :: t :: r => ((s.advanceTo (t + 10 * usUnits)).lset .busHeld r 0 path).heldEnd path a k
    | _ => s

/-- Whether hart `h` runs. -/
def State.hartOn (s : State) (h : Nat) : Bool :=
  if h < 48 then decide (s.get .COR_CORE_state (h / 6) (h % 6) = 1)
  else if h < 52 then decide (s.get .MGT_on 0 (h - 48) = 1) else decide (s.get .PWR_reset = 0)

/-- TIME_CSR_READ: core `h` reads its time CSR: the DT64 of its die's CK_TS replica, never less than before, with the UNC16 of a DT64 from
there (R60, R71, R78, R82). By then its pipeline has advanced `adv` times more and it has retired `ret` instructions more, which its
cycle and instret CSRs count (R72); a core that does not run does neither. -/
def execTimeCsrRead (h adv ret : Nat) (s : State) : Host.Outcome State Fault Refusal :=
  .next <|
    let s := s.when (s.hartOn h) (fun s => (s.addw .CORE_cycle adv 0 h).addw .CORE_instret ret 0 h)
    let t := s.coreTime h
    (s.set .CORE_time t 0 h).answer [t, s.repUnc (hartDie h) 0]

/-- REPLICA_REALIGN: the CK_TS replica of die `d` is present again and its counter is realigned: behind counter A, it moves forward at once;
ahead, it holds until counter A reaches it (R82). -/
def execReplicaRealign (d : Nat) (s : State) : Host.Outcome State Fault Refusal :=
  .next <|
    if s.get .REP_apart 0 d = 1 ∧ s.getb .XD_CLK_DIE_PRESENT_present 2 0 d then
      (s.set .REP_dt64 (s.repNow d) 0 d).set .REP_apart 0 0 d
    else s

end Sys2Proof.Machine
end

