-- ==== Sys2Proof/Machine/HostReq.lean ====
section
/-! DEFINITION. Requests of a host: configuration space (spec file 16, R420 to R424 and Table HOST-3) and memory requests to the BARs (R425
to R428, R448, R517). The manual names the capabilities and their offsets; the registers inside each lie as the PCI Express Base
Specification lays them out (PRESUMED, log entry 72). -/

namespace Sys2Proof.Machine

/-- Device ID of a function, class code, number of MSI-X vectors, offset of the PBA (Tables HOST-2 and HOST-4). -/
structure FnKind where
  devId : Nat
  cls : Nat
  vectors : Nat
  pba : Nat
deriving DecidableEq, Repr

/-- The kind of function `f` of endpoint `e`. -/
def State.fnKind (s : State) (e f : Nat) : FnKind :=
  match s.pfOf e f with
  | 1 => ⟨if f = 1 then 0x7820 else 0x7821, 0x010802, 65, 0x2000⟩
  | 2 => ⟨0x7830, 0x120000, 256, 0x2000⟩
  | _ => if f < 4 then ⟨0x7810, 0x020000, 2048, 0x8000⟩ else ⟨0x7811, 0x020000, 64, 0x2000⟩

/-- TotalVFs and First VF Offset of a PF (Table HOST-2). -/
def State.vfShape (s : State) (e f : Nat) : Nat × Nat :=
  match f with
  | 0 => (if s.get .PCI_EP_CFG_pf3_present e = 1 then 257 else 513, 4)
  | 1 => (511, 516)
  | 3 => (256, 258)
  | _ => (0, 0)

/-- Size and low bits of a BAR of a PF, or of one VF's part of a VF BAR; `b` is 0 for BAR0, 1 for BAR2, 2 for BAR4 (Table HOST-4). -/
def barShape (pf : Nat) (vf : Bool) (b : Nat) : Nat × Nat :=
  match pf, vf, b with
  | 0, false, 0 | 3, false, 0 => (0x2000000, 4)
  | 0, false, 1 | 3, false, 1 => (0x10000, 4)
  | 0, true, 0 | 3, true, 0 => (0x10000, 4)
  | 0, true, 1 | 3, true, 1 => (0x4000, 4)
  | 0, _, 2 | 3, _, 2 => (0x10000, 0xC)
  | 1, _, 0 | 1, _, 1 => (0x4000, 4)
  | 2, false, 0 => (0x10000000, 4)
  | 2, false, 1 => (0x4000, 4)
  | 2, false, 2 => (0x400000, 4)
  | _, _, _ => (0, 0)

/-- What word `w` (0 low, 1 high) of a BAR with base `a` reads. -/
def barWord (shape : Nat × Nat) (a w : Nat) : Nat :=
  if shape.1 = 0 then 0 else if w = 0 then a % 2 ^ 32 / shape.1 * shape.1 + shape.2 else a / 2 ^ 32

/-- A BAR's base with word `w` written `v`: bits below its size stay 0. -/
def barPut (shape : Nat × Nat) (a w v : Nat) : Nat :=
  if shape.1 = 0 then 0 else putBits a (32 * w) 32 v / shape.1 * shape.1

/-- Extended capabilities and the functions that carry them (Table HOST-3): offset, capability ID. -/
def State.extCaps (s : State) (e f : Nat) : List (Nat × Nat) :=
  let pf := s.pfOf e f
  let net := decide (pf = 0 ∨ pf = 3)
  [(0x100, 0x01), (0x148, 0x0E)] ++ (if f < 4 ∧ f ≠ 2 then [(0x150, 0x10)] else []) ++ (if pf ≠ 2 then [(0x190, 0x0F)] else []) ++
  (if net then [(0x1A0, 0x13), (0x1B0, 0x1B)] else []) ++ (if f = 0 then [(0x1C0, 0x1F)] else []) ++ [(0x1D0, 0x0D)] ++
  (if f = 0 then [(0x1E0, 0x2E), (0x200, 0x30), (0x280, 0x22), (0x290, 0x19), (0x2C0, 0x25), (0x2D0, 0x26), (0x300, 0x2A), (0x340, 0x31),
    (0x360, 0x27), (0x3B0, 0x2F)] else [])

/-- The header of the extended capability at `off`: its ID and the next offset; the version is not stated. -/
def capHeader (l : List (Nat × Nat)) (off : Nat) : Option (Nat × Nat) :=
  match l with
  | [] => none
  | (o, id) :: r => if o = off then some (id + (match r with | (n, _) :: _ => n * 2 ^ 20 | [] => 0), 0xF0000) else capHeader r off

/-- The offset of the extended capability that covers `off`, if the function carries one. -/
def capAt (l : List (Nat × Nat)) (off : Nat) : Nat :=
  l.foldl (fun b c => if c.1 ≤ off then c.1 else b) 0

/-- Device Status: the errors logged, and Transactions Pending while a read of the function is outstanding. -/
def State.devStatus (s : State) (e f : Nat) : Nat :=
  s.get .FN_devsta e f + 32 * b2n ((s.keysOf .TAG_state).any (fun k => decide (k.1 = e ∧ s.get .TAG_state e k.2 = 1 ∧ s.get .TAG_fn e k.2 = f)))

/-- A word of the Type 0 header and of the capabilities in the first 256 bytes: its bits, and the mask of those that are not stated. -/
def State.cfgLow (s : State) (e f off : Nat) : Nat × Nat :=
  let k := s.fnKind e f
  let pf := decide (f < 4)
  match off with
  | 0x00 => (0xB7E5 + k.devId * 65536, 0)
  | 0x04 => (s.get .FN_cmd e f + 4 * s.get .PCI_FN_STAT_bme e f + 0x100000, 0xF9000000)
  | 0x08 => (0xB1 + k.cls * 256, 0)
  | 0x0C => (s.get .FN_cls e f + (if pf then 0x800000 else 0), 0)
  | 0x10 => (if pf then barWord (barShape f false 0) (s.get .FN_bar e (f * 4)) 0 else 0, 0)
  | 0x14 => (if pf then barWord (barShape f false 0) (s.get .FN_bar e (f * 4)) 1 else 0, 0)
  | 0x18 => (if pf then barWord (barShape f false 1) (s.get .FN_bar e (f * 4 + 1)) 0 else 0, 0)
  | 0x1C => (if pf then barWord (barShape f false 1) (s.get .FN_bar e (f * 4 + 1)) 1 else 0, 0)
  | 0x20 => (if pf then barWord (barShape f false 2) (s.get .FN_bar e (f * 4 + 2)) 0 else 0, 0)
  | 0x24 => (if pf then barWord (barShape f false 2) (s.get .FN_bar e (f * 4 + 2)) 1 else 0, 0)
  | 0x2C => (s.get .PCI_ID_CFG_ssvid e + s.get .PCI_ID_CFG_ssid e * 65536, 0)
  | 0x30 => (if f < 2 then s.get .FN_rom e f else 0, 0)
  | 0x34 => (if pf then 0x40 else 0x50, 0)
  | 0x3C => (s.get .FN_intl e f, 0)
  | 0x40 => if pf then (0x5001 + 3 * 65536 + (if f = 0 then 0xC8000000 else 0), 0x00280000) else (0, 0)
  | 0x44 => if pf then (s.get .PCI_FN_STAT_dstate e f + 8 + (if f = 0 then 256 * s.get .PME_en e + 32768 * s.get .PME_st e else 0), 0)
      else (0, 0)
  | 0x50 => (0x6011 + (k.vectors - 1) * 65536 + s.get .FN_msix_fmask e f * 2 ^ 30 + s.get .FN_msix_en e f * 2 ^ 31, 0)
  | 0x54 => (2, 0)
  | 0x58 => (k.pba + 2, 0)
  | 0x60 => (0x20010, 0x3E000000)
  | 0x64 => (2 + 32 + 2 ^ 15 + 2 ^ 28, 0x0FFF0FC0)
  | 0x68 => (s.get .FN_devctl e f + s.devStatus e f * 65536, 0x100000)
  | 0x6C => (6 + 16 * 16 + 2 * 1024, 0xFFFFF000)
  | 0x70 => (s.get .FN_lnkctl e f + (s.get .PCI_EP_CFG_speed e + 16 * s.get .PCI_EP_CFG_width e) * 65536, 0xFC000000)
  | 0x84 => (0xF + 2 ^ 16 + 2 ^ 17, 0xFFFCFC60)
  | 0x88 => (s.get .FN_cpl_timeout e f + s.get .FN_devctl2 e f / 16 % 256 * 16 + s.get .FN_tag10 e f * 4096 + s.get .FN_devctl2 e f / 8192 * 8192, 0)
  | 0x8C => (0x7E, 0xFFFFFF00)
  | 0x90 => (s.get .FN_lnkctl2 e f, 0xFFFF0000)
  | _ => (0, 0)

/-- A word of the SR-IOV capability of a PF, at `o` from its start. -/
def State.cfgSriov (s : State) (e f o : Nat) : Nat × Nat :=
  let (total, first) := s.vfShape e f
  match o with
  | 0x04 => (0, 0xFFFFFFFE)
  | 0x08 => (s.get .FN_vf_en e f + 8 * s.get .FN_vf_mse e f + 16 * s.get .FN_vf_ari e f, 0xFFFF0000)
  | 0x0C => (total + total * 65536, 0)
  | 0x10 => (s.get .FN_numvfs e f + f * 65536, 0)
  | 0x14 => (first + 65536, 0)
  | 0x18 => ((if f = 1 then 0x7821 else 0x7811) * 65536, 0)
  | 0x1C => (1, 0)
  | 0x20 => (s.get .FN_vf_psz e f, 0)
  | 0x3C => (0, 0)
  | _ => if 0x24 ≤ o ∧ o < 0x3C then
      let b := (o - 0x24) / 8
      (barWord (barShape f true b) (s.get .FN_vf_bar e (f * 4 + b)) ((o - 0x24) / 4 % 2), 0)
    else (0, 0)

/-- Selective stream registers of the IDE capability: stream 1 to 4 and the register of its block at `o` from the capability's start. -/
def ideSel (o : Nat) : Nat × Nat := ((o - 0x14) / 0x14 + 1, (o - 0x14) % 0x14)

/-- Status register of an IDE stream: its state, and Received Integrity Check Fail. -/
def State.ideStatus (s : State) (e k : Nat) : Nat := s.get .IDE_state e k + 2 ^ 31 * s.get .IDE_bad e k

/-- A word of the IDE capability (R444), at `o` from its start. -/
def State.cfgIde (s : State) (e o : Nat) : Nat × Nat :=
  match o with
  | 0x04 => (3 + 3 * 65536, 0xFF00FFFC)
  | 0x08 => (0, 0xFFFFFFFF)
  | 0x0C => (s.get .IDE_ctl e 0, 0)
  | 0x10 => (s.ideStatus e 0, 0)
  | _ =>
    let (k, r) := ideSel o
    if 0x14 ≤ o ∧ k ≤ 4 then
      match r with
      | 0x00 => (0, 0)
      | 0x04 => (s.get .IDE_ctl e k, 0)
      | 0x08 => (s.ideStatus e k, 0)
      | 0x0C => (s.get .IDE_rid_lim e k * 256, 0)
      | _ => (s.get .IDE_rid_base e k * 256 + s.get .IDE_rid_v e k, 0)
    else (0, 0)

/-- A word of the extended configuration space: its bits, and the mask of those that are not stated. -/
def State.cfgHigh (s : State) (e f off : Nat) : Nat × Nat :=
  let l := s.extCaps e f
  match capHeader l off with
  | some x => x
  | none =>
    let o := off - capAt l off
    match capAt l off with
    | 0x100 => match o with
      | 0x04 => (s.get .AER_u e f, 0)
      | 0x08 => (s.get .AER_umask e f, 0)
      | 0x0C => (s.get .AER_usev e f, 0)
      | 0x10 => (s.get .AER_c e f, 0)
      | 0x14 => (s.get .AER_cmask e f, 0)
      | _ => if o < 0x2C then (0, 0xFFFFFFFF) else (0, 0)
    | 0x148 => if o = 4 then
        (if f < 3 then (if f = 2 ∧ s.get .PCI_EP_CFG_pf3_present e = 0 then 0 else f + 1) * 256 else 0, 0xFFFF00FF) else (0, 0)
    | 0x150 => s.cfgSriov e f o
    | 0x190 => if o = 4 then (32 + s.get .FN_ats_stu e f * 65536 + s.get .FN_ats_en e f * 2 ^ 31, 0) else (0, 0)
    | 0x1A0 => match o with
      | 0x04 => (s.get .FN_pri_en e f, 0xFFFF0000)
      | 0x08 => (512, 0)
      | 0x0C => (s.get .FN_pri_alloc e f, 0)
      | _ => (0, 0)
    | 0x1B0 => if o = 4 then (20 * 256 + s.get .FN_pasid_en e f * 65536, 0) else (0, 0)
    | 0x1C0 => match o with
      | 0x04 => (1, 0xFFFFFF00)
      | 0x08 => (s.get .TSU_PTM_STATUS_ptm_enabled e, 0xFFFFFF00)
      | _ => (0, 0)
    | 0x1D0 => if o = 4 then (0x4C + s.get .FN_acs e f * 65536, 0) else (0, 0)
    | 0x200 => s.cfgIde e o
    | 0x280 => match o with
      | 0x04 => ((4 * 512 + 77) + (4 * 512 + 20) * 4096 + 2 ^ 31, 0)
      | 0x08 => ((4 * 512 + 10) + (4 * 512 + 10) * 4096, 0)
      | _ => (0, 0)
    | 0x2C0 => if o = 4 then (1, 0xFFFFFFFE) else (0, 0xFFFFFFFF)
    | 0x3B0 => match o with
      | 0x04 => (6, 0xFFFFFFF8)
      | 0x08 => (s.get .FN_devctl3 e f, 0)
      | _ => (0, 0xFFFFFFFF)
    | 0x1E0 | 0x290 | 0x2D0 | 0x300 | 0x340 | 0x360 => (0, 0xFFFFFFFF)
    | _ => (0, 0)

/-- A word of a function's configuration space. -/
def State.cfgWord (s : State) (e f off : Nat) : Nat × Nat := if off < 0x100 then s.cfgLow e f off else s.cfgHigh e f off

/-- Pending vectors of a function that may now be sent are sent. -/
def State.msixFlush (s : State) (e f : Nat) : State :=
  s.each (s.keysOf .MSIX_pend) (fun k s => if k.1 = e ∧ k.2 / 4096 = f then s.msix e f (k.2 % 4096) else s)

/-- VF Enable of a PF is set: its first NumVFs VFs are present, and the PF says so (R423). -/
def State.vfEnable (s : State) (e f : Nat) : State :=
  let (total, first) := s.vfShape e f
  let s := (s.set .FN_vf_en 1 e f).each (List.range (min total (s.get .FN_numvfs e f))) (fun v s => s.set .PCI_FN_STAT_present 1 e (f + first + v))
  s.frs e f

/-- A bit of a control that has risen, or fallen, applies an operation. -/
def State.edge (s : State) (was now : Nat) (up down : State → State) : State :=
  if was = 0 ∧ now = 1 then up s else if was = 1 ∧ now = 0 then down s else s

/-- PRI Enable of a function is set: after a Response Failure it may ask for pages again, and the faults that wait are asked for (R353,
R356). -/
def State.priEnable (s : State) (e f : Nat) : State :=
  let s := (s.set .FN_pri_en 1 e f).set .PRI_stop 0 e f
  (s.each (s.keysOf .CN_stall) (fun x s =>
    if s.get .CN_stall 0 x.2 = 1 ∧ s.get .CN_stall_e 0 x.2 = e ∧ s.get .CN_stall_pg 0 x.2 / 2 ^ 73 = f ∧
      2 ≤ s.get .ATC_st e (s.get .CN_stall_pg 0 x.2) then s.priAsk e (s.get .CN_stall_pg 0 x.2) else s)).pfAll

/-- A write of the Command register: Bus Master Enable stops and restarts the function (R436). -/
def State.cfgCommand (s : State) (e f v : Nat) : State :=
  let was := s.get .FN_cmd e f
  let s := s.set .FN_cmd (v % 4 / 2 * 2 + bitsOf v 6 1 * 64 + bitsOf v 8 1 * 256 + bitsOf v 10 1 * 1024) e f
  let s := s.when (!was.testBit 1 && v.testBit 1) (·.set .ROM_at s.now e f)
  s.edge (s.get .PCI_FN_STAT_bme e f) (bitsOf v 2 1) (·.run (execBmeSet e f)) (·.run (execBmeClear e f))

/-- A write of the word at `off` of the first 256 bytes: `v` with the bytes not enabled as they read, `w` with them 0 (for W1C bits). -/
def State.cfgLowWrite (s : State) (e f off v w : Nat) : State :=
  let pf := decide (f < 4)
  let bar := fun (b k : Nat) => if pf then s.set .FN_bar (barPut (barShape f false b) (s.get .FN_bar e (f * 4 + b)) k v) e (f * 4 + b) else s
  match off with
  | 0x04 => s.cfgCommand e f (v % 65536)
  | 0x0C => s.set .FN_cls v e f
  | 0x10 => bar 0 0
  | 0x14 => bar 0 1
  | 0x18 => bar 1 0
  | 0x1C => bar 1 1
  | 0x20 => bar 2 0
  | 0x24 => bar 2 1
  | 0x30 => if f < 2 then
      (s.set .FN_rom (v / 2 ^ 20 * 2 ^ 20 + v % 2) e f).when (decide (s.get .FN_rom e f % 2 = 0 ∧ v % 2 = 1)) (·.set .ROM_at s.now e f)
    else s
  | 0x3C => s.set .FN_intl v e f
  | 0x44 => if pf then
      let s := if f = 0 then (s.set .PME_en (bitsOf v 8 1) e).when (w.testBit 15) (·.set .PME_st 0 e) else s
      if v % 4 = 3 then s.run (execD3hotEntry e f) else if v % 4 = 0 then s.run (execD0Return e f) else s
    else s
  | 0x50 => ((s.set .FN_msix_fmask (bitsOf v 30 1) e f).set .FN_msix_en (bitsOf v 31 1) e f).msixFlush e f
  | 0x68 =>
    let s := (s.set .FN_devctl (v % 2 ^ 15) e f).set .FN_devsta (clearBits 4 (s.get .FN_devsta e f) (w / 65536 % 16)) e f
    s.when (v.testBit 15) (·.run (execFlr e f))
  | 0x70 => s.set .FN_lnkctl v e f
  | 0x88 => ((s.set .FN_cpl_timeout v e f).set .FN_tag10 (bitsOf v 12 1) e f).set .FN_devctl2 (v / 8192 % 8 * 8192 + v / 16 % 256 * 16) e f
  | 0x90 => s.set .FN_lnkctl2 v e f
  | _ => s

/-- A write of a word of the SR-IOV capability. NumVFs keeps its value while VF Enable is 1. -/
def State.sriovWrite (s : State) (e f o v : Nat) : State :=
  match o with
  | 0x08 =>
    let s := (s.set .FN_vf_mse (bitsOf v 3 1) e f).set .FN_vf_ari (bitsOf v 4 1) e f
    s.edge (s.get .FN_vf_en e f) (v % 2) (·.vfEnable e f) (·.run (execVfEnableClear e f))
  | 0x10 => if s.get .FN_vf_en e f = 1 then s else s.set .FN_numvfs v e f
  | 0x20 => s.set .FN_vf_psz v e f
  | _ => if 0x24 ≤ o ∧ o < 0x3C then
      let b := (o - 0x24) / 8
      s.set .FN_vf_bar (barPut (barShape f true b) (s.get .FN_vf_bar e (f * 4 + b)) ((o - 0x24) / 4 % 2) v) e (f * 4 + b)
    else s

/-- Clearing an IDE stream's enable leaves it Insecure without its keys. -/
def State.ideCtlWrite (s : State) (e k v : Nat) : State :=
  let s := s.set .IDE_ctl v e k
  if v % 2 = 0 then ((s.set .IDE_state 0 e k).set .IDE_prog 0 e k).set .IDE_go 0 e k else s

/-- A write of a word of the IDE capability. -/
def State.ideWrite (s : State) (e o v w : Nat) : State :=
  match o with
  | 0x0C => s.ideCtlWrite e 0 v
  | 0x10 => s.when (w.testBit 31) (·.set .IDE_bad 0 e 0)
  | _ =>
    let (k, r) := ideSel o
    if 0x14 ≤ o ∧ k ≤ 4 then
      match r with
      | 0x04 => s.ideCtlWrite e k v
      | 0x08 => s.when (w.testBit 31) (·.set .IDE_bad 0 e k)
      | 0x0C => s.set .IDE_rid_lim (bitsOf v 8 16) e k
      | 0x10 => (s.set .IDE_rid_base (bitsOf v 8 16) e k).set .IDE_rid_v (v % 2) e k
      | _ => s
    else s

/-- A write of a word of the extended configuration space. -/
def State.cfgHighWrite (s : State) (e f off v w : Nat) : State :=
  let l := s.extCaps e f
  let o := off - capAt l off
  match capAt l off with
  | 0x100 => match o with
    | 0x04 => s.set .AER_u (clearBits 32 (s.get .AER_u e f) w) e f
    | 0x08 => s.set .AER_umask v e f
    | 0x0C => s.set .AER_usev v e f
    | 0x10 => s.set .AER_c (clearBits 32 (s.get .AER_c e f) w) e f
    | 0x14 => s.set .AER_cmask v e f
    | _ => s
  | 0x150 => s.sriovWrite e f o v
  | 0x190 => if o = 4 then
      (s.set .FN_ats_stu (bitsOf v 16 5) e f).edge (s.get .FN_ats_en e f) (bitsOf v 31 1) (·.set .FN_ats_en 1 e f)
        (fun s => (s.set .FN_ats_en 0 e f).fnPages e f)
    else s
  | 0x1A0 => match o with
    | 0x04 => s.edge (s.get .FN_pri_en e f) (v % 2) (·.priEnable e f) (·.set .FN_pri_en 0 e f)
    | 0x0C => s.set .FN_pri_alloc v e f
    | _ => s
  | 0x1B0 => if o = 4 then s.set .FN_pasid_en (bitsOf v 16 1) e f else s
  | 0x1C0 => if o = 8 then
      s.edge (s.get .TSU_PTM_STATUS_ptm_enabled e) (v % 2) (·.set .TSU_PTM_STATUS_ptm_enabled 1 e)
        (fun s => (s.set .TSU_PTM_STATUS_ptm_enabled 0 e).ptmStop e)
    else s
  | 0x1D0 => if o = 4 then s.set .FN_acs (bitsOf v 18 2 * 4 + bitsOf v 22 1 * 64) e f else s
  | 0x200 => s.ideWrite e o v w
  | 0x3B0 => if o = 8 then s.set .FN_devctl3 v e f else s
  | _ => s

/-- The bytes of `v` that a 4-bit byte enable selects, the others those of `old`. -/
def mergeBytes (be old v : Nat) : Nat :=
  leNat ((List.range 4).map (fun k => if be.testBit k then v / 256 ^ k % 256 else old / 256 ^ k % 256))

/-- CONFIG_REQUEST: a configuration read or write of function `f` of endpoint `e`, answered with Request Retry Status before cfg_ready and
during the function's FLR (R423, R438), with Unsupported Request where the function is absent (R420). `bus` is the bus number by which the
request names the function; a write's is captured. -/
def execConfigRequest (e f off : Nat) (write : Bool) (v be bus : Nat) (s : State) : Host.Outcome State Fault Refusal :=
  .next <|
    if s.get .PCI_EP_CFG_link_up e = 0 ∨ s.get .PWR_reset = 1 then s
    else if s.get .PCI_EP_CFG_cfg_ready e = 0 ∨ s.get .PCI_FN_STAT_flr_active e f = 1 then (s.answer []).emit .cpl [e, 2]
    else if s.get .PCI_FN_STAT_present e f = 0 then (s.answer []).emit .cpl [e, 1]
    else
      let (k, free) := s.cfgWord e f off
      if write then
        let s := s.set .FN_bus bus e f
        let (n, w) := (mergeBytes be k v, mergeBytes be 0 v)
        ((if off < 0x100 then s.cfgLowWrite e f off n w else s.cfgHighWrite e f off n w).answer []).emit .cpl [e, 0]
      else
        let r := if free = 0 then k else k + (s.freeVal 32 &&& free)
        let s := s.when (decide (free ≠ 0)) (·.drew)
        (s.answer [r]).emit .cpl [e, 0] (leBytes 4 r)

/-- Bytes of the time page (Table TSTP-8). -/
def State.pageBytes (s : State) (e : Nat) : List Nat :=
  leBytes 4 (s.get .PAGE_gen e) ++ [1, 0, s.get .PAGE_state e, s.get .PAGE_flags e] ++ leBytes 8 (s.get .PAGE_dt64 e) ++
  leBytes 2 (s.get .PAGE_unc e) ++ leBytes 2 (s.get .PAGE_rate_unc e) ++ leBytes 4 (s.get .PAGE_rate e) ++ leBytes 8 (s.get .PAGE_ptm e) ++
  leBytes 2 (s.get .PAGE_ptm_unc e) ++ [0, 0] ++ leBytes 4 (s.get .PAGE_ptm_count e) ++ leBytes 8 (s.get .PAGE_amber e) ++
  leBytes 4 (s.get .PAGE_utc e)

/-- Device address of an offset of PF2's BAR0 (Table HOST-5). -/
def State.pf2Addr (s : State) (e o : Nat) : Nat :=
  if o < 0x8000000 then o / 2 ^ 24 * 2 ^ 44 + o % 2 ^ 24
  else if o < 0xC000000 then
    let n := (o - 0x8000000) / 0x800000
    (4 + n / 2) * 2 ^ 44 + (if n % 2 = 0 then 0x4000000 else 0x8000000) + (o - 0x8000000) % 0x800000
  else (s.get .PCI_APERTURE e + (o - 0xC000000)) % 2 ^ 48

/-- What a host reaches in a BAR other than by device address. -/
inductive BarSpot where
  /-- A register word of the RNG_ or BOOT_RCV_ blocks. -/
  | reg (r : RegRow) (sc i : Nat)
  /-- The doorbell of a ring. -/
  | doorbell (r : Nat)
  /-- Word `w` of an MSI-X table entry. -/
  | vector (v w : Nat)
  /-- Word `k` of the PBA. -/
  | pba (k : Nat)
  /-- A register of an NVMe controller. -/
  | nvme (k off : Nat)
  /-- Reads 0, writes ignored. -/
  | nothing
deriving DecidableEq, Repr

/-- Ring of local index `j` of a function, if its map holds it (R448). -/
def State.fnRing (s : State) (e f j : Nat) : Option Nat :=
  if j < s.get .RNG_FN_MAP_ring_count e f then some (s.get .RNG_FN_MAP_ring_base e f + j) else none

/-- The register word at offset `o` of place `w`, as a spot. -/
def spotReg (w : Where) (sc i o : Nat) : BarSpot :=
  match regAt (fun x => decide (x = w)) o regRows with
  | some (r, _) => .reg r sc i
  | none => .nothing

/-- Dword at offset `o` of BAR0 of a network function (Table RING-2). -/
def State.netSpot (s : State) (e f o : Nat) : BarSpot :=
  let (db, fr, rw, rs) := if f < 4 then (0x20000, 0x20000, 0x100000, 0x100000) else (0x1000, 0x1000, 0x8000, 0x8000)
  if o < db then (match s.fnRing e f (o / 4) with | some r => .doorbell r | none => .nothing)
  else if within o fr 0x1000 then spotReg .fnbar e f (o - fr)
  else if within o rw rs then
    match s.fnRing e f ((o - rw) / 0x20) with
    | some r =>
      match regAt (fun x => decide (x = .iod)) (0x500000 + r * 0x20 + o % 0x20) regRows with
      | some (row, i) => .reg row e i
      | none => .nothing
    | none => .nothing
  else .nothing

/-- Dword at offset `o` of BAR `b` of function `f`, but for the windows into the device address space and the bytes of pages and
buffers. -/
def State.barSpot (s : State) (e f b o : Nat) : BarSpot :=
  let k := s.fnKind e f
  if b = 2 then
    if o < 16 * k.vectors then .vector (o / 16) (o % 16 / 4)
    else if k.pba ≤ o ∧ o < k.pba + (k.vectors + 63) / 64 * 8 then .pba ((o - k.pba) / 4)
    else .nothing
  else if f = 2 then (if o < 0x1000 then spotReg .rcv 0 0 o else .nothing)
  else if b = 0 then
    match fnCtrl e f with
    | some c => .nvme c o
    | none => s.netSpot e f o
  else .nothing

/-- The read of a dword of a BAR. -/
def State.spotRead (s : State) (e f : Nat) (t : BarSpot) : State :=
  match t with
  | .reg r sc i => s.readReg (pathEp e) r sc i
  | .vector v w =>
    let i := vecIx f v
    s.answer [match w with
      | 0 => s.get .MSIX_addr e i % 2 ^ 32
      | 1 => s.get .MSIX_addr e i / 2 ^ 32
      | 2 => s.get .MSIX_data e i
      | _ => s.get .MSIX_mask e i]
  | .pba k => s.answer [(List.range 32).foldl (fun a b => a + s.get .MSIX_pend e (vecIx f (32 * k + b)) * 2 ^ b) 0]
  | .nvme c off => s.answer [s.nvmeRead c off]
  | .doorbell _ | .nothing => s.answer [0]

/-- The write of a dword of a BAR. A doorbell counts tail for a work ring and cons for a CPL or EVT ring (R449); an unmasked vector that
was pending is sent. -/
def State.spotWrite (s : State) (e f : Nat) (t : BarSpot) (v : Nat) : State :=
  match t with
  | .reg r sc i => s.writeReg (pathEp e) 0 r sc i v
  | .doorbell r =>
    if s.get .RNG_RING_kind e r = 4 ∨ s.get .RNG_RING_kind e r = 5 then s.run (execDoorbellCons e r v) else s.run (execDoorbellTail e r v)
  | .vector n w =>
    let i := vecIx f n
    match w with
    | 0 => s.set .MSIX_addr (putBits (s.get .MSIX_addr e i) 0 32 (v / 4 * 4)) e i
    | 1 => s.set .MSIX_addr (putBits (s.get .MSIX_addr e i) 32 32 v) e i
    | 2 => s.set .MSIX_data v e i
    | _ => (s.set .MSIX_mask (v % 2) e i).when (decide (s.get .MSIX_pend e i = 1)) (·.msix e f n)
  | .nvme c off => s.nvmeWrite c off v
  | .pba _ | .nothing => s

/-- The aligned dwords that `len` bytes from `o` touch, as offset, first byte used and bytes used. -/
def dwords (o len : Nat) : List (Nat × Nat × Nat) :=
  (List.range ((o % 4 + len + 3) / 4)).map (fun k =>
    let a := o / 4 * 4 + 4 * k
    (a, max o a - a, min (o + len) (a + 4) - max o a))

/-- A memory request reaches a function: it is present, in D0, not in FLR, with Memory Space Enable (that of its VFs is the PF's VF MSE) (R428). -/
def State.barOpen (s : State) (e f : Nat) : Bool :=
  decide (s.get .PCI_FN_STAT_present e f = 1 ∧ s.get .PCI_FN_STAT_flr_active e f = 0 ∧ s.get .PCI_FN_STAT_dstate e (s.pfOf e f) = 0) &&
  (if f < 4 then s.getb .FN_cmd 1 e f else decide (s.get .FN_vf_mse e (s.pfOf e f) = 1))

/-- Whether the device decodes an offset of a BAR: a BAR the function has, and in RECOVERY or DEVICE_FATAL what those leave (R517,
R534). -/
def State.barDecodes (s : State) (e f b o len : Nat) : Bool :=
  decide (b % 2 = 0 ∧ o + len ≤ (barShape (s.pfOf e f) (decide (4 ≤ f)) (b / 2)).1) &&
  (if f = 2 ∧ b = 0 then s.windowServes (s.target (s.pf2Addr e o))
   else if f = 2 ∧ b = 4 then !s.fatal
   else !s.fatal && decide (s.get .BOOT_STATUS_recovery = 0))

/-- The completion of a request that the device does not support, which the function's AER reports where the function exists: an
Advisory Non-Fatal error for a read (log entry 59). -/
def State.unsupported (s : State) (e f : Nat) (write : Bool) : State :=
  let s := s.when (decide (s.get .PCI_FN_STAT_present e f = 1)) (·.aerU e f 20 (!write))
  if write then s else (s.answer []).emit .cpl [e, 1]

/-- Bytes of a page or buffer behind a BAR: the time page (R136), the recovery buffer (R518). -/
def State.barBytes (s : State) (e f b o len : Nat) : Option (List Nat) :=
  if b = 4 ∧ f ≠ 2 then some ((List.range len).map (fun k => (s.pageBytes e).getD (o + k) 0))
  else if b = 4 ∧ 0x1000 ≤ o then
    some ((List.range len).map (fun k => if o + k < 0x201000 then (s.lget .rcvBuf).getD (o + k - 0x1000) 0 else 0))
  else none

/-- The address by which an error record names a register reached through a BAR: its device address where it has one, else its offset in
the BAR (log entry 153). -/
def State.spotAddr (s : State) (e f o : Nat) : Nat :=
  let rw := if f < 4 then 0x100000 else 0x8000
  match (if f = 2 ∨ o < rw then none else s.fnRing e f ((o - rw) / 0x20)) with
  | some r => (2 + e) * 2 ^ 44 + 0x500000 + r * 0x20 + o % 0x20
  | none => o

/-- A write of some bytes of a dword of a BAR: a register takes none of it, and it is recorded (R6). -/
def State.spotPartial (s : State) (e f b o : Nat) : State :=
  match s.barSpot e f b o with
  | .reg _ _ _ => s.report1 (s.pathErr 0x01 (pathEp e) (s.spotAddr e f o))
  | _ => s

/-- A read of `len` bytes at a BAR: pages and memory windows give their bytes, registers their whole dwords in ascending order, a _LO before its
_HI (R6, R7). One that waits for a clock is completed later (R70). -/
def State.barRead (s : State) (e f b o len : Nat) : State :=
  let done := fun (s : State) (d : List Nat) => (s.answer d).emit .cpl [e, 0] d
  match s.barBytes e f b o len with
  | some d => done s d
  | none =>
    let a := s.pf2Addr e o
    let win := decide (f = 2 ∧ b = 0)
    if win && decide (s.target a = .mem) then
      if s.memOk a then done s (s.mread a len) else (s.answer []).hold (pathEp e) a (5 + 8 * len) 0
    else if win && !s.islandOk a then
      if o % 8 = 0 ∧ len = 8 then (s.answer []).hold (pathEp e) a 4 0
      else (s.answer []).each (dwords o len) (fun x s => s.hold (pathEp e) (s.pf2Addr e x.1) 3 0)
    else
      let r := (dwords o len).foldl (fun (p : State × List Nat) x =>
        let s := if win then p.1.readAt (pathEp e) (p.1.pf2Addr e x.1) else p.1.spotRead e f (p.1.barSpot e f b x.1)
        (s, p.2 ++ leBytes 4 (s.reply.headD 0))) (s, [])
      done r.1 r.2

/-- A write of bytes at a BAR: to pages nothing, to the recovery buffer and to memory windows the bytes, to registers their whole dwords in
ascending order, a dword with some bytes only as R6 says. -/
def State.barWrite (s : State) (e f b o : Nat) (data : List Nat) : State :=
  let a := s.pf2Addr e o
  let win := decide (f = 2 ∧ b = 0)
  if b = 4 ∧ f ≠ 2 then s
  else if b = 4 ∧ 0x1000 ≤ o then
    let was := s.lget .rcvBuf
    let d := data.take (0x201000 - o)
    s.lset .rcvBuf (splice (was ++ List.replicate (o - 0x1000 - was.length) 0) (o - 0x1000) d)
  else if win && decide (s.target a = .mem) then
    if flashWindow a then s
    else if s.memOk a then s.mwrite a data else s.hold (pathEp e) a (6 + 8 * data.length) (leNat data)
  else s.each (dwords o data.length) (fun x s =>
    let v := leNat (slice data (x.1 + x.2.1 - o) x.2.2)
    if win then (if x.2.2 = 4 then s.writeAt (pathEp e) (s.pf2Addr e x.1) v else s.run (execPartialWrite (pathEp e) (s.pf2Addr e x.1)))
    else if x.2.2 = 4 then s.spotWrite e f (s.barSpot e f b x.1) v else s.spotPartial e f b x.1)

/-- BAR_REQUEST: a host's memory request to BAR `b` of function `f`: it takes effect, or completes as Unsupported Request (R428). -/
def execBarRequest (e rid f b : Nat) (write : Bool) (o len : Nat) (data : List Nat) (s : State) : Host.Outcome State Fault Refusal :=
  .next <|
    if s.get .PCI_EP_CFG_link_up e = 0 ∨ s.get .PWR_reset = 1 then s
    else
    let s := s.set .PATH_rid rid 0 (pathEp e)
    if !s.barOpen e f ∨ !s.barDecodes e f b o len then s.unsupported e f write
    else if write then s.barWrite e f b o (fixLen len data)
    else s.barRead e f b o len

end Sys2Proof.Machine
end

