-- ==== Sys2Proof/Machine/Ncsi.lean ====
section
/-! DEFINITION. The NC-SI package of IOD0: its control packets and the frames a management controller sends (spec file 09, R290 to
R292). The contents of the packets are those of DMTF DSP0222 1.2.0, which the spec names (log entry 42). -/

namespace Sys2Proof.Machine

/-- Response and reason codes: completed. -/
def ncOk : List Nat := [0, 0, 0, 0]
/-- Failed: interface initialization required. -/
def ncInit : List Nat := [0, 1, 0, 1]
/-- Failed: parameter invalid. -/
def ncParam : List Nat := [0, 1, 0, 2]
/-- Failed: invalid payload length. -/
def ncLen : List Nat := [0, 1, 0, 5]
/-- Failed: the VLAN ID is 0 (Set VLAN Filter). -/
def ncVlan0 : List Nat := [0, 1, 0x0B, 0x07]
/-- Failed: the MAC address is 0 (Set MAC Address). -/
def ncMac0 : List Nat := [0, 1, 0x0E, 0x08]
/-- Unsupported command. -/
def ncUnsup : List Nat := [0, 3, 0x7F, 0xFF]

/-- Payload bytes that a command needs; none for a command the package does not support (R290). -/
def ncsiLen (type : Nat) : Option Nat :=
  match type with
  | 0x00 | 0x02 | 0x03 | 0x06 | 0x07 | 0x0A | 0x0D | 0x11 | 0x13 | 0x15 | 0x16 | 0x17 | 0x19 | 0x1A => some 0
  | 0x01 | 0x04 | 0x05 | 0x0C | 0x10 | 0x12 => some 4
  | 0x08 | 0x09 | 0x0B | 0x0E => some 8
  | _ => none

/-- Channels that exist: the ports of the current modes (R290). -/
def State.ncsiChannels (s : State) : List Nat := (List.range 16).filter (fun n => s.portOk (n / 8) (n % 8))

/-- Bits of the instances `base` to `base` + `n` − 1 of a flag. -/
def State.flagBits (s : State) (f : Field) (base n : Nat) : Nat :=
  ((List.range n).map (fun k => s.get f 0 (base + k) * 2 ^ k)).sum

/-- Response payload of Get Version ID: version 1.2.0, PCI identity of PF0 of endpoint 0 (R419, R421); firmware name, firmware
version and manufacturer are free values (log entry 42). -/
def State.ncsiVersion (s : State) : List Nat :=
  let fv := beBytes 20 (s.freeVal 160)
  [0xF1, 0xF2, 0xF0, 0, 0, 0, 0, 0] ++ fv.take 16 ++ beBytes 2 0x7810 ++ beBytes 2 0xB7E5 ++
  beBytes 2 (s.get .PCI_ID_CFG_ssid) ++ beBytes 2 (s.get .PCI_ID_CFG_ssvid) ++ fv.drop 16

/-- Response payload of Get Capabilities: filters and events of R290; feature flags and buffer size are free values (log entry 42). -/
def State.ncsiCaps (s : State) : List Nat :=
  let fv := beBytes 8 (s.freeVal 64)
  fv.take 4 ++ beBytes 4 0x0F ++ beBytes 4 0x3F ++ fv.drop 4 ++ beBytes 4 0x03 ++ [2, 0, 0, 8, 0, 0, 7, s.ncsiChannels.length]

/-- Response payload of Get Parameters. -/
def State.ncsiParams (s : State) (n : Nat) : List Nat :=
  [8, 0, 0, s.flagBits .NCSI_mac_en (n * 8) 8, 2, 0] ++ beBytes 2 (s.flagBits .NCSI_vlan_en (n * 2) 2) ++
  beBytes 4 (s.get .NCSI_link 0 n) ++ beBytes 4 (s.get .NCSI_bc_set 0 n) ++
  beBytes 4 (s.get .NCSI_bc 0 n + 2 * s.get .NCSI_en 0 n + 4 * s.get .NCSI_tx 0 n + 8 * s.get .NCSI_mc 0 n) ++
  [s.get .NCSI_vmode 0 n, 0, 0, 0] ++ beBytes 4 (s.get .NCSI_aen 0 n) ++
  (List.range 8).flatMap (fun k => beBytes 6 (s.get .NCSI_mac 0 (n * 8 + k))) ++
  (List.range 2).flatMap (fun k => beBytes 2 (s.get .NCSI_vlan 0 (n * 2 + k)))

/-- A channel command: the state after it, and the response's codes and data. -/
def State.ncsiDo (s : State) (n type : Nat) (p : List Nat) : State × List Nat :=
  let ok := fun (s : State) => (s, ncOk)
  if type ≠ 0x00 ∧ s.get .NCSI_init 0 n = 0 then (s, ncInit)
  else match type with
  | 0x00 => ok ((s.ncsiReset n).set .NCSI_init 1 0 n)
  | 0x03 => ok (s.set .NCSI_en 1 0 n)
  | 0x04 => ok ((s.set .NCSI_en 0 0 n).set .NCSI_ald (p.getD 3 0) 0 n)
  | 0x05 => ok (s.ncsiReset n)
  | 0x06 => ok (s.set .NCSI_tx 1 0 n)
  | 0x07 => ok (s.set .NCSI_tx 0 0 n)
  | 0x08 => ok ((s.set .NCSI_aen_mc (p.getD 3 0) 0 n).set .NCSI_aen (beNat (slice p 4 4)) 0 n)
  | 0x09 => ok ((s.set .NCSI_link (beNat (slice p 0 4)) 0 n).set .NCSI_oem_link (beNat (slice p 4 4)) 0 n)
  | 0x0A =>
    let up := decide (s.get .ETH_PORT_STATUS_state (n / 8) (n % 8) = ethUP)
    (s.drew, ncOk ++ beBytes 4 (s.ncsiLink up) ++ beBytes 8 0)
  | 0x0B =>
    let k := p.getD 6 0
    if k = 0 ∨ 2 < k then (s, ncParam)
    else if beNat (slice p 2 2) % 4096 = 0 then (s, ncVlan0)
    else ok ((s.set .NCSI_vlan (beNat (slice p 2 2)) 0 (n * 2 + (k - 1))).set .NCSI_vlan_en (p.getD 7 0) 0 (n * 2 + (k - 1)))
  | 0x0C => if 1 ≤ p.getD 3 0 ∧ p.getD 3 0 ≤ 3 then ok (s.set .NCSI_vmode (p.getD 3 0) 0 n) else (s, ncParam)
  | 0x0D => ok (s.set .NCSI_vmode 0 0 n)
  | 0x0E =>
    let k := p.getD 6 0
    if k = 0 ∨ 8 < k then (s, ncParam)
    else if beNat (slice p 0 6) = 0 then (s, ncMac0)
    else ok ((s.set .NCSI_mac (beNat (slice p 0 6)) 0 (n * 8 + (k - 1))).set .NCSI_mac_en (p.getD 7 0) 0 (n * 8 + (k - 1)))
  | 0x10 => ok ((s.set .NCSI_bc 1 0 n).set .NCSI_bc_set (beNat (slice p 0 4)) 0 n)
  | 0x11 => ok (s.set .NCSI_bc 0 0 n)
  | 0x12 => ok ((s.set .NCSI_mc 1 0 n).set .NCSI_mc_set (beNat (slice p 0 4)) 0 n)
  | 0x13 => ok (s.set .NCSI_mc 0 0 n)
  | 0x15 => (s.drew, ncOk ++ s.ncsiVersion)
  | 0x16 => (s.drew, ncOk ++ s.ncsiCaps)
  | 0x17 => (s, ncOk ++ s.ncsiParams n)
  | 0x19 => (s, ncOk ++ [Field.NCSI_cmds, .NCSI_dropped, .NCSI_type_err, .NCSI_sum_err, .NCSI_cmds, .NCSI_resp, .NCSI_aens].flatMap
      (fun f => beBytes 4 (s.get f)))
  | _ => (s, ncOk ++ beBytes 8 (s.get .NCSI_pt_tx 0 n) ++ beBytes 4 (s.get .NCSI_pt_txdrop 0 n) ++ beBytes 12 0 ++
      beBytes 4 (s.get .NCSI_pt_rx 0 n) ++ beBytes 4 (s.get .NCSI_pt_rxdrop 0 n) ++ beBytes 12 0)

/-- The response to a control packet leaves. -/
def State.ncsiAnswer (s : State) (b data : List Nat) : State :=
  (s.emit .msg [0, b.getD 5 0] (ncsiPacket (b.getD 0 0) (b.getD 3 0) (b.getD 4 0 + 0x80) (b.getD 5 0) data)).bump .NCSI_resp

/-- A well-formed control packet for the package. -/
def State.ncsiCommand (s : State) (b : List Nat) : State :=
  let type := b.getD 4 0
  let ch := b.getD 5 0 % 32
  let p := (b.drop 16).take (beNat (slice b 6 2) % 4096)
  match ncsiLen type with
  | none => (s.bump .NCSI_type_err).ncsiAnswer b ncUnsup
  | some k =>
    if p.length ≠ k then s.ncsiAnswer b ncLen
    else if type = 0x01 then ((s.set .NCSI_sel 1).set .NCSI_hwarb (p.getD 3 0)).ncsiAnswer b ncOk
    else if type = 0x02 then (s.set .NCSI_sel 0).ncsiAnswer b ncOk
    else if !s.ncsiChannels.contains ch then s.bump .NCSI_dropped
    else
      let (s, r) := (s.set .NCSI_sel 1).ncsiDo ch type p
      s.ncsiAnswer b r

/-- NCSI_COMMAND: a control packet arrives from the management controller: header, payload and checksum (R290). One for another
package, with a bad checksum, or for a channel that does not exist gets no response. -/
def execNcsiCommand (b : List Nat) (s : State) : Host.Outcome State Fault Refusal :=
  .next <|
    if !s.ncsiOn ∨ b.getD 5 0 / 32 % 8 ≠ s.get .ETH_NCSI_CFG_package_id then s
    else
      let n := 16 + (beNat (slice b 6 2) % 4096 + 3) / 4 * 4
      let sum := beNat (slice b n 4)
      let s := s.bump .NCSI_cmds
      if sum ≠ 0 ∧ (sum + ncsiSum (b.take n)) % 2 ^ 32 ≠ 0 then (s.bump .NCSI_sum_err).bump .NCSI_dropped
      else s.ncsiCommand b

/-- NCSI_FRAME_TRANSMIT: a frame of the management controller for channel `n` enters the port's MAC ahead of the scheduler and
starts between frames, unless it would overlap the preamble of a held launch frame, for which it waits (R291); without CK_NCSI it
is dropped (R292). -/
def execNcsiFrameTransmit (n at_ : Nat) (b : List Nat) (s : State) : Host.Outcome State Fault Refusal :=
  .next <|
    let d := n / 8 % 2
    let p := n % 8
    let s := s.advanceTo at_
    if !s.ncsiOn ∨ s.get .NCSI_tx 0 n = 0 ∨ !s.macUp d p then s.bump .NCSI_pt_txdrop 0 n
    else
      let s := s.lset .ncsiTx (s.lget .ncsiTx d p ++ (b.length :: b)) d p
      if s.ncsiMay d p then s.ncsiSend d p else s

end Sys2Proof.Machine
end

