-- ==== Sys2Proof/Machine/Power.lean ====
section
/-! DEFINITION. Pins, power and package: spec file 22, rules R558 to R568. -/

namespace Sys2Proof.Machine

/-- Groups of pins that share a row of Table PINS-10. -/
inductive PinGroup where
  /-- Ethernet lanes 1 to 7, transmit. -/
  | ethTx
  /-- Ethernet lane 0 of an IOD, transmit. -/
  | ethTx0 (d : Nat)
  /-- PCIe transmit. -/
  | pcieTx
  /-- PEn_WAKE_N. -/
  | wakeN (e : Nat)
  /-- CT_THERMTRIP_N. -/
  | thermtripN
  /-- TM_PPS_OUTn, TMUX_*, TM_DAC_SCLK, TM_DAC_MOSI and the NC-SI outputs. -/
  | slowOut
  /-- TM_DAC_CS_N. -/
  | dacCsN
  /-- CT_XSPI_CS_N. -/
  | xspiCsN
  /-- The other CT_XSPI_* pins. -/
  | xspi
  /-- SEAL_A. -/
  | sealA
  /-- CT_TDO. -/
  | tdo
  /-- CT_SMB_* and CT_PMB_*. -/
  | smb
deriving DecidableEq, Repr

/-- What drives a pin. -/
inductive PinDrive where
  /-- High-impedance. -/
  | highZ
  /-- Electrical idle. -/
  | idle
  | low
  | high
  /-- The wake link of R286. -/
  | wakeLink
  /-- Toggling (R524). -/
  | toggling
  /-- High-impedance, no address acknowledged. -/
  | silent
  /-- The boundary register of the TAP (R548). -/
  | boundary
  /-- The function of the pin. -/
  | function
deriving DecidableEq, Repr

/-- A pin that follows the wake logic of R288, or the trip of R568: low while asserted, else high-impedance. -/
def openDrain (v : Nat) : PinDrive := if v = 1 then .low else .highZ

/-- CT_THERMTRIP_N is asserted: some die has tripped (R568). -/
def State.tripped (s : State) : Bool := (List.range 8).any (fun d => decide (s.get .PKG_THERM_trip d = 1))

/-- Columns "All supplies off" and "VAUX only" of Table PINS-10. -/
def State.pinUnpowered (s : State) (g : PinGroup) : PinDrive :=
  if s.get .PWR_vaux = 0 then .highZ else
  match g with
  | .ethTx0 d => if s.get .ETH_WAKE_CFG_wake_en d = 1 then .wakeLink else .highZ
  | .wakeN e => openDrain (s.get .PIN_wake e)
  | .sealA => .toggling
  | .smb => .silent
  | _ => .highZ

/-- Column "CT_POR_N low, rails up". -/
def pinReset : PinGroup → PinDrive
  | .ethTx | .ethTx0 _ | .pcieTx => .idle
  | .slowOut => .low
  | .dacCsN | .xspiCsN => .high
  | .sealA => .toggling
  | .wakeN _ | .thermtripN | .xspi | .tdo | .smb => .highZ

/-- Pins with every supply up and the device out of reset. -/
def State.pinRunning (s : State) (g : PinGroup) : PinDrive :=
  match g with
  | .wakeN e => openDrain (s.get .PIN_wake e)
  | .thermtripN => openDrain (b2n s.tripped)
  | .sealA => .toggling
  | .tdo => .function
  | _ => match s.get .JTAG_pins with
    | 1 => .boundary
    | 2 => .highZ
    | _ => .function

/-- Column "Parked". -/
def State.pinParked (s : State) (g : PinGroup) : PinDrive :=
  match g with
  | .ethTx | .ethTx0 _ => .idle
  | .slowOut => .low
  | .dacCsN | .xspiCsN => .high
  | .xspi => .highZ
  | .smb => .silent
  | g => s.pinRunning g

/-- Whether an observation point is point base + 0 of a range of Table SERV-5. -/
def tmuxCounts (p : Nat) : Bool :=
  decide (p = 0 ∨ p = 0x200 ∨ p = 0x300 ∨ p = 0x500 ∨ (0x700 ≤ p ∧ p % 0x100 = 0))

/-- The 8 pins of test multiplexer group `g` (R550): low unless debug is unlocked and the group enabled; else the point's 8 bits at its
last sample, taken every `div` periods of CK_TS (1 ns), with the sample clock on pin 7 when strobe_out is 1. What the points show, but for
the count of samples of the first of each range, and where that count stood first, the spec does not say: free values (log entry 165). -/
def State.tmux (s : State) (g : Nat) : Nat :=
  if s.get .ONX_STATUS_debug_unlocked = 0 ∨ s.get .TMX_SEL_enable 0 g = 0 ∨ s.get .PWR_fail = 1 then 0
  else
    let per := 4 * max 5 (s.get .TMX_CFG_div)
    let p := s.get .TMX_SEL_point 0 g
    let k := s.now / per
    let v := (if tmuxCounts p then Config.observed p 0 + k else Config.observed p k) % 256
    if s.get .TMX_SEL_strobe_out 0 g = 1 then v % 128 + 128 * b2n (decide (per ≤ 2 * (s.now % per))) else v

/-- What drives the pins of a group (Table PINS-10). -/
def State.pin (s : State) (g : PinGroup) : PinDrive :=
  if s.get .PWR_main = 0 then s.pinUnpowered g
  else if s.get .PWR_reset = 1 then pinReset g
  else if s.get .PWR_fail = 1 then s.pinParked g
  else s.pinRunning g

/-- Outputs are parked (Table PINS-10): PPS outputs fall. -/
def State.park (s : State) : State :=
  s.each [0, 1] (fun k s => if s.get .PPS_high 0 k = 1 then (s.set .PPS_high 0 0 k).emit .pin [k, 0] else s)

/-- Amber records already signed are programmed, nothing further (R114, R561). Without CK_XSPI they are left out of the log (R529). -/
def State.amberLast (s : State) : State :=
  let l := s.lget .amberToLog
  let s := s.each l (fun q s => if s.xspiOk then s.logProgram (s.lget .amber 0 q) else s.bump .BOOT_FLASH_STAT_log_lost)
  (s.lset .amberToLog []).set .AMBER_stop 1

/-- Ledger totals and ageing indices are written to embedded flash; skipped and counted without CK_FLASH; nothing is charged
from here on (R500, R529). -/
def State.persistLast (s : State) : State :=
  (if s.embFlashOk then s.persist else s.bump .BOOT_FLASH_STAT_flash_err).set .NRL_off 1

/-- The BOOT_ARB program ends with `blown` elements blown (R561). -/
def State.arbCut (s : State) (blown : Nat) : State :=
  if s.get .BOOT_ARB_busy = 0 then s
  else (s.set .BOOT_ARB_counter (max (s.get .BOOT_ARB_counter) (min blown (s.get .BOOT_ARB_target)))).set .BOOT_ARB_busy 0

/-- POWER_FAIL_WARNING: the actions of Table PINS-9; `blown` elements are blown when a BOOT_ARB program is cut short (R561). -/
def execPowerFailWarning (blown : Nat) (s : State) : Host.Outcome State Fault Refusal :=
  .next <|
    if s.get .PWR_fail = 1 ∨ s.get .PWR_reset = 1 then s
    else
      let s := ((s.set .PKG_PWR_EVENTS_pwr_fail 1).set .PWR_fail 1).park
      let s := ((s.amberLast).persistLast).arbCut blown |>.rcvCut
      (s.advanceTo (s.now + 159 * usUnits)).set .PKG_PWR_EVENTS_pwr_fail_done 1

/-- Every main-rail die is held in reset (R559). -/
def State.holdReset (s : State) : State := (((s.linkDown 0).linkDown 1).porReset true).set .PWR_reset 1

/-- A record being programmed is lost: its slot holds no record that verifies (R562). -/
def State.amberTorn (s : State) : State :=
  match s.lget .amberToLog with
  | [] => s
  | _ => (s.lset .amberToLog []).addw .AMBER_slot 1

/-- RAIL_DROP: main rail `rail` falls below its tolerance without an accepted warning: the actions of Table PINS-9 in the time that
remains, `logged` and `saved` telling which complete, and `blown` elements of a BOOT_ARB program blown; then the dies are held in reset
(R559, R562). After a warning the device is parked and the rails may go. -/
def execRailDrop (rail : Nat) (logged saved : Bool) (blown : Nat) (s : State) : Host.Outcome State Fault Refusal :=
  .next <|
    if s.get .PWR_main = 0 then s
    else
      let s := if s.get .PWR_fail = 1 ∨ s.get .PWR_reset = 1 then s
        else
          let s := ((s.set .PKG_PWR_EVENTS_rail_drop 1).set .PKG_PWR_EVENTS_rail rail).park
          let s := if logged then s.amberLast else s.amberTorn
          (if saved then s.persistLast else s).arbCut blown |>.rcvCut
      s.holdReset.set .PWR_main 0

/-- MAIN_RAILS_REMOVED: the main rails go in an orderly way: main-rail dies are held in reset, and lane 0 of an IOD whose wake_en is 1
runs the wake link (R286, R560). -/
def execMainRailsRemoved (s : State) : Host.Outcome State Fault Refusal :=
  .next <| if s.get .PWR_main = 0 then s else s.rcvCut.holdReset.set .PWR_main 0

/-- MAIN_RAILS_GOOD: the last main rail becomes good: PEn_WAKE_N is released where it was driven, and PME_Status set (R288, R559). -/
def execMainRailsGood (s : State) : Host.Outcome State Fault Refusal :=
  .next <|
    if s.get .PWR_main = 1 then s
    else (s.set .PWR_main 1).each [0, 1] (fun e s =>
      if s.get .PIN_wake e = 1 then ((s.set .PIN_wake 0 e).set .PME_st 1 e).emit .pin [16 + e, 1] else s)

/-- Every scalar of the VAUX well at its reset value, CK_AUX absent (R61, R565). -/
def State.vauxReset (s : State) : State :=
  let t : State := { s with regs := s.regs.filter (fun p => !vauxFields.contains p.1.f) }
  (t.each (List.range 8) (fun d s => s.setb .XD_CLK_DIE_PRESENT_present 15 false 0 d)).setb .XD_CLK_PRESENT_present 15 false

/-- VAUX_UP: VAUX comes up and its well starts, CK_AUX absent until it has been watched (R61, R558, R565). -/
def execVauxUp (s : State) : Host.Outcome State Fault Refusal :=
  .next <| if s.get .PWR_vaux = 1 then s else s.vauxReset.set .PWR_vaux 1

/-- VAUX_LOSS: the VAUX well is reset (R289, R440, R565). -/
def execVauxLoss (s : State) : Host.Outcome State Fault Refusal :=
  .next <| if s.get .PWR_vaux = 0 then s else s.vauxReset.set .PWR_vaux 0

/-- A die's hottest sensor reads `tj` quarter degrees; the peak follows it, and warn sets beyond 110 °C and clears below 100 °C
(PKG_THERM, R567). -/
def State.thermRead (s : State) (d tj : Nat) : State :=
  let s := (s.set .PKG_THERM_tj_qc tj d).set .PKG_THERM_peak_qc (if sgn 10 (s.get .PKG_THERM_peak_qc d) < sgn 10 tj then tj else s.get .PKG_THERM_peak_qc d) d
  if 440 < sgn 10 tj then s.set .PKG_THERM_warn 1 d else if sgn 10 tj < 400 then s.set .PKG_THERM_warn 0 d else s

/-- THERMAL_WARN: die `d` reads `tj` (R567). -/
def execThermalWarn (d tj : Nat) (s : State) : Host.Outcome State Fault Refusal :=
  .next (s.thermRead d tj)

/-- THERMAL_WARN_CLEAR: die `d` reads `tj` (R567). -/
def execThermalWarnClear (d tj : Nat) (s : State) : Host.Outcome State Fault Refusal :=
  .next (s.thermRead d tj)

/-- THERMTRIP: die `d` reads `tj`: beyond 120 °C CT_THERMTRIP_N is asserted and the error is DEVICE_FATAL (R568). -/
def execThermtrip (d tj : Nat) (s : State) : Host.Outcome State Fault Refusal :=
  .next <|
    let s := s.thermRead d tj
    if sgn 10 tj ≤ 480 ∨ s.get .PKG_THERM_trip d = 1 then s
    else (((s.set .PKG_THERM_trip 1 d).set .PKG_PWR_EVENTS_thermtrip 1).emit .pin [18, 0]).report
      { src := 0x1C, cls := .deviceFatal, die := d, detail := some d }

/-- The instant 1 ms after reset release, on DTS as it runs now (R576): at release DTS reads 0, and only steps have moved it since. -/
def State.trainEnd (s : State) : Nat := s.now + (msUnits - s.mono)

/-- A Peing link that has not left DOWN within 1 ms of reset release enters FAILED (R576). -/
def State.trainFail (s : State) (a b : Nat) : State := ((s.advanceTo s.trainEnd).linkFail a b).stage0Go

/-- PEING_LINK_TRAINED: within 1 ms of reset release a link in DOWN enters UP, or DEGRADED when training has placed traffic on spares; later
than that it has failed. Stage 0 starts with no link in DOWN (R576). -/
def execPeingLinkTrained (a b spares : Nat) (s : State) : Host.Outcome State Fault Refusal :=
  .next <|
    if s.get .PKG_PEING_LINK_present a b = 0 ∨ s.linkState a b ≠ 0 ∨ s.get .PWR_reset = 1 then s
    else if msUnits < s.mono then s.trainFail a b
    else (((s.set .PKG_PEING_LINK_spares_used spares a b).set .PKG_PEING_LINK_spares_used spares b a).setLink a b
      (if spares = 0 then 1 else 2)).stage0Go

/-- PEING_TRAIN_TIMEOUT: a link still DOWN 1 ms after reset release enters FAILED (R576). -/
def execPeingTrainTimeout (a b : Nat) (s : State) : Host.Outcome State Fault Refusal :=
  .next <|
    if s.get .PKG_PEING_LINK_present a b = 0 ∨ s.linkState a b ≠ 0 ∨ s.get .PWR_reset = 1 then s else s.trainFail a b

/-- POWER_ON_RESET_ASSERT: CT_POR_N is driven low: every die is in reset (R559, R563). -/
def execPowerOnResetAssert (s : State) : Host.Outcome State Fault Refusal :=
  .next <| if s.get .PWR_main = 0 then s else s.holdReset

/-- POWER_ON_RESET: CT_POR_N is high and every main rail has been good for 1 ms: the POR domain takes its reset values and stage 0 waits for
the Peing links and CK_FLASH (there already where `clk`). `size` is the external flash's size by its SFDP table, 0 where that cannot be read: then 256 MiB
(R502, R510, R559, R571, R573, R576). -/
def execPowerOnReset (clk : Bool) (size : Nat) (s : State) : Host.Outcome State Fault Refusal :=
  .next <|
    if s.get .PWR_main = 0 then s
    else (s.holdReset.set .BOOT_density (if size = 0 then 0x10000000 else size)).porRelease clk

end Sys2Proof.Machine
end

