-- ==== Sys2Proof/Machine/Roce.lean ====
section
/-! DEFINITION. The RoCEv2 subset of the transport block (spec file 11, R343, R344, Table SILL-11), whose packet formats are those of
the InfiniBand Architecture Specification Volume 1 and its Annex A17, and the sending step of every connection. -/

namespace Sys2Proof.Machine

/-- A 24-bit sequence number. -/
def p24 (n : Nat) : Nat := n % 2 ^ 24

/-- UDP port of RoCEv2. -/
def rocePort : Nat := 4791

/-- IP bytes of a frame with the fields that the invariant CRC leaves out set to ones, up to but without its last four bytes (Annex A17). -/
def icrcMask (f : List Nat) : List Nat :=
  let (et, _, b) := vlanSkip 2 none (f.drop 12)
  let hl := if et = 0x0800 then 4 * (b.getD 0 0 % 16) else 40
  let n := hl + beAt b (hl + 4) 2
  let ip := if et = 0x0800 then splice (splice (splice (b.take hl) 1 [0xFF]) 8 [0xFF]) 10 [0xFF, 0xFF]
    else splice (splice (b.take hl) 0 [0x6F, 0xFF, 0xFF, 0xFF]) 7 [0xFF]
  let u := splice (splice (slice b hl (n - hl)) 6 [0xFF, 0xFF]) 12 [0xFF]
  ip ++ u.take (u.length - 4)

/-- The invariant CRC of a frame, as its last four bytes (Annex A17). -/
def icrcOf (f : List Nat) : List Nat := leBytes 4 (crc32 (List.replicate 8 0xFF ++ icrcMask f))

/-- The last four bytes of a frame's UDP datagram. -/
def icrcHas (f : List Nat) : List Nat :=
  match udpOf f with
  | some u => u.pay.drop (u.pay.length - 4)
  | none => []

/-- Base transport header; P_Key 0xFFFF and the migrated state, which the spec does not name (log entry 50). -/
def bth (op pad qpn : Nat) (ack : Bool) (psn : Nat) : List Nat :=
  [op, 0x40 + pad * 16, 0xFF, 0xFF, 0] ++ beBytes 3 qpn ++ [if ack then 0x80 else 0] ++ beBytes 3 psn

/-- Pad bytes of a payload. -/
def rocePad (n : Nat) : Nat := (4 - n % 4) % 4

/-- QPN of the peer. -/
def State.roceQp (s : State) (c : Nat) : Nat := p24 (s.cn c 0 4)

/-- A RoCE packet leaves, with its invariant CRC. -/
def State.roceEmit (s : State) (c psn : Nat) (data : Bool) (u : List Nat) : State :=
  let icrc := icrcOf (s.udpFrame c rocePort 0 (s.freeVal 16) (u ++ [0, 0, 0, 0]))
  s.netSend c rocePort 0 psn data (u ++ icrc)

/-- Outstanding stored packets of a RoCE connection in PSN order, from the lowest unacknowledged one. -/
def State.roceOut (s : State) (c : Nat) : List Nat :=
  ((s.rtWhere c (fun s i => decide (s.get .RT_st 0 i ≠ 3))).map (fun i => (p24 (s.get .RT_psn 0 i + 2 ^ 24 - p24 (s.get .CN_una 0 c)), i))).mergeSort
    (fun a b => decide (a.1 ≤ b.1)) |>.map (·.2)

/-- The lowest unacknowledged PSN follows the store. -/
def State.roceUna (s : State) (c : Nat) : State :=
  let s := s.each (s.rtWhere c (fun s i => decide (s.get .RT_st 0 i = 3))) (fun i s => s.set .RT_st 0 0 i)
  match s.roceOut c with
  | i :: _ => s.set .CN_una (s.get .RT_psn 0 i) 0 c
  | [] => s.set .CN_una (s.get .CN_psn 0 c) 0 c

/-- A new packet of a RoCE request takes `cnt` PSNs, is stored and sent. -/
def State.roceNew (s : State) (c op m cnt : Nat) (last : Bool) (ext pl : List Nat) : State :=
  let psn := p24 (s.get .CN_psn 0 c)
  let i := rtIx c psn
  let pad := rocePad pl.length
  let u := bth op pad (s.roceQp c) last psn ++ ext ++ pl ++ List.replicate pad 0
  let s := (((((s.set .RT_psn psn 0 i).set .RT_msg m 0 i).set .RT_op op 0 i).set .RT_left 0 0 i).set .RT_resp 0 0 i).set .RT_exempt 0 0 i
  let s := ((s.set .RT_tx 1 0 i).lset .rtData u c (i % 256)).lset .rtTs [] c (i % 256)
  let s := ((s.rtSent (s.cnRegion c) c i 0 (s.repNow (regDie (s.cnRegion c)) % 2 ^ 32)).set .CN_psn (p24 (psn + cnt)) 0 c).set .CN_used 1 0 c
  (s.paceSet c 0 (u.length + 4)).roceEmit c psn true u

/-- A stored packet is sent again (go-back-N). -/
def State.roceResend (s : State) (n c i : Nat) : State :=
  if s.get .SIL_ACK_CFG_max_retx < s.get .RT_tx 0 i then s.cnError c
  else
    let b := s.lget .rtData c (i % 256)
    let u := splice b 8 [0x80]
    let s := ((s.addw .RT_tx 1 0 i).rtSent n c i 0 (s.repNow (regDie n) % 2 ^ 32)).bump .SIL_TX_CNT_retx_pkts n
    let s := s.when (decide (s.get .RT_op 0 i = 0x0C)) (·.set .MS_rx 0 0 (msIx c (s.get .RT_msg 0 i)))
    (s.paceSet c 0 (u.length + 4)).roceEmit c (s.get .RT_psn 0 i) true u

/-- Opcode of a packet among first, middle, last and only, given those of `only`, `first`, `mid`, `last`. -/
def rocePart (first last : Bool) (fst mid lst only : Nat) : Nat :=
  if first && last then only else if first then fst else if last then lst else mid

/-- The next packet of message `m` of a RoCE connection is formed, or its payload asked for. -/
def State.roceMsg (s : State) (n c m : Nat) : State :=
  let i := msIx c m
  let w := s.get .MS_work 0 i - 1
  let op := s.get .MS_op 0 i
  let off := s.get .MS_off 0 i
  let len := s.get .MS_len 0 i
  let want := if op ≤ 2 then min (s.cnMtu c) (len - off) else 0
  let have_ := s.lget .msgData c (m % 64)
  if have_.length < want then
    (if s.get .MS_fetch 0 i ≤ off + have_.length then
      let s := s.msgFetch n c m (want - have_.length)
      if s.get .MS_failed 0 i = 1 then s.cnError c else s
     else s)
  else if 256 ≤ p24 (s.get .CN_psn 0 c + 2 ^ 24 - p24 (s.get .CN_una 0 c)) ∨ 2 ^ 28 < s.storeUsed (s.cnHome c) + want then s
  else
    let first := decide (off = 0)
    let last := decide (len ≤ off + want)
    let reth := beBytes 8 (s.get .WRK_raddr 0 w) ++ beBytes 4 (s.get .WRK_rkey 0 w)
    let imm := beBytes 4 (s.get .WRK_operand 0 w)
    let atom := reth ++ beBytes 8 (s.get .WRK_operand 0 w) ++ beBytes 8 (if op = 6 then s.get .WRK_compare 0 w else 0)
    let s := s.when first (·.set .MS_psn (s.get .CN_psn 0 c) 0 i)
    let s := match op with
      | 0 => s.roceNew c (rocePart first last 0 1 2 4) m 1 last [] (have_.take want)
      | 1 => s.roceNew c (rocePart first last 6 7 8 0xA) m 1 last (if first then reth ++ beBytes 4 len else []) (have_.take want)
      | 2 => s.roceNew c (rocePart first last 6 7 9 0xB) m 1 last ((if first then reth ++ beBytes 4 len else []) ++ (if last then imm else []))
          (have_.take want)
      | 3 => s.roceNew c 0x0C m (max 1 ((len + s.cnMtu c - 1) / s.cnMtu c)) true (reth ++ beBytes 4 len) []
      | 5 => s.roceNew c 0x14 m 1 true atom []
      | _ => s.roceNew c 0x13 m 1 true atom []
    let s := (s.set .MS_off (off + want) 0 i).lset .msgData (have_.drop want) c (m % 64)
    s.when (decide (2 < op) || last) (·.set .MS_st 2 0 i)

/-- Acknowledge extended transport header; no end-to-end credits (log entry 50). -/
def State.aeth (s : State) (c syn : Nat) : List Nat := [syn] ++ beBytes 3 (s.get .CN_rmsg 0 c)

/-- An acknowledge packet for PSN `psn`. -/
def State.roceAck (s : State) (c psn syn : Nat) : State :=
  (s.set .CN_ackn 0 0 c).roceEmit c 0 false (bth 0x11 0 (s.roceQp c) false psn ++ s.aeth c syn)

/-- A request that is executed at a RoCE responder makes a step (IBA responses; R330, R331). -/
def State.roceResp (s : State) (n c m : Nat) : State :=
  let i := msIx c m
  let past := fun (s : State) =>
    let s := s.respEnd c m
    if s.lget .cnExec 0 c = [] ∧ s.get .CN_ackn 0 c ≠ 0 then s.roceAck c (p24 (s.get .CN_rlow 0 c + 2 ^ 24 - 1)) 0x1F else s
  match s.get .RESP_st 0 i with
  | 0 => s.respStart n c m
  | 2 => s
  | 3 => past ((s.paceSet c 0 28).roceEmit c 0 false (bth 0x12 0 (s.roceQp c) false (s.get .RM_psn 0 i) ++ s.aeth c 0x1F ++ beBytes 8 (s.atomResult c m)))
  | _ =>
    let off := s.get .RESP_off 0 i
    let len := s.get .RM_len 0 i
    let want := min (s.cnMtu c) (len - off)
    let have_ := s.lget .respData c (m % 64)
    if have_.length < want then
      (if s.get .RESP_addr 0 i - s.get .RM_addr 0 i ≤ off + have_.length then s.respFetch n c m (want - have_.length) else s)
    else
      let first := decide (off = 0)
      let last := decide (len ≤ off + want)
      let pad := rocePad want
      let u := bth (rocePart first last 0x0D 0x0E 0x0F 0x10) pad (s.roceQp c) false (p24 (s.get .RM_psn 0 i + off / s.cnMtu c)) ++
        (if first || last then s.aeth c 0x1F else []) ++ have_.take want ++ List.replicate pad 0
      let s := (s.paceSet c 0 (u.length + 4)).roceEmit c 0 false u
      let s := (s.set .RESP_off (off + want) 0 i).lset .respData (have_.drop want) c (m % 64)
      s.when last past

/-- A RoCE connection's step at the sender: responses, then the first packet to be sent again, then new ones. -/
def State.roceStep (s : State) (n c : Nat) : State :=
  let m := (s.lget .cnExec 0 c).headD 0
  let i := msIx c m
  if s.lget .cnExec 0 c ≠ [] ∧ s.get .RESP_nak 0 i ≠ 0 then
    (((s.keyFail n (s.get .RESP_nak 0 i)).roceAck c (s.get .RM_psn 0 i) 0x62).respEnd c m).cnError c
  else if !s.creditOk n (s.cnTenant c) ∨ !s.paceOk c 0 then s
  else if s.lget .cnExec 0 c ≠ [] ∧ s.get .RESP_st 0 i ≠ 2 ∧ s.get .CN_stall 0 c = 0 then s.roceResp n c m
  else
    let l := s.roceOut c
    if l.any (fun j => decide (s.get .RT_st 0 j = 4)) then s
    else match l.find? (fun j => decide (s.get .RT_st 0 j = 2)) with
      | some j => s.roceResend n c j
      | none =>
        if s.get .CN_stall 0 c = 1 ∨ !s.sqBme c then s
        else
          let s := s.when (decide (s.msgNext c = none)) (·.msgStart c)
          match s.msgNext c with
          | some m => s.roceMsg n c m
          | none => s

/-- SILLAGE_PACKET_SEND: at `at` the transport block that serves connection `c` forms and sends its next packet (R323 to R327, R333,
R336, R355, R356), while udp_port is not 0 (R314); on a RoCE connection, the next of that protocol, which roce_en must allow (R343). `agree` tells how a fault_check comparison came out. -/
def execSillagePacketSend (c at_ : Nat) (agree : Bool) (s : State) : Host.Outcome State Fault Refusal :=
  .next <|
    let n := s.cnRegion c
    if s.get .CN_state 0 c ≠ 1 ∨ s.fatal ∨ s.get .CN_stop 0 c = 1 ∨ !s.online n ∨ (s.cnFlag c 2 ∧ s.get .SIL_CFG_roce_en = 0) then s
    else
      let s := s.advanceTo at_
      if s.get .CACHE_in n c = 0 then s.cacheMiss n c
      else
        let s := s.cacheTouch n c
        if s.cnFlag c 2 then s.roceStep n c
        else if s.get .SIL_CFG_udp_port = 0 then s
        else match s.txKey n c agree with
          | (s, 1) => s
          | (s, st) => s.silStep n c st

/-- Messages of a RoCE connection with nothing outstanding complete, in order (R338 does not apply; log entry 51). -/
def State.roceReap (s : State) (c : Nat) : State :=
  let s := s.each (s.lget .cnMsgs 0 c) (fun m s =>
    let i := msIx c m
    if s.get .MS_st 0 i = 2 ∧ s.get .MS_op 0 i ≤ 2 ∧
        s.rtWhere c (fun s j => decide (s.get .RT_msg 0 j = m ∧ s.get .RT_st 0 j ≠ 3)) = [] then s.msgAnswered c m 0 else s)
  (s.roceUna c).set .CN_peer ((s.lget .cnMsgs 0 c).headD (s.get .CN_msg 0 c)) 0 c

/-- Every stored packet up to PSN `p` is acknowledged; a READ or atomic request among them whose response is not complete is to be
asked again. -/
def State.roceAcked (s : State) (c p : Nat) : State :=
  let l := (s.roceOut c).filter (fun i => decide (p24 (p + 2 ^ 24 - s.get .RT_psn 0 i) < 2 ^ 23))
  (s.each l (fun i s =>
    if s.get .RT_op 0 i = 0x0C ∨ s.get .RT_op 0 i = 0x13 ∨ s.get .RT_op 0 i = 0x14 then s.set .RT_st 2 0 i else s.rtAck c i)).set .CN_to 0 0 c

/-- Everything from PSN `p` on is to be sent again (go-back-N). -/
def State.roceBack (s : State) (c p : Nat) : State :=
  s.each ((s.roceOut c).filter (fun i => decide (p24 (s.get .RT_psn 0 i + 2 ^ 24 - p) < 2 ^ 23))) (fun i s => s.set .RT_st 2 0 i)

/-- RNR NAK timer of a code in 0.01 ms (InfiniBand Architecture Specification). -/
def rnrTable : List Nat :=
  [65536, 1, 2, 3, 4, 6, 8, 12, 16, 24, 32, 48, 64, 96, 128, 192, 256, 384, 512, 768, 1024, 1536, 2048, 3072, 4096, 6144, 8192, 12288, 16384,
    24576, 32768, 49152]

/-- The code of the shortest RNR timer not below retry_us (log entry 50). -/
def State.rnrCode (s : State) : Nat :=
  let us := max 1 (s.get .MKY_CFG_retry_us)
  ((List.range 31).find? (fun k => decide (us ≤ 10 * rnrTable.getD (k + 1) 0))).getD 30 + 1

/-- A message that the peer refused for good ends, and the connection with it (log entry 51). -/
def State.roceFail (s : State) (c p st : Nat) : State :=
  let j := rtIx c p
  let m := s.get .RT_msg 0 j
  let s := if s.get .RT_st 0 j ≠ 0 ∧ s.get .RT_psn 0 j = p then s.msReport c m st else s
  s.cnError c

/-- An acknowledge packet of the peer. -/
def State.roceAckIn (s : State) (c p syn : Nat) : State :=
  let before := p24 (p + 2 ^ 24 - 1)
  match syn / 32 % 4 with
  | 0 => (s.roceAcked c p).roceReap c
  | 1 =>
    let s := (s.roceAcked c before).roceReap c
    let j := rtIx c p
    let i := msIx c (s.get .RT_msg 0 j)
    if s.get .RT_st 0 j = 0 ∨ s.get .RT_psn 0 j ≠ p then s
    else if s.get .SIL_ACK_CFG_rnr_retries ≤ s.get .MS_rnr 0 i then s.roceFail c p msRNR_EXCEEDED
    else
      let s := (s.addw .MS_rnr 1 0 i).roceBack c p
      (s.set .RT_st 4 0 j).set .RT_at (s.now + rnrTable.getD (syn % 32) 0 * 10 * usUnits) 0 j
  | 3 =>
    match syn % 32 with
    | 0 => ((s.roceAcked c before).roceReap c).roceBack c p
    | 2 => ((s.roceAcked c before).roceReap c).roceFail c p msACCESS_ERR
    | _ => ((s.roceAcked c before).roceReap c).roceFail c p msREMOTE_OP_ERR
  | _ => s

/-- A READ response or atomic acknowledge of the peer (R330, R348): the request it answers is the oldest of its kind. -/
def State.roceRespIn (s : State) (n c p : Nat) (atomic : Bool) (pl : List Nat) : State :=
  match (s.roceOut c).find? (fun i => if atomic then decide (s.get .RT_op 0 i = 0x13 ∨ s.get .RT_op 0 i = 0x14) else decide (s.get .RT_op 0 i = 0x0C)) with
  | none => s
  | some j =>
    let m := s.get .RT_msg 0 j
    let i := msIx c m
    let w := s.get .MS_work 0 i - 1
    let want := p24 (s.get .RT_psn 0 j + s.get .MS_rx 0 i / s.cnMtu c)
    if p ≠ want then (if p24 (p + 2 ^ 24 - want) < 2 ^ 23 then s.set .RT_st 2 0 j else s)
    else
      let s := (s.roceAcked c (p24 (s.get .RT_psn 0 j + 2 ^ 24 - 1))).set .RT_st (s.get .RT_st 0 j) 0 j
      let d := if atomic then leBytes 8 (beNat (pl.take 8)) else pl
      match s.placeKey n c none (s.get .WRK_lkey 0 w) (s.get .WRK_addr 0 w + s.get .MS_rx 0 i) 1 d with
      | (s, .accept) =>
        let s := s.addw .MS_rx d.length 0 i
        if atomic ∨ s.get .MS_len 0 i ≤ s.get .MS_rx 0 i then ((s.rtAck c j).msgAnswered c m 0).roceReap c else s
      | (s, .nak 1) => s.set .RT_st 2 0 j
      | (s, .nak _) => (s.msReport c m msLOCAL_ACCESS).cnError c
      | (s, .wait) => s.set .RT_st 2 0 j

/-- A receive buffer for a SEND, or a WRITE with immediate data: the oldest, with a reservation for its completion. -/
def State.roceBuf (s : State) (c : Nat) : State × Option Nat :=
  let (e, r) := ringNo (s.cn c 76 4)
  match s.lget .rxBufs e r, s.ringCq e r, s.ringFn e r with
  | w :: _, some q, some f =>
    if s.get .WRK_resv 0 w = 1 then (s, some w)
    else if s.cqFree e q then ((s.reserve e q w).cqPause e f q, some w) else (s, none)
  | _, _, _ => (s, none)

/-- What became of a request packet: NAK syndrome to answer, or accepted taking so many PSNs. -/
inductive RoceFate where
  | wait
  | ok (psns : Nat)
  | rnr
  | nak (syn : Nat)

/-- A request packet of the expected PSN at a RoCE responder. -/
def State.roceReq (s : State) (n c op psn : Nat) (b : List Nat) : State × RoceFate :=
  let m := s.get .CN_rmsg 0 c
  let i := msIx c m
  let first := [0, 4, 5, 6, 0xA, 0xB, 0xC, 0x13, 0x14].contains op
  let last := [2, 3, 4, 5, 8, 9, 0xA, 0xB].contains op
  let imm := [3, 5, 9, 0xB].contains op
  let reth := [6, 0xA, 0xB].contains op
  let send := decide (op ≤ 5)
  let ib := (if reth then 16 else 0)
  let pl := b.drop (ib + (if imm then 4 else 0))
  let start := fun (s : State) =>
    if first then
      let s := [Field.RM_cnt, .RM_done, .RM_fail, .RM_imm, .RM_buf, .RESP_st, .RESP_nak, .RESP_off, .RESP_hold].foldl (fun s f => s.clr f 0 i) s
      let s := ((((s.set .RM_seen 1 0 i).set .RM_id m 0 i).set .RM_op (if send then 0 else 1) 0 i).set .RM_psn psn 0 i)
      if reth then ((s.set .RM_addr (beAt b 0 8) 0 i).set .RM_key (beAt b 8 4) 0 i).set .RM_len (beAt b 12 4) 0 i else s
    else s
  let fin := fun (s : State) (buf : Option Nat) =>
    let s := s.addw .RM_cnt pl.length 0 i
    if last then
      let s := ((s.set .RM_len (s.get .RM_cnt 0 i) 0 i).set .RM_done 1 0 i).addw .CN_rmsg 1 0 c
      match buf with
      | some w =>
        let s := s.when imm (fun s => (s.set .WRK_imm (beAt b ib 4) 0 w).set .WRK_flags 2 0 w)
        ((s.set .RM_buf (w + 1) 0 i).recvDone c m).bufUsed c m
      | none => s
    else s
  if op = 0x0C ∨ op = 0x13 ∨ op = 0x14 then
    let atomic := decide (op ≠ 0x0C)
    let addr := beAt b 0 8
    let key := beAt b 8 4
    let len := if atomic then 8 else beAt b 12 4
    if !s.keyCached n key then (s.keyMiss n key, .wait)
    else match s.keyCheck (s.repNow (regDie n)) (s.cnTenant c) (some (s.cnId c)) key addr len (if atomic then 4 else 2) atomic with
      | 0 =>
        match (if atomic then s.placeGate (s.mkRec (bitsOf key 8 20)) addr 8 true else (s, 0)) with
        | (s, 0) =>
          let s := (((start s).set .RM_op (match op with | 0x0C => 3 | 0x14 => 5 | _ => 6) 0 i).set .RM_addr addr 0 i).set .RM_key key 0 i
          let s := ((s.set .RM_len len 0 i).set .RM_opnd (beAt b 12 8) 0 i).set .RM_cmp (beAt b 20 8) 0 i
          (((s.set .RM_done 1 0 i).addw .CN_rmsg 1 0 c).lpush .cnExec m 0 c, .ok (if atomic then 1 else max 1 ((len + s.cnMtu c - 1) / s.cnMtu c)))
        | (s, 1) => (s, .wait)
        | (s, 2) => (s, .rnr)
        | (s, _) => (s.keyFail n 3, .nak 0x62)
      | y => (s.keyFail n y, .nak 0x62)
  else if send then
    match s.roceBuf c with
    | (s, none) => (s, .rnr)
    | (s, some w) =>
      let s := start s
      let at_ := s.get .RM_cnt 0 i
      if s.get .WRK_len 0 w < at_ + pl.length then (((s.workDone w msLOCAL_ACCESS).set .RM_buf (w + 1) 0 i).bufUsed c m, .nak 0x63)
      else match s.placeKey n c none (s.get .WRK_lkey 0 w) (s.get .WRK_addr 0 w + at_) 1 pl with
        | (s, .accept) => (fin s (some w), .ok 1)
        | (s, .wait) => (s, .wait)
        | (s, .nak 1) => (s, .rnr)
        | (s, .nak _) => (((s.workDone w msLOCAL_ACCESS).set .RM_buf (w + 1) 0 i).bufUsed c m, .nak 0x63)
  else
    match (if last && imm then s.roceBuf c else (s, some 0)) with
    | (s, none) => (s, .rnr)
    | (s, some w) =>
      let s := start s
      match s.placeKey n c (some (s.cnId c)) (s.get .RM_key 0 i) (s.get .RM_addr 0 i + s.get .RM_cnt 0 i) 3 pl with
      | (s, .accept) => (fin s (if last && imm then some w else none), .ok 1)
      | (s, .wait) => (s, .wait)
      | (s, .nak 1) => (s, .rnr)
      | (s, .nak y) => (s.keyFail n y, .nak 0x62)

/-- A CNP answers a packet marked Congestion Experienced, at most one in 50 µs (Table SILL-11). -/
def State.roceCnp (s : State) (c : Nat) : State :=
  let t := s.get .CN_cnp_at 0 c
  if t ≠ 0 ∧ s.now < t - 1 + 50 * usUnits then s
  else (s.set .CN_cnp_at (s.now + 1) 0 c).roceEmit c 0 false (bth 0x81 0 (s.roceQp c) false 0 ++ List.replicate 16 0)

/-- A request packet at a RoCE responder, by its PSN. -/
def State.roceReqIn (s : State) (n c h op psn : Nat) (ack : Bool) (b : List Nat) : State :=
  let e := p24 (s.get .CN_rlow 0 c)
  let d := p24 (psn + 2 ^ 24 - e)
  if d = 0 then
    match s.roceReq n c op psn b with
    | (s, .wait) => s
    | (s, .ok k) =>
      let s := ((s.set .CN_rlow (p24 (psn + k)) 0 c).set .CN_rmap 0 0 c).set .CN_ackn (b2n (ack && decide (op < 0x0C))) 0 c
      let s := if s.get .CN_ackn 0 c = 1 ∧ s.lget .cnExec 0 c = [] then s.roceAck c psn 0x1F else s
      s.engineTake h
    | (s, .rnr) => (s.roceAck c psn (0x20 + s.rnrCode)).engineTake h
    | (s, .nak y) => ((s.roceAck c psn y).engineTake h).cnError c
  else if 2 ^ 23 ≤ d then
    let s := s.bump .SIL_RX_CNT0_dup_pkts n
    let slot := ((List.range 64).map (fun k => c * 64 + k)).find? (fun i => decide (s.get .RM_seen 0 i = 1 ∧ s.get .RM_psn 0 i = psn))
    let s := match slot with
      | some i =>
        let m := s.get .RM_id 0 i
        if (s.lget .cnExec 0 c).contains m then s
        else if op = 0x0C then
          (((s.set .RM_addr (beAt b 0 8) 0 i).set .RM_key (beAt b 8 4) 0 i).set .RM_len (beAt b 12 4) 0 i).lpush .cnExec m 0 c
        else if (op = 0x13 ∨ op = 0x14) ∧ s.atomKept c m then (s.set .RESP_st 3 0 i).lpush .cnExec m 0 c
        else s.roceAck c (p24 (e + 2 ^ 24 - 1)) 0x1F
      | none => s.roceAck c (p24 (e + 2 ^ 24 - 1)) 0x1F
    s.engineTake h
  else
    let s := s.bump .SIL_RX_CNT0_oow_drops n
    let s := if s.get .CN_rmap 0 c = 0 then (s.set .CN_rmap 1 0 c).roceAck c e 0x60 else s
    s.engineTake h

/-- ROCE_PACKET_RECEIVE: a RoCEv2 packet at the transport block of region `n` (R343, R344, Table SILL-11). -/
def execRocePacketReceive (n h : Nat) (s : State) : Host.Outcome State Fault Refusal :=
  .next <|
    let f := s.lget .pktBytes 0 h
    if !s.atEngine n h 6 then s
    else match udpOf f with
      | none => s
      | some u =>
        if s.get .SIL_CFG_roce_en = 0 ∨ u.dport ≠ rocePort ∨ s.isSil u then s
        else
          let op := u.pay.getD 0 0
          let qpn := beAt u.pay 5 3
          let psn := beAt u.pay 9 3
          let c := qpn % 2 ^ 21
          let pad := u.pay.getD 1 0 / 16 % 4
          let b := (u.pay.drop 12).take (u.pay.length - 16 - pad)
          if !u.ok then s.engineTake h
          else if u.pay.length < 16 + pad ∨ icrcHas f ≠ icrcOf f then (s.bump .SIL_RX_CNT1_tag_fail n).engineTake h
          else if s.get .CN_state 0 c ≠ 1 ∨ !s.cnFlag c 2 ∨ s.cnHome c ≠ qpn / 2 ^ 21 ∨ u.v6 ≠ s.cnFlag c 1 then
            (s.bump .SIL_RX_CNT1_conn_unknown n).engineTake h
          else if s.get .CACHE_in n c = 0 then s.cacheMiss n c
          else
            let s := (s.cacheTouch n c).set .CN_used 1 0 c
            let s := s.when (decide (u.ecn = 3 ∧ op ≠ 0x81)) (·.roceCnp c)
            match op with
            | 0x81 => (s.halve c 0).engineTake h
            | 0x11 => (s.roceAckIn c psn (b.getD 0 0)).engineTake h
            | 0x12 => (s.roceRespIn n c psn true (b.drop 4)).engineTake h
            | 0x0E => (s.roceRespIn n c psn false b).engineTake h
            | 0x0D | 0x0F | 0x10 => (s.roceRespIn n c psn false (b.drop 4)).engineTake h
            | _ =>
              if op ≤ 0x0C ∨ op = 0x13 ∨ op = 0x14 then s.roceReqIn n c h op psn (u.pay.getD 8 0 |>.testBit 7) b
              else (s.bump .SIL_RX_CNT1_bad_header n).engineTake h

end Sys2Proof.Machine
end

