-- ==== Sys2Proof/Machine/Spdm.lean ====
section
/-! DEFINITION. The DOE mailbox of PF0 and the SPDM 1.3 responder behind it (R443, R444, R521 to R523, Tables HOST-9 and BOOT-9; message layouts of
DSP0274 and DSP0277, log entry 68). -/

namespace Sys2Proof.Machine

/-- Primitives of the responder among those of `Config.crypto` and `Config.verifies` (log entry 4): HMAC of a transcript, session keys. -/
def algHmac : Nat := 18
/-- Session keys from a key exchange and its transcript. -/
def algSpdmKey : Nat := 19
/-- Certificates of the DICE layers. -/
def algCert : Nat := 21

/-- A DOE data object of PCI-SIG type `ty`: its header, length in dwords and padded content. -/
def doeObject (ty : Nat) (b : List Nat) : List Nat :=
  let n := (b.length + 3) / 4
  leBytes 2 1 ++ [ty, 0] ++ leBytes 4 (n + 2) ++ b ++ List.replicate (4 * n - b.length) 0

/-- Whether the mailbox of endpoint `e` answers SPDM: the link is up, configuration answers, and stage 1 runs (R423, R517). -/
def State.spdmUp (s : State) (e : Nat) : Bool :=
  decide (s.get .PCI_EP_CFG_link_up e = 1 ∧ s.get .PCI_EP_CFG_cfg_ready e = 1 ∧ s.get .BOOT_STATUS_stage ≠ 0)

/-- A response leaves: in the clear, or protected in session `ss` − 1. -/
def State.spdmSend (s : State) (e ss : Nat) (b : List Nat) : State :=
  if ss = 0 then s.emit .msg [2, e, 0] (doeObject 1 b)
  else
    let k := ss - 1
    let body := leBytes 4 (s.get .SPDM_sid e k) ++ leBytes 2 (b.length + 18) ++
      (Config.crypto algGcmSeal [s.lget .spdmKey e k, leBytes 8 (s.get .SPDM_seq e k), leBytes 4 (s.get .SPDM_sid e k), leBytes 2 b.length ++ b] ++
        List.replicate (b.length + 18) 0).take (b.length + 18)
    (s.addw .SPDM_seq 1 e k).emit .msg [2, e, ss] (doeObject 2 body)

/-- An ERROR response. -/
def State.spdmErr (s : State) (e ss code : Nat) : State := s.spdmSend e ss [0x13, 0x7F, code, 0]

/-- A request is answered by `f` when the mailbox answers, and with UnexpectedRequest when `ok` is false. -/
def State.spdmRun (s : State) (e ss : Nat) (ok : Bool) (f : State → State) : State :=
  if !s.spdmUp e then s else if ok then f s else s.spdmErr e ss 4

/-- Whether session `ss` − 1 is in state `st`; outside a session, whether the connection has agreed on algorithms. -/
def State.spdmIn (s : State) (e ss st : Nat) : Bool :=
  if ss = 0 then decide (s.get .SPDM_st e = 3) else decide (s.get .SPDM_sess e (ss - 1) = st)

/-- Digest of measurement block `i` (Table BOOT-9). -/
def State.measBlock (s : State) (i : Nat) : List Nat :=
  match i with
  | 1 => sha384 (s.mread embFlash 262144)
  | 2 => if s.get .BOOT_STATUS_stage = 0 then List.replicate 48 0 else manMeas (s.s1Image (s.get .BOOT_STATUS_s1_slot)).1
  | 3 => if s.get .BOOT_STATUS_stage = 2 ∧ s.get .BOOT_STATUS_recovery = 0 then manMeas (s.s2Image (s.get .BOOT_STATUS_s2_slot)).1
      else List.replicate 48 0
  | 4 => if s.get .STR_loaded = 1 then imgDigest (s.slotImg 0) else List.replicate 48 0
  | 5 => sha384 s.fuseState
  | _ => sha384 [s.get .ONX_STATUS_debug_unlocked, s.get .ONX_STATUS_seal_broken]

/-- Whether stage 2 runs, so that responses come from the attestation key; in RECOVERY they come from the alias key (R517, R521). -/
def State.attests (s : State) : Bool := decide (s.get .ATT_on = 1 ∧ s.get .BOOT_STATUS_stage = 2 ∧ s.get .BOOT_STATUS_recovery = 0)

/-- The key that signs responses (R521). -/
def State.signKey (s : State) : List Nat := if s.attests then s.lget .attestKey else s.lget .cdi1

/-- Offset in embedded flash and size of the certificate store (Table BOOT-4). -/
def certStore : Nat × Nat := (embFlash + 0x600000, 0x40000)

/-- Certificates of the layers: the store's, to the DeviceID key; the alias key's, with the stage 1 measurement in its TcbInfo; and, while
stage 2 runs, the attestation key's, with the stage 2 measurement (R517, R521, Table BOOT-8). -/
def State.certs (s : State) : List Nat :=
  Config.crypto algCert ([s.mread certStore.1 certStore.2, s.lget .uds, s.lget .cdi1, s.measBlock 2] ++
    if s.attests then [s.lget .attestKey, s.measBlock 3] else [])

/-- The certificate chain of slot 0, with the hash of its root (R517, R521; DSP0274). -/
def State.certChain (s : State) : List Nat :=
  leBytes 2 (52 + s.certs.length) ++ [0, 0] ++ sha384 (Config.crypto algCert [s.mread certStore.1 certStore.2]) ++ s.certs

/-- An ECDSA P-384 signature over a transcript. -/
def State.spdmSign (s : State) (t : List Nat) : List Nat := fixLen 96 (Config.crypto algEcdsa [s.signKey, t])

/-- A measurement block as a record carries it. -/
def State.measRecord (s : State) (i : Nat) : List Nat := [i, 1] ++ leBytes 2 51 ++ [i] ++ leBytes 2 48 ++ s.measBlock i

/-- Summary hash that a request asks for: none, or that of every measurement. -/
def State.measSummary (s : State) (ty : Nat) : List Nat :=
  if ty = 0 then [] else sha384 ((List.range 6).flatMap (fun i => s.measRecord (i + 1)))

/-- GET_VERSION: the connection starts anew; version 1.3 is offered. -/
def execGetVersion (e : Nat) (s : State) : Host.Outcome State Fault Refusal :=
  .next <| s.spdmRun e 0 true (fun s =>
    let r := [0x10, 0x04, 0, 0, 0, 1] ++ leBytes 2 0x1300
    let s := s.each [0, 1] (fun k s => (s.set .SPDM_sess 0 e k).lset .spdmKey [] e k)
    let s := ((s.set .SPDM_st 1 e).lset .spdmVca ([0x10, 0x84, 0, 0] ++ r) e).lset .spdmM1 [] e
    (s.lset .spdmL1 [] e 0).spdmSend e 0 r)

/-- GET_CAPABILITIES: certificates, challenge, signed measurements, encryption, key exchange, heartbeat, key update; objects up to 32 KiB.
CTExponent is not stated: a free value. -/
def execGetCapabilities (e p1 p2 : Nat) (data : List Nat) (s : State) : Host.Outcome State Fault Refusal :=
  .next <| s.spdmRun e 0 (decide (s.get .SPDM_st e = 1)) (fun s =>
    let r := [0x13, 0x61, 0, 0, 0, s.freeVal 8, 0, 0] ++ leBytes 4 0x62D6 ++ leBytes 4 0x8000 ++ leBytes 4 0x8000
    let s := (s.drew.set .SPDM_st 2 e).lset .spdmVca (s.lget .spdmVca e ++ [0x13, 0xE1, p1, p2] ++ data ++ r) e
    s.spdmSend e 0 r)

/-- NEGOTIATE_ALGORITHMS: ECDSA P-384, SHA-384, secp384r1, AES-256-GCM (Table HOST-9). -/
def execNegotiateAlgorithms (e p1 p2 : Nat) (data : List Nat) (s : State) : Host.Outcome State Fault Refusal :=
  .next <| s.spdmRun e 0 (decide (s.get .SPDM_st e = 2)) (fun s =>
    let r := [0x13, 0x63, 4, 0] ++ leBytes 2 52 ++ [1, 2] ++ leBytes 4 4 ++ leBytes 4 0x80 ++ leBytes 4 2 ++ List.replicate 12 0 ++ [0, 0, 0, 0] ++
      [2, 0x20, 0x10, 0] ++ [3, 0x20, 2, 0] ++ [4, 0x20, 0, 0] ++ [5, 0x20, 1, 0]
    let s := (s.set .SPDM_st 3 e).lset .spdmVca (s.lget .spdmVca e ++ [0x13, 0xE3, p1, p2] ++ data ++ r) e
    s.spdmSend e 0 r)

/-- GET_DIGESTS: the digest of slot 0's chain. -/
def execGetDigests (e ss : Nat) (s : State) : Host.Outcome State Fault Refusal :=
  .next <| s.spdmRun e ss (s.spdmIn e ss 2) (fun s =>
    let r := [0x13, 0x01, 1, 1] ++ sha384 s.certChain
    (s.lset .spdmM1 (s.lget .spdmM1 e ++ [0x13, 0x81, 0, 0] ++ r) e).spdmSend e ss r)

/-- GET_CERTIFICATE: a portion of slot 0's chain. -/
def execGetCertificate (e ss p1 p2 : Nat) (data : List Nat) (s : State) : Host.Outcome State Fault Refusal :=
  .next <| s.spdmRun e ss (s.spdmIn e ss 2) (fun s =>
    let c := s.certChain
    let o := leAt data 0 2
    let n := min (leAt data 2 2) (c.length - o)
    if p1 % 16 ≠ 0 ∨ c.length ≤ o then s.spdmErr e ss 1
    else
      let r := [0x13, 0x02, 0, 0] ++ leBytes 2 n ++ leBytes 2 (c.length - o - n) ++ slice c o n
      (s.lset .spdmM1 (s.lget .spdmM1 e ++ [0x13, 0x82, p1, p2] ++ data ++ r) e).spdmSend e ss r)

/-- CHALLENGE: the attestation key signs the transcript (R521). The nonce is a free value. -/
def execChallenge (e p1 p2 : Nat) (data : List Nat) (s : State) : Host.Outcome State Fault Refusal :=
  .next <| s.spdmRun e 0 (s.spdmIn e 0 2) (fun s =>
    if p1 ≠ 0 ∨ data.length < 40 then s.spdmErr e 0 1
    else
      let (s, nonce) := s.freeBytes 32
      let r := [0x13, 0x03, 0, 1] ++ sha384 s.certChain ++ nonce ++ s.measSummary p2 ++ [0, 0] ++ slice data 32 8
      let t := s.lget .spdmVca e ++ s.lget .spdmM1 e ++ [0x13, 0x83, p1, p2] ++ data ++ r
      (s.lset .spdmM1 [] e).spdmSend e 0 (r ++ s.spdmSign t))

/-- GET_MEASUREMENTS: their number, one block or all of them (R523), signed where the request asks for it. -/
def execGetMeasurements (e ss p1 p2 : Nat) (data : List Nat) (s : State) : Host.Outcome State Fault Refusal :=
  .next <| s.spdmRun e ss (s.spdmIn e ss 2) (fun s =>
    let sig := p1 % 2 = 1
    if (6 < p2 ∧ p2 ≠ 0xFF) ∨ (sig ∧ (data.length < 41 ∨ data.getD 32 0 % 16 ≠ 0)) then s.spdmErr e ss 1
    else
      let l := if p2 = 0 then [] else if p2 = 0xFF then [1, 2, 3, 4, 5, 6] else [p2]
      let rec_ := l.flatMap (fun i => s.measRecord i)
      let (s, nonce) := s.freeBytes 32
      let r := [0x13, 0x60, (if p2 = 0 then 6 else 0), 0, l.length] ++ leBytes 3 rec_.length ++ rec_ ++ nonce ++ [0, 0] ++
        slice data (if sig then 33 else 0) 8
      let t := s.lget .spdmL1 e ss ++ [0x13, 0xE0, p1, p2] ++ data ++ r
      if sig then (s.lset .spdmL1 [] e ss).spdmSend e ss (r ++ s.spdmSign (s.lget .spdmVca e ++ t))
      else (s.lset .spdmL1 t e ss).spdmSend e ss r)

/-- KEY_EXCHANGE: a session begins its handshake, at most 2 at a time (Table HOST-9); ephemeral values are free. -/
def execKeyExchange (e p1 p2 : Nat) (data : List Nat) (s : State) : Host.Outcome State Fault Refusal :=
  .next <| s.spdmRun e 0 (s.spdmIn e 0 2) (fun s =>
    if p2 ≠ 0 ∨ data.length < 132 then s.spdmErr e 0 1
    else match [0, 1].find? (fun k => decide (s.get .SPDM_sess e k = 0)) with
    | none => s.spdmErr e 0 0x0A
    | some k =>
      let sid := s.freeVal 16
      let (s, eph) := s.drew.freeBytes 128
      let r := [0x13, 0x64, 0, 0] ++ leBytes 2 sid ++ [0, 0] ++ eph ++ s.measSummary p1 ++ [0, 0]
      let t := s.lget .spdmVca e ++ sha384 s.certChain ++ [0x13, 0xE4, p1, p2] ++ data ++ r
      let r := r ++ s.spdmSign t
      let t := t ++ s.spdmSign t
      let key := Config.crypto algSpdmKey [slice data 36 96, eph, t]
      let mac := fixLen 48 (Config.crypto algHmac [key, t])
      let s := ((s.set .SPDM_sess 1 e k).set .SPDM_sid (leAt data 0 2 + sid * 65536) e k).set .SPDM_seq 0 e k
      ((s.lset .spdmTh (t ++ mac) e k).lset .spdmKey key e k).spdmSend e 0 (r ++ mac))

/-- FINISH: the requester's MAC over the transcript verifies and the session is established; else DecryptError and no session. -/
def execSpdmFinish (e ss p1 p2 : Nat) (data : List Nat) (s : State) : Host.Outcome State Fault Refusal :=
  .next <| s.spdmRun e ss (decide (ss ≠ 0) && s.spdmIn e ss 1) (fun s =>
    let k := ss - 1
    let key := s.lget .spdmKey e k
    if p1 = 0 ∧ Config.verifies algHmac [key, s.lget .spdmTh e k ++ [0x13, 0xE5, p1, p2], data.take 48] then
      let t := s.lget .spdmTh e k ++ [0x13, 0xE5, p1, p2] ++ data ++ [0x13, 0x65, 0, 0]
      let s := s.spdmSend e ss [0x13, 0x65, 0, 0]
      (((s.set .SPDM_sess 2 e k).lset .spdmKey (Config.crypto algSpdmKey [key, t]) e k).set .SPDM_seq 0 e k).lset .spdmTh [] e k
    else ((s.spdmErr e ss 6).set .SPDM_sess 0 e k).lset .spdmKey [] e k)

/-- HEARTBEAT keeps a session. -/
def execHeartbeat (e ss : Nat) (s : State) : Host.Outcome State Fault Refusal :=
  .next <| s.spdmRun e ss (decide (ss ≠ 0) && s.spdmIn e ss 2) (fun s => s.spdmSend e ss [0x13, 0x68, 0, 0])

/-- KEY_UPDATE: operations 1 (update key), 2 (update all keys) and 3 (verify new key) of a session. -/
def execKeyUpdate (e ss p1 p2 : Nat) (s : State) : Host.Outcome State Fault Refusal :=
  .next <| s.spdmRun e ss (decide (ss ≠ 0) && s.spdmIn e ss 2) (fun s =>
    if p1 = 0 ∨ 3 < p1 then s.spdmErr e ss 1
    else
      let s := s.spdmSend e ss [0x13, 0x69, p1, p2]
      if p1 = 3 then s
      else (s.lset .spdmKey (Config.crypto algSpdmKey [s.lget .spdmKey e (ss - 1), [p1]]) e (ss - 1)).set .SPDM_seq 0 e (ss - 1))

/-- END_SESSION ends a session. -/
def execEndSession (e ss : Nat) (s : State) : Host.Outcome State Fault Refusal :=
  .next <| s.spdmRun e ss (decide (ss ≠ 0) && s.spdmIn e ss 2) (fun s =>
    ((s.spdmSend e ss [0x13, 0x6C, 0, 0]).set .SPDM_sess 0 e (ss - 1)).lset .spdmKey [] e (ss - 1))

/-- IDE_KM_KEY_PROGRAM: over an established session a key of a stream is programmed, or goes into use; with every key in use the stream is
Secure again (R444). -/
def execIdeKmKeyProgram (e ss stream sub dir : Nat) (go : Bool) (key : List Nat) (s : State) : Host.Outcome State Fault Refusal :=
  .next <| s.spdmRun e ss (decide (ss ≠ 0) && s.spdmIn e ss 2) (fun s =>
    let b := sub * 2 + dir
    let ack := fun (obj : Nat) => [0x13, 0x7E, 0, 0, 3, 0, 2, 1, 0, 8, 0, 0, obj, 0, 0, stream, 0, sub * 16 + dir * 2, 0]
    if go then
      let s := s.when (s.getb .IDE_prog b e stream) (·.setb .IDE_go b true e stream)
      let s := if s.get .IDE_go e stream = 63 then (s.set .IDE_state 2 e stream).set .IDE_bad 0 e stream else s
      s.spdmSend e ss (ack 6)
    else
      ((s.lset .ideKey (key.take 40) e (stream * 6 + b)).setb .IDE_prog b true e stream).spdmSend e ss (ack 3))

/-- DOE_DISCOVERY: the protocols of the mailbox by index: DOE Discovery, CMA/SPDM, Secured CMA/SPDM (R443). -/
def execDoeDiscovery (e ix : Nat) (s : State) : Host.Outcome State Fault Refusal :=
  .next <|
    if s.get .PCI_EP_CFG_link_up e = 1 ∧ s.get .PCI_EP_CFG_cfg_ready e = 1 then
      s.emit .msg [2, e, 0] (doeObject 0 (if ix < 3 then leBytes 2 1 ++ [ix, if ix < 2 then ix + 1 else 0] else [0xFF, 0xFF, 0, 0]))
    else s

end Sys2Proof.Machine
end

