-- ==== Sys2Proof/Machine/Dispatch.lean ====
section
/-! DEFINITION. The dispatch of every command to its meaning. -/

namespace Sys2Proof.Machine

def exec (i : Instr) (s : State) : Host.Outcome State Fault Refusal :=
  match i with
  | .registerWrite path addr v => Sys2Proof.Machine.execRegisterWrite path addr v s
  | .partialWrite path addr => Sys2Proof.Machine.execPartialWrite path addr s
  | .readLo path addr => Sys2Proof.Machine.execReadLo path addr s
  | .readHi path addr => Sys2Proof.Machine.execReadHi path addr s
  | .writeLo path addr v => Sys2Proof.Machine.execWriteLo path addr v s
  | .writeHi path addr v => Sys2Proof.Machine.execWriteHi path addr v s
  | .rcRead path addr => Sys2Proof.Machine.execRcRead path addr s
  | .powerOnReset clk size => Sys2Proof.Machine.execPowerOnReset clk size s
  | .peingLinkTrained a b spares => Sys2Proof.Machine.execPeingLinkTrained a b spares s
  | .peingTrainTimeout a b => Sys2Proof.Machine.execPeingTrainTimeout a b s
  | .peingCorrectableError a b g => Sys2Proof.Machine.execPeingCorrectableError a b g s
  | .peingWireFault a b g => Sys2Proof.Machine.execPeingWireFault a b g s
  | .cellFault n b c uncorrectable fresh h => Sys2Proof.Machine.execCellFault n b c uncorrectable fresh h s
  | .voltageStep k => Sys2Proof.Machine.execVoltageStep k s
  | .clockAbsent k d => Sys2Proof.Machine.execClockAbsent k d s
  | .clockPresent k d hz20 => Sys2Proof.Machine.execClockPresent k d hz20 s
  | .clockAccessTimeout path => Sys2Proof.Machine.execClockAccessTimeout path s
  | .regionSpeedMeasure n rel tj => Sys2Proof.Machine.execRegionSpeedMeasure n rel tj s
  | .timeCsrRead h adv ret => Sys2Proof.Machine.execTimeCsrRead h adv ret s
  | .abDiffMeasure diff => Sys2Proof.Machine.execAbDiffMeasure diff s
  | .replicaRealign d => Sys2Proof.Machine.execReplicaRealign d s
  | .referenceMeasurement n off parent gm steps utc rate both => Sys2Proof.Machine.execReferenceMeasurement n off parent gm steps utc rate both s
  | .measurementMissing n => Sys2Proof.Machine.execMeasurementMissing n s
  | .wtrExpiry n => Sys2Proof.Machine.execWtrExpiry n s
  | .slewComplete => Sys2Proof.Machine.execSlewComplete s
  | .tsTodSetUnc unc both => Sys2Proof.Machine.execTsTodSetUnc unc both s
  | .servoEnWrite v both => Sys2Proof.Machine.execServoEnWrite v both s
  | .faultResolveAToB => Sys2Proof.Machine.execFaultResolveAToB s
  | .faultResolveBToA => Sys2Proof.Machine.execFaultResolveBToA s
  | .uncUpdateTick => Sys2Proof.Machine.execUncUpdateTick s
  | .holdoverMaxReached => Sys2Proof.Machine.execHoldoverMaxReached s
  | .holdoverFreqUpdate => Sys2Proof.Machine.execHoldoverFreqUpdate s
  | .oscModeWrite v => Sys2Proof.Machine.execOscModeWrite v s
  | .learnSample => Sys2Proof.Machine.execLearnSample s
  | .learnValid => Sys2Proof.Machine.execLearnValid s
  | .periodic => Sys2Proof.Machine.execPeriodic s
  | .amberRingDeliver => Sys2Proof.Machine.execAmberRingDeliver s
  | .amberLogProgram => Sys2Proof.Machine.execAmberLogProgram s
  | .tsAmberFetch seq => Sys2Proof.Machine.execTsAmberFetch seq s
  | .chainDigestCommit v => Sys2Proof.Machine.execChainDigestCommit v s
  | .tsuCalibrate d p => Sys2Proof.Machine.execTsuCalibrate d p s
  | .tsuCalibrationDone d p skew => Sys2Proof.Machine.execTsuCalibrationDone d p skew s
  | .launchGateArrival d p h => Sys2Proof.Machine.execLaunchGateArrival d p h s
  | .launchRelease d p => Sys2Proof.Machine.execLaunchRelease d p s
  | .timePageUpdate e => Sys2Proof.Machine.execTimePageUpdate e s
  | .ptmDialogueStart e => Sys2Proof.Machine.execPtmDialogueStart e s
  | .ptmResponse e el t2 t3 => Sys2Proof.Machine.execPtmResponse e el t2 t3 s
  | .ptmTimeout e => Sys2Proof.Machine.execPtmTimeout e s
  | .ppsOutEdge k => Sys2Proof.Machine.execPpsOutEdge k s
  | .ppsPulseEnd k => Sys2Proof.Machine.execPpsPulseEnd k s
  | .stage => Sys2Proof.Machine.execStage s
  | .stageComplete => Sys2Proof.Machine.execStageComplete s
  | .swap mask => Sys2Proof.Machine.execSwap mask s
  | .epochFlip => Sys2Proof.Machine.execEpochFlip s
  | .rollback mask => Sys2Proof.Machine.execRollback mask s
  | .epochFlipBack => Sys2Proof.Machine.execEpochFlipBack s
  | .commit => Sys2Proof.Machine.execCommit s
  | .strAbort => Sys2Proof.Machine.execStrAbort s
  | .coldApply slot => Sys2Proof.Machine.execColdApply slot s
  | .coldApplyLoad => Sys2Proof.Machine.execColdApplyLoad s
  | .regionDrained n => Sys2Proof.Machine.execRegionDrained n s
  | .drainLimitExpiry n => Sys2Proof.Machine.execDrainLimitExpiry n s
  | .drainBackRewriteDone n => Sys2Proof.Machine.execDrainBackRewriteDone n s
  | .commitWatchdogExpiry => Sys2Proof.Machine.execCommitWatchdogExpiry s
  | .frameReceive d p at_ sym bytes corr uncorr => Sys2Proof.Machine.execFrameReceive d p at_ sym bytes corr uncorr s
  | .packetParse n h => Sys2Proof.Machine.execPacketParse n h s
  | .nop n cell h => Sys2Proof.Machine.execNop n cell h s
  | .mov n cell h => Sys2Proof.Machine.execMov n cell h s
  | .add n cell h => Sys2Proof.Machine.execAdd n cell h s
  | .sub n cell h => Sys2Proof.Machine.execSub n cell h s
  | .and n cell h => Sys2Proof.Machine.execAnd n cell h s
  | .or n cell h => Sys2Proof.Machine.execOr n cell h s
  | .xor n cell h => Sys2Proof.Machine.execXor n cell h s
  | .shl n cell h => Sys2Proof.Machine.execShl n cell h s
  | .shr n cell h => Sys2Proof.Machine.execShr n cell h s
  | .cmpEq n cell h => Sys2Proof.Machine.execCmpEq n cell h s
  | .cmpLt n cell h => Sys2Proof.Machine.execCmpLt n cell h s
  | .hash n cell h => Sys2Proof.Machine.execHash n cell h s
  | .lookupEm n cell h => Sys2Proof.Machine.execLookupEm n cell h s
  | .lookupTcam n cell h bad lost => Sys2Proof.Machine.execLookupTcam n cell h bad lost s
  | .learn n cell h => Sys2Proof.Machine.execLearn n cell h s
  | .meter n cell h => Sys2Proof.Machine.execMeter n cell h s
  | .punt n cell h => Sys2Proof.Machine.execPunt n cell h s
  | .drop n cell h => Sys2Proof.Machine.execDrop n cell h s
  | .forward n cell h => Sys2Proof.Machine.execForward n cell h s
  | .setTsOp n cell h => Sys2Proof.Machine.execSetTsOp n cell h s
  | .setEpochHint n cell h => Sys2Proof.Machine.execSetEpochHint n cell h s
  | .treeWalk n h => Sys2Proof.Machine.execTreeWalk n h s
  | .automataScan n h => Sys2Proof.Machine.execAutomataScan n h s
  | .cipherOperation n h slot enc off len nonce aad agree => Sys2Proof.Machine.execCipherOperation n h slot enc off len nonce aad agree s
  | .pipelineExit n h => Sys2Proof.Machine.execPipelineExit n h s
  | .puntBucketRecompute => Sys2Proof.Machine.execPuntBucketRecompute s
  | .clsRegisterPropagate n => Sys2Proof.Machine.execClsRegisterPropagate n s
  | .fragHoldExpiry n h => Sys2Proof.Machine.execFragHoldExpiry n h s
  | .fragEntryExpiry n dig => Sys2Proof.Machine.execFragEntryExpiry n dig s
  | .policerApply n k v => Sys2Proof.Machine.execPolicerApply n k v s
  | .ageingScan t pl slot => Sys2Proof.Machine.execAgeingScan t pl slot s
  | .exmSearch c t => Sys2Proof.Machine.execExmSearch c t s
  | .exmInsert c t => Sys2Proof.Machine.execExmInsert c t s
  | .exmUpdate c t clearMoves => Sys2Proof.Machine.execExmUpdate c t clearMoves s
  | .exmDelete c t => Sys2Proof.Machine.execExmDelete c t s
  | .exmNext c t => Sys2Proof.Machine.execExmNext c t s
  | .flushByPort c t static => Sys2Proof.Machine.execFlushByPort c t static s
  | .flushByTenant c t static => Sys2Proof.Machine.execFlushByTenant c t static s
  | .shadowOpen c t => Sys2Proof.Machine.execShadowOpen c t s
  | .shadowCopy c t => Sys2Proof.Machine.execShadowCopy c t s
  | .shadowSwap c t => Sys2Proof.Machine.execShadowSwap c t s
  | .shadowDiscard c t => Sys2Proof.Machine.execShadowDiscard c t s
  | .dampingRecordExpiry pl j => Sys2Proof.Machine.execDampingRecordExpiry pl j s
  | .tcmSearch c t bad lost => Sys2Proof.Machine.execTcmSearch c t bad lost s
  | .tcmStep c t bad lost => Sys2Proof.Machine.execTcmStep c t bad lost s
  | .tcmWrite c t => Sys2Proof.Machine.execTcmWrite c t s
  | .tcmUpdate c t => Sys2Proof.Machine.execTcmUpdate c t s
  | .tcmInvalidate c t => Sys2Proof.Machine.execTcmInvalidate c t s
  | .tcmRead c t => Sys2Proof.Machine.execTcmRead c t s
  | .tcmMove c t => Sys2Proof.Machine.execTcmMove c t s
  | .tcamRepair n u agree copyBad => Sys2Proof.Machine.execTcamRepair n u agree copyBad s
  | .loadSet c set mask => Sys2Proof.Machine.execLoadSet c set mask s
  | .activateSet c set => Sys2Proof.Machine.execActivateSet c set s
  | .setActivation set => Sys2Proof.Machine.execSetActivation set s
  | .deleteSet c set mask => Sys2Proof.Machine.execDeleteSet c set mask s
  | .patScan c set mask => Sys2Proof.Machine.execPatScan c set mask s
  | .patEngine n e => Sys2Proof.Machine.execPatEngine n e s
  | .ethModeWrite d v => Sys2Proof.Machine.execEthModeWrite d v s
  | .portEnable d p => Sys2Proof.Machine.execPortEnable d p s
  | .portDisable d p => Sys2Proof.Machine.execPortDisable d p s
  | .portLinkUp d p => Sys2Proof.Machine.execPortLinkUp d p s
  | .trainingTimeout d p => Sys2Proof.Machine.execTrainingTimeout d p s
  | .linkFault d p => Sys2Proof.Machine.execLinkFault d p s
  | .remoteFault d p => Sys2Proof.Machine.execRemoteFault d p s
  | .downRetrain d p => Sys2Proof.Machine.execDownRetrain d p s
  | .pfcReceive d p at_ pfc mask quanta => Sys2Proof.Machine.execPfcReceive d p at_ pfc mask quanta s
  | .pauseExpiry d p c => Sys2Proof.Machine.execPauseExpiry d p c s
  | .pfcRefresh d p c => Sys2Proof.Machine.execPfcRefresh d p c s
  | .macFrameStart d p at_ => Sys2Proof.Machine.execMacFrameStart d p at_ s
  | .txUnderrun d p k at_ => Sys2Proof.Machine.execTxUnderrun d p k at_ s
  | .resetThr d p => Sys2Proof.Machine.execResetThr d p s
  | .saValidWrite d p a => Sys2Proof.Machine.execSaValidWrite d p a s
  | .wakeFrameReceive d bytes => Sys2Proof.Machine.execWakeFrameReceive d bytes s
  | .ncsiCommand b => Sys2Proof.Machine.execNcsiCommand b s
  | .ncsiFrameTransmit n at_ b => Sys2Proof.Machine.execNcsiFrameTransmit n at_ b s
  | .schedulerDispatch d p => Sys2Proof.Machine.execSchedulerDispatch d p s
  | .shaperApply d n v => Sys2Proof.Machine.execShaperApply d n v s
  | .downHoldExpiry d p => Sys2Proof.Machine.execDownHoldExpiry d p s
  | .queueSample d => Sys2Proof.Machine.execQueueSample d s
  | .reconcilerEpoch => Sys2Proof.Machine.execReconcilerEpoch s
  | .silCreate ch c => Sys2Proof.Machine.execSilCreate ch c s
  | .silModify ch c => Sys2Proof.Machine.execSilModify ch c s
  | .silDestroy ch c => Sys2Proof.Machine.execSilDestroy ch c s
  | .connectionRelease c => Sys2Proof.Machine.execConnectionRelease c s
  | .silQuery ch c => Sys2Proof.Machine.execSilQuery ch c s
  | .contextCacheFill n c => Sys2Proof.Machine.execContextCacheFill n c s
  | .sillagePacketSend c at_ agree => Sys2Proof.Machine.execSillagePacketSend c at_ agree s
  | .sillagePacketReceive n h agree => Sys2Proof.Machine.execSillagePacketReceive n h agree s
  | .rocePacketReceive n h => Sys2Proof.Machine.execRocePacketReceive n h s
  | .ackDelayExpiry c => Sys2Proof.Machine.execAckDelayExpiry c s
  | .ackReceive n h agree => Sys2Proof.Machine.execAckReceive n h agree s
  | .nakReceive n h agree => Sys2Proof.Machine.execNakReceive n h agree s
  | .retransmitTimeout c k => Sys2Proof.Machine.execRetransmitTimeout c k s
  | .retryAfterResend c psn => Sys2Proof.Machine.execRetryAfterResend c psn s
  | .probe c k agree => Sys2Proof.Machine.execProbe c k agree s
  | .baseWindowRoll c => Sys2Proof.Machine.execBaseWindowRoll c s
  | .registerMkey ch k v => Sys2Proof.Machine.execRegisterMkey ch k v s
  | .invalidateMkey ch k v => Sys2Proof.Machine.execInvalidateMkey ch k v s
  | .revokeAt k => Sys2Proof.Machine.execRevokeAt k s
  | .mkeyInvalidateComplete k => Sys2Proof.Machine.execMkeyInvalidateComplete k s
  | .mkyQuery ch k => Sys2Proof.Machine.execMkyQuery ch k s
  | .prefetch ch k v => Sys2Proof.Machine.execPrefetch ch k v s
  | .keyRecordFill n k => Sys2Proof.Machine.execKeyRecordFill n k s
  | .atsTranslationComplete e f pasid page addr perm => Sys2Proof.Machine.execAtsTranslationComplete e f pasid page addr perm s
  | .atsInvalidation e f pasid page n => Sys2Proof.Machine.execAtsInvalidation e f pasid page n s
  | .priResponse e f pasid page code => Sys2Proof.Machine.execPriResponse e f pasid page code s
  | .priTimeout e f pasid page => Sys2Proof.Machine.execPriTimeout e f pasid page s
  | .beCreate ch b => Sys2Proof.Machine.execBeCreate ch b s
  | .beDestroy ch b => Sys2Proof.Machine.execBeDestroy ch b s
  | .nsCreate ch n => Sys2Proof.Machine.execNsCreate ch n s
  | .nsDelete ch n => Sys2Proof.Machine.execNsDelete ch n s
  | .nsAttach ch n => Sys2Proof.Machine.execNsAttach ch n s
  | .nsDetach ch n => Sys2Proof.Machine.execNsDetach ch n s
  | .nveQuery ch n => Sys2Proof.Machine.execNveQuery ch n s
  | .controllerEnable k cc => Sys2Proof.Machine.execControllerEnable k cc s
  | .controllerReset k => Sys2Proof.Machine.execControllerReset k s
  | .resetLimitExpiry k => Sys2Proof.Machine.execResetLimitExpiry k s
  | .controllerShutdown k n => Sys2Proof.Machine.execControllerShutdown k n s
  | .nvmeFetch k => Sys2Proof.Machine.execNvmeFetch k s
  | .createIoSq id => Sys2Proof.Machine.execCreateIoSq id s
  | .deleteIoSq id => Sys2Proof.Machine.execDeleteIoSq id s
  | .createIoCq id => Sys2Proof.Machine.execCreateIoCq id s
  | .deleteIoCq id => Sys2Proof.Machine.execDeleteIoCq id s
  | .getLogPage id => Sys2Proof.Machine.execGetLogPage id s
  | .identify id => Sys2Proof.Machine.execIdentify id s
  | .nvmeAbort id => Sys2Proof.Machine.execNvmeAbort id s
  | .setFeatures id => Sys2Proof.Machine.execSetFeatures id s
  | .getFeatures id => Sys2Proof.Machine.execGetFeatures id s
  | .asynchronousEventRequest id => Sys2Proof.Machine.execAsynchronousEventRequest id s
  | .firmwareImageDownload id => Sys2Proof.Machine.execFirmwareImageDownload id s
  | .firmwareCommit id => Sys2Proof.Machine.execFirmwareCommit id s
  | .activationDrainDone => Sys2Proof.Machine.execActivationDrainDone s
  | .activationDrainTimeout => Sys2Proof.Machine.execActivationDrainTimeout s
  | .nvmeFlush id => Sys2Proof.Machine.execNvmeFlush id s
  | .nvmeWrite id => Sys2Proof.Machine.execNvmeWrite id s
  | .nvmeRead id => Sys2Proof.Machine.execNvmeRead id s
  | .writeZeroes id => Sys2Proof.Machine.execWriteZeroes id s
  | .datasetManagement id => Sys2Proof.Machine.execDatasetManagement id s
  | .commandStaged id agree => Sys2Proof.Machine.execCommandStaged id agree s
  | .backendResponse b q tag status dw0 agree data => Sys2Proof.Machine.execBackendResponse b q tag status dw0 agree data s
  | .backendTimeout id => Sys2Proof.Machine.execBackendTimeout id s
  | .generate ch t => Sys2Proof.Machine.execGenerate ch t s
  | .unwrap ch t => Sys2Proof.Machine.execUnwrap ch t s
  | .derive ch t => Sys2Proof.Machine.execDerive ch t s
  | .keyDestroy ch t => Sys2Proof.Machine.execKeyDestroy ch t s
  | .keyQuery ch t => Sys2Proof.Machine.execKeyQuery ch t s
  | .keyMac ch t => Sys2Proof.Machine.execKeyMac ch t s
  | .keyZeroiseTenant ch t gate => Sys2Proof.Machine.execKeyZeroiseTenant ch t gate s
  | .keyLoad n k ok => Sys2Proof.Machine.execKeyLoad n k ok s
  | .drbgReseed => Sys2Proof.Machine.execDrbgReseed s
  | .corIpi hart file identity => Sys2Proof.Machine.execCorIpi hart file identity s
  | .queueConsWrite n q v => Sys2Proof.Machine.execQueueConsWrite n q v s
  | .corPktAlloc n => Sys2Proof.Machine.execCorPktAlloc n s
  | .inject n j => Sys2Proof.Machine.execInject n j s
  | .injSend n j => Sys2Proof.Machine.execInjSend n j s
  | .injFree n j => Sys2Proof.Machine.execInjFree n j s
  | .scanDone n j => Sys2Proof.Machine.execScanDone n j s
  | .coreRun n j => Sys2Proof.Machine.execCoreRun n j s
  | .haltReq n j => Sys2Proof.Machine.execHaltReq n j s
  | .coreHalted n j => Sys2Proof.Machine.execCoreHalted n j s
  | .coreReset n j => Sys2Proof.Machine.execCoreReset n j s
  | .timerInterrupt h k v => Sys2Proof.Machine.execTimerInterrupt h k v s
  | .configRequest e f off write v be bus => Sys2Proof.Machine.execConfigRequest e f off write v be bus s
  | .barRequest e rid f b write o len data => Sys2Proof.Machine.execBarRequest e rid f b write o len data s
  | .expansionRomRead e f off len => Sys2Proof.Machine.execExpansionRomRead e f off len s
  | .bmeClear e f => Sys2Proof.Machine.execBmeClear e f s
  | .bmeSet e f => Sys2Proof.Machine.execBmeSet e f s
  | .flr e f => Sys2Proof.Machine.execFlr e f s
  | .flrComplete e f => Sys2Proof.Machine.execFlrComplete e f s
  | .vfEnableClear e f => Sys2Proof.Machine.execVfEnableClear e f s
  | .d3hotEntry e f => Sys2Proof.Machine.execD3hotEntry e f s
  | .d0Return e f => Sys2Proof.Machine.execD0Return e f s
  | .completionReceive e tag status poison data => Sys2Proof.Machine.execCompletionReceive e tag status poison data s
  | .completionTimeout e tag => Sys2Proof.Machine.execCompletionTimeout e tag s
  | .tagQuarantineExpiry e tag => Sys2Proof.Machine.execTagQuarantineExpiry e tag s
  | .dlDown e => Sys2Proof.Machine.execDlDown e s
  | .dlUp e speed width flit drs => Sys2Proof.Machine.execDlUp e speed width flit drs s
  | .perstAssert e => Sys2Proof.Machine.execPerstAssert e s
  | .perstDeassert e => Sys2Proof.Machine.execPerstDeassert e s
  | .getVersion e => Sys2Proof.Machine.execGetVersion e s
  | .getCapabilities e p1 p2 data => Sys2Proof.Machine.execGetCapabilities e p1 p2 data s
  | .negotiateAlgorithms e p1 p2 data => Sys2Proof.Machine.execNegotiateAlgorithms e p1 p2 data s
  | .getDigests e ss => Sys2Proof.Machine.execGetDigests e ss s
  | .getCertificate e ss p1 p2 data => Sys2Proof.Machine.execGetCertificate e ss p1 p2 data s
  | .challenge e p1 p2 data => Sys2Proof.Machine.execChallenge e p1 p2 data s
  | .getMeasurements e ss p1 p2 data => Sys2Proof.Machine.execGetMeasurements e ss p1 p2 data s
  | .keyExchange e p1 p2 data => Sys2Proof.Machine.execKeyExchange e p1 p2 data s
  | .spdmFinish e ss p1 p2 data => Sys2Proof.Machine.execSpdmFinish e ss p1 p2 data s
  | .heartbeat e ss => Sys2Proof.Machine.execHeartbeat e ss s
  | .keyUpdate e ss p1 p2 => Sys2Proof.Machine.execKeyUpdate e ss p1 p2 s
  | .endSession e ss => Sys2Proof.Machine.execEndSession e ss s
  | .ideCheckFailed e stream => Sys2Proof.Machine.execIdeCheckFailed e stream s
  | .doorbellTail e r v => Sys2Proof.Machine.execDoorbellTail e r v s
  | .doorbellCons e r v => Sys2Proof.Machine.execDoorbellCons e r v s
  | .ringEnable e r => Sys2Proof.Machine.execRingEnable e r s
  | .ringDisable e r => Sys2Proof.Machine.execRingDisable e r s
  | .fnMapWrite e f base count => Sys2Proof.Machine.execFnMapWrite e f base count s
  | .ringFetch e => Sys2Proof.Machine.execRingFetch e s
  | .descriptorStart e r => Sys2Proof.Machine.execDescriptorStart e r s
  | .hostRxPlace h => Sys2Proof.Machine.execHostRxPlace h s
  | .completionPost e r => Sys2Proof.Machine.execCompletionPost e r s
  | .completionStallTimeout e c => Sys2Proof.Machine.execCompletionStallTimeout e c s
  | .moderationTimer e r => Sys2Proof.Machine.execModerationTimer e r s
  | .tenCreate t => Sys2Proof.Machine.execTenCreate t s
  | .tenModify t => Sys2Proof.Machine.execTenModify t s
  | .tenDestroy t => Sys2Proof.Machine.execTenDestroy t s
  | .tenResume t => Sys2Proof.Machine.execTenResume t s
  | .forceFatal t => Sys2Proof.Machine.execForceFatal t s
  | .tenQuery t => Sys2Proof.Machine.execTenQuery t s
  | .fnOwnerWrite e f v => Sys2Proof.Machine.execFnOwnerWrite e f v s
  | .chargePost n t counts rx => Sys2Proof.Machine.execChargePost n t counts rx s
  | .pmbusRead good words => Sys2Proof.Machine.execPmbusRead good words s
  | .meterStale k => Sys2Proof.Machine.execMeterStale k s
  | .plannerEpoch fixed => Sys2Proof.Machine.execPlannerEpoch fixed s
  | .ageingMeasure n d0 d => Sys2Proof.Machine.execAgeingMeasure n d0 d s
  | .ageingForcedIdle n => Sys2Proof.Machine.execAgeingForcedIdle n s
  | .persistentStateWrite => Sys2Proof.Machine.execPersistentStateWrite s
  | .stage1Boot => Sys2Proof.Machine.execStage1Boot s
  | .hbmTrained k => Sys2Proof.Machine.execHbmTrained k s
  | .structureImageApplied => Sys2Proof.Machine.execStructureImageApplied s
  | .fwAlive h => Sys2Proof.Machine.execFwAlive h s
  | .deviceReady => Sys2Proof.Machine.execDeviceReady s
  | .stage2Watchdog => Sys2Proof.Machine.execStage2Watchdog s
  | .bootArb v => Sys2Proof.Machine.execBootArb v s
  | .arbProgramDone => Sys2Proof.Machine.execArbProgramDone s
  | .recoveryBegin kind => Sys2Proof.Machine.execRecoveryBegin kind s
  | .recoveryChunk => Sys2Proof.Machine.execRecoveryChunk s
  | .recoveryFinish => Sys2Proof.Machine.execRecoveryFinish s
  | .recoveryAbort => Sys2Proof.Machine.execRecoveryAbort s
  | .pldmUpdate comp image => Sys2Proof.Machine.execPldmUpdate comp image s
  | .onyxSubmit => Sys2Proof.Machine.execOnyxSubmit s
  | .onyxCancel => Sys2Proof.Machine.execOnyxCancel s
  | .presenceEvent jumper button press => Sys2Proof.Machine.execPresenceEvent jumper button press s
  | .onyxWindowExpiry => Sys2Proof.Machine.execOnyxWindowExpiry s
  | .debugUnlock => Sys2Proof.Machine.execDebugUnlock s
  | .revokeKey k => Sys2Proof.Machine.execRevokeKey k s
  | .transferOwner => Sys2Proof.Machine.execTransferOwner s
  | .fuseProvision k => Sys2Proof.Machine.execFuseProvision k s
  | .onyxZeroiseTenant t => Sys2Proof.Machine.execOnyxZeroiseTenant t s
  | .sealBreak => Sys2Proof.Machine.execSealBreak s
  | .powerFailWarning blown => Sys2Proof.Machine.execPowerFailWarning blown s
  | .railDrop rail logged saved blown => Sys2Proof.Machine.execRailDrop rail logged saved blown s
  | .mainRailsGood => Sys2Proof.Machine.execMainRailsGood s
  | .vauxUp => Sys2Proof.Machine.execVauxUp s
  | .vauxLoss => Sys2Proof.Machine.execVauxLoss s
  | .thermalWarn d tj => Sys2Proof.Machine.execThermalWarn d tj s
  | .thermalWarnClear d tj => Sys2Proof.Machine.execThermalWarnClear d tj s
  | .thermtrip d tj => Sys2Proof.Machine.execThermtrip d tj s
  | .regionOffline n force => Sys2Proof.Machine.execRegionOffline n force s
  | .regionOfflineEffective n => Sys2Proof.Machine.execRegionOfflineEffective n s
  | .regionDrainDone n lost => Sys2Proof.Machine.execRegionDrainDone n lost s
  | .regionBistEnd n failed => Sys2Proof.Machine.execRegionBistEnd n failed s
  | .regionOnline n => Sys2Proof.Machine.execRegionOnline n s
  | .regionReturnComplete n => Sys2Proof.Machine.execRegionReturnComplete n s
  | .tcamBankTest n pass stuck => Sys2Proof.Machine.execTcamBankTest n pass stuck s
  | .cipherKat k pass => Sys2Proof.Machine.execCipherKat k pass s
  | .sramScrub d o found kind x y => Sys2Proof.Machine.execSramScrub d o found kind x y s
  | .hbmScrub k o found kind x y => Sys2Proof.Machine.execHbmScrub k o found kind x y s
  | .hbmPcRetire k pc => Sys2Proof.Machine.execHbmPcRetire k pc s
  | .hbmPcSubstituteDone => Sys2Proof.Machine.execHbmPcSubstituteDone s
  | .bypass => Sys2Proof.Machine.execBypass s
  | .idcode => Sys2Proof.Machine.execIdcode s
  | .samplePreload bits => Sys2Proof.Machine.execSamplePreload bits s
  | .extest => Sys2Proof.Machine.execExtest s
  | .clamp => Sys2Proof.Machine.execClamp s
  | .highz => Sys2Proof.Machine.execHighz s
  | .backendQueueConnect b q incap maxh2c => Sys2Proof.Machine.execBackendQueueConnect b q incap maxh2c s
  | .backendQueueDisconnect b q => Sys2Proof.Machine.execBackendQueueDisconnect b q s
  | .readyToTransferPdu b q tag ttag off len => Sys2Proof.Machine.execReadyToTransferPdu b q tag ttag off len s
  | .tcpRetransmitTimeout b q => Sys2Proof.Machine.execTcpRetransmitTimeout b q s
  | .ideKmKeyProgram e ss stream su dir go key => Sys2Proof.Machine.execIdeKmKeyProgram e ss stream su dir go key s
  | .doeDiscovery e ix => Sys2Proof.Machine.execDoeDiscovery e ix s
  | .mainRailsRemoved => Sys2Proof.Machine.execMainRailsRemoved s
  | .powerOnResetAssert => Sys2Proof.Machine.execPowerOnResetAssert s

end Sys2Proof.Machine
end

