-- ==== Sys2Proof/Safety.lean ====
section
/-! DEFINITION. What the claims mean by a well-formed state and by a run without a stop: the canonical form of the three maps, every scalar
within its width, and an outcome that is a next state. -/

namespace Sys2Proof.Machine

/-- The canonical form of memory: addresses strictly rising, no byte equal to what an unlisted address reads as. -/
def Memory.wf (m : List Host.Cell) : Bool := swf Nat.blt (fun _ => (0 : BitVec 8)) m

/-- The canonical form of the scalars: keys strictly rising, no value equal to its reset value. -/
def Scalars.wf (m : List (Key × Nat)) : Bool := swf Key.lt (fun k => k.f.reset k.sc k.i) m

/-- The canonical form of the sequences: keys strictly rising, none empty. -/
def Seqs.wf (m : List (LKey × List Nat)) : Bool := swf LKey.lt (fun _ => []) m

/-- Every listed scalar lies within its width. -/
def Scalars.inWidth (m : List (Key × Nat)) : Bool := m.all (fun p => decide (p.2 < 2 ^ p.1.f.width))

/-- The invariant of the device's state: its three maps canonical and its scalars within their widths. -/
def State.wf (s : State) : Bool := Scalars.wf s.regs && Scalars.inWidth s.regs && Seqs.wf s.lists && Memory.wf s.mem

/-- Whether an outcome is a next state. -/
def runsOn (o : Host.Outcome State Fault Refusal) : Bool :=
  match o with
  | .next _ => true
  | _ => false

/-- A state reached from `s` by steps of the device, commands being put at the end of its queue in between. -/
inductive Reachable (s : State) : State → Prop where
  | refl : Reachable s s
  | send {t : State} (c : Instr) : Reachable s t → Reachable s { t with pending := t.pending ++ [c] }
  | step {t u : State} : Reachable s t → Sys2Proof.Machine.step t = .next u → Reachable s u

/-- A path's access of address `a` reaches instance `i`, scope `sc`, of register word `r`, whose clock is present and whose port the
mode has. -/
def State.reaches (s : State) (path a : Nat) (r : RegRow) (sc i : Nat) : Prop :=
  s.target a = .reg r sc i ∧ s.pathServes path (.reg r sc i) = true ∧ s.clockOk r sc = true ∧ s.covered r sc i = true

/-- A write of `v` reaches a word whose description names no command or event: its access types alone decide (R9). -/
def State.reachesPlain (s : State) (path a : Nat) (r : RegRow) (sc i v : Nat) : Prop :=
  s.reaches path a r sc i ∧ s.regEffect path a r sc i v = s.regWrite path a r sc i v

/-- A read reaches a word that shows stored fields alone: none that an event fills at the read, and none that the timescale
snapshots. -/
def State.reachesStored (s : State) (path a : Nat) (r : RegRow) (sc i : Nat) : Prop :=
  s.reaches path a r sc i ∧ s.live r sc i = s ∧
    r.reg ∉ [Reg.COR_PKT_ALLOC, Reg.SCH_NODE_W18, Reg.TS_NOW_LO, Reg.TS_NOW_UNC]

/-- A cell's word has been executed: where the packet still lives and its punt does not wait for a span, the cell goes on
from word `w` at place `k` of its stage. -/
def State.cellThen (s : State) (cell h k w : Nat) : State :=
  if s.get .PKT_live 0 h = 0 ∨ s.get .PKT_puntr 0 h ≠ 0 then s else s.cellStep cell h k w

/-- Cell `cell` of region `n` stands, for packet `h`, at place `k` of its stage at word `w` of opcode `op`, which is executed: it is not
predicated, or its predicate is 1 (Table STRC-6). -/
def State.cellReady (s : State) (n cell h op k w : Nat) : Prop :=
  s.cellAt n cell h op = some (k, w) ∧ (wPredEn w && !s.pred n cell (wPred w)) = false

/-- Table `t` has the live exact-match instance `ti` of layout `l`, and its home region, where it is REPLICATED, is online (R169, R213,
R221). -/
def State.tableReady (s : State) (t ti : Nat) (l : List Nat) : Prop :=
  s.liveTi t = some ti ∧ l = s.lay ti ∧ layExact l = true ∧ s.homeDown l = false

/-- Channel `c` names key `key` of table `t`, whose home can be reached (R221, R231). -/
def State.keyReady (s : State) (c t ti key : Nat) (l : List Nat) : Prop :=
  s.tableReady t ti l ∧ key = s.chWords .EXM_CH_key 7 c % 2 ^ (8 * layKey l) ∧ s.placeUp ((keyPlaces l key).headD 0) = true

/-- Table `t` has the live TCAM instance `ti`, whose online regions are `n` and then `r` (R169, R237, R253). -/
def State.tcamReady (s : State) (t ti n : Nat) (r : List Nat) : Prop :=
  s.liveTi t = some ti ∧ layKind (s.lay ti) = 2 ∧ s.tcRegions ti = n :: r

/-- Channel `c` names unit `u` of a TCAM table, within its range, at which an entry begins in its home region `n` (R238). -/
def State.entryReady (s : State) (c t ti n : Nat) (r : List Nat) (u : Nat) : Prop :=
  s.tcamReady t ti n r ∧ u = s.get .TCM_CH_unit 0 c ∧ tlFirst (s.lay ti) ≤ u ∧ u < tlFirst (s.lay ti) + tlUnits (s.lay ti) ∧
    s.tcHas n ti u = true

/-- Command `id` of controller `k` is a fetched admin command of opcode `op` whose shared fields are right (Tables STOR-1, STOR-7). -/
def State.adminReady (s : State) (id op k : Nat) : Prop :=
  s.isAdmin id op = true ∧ s.dw0Status id = 0 ∧ k = s.get .CM_ctrl 0 id

/-- Command `id` is a fetched I/O command of opcode `op` on `blocks` blocks that passes its checks (Table STOR-6). -/
def State.ioReady (s : State) (id op blocks : Nat) (data : Bool) : Prop :=
  s.isIo id op = true ∧ s.ioStatus id blocks data = 0

end Sys2Proof.Machine
end

