-- ==== Sys2Proof/Certificates/Slice0/Obligations.lean ====
section
/-! DEFINITION. The statements: what the commands of the device do, the order in which it takes them, and what holds of every state it
reaches. Each docstring names the rules of the spec it formalises. -/

open Sys2Proof Sys2Proof.Machine

/-- The queue is first in, first out, and a step is the front command's own effect on the state with the rest of the queue
(the model's choice, log entries 1 and 21). -/
def Obligations.StepTakesFront : Prop :=
  (∀ (c : Instr) (s : State), Sys2Proof.Machine.step { s with pending := c :: s.pending } = Sys2Proof.Machine.exec c s) ∧
  (∀ s : State, s.pending = [] → Sys2Proof.Machine.step s = .next s)

/-- No command stops the machine: errors are recorded and the device goes on (R531 to R534). -/
def Obligations.EveryCommandRuns : Prop :=
  ∀ (c : Instr) (s : State), runsOn (Sys2Proof.Machine.exec c s) = true

/-- The invariant of `StepKeepsWf` holds at reset. -/
def Obligations.ResetWellFormed : Prop := State.reset.wf = true ∧ State.reset.pending = []

/-- The canonical form of memory, scalars and sequences, and the width of every scalar, are kept by every step of the device,
whatever command is in front of its queue. -/
def Obligations.StepKeepsWf : Prop :=
  ∀ s t : State, s.wf = true → Sys2Proof.Machine.step s = .next t → t.wf = true

/-- No command reads or changes the commands that wait behind it (log entries 1 and 21). -/
def Obligations.StepPopsOne : Prop :=
  ∀ s t : State, Sys2Proof.Machine.step s = .next t → t.pending = s.pending.tail

/-- A frame, host write, message or pin level that has left the device stays sent, through every command, the resets among them; and
free values are drawn in order. -/
def Obligations.OutputGrows : Prop :=
  ∀ s t : State, Sys2Proof.Machine.step s = .next t → s.out <+: t.out ∧ s.free ≤ t.free

/-- R21 to R37, R45, R52, R73 and R576: peing links, cells, voltage islands, the speed of a region. -/
def Obligations.PackageFaults : Prop :=
  ((∀ (s : State) (a b spares : Nat), s.get .PKG_PEING_LINK_present a b = 1 → s.linkState a b = 0 → s.get .PWR_reset ≠ 1 →
    (s.mono ≤ msUnits → exec (.peingLinkTrained a b spares) s = .next (((((s.set .PKG_PEING_LINK_spares_used spares a b).set
      .PKG_PEING_LINK_spares_used spares b a).set .PKG_PEING_LINK_state (if spares = 0 then 1 else 2) a b).set
        .PKG_PEING_LINK_state (if spares = 0 then 1 else 2) b a).stage0Go)) ∧
    (msUnits < s.mono → exec (.peingLinkTrained a b spares) s = .next (s.trainFail a b)) ∧
    exec (.peingTrainTimeout a b) s = .next (((s.advanceTo s.trainEnd).linkFail a b).stage0Go)) ∧
  (∀ (s : State) (a b g : Nat) (l : List Nat), s.linkUp a b = true →
    l = (s.bump .PKG_PEING_LINK_corrected_count a b).now ::
      ((s.bump .PKG_PEING_LINK_corrected_count a b).lget .wireTimes a (b * 256 + g)).filter (fun t =>
        decide ((s.bump .PKG_PEING_LINK_corrected_count a b).now ≤ t + msUnits)) →
    (l.length ≤ 64 → exec (.peingCorrectableError a b g) s =
      .next ((s.bump .PKG_PEING_LINK_corrected_count a b).lset .wireTimes l a (b * 256 + g))) ∧
    (64 < l.length → exec (.peingCorrectableError a b g) s = .next
      (if ((s.bump .PKG_PEING_LINK_corrected_count a b).lset .wireTimes [] a (b * 256 + g)).spareFree a b
       then ((s.bump .PKG_PEING_LINK_corrected_count a b).lset .wireTimes [] a (b * 256 + g)).toSpare a b g
       else ((s.bump .PKG_PEING_LINK_corrected_count a b).lset .wireTimes [] a (b * 256 + g)).report
         { src := 0x08, cls := .corrected, die := a, detail := some g }))) ∧
  (∀ (s : State) (a b g : Nat), s.linkUp a b = true →
    exec (.peingWireFault a b g) s = .next (if s.spareFree a b then s.toSpare a b g else s.linkFail a b)) ∧
  (∀ (s : State) (a b g spares : Nat), s.linkState a b = 3 →
    exec (.peingLinkTrained a b spares) s = .next s ∧ exec (.peingTrainTimeout a b) s = .next s ∧
    exec (.peingCorrectableError a b g) s = .next s ∧ exec (.peingWireFault a b g) s = .next s)) ∧
  ((∀ (s : State) (n b c h : Nat) (fresh : Bool), b < 16 → (fresh = true ∨ s.get .CELL_retry n (b * 17 + c) < 3) →
    exec (.cellFault n b c false fresh h) s =
      .next ((s.set .CELL_retry ((if fresh then 0 else s.get .CELL_retry n (b * 17 + c)) + 1) n (b * 17 + c)).report
        { src := 0x05, cls := .corrected, level := some 0, die := 4 + n / 2, region := n })) ∧
  (∀ (s : State) (n b c h : Nat) (fresh : Bool), b < 16 → s.get .CELL_spare_used n b = 0 →
    exec (.cellFault n b c true fresh h) s = .next (s.spareCell n b c true h) ∧
    (fresh = false → 3 ≤ s.get .CELL_retry n (b * 17 + c) →
      exec (.cellFault n b c false fresh h) s = .next (s.spareCell n b c false h))) ∧
  (∀ (s : State) (n b c h : Nat) (fresh : Bool), (16 ≤ b ∨ s.get .CELL_spare_used n b ≠ 0) →
    exec (.cellFault n b c true fresh h) s =
      .next ((if h ≠ 0 then s.dropPkt (h - 1) reasonCELL_FAULT else s).regionFault n)) ∧
  (∀ (s u : State) (k v t : Nat), v = s.get .ISLAND_mv 0 k → t = s.islandTarget k → t ≠ 0 →
    u = s.advanceTo (s.get .ISLAND_at 0 k + 2 * usUnits) →
    (v < t → exec (.voltageStep k) s = .next (((u.set .ISLAND_mv (min t (v + 10)) 0 k).set .ISLAND_at u.now 0 k).settleNote)) ∧
    (t < v → exec (.voltageStep k) s = .next (((u.set .ISLAND_mv (max t (v - 10)) 0 k).set .ISLAND_at u.now 0 k).settleNote)) ∧
    (t = v → exec (.voltageStep k) s = .next s)) ∧
  (∀ (s u : State) (n rel tj b : Nat),
    b = (if s.get .XD_mark n < s.now / msUnits * msUnits + 1 then s.now / msUnits * msUnits else s.now / msUnits * msUnits + msUnits) →
    u = (s.advanceTo b).set .XD_mark (b + 1) n →
    (s.offlineForTest n = false → exec (.regionSpeedMeasure n rel tj) s =
      .next (((u.set .XD_SPEED_rel_speed (max (rel % 4096) (speedFloor (s.get .ISLAND_mv 0 n) (sgn 10 tj) (s.get .AGE_REGION_index 0 n))) n).set .XD_SPEED_v_mv (s.get .ISLAND_mv 0 n) n).set .XD_SPEED_tj_qc tj n)) ∧
    (s.offlineForTest n = true → exec (.regionSpeedMeasure n rel tj) s = .next s)))

/-- R13 to R15 for a word that is one half of one 64-bit quantity: the read and write of both halves, per access path. -/
def Obligations.PairAccess : Prop :=
  (∀ (s : State) (path a : Nat) (r : RegRow) (sc i : Nat) (f : Field) (acc : Access), s.reachesStored path a r sc i →
    r.slots = [⟨f, 0, 32, acc, .lo⟩] → acc ≠ .WO → acc ≠ .RC →
    exec (.readLo path a) s = .next ((s.answer [s.get f sc i % 2 ^ 32]).set .PATH_snap (s.get f sc i / 2 ^ 32 % 2 ^ 32) 0 path)) ∧
  (∀ (s : State) (path a : Nat) (r : RegRow) (sc i w : Nat) (f : Field) (acc : Access), s.reachesStored path a r sc i →
    r.slots = [⟨f, 0, w, acc, .hi⟩] →
    exec (.readHi path a) s = .next (s.answer [s.get .PATH_snap 0 path])) ∧
  (∀ (s : State) (path a : Nat) (r : RegRow) (sc i v : Nat) (f : Field), s.reachesPlain path a r sc i v →
    r.slots = [⟨f, 0, 32, .RW, .lo⟩] →
    exec (.writeLo path a v) s = .next ((s.set .PATH_pend v 0 path).set .PATH_pend_v 1 0 path)) ∧
  (∀ (s : State) (path a : Nat) (r : RegRow) (sc i v w : Nat) (f : Field), s.reachesPlain path a r sc i v →
    r.slots = [⟨f, 0, w, .RW, .hi⟩] →
    exec (.writeHi path a v) s = .next ((s.set f (f.fit (v % 2 ^ w * 2 ^ 32 +
      (if s.get .PATH_pend_v 0 path = 1 then s.get .PATH_pend 0 path else s.get f sc i % 2 ^ 32))) sc i).set .PATH_pend_v 0 0 path))

/-- Table SCOPE-3 for a word with one field: what a write and a read do, with everything else unchanged. -/
def Obligations.AccessTypes : Prop :=
  (∀ (s : State) (path a : Nat) (r : RegRow) (sc i v lo w : Nat) (f : Field), s.reachesPlain path a r sc i v →
    (r.slots = [⟨f, lo, w, .RW, .full⟩] → exec (.registerWrite path a v) s = .next (s.set f (f.fit (bitsOf v lo w)) sc i)) ∧
    (r.slots = [⟨f, lo, w, .RO, .full⟩] → exec (.registerWrite path a v) s = .next s) ∧
    (r.slots = [⟨f, lo, w, .W1C, .full⟩] →
      exec (.registerWrite path a v) s = .next (s.set f (clearBits f.width (s.get f sc i) (bitsOf v lo w)) sc i)) ∧
    (r.slots = [⟨f, lo, w, .RWL, .full⟩] → s.get .BOOT_STATUS_keylock = 0 →
      exec (.registerWrite path a v) s = .next (s.set f (bitsOf v lo w) sc i))) ∧
  (∀ (s : State) (path a : Nat) (r : RegRow) (sc i lo w : Nat) (f : Field), s.reachesStored path a r sc i →
    (r.slots = [⟨f, lo, w, .RC, .full⟩] →
      exec (.rcRead path a) s = .next ((s.answer [s.get f sc i % 2 ^ w * 2 ^ lo]).set f 0 sc i)) ∧
    (r.slots = [⟨f, lo, w, .RW, .full⟩] ∨ r.slots = [⟨f, lo, w, .RO, .full⟩] →
      exec (.rcRead path a) s = .next (s.answer [s.get f sc i % 2 ^ w * 2 ^ lo])))

/-- R12: the RWL registers of the device lock at KEYLOCK; after it a write has no effect but the record RWL_LOCKED (source 0x02 of the
error sources), of class CONTAINED. Before it the field takes the written bits. -/
def Obligations.LockedWrite : Prop :=
  ∀ (s : State) (path a : Nat) (r : RegRow) (sc i v lo w : Nat) (f : Field), s.reachesPlain path a r sc i v →
    r.slots = [⟨f, lo, w, .RWL, .full⟩] →
    (s.get .BOOT_STATUS_keylock = 1 → exec (.registerWrite path a v) s =
      .next (s.report1 { src := 0x02, cls := .contained, requester := some (s.pathReq path), addr := a, die := a / 2 ^ 44 })) ∧
    (s.get .BOOT_STATUS_keylock ≠ 1 → exec (.registerWrite path a v) s = .next (s.set f (bitsOf v lo w) sc i))

/-- R6, R41 and R570: what accesses that reach no whole register do, with everything else unchanged. -/
def Obligations.PartialAndUnmapped : Prop :=
  (∀ (s : State) (path a sc i : Nat) (r : RegRow), s.target a = .reg r sc i → s.pathServes path (.reg r sc i) = true →
    exec (.partialWrite path a) s =
      .next (s.report1 { src := 0x01, cls := .contained, requester := some (s.pathReq path), addr := a, die := a / 2 ^ 44 })) ∧
  (∀ (s : State) (path a v : Nat), s.target a = .unmapped → coreSpace path a = false → s.pathServes path .unmapped = true →
    exec (.rcRead path a) s = .next ((s.report1
      { src := 0x03, cls := .contained, requester := some (s.pathReq path), addr := a, die := a / 2 ^ 44 }).answer [0]) ∧
    exec (.registerWrite path a v) s = .next (s.report1
      { src := 0x03, cls := .contained, requester := some (s.pathReq path), addr := a, die := a / 2 ^ 44 })) ∧
  (∀ (s : State) (a : Nat), 8 * 2 ^ 44 ≤ a → s.target a = .unmapped) ∧
  (∀ (s : State) (path a v : Nat), s.target a = .gap → s.pathServes path .gap = true →
    exec (.rcRead path a) s = .next (s.answer [0]) ∧ exec (.registerWrite path a v) s = .next s)

/-- R61, R62, R70, R71 and R82. -/
def Obligations.ClockWatch : Prop :=
  (∀ (s : State) (k d : Nat), (clockDies k).contains d = true → s.watched k = true →
    (s.getb .XD_CLK_DIE_PRESENT_present k 0 d = true → s.getb .XD_CLK_PRESENT_present k = true → k ≠ 15 →
      exec (.clockAbsent k d) s = .next (((s.clockMark k d false).setb .XD_CLK_LOST_lost k true).clockLoss k d)) ∧
    (∀ hz, s.getb .XD_CLK_DIE_PRESENT_present k 0 d = false → (k = 1 → b2n hz = s.get .TS_OSC_CFG_osc_20m) →
      exec (.clockPresent k d hz) s = .next (((s.clockMark k d true).clockBack k d).each
        (((s.clockMark k d true).clockBack k d).lkeysOf .busHeld) (fun p s =>
          (s.lset .busHeld [] 0 p.2).heldRun p.2 (s.lget .busHeld 0 p.2))))) ∧
  (∀ (s : State) (k d : Nat), s.watched k = false →
    exec (.clockAbsent k d) s = .next s ∧ ∀ hz, exec (.clockPresent k d hz) s = .next s) ∧
  (∀ (s w u : State) (path a k v t : Nat) (r : List Nat), s.lget .busHeld 0 path = a :: k :: v :: t :: r →
    w = (s.advanceTo (t + 10 * usUnits)).lset .busHeld r 0 path → u = w.report1 (w.pathErr 0x04 path a) →
    (k = 2 → exec (.clockAccessTimeout path) s = .next u) ∧
    (k = 3 → exec (.clockAccessTimeout path) s = .next ((u.answer [0]).emit .cpl [path, 0] (leBytes 4 0))) ∧
    (k = 4 → exec (.clockAccessTimeout path) s = .next ((u.answer [0]).emit .cpl [path, 0] (leBytes 8 0))) ∧
    (k = 1 → exec (.clockAccessTimeout path) s = .next (u.answer [0]))) ∧
  (∀ (s u : State) (h adv ret t : Nat),
    u = (if s.hartOn h then (s.addw .CORE_cycle adv 0 h).addw .CORE_instret ret 0 h else s) →
    t = max (u.get .CORE_time 0 h) (u.repNow (hartDie h)) →
    exec (.timeCsrRead h adv ret) s = .next ((u.set .CORE_time t 0 h).answer [t, u.repUnc (hartDie h) 0])) ∧
  (∀ (s : State) (d : Nat), s.get .REP_apart 0 d = 1 → s.getb .XD_CLK_DIE_PRESENT_present 2 0 d = true →
    exec (.replicaRealign d) s = .next ((s.set .REP_dt64 (s.repNow d) 0 d).set .REP_apart 0 0 d))

/-- R85 to R88: what a measurement, a missing measurement, the wait-to-restore time and the end of a slew do. -/
def Obligations.TimeReferences : Prop :=
  (∀ (s : State) (n gm steps utc rate : Nat) (off : Int) (parent both : Bool), s.get .TS_REF_CFG_enable 0 n = 1 → 6 ≤ n →
    s.measValid n off = true → (s.measAccept n off).qualifies n parent = false → s.get .TS_STATUS_ref_sel ≠ n →
    exec (.referenceMeasurement n off parent gm steps utc rate both) s = .next (((s.measAccept n off).freqAct n).evidence s none)) ∧
  (∀ (s t : State) (n gm steps utc rate : Nat) (off p : Int) (parent both : Bool), n = 4 ∨ n = 5 → s.get .TS_REF_CFG_enable 0 n = 1 →
    p = ppsPhase (off - sgn 32 (s.get .TS_REF_DELAY 0 n) * 16384) → s.measValid n p = true → t = s.measAccept n p →
    t.qualifies n parent = false → t.get .TS_STATUS_ref_sel = n → t.get .TS_STATUS_state = tsACQUIRING ∨ t.get .TS_STATUS_state = tsLOCKED →
    exec (.referenceMeasurement n off parent gm steps utc rate both) s =
      .next ((((t.servoUpdate p rate).lockTests p).trackUnc).evidence s none)) ∧
  (∀ (s : State) (n : Nat),
    s.freqRef ≠ some n ∨ (s.get .TS_STATUS_state ≠ tsFREERUN ∧ s.get .TS_STATUS_state ≠ tsHOLDOVER) → s.freqAct n = s) ∧
  (∀ (s : State) (n : Nat) (off : Int),
    (s.measAccept n off).get .TS_REF_STATUS_valid 0 n = 1 ∧ (s.measAccept n off).get .REF_out 0 n = 0 ∧
    (s.measAccept n off).get .REF_miss 0 n = 0 ∧ (s.measAccept n off).get .REF_last 0 n = unsgn 64 off) ∧
  (∀ (s : State) (n : Nat), s.get .TS_REF_CFG_enable 0 n = 1 → s.get .REF_miss 0 n < 2 →
    exec (.measurementMissing n) s = .next
      (((s.set .TS_REF_STATUS_valid 0 0 n).set .REF_run 0 0 n).set .REF_miss (s.get .REF_miss 0 n + 1) 0 n)) ∧
  (∀ (s t : State) (n : Nat), s.get .TS_CTRL_revertive = 1 → s.betterRef n = true →
    t = s.advanceTo (s.get .REF_qual_at 0 n + s.get .TS_SERVO_CFG_wtr_s * secUnits) →
    exec (.wtrExpiry n) s = .next ((t.switchRef n).evidence t none)) ∧
  (∀ s : State, exec .slewComplete s = .next (((s.advanceTo s.slewEnd).set .U_slew 0).set .TIME_slew_off 0).publishUnc)

/-- R81, R90 and R92: the commands that set DTS, the servo and the two counters. -/
def Obligations.TimescaleSetting : Prop :=
  (∀ (s : State) (unc : Nat), s.get .TS_STATUS_state = tsFREERUN →
    exec (.tsTodSetUnc unc true) s = .next (s.todLoad unc) ∧
    exec (.tsTodSetUnc unc false) s = .next (s.timeFault.evidence s none)) ∧
  (∀ (s : State) (v : Nat) (both : Bool), v % 2 = s.get .TS_CTRL_servo_en →
    exec (.servoEnWrite v both) s = .next ((s.set .TS_CTRL_servo_en (v % 2)).set .TS_CTRL_revertive (v / 8))) ∧
  (∀ (s t : State) (v : Nat) (both : Bool), s.get .TS_CTRL_servo_en = 1 → v % 2 = 0 → s.get .TS_STATUS_state = tsHOLDOVER →
    t = (s.set .TS_CTRL_servo_en 0).set .TS_CTRL_revertive (v / 8) →
    exec (.servoEnWrite v both) s = .next
      ((((t.deselect.enterDisc tsFREERUN).set .TIME_after_hold 1).growHold).evidence s none)) ∧
  (∀ s : State, s.get .TS_STATUS_state = tsFAULT →
    exec .faultResolveAToB s = .next (((s.set .TS_B s.now).faultClear).evidence s none)) ∧
  (∀ s : State, s.get .TS_STATUS_state = tsFAULT →
    exec .faultResolveBToA s = .next ((((s.stepTo (s.get .TS_B)).set .TS_B (s.get .TS_B)).faultClear).evidence s
      (some (stepSize s.now (s.get .TS_B))))) ∧
  (∀ s : State, s.get .TS_STATUS_state ≠ tsFAULT →
    exec .faultResolveAToB s = .next s ∧ exec .faultResolveBToA s = .next s) ∧
  (∀ (s t u : State) (diff : Int), t = s.advanceTo ((s.now / usUnits + 1) * usUnits) →
    u = ((t.set .TS_AB_DIFF_diff (unsgn 16 diff)).set .TS_AB_DIFF_max_abs (max (t.get .TS_AB_DIFF_max_abs) (min diff.natAbs 0xFFFF))).set
      .TS_B (unsgn 64 (Int.ofNat t.now + diff.fdiv 4)) →
    (diff.natAbs ≤ 32 → exec (.abDiffMeasure diff) s = .next u) ∧
    (32 < diff.natAbs → exec (.abDiffMeasure diff) s = .next (u.timeFault.evidence s none)))

/-- R97 to R104: the effects of time and of the oscillator settings on the discipline. -/
def Obligations.HoldoverAndLearning : Prop :=
  (∀ s t : State, s.get .TS_STATUS_state = tsHOLDOVER ∨ s.get .TS_STATUS_state = tsFREERUN →
    t = s.advanceTo ((s.now / msUnits + 1) * msUnits) →
    exec .uncUpdateTick s = .next (t.set .U_hold t.holdTerm).publishUnc) ∧
  (∀ s : State, s.get .TS_STATUS_state = tsHOLDOVER → s.get .TS_HOLDOVER_MAX_holdover_max * 16384 < s.uDts →
    exec .holdoverMaxReached s = .next (((s.enterDisc tsFREERUN).set .TIME_after_hold 1).evidence s none)) ∧
  (∀ (s t : State) (k : Nat), s.get .TIME_pred_on = 1 → k = (s.now - s.get .TIME_pred_from) / secUnits + 1 →
    t = s.advanceTo (s.get .TIME_pred_from + k * secUnits) →
    exec .holdoverFreqUpdate s = .next (t.steer (t.holdFreq k))) ∧
  (∀ s : State, s.get .TIME_pred_on ≠ 1 → s.get .TS_OSC_CFG_mode = 1 →
    exec .holdoverFreqUpdate s = .next ((s.advanceTo (s.get .TIME_dac_at + secUnits)).dacFrame (s.get .TIME_dac))) ∧
  (∀ (s : State) (v : Nat), s.get .TS_OSC_CFG_mode = 1 →
    exec (.oscModeWrite v) s = .next ((((s.set .TS_OSC_CFG_learn_h (v / 4)).set .TS_OSC_CFG_dac_span_ppb (v / 256)).set
      .TS_OSC_CFG_dac_invert (v / 2 ^ 20)).set .TS_OSC_CFG_mode v)) ∧
  (∀ (s : State) (v : Nat), s.get .TS_OSC_CFG_mode = 0 → s.get .TS_OSC_CFG_osc_20m = v / 2 % 2 → v % 2 = 1 →
    exec (.oscModeWrite v) s = .next (((((s.set .TS_OSC_CFG_learn_h (v / 4)).set .TS_OSC_CFG_dac_span_ppb (v / 256)).set
      .TS_OSC_CFG_dac_invert (v / 2 ^ 20)).set .TS_OSC_CFG_mode v).dacFrame (2 ^ 19))) ∧
  (∀ (s t : State) (l : List Nat), s.get .TS_STATUS_state = tsLOCKED →
    t = s.advanceTo (s.get .TIME_locked_since + ((s.now - s.get .TIME_locked_since) / (64 * secUnits) + 1) * (64 * secUnits)) →
    l = (s.get .TIME_freq :: s.lget .learnSamples).take (max 1 (s.get .TS_OSC_CFG_learn_h) * 3600 / 64) →
    exec .learnSample s = .next (((t.lset .learnSamples l).set .TS_LEARN_age_rate (unsgn 24 (fitSlope l))).set .TS_LEARN_hours
      (min 127 (l.length * 64 / 3600)))) ∧
  (∀ s : State, s.get .TS_STATUS_state = tsLOCKED →
    exec .learnValid s = .next ((s.advanceTo (s.get .TIME_locked_since + 6 * 3600 * secUnits)).set .TS_LEARN_learn_valid 1))

/-- R108 to R116: how records are issued, delivered, logged and fetched. -/
def Obligations.AmberRecords : Prop :=
  (∀ s t : State, s.get .AMBER_due = s.now / secUnits → t = s.advanceTo ((s.now / secUnits + 1) * secUnits) →
    exec .periodic s = .next ((t.secondsDue (t.now / secUnits)).set .AMBER_due (t.now / secUnits))) ∧
  (∀ s : State, s.get .AMBER_due < s.now / secUnits →
    exec .periodic s = .next ((s.secondsDue (s.now / secUnits)).set .AMBER_due (s.now / secUnits))) ∧
  (∀ (s : State) (n : Nat), s.get .ATT_on = 1 → s.secondsDue n =
    (s.each (List.range (n - s.get .AMBER_due)) (fun j t => t.amberPut 4 t.offEst ((s.get .AMBER_due + 1 + j) * secUnits))).set .AMBER_due
      (max (s.get .AMBER_due) n)) ∧
  (∀ (s : State) (q : Nat) (r : List Nat), s.lget .amberToRing = q :: r →
    exec .amberRingDeliver s = .next ((s.lset .amberToRing r).timeRingPut (s.lget .amber 0 q))) ∧
  (∀ (s : State) (q : Nat) (r : List Nat), s.lget .amberToLog = q :: r → s.get .AMBER_stop = 0 → s.xspiOk = true →
    s.get .XSPI_back ≤ leNat (slice (s.lget .amber 0 q) 8 8) + 50 * msUnits →
    exec .amberLogProgram s = .next ((s.lset .amberToLog r).logProgram (s.lget .amber 0 q))) ∧
  (∀ (s : State) (q : Nat) (r : List Nat), s.lget .amberToLog = q :: r → s.get .AMBER_stop = 0 →
    leNat (slice (s.lget .amber 0 q) 8 8) + 50 * msUnits < (if s.xspiOk then s.get .XSPI_back else s.now) →
    exec .amberLogProgram s = .next ((s.lset .amberToLog r).bump .BOOT_FLASH_STAT_log_lost)) ∧
  (∀ (s : State) (q : Nat) (r : List Nat), s.lget .amberToLog = q :: r → s.get .AMBER_stop = 1 →
    exec .amberLogProgram s = .next (s.lset .amberToLog [])) ∧
  (∀ (s : State) (q k : Nat), s.xspiOk = true → s.logFind q = some k →
    exec (.tsAmberFetch q) s = .next (s.timeRingPut (s.lget .amberLog 0 k))) ∧
  (∀ (s : State) (q : Nat), s.xspiOk = false ∨ s.logFind q = none →
    exec (.tsAmberFetch q) s = .next (s.set .TS_STATUS_fetch_miss 1)) ∧
  (∀ (s t : State) (v : Nat), t = (s.set .TS_CHAIN_DIGEST v 0 11).lset .chainDigest
      ((List.range 12).flatMap (fun k => leBytes 4 ((s.set .TS_CHAIN_DIGEST v 0 11).get .TS_CHAIN_DIGEST 0 k))) →
    exec (.chainDigestCommit v) s = .next (t.issueAmber 3 t.offEst)) ∧
  (∀ (s : State) (b : List Nat) (p : Nat), p = s.get .TS_RING_PROD % s.ringSlots → s.get .TS_RING_CFG_enable = 1 →
    s.get .PCI_EP_CFG_link_up (s.get .TS_RING_CFG_endpoint) = 1 → s.mayIssue (s.get .TS_RING_CFG_endpoint) 2 = true →
    (p + 1) % s.ringSlots ≠ s.get .TS_RING_CONS % s.ringSlots →
    s.timeRingPut b = (s.hostWrite (s.get .TS_RING_CFG_endpoint) 2 (s.get .TS_RING_BASE + p * 256) (fixLen 256 b)).set
      .TS_RING_PROD ((p + 1) % s.ringSlots))

/-- R91. -/
def Obligations.TodRejected : Prop :=
  ∀ s : State, s.get .TS_STATUS_state ≠ tsFREERUN →
    (∀ (unc : Nat) (both : Bool), exec (.tsTodSetUnc unc both) s = .next (s.bump .TS_TOD_SET_UNC_tod_rejected)) ∧
    (∀ (path a sc i v : Nat) (r : RegRow), s.reaches path a r sc i → r.reg = .TS_TOD_SET_UNC →
      exec (.registerWrite path a v) s = .next (s.bump .TS_TOD_SET_UNC_tod_rejected))

/-- R120, R130, R132 (Table TSTP-6) and R143 to R145. -/
def Obligations.TimestampUnit : Prop :=
  (∀ (s t : State) (d p : Nat), s.portOk d p = true → s.get .ETH_PORT_STATUS_state d p = ethUP → s.get .TSU_tdc d ≠ 1 →
    s.get .TSU_cal_busy d p ≠ 1 → t = s.advanceTo (s.get .TSU_cal_at d p + 60 * secUnits) →
    exec (.tsuCalibrate d p) s = .next ((t.set .TSU_cal_busy 1 d p).set .TSU_cal_at t.now d p)) ∧
  (∀ (s : State) (d p skew : Nat), s.get .TSU_cal_busy d p = 0 → exec (.tsuCalibrationDone d p skew) s = .next s) ∧
  (∀ (s : State) (d p skew : Nat), s.get .TSU_cal_busy d p ≠ 0 → s.get .TSU_tdc d = 0 → exec (.tsuCalibrationDone d p skew) s =
    .next (((s.set .TSU_cal_busy 0 d p).set .TSU_PORT_STATUS_cal_done 1 d p).set .TSU_PORT_STATUS_skew_max skew d p)) ∧
  (∀ (s : State) (d p h : Nat), (s.lget .mac d p).contains h = true → s.get .PKT_gate 0 h = 0 →
    (s.get .PKT_launch 0 h = 0 → exec (.launchGateArrival d p h) s = .next (s.set .PKT_gate 2 0 h)) ∧
    (s.repNow (2 + d) < s.get .PKT_launch 0 h →
      s.get .PKT_launch 0 h ≤ s.repNow (2 + d) + s.launchHorizon d (s.get .PKT_prof 0 h) →
      exec (.launchGateArrival d p h) s =
        .next ((s.set .PKT_gate 1 0 h).set .PKT_tsflags 0x08 0 h)) ∧
    (s.repNow (2 + d) + s.launchHorizon d (s.get .PKT_prof 0 h) < s.get .PKT_launch 0 h →
      exec (.launchGateArrival d p h) s =
        .next ((s.bump .TSU_PORT_ERR_far_dropped d p).gateDrop d p h reasonLAUNCH_FAR)) ∧
    (0 < s.get .PKT_launch 0 h → s.get .PKT_launch 0 h ≤ s.repNow (2 + d) →
      s.repNow (2 + d) ≤ s.get .PKT_launch 0 h + s.get .TSU_LAUNCH_PROF_late_bound d (s.get .PKT_prof 0 h) * 32 →
      exec (.launchGateArrival d p h) s =
        .next (((s.bump .TSU_LATE_CNT_late_sent d p).set .PKT_gate 2 0 h).set .PKT_tsflags 0x18 0 h))) ∧
  (∀ (s : State) (d p h : Nat), h ∈ s.heldFrames d p → ∃ g ∈ s.heldFrames d p, ∃ t : State,
    t = (s.advanceRep (2 + d) ((s.launchBalls d p g).toNat - s.wireTime d 8)).set .PKT_gate 2 0 g ∧
    (∀ x ∈ s.heldFrames d p, s.get .PKT_launch 0 g ≤ s.get .PKT_launch 0 x) ∧
    (t.macUp d p = true → t.macStopped d p g = false → exec (.launchRelease d p) s = .next (t.macSend d p g)) ∧
    (t.macUp d p = false ∨ t.macStopped d p g = true → exec (.launchRelease d p) s = .next t)) ∧
  (∀ (s t : State) (k : Nat),
    t = s.advanceTo (Int.ofNat (s.ppsNext k * secUnits) - sgn 16 (s.get .TS_PPS_DELAY_delay 0 k)).toNat →
    s.get .TS_PPS_CFG_enable 0 k = 1 → s.get .PWR_fail = 0 → s.get .PPS_label 0 k ≤ s.ppsNext k →
    (s.get .TS_PPS_CFG_squelch_en 0 k = 0 → exec (.ppsOutEdge k) s = .next
      ((((t.set .PPS_label (s.ppsNext k + 1) 0 k).set .PPS_high 1 0 k).set .PPS_end
        ((t.set .PPS_label (s.ppsNext k + 1) 0 k).now + ppsWidth (s.get .TS_PPS_CFG_width 0 k)) 0 k).emit .pin [k, 1])) ∧
    (s.get .TS_PPS_CFG_squelch_en 0 k = 1 → (t.set .PPS_label (s.ppsNext k + 1) 0 k).uncForced = true →
      exec (.ppsOutEdge k) s = .next ((t.set .PPS_label (s.ppsNext k + 1) 0 k).bump .TS_PPS_DELAY_squelched 0 k))) ∧
  (∀ (s : State) (k : Nat), s.get .PPS_high 0 k = 1 →
    exec (.ppsPulseEnd k) s = .next (((s.advanceTo (s.get .PPS_end 0 k)).set .PPS_high 0 0 k).emit .pin [k, 0]))

/-- R137 to R139. -/
def Obligations.HostTime : Prop :=
  (∀ (s : State) (e : Nat), s.get .TSU_PTM_STATUS_ptm_valid e = 0 →
    exec (.timePageUpdate e) s = .next ((s.advanceTo ((s.now / msUnits + 1) * msUnits)).pageNow e)) ∧
  (∀ (s : State) (e : Nat), s.get .TSU_PTM_STATUS_ptm_valid e = 1 → exec (.timePageUpdate e) s = .next (s.pageNow e)) ∧
  (∀ (s : State) (e : Nat), s.get .PTM_busy_at e = 0 → s.get .TSU_PTM_CFG_enable e = 1 → s.get .TSU_PTM_STATUS_ptm_enabled e = 1 →
    s.get .PCI_EP_CFG_link_up e = 1 →
    exec (.ptmDialogueStart e) s =
      .next ((((s.set .PTM_t1 (s.repNow (2 + e)) e).set .PTM_busy 1 e).set .PTM_busy_at s.now e).emit .pcieMsg [e, 0, 10])) ∧
  (∀ (s t : State) (e el t2 t3 : Nat), s.get .PTM_busy e = 1 → t = s.advanceTo (s.get .PTM_busy_at e + el) →
    (el ≤ 100 * usUnits → 4 * (t3 - t2) ≤ el → exec (.ptmResponse e el t2 t3) s = .next
      (t.ptmPair e (s.get .PTM_t1 e) ((4 * t2 - (el - 4 * (t3 - t2)) / 2) / 4) ((el - 4 * (t3 - t2)) / 2))) ∧
    (100 * usUnits < el ∨ el < 4 * (t3 - t2) → exec (.ptmResponse e el t2 t3) s = .next (t.ptmFail e))) ∧
  (∀ (s : State) (e : Nat), s.get .PTM_busy e = 1 →
    exec (.ptmTimeout e) s = .next ((s.advanceTo (s.get .PTM_busy_at e + 100 * usUnits)).ptmFail e)) ∧
  (∀ (s : State) (e : Nat), 2 ≤ s.get .PTM_fails e → (s.ptmFail e).get .TSU_PTM_STATUS_ptm_valid e = 0)

/-- R157 to R159, R167, R168 and R174: the structure commands that verify and load an image. -/
def Obligations.StructureLoad : Prop :=
  (∀ s : State, s.get .STR_CMD_STATUS_busy = 1 →
    exec .stage s = .next (s.answer [1]) ∧ exec .commit s = .next (s.answer [1]) ∧ exec .strAbort s = .next (s.answer [1])) ∧
  (∀ (s : State) (v : Nat), s.get .STR_CMD_STATUS_busy = 0 → s.regionsIn 0xFF (fun st => decide (st = 0)) = true →
    s.get .STR_SLOT_empty 0 2 = 0 → s.flashOk = true →
    v = (s.imageValid (s.lget .partManifest 0 (s.slotPart 2)) (s.slotImg 2) 3 0x2000000).1 →
    exec .stage s = .next (if v = 0 ∨ v = 6 then s.strBusy 1 else (s.strDone 1 4 0).set .STR_EVENTS_stage_fail 1)) ∧
  (∀ s : State, s.get .STR_CMD_STATUS_busy = 1 → s.get .STR_CMD_STATUS_last_op = 1 →
    ∃ t, exec .stageComplete s = .next t ∧ t.get .STR_CMD_STATUS_busy = 0 ∧ t.get .STR_CMD_STATUS_last_op = 1 ∧
      (∀ r d, s.imageVerify 2 true = some (r, d) → t = (s.strDone 1 r d).set .STR_EVENTS_stage_fail 1) ∧
      (s.imageVerify 2 true = none → (carriedTables s.activeSecs (secsOf (s.slotImg 2))).all (s.initFits (secsOf (s.slotImg 2))) = false →
        t = (s.strDone 1 8 0).set .STR_EVENTS_stage_fail 1) ∧
      (∀ s1, s.imageVerify 2 true = none → (carriedTables s.activeSecs (secsOf (s.slotImg 2))).all (s.initFits (secsOf (s.slotImg 2))) = true →
        s.makeTables s.activeSecs (secsOf (s.slotImg 2)) (rebuiltTables s.activeSecs (secsOf (s.slotImg 2))) = some s1 →
        t = s1.stageLoad s.activeSecs (secsOf (s.slotImg 2)) (s.newTi s.activeSecs (secsOf (s.slotImg 2))) ∧
        t.get .STR_CMD_STATUS_result = 0)) ∧
  (∀ (s : State) (slot : Nat), slot < 2 → s.get .STR_CMD_STATUS_busy = 0 → s.regionsIn 0xFF (fun st => decide (st = 0)) = true →
    s.get .STR_SLOT_empty 0 (2 - slot) = 0 → s.flashOk = true →
    exec (.coldApply slot) s = .next ((((s.strBusy 6).set .STR_cold 1).set .STR_cold_slot slot).each (List.range 8)
      (fun n s => s.set .STR_drain_from s.now 0 n))) ∧
  (∀ (s : State) (k : Nat), s.get .STR_CMD_STATUS_busy = 1 → s.get .STR_CMD_STATUS_last_op = 6 → s.get .STR_cold = 1 →
    (∀ n < 8, s.get .REG_pop n 0 = 0 ∧ s.get .REG_pop n 1 = 0) → k = (if s.get .STR_cold_slot = 0 then 2 else 1) →
    ∃ t, exec .coldApplyLoad s = .next t ∧ t.get .STR_CMD_STATUS_busy = 0 ∧ t.get .STR_CMD_STATUS_last_op = 6 ∧ t.get .STR_cold = 0 ∧
      (∀ r d, s.imageVerify k false = some (r, d) →
        t = (((s.strDone 6 r d).set .STR_EVENTS_stage_fail 1).set .STR_EVENTS_cold_fallback 1).set .STR_cold 0) ∧
      (s.imageVerify k false = none → (carriedTables s.activeSecs (secsOf (s.slotImg k))).all (s.initFits (secsOf (s.slotImg k))) = false →
        t = (((s.strDone 6 8 0).set .STR_EVENTS_stage_fail 1).set .STR_EVENTS_cold_fallback 1).set .STR_cold 0) ∧
      (∀ s1, s.imageVerify k false = none → (carriedTables s.activeSecs (secsOf (s.slotImg k))).all (s.initFits (secsOf (s.slotImg k))) = true →
        s.makeTables s.activeSecs (secsOf (s.slotImg k)) (rebuiltTables s.activeSecs (secsOf (s.slotImg k))) = some s1 →
        t = s1.coldLoad s.activeSecs (secsOf (s.slotImg k)) (s.newTi s.activeSecs (secsOf (s.slotImg k))) k ∧
        t.get .STR_CMD_STATUS_result = 0))

/-- R160 to R166 and R170 to R177. -/
def Obligations.StructureSwap : Prop :=
  (∀ (s : State) (mask : Nat), s.get .STR_CMD_STATUS_busy = 0 → s.regionsIn mask (fun st => decide (st = 1)) = true →
    shardSplit s.activeSecs (secsOf (s.slotImg 2)) mask = false → commonDiffers s.activeSecs (secsOf (s.slotImg 2)) = false →
    s.get .STR_SWAP_AT ≤ s.now + secUnits →
    exec (.swap mask) s = .next (((s.strBusy 2).set .STR_mask_req mask).set .STR_flip_at (max (s.get .STR_SWAP_AT) (s.now + 10 * usUnits)))) ∧
  (∀ s : State, s.get .STR_CMD_STATUS_busy = 1 → s.get .STR_CMD_STATUS_last_op = 2 → exec .epochFlip s = .next s.flipForward) ∧
  (∀ (s : State) (mask : Nat), s.get .STR_CMD_STATUS_busy = 0 →
    s.regionsIn mask (fun st => decide (st = 2 ∨ st = 3)) = true → commonDiffers s.activeSecs (secsOf (s.slotImg 2)) = false →
    exec (.rollback mask) s =
      .next ((((s.strBusy 3).set .STR_mask_req mask).set .STR_flip_at (s.now + 10 * usUnits)).set .STR_wd 0)) ∧
  (∀ s : State, s.get .STR_CMD_STATUS_busy = 1 → s.get .STR_CMD_STATUS_last_op = 3 → exec .epochFlipBack s = .next s.flipBack) ∧
  (∀ s : State, s.get .STR_CMD_STATUS_busy = 0 → s.get .STR_STATUS_staged_valid = 1 →
    s.regionsIn (s.get .STR_STATUS_changed_mask) (fun st => decide (st = 3)) = true →
    exec .commit s = .next (s.commitEnd (s.get .STR_STATUS_changed_mask))) ∧
  (∀ s : State, s.get .STR_CMD_STATUS_busy = 0 → s.regionsIn 0xFF (fun st => decide (st = 0 ∨ st = 1)) = true →
    exec .strAbort s = .next s.abortEnd) ∧
  (∀ (s : State) (n : Nat), s.get .STR_REGION_STATE_state 0 n = 2 ∨ s.get .STR_REGION_STATE_state 0 n = 4 →
    s.get .REG_pop n (1 - s.get .STR_REGION_STATE_epoch 0 n) = 0 → exec (.regionDrained n) s = .next (s.drainEnd n)) ∧
  (∀ (s t : State) (n : Nat), s.get .STR_REGION_STATE_state 0 n = 2 ∨ s.get .STR_REGION_STATE_state 0 n = 4 → s.get .STR_cold = 0 →
    t = s.advanceTo (s.get .STR_drain_from 0 n + max 100 (s.get .STR_DRAIN_LIMIT_limit_us) * usUnits) →
    s.get .REG_pop n (1 - s.get .STR_REGION_STATE_epoch 0 n) ≠ 0 →
    (∀ u, u = (t.set .STR_EVENTS_drain_expired 1).dropEpoch n (1 - s.get .STR_REGION_STATE_epoch 0 n) reasonEPOCH_EXPIRED
      (fun s => s.bump .STR_DROP_CNT_epoch_expired) → u.get .STR_cold = 0 →
      exec (.drainLimitExpiry n) s = .next (u.drainEnd n))) ∧
  (∀ (s : State) (n : Nat), s.get .STR_REGION_STATE_state 0 n = 4 → s.get .STR_rewrite 0 n = 1 →
    (s.rebuiltIn n = [] →
      exec (.drainBackRewriteDone n) s = .next ((s.set .STR_rewrite 0 0 n).set .STR_REGION_STATE_state 1 0 n).strMasks) ∧
    ((∃ x ∈ s.rebuiltIn n, s.newInUse x = true) → exec (.drainBackRewriteDone n) s = .next s)) ∧
  (∀ (s t : State), s.get .STR_STATUS_wdog_running = 1 → s.get .STR_CMD_STATUS_busy = 0 →
    t = ((s.advanceTo (s.get .STR_wdog_at)).wdogStop).set .STR_EVENTS_wdog_rollback 1 →
    exec .commitWatchdogExpiry s = .next ((((t.strBusy 3).set .STR_mask_req (s.get .STR_STATUS_swapped_mask)).set .STR_flip_at
      (t.now + 10 * usUnits)).set .STR_wd 1)) ∧
  (∀ (s : State) (m : Nat), (s.commitEnd m).get .STR_CMD_STATUS_result = 0 ∧ s.abortEnd.get .STR_CMD_STATUS_result = 0 ∧
    s.flipForward.get .STR_CMD_STATUS_busy = 0 ∧ s.flipBack.get .STR_CMD_STATUS_busy = 0)

/-- Table STRC-7, the opcodes that compute (R151 to R153), and a word whose predicate is 0, which does nothing but go on. -/
def Obligations.CellArithmetic : Prop :=
  ∀ (s u : State) (n cell h k w a b : Nat), u = s.cellBegin cell h → a = u.opA cell h w → b = u.opB cell h w →
    (s.cellReady n cell h 0x00 k w → exec (.nop n cell h) s = .next (u.cellThen cell h k w)) ∧
    (s.cellReady n cell h 0x34 k w → exec (.setEpochHint n cell h) s = .next (u.cellThen cell h k w)) ∧
    (s.cellReady n cell h 0x01 k w →
      exec (.mov n cell h) s = .next (((u.cellPut cell h (wD w) (wWidth w) b).opDrawn w).cellThen cell h k w)) ∧
    (s.cellReady n cell h 0x02 k w →
      exec (.add n cell h) s = .next (((u.cellPut cell h (wD w) (wWidth w) (a + b)).opDrawn w).cellThen cell h k w)) ∧
    (s.cellReady n cell h 0x03 k w → exec (.sub n cell h) s =
      .next (((u.cellPut cell h (wD w) (wWidth w) (a + 2 ^ wWidth w - b % 2 ^ wWidth w)).opDrawn w).cellThen cell h k w)) ∧
    (s.cellReady n cell h 0x04 k w →
      exec (.and n cell h) s = .next (((u.cellPut cell h (wD w) (wWidth w) (a &&& b)).opDrawn w).cellThen cell h k w)) ∧
    (s.cellReady n cell h 0x05 k w →
      exec (.or n cell h) s = .next (((u.cellPut cell h (wD w) (wWidth w) (a ||| b)).opDrawn w).cellThen cell h k w)) ∧
    (s.cellReady n cell h 0x06 k w →
      exec (.xor n cell h) s = .next (((u.cellPut cell h (wD w) (wWidth w) (a ^^^ b)).opDrawn w).cellThen cell h k w)) ∧
    (s.cellReady n cell h 0x07 k w →
      exec (.shl n cell h) s = .next (((u.cellPut cell h (wD w) (wWidth w) (a * 2 ^ (b % 64))).opDrawn w).cellThen cell h k w)) ∧
    (s.cellReady n cell h 0x08 k w →
      exec (.shr n cell h) s = .next (((u.cellPut cell h (wD w) (wWidth w) (a / 2 ^ (b % 64))).opDrawn w).cellThen cell h k w)) ∧
    (s.cellReady n cell h 0x09 k w →
      exec (.cmpEq n cell h) s = .next (((u.setb .CELL_pred (wPred w) (decide (a = b)) n cell).opDrawn w).cellThen cell h k w)) ∧
    (s.cellReady n cell h 0x0A k w →
      exec (.cmpLt n cell h) s = .next (((u.setb .CELL_pred (wPred w) (decide (a < b)) n cell).opDrawn w).cellThen cell h k w)) ∧
    (s.cellAt n cell h 0x02 = some (k, w) → (wPredEn w && !s.pred n cell (wPred w)) = true →
      exec (.add n cell h) s = .next (u.cellThen cell h k w))

/-- Table STRC-7, the opcodes that act; the value of HASH is the model's free function (log entry 5). -/
def Obligations.CellActions : Prop :=
  ∀ (s u : State) (n cell h k w a : Nat), u = s.cellBegin cell h → a = u.opA cell h w →
    (s.cellReady n cell h 0x0B k w → exec (.hash n cell h) s =
      .next (((u.cellPut cell h (wD w) 32 (Config.cellHash a (wImm w))).operandDrawn (wA w) (wWidth w)).cellThen cell h k w)) ∧
    (s.cellReady n cell h 0x23 k w → exec (.meter n cell h) s =
      .next ((((u.meterApply n (wRef w % 8192) h (a % 4)).1.cellPut cell h (wD w) (wWidth w)
        (u.meterApply n (wRef w % 8192) h (a % 4)).2).operandDrawn (wA w) (wWidth w)).cellThen cell h k w)) ∧
    (s.cellReady n cell h 0x30 k w → exec (.punt n cell h) s = .next (((u.fragRecord h).puntTo h (wRef w) 0).cellThen cell h k w)) ∧
    (s.cellReady n cell h 0x31 k w →
      exec (.drop n cell h) s = .next (((u.fragRecord h).dropWith h (wImm w % 65536) 0x19).cellThen cell h k w)) ∧
    (s.cellReady n cell h 0x32 k w → exec (.forward n cell h) s =
      .next ((((u.cellPut cell h (4096 + 988) 22 a).cellPut cell h (4096 + 1010) 1 1).operandDrawn (wA w) (wWidth w)).cellThen cell h k w)) ∧
    (s.cellReady n cell h 0x33 k w → exec (.setTsOp n cell h) s =
      .next (((u.cellPut cell h (4096 + 976) 3 (wImm w)).cellPut cell h (4096 + 979) 9 (wImm w / 65536)).cellThen cell h k w))

/-- R188: operand places. An operand at b of the vector lies at bits 4096 - b - w and up of the number that holds it; one of the metadata
at b - 4096 and up. -/
def Obligations.OperandPlacement : Prop :=
  (∀ phv md b w v fr : Nat, b + w ≤ 4096 → operandOf (putBits phv (4096 - b - w) w v) md b w fr = v % 2 ^ w) ∧
  (∀ phv md b w v fr : Nat, 4096 ≤ b → b + w ≤ 5120 → operandOf phv (putBits md (b - 4096) w v) b w fr = v % 2 ^ w) ∧
  (∀ phv md b w v fr b' w' : Nat, b + w ≤ 4096 → b' + w' ≤ 4096 → (b' + w' ≤ b ∨ b + w ≤ b') →
    operandOf (putBits phv (4096 - b - w) w v) md b' w' fr = operandOf phv md b' w' fr) ∧
  (∀ phv md b w v fr b' w' : Nat, 4096 ≤ b → b + w ≤ 5120 → 4096 ≤ b' → b' + w' ≤ 5120 → (b' + w' ≤ b ∨ b + w ≤ b') →
    operandOf phv (putBits md (b - 4096) w v) b' w' fr = operandOf phv md b' w' fr)

/-- R36, R49 and R184 to R195: the region's arbiter, the parser, a tree-walk stage and the pipeline's end. -/
def Obligations.ParseAndWalk : Prop :=
  (∀ (s s1 u v : State) (n h reason : Nat) (w : Walk) (d : List Nat), s.get .PKT_live 0 h = 1 → s.bufRoom n h = true →
    s.arbPick n = (s1, some h) → u = (s1.arbGrant n h).clsSnap n h → d = u.pktSec h 1 →
    pgWalk d (u.lget .pktBytes 0 h) (decide (u.pktCls h 5 1 = 0)) (u.freeVal 32) 257
      (if d = [] then 0xFFFE else leAt d (4 + 2 * u.pktInPort h) 2) ⟨0, 0, [], false, false, [], 0⟩ = (reason, w) →
    v = u.drew.parseWrite h reason w →
    (reason = 0 → exec (.packetParse n h) s = .next ((v.set .PKT_nstage 0 0 h).settle h 33)) ∧
    (reason ≠ 0 → exec (.packetParse n h) s = .next ((v.bump .PAR_FAIL_CNT_count n reason).defaultAct h true))) ∧
  (∀ (s : State) (n h : Nat), s.bufRoom n h = false ∨ (s.arbPick n).2 ≠ some h → exec (.packetParse n h) s = .next s) ∧
  (∀ (s : State) (n h : Nat), s.atEngine n h 0 = true → s.get .PKT_fragkey 0 h = 0 → s.get .PKT_stage 0 h = 1 →
    exec (.treeWalk n h) s = .next ((s.treeStage n h).stageNext h)) ∧
  (∀ (s : State) (n h : Nat), s.get .PKT_follow 0 h = 0 → s.get .PKT_outer 0 h = 0 → s.treeStage n h = s.treeWalk n h 1) ∧
  (∀ (s : State) (n h : Nat), s.get .PKT_live 0 h = 1 → s.get .PKT_in_region 0 h = 1 → s.get .PKT_region 0 h = n →
    s.get .PKT_stage 0 h = 1 → s.get .PKT_puntr 0 h = 0 → s.atStage n h = none →
    ((s.fragRecord h).meta_ h 1010 1 = 1 → exec (.pipelineExit n h) s = .next ((s.fragRecord h).forwardOut h)) ∧
    ((s.fragRecord h).meta_ h 1010 1 = 0 → (s.fragRecord h).get .PKT_work 0 h = 0 →
      exec (.pipelineExit n h) s = .next ((s.fragRecord h).defaultAct h false)))

/-- R196, R199, R204, R205 and R211. -/
def Obligations.FragmentsAndPolicers : Prop :=
  (∀ (s t : State) (n h : Nat), s.get .PKT_live 0 h = 1 → s.get .PKT_stage 0 h = 2 → s.get .PKT_region 0 h = n →
    t = s.advanceTo (s.get .PKT_held_at 0 h + s.get .PKT_clsf 0 h / 65536 * usUnits) →
    exec (.fragHoldExpiry n h) s =
      .next ((((t.set .PKT_stage 1 0 h).set .PKT_outer 1 0 h).bump .CLS_FRAG_CNT0_hold_expired n).fragStat n)) ∧
  (∀ (s t : State) (n dig : Nat), s.get .FRE_on n dig = 1 →
    t = s.advanceTo (s.get .FRE_at n dig + max 1 (s.get .CLSR_frag n % 65536) * usUnits) →
    exec (.fragEntryExpiry n dig) s = .next ((t.fragRemove n dig).fragStat n)) ∧
  (∀ (s : State) (n : Nat), ∃ t, exec (.clsRegisterPropagate n) s = .next (t.set .CLSR_frag
      (s.get .CLS_FRAG_CFG_lifetime_us + 65536 * s.get .CLS_FRAG_CFG_hold_us) n) ∧
    t = s.each (List.range 16) (fun d s => s.set .CLSR_port
      (s.get .CLS_PORT_DEF_nomatch_act 0 d + 4 * s.get .CLS_PORT_DEF_parsefail_act 0 d + 16 * s.get .CLS_PORT_DEF_secondary 0 d +
        32 * s.get .CLS_PORT_DEF_frag_mode 0 d + 64 * s.get .CLS_PORT_DEF_punt_q 0 d + 2 ^ 22 * s.get .CLS_PORT_DEST_index 0 d +
        2 ^ 38 * s.get .CLS_PORT_DEST_kind 0 d + 2 ^ 39 * s.get .CLS_PORT_DEST_tclass 0 d) n d)) ∧
  (∀ (s : State) (n k v : Nat), ∃ t, exec (.policerApply n k v) s = .next t ∧
    t.get .POL_cir n k = s.get .CLS_POLICER_cir n k % 2 ^ 24 ∧ t.get .POL_cbs n k = s.get .CLS_POLICER_cbs n k % 2 ^ 24 ∧
    t.get .POL_pbs n k = v % 2 ^ 24 ∧ t.get .POL_en n k = s.get .CLS_POLICER_enable n k % 2 ∧
    t.get .POL_tc n k = s.get .CLS_POLICER_cbs n k % 2 ^ 24 * 32000 ∧ t.get .POL_tp n k = v % 2 ^ 24 * 32000) ∧
  (∀ s : State, exec .puntBucketRecompute s = .next s.puntRecompute)

/-- Table EXM-4 and Table EXM-7: the commands on one key, and NEXT. -/
def Obligations.TableCommands : Prop :=
  (∀ (s : State) (c t ti key : Nat) (l : List Nat), s.keyReady c t ti key l →
    (∀ e, s.emEntry ti key = some e → exec (.exmSearch c t) s =
      .next ((((s.set .EXM_CH_hdr e 0 c).chPut .EXM_CH_value 8 c (layVal l) (exeVal l e)).set .EXM_CH_busy 0 0 c).set
        .EXM_CH_result 0 0 c)) ∧
    (s.emEntry ti key = none → exec (.exmSearch c t) s = .next (s.exmRes c 1)) ∧
    (∀ e, s.emEntry ti key = some e → exec (.exmInsert c t) s = .next (s.exmRes c 2)) ∧
    (∀ s', s.emEntry ti key = none → s.quotaFull t ti key = false →
      s.emInsert t ti key (exeMake (layKey l) (1 + bitsOf (s.get .EXM_CH_hdr 0 c) 1 1 * 2 + bitsOf (s.get .EXM_CH_hdr 0 c) 4 5 * 16 +
        s.emStamp l * 2 ^ 16) key (s.chWords .EXM_CH_value 8 c % 2 ^ (8 * layVal l))) = some s' →
      exec (.exmInsert c t) s = .next ((s'.emStamped l).exmRes c 0)) ∧
    (∀ e, s.emEntry ti key = some e → exec (.exmUpdate c t false) s = .next (((s.emEdit t ti key (fun e =>
      exeMake (layKey l) (putBits (putBits (e % 2 ^ 32) 1 1 (bitsOf (s.get .EXM_CH_hdr 0 c) 1 1)) 4 5 (bitsOf (s.get .EXM_CH_hdr 0 c) 4 5))
        key (s.chWords .EXM_CH_value 8 c % 2 ^ (8 * layVal l)))).emTouch t ti key).exmRes c 0)) ∧
    (∀ e, s.emEntry ti key = some e → exec (.exmDelete c t) s = .next ((s.emDelete t ti key).exmRes c 0))) ∧
  (∀ (s : State) (c t ti pl k : Nat) (l : List Nat) (r : List (Nat × Nat)), s.tableReady t ti l →
    s.exmFrom ti (s.get .EXM_CH_cursor 0 c) = (pl, k) :: r →
    exec (.exmNext c t) s = .next ((((s.exmShow c l (s.exe pl (s.emLive ti) k)).chPut .EXM_CH_key 7 c (layKey l)
      (exeKey (layKey l) (s.exe pl (s.emLive ti) k))).set .EXM_CH_cursor (cursorPlace pl * 2 ^ 28 + (k + 1)) 0 c).exmRes c 0)) ∧
  (∀ (s : State) (c t ti : Nat) (l : List Nat), s.tableReady t ti l → s.exmFrom ti (s.get .EXM_CH_cursor 0 c) = [] →
    exec (.exmNext c t) s = .next (s.exmRes c 7)) ∧
  (∀ (s : State) (c t : Nat), s.liveTi t = none → exec (.exmSearch c t) s = .next (s.exmRes c 5))

/-- R223, R227 to R229, R232 and R235. -/
def Obligations.TableRebuild : Prop :=
  (∀ (s : State) (c t ti : Nat) (l : List Nat), s.tableReady t ti l →
    (∀ st : Bool, exec (.flushByPort c t st) s =
      .next ((s.exmFlush t ti st (fun e => decide (bitsOf e 4 5 = s.get .EXM_CH_key 0 (c * 7) % 32))).exmRes c 0)) ∧
    (∀ st : Bool, layTen l ≠ 0xFF → exec (.flushByTenant c t st) s =
      .next ((s.exmFlush t ti st (fun e => decide (bitsOf e (32 + 8 * layTen l) 8 = s.get .EXM_CH_key 0 (c * 7) % 256))).exmRes c 0)) ∧
    (s.get .EXM_TABLE_STAT_shadow 0 t = 0 → s.get .EXM_CH_key 0 (c * 7 + 2) < 26 →
      s.shadowRoom l (s.get .EXM_CH_key 0 (c * 7 + 2)) = true → ∀ u, u = s.emClear (s.emShadow ti) (fun _ => true) →
      exec (.shadowOpen c t) s = .next ((((((u.set .EXI_seed0 (s.get .EXM_CH_key 0 (c * 7)) 0 (s.emShadow ti)).set .EXI_seed1
        (s.get .EXM_CH_key 0 (c * 7 + 1)) 0 (s.emShadow ti)).set .EXI_log2 (s.get .EXM_CH_key 0 (c * 7 + 2)) 0 (s.emShadow ti)).set
        .EXM_TABLE_STAT_shadow 1 0 t).set .EXM_sh_end 0 0 t).exmRes c 0)) ∧
    (s.get .EXM_TABLE_STAT_shadow 0 t = 1 → (s.exmFrom ti (s.get .EXM_CH_cursor 0 c)).length ≤ 4096 →
      exec (.shadowCopy c t) s = .next (((s.each ((s.exmFrom ti (s.get .EXM_CH_cursor 0 c)).take 4096)
        (fun x s => s.shadowCopy1 t ti x)).set .EXM_sh_end 1 0 t).exmRes c 7)) ∧
    (s.get .EXM_TABLE_STAT_shadow 0 t = 1 → s.get .EXM_sh_end 0 t = 1 → ∀ u, u = s.emClear (s.emLive ti) (fun _ => true) →
      exec (.shadowSwap c t) s = .next ((((((u.set .EXI_half (1 - u.get .EXI_half 0 ti) 0 ti).set .EXM_TABLE_STAT_shadow 0 0 t).set
        .EXM_sh_end 0 0 t).set .EXM_TABLE_STAT_rehash_req 0 0 t).emStat t).exmRes c 0)) ∧
    (s.get .EXM_TABLE_STAT_shadow 0 t ≠ 0 → exec (.shadowDiscard c t) s = .next ((s.shadowDrop t ti).exmRes c 0)) ∧
    (s.get .EXM_TABLE_STAT_shadow 0 t = 0 → exec (.shadowSwap c t) s = .next (s.exmRes c 9) ∧
      exec (.shadowDiscard c t) s = .next (s.exmRes c 9) ∧ exec (.shadowCopy c t) s = .next (s.exmRes c 9))) ∧
  (∀ (s : State) (pl i : Nat), s.get .DAMP_at pl i ≠ 0 → exec (.dampingRecordExpiry pl i) s =
    .next ((((s.advanceTo (s.get .DAMP_at pl i)).set .DAMP_at 0 pl i).set .DAMP_blk 0 pl i).set .DAMP_cand 0 pl i)) ∧
  (∀ (s : State) (t ti pl slot e : Nat) (l : List Nat), s.tableReady t ti l → e = s.exe pl (s.emLive ti) slot → layAge l ≠ 0xFF →
    (layPlaces l).contains pl = true → s.placeUp pl = true → e.testBit 0 = true → e.testBit 1 = false →
    layMaxAge l < (s.emStamp l + 65536 - bitsOf e 16 16) % 65536 → layFlag l 2 = false →
    exec (.ageingScan t pl slot) s = .next (s.emDelete t ti (exeKey (layKey l) e)))

/-- R219 to R221, R234 and R244: the table opcodes of Table STRC-7. -/
def Obligations.CellTables : Prop :=
  ∀ (s u : State) (n cell h k w : Nat), u = s.cellBegin cell h →
    (s.cellReady n cell h 0x20 k w → exec (.lookupEm n cell h) s = .next ((u.emLookup n cell h w).cellThen cell h k w)) ∧
    (∀ ti key x, u.pktTi h (wRef w) = some ti → key = u.cellKey cell h (wA w) (layKey (u.lay ti)) →
      u.placeUp (lookupPlace (u.lay ti) n key) = true → layFlag (u.lay ti) 1 = false →
      u.emFind (lookupPlace (u.lay ti) n key) (u.emLive ti) (layKey (u.lay ti)) key = some x →
      u.emLookup n cell h w = (u.cellRes n cell (wRes w) 1).cellPut cell h (4096 + 512) 256
        (1 + bitsOf (u.exe (lookupPlace (u.lay ti) n key) (u.emLive ti) x) 4 5 * 4 +
          exeVal (u.lay ti) (u.exe (lookupPlace (u.lay ti) n key) (u.emLive ti) x) * 2 ^ 32)) ∧
    (∀ ti key, u.pktTi h (wRef w) = some ti → key = u.cellKey cell h (wA w) (layKey (u.lay ti)) →
      u.placeUp (lookupPlace (u.lay ti) n key) = true →
      u.emFind (lookupPlace (u.lay ti) n key) (u.emLive ti) (layKey (u.lay ti)) key = none →
      u.emLookup n cell h w = (u.cellRes n cell (wRes w) 0).cellPut cell h (4096 + 512) 256 0) ∧
    (∀ ti key, u.pktTi h (wRef w) = some ti → key = u.cellKey cell h (wA w) (layKey (u.lay ti)) →
      u.placeUp (lookupPlace (u.lay ti) n key) = false →
      u.emLookup n cell h w =
        ((u.cellRes n cell (wRes w) 2).cellPut cell h (4096 + 512) 256 2).bump .EXM_REGION_CNT_shard_down_miss n) ∧
    (s.cellReady n cell h 0x22 k w → ∀ ti, u.pktTi h (wRef w) = some ti → u.liveTi (wRef w) = some ti →
      exec (.learn n cell h) s = .next ((u.emLearn (wRef w) ti (u.cellKey cell h (wA w) (layKey (u.lay ti)))
        (u.cellKey cell h (wB w) (layVal (u.lay ti))) (u.pktInPort h)).cellThen cell h k w)) ∧
    (s.cellReady n cell h 0x22 k w → ∀ ti, u.pktTi h (wRef w) = some ti → u.liveTi (wRef w) ≠ some ti →
      exec (.learn n cell h) s = .next ((u.bump .STR_DROP_CNT_stale_learns).cellThen cell h k w)) ∧
    (s.cellReady n cell h 0x21 k w → ∀ bad lost ti m v r, u.pktTi h (wRef w) = some ti → m = u.movesDue 8 →
      m.tcSearch (fun _ _ => true) n ti (m.tcCellKey cell h w (m.lay ti)) (m.pktTenant h) bad lost false 3 = (v, r) →
      exec (.lookupTcam n cell h bad lost) s = .next (((v.cellRes n cell (wRes w)
        (b2n r.unit.isSome + 2 * b2n r.multi + 4 * b2n r.failed)).cellPut cell h (4096 + 768) 112 (v.tcMeta n r)).cellThen cell h k w))

/-- R240, R243, R248 and R250 to R253: the TCAM commands of Table ASOC-4. -/
def Obligations.TcamCommands : Prop :=
  (∀ (s0 s : State) (c t ti n : Nat) (r : List Nat), s = s0.movesDue c → s.tcamReady t ti n r →
    (∀ bad lost u' x, s.tcSearch (fun _ _ => true) n ti (s.tcmKey c (s.lay ti)) 0 bad lost false 3 = (u', x) →
      exec (.tcmSearch c t bad lost) s0 = .next (u'.tcmHit c n x)) ∧
    (∀ bad lost u' x cp cu, cp = s.get .TCM_CH_cur_priority 0 c → cu = s.get .TCM_CH_cur_unit 0 c →
      s.tcSearch (fun s u => decide (cp < s.get .TCE_prio n u ∨ (cp = s.get .TCE_prio n u ∧ cu < u))) n ti
        (s.tcmKey c (s.lay ti)) 0 bad lost false 3 = (u', x) → exec (.tcmStep c t bad lost) s0 = .next (u'.tcmHit c n x)) ∧
    (∀ u w, u = s.get .TCM_CH_unit 0 c → w = s.get .TCM_CH_width 0 c → tcIndexOk (s.lay ti) u w = true →
      s.tcOccupied n u (unitsOf w) = false → exec (.tcmWrite c t) s0 =
        .next ((s.each (n :: r) (fun m s => s.tcPut m ti u w (s.get .TCM_CH_priority 0 c) (s.get .TCM_CH_entry_result 0 c)
          (tcKey (unitsOf w) (s.tcmBytes .TCM_CH_key c)) (tcKey (unitsOf w) (s.tcmBytes .TCM_CH_mask c)))).tcmRes c 0)) ∧
    (tcIndexOk (s.lay ti) (s.get .TCM_CH_unit 0 c) (s.get .TCM_CH_width 0 c) = false →
      exec (.tcmWrite c t) s0 = .next (s.tcmRes c 3))) ∧
  (∀ (s0 s : State) (c t ti n : Nat) (r : List Nat) (u : Nat), s = s0.movesDue c → s.entryReady c t ti n r u →
    exec (.tcmUpdate c t) s0 = .next ((s.each (n :: r) (fun m s => s.when (s.tcHas m ti u) (fun s =>
      (s.set .TCE_prio (s.get .TCM_CH_priority 0 c) m u).set .TCE_res (s.get .TCM_CH_entry_result 0 c) m u))).tcmRes c 0) ∧
    exec (.tcmInvalidate c t) s0 =
      .next ((s.each (n :: r) (fun m s => s.when (s.tcHas m ti u) (fun s => s.tcRemove m u))).tcmRes c 0) ∧
    (s.get .TCE_bad n u = 0 → exec (.tcmRead c t) s0 =
      .next (((((((((s.set .TCM_CH_width (s.get .TCE_width n u) 0 c).set .TCM_CH_quarantined (s.get .TCE_quar n u) 0 c).set
        .TCM_CH_copy_bad 0 0 c).set .TCM_CH_priority (s.get .TCE_prio n u) 0 c).set .TCM_CH_entry_result (s.get .TCE_res n u) 0 c
        ).tcmShow .TCM_CH_key c (s.get .TCE_key n u)).tcmShow .TCM_CH_mask c (s.get .TCE_mask n u))).tcmRes c 0)) ∧
    (∀ v, v = s.get .TCM_CH_dst 0 c → tcIndexOk (s.lay ti) v (s.get .TCE_width n u) = true →
      s.tcOccupied n v (unitsOf (s.get .TCE_width n u)) = false →
      exec (.tcmMove c t) s0 = .next ((s.each (n :: r) (fun m s => s.tcMove1 m ti u v)).moveOpen c ti u v))) ∧
  (∀ s : State, s.keysOf .TCM_mv_on = [] → ∀ c, s.movesDue c = s) ∧
  (∀ (s : State) (c ti u v : Nat), s.keysOf .TCM_mv_on = [(0, c)] → s.get .TCM_mv_inst 0 c = ti → s.get .TCM_mv_src 0 c = u →
    s.get .TCM_mv_dst 0 c = v → s.movesDue c = ((((s.each (s.tcRegions ti) (fun n s =>
      s.when (decide (s.get .TCE_inst n u = ti + 1) && decide (s.get .TCE_inst n v = ti + 1)) (·.tcRemove n u))).set .TCM_mv_on 0 0 c).set
        .TCM_CH_busy 0 0 c).set .TCM_CH_result 0 0 c)) ∧
  (∀ (s : State) (n u : Nat), s.get .TCE_inst n u ≠ 0 → s.get .TCE_quar n u ≠ 0 → s.get .TCE_stuck n u ≠ 1 →
    exec (.tcamRepair n u true false) s = .next (s.set .TCE_quar 0 n u) ∧
    (∀ s', s' = ((s.set .TCE_stuck 1 n u).set .TCE_bad 0 n u).tcStuckStat n →
      exec (.tcamRepair n u false false) s = .next ((s'.when (decide (s'.get .TCM_QUAR_LOG_unit n = u)) (·.set .TCM_QUAR_LOG_stuck 1 n)).report
          { src := 0x0C, cls := .contained, die := 4 + n / 2, region := n })))

/-- R255 to R263: pattern sets. -/
def Obligations.PatternSets : Prop :=
  (∀ (s : State) (c set mask : Nat) (hd b : List Nat), s.maskOnline mask ≠ [] → inHbm (s.get .PAT_CH_src 0 c) 96 = true →
    hd = s.mread (s.get .PAT_CH_src 0 c) 96 → psHeadOk hd = true → inHbm (s.get .PAT_CH_src 0 c) (psTotal hd) = true →
    b = s.mread (s.get .PAT_CH_src 0 c) (psTotal hd) → psBodyOk b = true →
    (bitList 8 mask).any (fun n => decide (2 ^ 22 < s.patMem n + b.length)) = false →
    exec (.loadSet c set mask) s = .next (if sha384 (b.drop 96) = slice b 48 48 then
      (s.each (s.maskOnline mask) (fun n s => s.lset .patSet b n (2 * set + 1))).patRes c 0 else s.patRes c 0xA)) ∧
  (∀ (s : State) (c set m : Nat), m ≠ 0 →
    m = (List.range 8).foldl (fun m n => if s.lget .patSet n (2 * set + 1) = [] then m else m + 2 ^ n) 0 →
    exec (.activateSet c set) s =
      .next ((s.lset .patPend (s.lget .patPend 0 set ++ [0, s.now + 10 * usUnits, m]) 0 set).patRes c 0)) ∧
  (∀ (s : State) (set t mask : Nat) (rest : List Nat),
    (s.lget .patPend 0 set = 0 :: t :: mask :: rest → exec (.setActivation set) s =
      .next (((s.advanceTo t).each (bitList 8 mask) (fun n s => s.setActivate n set)).lset .patPend rest 0 set)) ∧
    (s.lget .patPend 0 set = 1 :: t :: mask :: rest → exec (.setActivation set) s = .next (((s.advanceTo t).each (bitList 8 mask)
      (fun n s => (s.lset .patSet [] n (2 * set)).lset .patSet [] n (2 * set + 1))).lset .patPend rest 0 set))) ∧
  (∀ (s : State) (c set mask n : Nat), n ∈ s.maskOnline mask →
    (s.lget .patSet n (2 * set) ≠ [] ∨ s.lget .patSet n (2 * set + 1) ≠ []) →
    exec (.deleteSet c set mask) s =
      .next ((s.lset .patPend (s.lget .patPend 0 set ++ [1, s.now + 10 * usUnits, mask % 256]) 0 set).patRes c 0)) ∧
  (∀ (s : State) (c set mask n len most : Nat) (r : List Nat) (b : List Nat), bitList 8 mask = n :: r → s.online n = true →
    s.get .PAT_REGION_STAT_bypass_active n = 0 → len = s.get .PAT_CH_length 0 c → len ≤ 65536 →
    most = s.get .PAT_CH_max_reports 0 c → most ≤ 4096 →
    inHbm (s.get .PAT_CH_src 0 c) len = true → inHbm (s.get .PAT_CH_dst 0 c) (8 * most) = true → s.psActive n set = some b →
    ∀ rs, psScan b (s.freeVal 16) 0 (s.mread (s.get .PAT_CH_src 0 c) len) = (rs, false) →
    exec (.patScan c set mask) s =
      .next ((((s.drew.mwrite (s.get .PAT_CH_dst 0 c) ((rs.take most).flatMap reportBytes)).set
        .PAT_CH_count (min most rs.length) 0 c).set .PAT_CH_more (b2n (most < rs.length)) 0 c).patRes c 0)) ∧
  (∀ (s : State) (n h : Nat), s.atEngine n h 4 = true → exec (.automataScan n h) s = .next (s.patStage n h)) ∧
  (∀ (s : State) (n e : Nat), exec (.patEngine n e) s =
    .next (((s.setb .PAT_REGION_STAT_engine_ok e false n).patBypass n).report
      { src := 0x0E, cls := .contained, die := 4 + n / 2, region := n }))

/-- R266, R272, R274, R307 and R120: the states of a port, PAUSE and PFC. -/
def Obligations.PortStates : Prop :=
  (∀ (s : State) (d p : Nat), s.portOk d p = true →
    (s.get .ETH_PORT_STATUS_state d p = ethDISABLED → s.get .BOOT_STATUS_recovery = 0 →
      (s.ethClk d = true → exec (.portEnable d p) s =
        .next ((s.set .ETH_PORT_CFG_enable 1 d p).ethTrain d p)) ∧
      (s.ethClk d = false → exec (.portEnable d p) s =
        .next ((((s.set .ETH_PORT_CFG_enable 1 d p).set .ETH_PORT_STATUS_state ethDOWN d p).set .ETH_clk_down 1 d p).set
          .ETH_down_at s.now d p))) ∧
    (exec (.portDisable d p) s = .next (((((((s.set .ETH_PORT_CFG_enable 0 d p).leaveUp d p).macDiscard d p).portDiscardAll d p).set
      .ETH_PORT_STATUS_state ethDISABLED d p).set .ETH_tx_remote_fault 0 d p).set .ETH_clk_down 0 d p
        |>.set .ETH_PORT_STATUS_remote_fault 0 d p)) ∧
    (s.get .ETH_PORT_STATUS_state d p = ethTRAINING →
      exec (.portLinkUp d p) s = .next ((((((((s.set .ETH_PORT_STATUS_state ethUP d p).set .ETH_PORT_STATUS_remote_fault 0 d p).set
        .ETH_tx_remote_fault (b2n s.fatal) d p).set .ETH_discard 0 d p).set .TSU_PORT_STATUS_cal_done 0 d p).set .TSU_cal_busy (1 - s.get .TSU_tdc d) d p).set
          .TSU_cal_at s.now d p).ncsiAen (8 * d + p) true) ∧
      exec (.trainingTimeout d p) s = .next (((s.advanceTo (s.get .ETH_train_at d p + 500 * msUnits)).bump .ETH_PORT_STATUS_train_fail d p).ethTrain d p)) ∧
    (s.get .ETH_PORT_STATUS_state d p = ethUP →
      exec (.linkFault d p) s = .next (((((s.leaveUp d p).macDiscard d p).set .ETH_tx_remote_fault 1 d p).set
        .ETH_PORT_STATUS_state ethDOWN d p).downHold0 d p) ∧
      exec (.remoteFault d p) s = .next ((((((s.leaveUp d p).set .ETH_PORT_STATUS_remote_fault 1 d p).set
        .ETH_tx_remote_fault (b2n s.fatal) d p).set
          .ETH_PORT_STATUS_state ethDOWN d p)).downHold0 d p)) ∧
    (s.get .ETH_PORT_STATUS_state d p = ethDOWN → s.get .ETH_clk_down d p = 0 → exec (.downRetrain d p) s =
      .next (((s.advanceTo (s.get .ETH_down_at d p + 10 * msUnits)).ethTrain d p).set
        .ETH_PORT_STATUS_remote_fault 0 d p)) ∧
    ((s.get .ETH_PORT_STATUS_state d p = ethTRAINING ∨ s.get .ETH_PORT_STATUS_state d p = ethDOWN) → s.get .ETH_discard d p = 0 →
      exec (.downHoldExpiry d p) s =
        .next ((s.advanceTo (s.get .ETH_down_at d p + s.get .SCH_PORT_CFG_down_hold_ms d p * msUnits)).portDiscardAll d p))) ∧
  (∀ (s : State) (d p : Nat), s.ethTrain d p = (s.set .ETH_PORT_STATUS_state ethTRAINING d p).set .ETH_train_at s.now d p) ∧
  ((∀ (s : State) (d p t mask : Nat) (pfc : Bool) (q : List Nat), s.portOk d p = true → s.get .ETH_PORT_STATUS_state d p = ethUP →
    exec (.pfcReceive d p t pfc mask q) s =
      .next ((s.advanceTo t).flowTake d p pfc mask (fun c => q.getD (if pfc then c else 0) 0 % 65536))) ∧
  (∀ (s u : State) (d p q : Nat), u = s.ethCount d p 5 1 → u.get .ETH_PORT_CFG_fc_mode d p = 1 → 0 < q →
    s.flowTake d p false 0xFF (fun _ => q) = u.each (List.range 8) (fun c u =>
      (u.set .ETH_stop 1 d (p * 8 + c)).set .ETH_stop_until (u.now + u.quantaTime d q) d (p * 8 + c))) ∧
  (∀ (s : State) (d p c : Nat), s.get .ETH_stop d (p * 8 + c) ≠ 0 → exec (.pauseExpiry d p c) s =
    .next (((s.advanceTo (s.get .ETH_stop_until d (p * 8 + c))).set .ETH_stop 0 d (p * 8 + c)).set .ETH_stop_until 0 d (p * 8 + c))) ∧
  (∀ (s : State) (d p c lim : Nat), s.get .ETH_xoff d (p * 8 + c) ≠ 0 →
    lim = (s.get .ETH_PFC_CLASS_xoff_thr d (p * 8 + c) - s.get .ETH_PFC_CLASS_xon_gap d (p * 8 + c)) * 1024 →
    (s.xoffOcc d p c < lim → exec (.pfcRefresh d p c) s =
      .next (((s.set .ETH_xoff 0 d (p * 8 + c)).set .ETH_xoff_at 0 d (p * 8 + c)).flowSend d p c 0)) ∧
    (lim ≤ s.xoffOcc d p c → ∀ u, u = s.advanceTo (s.get .ETH_xoff_at d (p * 8 + c) + 20 * usUnits) →
      exec (.pfcRefresh d p c) s = .next ((u.set .ETH_xoff_at u.now d (p * 8 + c)).flowSend d p c 0xFFFF))))

/-- R271 and R275: the checks in their order. -/
def Obligations.FrameReceive : Prop :=
  (∀ (s u : State) (d p t x y : Nat) (b : List Nat), s.portOk d p = true → s.get .ETH_PORT_STATUS_state d p = ethUP →
    u = (s.advanceTo t).fecCount d p x y →
    exec (.frameReceive d p t true b x y) s = .next (u.ethCount d p 18 1) ∧
    (4 ≤ b.length → leNat (b.drop (b.length - 4)) ≠ crc32 (b.take (b.length - 4)) → exec (.frameReceive d p t false b x y) s =
      .next (u.ethCount d p (if b.length < 64 then 16 else if u.maxFrame d p + 1024 < b.length then 17 else 13) 1)) ∧
    (4 ≤ b.length → leNat (b.drop (b.length - 4)) = crc32 (b.take (b.length - 4)) →
      (b.length < 64 → exec (.frameReceive d p t false b x y) s = .next (u.ethCount d p 14 1)) ∧
      (64 ≤ b.length → u.maxFrame d p < b.length → exec (.frameReceive d p t false b x y) s = .next (u.ethCount d p 15 1)) ∧
      (64 ≤ b.length → b.length ≤ u.maxFrame d p → u.get .ETH_PORT_CFG_macsec_en d p = 0 →
        flowFrame (b.take (b.length - 4)) = none →
        exec (.frameReceive d p t false b x y) s = .next (u.rxPass d p (b.take (b.length - 4)) (u.rxTuple d p) b.length))) ∧
    (∀ tuple wire, u.rxRoom d p (rxClass b) (b.length + 4) = none → u.rxPass d p b tuple wire = u.ethCount d p 22 1)) ∧
  (∀ (s : State) (d p x y : Nat), x ≠ 0 → y ≠ 0 → s.fecCount d p x y = (s.ethCount d p 19 x).ethCount d p 20 y)

/-- R276 to R278 and R291. -/
def Obligations.FrameSend : Prop :=
  ∀ (s u v : State) (d p t : Nat), s.macUp d p = true → u = s.advanceTo t →
    (∀ c, u.flowNext d p = some c →
      exec (.macFrameStart d p t) s = .next (u.flowSend d p c (u.get .ETH_fc_wait d (p * 8 + c) - 1))) ∧
    (u.flowNext d p = none → u.ncsiMay d p = true → exec (.macFrameStart d p t) s = .next (u.ncsiSend d p)) ∧
    (∀ h b, u.flowNext d p = none → u.ncsiMay d p = false → u.macNext d p = some h →
      (u.lset .mac ((u.lget .mac d p).erase h) d p).macBytes d p h = (v, some b) → exec (.macFrameStart d p t) s =
        .next (((((v.emit .frame [d, p] (withFcs b)).txCount d p b).silLeft h).txFate h 0 0 0).freePkt h)) ∧
    (u.flowNext d p = none → u.ncsiMay d p = false → u.macNext d p = none → exec (.macFrameStart d p t) s = .next u) ∧
    (∀ h b k, u.macNext d p = some h → u.get .PKT_launch 0 h = 0 → u.tsOp h = 0 →
      64 * u.get .ETH_PORT_STATUS_threshold d p ≤ k → k + 4 < u.get .PKT_L 0 h →
      (u.lset .mac ((u.lget .mac d p).erase h) d p).macBytes d p h = (v, some b) → exec (.txUnderrun d p k t) s =
        .next ((((((v.emit .frame [d, p] (b.take k ++ leBytes 4 (0xFFFFFFFF - crc32 (b.take k)))).ethCount d p 45 1).set
          .ETH_PORT_STATUS_threshold (min (u.get .ETH_PORT_STATUS_threshold d p + 2) 64) d p).set .PKT_dt64 0 0 h)).dropPkt h
            reasonUNDERRUN))

/-- R267, R279, R281, R287, R288, R389 and R398. -/
def Obligations.PortSettings : Prop :=
  (∀ (s u : State) (d v : Nat), u = s.when (v.testBit 2) (·.set .ETH_MODE_mode_rejected 0 d) →
    ((∀ p, p < 8 → u.get .ETH_PORT_STATUS_state d p = ethDISABLED) →
      (∀ w, u.get .ETH_MODE_mode d ≠ v % 4 → w = ((u.set .ETH_MODE_mode v d).each (List.range 8) (fun p s =>
          ((s.set .ETH_PORT_STATUS_threshold 4 d p).set .TSU_PORT_STATUS_cal_done 0 d p).set .TSU_PORT_STATUS_mode v d p)).each
            (List.range 512) (fun k s => s.set .ETH_STAT_count 0 d k) → exec (.ethModeWrite d v) s =
        .next ((w.each ((List.range 8).filter (fun p => !w.portOk d p && decide (w.get .NCSI_init 0 (8 * d + p) = 1)))
          (fun p s => s.ncsiLost (8 * d + p))).hrStat d)) ∧
      (u.get .ETH_MODE_mode d = v % 4 → exec (.ethModeWrite d v) s = .next u)) ∧
    (∀ p, p < 8 → u.get .ETH_PORT_STATUS_state d p ≠ ethDISABLED → exec (.ethModeWrite d v) s = .next (u.set .ETH_MODE_mode_rejected 1 d))) ∧
  (∀ (s : State) (d p : Nat), s.portOk d p = true → exec (.resetThr d p) s = .next (s.set .ETH_PORT_STATUS_threshold 4 d p)) ∧
  (∀ (s u v : State) (d p a k : Nat), s.portOk d p = true → k = s.get .ETH_MSEC_SA_key_slot d (saIx p a) →
    u = ((s.set .ETH_MSEC_SA_valid 1 d (saIx p a)).set .ETH_sa_key 0 d (saIx p a)).lset .saKey [] d (saIx p a) →
    ((attrValid (u.slotAttr k) && attrMasked (u.slotAttr k)) = true →
      exec (.saValidWrite d p a) s = .next (u.bump .KEY_STAT_load_refused)) ∧
    ((attrValid (u.slotAttr k) && attrMasked (u.slotAttr k)) = false → ∃ t, exec (.saValidWrite d p a) s = .next t ∧
      (∀ m, u.keyFetch k = (v, some m) → t = (v.set .ETH_sa_key 1 d (saIx p a)).lset .saKey m d (saIx p a)) ∧
      (u.keyFetch k = (v, none) → t = v))) ∧
  (∀ (s : State) (d : Nat) (b f : List Nat), s.get .ETH_WAKE_CFG_wake_en d = 1 → s.get .PWR_main = 0 → s.get .PWR_vaux = 1 →
    s.get .ETH_WAKE_STATUS_woke d = 0 → s.getb .XD_CLK_DIE_PRESENT_present 15 0 (2 + d) = true → 4 ≤ b.length →
    leNat (b.drop (b.length - 4)) = crc32 (b.take (b.length - 4)) → f = b.take 1518 →
    (s.get .ETH_WAKE_CFG_magic_en d = 1 → magicIn (s.get .ETH_WAKE_MAC d) f = true → exec (.wakeFrameReceive d b) s =
      .next ((((((s.set .ETH_WAKE_STATUS_woke 1 d).set .ETH_WAKE_STATUS_by_magic 1 d).set .ETH_WAKE_STATUS_pattern 0 d).set
        .PIN_wake 1 d).emit .pin [16 + d, 0]))) ∧
    (∀ k, s.get .ETH_WAKE_CFG_magic_en d = 0 → (List.range 8).find? (fun k => s.getb .ETH_WAKE_CFG_pat_en k d && s.wakeHit d k f) = some k →
      exec (.wakeFrameReceive d b) s = .next ((((((s.set .ETH_WAKE_STATUS_woke 1 d).set .ETH_WAKE_STATUS_by_magic 0 d).set
        .ETH_WAKE_STATUS_pattern k d).set .PIN_wake 1 d).emit .pin [16 + d, 0]))))

/-- R290 to R292. -/
def Obligations.NcsiPackage : Prop :=
  (∀ (s : State) (b : List Nat) (n : Nat), s.ncsiOn = true → b.getD 5 0 / 32 % 8 = s.get .ETH_NCSI_CFG_package_id →
    n = 16 + (beNat (slice b 6 2) % 4096 + 3) / 4 * 4 →
    ((beNat (slice b n 4) + ncsiSum (b.take n)) % 2 ^ 32 = 0 →
      exec (.ncsiCommand b) s = .next ((s.bump .NCSI_cmds).ncsiCommand b)) ∧
    (beNat (slice b n 4) ≠ 0 → (beNat (slice b n 4) + ncsiSum (b.take n)) % 2 ^ 32 ≠ 0 →
      exec (.ncsiCommand b) s = .next (((s.bump .NCSI_cmds).bump .NCSI_sum_err).bump .NCSI_dropped))) ∧
  (∀ (s : State) (b : List Nat), b.getD 4 0 = 0x01 → beNat (slice b 6 2) % 4096 = 4 → 20 ≤ b.length →
    s.ncsiCommand b = ((s.set .NCSI_sel 1).set .NCSI_hwarb (b.getD 19 0)).ncsiAnswer b ncOk) ∧
  (∀ (s u v : State) (n t : Nat) (b : List Nat), u = s.advanceTo t →
    ((u.ncsiOn = false ∨ u.get .NCSI_tx 0 n = 0) → exec (.ncsiFrameTransmit n t b) s = .next (u.bump .NCSI_pt_txdrop 0 n)) ∧
    (u.ncsiOn = true → u.get .NCSI_tx 0 n ≠ 0 → u.macUp (n / 8 % 2) (n % 8) = true →
      v = u.lset .ncsiTx (u.lget .ncsiTx (n / 8 % 2) (n % 8) ++ (b.length :: b)) (n / 8 % 2) (n % 8) →
      exec (.ncsiFrameTransmit n t b) s =
        .next (if v.ncsiMay (n / 8 % 2) (n % 8) then v.ncsiSend (n / 8 % 2) (n % 8) else v)))

/-- R299 to R303, R306, R309, R311 and R312. -/
def Obligations.Scheduling : Prop :=
  (∀ (s u v : State) (d p i cn n len h : Nat) (r : List Nat), s.macUp d p = true → s.pickPort d p = (u, some ([i, cn, n], len)) →
    u.lget .txq d (n - 9216) = h :: r →
    v = (((u.chargePath d (n - 9216) (u.get .PKT_L 0 h)).chargeFrame d (u.get .TOPO_tn_tenant d i)
      (u.iodCost (u.get .PKT_L 0 h)) h).dequeue d (n - 9216) h).bufFree h →
    exec (.schedulerDispatch d p) s = .next ((v.lpush .mac h d p).set .NODE_gate
      (if (v.lpush .mac h d p).get .PKT_launch 0 h = 0 then 0 else h + 1) d (n - 9216))) ∧
  (∀ (s : State) (d p : Nat), s.macUp d p = false → exec (.schedulerDispatch d p) s = .next s) ∧
  (∀ (s u : State) (d n v : Nat), u = (((((((s.set .SCH_NODE_pbs v d n).set .NODE_cir_en (s.get .SCH_NODE_cir_en d n) d n).set
      .NODE_pir_en (s.get .SCH_NODE_pir_en d n) d n).set .NODE_cir (s.get .SCH_NODE_cir d n) d n).set .NODE_pir
        (s.get .SCH_NODE_pir d n) d n).set .NODE_cbs (s.get .SCH_NODE_cbs d n) d n).set .NODE_pbs
          ((s.set .SCH_NODE_pbs v d n).get .SCH_NODE_pbs d n) d n) →
    (s.get .SCH_NODE_reset_mode d n = 0 → exec (.shaperApply d n v) s = .next (u.bucketsFull d n)) ∧
    (s.get .SCH_NODE_reset_mode d n ≠ 0 → exec (.shaperApply d n v) s =
      .next (((u.set .NODE_ct 0 d n).set .NODE_pt 0 d n).set .NODE_at u.mono d n))) ∧
  (∀ (s : State) (d per t : Nat), s.get .SCH_SAMPLE_CFG_enable d ≠ 0 → per = max 10 (s.get .SCH_SAMPLE_CFG_period_us d) * usUnits →
    t = (s.now / per + 1) * per → exec (.queueSample d) s = .next ((s.advanceTo t).each (List.range 256) (fun k s =>
      if s.get .SCH_SAMPLE_Q_enable d k = 1 then s.samplePut d (s.get .SCH_SAMPLE_Q_queue d k) t else s))) ∧
  (∀ (s u : State), s.get .SCH_RECON_CFG_enable = 0 → u = s.advanceTo (s.now + (10 * usUnits - s.mono % (10 * usUnits))) →
    u.get .SCH_RECON_CFG_enable = 0 → exec .reconcilerEpoch s =
      .next (((((u.each (List.range 256) (fun t s => s.set .DEBT 0 0 t)).set .SCH_RECON_STAT_max_debt
        (min 0xFFFF ((u.each (List.range 256) (fun t s => s.set .DEBT 0 0 t)).get .SCH_RECON_STAT_max_debt)))).each (List.range 256)
          (fun t s => s.set .SERVED 0 0 t)).setQuanta)) ∧
  (∀ (s u v : State) (total wsum : Nat) (l : List Nat) (new : List (Nat × Int × Bool)), s.get .SCH_RECON_CFG_enable ≠ 0 →
    u = s.advanceTo (s.now + (10 * usUnits - s.mono % (10 * usUnits))) → l = u.contending (u.mono - 10 * usUnits) → total = (l.map (fun t => u.get .SERVED 0 t)).sum →
    wsum = (l.map (fun t => u.weight t)).sum → new = l.map (fun t => (t, u.newDebt total wsum t)) →
    v = ((u.each (List.range 256) (fun t s => s.set .DEBT 0 0 t)).each new (fun x s => s.set .DEBT (unsgn 64 x.2.1) 0 x.1)) →
    exec .reconcilerEpoch s = .next (((((v.set .SCH_RECON_STAT_max_debt (min 0xFFFF (max (new.foldl (fun m x =>
      max m (x.2.1.natAbs / 1024)) 0) (v.get .SCH_RECON_STAT_max_debt)))).when (new.any (fun x => x.2.2)) (·.bump
        .SCH_RECON_STAT_cap_hits))).each (List.range 256) (fun t s => s.set .SERVED 0 0 t)).setQuanta))

/-- R319 to R322, R337, R340 and R343: Table SILL-12. -/
def Obligations.Connections : Prop :=
  (∀ (s u : State) (ch c r : Nat), s.get .SIL_CH_busy 0 ch = 0 → r = s.chRec .SIL_CH_record ch 24 → c < backendCtx →
    s.get .SIL_CFG_udp_port ≠ 0 → ((recAt r 9 1).testBit 2 = true → s.get .SIL_CFG_roce_en ≠ 0) → s.get .CN_state 0 c = 0 →
    s.tenActive (recAt r 4 1) = true → cnRecOk c r = true → (∃ n, n < 8 ∧ s.online n = true) → s.cnRecOwn r = true →
    u = (s.set .CN_gen (s.get .CN_gen 0 c + 1) 0 c).cnLoad c r → exec (.silCreate ch c) s =
      .next (((((u.set .SIL_CH_conn_id (u.cnId c) 0 ch).set .SIL_CH_state 1 0 ch).set .SIL_CH_busy 0 0 ch).set .SIL_CH_result 0 0 ch))) ∧
  (∀ (s : State) (ch c r : Nat), s.get .SIL_CH_busy 0 ch = 0 → r = s.chRec .SIL_CH_record ch 24 → c < backendCtx →
    s.get .CN_state 0 c = 1 → (∀ p ∈ cnFixed, recAt (s.get .CN_rec 0 c) p.1 p.2 = recAt r p.1 p.2) → cnRecOk c r = true →
    recAt (s.get .CN_rec 0 c) 8 1 = recAt r 8 1 → s.cnFlag c 0 = false →
    (s.tenSlot (s.cnTenant c) (recAt r 12 4) = true → s.tenSlot (s.cnTenant c) (recAt r 16 4) = true →
      exec (.silModify ch c) s = .next (((s.cnModify c r).set .SIL_CH_busy 0 0 ch).set .SIL_CH_result 0 0 ch)) ∧
    (s.tenSlot (s.cnTenant c) (recAt r 12 4) = false ∨ s.tenSlot (s.cnTenant c) (recAt r 16 4) = false →
      exec (.silModify ch c) s = .next ((s.set .SIL_CH_busy 0 0 ch).set .SIL_CH_result 4 0 ch))) ∧
  (∀ (s u : State) (ch c : Nat), s.get .SIL_CH_busy 0 ch = 0 → c < backendCtx → s.get .CN_state 0 c ≠ 0 → s.get .CN_dying 0 c = 0 →
    u = ((s.cnFlush c msFLUSHED).set .CN_state 2 0 c).set .CN_dying (ch + 1) 0 c →
    (u.cnPackets c = true → exec (.silDestroy ch c) s = .next (u.set .SIL_CH_busy 1 0 ch)) ∧
    (u.cnPackets c = false → exec (.silDestroy ch c) s = .next (u.cnFree c))) ∧
  (∀ (s : State) (c : Nat), s.get .CN_dying 0 c ≠ 0 → s.cnPackets c = false → exec (.connectionRelease c) s =
    .next ((((((s.set .CN_state 0 0 c).set .CN_dying 0 0 c).each (List.range 8) (fun n s => s.set .CACHE_in 0 n c)).set
      .SIL_CH_busy 0 0 (s.get .CN_dying 0 c - 1)).set .SIL_CH_result 0 0 (s.get .CN_dying 0 c - 1)))) ∧
  (∀ (s u : State) (ch c : Nat), s.get .SIL_CH_busy 0 ch = 0 →
    u = (s.chShow .SIL_CH_record ch 24 (s.get .CN_rec 0 c)).set .SIL_CH_state (s.get .CN_state 0 c) 0 ch →
    exec (.silQuery ch c) s = .next ((((u.set .SIL_CH_active_paths (u.actPaths c 255).length 0 ch).set .SIL_CH_conn_id
      (u.cnId c) 0 ch).set .SIL_CH_busy 0 0 ch).set .SIL_CH_result 0 0 ch)) ∧
  (∀ (s : State) (n c : Nat), s.get .CACHE_fill n c ≠ 0 → ((s.keysOf .CACHE_in).filter (fun k => decide (k.1 = n))).length < 8192 →
    exec (.contextCacheFill n c) s = .next (((s.set .CACHE_fill 0 n c).set .CACHE_in 1 n c).cacheTouch n c))

/-- R320 to R348: what the transport block sends and receives. -/
def Obligations.SillagePackets : Prop :=
  (∀ (s u v : State) (c t n st : Nat) (agree : Bool), n = s.cnRegion c → s.get .CN_state 0 c = 1 → s.fatal = false →
    s.get .CN_stop 0 c = 0 → s.online n = true → (s.cnFlag c 2 = true → s.get .SIL_CFG_roce_en ≠ 0) → u = s.advanceTo t →
    (u.get .CACHE_in n c = 0 → exec (.sillagePacketSend c t agree) s = .next (u.cacheMiss n c)) ∧
    (u.get .CACHE_in n c ≠ 0 → (u.cacheTouch n c).cnFlag c 2 = true → exec (.sillagePacketSend c t agree) s =
      .next ((u.cacheTouch n c).roceStep n c)) ∧
    (u.get .CACHE_in n c ≠ 0 → (u.cacheTouch n c).cnFlag c 2 = false → (u.cacheTouch n c).get .SIL_CFG_udp_port ≠ 0 →
      (u.cacheTouch n c).txKey n c agree = (v, st) → st ≠ 1 →
      exec (.sillagePacketSend c t agree) s = .next (v.silStep n c st))) ∧
  (∀ (s u : State) (n h c st : Nat) (agree : Bool) (y : Udp) (x : SilHdr) (pl : List Nat), s.atEngine n h 6 = true →
    udpOf (s.lget .pktBytes 0 h) = some y → s.isSil y = true →
    (s.silTake n h agree (fun op => decide (op ≠ 0x10 ∧ op ≠ 0x11)) = (u, some (c, st, x, pl)) →
      exec (.sillagePacketReceive n h agree) s = .next (u.silData n c h st x pl)) ∧
    (s.silTake n h agree (fun op => decide (op = 0x10)) = (u, some (c, st, x, pl)) →
      exec (.ackReceive n h agree) s = .next (u.ackTaken n c h x)) ∧
    (s.silTake n h agree (fun op => decide (op = 0x11)) = (u, some (c, st, x, pl)) →
      exec (.nakReceive n h agree) s = .next (u.nakTaken c h x))) ∧
  (∀ (s : State) (n h : Nat) (agree : Bool), s.atEngine n h 6 = true → udpOf (s.lget .pktBytes 0 h) = none →
    exec (.sillagePacketReceive n h agree) s = .next (s.stageNext h)) ∧
  (∀ (s : State) (n c h st d : Nat) (x : SilHdr) (pl : List Nat), d = (x.psn + 2 ^ 32 - s.get .CN_rlow 0 c) % 2 ^ 32 →
    (256 ≤ d → d < 2 ^ 31 → s.silData n c h st x pl = (s.bump .SIL_RX_CNT0_oow_drops n).engineTake h) ∧
    (2 ^ 31 ≤ d → x.op < 5 → s.silData n c h st x pl =
      ((((s.bump .SIL_RX_CNT0_dup_pkts n).ackNote c x.path x.ts (s.ingressTuple h))).ackSend n c st).engineTake h) ∧
    (d < 256 → (s.get .CN_rmap 0 c).testBit d = false → s.silData n c h st x pl = s.silAccept n c h st x pl)) ∧
  (∀ (s : State) (c h : Nat) (x : SilHdr), s.get .RT_st 0 (rtIx c x.sack) = 0 →
    (x.ext.getD 0 0 = 2 → s.nakTaken c h x = (s.msFail c x.msg msACCESS_REVOKED).engineTake h) ∧
    (x.ext.getD 0 0 = 3 → s.nakTaken c h x = (s.msFail c x.msg msACCESS_ERR).engineTake h) ∧
    (x.ext.getD 0 0 = 1 → s.nakTaken c h x = ((s.each (s.rtWhere c (fun s k =>
      decide (s.get .RT_st 0 k = 4 ∧ s.get .RT_msg 0 k = x.msg ∧ s.get .RT_resp 0 k = 0))) (fun k q =>
        q.set .RT_at (s.now + beAt x.ext 2 2 * usUnits) 0 k)).set .MS_hold (s.now + beAt x.ext 2 2 * usUnits) 0 (msIx c x.msg)).engineTake h)) ∧
  (∀ (s : State) (n h c : Nat) (y : Udp), s.atEngine n h 6 = true → udpOf (s.lget .pktBytes 0 h) = some y →
    s.get .SIL_CFG_roce_en = 1 → y.dport = rocePort → s.isSil y = false → y.ok = true → 16 + y.pay.getD 1 0 / 16 % 4 ≤ y.pay.length →
    (icrcHas (s.lget .pktBytes 0 h) ≠ icrcOf (s.lget .pktBytes 0 h) → exec (.rocePacketReceive n h) s =
      .next ((s.bump .SIL_RX_CNT1_tag_fail n).engineTake h)) ∧
    (icrcHas (s.lget .pktBytes 0 h) = icrcOf (s.lget .pktBytes 0 h) → c = beAt y.pay 5 3 % 2 ^ 21 → s.get .CN_state 0 c = 1 →
      s.cnFlag c 2 = true → s.cnHome c = beAt y.pay 5 3 / 2 ^ 21 → y.v6 = s.cnFlag c 1 → s.get .CACHE_in n c ≠ 0 → y.pay.getD 0 0 = 0x81 →
      exec (.rocePacketReceive n h) s = .next ((((s.cacheTouch n c).set .CN_used 1 0 c).halve c 0).engineTake h)))

/-- R332, R333, R335, R336 and R355. -/
def Obligations.SillageTimers : Prop :=
  (∀ (s u v : State) (c n st : Nat), n = s.cnRegion c → s.get .CN_state 0 c = 1 → s.get .CN_ack_at 0 c ≠ 0 → s.fatal = false → s.get .SIL_CFG_udp_port ≠ 0 →
    u = s.advanceTo (s.get .CN_ack_at 0 c + max 1 (s.get .SIL_ACK_CFG_ack_delay) * 400) → u.txKey n c true = (v, st) → st ≠ 1 →
    exec (.ackDelayExpiry c) s = .next (v.ackSend n c st)) ∧
  (∀ (s u v : State) (c k n age : Nat) (l : List Nat), n = s.cnRegion c → s.get .CN_state 0 c = 1 →
    l = s.rtWhere c (fun s i => decide (s.get .RT_st 0 i = 1 ∧ s.get .RT_path 0 i = k ∧ s.get .RT_exempt 0 i = 0)) → l ≠ [] →
    age = l.foldl (fun m i => max m (s.repNow (regDie n) - s.get .RT_ts 0 i)) 0 →
    u = ((s.advanceTo (s.now + (s.rto c k - age))).each l (fun i s => s.set .RT_st 2 0 i)).halve c k → u.cnFlag c 2 = false →
    v = u.addw .PT_tos 1 0 (ptIx c k) → exec (.retransmitTimeout c k) s =
      .next (if max 1 (v.get .SIL_PATH_CFG_retire_count) ≤ v.get .PT_tos 0 (ptIx c k) ∧ v.get .PT_retired 0 (ptIx c k) = 0
        then v.pathRetire n c k else v)) ∧
  (∀ (s : State) (c psn : Nat), s.get .CN_state 0 c = 1 → s.get .RT_st 0 (rtIx c psn) = 4 → s.get .RT_psn 0 (rtIx c psn) = psn →
    exec (.retryAfterResend c psn) s = .next ((s.advanceTo (s.get .RT_at 0 (rtIx c psn))).set .RT_st 2 0 (rtIx c psn))) ∧
  (∀ (s u v : State) (c k n st : Nat) (agree : Bool), n = s.cnRegion c → s.get .CN_state 0 c = 1 → s.get .PT_retired 0 (ptIx c k) ≠ 0 →
    s.get .CN_stop 0 c = 0 → s.fatal = false → s.psnOk c 0 = true → s.get .SIL_CFG_udp_port ≠ 0 →
    u = s.advanceTo (s.get .PT_probe_at 0 (ptIx c k) + max 1 (s.get .SIL_PATH_CFG1_probe_ms) * msUnits) → u.txKey n c agree = (v, st) →
    st ≠ 1 → exec (.probe c k agree) s =
      .next ((v.drew.set .PT_probe_at v.now 0 (ptIx c k)).silNew n c k st 0x12 (v.freeVal 32) 0 0 [] [] true)) ∧
  (∀ (s u : State) (c : Nat), u = s.advanceTo (s.get .CN_bw_at 0 c + max 1 (s.get .SIL_PATH_CFG1_base_window_ms) * msUnits) →
    exec (.baseWindowRoll c) s = .next ((u.set .CN_bw_at u.now 0 c).each ((List.range (u.nPaths c)).map (ptIx c)) (fun i s =>
      ((s.set .PT_bprev (s.get .PT_bcur 0 i) 0 i).set .PT_bcur (2 ^ 32) 0 i).set .PT_rprev (s.get .PT_rcur 0 i) 0 i
        |>.set .PT_rcur (2 ^ 32) 0 i)))

/-- Table MREG-4: the commands on keys; R346, R350, R357, R359 and R360. -/
def Obligations.MemoryKeys : Prop :=
  (∀ (s : State) (ch k v r : Nat), s.get .MKY_CH_busy 0 ch = 0 → r = s.chRec .MKY_CH_record ch 16 → s.registerCheck k v r = 0 →
    exec (.registerMkey ch k v) s = .next (((s.mwrite (mkAddr k) ([v, 1] ++ (leBytes 64 r).drop 2)).set .MKY_CH_busy 0 0 ch).set
      .MKY_CH_result 0 0 ch)) ∧
  (∀ (s : State) (ch k v x : Nat), s.get .MKY_CH_busy 0 ch = 0 → s.registerCheck k v (s.chRec .MKY_CH_record ch 16) = x + 1 →
    exec (.registerMkey ch k v) s = .next ((s.set .MKY_CH_busy 0 0 ch).set .MKY_CH_result (x + 1) 0 ch)) ∧
  (∀ (s : State) (ch k v : Nat), s.get .MKY_CH_busy 0 ch = 0 → s.mkValid k v = true →
    exec (.invalidateMkey ch k v) s = .next ((((s.set .MK_revoke_at (s.now + 2 * usUnits) 0 k).set .MK_ch (ch + 1) 0 k).set
      .MKY_CH_revoke_at (((s.set .MK_revoke_at (s.now + 2 * usUnits) 0 k).set .MK_ch (ch + 1) 0 k).get .MK_revoke_at 0 k) 0 ch).set
        .MKY_CH_busy 1 0 ch)) ∧
  (∀ (s : State) (k : Nat), s.get .MK_revoke_at 0 k ≠ 0 →
    exec (.revokeAt k) s = .next (s.advanceTo (s.get .MK_revoke_at 0 k)) ∧
    (∀ t, s.get .MK_revoke_at 0 k ≤ t → s.mkInvalid k t = true) ∧
    ((s.advanceTo (s.get .MK_revoke_at 0 k)).mkReading k = false →
      exec (.mkeyInvalidateComplete k) s = .next ((s.advanceTo (s.get .MK_revoke_at 0 k)).mkDone k)) ∧
    ((s.advanceTo (s.get .MK_revoke_at 0 k)).mkReading k = true →
      exec (.mkeyInvalidateComplete k) s = .next (s.advanceTo (s.get .MK_revoke_at 0 k)))) ∧
  (∀ (s : State) (ch k : Nat), s.get .MKY_CH_busy 0 ch = 0 → exec (.mkyQuery ch k) s =
    .next (((s.chShow .MKY_CH_record ch 16 (if s.mkInvalid k s.now then putBits (s.mkRec k) 8 8 2 else s.mkRec k)).set .MKY_CH_busy 0 0 ch).set
      .MKY_CH_result 0 0 ch)) ∧
  (∀ (s : State) (ch k v a len : Nat), s.get .MKY_CH_busy 0 ch = 0 → s.mkValid k v = true → mkPaged (s.mkRec k) = true →
    s.mkyRange ch = (a, len) → recAt (s.mkRec k) 16 8 ≤ a → a + len ≤ recAt (s.mkRec k) 16 8 + recAt (s.mkRec k) 24 8 →
    exec (.prefetch ch k v) s = .next ((((s.set .MKY_CH_busy 1 0 ch).set .MKY_pf 1 0 ch).set .MKY_pf_key k 0 ch).pfStep ch)) ∧
  (∀ (s : State) (n k : Nat), s.get .KEYC_fill n k ≠ 0 →
    ((s.keyHeld n).length < 4096 → exec (.keyRecordFill n k) s = .next ((s.set .KEYC_fill 0 n k).set .KEYC_valid 1 n k)) ∧
    (4096 ≤ (s.keyHeld n).length → exec (.keyRecordFill n k) s = .next (((s.drew.set .KEYC_valid 0 n
      ((s.keyHeld n).getD (s.freeVal 32 % (s.keyHeld n).length) 0)).set .KEYC_fill 0 n k).set .KEYC_valid 1 n k)))

/-- R352, R353, R356 and R359. -/
def Obligations.Paging : Prop :=
  (∀ (s u : State) (e f pasid page addr perm i : Nat), i = atcIx f pasid page → s.get .ATC_st e i = 1 →
    u = (((s.atcRoom e).set .ATC_st 2 e i).set .ATC_addr (addr * 4096) e i).set .ATC_perm perm e i →
    (perm % 4 = 0 → exec (.atsTranslationComplete e f pasid page addr perm) s = .next (((s.set .ATC_st 3 e i).priAsk e i).pfAll)) ∧
    (perm.testBit 0 = true → exec (.atsTranslationComplete e f pasid page addr perm) s =
      .next ((u.each (u.stalledOn e i) (fun c s => s.set .CN_stall 0 0 c)).pfAll)) ∧
    (perm % 4 = 2 → exec (.atsTranslationComplete e f pasid page addr perm) s =
      .next ((if u.stalledOn e i ≠ [] then u.priAsk e i else u).pfAll))) ∧
  (∀ (s : State) (e f pasid page n : Nat), exec (.atsInvalidation e f pasid page n) s =
    .next (((s.atcDrop e (fun i => decide (i / 2 ^ 52 = f * 2 ^ 21 + pasid ∧ s.get .ATC_st e i = 2) && within (i % 2 ^ 52) page n)).addw
      .ATS_inv 1 e f).atsInvDone e f)) ∧
  (∀ (s : State) (e f pasid page i : Nat), i = atcIx f pasid page → s.get .PRI_out e i ≠ 0 →
    ((s.priEnd e i).get .ATC_st e i ≠ 0 → exec (.priResponse e f pasid page 0) s =
      .next (((s.priEnd e i).set .ATC_st 0 e i).atsAsk e f pasid page)) ∧
    (∀ code, code ≠ 0 → code ≠ 15 → exec (.priResponse e f pasid page code) s =
      .next (((s.bump .MKY_PRI_STAT_pri_fail e).priEnd e i).priFail e i)) ∧
    (exec (.priResponse e f pasid page 15) s =
      .next ((((s.set .PRI_stop 1 e f).bump .MKY_PRI_STAT_pri_fail e).priEnd e i).priFail e i)) ∧
    (∀ u, u = s.advanceTo (s.get .PRI_at e i + max 1 (s.get .MKY_CFG_pri_timeout_ms) * msUnits) →
      exec (.priTimeout e f pasid page) s = .next (((u.bump .MKY_PRI_STAT_pri_fail e).priEnd e i).priFail e i)))

/-- Table STOR-2; R365 to R370 and R470. -/
def Obligations.StorageChannels : Prop :=
  (∀ (s u : State) (ch b r : Nat), s.get .NVE_CH_busy 0 ch = 0 → r = s.chRec .NVE_CH_record ch 32 → b < 4096 → beRecOk b r = true →
    s.get .BE_on 0 b ≠ 1 → (∀ q, q < 64 → s.get .CN_state 0 (beCtx b q) = 0) → u = (s.set .BE_on 1 0 b).set .BE_rec r 0 b →
    (recAt r 0 1 = 2 → exec (.beCreate ch b) s = .next ((u.each (List.range (recAt r 1 1)) (fun q s => s.beConnect b q)).nveRes ch 0)) ∧
    (recAt r 0 1 ≠ 2 → exec (.beCreate ch b) s = .next ((u.set .NVE_CH_busy 0 0 ch).set .NVE_CH_result 0 0 ch))) ∧
  (∀ (s : State) (ch b : Nat), s.get .NVE_CH_busy 0 ch = 0 → b < 4096 → s.get .BE_on 0 b ≠ 0 →
    (∀ x ∈ s.keysOf .NS_on, s.get .NS_on 0 x.2 ≠ 1 ∨ s.nsAt x.2 4 2 ≠ b) → exec (.beDestroy ch b) s =
      .next (((((s.each (List.range 64) (fun q s => s.beqFree b q)).set .NVE_BE_STAT_connected 0 0 b).set .BE_on 0 0 b).set .BE_rec 0 0 b).nveRes
        ch 0)) ∧
  (∀ (s : State) (ch n r : Nat), s.get .NVE_CH_busy 0 ch = 0 → r = s.chRec .NVE_CH_record ch 32 % 2 ^ 512 → s.get .NS_on 0 n ≠ 1 →
    s.tenActive (recAt r 28 1) = true → nsRecOk r = true →
    (s.affMask (recAt r 28 1)).testBit (recAt r 29 1) = true →
    ((recAt r 7 1).testBit 0 = true → s.tenSlot (recAt r 28 1) (recAt r 24 4 % 2 ^ 24) = true) →
    exec (.nsCreate ch n) s = .next (((s.set .NS_on 1 0 n).set .NS_rec r 0 n).nveRes ch 0)) ∧
  (∀ (s : State) (ch n : Nat), s.get .NVE_CH_busy 0 ch = 0 → s.get .NS_on 0 n ≠ 0 →
    (s.nsAttached n = false → exec (.nsDelete ch n) s = .next (((s.set .NS_on 0 0 n).set .NS_rec 0 0 n).nveRes ch 0)) ∧
    (s.nsAttached n = true → exec (.nsDelete ch n) s = .next (s.nveRes ch 5))) ∧
  (∀ (s : State) (ch n k nsid : Nat), s.get .NVE_CH_busy 0 ch = 0 → k = s.get .NVE_CH_ctrl 0 ch → nsid = s.get .NVE_CH_nsid 0 ch →
    1 ≤ nsid → nsid ≤ 256 →
    (s.get .NS_on 0 n ≠ 0 → s.get .NVE_CTRL_CFG_enable 0 k ≠ 0 → s.get .NSA 0 (k * 257 + nsid) = 0 → s.get .NSA_old 0 (k * 257 + nsid) = 0 →
      s.tenActive (s.nsAt n 28 1) = true → s.nsAt n 28 1 = s.ctrlTenant k →
      exec (.nsAttach ch n) s = .next (((s.set .NSA (n + 1) 0 (k * 257 + nsid)).nsEvent k nsid).nveRes ch 0)) ∧
    (s.get .NSA 0 (k * 257 + nsid) = n + 1 → exec (.nsDetach ch n) s = .next ((((((s.set .NSA 0 0 (k * 257 + nsid)).set .NSA_old (n + 1) 0
      (k * 257 + nsid)).set .NSA_seq (s.get .NC_seq 0 k) 0 (k * 257 + nsid)).set .NSA_det (ch + 1) 0 (k * 257 + nsid)).set .NVE_CH_busy 1 0
      ch).detachStep k))) ∧
  (∀ (s : State) (ch n : Nat), s.get .NVE_CH_busy 0 ch = 0 → exec (.nveQuery ch n) s = .next ((s.drew.chShow .NVE_CH_record ch 32
    (if s.freeVal 1 = 0 then s.get .NS_rec 0 n else if n < 4096 then s.get .BE_rec 0 n else 0)).nveRes ch 0))

/-- R362, R363, R371, R379 and R382. -/
def Obligations.Controllers : Prop :=
  (∀ (s u : State) (k cc : Nat), s.get .NVE_CTRL_CFG_enable 0 k ≠ 0 → s.get .NC_cc 0 k % 2 = 0 → s.get .NVE_CTRL_STAT_state 0 k ≠ 2 →
    bitsOf (putBits cc 0 1 1) 14 2 = 0 → putBits cc 0 1 1 % 2 = 1 → u = (s.set .NC_cc (putBits cc 0 1 1) 0 k).ctrlEnable k →
    exec (.controllerEnable k cc) s = .next u) ∧
  (∀ (s : State) (k : Nat), s.get .BOOT_STATUS_device_ready = 1 → s.get .NVE_CTRL_CFG_enable 0 k = 1 →
    s.ctrlEnable k = (s.set .NC_en_at (max 1 s.now) 0 k).ctrlReady k) ∧
  (∀ (s : State) (k v : Nat), s.get .NVE_CTRL_CFG_enable 0 k ≠ 0 → s.get .NC_cc 0 k % 2 = 1 → v = putBits (s.get .NC_cc 0 k) 0 1 0 →
    v % 2 = 0 → exec (.controllerReset k) s = .next ((s.set .NC_cc v 0 k).ctrlReset k true)) ∧
  (∀ (s : State) (k n v : Nat), s.get .NVE_CTRL_CFG_enable 0 k ≠ 0 → s.get .NC_cc 0 k % 2 = 1 → v = putBits (s.get .NC_cc 0 k) 14 2 n →
    v % 2 = 1 → bitsOf v 14 2 = n → (n = 1 ∨ n = 2) → bitsOf (s.get .NC_cc 0 k) 14 2 = 0 → s.get .NC_csts 0 k % 2 = 1 →
    exec (.controllerShutdown k n) s = .next ((s.set .NC_cc v 0 k).ctrlShutdown k n)) ∧
  (∀ (s u : State) (k : Nat), u = s.advanceTo (s.get .NC_reset_at 0 k + min 30000 (max 1 (s.get .NVE_CFG_reset_limit_ms)) * msUnits) →
    (s.get .NVE_CTRL_STAT_state 0 k = 2 → exec (.resetLimitExpiry k) s = .next (u.ctrlResetEnd k)) ∧
    (s.get .NVE_CTRL_STAT_state 0 k = 3 → (s.get .NC_shn 0 k = 1 ∨ s.get .NC_shn 0 k = 2) → exec (.resetLimitExpiry k) s =
      .next ((u.each (u.lget .ctrlCmds 0 k) (fun id s => s.cmdDrop id)).ctrlAfter k))) ∧
  (∀ (s : State) (k : Nat), s.ctrlEligible k = true → exec (.nvmeFetch k) s = .next (s.nvmeFetch1 k)) ∧
  (∀ (s : State) (id k q sz i : Nat), s.adminReady id 0x05 k → q = s.sq4 id 40 2 → sz = s.sq4 id 42 2 → i = qIx k q → 1 ≤ q →
    q ≤ s.ioqMax k → s.get .CQ_on 0 i ≠ 1 → sz ≠ 0 → s.sq4 id 44 2 % 2 = 1 → s.sq4 id 46 2 < 65 → s.sq4 id 24 8 % 4096 = 0 →
    exec (.createIoCq id) s = .next (((((((((s.set .CQ_on 1 0 i).set .CQ_base (s.sq4 id 24 8) 0 i).set .CQ_size (sz + 1) 0 i).set .CQ_head
      0 0 i).set .CQ_tail 0 0 i).set .CQ_phase 1 0 i).set .CQ_iv (s.sq4 id 46 2) 0 i).set .CQ_ien (s.sq4 id 44 2 / 2) 0 i).cmdOver id 0 0)) ∧
  (∀ (s : State) (id k q sz cq i : Nat), s.adminReady id 0x01 k → q = s.sq4 id 40 2 → sz = s.sq4 id 42 2 → cq = s.sq4 id 46 2 →
    i = qIx k q → 1 ≤ q → q ≤ s.ioqMax k → s.get .SQ_on 0 i ≠ 1 → 1 ≤ cq → cq < 65 → s.get .CQ_on 0 (qIx k cq) ≠ 0 → sz ≠ 0 →
    s.sq4 id 44 1 % 2 ≠ 0 → s.sq4 id 24 8 % 4096 = 0 → exec (.createIoSq id) s =
      .next ((((((((s.set .SQ_on 1 0 i).set .SQ_base (s.sq4 id 24 8) 0 i).set .SQ_size (sz + 1) 0 i).set .SQ_head 0 0 i).set .SQ_tail 0 0
        i).set .SQ_cq cq 0 i).set .SQ_block 0 0 i).cmdOver id 0 0)) ∧
  (∀ (s : State) (id k q i : Nat), s.adminReady id 0x00 k → q = s.sq4 id 40 2 → i = qIx k q → 1 ≤ q → q < 65 → s.get .SQ_on 0 i ≠ 0 →
    exec (.deleteIoSq id) s = .next (((((s.each ((s.lget .ctrlCmds 0 k).filter (fun j => decide (s.get .CM_sq 0 j = q)))
      (fun j s => s.cmdDrop j)).set .SQ_on 0 0 i).set .SQ_tail 0 0 i).set .SQ_head 0 0 i).cmdOver id 0 0)) ∧
  (∀ (s : State) (id k q i : Nat), s.adminReady id 0x04 k → q = s.sq4 id 40 2 → i = qIx k q → 1 ≤ q → q < 65 → s.get .CQ_on 0 i ≠ 0 →
    (∀ j, j < 65 → s.get .SQ_on 0 (qIx k j) ≠ 1 ∨ s.get .SQ_cq 0 (qIx k j) ≠ q) →
    exec (.deleteIoCq id) s = .next ((((s.set .CQ_on 0 0 i).set .CQ_tail 0 0 i).set .CQ_head 0 0 i).cmdOver id 0 0))

/-- Table STOR-1; R364, R378, R383 and R520. -/
def Obligations.AdminCommands : Prop :=
  (∀ (s : State) (id k : Nat), s.adminReady id 0x02 k →
    (s.sq4 id 40 1 = 5 → exec (.getLogPage id) s = .next (s.adminData id (s.sq4 id 48 8) ((s.sq4 id 42 2 + s.sq4 id 44 2 * 65536 + 1) * 4)
      (effectsLog (decide (k % 512 = 0))))) ∧
    (s.sq4 id 40 1 = 0 → exec (.getLogPage id) s = .next (s.cmdOver id 0x109 0))) ∧
  (∀ (s : State) (id k nsid : Nat), s.adminReady id 0x06 k → nsid = s.sq4 id 4 4 →
    (s.sq4 id 40 1 = 0 → 1 ≤ nsid → nsid ≤ 256 → s.nsOf k nsid ≠ 0 → exec (.identify id) s =
      .next (s.adminData id 0 4096 (s.identNs (s.nsOf k nsid - 1)))) ∧
    (s.sq4 id 40 1 = 1 → ∀ u d, s.identCtrl k = (u, d) → exec (.identify id) s = .next (u.adminData id 0 4096 d))) ∧
  (∀ (s : State) (id k : Nat) (r : Option Nat), s.adminReady id 0x08 k →
    r = (s.lget .ctrlCmds 0 k).find? (fun j => decide (j ≠ id ∧ s.get .CM_sq 0 j = s.sq4 id 40 2 ∧ s.cmdCid j = s.sq4 id 42 2 ∧
      2 ≤ s.get .CM_st 0 j ∧ s.get .CM_st 0 j ≤ 4 ∧ s.lget .flushLeft 0 j = [])) →
    (r = none → exec (.nvmeAbort id) s = .next (s.cmdOver id 0 1)) ∧
    (∀ j, r = some j → exec (.nvmeAbort id) s =
      .next (((s.bump .NVE_REGION_CNT0_aborts_caught (s.get .CM_region 0 j)).cmdOver j 0x07 0).cmdOver id 0 0))) ∧
  (∀ (s : State) (id k : Nat), s.adminReady id 0x09 k → (s.sq4 id 43 1).testBit 7 = false →
    (s.sq4 id 40 1 = 0x01 → exec (.setFeatures id) s = .next ((s.set .NC_feat_arb (s.sq4 id 44 4) 0 k).cmdOver id 0 0)) ∧
    (s.sq4 id 40 1 = 0x0B → exec (.setFeatures id) s = .next ((s.set .NC_feat_aec (s.sq4 id 44 4) 0 k).cmdOver id 0 0))) ∧
  (∀ (s : State) (id k : Nat), s.adminReady id 0x0A k →
    (s.sq4 id 40 1 = 0x01 → exec (.getFeatures id) s = .next (s.cmdOver id 0 (s.get .NC_feat_arb 0 k))) ∧
    (s.sq4 id 40 1 = 0x0B → exec (.getFeatures id) s = .next (s.cmdOver id 0 (s.get .NC_feat_aec 0 k)))) ∧
  (∀ (s u : State) (id k : Nat), s.adminReady id 0x0C k → u = (s.cmdDrop id).lpush .aerCids (s.cmdCid id) 0 k →
    ((s.lget .aerCids 0 k).length < 4 → u.lget .aerWait 0 k = [] → exec (.asynchronousEventRequest id) s = .next (u.ctrlAfter k)) ∧
    (4 ≤ (s.lget .aerCids 0 k).length → exec (.asynchronousEventRequest id) s = .next (s.cmdOver id 0x105 0))) ∧
  (∀ (s : State) (id k : Nat), s.adminReady id 0x11 k →
    (k % 512 = 0 → s.sq4 id 44 4 * 4 + (s.sq4 id 40 4 + 1) * 4 ≤ 0x800000 →
      exec (.firmwareImageDownload id) s = .next (s.dptrStart id 1 ((s.sq4 id 40 4 + 1) * 4))) ∧
    (k % 512 ≠ 0 → exec (.firmwareImageDownload id) s = .next (s.cmdOver id 0x01 0))) ∧
  (∀ (s : State) (id k j : Nat) (man img : List Nat), s.adminReady id 0x10 k → k % 512 = 0 → bitsOf (s.sq4 id 40 4) 3 3 = 3 →
    s.sq4 id 40 4 % 8 = j + 1 → j < 2 → j ≠ s.get .BOOT_STATUS_s2_slot → s.get .PWR_fail = 0 → s.get .ACT_on = 0 →
    man = (s.lget .fwImage 0 k).take 65536 → img = ((s.lget .fwImage 0 k).drop 65536).take (leAt man 16 4) →
    exec (.firmwareCommit id) s = .next (if (s.imageValid man img 2 (imgSpace 2)).1 ≠ 0 then s.cmdOver id 0x107 0 else
      ((((((s.lset .stage2Slot (fixLen 65536 man ++ img) 0 j).imgShow (2 + j) man (s.imageValid man img 2 (imgSpace 2))).lset .fwImage [] 0 k).set
        .ACT_on 1).set .ACT_at ((s.lset .stage2Slot (fixLen 65536 man ++ img) 0 j).imgShow (2 + j) man (s.imageValid man img 2 (imgSpace 2))
          |>.lset .fwImage [] 0 k).now).set .ACT_cmd (id + 1)).set .ACT_slot j)) ∧
  (∀ (s u : State) (j : Nat), s.get .ACT_on ≠ 0 → s.actLeft = false → s.now ≤ s.get .ACT_at + 600 * msUnits → j = s.get .ACT_slot →
    u = s.set .BOOT_STATUS_s2_slot j → exec .activationDrainDone s =
      .next ((u.lset .attestKey (s.attestOf (s.s2Image j).1)).spdmEnd.actEnd 0)) ∧
  (∀ (s : State), s.get .ACT_on ≠ 0 → s.actLeft = true →
    exec .activationDrainTimeout s = .next ((s.advanceTo (s.get .ACT_at + 600 * msUnits)).actEnd 0x12))

/-- R371 to R377, R384 and R385. -/
def Obligations.IoCommands : Prop :=
  (∀ (s : State) (id : Nat), s.ioReady id 1 (s.ioBlocks id) true →
    exec (.nvmeWrite id) s = .next (s.ioAdmit id (s.ioBlocks id) 1 (s.ioBytes id (s.ioBlocks id)))) ∧
  (∀ (s : State) (id : Nat), s.ioReady id 2 (s.ioBlocks id) true →
    exec (.nvmeRead id) s = .next (s.ioAdmit id (s.ioBlocks id) 2 (s.ioBytes id (s.ioBlocks id)))) ∧
  (∀ (s : State) (id x : Nat), s.isIo id 1 = true → s.ioStatus id (s.ioBlocks id) true = x + 1 →
    exec (.nvmeWrite id) s = .next (s.cmdOver id (x + 1) 0)) ∧
  (∀ (s : State) (id : Nat), s.ioReady id 8 (s.ioBlocks id) false →
    (s.nsAt (s.cmdNs id - 1) 7 1).testBit 0 = false →
    exec (.writeZeroes id) s = .next (s.ioAdmit id (s.ioBlocks id) 0 0)) ∧
  (∀ (s : State) (id : Nat), s.ioReady id 9 0 false →
    ((s.sq4 id 44 1).testBit 2 = true → exec (.datasetManagement id) s = .next (s.ioAdmit id 0 1 ((s.sq4 id 40 1 + 1) * 16))) ∧
    ((s.sq4 id 44 1).testBit 2 = false → exec (.datasetManagement id) s = .next (s.cmdOver id 0 0))) ∧
  (∀ (s : State) (id blocks dir len k n : Nat), k = s.get .CM_ctrl 0 id → s.nsRegion (s.cmdNs id - 1) = some n →
    (s.creditOk n (s.ctrlTenant k) = false → s.ioAdmit id blocks dir len =
      (s.set .CM_region n 0 id).set .SQ_block (id + 1) 0 (qIx k (s.get .CM_sq 0 id))) ∧
    (s.creditOk n (s.ctrlTenant k) = true → 2 ^ 29 < s.stagingUsed n + len → s.ioAdmit id blocks dir len = s)) ∧
  (∀ (s u : State) (id k nsid x n : Nat), s.isIo id 0 = true → s.dw0Status id = 0 → k = s.get .CM_ctrl 0 id → nsid = s.sq4 id 4 4 →
    nsid ≠ 0xFFFFFFFF → x = s.cmdNs id → x ≠ 0 → s.nsRegion (x - 1) = some n → s.creditOk n (s.ctrlTenant k) = true →
    (∀ j ∈ s.lget .ctrlCmds 0 k, ¬ (s.get .CM_st 0 j = 1 ∧ s.get .CM_sq 0 j ≠ 0 ∧ s.get .CM_seq 0 j < s.get .CM_seq 0 id)) →
    u = ((s.sqFree id).set .CM_region n 0 id).set .CM_ns x 0 id →
    ∀ v, v = (((u.set .CM_nsid nsid 0 id).lset .flushCover (u.coverOf id) 0 id).set .CM_st 4 0 id).flushTry id →
    exec (.nvmeFlush id) s = .next (if v.get .CM_st 0 id = 6 then v.ctrlAfter k else v)) ∧
  (∀ (s : State) (id : Nat) (agree : Bool),
    (s.get .CM_st 0 id = 4 → exec (.commandStaged id agree) s = .next (s.cmdGo id)) ∧
    (s.get .CM_st 0 id = 3 → s.cmdAdmin id = false → s.get .CM_want 0 id = 0 →
      (s.get .CM_dir 0 id = 0 ∨ s.get .CM_desc 0 id = s.get .CM_dlen 0 id) → s.opSent id ≠ 1 →
      exec (.commandStaged id agree) s = .next ((s.set .CM_st 4 0 id).cmdGo id))) ∧
  (∀ (s : State) (id : Nat), s.pickQueue (s.cmdBackend id) (s.get .CM_avoid 0 id) = none → s.cmdGo id = (s.cmdTry id).flushTry id) ∧
  (∀ (s u : State) (id q st : Nat), s.pickQueue (s.cmdBackend id) (s.get .CM_avoid 0 id) = some q → s.tlsUse id q = (u, st) →
    (st = 3 → s.cmdGo id = u.cmdOver id 0x06 0) ∧ (st ≠ 3 → s.cmdGo id = (u.cmdTry id).flushTry id))

/-- R365, R368, R369, R374 and R379; Table STOR-6. -/
def Obligations.BackendQueues : Prop :=
  (∀ (s u : State) (b q incap maxh2c j : Nat), j = b * 64 + q → s.get .BE_on 0 b ≠ 0 → q < s.beField b 1 1 → s.get .BEQ_on 0 j ≠ 1 →
    s.get .BEQ_was 0 j ≠ 1 → s.beField b 0 1 ≠ 2 → u = ((((((s.set .BEQ_on 1 0 j).set .BEQ_was 1 0 j).set .BEQ_ioccsz incap 0 j).set .BEQ_maxh2c
      maxh2c 0 j).set .BEQ_rto secUnits 0 j).set .BEQ_rec 0 0 j).lset .beUna [] 0 j → exec (.backendQueueConnect b q incap maxh2c) s =
        .next ((u.set .NVE_BE_STAT_connected (u.beConnected b) 0 b).storeKick)) ∧
  (∀ (s u v : State) (b q j : Nat), j = b * 64 + q → s.get .BEQ_on 0 j ≠ 0 → u = (s.set .BEQ_on 0 0 j).lset .beUna [] 0 j →
    v = u.set .NVE_BE_STAT_connected (u.beConnected b) 0 b → exec (.backendQueueDisconnect b q) s =
      .next (v.each (((v.keysOf .CM_sent_at).map (·.2)).filter (fun id => decide (v.get .CM_st 0 id = 5 ∧ v.get .CM_be 0 id = b ∧
        v.get .CM_q 0 id = q))) (fun id s => if s.get .NVE_CTRL_STAT_state 0 (s.get .CM_ctrl 0 id) = 2 then s else s.cmdResend id))) ∧
  (∀ (s u : State) (b q tag status dw0 id j : Nat) (agree : Bool) (d : List Nat), s.get .BE_on 0 b ≠ 0 → s.beField b 0 1 ≠ 2 → j = b * 64 + q →
    s.sentAs b q tag 7 = none →
    (s.sentAs b q tag 5 = some id → u = (s.lset .beUna (unaDrop id (s.lget .beUna 0 j).length (s.lget .beUna 0 j)) 0 j).set .BEQ_rto secUnits 0 j →
      exec (.backendResponse b q tag status dw0 agree d) s = .next ((u.beAnswer id status dw0 d).beFinish id agree)) ∧
    (s.sentAs b q tag 5 = none → exec (.backendResponse b q tag status dw0 agree d) s = .next (s.lateResp b q tag))) ∧
  (∀ (s u : State) (id : Nat), s.get .CM_st 0 id = 5 → s.get .NVE_CTRL_STAT_state 0 (s.get .CM_ctrl 0 id) ≠ 2 →
    u = s.advanceTo (s.get .CM_sent_at 0 id + max 1 (s.get .NVE_CFG_io_timeout_100ms) * 100 * msUnits) →
    exec (.backendTimeout id) s = .next ((u.bump .NVE_BE_STAT_timeouts 0 (u.get .CM_be 0 id)).cmdResend id)) ∧
  (∀ (s : State) (b q tag ttag off len id d : Nat), s.sentAs b q tag 5 = some id → s.beField b 0 1 ≠ 2 → d = (s.lget .cmdData 0 id).length →
    off < d → (∀ u, s.tlsHave id = (u, true) → exec (.readyToTransferPdu b q tag ttag off len) s =
      .next (u.h2cSend b q id ttag off (min len (d - off)) (min len (d - off)))) ∧
    (∀ u, s.tlsHave id = (u, false) → exec (.readyToTransferPdu b q tag ttag off len) s = .next u)) ∧
  (∀ (s u : State) (b q j id n : Nat) (r : List Nat), j = b * 64 + q → s.lget .beUna 0 j = id :: n :: r → s.get .BEQ_on 0 j ≠ 0 →
    s.beField b 0 1 ≠ 2 → u = s.advanceTo (s.now + s.get .BEQ_rto 0 j) → exec (.tcpRetransmitTimeout b q) s =
      .next ((u.emit .backend [b, q, n] (r.take n)).set .BEQ_rto (min (60 * secUnits) (2 * u.get .BEQ_rto 0 j)) 0 j))

/-- R390, R394 to R401: Tables CIPH-6 and CIPH-7. -/
def Obligations.KeyStore : Prop :=
  (∀ (s : State) (ch t : Nat), s.get .KEY_CH_busy 0 ch = 0 → s.targetCheck ch t = 0 →
    (s.targetEmpty ch = true → exec (.generate ch t) s = .next ((s.addw .DRBG_ctr 1).targetPut ch
      (Config.crypto algDrbg [leBytes 48 (s.get .DRBG_seed), leBytes 8 (s.get .DRBG_ctr)]))) ∧
    (s.targetEmpty ch = false → exec (.generate ch t) s = .next (s.keyRes ch 2)) ∧
    (∀ la lb src d, la = s.get .KEY_CH_len_a 0 ch → lb = s.get .KEY_CH_len_b 0 ch → src = s.get .KEY_CH_src_slot 0 ch →
      d = s.keyData ch → 24 ≤ la → la ≤ 72 → la % 8 = 0 → lb ≤ 12 → la - 8 + lb = attrLen (s.get .KEY_CH_attr 0 ch) →
      s.targetEmpty ch = true → ∃ u, exec (.unwrap ch t) s = .next u ∧ (s.sourceCheck t src 5 = (s, 0) →
        (Config.verifies algUnwrap [s.slotKey src, d.take la] = true → u = s.targetPut ch
          ((Config.crypto algUnwrap [s.slotKey src, d.take la] ++ List.replicate 72 0).take (la - 8) ++ slice d la lb)) ∧
        (Config.verifies algUnwrap [s.slotKey src, d.take la] = false → u = s.keyRes ch 7))) ∧
    (∀ kdf la lb src a d, kdf = s.get .KEY_CH_kdf 0 ch → la = s.get .KEY_CH_len_a 0 ch → lb = s.get .KEY_CH_len_b 0 ch →
      src = s.get .KEY_CH_src_slot 0 ch → a = s.get .KEY_CH_attr 0 ch → d = s.keyData ch → (kdf = 1 ∨ kdf = 2) → la ≤ 64 → lb ≤ 64 →
      s.targetEmpty ch = true → attrKind (s.slotAttr src) = 5 → ∃ u, exec (.derive ch t) s = .next u ∧
        (s.sourceCheck t src 6 = (s, 0) → u = s.targetPut ch
          ((Config.crypto (algKdf + kdf) [s.slotKey src, d.take la, leBytes 1 (attrKeyLen a)] ++ List.replicate (attrKeyLen a) 0).take
              (attrKeyLen a) ++
            (Config.crypto (algKdf + kdf) [s.slotKey src, slice d la lb, leBytes 1 (attrLen a - attrKeyLen a)] ++
              List.replicate (attrLen a - attrKeyLen a) 0).take (attrLen a - attrKeyLen a))))) ∧
  (∀ (s : State) (ch t k : Nat), s.get .KEY_CH_busy 0 ch = 0 → k = s.get .KEY_CH_slot 0 ch → s.slotCheck t k = 0 →
    exec (.keyDestroy ch t) s = .next ((s.keyDestroy k).keyRes ch 0) ∧
    (attrValid (s.slotAttr k) = false → exec (.keyQuery ch t) s = .next ((s.set .KEY_CH_attr (s.slotAttr k) 0 ch).keyRes ch 0))) ∧
  (∀ (s : State) (ch t src addr len : Nat), s.get .KEY_CH_busy 0 ch = 0 → src = s.get .KEY_CH_src_slot 0 ch →
    addr = s.get .KEY_CH_src_addr 0 ch → len = s.get .KEY_CH_length 0 ch → 0 < len → len ≤ 65536 → s.inWindow t addr len = true →
    ∃ u, exec (.keyMac ch t) s = .next u ∧ (s.sourceCheck t src 7 = (s, 0) → u = (s.each (List.range 4) (fun j s => s.set .KEY_CH_data
      (leNat (slice ((Config.crypto algCmac [s.slotKey src, s.mread addr len] ++ List.replicate 16 0).take 16) (4 * j) 4)) 0
        (ch * 32 + j))).keyRes ch 0)) ∧
  (∀ (s u : State), u = s.advanceTo ((s.now / msUnits + 1) * msUnits) →
    exec .drbgReseed s = .next (((u.set .DRBG_seed (u.freeVal 384)).set .DRBG_ctr 0).drew))

/-- R388 to R392, R397 and R398. -/
def Obligations.CipherBlocks : Prop :=
  (∀ (s : State) (n k : Nat), s.get .CIPC_st n k = 1 →
    exec (.keyLoad n k true) s = .next (s.cipLoad n k) ∧
    exec (.keyLoad n k false) s = .next ((s.set .CIPC_st 3 n k).lset .cipKey [] n k)) ∧
  (∀ (s u : State) (n h slot off len : Nat) (nonce aad b : List Nat) (agree : Bool), s.atEngine n h 5 = true →
    (attrKind (s.slotAttr slot) ≤ 1 ∨ attrKind (s.slotAttr slot) = 4) → s.cipUse n slot (s.pktTenant h) agree = (u, 2) →
    espBytes (attrKind (s.slotAttr slot)) true (u.cipKeyBytes n slot) (((u.cipMat n slot).drop (attrKeyLen (u.slotAttr slot)) ++
      List.replicate 12 0).take (12 - nonce.length) ++ nonce) aad (u.lget .pktBytes 0 h) off len = some b →
    exec (.cipherOperation n h slot true off len nonce aad agree) s = .next ((u.lset .pktBytes b 0 h).stageNext h)) ∧
  (∀ (s : State) (n h slot off len : Nat) (nonce aad : List Nat) (enc agree : Bool), s.atEngine n h 5 = true →
    (attrKind (s.slotAttr slot) = 2 ∨ attrKind (s.slotAttr slot) = 3 ∨ 4 < attrKind (s.slotAttr slot)) →
    exec (.cipherOperation n h slot enc off len nonce aad agree) s =
      .next ((s.bump .CIP_REGION_CNT0_cipher_fail n).dropPkt h reasonCIPHER_FAIL))

/-- R528; PRESENCE is result 9 (Table CIPH-7). -/
def Obligations.ZeroiseIssuer : Prop :=
  (∀ (s : State) (ch t : Nat), s.get .KEY_CH_busy 0 ch = 0 →
    exec (.keyZeroiseTenant ch t true) s = .next ((s.keyZeroise t).keyRes ch 0) ∧
    exec (.keyZeroiseTenant ch t false) s = .next ((s.set .KEY_CH_busy 0 0 ch).set .KEY_CH_result 9 0 ch)) ∧
  (∀ (s : State) (path a sc ch v : Nat) (r : RegRow), s.reaches path a r sc ch → r.reg = .KEY_CH_W00 → s.get .KEY_CH_busy 0 ch = 0 →
    v % 16 = 7 → exec (.registerWrite path a v) s = .next ((s.set .KEY_CH_busy 0 0 ch).set .KEY_CH_result 9 0 ch))

/-- R403, R408 to R410, R413 to R417. Which free handle an allocation takes is a free value (log entry 18). -/
def Obligations.ServiceCores : Prop :=
  (∀ (s : State) (h f id : Nat), (0 < id → id < 256 → h < 53 → (h < 48 ∨ f = 0) → f < 7 →
      exec (.corIpi h f id) s = .next (s.set .IMSIC_pend (setBit (s.get .IMSIC_pend h f) id true) h f)) ∧
    (id = 0 ∨ (48 ≤ h ∧ f ≠ 0) → exec (.corIpi h f id) s = .next s)) ∧
  (∀ (s : State) (n q v held : Nat), held = (s.get .COR_Q_prod n q + 0x10000 - v % 0x10000 % 0x10000) % 0x10000 →
    (s.queueHeld n q < held → exec (.queueConsWrite n q v) s = .next (s.set .COR_Q_cons_err 1 n q)) ∧
    (held ≤ s.queueHeld n q → v.testBit 31 = false → exec (.queueConsWrite n q v) s = .next (s.set .COR_Q_cons (v % 0x10000) n q)) ∧
    (held ≤ s.queueHeld n q → v.testBit 31 = true → held = 0 →
      exec (.queueConsWrite n q v) s = .next ((s.set .COR_Q_cons (v % 0x10000) n q).set .COR_Q_armed 1 n q)) ∧
    (held ≤ s.queueHeld n q → v.testBit 31 = true → 0 < held →
      exec (.queueConsWrite n q v) s = .next (((s.set .COR_Q_cons (v % 0x10000) n q).set .COR_Q_armed 1 n q).queueMsi n q))) ∧
  (∀ (s : State) (n : Nat), (∀ h, s.spanPick n 154 0 = some h → exec (.corPktAlloc n) s =
      .next ((((s.set .SPAN_units 154 n h).set .SPAN_fw 1 n h).set .SPAN_saved 0 n h).drew.answer [h + 2 ^ 31])) ∧
    (s.spanPick n 154 0 = none → exec (.corPktAlloc n) s = .next (s.answer [0]))) ∧
  (∀ (s : State) (n i : Nat) (d : List Nat), s.get .COR_CORE_inj_enable n i ≠ 0 → s.injWaiting n i ≠ 0 → d = s.injDesc n i →
    (s.injOk n d = true →
      (d.getD 0 0 = 1 → s.creditOk n (s.injTenant n d) = true →
        exec (.inject n i) s = .next ((s.addw .COR_CORE_inj_cons 1 n i).injDo n d)) ∧
      (d.getD 0 0 = 2 → s.creditOk n (s.injTenant n d) = true →
        exec (.injSend n i) s = .next ((s.addw .COR_CORE_inj_cons 1 n i).injDo n d)) ∧
      (d.getD 0 0 = 3 → exec (.injFree n i) s = .next (((s.addw .COR_CORE_inj_cons 1 n i).set .SPAN_units 0 n (leNat (slice d 4 4))).set
        .SPAN_fw 0 n (leNat (slice d 4 4)))) ∧
      (d.getD 0 0 = 4 → s.creditOk n (s.injTenant n d) = true →
        exec (.scanDone n i) s = .next ((s.addw .COR_CORE_inj_cons 1 n i).injDo n d))) ∧
    (s.injOk n d = false → exec (.inject n i) s = .next ((s.addw .COR_CORE_inj_cons 1 n i).bump .COR_CORE_bad_desc n i))) ∧
  (∀ (s : State) (n i h : Nat), h = 6 * n + i →
    (s.get .COR_CORE_state n i = 0 → exec (.coreRun n i) s = .next (((((((s.set .COR_CORE_run 1 n i).set .COR_CORE_state 1 n i).set
      .CORE_pc (s.get .COR_CORE_entry n i) 0 h).set .CORE_a0 h 0 h).set .CORE_a1 (s.get .COR_CORE_arg n i) 0 h).set .CORE_mode 3 0 h).set
        .CORE_iaf (b2n (!entryOk (s.get .COR_CORE_entry n i))) 0 h)) ∧
    (s.get .COR_CORE_state n i = 1 → exec (.haltReq n i) s = .next (s.set .CORE_halting 1 0 h)) ∧
    (s.get .COR_CORE_state n i = 1 → s.get .CORE_halting 0 h = 1 →
      exec (.coreHalted n i) s = .next ((s.set .COR_CORE_state 2 n i).set .CORE_halting 0 0 h)) ∧
    (s.get .COR_CORE_state n i = 2 →
      exec (.coreReset n i) s = .next (((s.set .COR_CORE_run 0 n i).set .COR_CORE_state 0 n i).hartClear h))) ∧
  (∀ (s u : State) (h v : Nat), s.get .CORE_cmp_set h 0 ≠ 0 → u = s.advanceTo (s.get .CORE_cmp h 0) →
    exec (.timerInterrupt h 0 v) s = .next (u.set .CORE_tip (b2n (decide (u.get .CORE_cmp h 0 ≤ u.coreTime h))) h 0)) ∧
  (∀ (s t u : State) (h k v : Nat), k ≠ 0 → h < 48 → t = (s.set .CORE_cmp v h k).set .CORE_cmp_set 1 h k →
    u = t.advanceTo (t.get .CORE_cmp h k) →
    exec (.timerInterrupt h k v) s = .next (u.set .CORE_tip (b2n (decide (u.get .CORE_cmp h k ≤ u.coreTime h))) h k))

/-- R420, R423, R427, R428 and R438; what `cfgWord` holds inside a capability is the model's choice (log entry 72). -/
def Obligations.HostRequests : Prop :=
  (∀ (s : State) (e f off v be bus k free : Nat), s.get .PCI_EP_CFG_link_up e ≠ 0 → s.get .PWR_reset ≠ 1 →
    (s.get .PCI_EP_CFG_cfg_ready e = 0 ∨ s.get .PCI_FN_STAT_flr_active e f = 1 → ∀ w,
      exec (.configRequest e f off w v be bus) s = .next ((s.answer []).emit .cpl [e, 2])) ∧
    (s.get .PCI_EP_CFG_cfg_ready e ≠ 0 → s.get .PCI_FN_STAT_flr_active e f ≠ 1 → s.get .PCI_FN_STAT_present e f = 0 → ∀ w,
      exec (.configRequest e f off w v be bus) s = .next ((s.answer []).emit .cpl [e, 1])) ∧
    (s.get .PCI_EP_CFG_cfg_ready e ≠ 0 → s.get .PCI_FN_STAT_flr_active e f ≠ 1 → s.get .PCI_FN_STAT_present e f ≠ 0 →
      s.cfgWord e f off = (k, free) →
      (free = 0 → exec (.configRequest e f off false v be bus) s = .next ((s.answer [k]).emit .cpl [e, 0] (leBytes 4 k))) ∧
      (free ≠ 0 → ∀ r, r = k + (s.freeVal 32 &&& free) →
        exec (.configRequest e f off false v be bus) s = .next ((s.drew.answer [r]).emit .cpl [e, 0] (leBytes 4 r))) ∧
      (off < 0x100 → exec (.configRequest e f off true v be bus) s = .next ((((s.set .FN_bus bus e f).cfgLowWrite e f off (mergeBytes be k v)
        (mergeBytes be 0 v)).answer []).emit .cpl [e, 0])) ∧
      (0x100 ≤ off → exec (.configRequest e f off true v be bus) s = .next ((((s.set .FN_bus bus e f).cfgHighWrite e f off (mergeBytes be k v)
        (mergeBytes be 0 v)).answer []).emit .cpl [e, 0])))) ∧
  (∀ (s : State) (e f : Nat), s.cfgWord e f 0 = (0xB7E5 + (s.fnKind e f).devId * 65536, 0)) ∧
  (∀ (s u : State) (e rid f b o len : Nat) (data : List Nat), s.get .PCI_EP_CFG_link_up e ≠ 0 → s.get .PWR_reset ≠ 1 →
    u = s.set .PATH_rid rid 0 (pathEp e) →
    (u.barOpen e f = true → u.barDecodes e f b o len = true →
      exec (.barRequest e rid f b true o len data) s = .next (u.barWrite e f b o (fixLen len data)) ∧
      exec (.barRequest e rid f b false o len data) s = .next (u.barRead e f b o len)) ∧
    (u.barOpen e f = false ∨ u.barDecodes e f b o len = false → u.get .PCI_FN_STAT_present e f ≠ 1 →
      exec (.barRequest e rid f b true o len data) s = .next u ∧
      exec (.barRequest e rid f b false o len data) s = .next ((u.answer []).emit .cpl [e, 1]))) ∧
  (∀ (s : State) (e f off len : Nat) (d : List Nat), d = (List.range len).map (fun i => (s.lget .romBytes 0 f).getD (off + i) 0) →
    (s.get .FN_rom e f % 2 = 1 → s.getb .FN_cmd 1 e f = true → s.get .PCI_FN_STAT_dstate e f = 0 → s.get .PCI_FN_STAT_flr_active e f = 0 →
      s.get .PCI_EP_CFG_link_up e = 1 → exec (.expansionRomRead e f off len) s = .next ((s.answer d).emit .cpl [e, 0] d)) ∧
    (s.get .FN_rom e f % 2 ≠ 1 ∨ s.getb .FN_cmd 1 e f = false →
      exec (.expansionRomRead e f off len) s = .next ((s.answer []).emit .cpl [e, 1])))

/-- R432 to R444; Tables HOST-7 and HOST-8. -/
def Obligations.Functions : Prop :=
  (∀ (s : State) (e f : Nat), (s.get .PCI_FN_STAT_bme e f ≠ 0 → exec (.bmeClear e f) s = .next ((s.set .PCI_FN_STAT_bme 0 e f).fnStop e f)) ∧
    (s.get .PCI_FN_STAT_present e f ≠ 0 → s.get .PCI_EP_CFG_link_up e ≠ 0 → s.get .PCI_FN_STAT_flr_active e f ≠ 1 →
      exec (.bmeSet e f) s = .next ((s.set .PCI_FN_STAT_bme 1 e f).fnResume e f) ∧
      exec (.flr e f) s = .next (((s.each (if f < 4 then s.vfsOf e f else []) (fun v s => (s.set .PCI_FN_STAT_flr_active 1 e v).fnReset e v)).set
        .PCI_FN_STAT_flr_active 1 e f).fnReset e f)) ∧
    (s.get .PCI_FN_STAT_flr_active e f ≠ 0 → exec (.flrComplete e f) s =
      .next (((if f < 4 then s.vfsGone e f else s).fnResetEnd e f).frs e f)) ∧
    exec (.vfEnableClear e f) s = .next ((s.vfsGone e f).set .FN_vf_en 0 e f) ∧
    (s.get .PCI_FN_STAT_present e f ≠ 0 → s.get .PCI_FN_STAT_dstate e f ≠ 3 → exec (.d3hotEntry e f) s =
      .next ((s.set .PCI_FN_STAT_dstate 3 e f).each (f :: s.vfsOf e f) (fun g s => s.fnStop e g))) ∧
    (s.get .PCI_FN_STAT_dstate e f = 3 → exec (.d0Return e f) s =
      .next (((s.set .PCI_FN_STAT_dstate 0 e f).each (f :: s.vfsOf e f) (fun g s => if s.fnRuns e g then s.fnResume e g else s)).frs e f))) ∧
  (∀ (s u : State) (e speed width : Nat) (flit drs : Bool),
    (s.get .PCI_EP_CFG_link_up e ≠ 0 → exec (.dlDown e) s = .next (s.linkDown e)) ∧
    (s.get .PCI_perst e ≠ 1 → exec (.perstAssert e) s = .next ((s.linkDown e).set .PCI_perst 1 e)) ∧
    exec (.perstDeassert e) s = .next (s.set .PCI_perst 0 e) ∧
    (s.get .PCI_EP_CFG_link_up e ≠ 1 → s.get .PCI_perst e ≠ 1 → s.get .PWR_reset ≠ 1 →
      s.getb .XD_CLK_DIE_PRESENT_present (7 + e) 0 (2 + e) = true →
      u = ((((((s.set .PCI_EP_CFG_link_up 1 e).set .PCI_EP_CFG_speed speed e).set .PCI_EP_CFG_width width e).set .PCI_EP_CFG_flit (b2n flit) e).set
        .PCI_drs (b2n drs) e).set .PTM_count 0 e).readiness e → exec (.dlUp e speed width flit drs) s =
          .next (if u.get .PME_st e = 1 ∧ u.get .PME_en e = 1 then u.emit .pcieMsg [e, 0, 6, 0, 0] else u))) ∧
  (∀ (s : State) (e k : Nat), s.get .IDE_state e k = 2 → exec (.ideCheckFailed e k) s =
    .next (((((s.set .IDE_state 0 e k).set .IDE_bad 1 e k).set .IDE_go 0 e k).set .IDE_prog 0 e k).aerU e 0 28)) ∧
  (∀ (s : State) (e tag st : Nat) (poison : Bool) (d got : List Nat), s.get .PCI_EP_CFG_link_up e ≠ 0 →
    (s.get .TAG_state e tag = 1 → s.get .TAG_flush e tag ≠ 1 → s.ideBad e (s.get .TAG_fn e tag) = false →
      got = (s.lget .tagData e tag ++ d).take (s.get .TAG_len e tag) →
      (s.get .TAG_len e tag ≤ got.length → exec (.completionReceive e tag 0 false d) s =
        .next ((s.tagFree e tag).readEnd e (s.get .TAG_kind e tag) (s.get .TAG_a e tag) (s.get .TAG_b e tag) (some got))) ∧
      (got.length < s.get .TAG_len e tag → exec (.completionReceive e tag 0 false d) s = .next (s.lset .tagData got e tag))) ∧
    (s.get .TAG_state e tag = 2 → exec (.completionReceive e tag st poison d) s =
      .next (((s.bump .PCI_CPL_STAT0_late_cpls e).aerU e (s.get .TAG_fn e tag) 16 true).readErr e (s.get .TAG_fn e tag))) ∧
    (s.get .TAG_state e tag = 0 → exec (.completionReceive e tag st poison d) s = .next (s.aerU e 0 16 true))) ∧
  (∀ (s u v : State) (e tag f : Nat), s.get .TAG_state e tag = 1 → f = s.get .TAG_fn e tag →
    u = (s.advanceTo (s.get .TAG_at e tag + timeoutOf (s.get .FN_cpl_timeout e f))).bump .PCI_CPL_STAT0_timeouts e →
    v = (((u.set .TAG_state 2 e tag).set .TAG_free_at (u.now + u.quarantine e) e tag).quarantineCount e).lset .tagData [] e tag →
    exec (.completionTimeout e tag) s = .next (if v.get .TAG_flush e tag = 1 then v else
      ((v.aerU e f 14).readErr e f).readEnd e (u.get .TAG_kind e tag) (u.get .TAG_a e tag) (u.get .TAG_b e tag) none)) ∧
  (∀ (s : State) (e tag : Nat), s.get .TAG_state e tag = 2 → exec (.tagQuarantineExpiry e tag) s =
    .next (((s.advanceTo (s.get .TAG_free_at e tag)).tagFree e tag).quarantineCount e))

/-- R443, R444, R521 and R523; Tables HOST-9 and BOOT-9: what each command of the responder completes with. The layouts of messages are
those of DSP0274 and the error codes its own (PRESUMED, log entry 68); whether a MAC verifies is uninterpreted (log entry 4); the
responder's capability exponent, nonces and ephemeral values are free values. -/
def Obligations.SpdmResponder : Prop :=
  (∀ (s : State) (e ss st : Nat),
    (s.spdmUp e = true ↔ s.get .PCI_EP_CFG_link_up e = 1 ∧ s.get .PCI_EP_CFG_cfg_ready e = 1 ∧ s.get .BOOT_STATUS_stage ≠ 0) ∧
    (s.spdmIn e 0 st = true ↔ s.get .SPDM_st e = 3) ∧ (ss ≠ 0 → (s.spdmIn e ss st = true ↔ s.get .SPDM_sess e (ss - 1) = st))) ∧
  (∀ (s u : State) (e : Nat) (r : List Nat), s.spdmUp e = true → r = [0x10, 0x04, 0, 0, 0, 1, 0, 0x13] →
    u = s.each [0, 1] (fun k s => (s.set .SPDM_sess 0 e k).lset .spdmKey [] e k) → exec (.getVersion e) s =
      .next ((((((u.set .SPDM_st 1 e).lset .spdmVca ([0x10, 0x84, 0, 0] ++ r) e).lset .spdmM1 [] e).lset .spdmL1 [] e 0).spdmSend e 0 r))) ∧
  (∀ (s : State) (e p1 p2 : Nat) (d r : List Nat), s.spdmUp e = true →
    (s.get .SPDM_st e = 1 →
      r = [0x13, 0x61, 0, 0, 0, s.freeVal 8, 0, 0] ++ [0xD6, 0x62, 0, 0] ++ [0, 0x80, 0, 0] ++ [0, 0x80, 0, 0] →
      exec (.getCapabilities e p1 p2 d) s = .next (((s.drew.set .SPDM_st 2 e).lset .spdmVca
        (s.lget .spdmVca e ++ [0x13, 0xE1, p1, p2] ++ d ++ r) e).spdmSend e 0 r)) ∧
    (s.get .SPDM_st e = 2 →
      r = [0x13, 0x63, 4, 0, 52, 0, 1, 2, 4, 0, 0, 0, 0x80, 0, 0, 0, 2, 0, 0, 0] ++ List.replicate 16 0 ++
        [2, 0x20, 0x10, 0, 3, 0x20, 2, 0, 4, 0x20, 0, 0, 5, 0x20, 1, 0] →
      exec (.negotiateAlgorithms e p1 p2 d) s = .next (((s.set .SPDM_st 3 e).lset .spdmVca
        (s.lget .spdmVca e ++ [0x13, 0xE3, p1, p2] ++ d ++ r) e).spdmSend e 0 r))) ∧
  (∀ (s : State) (e ss p1 p2 n : Nat) (d c r : List Nat), s.spdmUp e = true → s.spdmIn e ss 2 = true → c = s.certChain →
    (r = [0x13, 0x01, 1, 1] ++ sha384 c → exec (.getDigests e ss) s =
      .next ((s.lset .spdmM1 (s.lget .spdmM1 e ++ [0x13, 0x81, 0, 0] ++ r) e).spdmSend e ss r)) ∧
    (p1 % 16 = 0 → leAt d 0 2 < c.length → n = min (leAt d 2 2) (c.length - leAt d 0 2) →
      r = [0x13, 0x02, 0, 0] ++ leBytes 2 n ++ leBytes 2 (c.length - leAt d 0 2 - n) ++ slice c (leAt d 0 2) n →
      exec (.getCertificate e ss p1 p2 d) s = .next ((s.lset .spdmM1 (s.lget .spdmM1 e ++ [0x13, 0x82, p1, p2] ++ d ++ r) e).spdmSend e ss r))) ∧
  (∀ (s u : State) (e p1 p2 : Nat) (d nonce r t : List Nat), s.spdmUp e = true → s.spdmIn e 0 2 = true → p1 = 0 → 40 ≤ d.length →
    s.freeBytes 32 = (u, nonce) → r = [0x13, 0x03, 0, 1] ++ sha384 u.certChain ++ nonce ++ u.measSummary p2 ++ [0, 0] ++ slice d 32 8 →
    t = u.lget .spdmVca e ++ u.lget .spdmM1 e ++ [0x13, 0x83, p1, p2] ++ d ++ r →
    exec (.challenge e p1 p2 d) s = .next ((u.lset .spdmM1 [] e).spdmSend e 0 (r ++ u.spdmSign t))) ∧
  (∀ (s u : State) (e ss p1 p2 : Nat) (l d nonce rec_ r t : List Nat), s.spdmUp e = true → s.spdmIn e ss 2 = true →
    (p2 = 0 ∧ l = [] ∨ 1 ≤ p2 ∧ p2 ≤ 6 ∧ l = [p2] ∨ p2 = 0xFF ∧ l = [1, 2, 3, 4, 5, 6]) → rec_ = l.flatMap (fun i => s.measRecord i) →
    s.freeBytes 32 = (u, nonce) → r = [0x13, 0x60, (if p2 = 0 then 6 else 0), 0, l.length] ++ leBytes 3 rec_.length ++ rec_ ++ nonce ++ [0, 0] ++
      slice d (if p1 % 2 = 1 then 33 else 0) 8 → t = u.lget .spdmL1 e ss ++ [0x13, 0xE0, p1, p2] ++ d ++ r →
    (p1 % 2 ≠ 1 → exec (.getMeasurements e ss p1 p2 d) s = .next ((u.lset .spdmL1 t e ss).spdmSend e ss r)) ∧
    (p1 % 2 = 1 → 41 ≤ d.length → d.getD 32 0 % 16 = 0 → exec (.getMeasurements e ss p1 p2 d) s =
      .next ((u.lset .spdmL1 [] e ss).spdmSend e ss (r ++ u.spdmSign (u.lget .spdmVca e ++ t))))) ∧
  (∀ (s u : State) (e p1 p2 sid : Nat) (d eph r t key mac : List Nat), s.spdmUp e = true → s.spdmIn e 0 2 = true → p2 = 0 → 132 ≤ d.length →
    (∀ k, [0, 1].find? (fun k => decide (s.get .SPDM_sess e k = 0)) = some k → sid = s.freeVal 16 → s.drew.freeBytes 128 = (u, eph) →
      r = [0x13, 0x64, 0, 0] ++ leBytes 2 sid ++ [0, 0] ++ eph ++ u.measSummary p1 ++ [0, 0] →
      t = u.lget .spdmVca e ++ sha384 u.certChain ++ [0x13, 0xE4, p1, p2] ++ d ++ r →
      key = Config.crypto algSpdmKey [slice d 36 96, eph, t ++ u.spdmSign t] → mac = fixLen 48 (Config.crypto algHmac [key, t ++ u.spdmSign t]) →
      exec (.keyExchange e p1 p2 d) s = .next ((((((u.set .SPDM_sess 1 e k).set .SPDM_sid (leAt d 0 2 + sid * 65536) e k).set .SPDM_seq 0 e k).lset
        .spdmTh (t ++ u.spdmSign t ++ mac) e k).lset .spdmKey key e k).spdmSend e 0 (r ++ u.spdmSign t ++ mac))) ∧
    (s.get .SPDM_sess e 0 ≠ 0 → s.get .SPDM_sess e 1 ≠ 0 → exec (.keyExchange e p1 p2 d) s = .next (s.spdmErr e 0 0x0A))) ∧
  (∀ (s : State) (e ss p1 p2 : Nat) (d : List Nat), s.spdmUp e = true → ss ≠ 0 →
    (s.spdmIn e ss 1 = true → p1 = 0 →
      (Config.verifies algHmac [s.lget .spdmKey e (ss - 1), s.lget .spdmTh e (ss - 1) ++ [0x13, 0xE5, p1, p2], d.take 48] = true →
        exec (.spdmFinish e ss p1 p2 d) s = .next (((((s.spdmSend e ss [0x13, 0x65, 0, 0]).set .SPDM_sess 2 e (ss - 1)).lset .spdmKey
          (Config.crypto algSpdmKey [s.lget .spdmKey e (ss - 1), s.lget .spdmTh e (ss - 1) ++ [0x13, 0xE5, p1, p2] ++ d ++ [0x13, 0x65, 0, 0]])
            e (ss - 1)).set .SPDM_seq 0 e (ss - 1)).lset .spdmTh [] e (ss - 1))) ∧
      (Config.verifies algHmac [s.lget .spdmKey e (ss - 1), s.lget .spdmTh e (ss - 1) ++ [0x13, 0xE5, p1, p2], d.take 48] = false →
        exec (.spdmFinish e ss p1 p2 d) s = .next (((s.spdmErr e ss 6).set .SPDM_sess 0 e (ss - 1)).lset .spdmKey [] e (ss - 1)))) ∧
    (s.spdmIn e ss 2 = true →
      exec (.heartbeat e ss) s = .next (s.spdmSend e ss [0x13, 0x68, 0, 0]) ∧
      exec (.keyUpdate e ss 3 p2) s = .next (s.spdmSend e ss [0x13, 0x69, 3, p2]) ∧
      (p1 = 1 ∨ p1 = 2 → exec (.keyUpdate e ss p1 p2) s = .next ((((s.spdmSend e ss [0x13, 0x69, p1, p2]).lset .spdmKey
        (Config.crypto algSpdmKey [s.lget .spdmKey e (ss - 1), [p1]]) e (ss - 1)).set .SPDM_seq 0 e (ss - 1)))) ∧
      exec (.endSession e ss) s =
        .next (((s.spdmSend e ss [0x13, 0x6C, 0, 0]).set .SPDM_sess 0 e (ss - 1)).lset .spdmKey [] e (ss - 1)))) ∧
  (∀ (s : State) (e ss k sub dir b : Nat) (key : List Nat), s.spdmUp e = true → ss ≠ 0 → s.spdmIn e ss 2 = true → b = sub * 2 + dir →
    exec (.ideKmKeyProgram e ss k sub dir false key) s =
      .next (((s.lset .ideKey (key.take 40) e (k * 6 + b)).setb .IDE_prog b true e k).spdmSend e ss
        [0x13, 0x7E, 0, 0, 3, 0, 2, 1, 0, 8, 0, 0, 3, 0, 0, k, 0, sub * 16 + dir * 2, 0]) ∧
    (∀ u, u = (if s.getb .IDE_prog b e k = true then s.setb .IDE_go b true e k else s) → exec (.ideKmKeyProgram e ss k sub dir true key) s =
      .next ((if u.get .IDE_go e k = 63 then (u.set .IDE_state 2 e k).set .IDE_bad 0 e k else u).spdmSend e ss
        [0x13, 0x7E, 0, 0, 3, 0, 2, 1, 0, 8, 0, 0, 6, 0, 0, k, 0, sub * 16 + dir * 2, 0]))) ∧
  (∀ (s : State) (e ss p1 p2 k sub dir : Nat) (d : List Nat) (go : Bool), s.spdmUp e = true →
    (s.get .SPDM_st e ≠ 1 → exec (.getCapabilities e p1 p2 d) s = .next (s.spdmSend e 0 [0x13, 0x7F, 4, 0])) ∧
    (s.get .SPDM_st e ≠ 2 → exec (.negotiateAlgorithms e p1 p2 d) s = .next (s.spdmSend e 0 [0x13, 0x7F, 4, 0])) ∧
    (s.spdmIn e 0 2 = false → exec (.challenge e p1 p2 d) s = .next (s.spdmSend e 0 [0x13, 0x7F, 4, 0]) ∧
      exec (.keyExchange e p1 p2 d) s = .next (s.spdmSend e 0 [0x13, 0x7F, 4, 0])) ∧
    (s.spdmIn e ss 2 = false → exec (.getDigests e ss) s = .next (s.spdmSend e ss [0x13, 0x7F, 4, 0]) ∧
      exec (.getCertificate e ss p1 p2 d) s = .next (s.spdmSend e ss [0x13, 0x7F, 4, 0]) ∧
      exec (.getMeasurements e ss p1 p2 d) s = .next (s.spdmSend e ss [0x13, 0x7F, 4, 0])) ∧
    (ss = 0 ∨ s.spdmIn e ss 1 = false → exec (.spdmFinish e ss p1 p2 d) s = .next (s.spdmSend e ss [0x13, 0x7F, 4, 0])) ∧
    (ss = 0 ∨ s.spdmIn e ss 2 = false → exec (.heartbeat e ss) s = .next (s.spdmSend e ss [0x13, 0x7F, 4, 0]) ∧
      exec (.keyUpdate e ss p1 p2) s = .next (s.spdmSend e ss [0x13, 0x7F, 4, 0]) ∧
      exec (.endSession e ss) s = .next (s.spdmSend e ss [0x13, 0x7F, 4, 0]) ∧
      exec (.ideKmKeyProgram e ss k sub dir go d) s = .next (s.spdmSend e ss [0x13, 0x7F, 4, 0]))) ∧
  (∀ (s : State) (e ix : Nat), s.get .PCI_EP_CFG_link_up e = 1 → s.get .PCI_EP_CFG_cfg_ready e = 1 → exec (.doeDiscovery e ix) s =
    .next (s.emit .msg [2, e, 0] (doeObject 0 (if ix < 3 then leBytes 2 1 ++ [ix, if ix < 2 then ix + 1 else 0] else [0xFF, 0xFF, 0, 0]))))

/-- R446 to R462; Table RING-9. -/
def Obligations.Rings : Prop :=
  (∀ (s u : State) (e r : Nat), s.get .RNG_RING_state e r = 0 → u = (if s.isWork e r then s.set .RNG_fetch (s.get .RNG_RING_head e r) e r else s) →
    (s.ringOk e r = true → exec (.ringEnable e r) s =
      .next (((u.set .RNG_RING_state 1 e r).set .RNG_RING_enable 1 e r).set .RNG_target (u.ringTarget e r) e r)) ∧
    (s.ringOk e r = false → exec (.ringEnable e r) s = .next (s.set .RNG_RING_cfg_err 1 e r))) ∧
  (∀ (s u v : State) (e r : Nat), u = (if (s.get .RNG_RING_state e r = 1 ∨ s.get .RNG_RING_state e r = 2) ∧ s.isWork e r = true then
      s.ringUnfetch e r else s) → v = (if s.get .RNG_RING_state e r ≠ 0 ∧ u.get .RNG_RING_kind e r = 4 then u.cplDiscard e r else u) →
    exec (.ringDisable e r) s = .next ((v.set .RNG_RING_enable 0 e r).set .RNG_RING_state 0 e r)) ∧
  (∀ (s : State) (e f base n : Nat), (isNetFn f = true → n ≤ (if f < 4 then 32768 else 1024) → base + n ≤ 32768 →
      (∀ k ∈ s.keysOf .RNG_FN_MAP_ring_count, ¬ (k.1 = e ∧ k.2 ≠ f ∧ base < s.get .RNG_FN_MAP_ring_base e k.2 + s.get .RNG_FN_MAP_ring_count e k.2 ∧
        s.get .RNG_FN_MAP_ring_base e k.2 < base + n ∧ n ≠ 0 ∧ s.get .RNG_FN_MAP_ring_count e k.2 ≠ 0)) →
      (recRings (s.get .TREC 0 (s.ownerOf e f)) e).1 ≤ base →
      base + n ≤ (recRings (s.get .TREC 0 (s.ownerOf e f)) e).1 + (recRings (s.get .TREC 0 (s.ownerOf e f)) e).2 →
      exec (.fnMapWrite e f base n) s = .next ((s.set .RNG_FN_MAP_ring_base base e f).set .RNG_FN_MAP_ring_count n e f)) ∧
    (isNetFn f = false ∨ 32768 < base + n → exec (.fnMapWrite e f base n) s = .next (s.set .RNG_CFG_map_err 1 e))) ∧
  (∀ (s : State) (e r v h : Nat), s.isWork e r = true → s.ringOpen e r = true → h = s.get .RNG_RING_head e r →
    (bitsOf v 17 14 = 0 → cnt17 v h ≤ s.ringSize e r → cnt17 (s.get .RNG_RING_tail e r) h ≤ cnt17 (v % 2 ^ 17) h →
      exec (.doorbellTail e r v) s = .next (s.set .RNG_RING_tail v e r)) ∧
    (bitsOf v 17 14 ≠ 0 ∨ s.ringSize e r < cnt17 v h → exec (.doorbellTail e r v) s = .next (s.set .RNG_RING_doorbell_err 1 e r))) ∧
  (∀ (s u : State) (e r v f : Nat), s.isWork e r = false → s.ringOpen e r = true →
    (bitsOf v 17 14 = 0 → cnt17 (s.get .RNG_RING_head e r) (v % 2 ^ 17) ≤ s.ringHeld e r →
      u = (if v.testBit 31 then (s.set .RNG_RING_tail v e r).set .RNG_RING_armed 1 e r else s.set .RNG_RING_tail v e r) → u.ringFn e r = some f →
      exec (.doorbellCons e r v) s = .next (((u.cplDrain e f r (u.lget .cplOver e r)).cqResume e f r).ringIrq e f r)) ∧
    (s.ringHeld e r < cnt17 (s.get .RNG_RING_head e r) (v % 2 ^ 17) → exec (.doorbellCons e r v) s = .next (s.set .RNG_RING_doorbell_err 1 e r))) ∧
  (∀ (s u : State) (e : Nat), s.get .STR_cold ≠ 1 → s.fatal = false →
    u = s.each (s.participants e) (fun p s => if p < 2 ^ 15 ∧ s.get .RNG_RING_kind e p = 0 then (s.ringRegion e p).1 else s) →
    exec (.ringFetch e) s = .next (u.fetchRound e 256 ((u.participants e).map (fun p => (p, u.partWeight e p))))) ∧
  (∀ (s : State) (e r f c : Nat) (d rest : List Nat), s.ringFn e r = some f → s.ringCq e r = some c → s.headDesc e r = (some d, rest) →
    s.get .RNG_RING_state e r = 1 → s.get .STR_cold ≠ 1 → s.isWork e r = true →
    (s.cqFree e c = true → exec (.descriptorStart e r) s = .next ((s.lset .ringFetched rest e r).descStart e f r c d)) ∧
    (s.cqFree e c = false → (s.cqPause e f c).get .RNG_RING_state e r = 1 →
      exec (.descriptorStart e r) s = .next ((s.cqPause e f c).set .RNG_RING_state 2 e r)) ∧
    (s.cqFree e c = false → (s.cqPause e f c).get .RNG_RING_state e r ≠ 1 → exec (.descriptorStart e r) s = .next (s.cqPause e f c))) ∧
  (∀ (s u v x : State) (h e r f c w : Nat) (b ws : List Nat), s.get .PKT_live 0 h ≠ 0 → s.get .PKT_hostring 0 h ≠ 0 →
    ringNo (s.get .PKT_hostring 0 h - 1) = (e, r) → b = s.lget .pktBytes 0 h →
    (s.get .PCI_EP_CFG_link_up e ≠ 0 → s.ringFn e r = some f → s.ringCq e r = some c → s.bufsFor b.length 8 (s.lget .rxBufs e r) = some ws →
      s.get .RNG_RING_state e r = 1 → s.get .RNG_RING_kind e r = 1 → s.mayIssue e f = true → s.cqFree e c = true → w = ws.headD 0 →
      u = (s.reserve e c w).bufsWrite e f (s.ringPasid e r) ws b →
      v = (u.lset .rxBufs ((u.lget .rxBufs e r).drop ws.length) e r).lset .ringOrder
        ((u.lget .ringOrder e r).filter (fun x => !(ws.drop 1).contains x)) e r →
      x = (((v.set .WRK_ts (v.meta_ h 416 64 + v.meta_ h 480 32 * 2 ^ 64) 0 w).set .WRK_bytes b.length 0 w).set .WRK_nbufs ws.length 0 w).set
        .WRK_detail (v.pktInPort h) 0 w →
      exec (.hostRxPlace h) s = .next ((((((x.set .WRK_hash (x.meta_ h 16 32) 0 w).set .WRK_class (x.meta_ h 96 64) 0 w).workDone w 0).txDiverted
        h).freePkt h).cqPause e f c)) ∧
    (s.get .PCI_EP_CFG_link_up e = 0 → exec (.hostRxPlace h) s = .next ((s.hostDown e).dropPkt h reasonHOST_DOWN)) ∧
    (s.get .PCI_EP_CFG_link_up e ≠ 0 → s.bufsFor b.length 8 (s.lget .rxBufs e r) = none → exec (.hostRxPlace h) s =
      .next ((s.bump .RNG_RING_drops e r).dropPkt h reasonRX_RING))) ∧
  (∀ (s u v : State) (e r w f c : Nat) (rest : List Nat), s.lget .ringOrder e r = w :: rest → s.ringFn e r = some f → s.ringCq e r = some c →
    s.get .WRK_done 0 w ≠ 0 → u = (s.lset .ringOrder rest e r).lateTake w →
    v = (if u.get .WRK_conn 0 w ≠ 0 ∧ u.get .CN_state 0 (u.get .WRK_conn 0 w - 1) = 1 then u
      else u.lset .rxBufs ((u.lget .rxBufs e r).erase w) e r) →
    exec (.completionPost e r) s = .next (((if v.get .WRK_resv 0 w = 0 then v.reserve e c w else v).cplPost e f c w).cqResume e f c)) ∧
  (∀ (s u v : State) (e c f : Nat), s.ringFn e c = some f → s.get .RNG_RING_state e c = 2 → s.get .RNG_RING_kind e c = 4 →
    u = s.advanceTo (s.get .RNG_stall_at e c + max 1 (s.get .RNG_CFG_stall_ms e) * msUnits) →
    v = (u.cplDiscard e c).set .RNG_RING_state 4 e c → exec (.completionStallTimeout e c) s =
      .next ((v.ringsNaming e f c 1 ++ v.ringsNaming e f c 2).foldl (fun s r => s.ringError e r 2) v)) ∧
  (∀ (s : State) (e r f : Nat), s.ringFn e r = some f → s.isWork e r = false → s.get .RNG_RING_armed e r ≠ 0 → s.get .RNG_irq_cnt e r ≠ 0 →
    s.get .RNG_RING_mod_time e r ≠ 0 → exec (.moderationTimer e r) s =
      .next ((s.advanceTo (s.get .RNG_irq_at e r + s.get .RNG_RING_mod_time e r * 1024)).ringIrq e f r))

/-- R470 to R476; Tables TEN-5 to TEN-7. -/
def Obligations.Tenants : Prop :=
  (∀ (s : State) (t r : Nat), s.get .TEN_CMD_STATUS_busy ≠ 1 → r = s.tenNew →
    (s.get .TEN_STATE_state 0 t = 0 → s.recCheck t r = 0 → exec (.tenCreate t) s =
      .next (((((s.windowZero 0 r).set .TREC r 0 t).set .TEN_STATE_state 1 0 t).set .TEN_STATE_forced 0 0 t).tenRes 0)) ∧
    (s.get .TEN_STATE_state 0 t = 0 → ∀ x, s.recCheck t r = x + 1 → exec (.tenCreate t) s = .next (s.tenRes (x + 1))) ∧
    (s.get .TEN_STATE_state 0 t ≠ 0 → exec (.tenCreate t) s = .next (s.tenRes 2)) ∧
    (s.get .TEN_STATE_state 0 t = 1 → s.recCheck t r = 0 → exec (.tenModify t) s = .next (if s.recInUse t r then s.tenRes 5 else
      ((s.windowZero (s.get .TREC 0 t) r).set .TREC r 0 t).tenRes 0)) ∧
    (t ≠ 0 → s.get .TEN_STATE_state 0 t ≠ 0 → s.fnsOf t = [] → (∀ k ∈ s.validSlots, s.tenSlot t k = false) → s.cnOfTenant t = false →
      (∀ k ∈ s.keysOf .NS_on, s.nsAt k.2 28 1 ≠ t) → exec (.tenDestroy t) s =
        .next (((((s.windowZero (s.get .TREC 0 t) 0).set .TREC 0 0 t).set .TEN_STATE_state 0 0 t).accountsClear t).tenRes 0)) ∧
    (t ≠ 0 → s.get .TEN_STATE_state 0 t ≠ 0 → s.fnsOf t ≠ [] → exec (.tenDestroy t) s = .next (s.tenRes 5)) ∧
    exec (.tenDestroy 0) s = .next (s.tenRes 6) ∧
    (s.get .TEN_STATE_state 0 t = 2 → s.cnOfTenant t = false → (∀ k ∈ s.keysOf .RNG_RING_state, s.ringTenant k.1 k.2 ≠ some t) →
      exec (.tenResume t) s = .next ((s.set .TEN_STATE_state 1 0 t).tenRes 0)) ∧
    (t ≠ 0 → s.get .TEN_STATE_state 0 t = 1 → exec (.forceFatal t) s =
      .next ((s.tenantFatal { src := 0x1B, cls := .tenantFatal, tenant := t } true).tenRes 0)) ∧
    exec (.forceFatal 0) s = .next (s.tenRes 6) ∧
    exec (.tenQuery t) s = .next ((s.each (List.range 12) (fun k s => s.set .TEN_REC (recAt (s.get .TREC 0 t) (4 * k) 4) 0 k)).tenRes 0)) ∧
  (∀ (s : State) (e f v : Nat),
    (f ≠ 2 → s.fnQuiet e f = true → s.tenActive (v % 256) = true → exec (.fnOwnerWrite e f v) s =
      .next ((if v.testBit 8 then s.set .TEN_FN_OWNER_own_err 0 e f else s).set .TEN_FN_OWNER_tenant (v % 256) e f)) ∧
    (f = 2 ∨ s.fnQuiet e f = false ∨ s.tenActive (v % 256) = false → exec (.fnOwnerWrite e f v) s = .next (s.set .TEN_FN_OWNER_own_err 1 e f)))

/-- R479 to R500. -/
def Obligations.Energy : Prop :=
  (∀ (s u : State) (n t e : Nat) (l : List Nat), e = ((l.take 9).zipIdx.map (fun x => x.1 * s.get .NRL_EPE_e_fpj n x.2)).sum * s.get .ISLAND_mv 0 n ^ 2 →
    u = s.charge n t (e * s.get .NRL_K_k) (e * 4096) →
    exec (.chargePost n t l false) s = .next u ∧
    exec (.chargePost n t l true) s = .next (u.addw .NRL_rx_uj (u.get .NRL_chg n t - s.get .NRL_chg n t) n)) ∧
  (∀ (s a u v : State) (good m est k : Nat) (l : List Nat), s.nRails ≠ 0 → s.get .NRL_pm_done ≠ 1 → s.get .PWR_fail ≠ 1 →
    (∀ j, j < s.nRails → good.testBit j = true) → a = (s.each (List.range s.nRails) (fun k s => s.railAsk k)).set .NRL_pm_done 1 →
    u = (a.each (List.range s.nRails) (fun j s => (s.set .NRL_rail_mw (linear11 (l.getD j 0)) 0 j).set .NRL_rail_at s.now 0 j)).set
      .NRL_CFG_meas_stale 0 → m = ((List.range s.nRails).map (fun j => u.get .NRL_rail_mw 0 j)).sum →
    v = u.set .NRL_MEAS_meas_mw (min m (2 ^ 20 - 1)) → est = v.get .NRL_EST_est_mw → est ≠ 0 →
    k = (63 * v.get .NRL_K_k * est + 4096 * m) / (64 * est) → 3277 < k → k < 5120 → exec (.pmbusRead good l) s = .next (v.set .NRL_K_k k)) ∧
  (∀ (s : State) (k : Nat), k < s.nRails → exec (.meterStale k) s =
    .next ((s.advanceTo (s.get .NRL_rail_at 0 k + 100 * msUnits)).set .NRL_CFG_meas_stale 1)) ∧
  (∀ (s u : State) (fixed rx d : Nat) (p : List Plan), u = s.planTick.planClose fixed → rx = u.planRx → p = u.plans fixed rx →
    d = u.planAvail - (u.overhead fixed (p.map (·.v)) + rx) →
    exec (.plannerEpoch fixed) s = .next ((((u.planVolts p).planWide).noteHeld.planCredit d p).planRoll)) ∧
  (∀ (s : State) (n : Nat), n < 8 → s.planRoll.get .NRL_rx_uj n = 0 ∧ s.planRoll.get .NRL_adm n = 0 ∧ s.planRoll.get .NRL_rxf n = 0) ∧
  (∀ (s u v : State) (n a : Nat) (d0 d l : List Nat), s.get .REG_pop n 0 = 0 → s.get .REG_pop n 1 = 0 →
    u = (s.advanceTo (s.ageFrom n + 10 * usUnits)).set .AGE_sec (s.ageFrom n / secUnits + 1) n → v = u.set .AGE_at u.now n →
    a = (sortUp ((d0.zip d).map (fun x => sentinelA x.1 x.2))).reverse.getD 3 0 → l = (a :: v.lget .ageMeas 0 n).take 64 →
    exec (.ageingMeasure n d0 d) s =
      .next (((v.lset .ageMeas l 0 n).set .AGE_REGION_index (max (v.get .AGE_REGION_index 0 n) (median l)) 0 n).ageDerive n)) ∧
  (∀ (s u : State) (n : Nat), u = s.advanceTo (s.get .AGE_at n + 86400 * secUnits) → exec (.ageingForcedIdle n) s =
    .next (((u.bump .AGE_CFG_forced).set .NRL_hold_until (u.now + 20 * usUnits) n).set .AGE_at u.now n)) ∧
  (∀ (s u : State), u = s.advanceTo (s.get .FL_at + 3600 * secUnits) →
    (u.embFlashOk = true → exec .persistentStateWrite s = .next (u.persist.set .FL_at u.now)) ∧
    (u.embFlashOk = false → exec .persistentStateWrite s = .next ((u.bump .BOOT_FLASH_STAT_flash_err).set .FL_at u.now)))

/-- R420, R504, R506, R507, R516, R518 and R519. Whether an image verifies is uninterpreted (log entry 4). -/
def Obligations.BootAndUpdate : Prop :=
  (∀ (s u : State) (p : Nat), s.get .BOOT_STATUS_stage = 1 → s.get .BOOT_STATUS_recovery ≠ 1 → u = s.dirRead → p = u.pf3Of →
    exec .stage1Boot s = .next ((u.each [0, 1] (fun e s => (s.set .PCI_EP_CFG_pf3_present (b2n (p.testBit e)) e).set .PCI_FN_STAT_present
      (b2n (p.testBit e)) e 3)).cfgReady.s2Boot)) ∧
  (∀ (s : State) (k : Nat), s.get .BOOT_STATUS_stage ≠ 0 → exec (.hbmTrained k) s = .next (s.set .PKG_DIE_INFO_hbm_trained 1 (5 + k))) ∧
  (∀ (s : State), s.get .BOOT_STATUS_stage = 2 → s.get .STR_loaded ≠ 1 → s.get .BOOT_STATUS_struct_none ≠ 1 →
    ∃ t, exec .structureImageApplied s = .next t ∧
      (∀ u, s.bootLoad 0 = some u → t = (((u.slotShow 0).slotShow 1).slotShow 2).pf3Check) ∧
      (∀ u a p v, s.bootLoad 0 = none → s.bootLoad 1 = some u → a = u.slotPart 0 → p = u.slotPart 1 →
        v = ((u.set .STR_SLOT_partition p 0 0).set .STR_SLOT_partition a 0 1).set .STR_SLOT_empty 0 0 0 →
        t = ((((v.slotShow 0).slotShow 1).slotShow 2).dirWrite.set .BOOT_EVENTS_struct_fallback 1).pf3Check) ∧
      (s.bootLoad 0 = none → s.bootLoad 1 = none → t = (s.set .BOOT_STATUS_struct_none 1).pf3Check)) ∧
  (∀ (s : State) (h : Nat), (48 ≤ h → h < 52 → s.get .BOOT_STATUS_stage = 2 → s.get .MGT_on 0 (h - 48) = 1 →
    exec (.fwAlive h) s = .next (s.set .BOOT_CTRL_fw_alive 1)) ∧ (h < 48 ∨ 52 ≤ h → exec (.fwAlive h) s = .next s)) ∧
  (∀ (s u : State), s.get .BOOT_STATUS_stage = 2 → s.get .BOOT_STATUS_recovery = 0 → s.get .BOOT_CTRL_fw_alive = 1 →
    s.get .PKG_DIE_INFO_hbm_trained 5 = 1 → s.get .PKG_DIE_INFO_hbm_trained 6 = 1 → (s.get .STR_loaded = 1 ∨ s.get .BOOT_STATUS_struct_none = 1) →
    s.get .BOOT_STATUS_device_ready = 0 → u = s.set .BOOT_STATUS_device_ready 1 → exec .deviceReady s = .next (u.each (u.keysOf .NC_en_at)
      (fun k s => if s.get .NVE_CTRL_CFG_enable 0 k.2 = 1 ∧ s.get .NC_csts 0 k.2 % 2 = 0 then s.ctrlReady k.2 else s))) ∧
  (∀ (s u v : State), s.get .BOOT_STATUS_stage = 2 → s.get .BOOT_CTRL_fw_alive ≠ 1 → s.get .BOOT_STATUS_recovery ≠ 1 →
    u = (s.advanceTo (s.get .BOOT_s2_at + 2 * secUnits)).mgtHold.set .BOOT_EVENTS_s2_wdog 1 →
    v = u.setb .BOOT_s2_bad (u.get .BOOT_STATUS_s2_slot) true → exec .stage2Watchdog s = .next (v.set .BOOT_STATUS_stage 1).s2Boot) ∧
  (∀ (s : State) (v : Nat), (s.get .BOOT_ARB_counter < v → v ≤ 64 → v ≤ s.arbLimit → s.get .BOOT_ARB_busy = 0 → s.get .PWR_fail = 0 →
      exec (.bootArb v) s = .next ((s.set .BOOT_ARB_target v).set .BOOT_ARB_busy 1)) ∧
    (v ≤ s.get .BOOT_ARB_counter ∨ 64 < v ∨ s.arbLimit < v → exec (.bootArb v) s = .next (s.set .BOOT_EVENTS_arb_rejected 1)) ∧
    (s.get .BOOT_ARB_busy ≠ 0 → exec .arbProgramDone s =
      .next ((s.set .BOOT_ARB_counter (s.get .BOOT_ARB_target)).set .BOOT_ARB_busy 0))) ∧
  (∀ (s : State) (kind j : Nat), s.slotInvalid kind j =
    (decide (s.get .BOOT_IMAGE_result 0 ((if kind = 1 then 0 else 2) + j) ≠ 0) || (decide (kind = 2) && s.getb .BOOT_s2_bad j))) ∧
  (∀ (s : State) (kind j : Nat), s.get .BOOT_STATUS_recovery ≠ 0 → s.get .BOOT_RCV_STATUS_open ≠ 1 → s.get .PWR_fail ≠ 1 → (kind = 1 ∨ kind = 2) →
    [0, 1].find? (fun j => s.slotInvalid kind j) = some j →
    exec (.recoveryBegin kind) s =
      .next ((((((s.slotErase kind j).set .BOOT_RCV_STATUS_open 1).set .BOOT_RCV_STATUS_target j).set .BOOT_rcv_kind kind).set .BOOT_rcv_next 0).rcvRes 0)) ∧
  (∀ (s : State) (o n j : Nat), o = s.get .BOOT_RCV_OFFSET → n = s.get .BOOT_RCV_LEN → j = s.get .BOOT_RCV_STATUS_target →
    s.get .BOOT_RCV_STATUS_open ≠ 0 → s.get .PWR_fail ≠ 1 → o % 65536 = 0 → s.get .BOOT_rcv_next ≤ o → (s.get .BOOT_rcv_next = 0 → o = 0) →
    n ≠ 0 → n ≤ 0x200000 →
    (s.get .BOOT_rcv_kind = 1 → o + n ≤ 0x200000 → exec .recoveryChunk s =
      .next (((s.mwrite (s1Slot j + o) (fixLen n (s.lget .rcvBuf))).set .BOOT_rcv_next (o + 1)).rcvRes 0)) ∧
    (s.get .BOOT_rcv_kind ≠ 1 → o + n ≤ 0x800000 → exec .recoveryChunk s =
      .next (((s.lset .stage2Slot (splice (s.lget .stage2Slot 0 j ++ List.replicate (o - (s.lget .stage2Slot 0 j).length) 0) o
        (fixLen n (s.lget .rcvBuf))) 0 j).set .BOOT_rcv_next (o + 1)).rcvRes 0))) ∧
  (∀ (s u : State) (j : Nat) (m b : List Nat) (r : Nat × Nat), s.get .BOOT_RCV_STATUS_open ≠ 0 → j = s.get .BOOT_RCV_STATUS_target →
    (s.get .BOOT_rcv_kind = 1 → s.s1Image j = (m, b) → r = s.imageValid m b 1 (imgSpace 1) →
      u = ((s.set .BOOT_RCV_STATUS_open 0).imgShow (0 + j) m r).rcvRes (bootResult r.1) →
      exec .recoveryFinish s = .next (if r.1 ≠ 0 then u else u.deviceReset)) ∧
    (exec .recoveryAbort s =
      .next (((s.slotErase (s.get .BOOT_rcv_kind) j).set .BOOT_RCV_STATUS_open 0).rcvRes 0))) ∧
  (∀ (s : State) (comp : Nat) (image man img : List Nat) (r : Nat × Nat), comp = 1 ∨ comp = 2 → s.get .PWR_fail ≠ 1 →
    (s.get .BOOT_STATUS_recovery = 0 → s.get .BOOT_STATUS_stage = 2) → man = image.take 65536 →
    img = (image.drop 65536).take (leAt man 16 4) → r = s.imageValid man img comp (imgSpace comp) →
    exec (.pldmUpdate comp image) s = .next (if r.1 ≠ 0 then s.answer [bootResult r.1] else
      if comp = 1 then (((s.mzero (s1Slot (s.updSlot 1)) 0x200000).mwrite (s1Slot (s.updSlot 1)) (fixLen 65536 man ++ img)).imgShow (s.updSlot 1)
        man r).answer [0]
      else ((s.lset .stage2Slot (fixLen 65536 man ++ img) 0 (s.updSlot 2)).imgShow (2 + s.updSlot 2) man r).answer [0]))

/-- R524 to R527 and R559 to R573; Tables BOOT-11 to BOOT-13 and PINS-9. Whether a signature verifies is uninterpreted (log entry 4). -/
def Obligations.OnyxAndPower : Prop :=
  (∀ (s u : State) (b : List Nat), s.get .ONX_STATUS_wait ≠ 1 → b = s.onxBytes → u = s.set .ONX_STATUS_last_cmd (b.getD 6 0) →
    ∃ t, exec .onyxSubmit s = .next t ∧ (∀ r, u.onxCheck b = r + 1 → t = u.onxEnd (r + 1)) ∧
      (u.onxCheck b = 0 → u.get .ONX_STATUS_jumper = 1 → t = u.onxRun b) ∧
      (u.onxCheck b = 0 → u.get .ONX_STATUS_jumper ≠ 1 →
        t = (((u.set .ONX_STATUS_wait 1).set .ONX_STATUS_window_s 60).set .ONX_wait_at u.now).lset .onxHeld (b.take 96))) ∧
  (∀ (s : State), s.get .ONX_STATUS_wait ≠ 0 → exec .onyxCancel s = .next (s.onxEnd 8) ∧
    exec .onyxWindowExpiry s = .next ((s.advanceTo (s.get .ONX_wait_at + 60 * secUnits)).onxEnd 7)) ∧
  (∀ (s u : State) (j b p : Bool), s.get .PWR_vaux ≠ 0 →
    u = (s.set .ONX_STATUS_jumper (b2n j)).set .ONX_STATUS_button (b2n b) →
    (u.get .ONX_STATUS_wait = 1 → j = true ∨ p = true → exec (.presenceEvent j b p) s = .next (u.onxRun (u.lget .onxHeld))) ∧
    (u.get .ONX_STATUS_wait ≠ 1 → exec (.presenceEvent j b p) s = .next u)) ∧
  (∀ (s : State) (k : Nat), (s.onxMay 1 0 = true → exec .debugUnlock s = .next (s.set .ONX_STATUS_last_cmd 1).doUnlock) ∧
    (s.onxMay 2 k = true → exec (.revokeKey k) s = .next ((s.set .ONX_STATUS_last_cmd 2).doRevoke k)) ∧
    (s.onxMay 3 0 = true → exec .transferOwner s = .next ((s.set .ONX_STATUS_last_cmd 3).doTransfer (slice s.onxReady 32 48))) ∧
    (s.onxMay 4 k = true → exec (.fuseProvision k) s = .next ((s.set .ONX_STATUS_last_cmd 4).doProvision k (slice s.onxReady 48 48))) ∧
    (s.onxMay 5 k = true → exec (.onyxZeroiseTenant k) s = .next ((s.set .ONX_STATUS_last_cmd 5).doZeroise k)) ∧
    (s.get .PWR_vaux ≠ 0 → exec .sealBreak s = .next (s.set .ONX_STATUS_seal_broken 1)) ∧
    (s.get .PWR_vaux = 0 → exec .sealBreak s = .next s)) ∧
  (∀ (s u v : State) (blown : Nat), s.get .PWR_fail ≠ 1 → s.get .PWR_reset ≠ 1 → u = ((s.set .PKG_PWR_EVENTS_pwr_fail 1).set .PWR_fail 1).park →
    v = (u.amberLast.persistLast.arbCut blown).rcvCut → exec (.powerFailWarning blown) s =
      .next ((v.advanceTo (v.now + 159 * usUnits)).set .PKG_PWR_EVENTS_pwr_fail_done 1)) ∧
  (∀ (s u v : State) (rail blown : Nat) (lg sv : Bool), s.get .PWR_main ≠ 0 → s.get .PWR_fail ≠ 1 → s.get .PWR_reset ≠ 1 →
    u = ((s.set .PKG_PWR_EVENTS_rail_drop 1).set .PKG_PWR_EVENTS_rail rail).park → v = (if lg then u.amberLast else u.amberTorn) →
    exec (.railDrop rail lg sv blown) s = .next ((((if sv then v.persistLast else v).arbCut blown).rcvCut.holdReset).set .PWR_main 0)) ∧
  (∀ (s : State) (clk : Bool) (size : Nat), s.get .PWR_main ≠ 0 → exec .mainRailsRemoved s = .next (s.rcvCut.holdReset.set .PWR_main 0) ∧
    exec .powerOnResetAssert s = .next s.holdReset ∧
    exec (.powerOnReset clk size) s = .next ((s.holdReset.set .BOOT_density (if size = 0 then 0x10000000 else size)).porRelease clk)) ∧
  (∀ (s : State), (s.get .PWR_main ≠ 1 → exec .mainRailsGood s = .next ((s.set .PWR_main 1).each [0, 1] (fun e s =>
      if s.get .PIN_wake e = 1 then ((s.set .PIN_wake 0 e).set .PME_st 1 e).emit .pin [16 + e, 1] else s))) ∧
    (s.get .PWR_vaux ≠ 1 → exec .vauxUp s = .next (s.vauxReset.set .PWR_vaux 1)) ∧
    (s.get .PWR_vaux ≠ 0 → exec .vauxLoss s = .next (s.vauxReset.set .PWR_vaux 0))) ∧
  (∀ (s u w : State) (d tj : Nat), u = (s.set .PKG_THERM_tj_qc tj d).set .PKG_THERM_peak_qc
      (if sgn 10 (s.get .PKG_THERM_peak_qc d) < sgn 10 tj then tj else s.get .PKG_THERM_peak_qc d) d →
    w = (if 440 < sgn 10 tj then u.set .PKG_THERM_warn 1 d else if sgn 10 tj < 400 then u.set .PKG_THERM_warn 0 d else u) →
    exec (.thermalWarn d tj) s = .next w ∧
    exec (.thermalWarnClear d tj) s = .next w ∧
    (480 < sgn 10 tj → w.get .PKG_THERM_trip d ≠ 1 → exec (.thermtrip d tj) s =
      .next ((((w.set .PKG_THERM_trip 1 d).set .PKG_PWR_EVENTS_thermtrip 1).emit .pin [18, 0]).report
        { src := 0x1C, cls := .deviceFatal, die := d, detail := some d })) ∧
    (sgn 10 tj ≤ 480 → exec (.thermtrip d tj) s = .next w))

/-- R536 to R548. -/
def Obligations.ServiceAndTap : Prop :=
  (∀ (s u : State) (n r : Nat) (f : Bool), r = s.srvCheck n false f →
    (r = 0 → u = ((((s.set .ERR_REGION_CMD_result 0).set .ERR_REGION_STATE_state 1 0 n).set .ERR_REGION_STATE_bist_pass 0 0 n).set .SRV_fault 0 0
      n).set .SRV_accept_at s.now 0 n → exec (.regionOffline n f) s =
        .next (((u.set .SRV_limit (u.get .ERR_REGION_CMD_drain_limit_us) 0 n).set .SRV_effective 0 0 n).srvBusy)) ∧
    (r ≠ 0 → exec (.regionOffline n f) s = .next (s.set .ERR_REGION_CMD_result r))) ∧
  (∀ (s : State) (n r : Nat), r = s.srvCheck n true false →
    (r = 0 → exec (.regionOnline n) s = .next ((((s.set .ERR_REGION_CMD_result 0).set .ERR_REGION_STATE_state 4 0 n).set .SRV_fault 0 0 n).srvBusy)) ∧
    (r ≠ 0 → exec (.regionOnline n) s = .next (s.set .ERR_REGION_CMD_result r))) ∧
  (∀ (s u v w : State) (n m : Nat) (l : List Nat), s.srv n = 1 → s.get .SRV_effective 0 n ≠ 1 →
    u = (s.advanceTo (s.get .SRV_accept_at 0 n + 10 * usUnits)).set .SRV_effective 1 0 n → u.onlineRegions = m :: l →
    v = (((u.set .SIL_REDIRECT_region m 0 n).coresDiscard n).fragLost n).accountsDiscard n →
    w = v.each (v.tablesIn n) (fun t s => s.setb .EXM_TABLE_STAT_shard_down n true 0 t) →
    exec (.regionOfflineEffective n) s = .next w.ringsRetarget) ∧
  (∀ (s u : State) (n : Nat) (l : List Nat), s.srv n = 1 → s.get .SRV_effective 0 n ≠ 0 →
    u = (if s.regionPkts n = [] ∧ s.regionQueued n = [] ∧ s.regionCmds n = [] then s.fragLost n else
      ((s.advanceTo (s.get .SRV_accept_at 0 n + 10 * usUnits + s.get .SRV_limit 0 n * usUnits)).regionPktsLost n).storeRegionLost n) →
    (u.get .SRV_fault 0 n ≠ 1 → exec (.regionDrainDone n l) s = .next ((u.cacheWriteBack n).set .ERR_REGION_STATE_state 2 0 n)) ∧
    (u.get .SRV_fault 0 n = 1 → exec (.regionDrainDone n l) s = .next (((u.each l (fun c s => if s.get .CACHE_in n c = 1 then
      (s.set .CACHE_in 0 n c).cnError c else s)).cacheWriteBack n).set .ERR_REGION_STATE_state 2 0 n))) ∧
  (∀ (s u v : State) (n : Nat) (l bad : List Nat), s.srv n = 2 →
    u = (s.each (List.range 16) (fun b s => s.blockBist n b l)).sramBist n →
    bad = (List.range 16).filter (fun b => decide (2 ≤ (blockFails l b).length)) →
    v = (u.set .ERR_REGION_STATE_spares_used (((List.range 16).filter (fun b => decide (u.get .CELL_spare_used n b = 1))).length) 0 n).set
      .ERR_REGION_STATE_failed_blocks (bad.foldl (fun m b => m + 2 ^ b) 0) 0 n →
    (bad = [] → exec (.regionBistEnd n l) s = .next (((v.set .ERR_REGION_STATE_bist_pass 1 0 n).set .ERR_REGION_STATE_state 3 0 n).srvBusy)) ∧
    (bad ≠ [] → exec (.regionBistEnd n l) s = .next (((v.set .ERR_REGION_STATE_state 5 0 n).srvBusy).report
      { src := 0x18, cls := .contained, level := some 2, die := 4 + n / 2, region := n }))) ∧
  (∀ (s u v w : State) (n : Nat), s.srv n = 4 → u = (s.tcReturn n).patReturn n →
    v = u.each (u.tablesIn n) (fun t s => (s.setb .EXM_TABLE_STAT_shard_down n false 0 t).exmEvent 7 n t 0 0 0 0) →
    w = v.each (v.keysOf .CACHE_in) (fun k s => if s.cnHome k.2 = n then s.set .CACHE_in 0 k.1 k.2 else s) →
    exec (.regionReturnComplete n) s =
      .next ((((w.set .SIL_REDIRECT_region n 0 n).set .SRV_effective 0 0 n).set .ERR_REGION_STATE_state 0 0 n).srvBusy)) ∧
  (∀ (s u : State) (n b : Nat) (l : List Nat), s.online n = true → s.get .SRV_tcam_shadow n = 0 →
    u = s.advanceTo (s.get .SRV_tcam_at n + max 1 (s.get .ERR_TEST_CFG_tcam_period_s) * secUnits) → b = u.get .SRV_tcam_bank n → b < 4 →
    exec (.tcamBankTest n true l) s = .next ((u.set .SRV_tcam_at u.now n).set .SRV_tcam_bank (b + 1) n) ∧
    exec (.tcamBankTest n false l) s = .next ((((u.set .SRV_tcam_at u.now n).set .SRV_tcam_bank (b + 1) n).set .SRV_tcam_shadow (b + 1) n).report
      { src := 0x0D, cls := .corrected, level := some 1, die := 4 + n / 2, region := n })) ∧
  (∀ (s : State) (k : Nat), exec (.cipherKat k true) s = .next s ∧
    (k < 8 → s.offlineForTest k = false → exec (.cipherKat k false) s =
      .next ((s.report { src := 0x10, cls := .contained, level := some 1, die := 4 + k / 2, region := k }).regionFault k)) ∧
    (8 ≤ k → exec (.cipherKat k false) s =
      .next ((s.report { src := 0x10, cls := .contained, die := k - 6, region := k }).set .ETH_kat_fail 1 (k - 8)))) ∧
  (∀ (s u : State) (d o kind x y : Nat), u = s.advanceTo (s.get .SRV_sram_at 0 d + max 1 (s.get .ERR_TEST_CFG_sram_scrub_s) * secUnits) →
    exec (.sramScrub d o 0 kind x y) s = .next (u.set .SRV_sram_at u.now 0 d) ∧
    exec (.sramScrub d o 1 kind x y) s = .next ((u.set .SRV_sram_at u.now 0 d).report
      { src := 0x14, cls := .corrected, die := (d * 2 ^ 44 + o) / 2 ^ 44, region := sramRegion (d * 2 ^ 44 + o), addr := d * 2 ^ 44 + o })) ∧
  (∀ (s u : State) (k o kind x y : Nat), u = s.advanceTo (s.get .SRV_hbm_at 0 k + max 1 (s.get .ERR_TEST_CFG_hbm_scrub_h) * 3600 * secUnits) →
    exec (.hbmScrub k o 0 kind x y) s = .next (u.set .SRV_hbm_at u.now 0 k)) ∧
  (∀ (s : State) (k pc j : Nat), s.get .ERR_HBM_PC_state 0 (k * 32 + pc) = 0 → s.get .ERR_HBM_CMD_busy ≠ 1 →
    (16 ≤ pc → exec (.hbmPcRetire k pc) s = .next ((s.set .ERR_HBM_PC_state 2 0 (k * 32 + pc)).report
      { src := 0x16, cls := .contained, die := 5 + k })) ∧
    (pc < 16 → s.substituteOf k = some j → exec (.hbmPcRetire k pc) s =
      .next (((((s.set .ERR_HBM_PC_state 1 0 (k * 32 + pc)).set .ERR_HBM_PC_partner j 0 (k * 32 + pc)).set .ERR_HBM_CMD_busy 1).set .ERR_HBM_PC_state
        1 0 (k * 32 + j)).set .ERR_HBM_PC_partner pc 0 (k * 32 + j)))) ∧
  (∀ (s u : State) (i j : Nat), (List.range 64).find? (fun i => decide (i % 32 < 16 ∧ s.get .ERR_HBM_PC_state 0 i = 1)) = some i →
    j = i / 32 * 32 + s.get .ERR_HBM_PC_partner 0 i → u = ((s.set .ERR_HBM_PC_state 2 0 i).set .ERR_HBM_PC_state 3 0 j).set .ERR_HBM_CMD_busy 0 →
    exec .hbmPcSubstituteDone s = .next ((u.report { src := 0x16, cls := .corrected, die := 5 + i / 32 }).hbmNext (u.lget .hbmWait))) ∧
  (∀ (s u : State) (b d : List Nat), exec .bypass s = .next (((s.set .JTAG_inst 0).set .JTAG_pins 0).answer [0]) ∧
    exec .idcode s = .next (((s.set .JTAG_inst 1).set .JTAG_pins 0).answer [0x1B88012F]) ∧
    ((((s.set .JTAG_inst 2).set .JTAG_pins 0).lset .bscan b).freeBytes b.length = (u, d) →
      exec (.samplePreload b) s = .next (u.answer (d.map (· % 2)))) ∧
    (s.get .BOOT_STATUS_stage < 2 →
      exec .clamp s = .next (((s.set .JTAG_inst 4).set .JTAG_pins 1).answer [0]) ∧
      exec .highz s = .next (((s.set .JTAG_inst 5).set .JTAG_pins 2).answer [0]) ∧
      (((s.set .JTAG_inst 3).set .JTAG_pins 1).freeBytes (s.lget .bscan).length = (u, d) →
        exec .extest s = .next (u.answer (d.map (· % 2))))) ∧
    (2 ≤ s.get .BOOT_STATUS_stage → exec .extest s = exec .bypass s ∧ exec .clamp s = exec .bypass s ∧ exec .highz s = exec .bypass s))
end

