-- ==== Sys2Proof/Laws/SMap.lean ====
section
/-! SUPPORT. Laws of the sparse maps: a read after a write, and that erasing, inserting, writing and filtering keep the canonical form. -/

namespace Sys2Proof.Machine

variable {κ α : Type} [DecidableEq κ] [DecidableEq α]

theorem sget_serase_same (d : α) (m : List (κ × α)) (k : κ) : sget d (serase m k) k = d := by
  induction m with
  | nil => rfl
  | cons p r ih =>
    obtain ⟨k', v⟩ := p
    by_cases h : k' = k
    · simp [serase, h, ih]
    · simp [serase, h, sget, ih]

theorem sget_serase_ne (d : α) (m : List (κ × α)) {k j : κ} (h : k ≠ j) : sget d (serase m k) j = sget d m j := by
  induction m with
  | nil => rfl
  | cons p r ih =>
    obtain ⟨k', v⟩ := p
    by_cases hk : k' = k
    · have hj : k' ≠ j := hk ▸ h
      rw [serase, if_pos hk, ih, sget, if_neg hj]
    · rw [serase, if_neg hk, sget, sget, ih]

theorem sget_sinsert_same (lt : κ → κ → Bool) (d : α) (m : List (κ × α)) (k : κ) (v : α) (hm : ∀ p ∈ m, p.1 ≠ k) :
    sget d (sinsert lt m k v) k = v := by
  induction m with
  | nil => simp [sinsert, sget]
  | cons p r ih =>
    obtain ⟨k', v'⟩ := p
    have h1 : k' ≠ k := hm (k', v') (by simp)
    unfold sinsert
    split
    · simp [sget]
    · simp [sget, h1]; exact ih (fun p hp => hm p (by simp [hp]))

theorem sget_sinsert_ne (lt : κ → κ → Bool) (d : α) (m : List (κ × α)) {k j : κ} (v : α) (h : k ≠ j) :
    sget d (sinsert lt m k v) j = sget d m j := by
  induction m with
  | nil => simp [sinsert, sget, h]
  | cons p r ih =>
    obtain ⟨k', v'⟩ := p
    unfold sinsert
    split
    · simp [sget, h]
    · by_cases hj : k' = j
      · simp [sget, hj]
      · simp [sget, hj, ih]

theorem mem_serase {m : List (κ × α)} {k : κ} {p : κ × α} (h : p ∈ serase m k) : p ∈ m ∧ p.1 ≠ k := by
  induction m with
  | nil => simp [serase] at h
  | cons q r ih =>
    obtain ⟨k', v⟩ := q
    by_cases hk : k' = k
    · simp only [serase, hk, if_true] at h
      exact ⟨List.mem_cons_of_mem _ (ih h).1, (ih h).2⟩
    · simp only [serase, hk, if_false, List.mem_cons] at h
      rcases h with rfl | h
      · exact ⟨by simp, hk⟩
      · exact ⟨List.mem_cons_of_mem _ (ih h).1, (ih h).2⟩

/-- A read after a write. -/
theorem sget_sset (lt : κ → κ → Bool) (d : α) (m : List (κ × α)) (k j : κ) (v d' : α) (hd : k = j → d' = d) :
    sget d' (sset lt d m k v) j = if k = j then v else sget d' m j := by
  by_cases h : k = j
  · subst h
    obtain rfl := hd rfl
    simp only [if_true, sset]
    split
    · rename_i hv; rw [sget_serase_same, hv]
    · exact sget_sinsert_same lt _ _ _ _ (fun p hp => (mem_serase hp).2)
  · simp only [h, if_false, sset]
    split
    · exact sget_serase_ne _ _ h
    · rw [sget_sinsert_ne lt _ _ _ h, sget_serase_ne _ _ h]

/-- A strict total order on keys, as the comparisons of the three maps are. -/
structure Ordered (lt : κ → κ → Bool) : Prop where
  trans : ∀ a b c, lt a b = true → lt b c = true → lt a c = true
  total : ∀ a b, lt a b = false → a ≠ b → lt b a = true
  irrefl : ∀ a, lt a a = false

variable {lt : κ → κ → Bool} {d : κ → α}

theorem swf_cons {k : κ} {v : α} {r : List (κ × α)} :
    swf lt d ((k, v) :: r) = true ↔ aboveHead lt k r = true ∧ v ≠ d k ∧ swf lt d r = true := by
  simp [swf, and_assoc]

theorem aboveHead_serase (o : Ordered lt) {k j : κ} {r : List (κ × α)} (h : aboveHead lt k r = true) (hr : swf lt d r = true) :
    aboveHead lt k (serase r j) = true := by
  induction r with
  | nil => rfl
  | cons p r ih =>
    obtain ⟨k', v⟩ := p
    rw [swf_cons] at hr
    have h' : lt k k' = true := h
    by_cases hk : k' = j
    · simp only [serase, hk, if_true]
      apply ih _ hr.2.2
      cases r with
      | nil => rfl
      | cons q r => exact o.trans _ _ _ h' hr.1
    · simp only [serase, hk, if_false]; exact h'

theorem swf_serase (o : Ordered lt) {m : List (κ × α)} (k : κ) (h : swf lt d m = true) : swf lt d (serase m k) = true := by
  induction m with
  | nil => rfl
  | cons p r ih =>
    obtain ⟨k', v⟩ := p
    rw [swf_cons] at h
    by_cases hk : k' = k
    · simp only [serase, hk, if_true]; exact ih h.2.2
    · simp only [serase, hk, if_false]
      rw [swf_cons]
      exact ⟨aboveHead_serase o h.1 h.2.2, h.2.1, ih h.2.2⟩

theorem aboveHead_sinsert {a k : κ} {v : α} {r : List (κ × α)} (h : aboveHead lt a r = true) (hk : lt a k = true) :
    aboveHead lt a (sinsert lt r k v) = true := by
  cases r with
  | nil => exact hk
  | cons p r =>
    unfold sinsert
    split
    · exact hk
    · exact h

theorem swf_sinsert (o : Ordered lt) {m : List (κ × α)} {k : κ} {v : α} (h : swf lt d m = true) (hv : v ≠ d k)
    (hk : ∀ p ∈ m, p.1 ≠ k) : swf lt d (sinsert lt m k v) = true := by
  induction m with
  | nil => simp [sinsert, swf, aboveHead, hv]
  | cons p r ih =>
    obtain ⟨k', v'⟩ := p
    have hh := h
    rw [swf_cons] at h
    unfold sinsert
    split
    · rename_i hl
      rw [swf_cons]; exact ⟨hl, hv, hh⟩
    · rename_i hl
      have hne : k' ≠ k := hk (k', v') (by simp)
      have hlt : lt k' k = true := o.total _ _ (by simpa using hl) (Ne.symm hne)
      rw [swf_cons]
      exact ⟨aboveHead_sinsert h.1 hlt, h.2.1, ih h.2.2 (fun p hp => hk p (by simp [hp]))⟩

/-- Writing keeps the canonical form. -/
theorem swf_sset (o : Ordered lt) {m : List (κ × α)} (k : κ) (v : α) (h : swf lt d m = true) :
    swf lt d (sset lt (d k) m k v) = true := by
  unfold sset
  split
  · exact swf_serase o k h
  · rename_i hv
    exact swf_sinsert o (swf_serase o k h) hv (fun p hp => (mem_serase hp).2)

theorem aboveHead_filter (o : Ordered lt) {k : κ} {r : List (κ × α)} (p : κ × α → Bool) (h : aboveHead lt k r = true)
    (hr : swf lt d r = true) : aboveHead lt k (r.filter p) = true := by
  induction r with
  | nil => rfl
  | cons q r ih =>
    obtain ⟨k', v⟩ := q
    rw [swf_cons] at hr
    have h' : lt k k' = true := h
    by_cases hp : p (k', v) = true
    · simp only [List.filter, hp]; exact h'
    · simp only [List.filter, hp]
      apply ih _ hr.2.2
      cases r with
      | nil => rfl
      | cons q r => exact o.trans _ _ _ h' hr.1

/-- Filtering keeps the canonical form. -/
theorem swf_filter (o : Ordered lt) {m : List (κ × α)} (p : κ × α → Bool) (h : swf lt d m = true) : swf lt d (m.filter p) = true := by
  induction m with
  | nil => rfl
  | cons q r ih =>
    obtain ⟨k', v⟩ := q
    rw [swf_cons] at h
    by_cases hp : p (k', v) = true
    · simp only [List.filter, hp]; rw [swf_cons]; exact ⟨aboveHead_filter o p h.1 h.2.2, h.2.1, ih h.2.2⟩
    · simp only [List.filter, hp]; exact ih h.2.2

end Sys2Proof.Machine
end

