-- ==== Sys2Proof/Laws/State.lean ====
section
/-! SUPPORT. Laws of the state: what each primitive operation leaves in each component of the record, a read after a write of scalars,
sequences and memory, and that every primitive keeps the canonical form. -/

namespace Sys2Proof.Machine

theorem Field.ctorIdx_inj {a b : Field} (h : a.ctorIdx = b.ctorIdx) : a = b := by
  have := congrArg Field.ofNat h
  simpa [Field.ofNat_ctorIdx] using this

theorem LName.ctorIdx_inj {a b : LName} (h : a.ctorIdx = b.ctorIdx) : a = b := by
  have := congrArg LName.ofNat h
  simpa [LName.ofNat_ctorIdx] using this

theorem blt_decide (a b : Nat) : Nat.blt a b = decide (a < b) := by
  rw [Bool.eq_iff_iff]; simp [Nat.blt_eq]

/-- A comparison of triples of numbers, the first difference deciding, is a strict total order. -/
theorem lex_ordered {κ : Type} (x y z : κ → Nat) (lt : κ → κ → Bool)
    (hlt : ∀ a b, lt a b = if x a = x b then (if y a = y b then Nat.blt (z a) (z b) else Nat.blt (y a) (y b)) else Nat.blt (x a) (x b))
    (inj : ∀ a b, x a = x b → y a = y b → z a = z b → a = b) : Ordered lt := by
  have h : ∀ a b, lt a b = true ↔ (x a < x b ∨ (x a = x b ∧ (y a < y b ∨ (y a = y b ∧ z a < z b)))) := by
    intro a b
    rw [hlt]
    simp only [blt_decide]
    split <;> rename_i e1
    · split <;> rename_i e2 <;> simp only [decide_eq_true_eq] <;> omega
    · simp only [decide_eq_true_eq]; omega
  refine ⟨fun a b c h1 h2 => ?_, fun a b h1 hne => ?_, fun a => ?_⟩
  · rw [h] at *; omega
  · rw [← Bool.not_eq_true, h] at h1
    rw [h]
    by_cases e1 : x a = x b
    · by_cases e2 : y a = y b
      · have : z a ≠ z b := fun e => hne (inj a b e1 e2 e)
        omega
      · omega
    · omega
  · rw [← Bool.not_eq_true, h]; omega

theorem Key.ordered : Ordered Key.lt :=
  lex_ordered (fun k => k.f.ctorIdx) (fun k => k.sc) (fun k => k.i) Key.lt (fun _ _ => rfl) (by
    rintro ⟨f, a, b⟩ ⟨g, c, d⟩ h1 h2 h3
    have : f = g := Field.ctorIdx_inj h1
    simp_all)

theorem LKey.ordered : Ordered LKey.lt :=
  lex_ordered (fun k => k.n.ctorIdx) (fun k => k.sc) (fun k => k.i) LKey.lt (fun _ _ => rfl) (by
    rintro ⟨f, a, b⟩ ⟨g, c, d⟩ h1 h2 h3
    have : f = g := LName.ctorIdx_inj h1
    simp_all)

theorem blt_ordered : Ordered Nat.blt where
  irrefl a := by simp [blt_decide]
  trans a b c h1 h2 := by simp only [blt_decide, decide_eq_true_eq] at *; omega
  total a b h hne := by simp only [blt_decide, decide_eq_false_iff_not, decide_eq_true_eq] at *; omega

section Records
variable (s : State) (f : Field) (n : LName) (v sc i a : Nat) (l args : List Nat) (k : OutKind)

@[simp] theorem set_lists : (s.set f v sc i).lists = s.lists := rfl
@[simp] theorem set_mem : (s.set f v sc i).mem = s.mem := rfl
@[simp] theorem set_out : (s.set f v sc i).out = s.out := rfl
@[simp] theorem set_reply : (s.set f v sc i).reply = s.reply := rfl
@[simp] theorem set_free : (s.set f v sc i).free = s.free := rfl
@[simp] theorem set_pending : (s.set f v sc i).pending = s.pending := rfl
@[simp] theorem lset_regs : (s.lset n l sc i).regs = s.regs := rfl
@[simp] theorem lset_mem : (s.lset n l sc i).mem = s.mem := rfl
@[simp] theorem lset_out : (s.lset n l sc i).out = s.out := rfl
@[simp] theorem lset_reply : (s.lset n l sc i).reply = s.reply := rfl
@[simp] theorem lset_free : (s.lset n l sc i).free = s.free := rfl
@[simp] theorem lset_pending : (s.lset n l sc i).pending = s.pending := rfl
@[simp] theorem emit_regs : (s.emit k args l).regs = s.regs := rfl
@[simp] theorem emit_lists : (s.emit k args l).lists = s.lists := rfl
@[simp] theorem emit_mem : (s.emit k args l).mem = s.mem := rfl
@[simp] theorem emit_out : (s.emit k args l).out = s.out ++ [⟨k, args, l⟩] := rfl
@[simp] theorem emit_reply : (s.emit k args l).reply = s.reply := rfl
@[simp] theorem emit_free : (s.emit k args l).free = s.free := rfl
@[simp] theorem emit_pending : (s.emit k args l).pending = s.pending := rfl
@[simp] theorem answer_regs : (s.answer l).regs = s.regs := rfl
@[simp] theorem answer_lists : (s.answer l).lists = s.lists := rfl
@[simp] theorem answer_mem : (s.answer l).mem = s.mem := rfl
@[simp] theorem answer_out : (s.answer l).out = s.out := rfl
@[simp] theorem answer_reply : (s.answer l).reply = l := rfl
@[simp] theorem answer_free : (s.answer l).free = s.free := rfl
@[simp] theorem answer_pending : (s.answer l).pending = s.pending := rfl
@[simp] theorem drew_regs : s.drew.regs = s.regs := rfl
@[simp] theorem drew_lists : s.drew.lists = s.lists := rfl
@[simp] theorem drew_mem : s.drew.mem = s.mem := rfl
@[simp] theorem drew_out : s.drew.out = s.out := rfl
@[simp] theorem drew_reply : s.drew.reply = s.reply := rfl
@[simp] theorem drew_free : s.drew.free = s.free + 1 := rfl
@[simp] theorem drew_pending : s.drew.pending = s.pending := rfl
@[simp] theorem mput_regs : (s.mput a v).regs = s.regs := rfl
@[simp] theorem mput_lists : (s.mput a v).lists = s.lists := rfl
@[simp] theorem mput_out : (s.mput a v).out = s.out := rfl
@[simp] theorem mput_reply : (s.mput a v).reply = s.reply := rfl
@[simp] theorem mput_free : (s.mput a v).free = s.free := rfl
@[simp] theorem mput_pending : (s.mput a v).pending = s.pending := rfl

end Records

section Reads
variable (s : State) (f g : Field) (n m : LName) (v w sc i sc' i' a b : Nat) (l args : List Nat) (k : OutKind)

/-- A scalar read after a write. -/
theorem get_set : (s.set f v sc i).get g sc' i' = if f = g ∧ sc = sc' ∧ i = i' then v % 2 ^ f.width else s.get g sc' i' := by
  unfold State.get State.set
  have h := sget_sset Key.lt (f.reset sc i) s.regs ⟨f, sc, i⟩ ⟨g, sc', i'⟩ (v % 2 ^ f.width) (g.reset sc' i')
    (by intro e; cases e; rfl)
  simp only [h, Key.mk.injEq]

@[simp] theorem get_set_same : (s.set f v sc i).get f sc i = v % 2 ^ f.width := by simp [get_set]

theorem get_set_ne (h : f ≠ g ∨ sc ≠ sc' ∨ i ≠ i') : (s.set f v sc i).get g sc' i' = s.get g sc' i' := by
  rw [get_set, if_neg]; rintro ⟨h1, h2, h3⟩
  rcases h with h | h | h <;> exact h (by assumption)

@[simp] theorem get_set_field (h : f ≠ g) : (s.set f v sc i).get g sc' i' = s.get g sc' i' := get_set_ne _ _ _ _ _ _ _ _ (.inl h)

@[simp] theorem get_lset : (s.lset n l sc i).get g sc' i' = s.get g sc' i' := rfl
@[simp] theorem get_emit : (s.emit k args l).get g sc' i' = s.get g sc' i' := rfl
@[simp] theorem get_answer : (s.answer l).get g sc' i' = s.get g sc' i' := rfl
@[simp] theorem get_drew : s.drew.get g sc' i' = s.get g sc' i' := rfl
@[simp] theorem get_mput : (s.mput a v).get g sc' i' = s.get g sc' i' := rfl

/-- A sequence read after a write. -/
theorem lget_lset : (s.lset n l sc i).lget m sc' i' = if n = m ∧ sc = sc' ∧ i = i' then l else s.lget m sc' i' := by
  unfold State.lget State.lset
  have h := sget_sset LKey.lt [] s.lists ⟨n, sc, i⟩ ⟨m, sc', i'⟩ l [] (fun _ => rfl)
  simp only [h, LKey.mk.injEq]

@[simp] theorem lget_lset_same : (s.lset n l sc i).lget n sc i = l := by simp [lget_lset]

@[simp] theorem lget_lset_name (h : n ≠ m) : (s.lset n l sc i).lget m sc' i' = s.lget m sc' i' := by
  rw [lget_lset, if_neg]; exact fun e => h e.1

@[simp] theorem lget_set : (s.set f v sc i).lget m sc' i' = s.lget m sc' i' := rfl
@[simp] theorem lget_emit : (s.emit k args l).lget m sc' i' = s.lget m sc' i' := rfl
@[simp] theorem lget_answer : (s.answer l).lget m sc' i' = s.lget m sc' i' := rfl
@[simp] theorem lget_drew : s.drew.lget m sc' i' = s.lget m sc' i' := rfl
@[simp] theorem lget_mput : (s.mput a v).lget m sc' i' = s.lget m sc' i' := rfl

/-- A byte of memory read after a write. -/
theorem mbyte_mput : (s.mput a v).mbyte b = if a = b then v % 256 else s.mbyte b := by
  unfold State.mbyte State.mput
  have h := sget_sset Nat.blt (0 : BitVec 8) s.mem a b (BitVec.ofNat 8 v) 0 (fun _ => rfl)
  simp only [h]
  split <;> simp

@[simp] theorem mbyte_set : (s.set f v sc i).mbyte b = s.mbyte b := rfl
@[simp] theorem mbyte_lset : (s.lset n l sc i).mbyte b = s.mbyte b := rfl
@[simp] theorem mbyte_emit : (s.emit k args l).mbyte b = s.mbyte b := rfl
@[simp] theorem mbyte_answer : (s.answer l).mbyte b = s.mbyte b := rfl
@[simp] theorem mbyte_drew : s.drew.mbyte b = s.mbyte b := rfl

theorem mwrite_mbyte_out (h : b < a ∨ a + l.length ≤ b) : (s.mwrite a l).mbyte b = s.mbyte b := by
  induction l generalizing s a with
  | nil => rfl
  | cons x r ih =>
    simp only [List.length_cons] at h
    rw [State.mwrite, ih _ _ (by omega), mbyte_mput, if_neg (by omega)]

theorem mwrite_mbyte_in (h1 : a ≤ b) (h2 : b < a + l.length) : (s.mwrite a l).mbyte b = l.getD (b - a) 0 % 256 := by
  induction l generalizing s a with
  | nil => simp at h2; omega
  | cons x r ih =>
    simp only [List.length_cons] at h2
    rw [State.mwrite]
    by_cases e : b = a
    · subst e
      rw [mwrite_mbyte_out _ _ _ _ (.inl (by omega)), mbyte_mput]; simp
    · rw [ih _ _ (by omega) (by omega)]
      obtain ⟨d, hd⟩ : ∃ d, b - a = d + 1 := ⟨b - a - 1, by omega⟩
      rw [show b - (a + 1) = d by omega, hd]; simp

end Reads

section Loops
variable {α : Type} (s : State)

@[simp] theorem each_nil (f : α → State → State) : s.each [] f = s := rfl
@[simp] theorem each_cons (x : α) (l : List α) (f : α → State → State) : s.each (x :: l) f = (f x s).each l f := rfl
@[simp] theorem when_true (f : State → State) : s.when true f = f s := rfl
@[simp] theorem when_false (f : State → State) : s.when false f = s := rfl
@[simp] theorem run_next (f : State → State) : s.run (fun s => .next (f s)) = f s := rfl

/-- What every round keeps, the loop keeps. -/
theorem each_keeps (P : State → Prop) (l : List α) (f : α → State → State) (hf : ∀ x s, P s → P (f x s)) (h : P s) : P (s.each l f) := by
  induction l generalizing s with
  | nil => exact h
  | cons x r ih => exact ih _ (hf x s h)

end Loops

end Sys2Proof.Machine
end

