-- ==== Sys2Proof/Laws/Ops.lean ====
section
/-! SUPPORT. Laws of the shared operations: what each leaves unchanged. -/

namespace Sys2Proof.Machine

theorem get_advanceTo (s : State) (x : Nat) {f : Field} (h1 : f ≠ .TS_NOW) (h2 : f ≠ .TS_B) (sc i : Nat) :
    (s.advanceTo x).get f sc i = s.get f sc i := by
  unfold State.advanceTo State.addw; split
  · simp [h1.symm, h2.symm]
  · rfl

@[simp] theorem lget_advanceTo (s : State) (x : Nat) (n : LName) (sc i : Nat) : (s.advanceTo x).lget n sc i = s.lget n sc i := by
  unfold State.advanceTo State.addw; split <;> rfl

/-- Operations that agree on the elements of a list agree over the list. -/
theorem each_congr {α : Type} (s : State) (l : List α) (f g : α → State → State) (h : ∀ a ∈ l, ∀ t, f a t = g a t) :
    s.each l f = s.each l g := by
  unfold State.each
  induction l generalizing s with
  | nil => rfl
  | cons a l ih =>
    simp only [List.foldl_cons]
    rw [h a (by simp) s]
    exact ih _ (fun b hb => h b (by simp [hb]))

/-- What every operation of a list keeps holds after the list. -/
theorem each_holds {α : Type} {P : State → Prop} (s : State) (l : List α) (f : α → State → State) (hs : P s)
    (h : ∀ a ∈ l, ∀ t, P t → P (f a t)) : P (s.each l f) := by
  unfold State.each
  induction l generalizing s with
  | nil => exact hs
  | cons a l ih => exact ih _ (h a (by simp) s hs) (fun b hb => h b (by simp [hb]))

/-- What the operation for one element of a list brings about, and no operation of the list undoes, holds after the list. -/
theorem each_reaches {α : Type} {P : State → Prop} (s : State) (l : List α) (f : α → State → State) {n : α} (hn : n ∈ l)
    (h1 : ∀ t, P (f n t)) (h2 : ∀ a ∈ l, ∀ t, P t → P (f a t)) : P (s.each l f) := by
  unfold State.each
  induction l generalizing s with
  | nil => cases hn
  | cons a l ih =>
    rcases List.mem_cons.1 hn with rfl | h
    · exact each_holds (P := P) _ l f (h1 s) (fun b hb => h2 b (by simp [hb]))
    · exact ih _ h (fun b hb => h2 b (by simp [hb]))

section Reports
variable {f : Field} {sc i v : Nat}

/-- What the report of an error may change. -/
def reportFields : List Field := [.ERR_CNT, .ERR_LOG_dt64, .ERR_LOG_source, .ERR_LOG_class, .ERR_LOG_level, .ERR_LOG_die, .ERR_LOG_region,
  .ERR_LOG_tenant, .ERR_LOG_count, .ERR_LOG_requester, .ERR_LOG_addr, .ERR_LOG_detail, .ERR_LOG_HEAD_head, .ERR_STATUS_corrected,
  .ERR_STATUS_contained, .ERR_STATUS_tenant_fatal, .ERR_STATUS_device_fatal, .FN_devsta, .AER_c, .AER_u, .MSIX_pend, .IMSIC_pend]

theorem get_errMsg {s : State} {e g b sev : Nat} (hf : f ∉ reportFields) : (s.errMsg e g b sev).get f sc i = s.get f sc i := by
  simp only [reportFields, List.mem_cons, not_or] at hf
  unfold State.errMsg State.setb; dsimp only; split <;> simp [Ne.symm, hf]

theorem get_aerC {s : State} {e g b : Nat} (hf : f ∉ reportFields) : (s.aerC e g b).get f sc i = s.get f sc i := by
  have h1 := @get_errMsg f sc i
  unfold State.aerC State.setb; dsimp only; split <;> (try rw [h1 hf]) <;> (simp only [reportFields, List.mem_cons, not_or] at hf; simp [Ne.symm, hf])

theorem get_aerU {s : State} {e g b : Nat} {a : Bool} (hf : f ∉ reportFields) : (s.aerU e g b a).get f sc i = s.get f sc i := by
  have h1 := @get_errMsg f sc i
  unfold State.aerU State.setb; dsimp only
  split <;> split <;> (try rw [h1 hf]) <;> (simp only [reportFields, List.mem_cons, not_or] at hf; simp [Ne.symm, hf])

theorem get_each_keep {α : Type} {s : State} {l : List α} {g : α → State → State} (h : ∀ x t, (g x t).get f sc i = t.get f sc i) :
    (s.each l g).get f sc i = s.get f sc i :=
  each_keeps s (fun t => t.get f sc i = s.get f sc i) l g (fun x t e => (h x t).trans e) rfl

theorem get_aerOn {s : State} {c : ErrClass} {e : Nat} (hf : f ∉ reportFields) : (s.aerOn c e).get f sc i = s.get f sc i := by
  unfold State.aerOn State.when
  split
  · rfl
  · split
    · split
      · exact get_aerC hf
      · rfl
    · rfl
    · exact get_aerU hf
    · exact get_each_keep (fun _ _ => get_aerU hf)

theorem get_msix {s : State} {e g w : Nat} {b : Bool} (hf : f ∉ reportFields) : (s.msix e g w b).get f sc i = s.get f sc i := by
  simp only [reportFields, List.mem_cons, not_or] at hf
  unfold State.msix State.msixSend; split <;> simp [Ne.symm, hf]

theorem get_coreMsi {s : State} {g b w : Nat} (hf : f ∉ reportFields) : (s.coreMsi g b w).get f sc i = s.get f sc i := by
  simp only [reportFields, List.mem_cons, not_or] at hf
  unfold State.coreMsi State.setb; split <;> simp [Ne.symm, hf]

theorem get_errIrq {s : State} {c : ErrClass} (hf : f ∉ reportFields) : (s.errIrq c).get f sc i = s.get f sc i := by
  have w : ∀ (t : State) (b : Bool) (g : State → State), (∀ u, (g u).get f sc i = u.get f sc i) → (t.when b g).get f sc i = t.get f sc i := by
    intro t b g h; unfold State.when; split
    · exact h t
    · rfl
  unfold State.errIrq; dsimp only
  split
  · rfl
  · rw [w _ _ _ (fun _ => get_coreMsi hf), w _ _ _ (fun _ => get_msix hf), w _ _ _ (fun _ => get_msix hf)]

theorem get_openVal {s : State} {w : Nat} {v : Option Nat} : (s.openVal w v).1.get f sc i = s.get f sc i := by
  cases v <;> simp [State.openVal]

theorem get_logRecord {s : State} {r : Err} (hf : f ∉ reportFields) : (s.logRecord r).get f sc i = s.get f sc i := by
  simp only [reportFields, List.mem_cons, not_or] at hf
  unfold State.logRecord State.addw; simp [Ne.symm, hf, get_openVal]

theorem get_errStatus {s : State} {c : ErrClass} (hf : f ∉ reportFields) : (s.errStatus c).get f sc i = s.get f sc i := by
  simp only [reportFields, List.mem_cons, not_or] at hf
  unfold State.errStatus; split <;> simp [Ne.symm, hf]

/-- A report leaves every scalar but those of error records, statuses and pending interrupts. -/
theorem get_report1 {s : State} {r : Err} (hf : f ∉ reportFields) : (s.report1 r).get f sc i = s.get f sc i := by
  have hb : ∀ (t : State) (g : Field), g ∈ reportFields → ∀ a b, (t.bump g a b).get f sc i = t.get f sc i := by
    intro t g hg a b
    unfold State.bump State.bumpN; exact get_set_field _ _ _ _ _ _ _ _ (fun e => hf (e ▸ hg))
  unfold State.report1; dsimp only
  split
  · rw [get_each_keep (fun _ _ => get_aerOn hf), hb _ _ (by decide), hb _ _ (by decide)]
  · rw [get_each_keep (fun _ _ => get_aerOn hf), get_errIrq hf, get_errStatus hf, get_logRecord hf, hb _ _ (by decide)]

end Reports

end Sys2Proof.Machine
end

