-- ==== Sys2Proof/Laws/Cells.lean ====
section
/-! SUPPORT. Laws of the guards that commands share: what a cell's word, a table command and the other guarded commands do once
their guard holds. -/

namespace Sys2Proof.Machine

theorem cellBegin_pred (s : State) (cell h n c p : Nat) : (s.cellBegin cell h).pred n c p = s.pred n c p := by
  unfold State.cellBegin State.pred State.getb; split <;> simp

theorem cellDo_ready {s : State} {n cell h op k w : Nat} (f : Nat → State → State) (hr : s.cellReady n cell h op k w) :
    s.cellDo n cell h op f = (f w (s.cellBegin cell h)).cellThen cell h k w := by
  obtain ⟨h1, h2⟩ := hr
  unfold State.cellDo; rw [h1]; simp only [cellBegin_pred, h2]; rfl

theorem exmCmd_ready {s : State} {t ti : Nat} {l : List Nat} (c : Nat) (f : Nat → List Nat → State → State) (h : s.tableReady t ti l) :
    s.exmCmd c t f = f ti l s := by
  obtain ⟨h1, h2, h3, h4⟩ := h; unfold State.exmCmd; rw [h1]; subst h2
  simp only [h3, h4, Bool.not_true, Bool.false_eq_true, if_false]

theorem exmKeyCmd_ready {s : State} {c t ti key : Nat} {l : List Nat} (f : Nat → List Nat → Nat → State → State)
    (h : s.keyReady c t ti key l) : s.exmKeyCmd c t f = f ti l key s := by
  obtain ⟨h1, h2, h3⟩ := h
  unfold State.exmKeyCmd; rw [exmCmd_ready _ _ h1]; simp only; rw [← h2]; simp only [h3, if_true]

end Sys2Proof.Machine
end

