-- ==== Sys2Proof/Laws/Frames.lean ====
section
/-! SUPPORT. Laws of frames: the frame check sequence that a MAC appends is the one that a MAC accepts. -/

namespace Sys2Proof.Machine

theorem crcBit_lt {p c : Nat} (hp : p < 2 ^ 32) (hc : c < 2 ^ 32) : crcBit p c < 2 ^ 32 := by
  unfold crcBit; split
  · exact Nat.xor_lt_two_pow (by omega) hp
  · omega

theorem crcFold_lt {p : Nat} (hp : p < 2 ^ 32) (l : List Nat) : ∀ c, c < 2 ^ 32 → l.foldl (crcByte p) c < 2 ^ 32 := by
  induction l with
  | nil => intro c h; exact h
  | cons x r ih =>
    intro c h; refine ih _ ?_
    unfold crcByte
    iterate 8 refine crcBit_lt hp ?_
    exact Nat.xor_lt_two_pow h (by omega)

theorem crc32_lt (l : List Nat) : crc32 l < 2 ^ 32 :=
  Nat.xor_lt_two_pow (crcFold_lt (by decide) l _ (by decide)) (by decide)

/-- A frame that the MAC closes with its FCS passes the receiver's check. -/
theorem withFcs_good (b : List Nat) :
    leNat ((withFcs b).drop ((withFcs b).length - 4)) = crc32 ((withFcs b).take ((withFcs b).length - 4)) := by
  have h : (withFcs b).length - 4 = b.length := by simp [withFcs, leBytes]
  rw [h, withFcs, List.drop_left, List.take_left]
  have := crc32_lt b
  simp only [leBytes, leNat]; omega

end Sys2Proof.Machine
end

