-- ==== Sys2Proof/Laws/Keep.lean ====
section
/-! SUPPORT. What every primitive operation on the state keeps, every operation keeps: the primitives, and the loops, branches and runs that
operations are made of. -/

namespace Sys2Proof.Machine

/-- A property of states that every primitive operation keeps. -/
structure Closed (P : State → Prop) : Prop where
  set : ∀ {s : State} {f v sc i}, P s → P (s.set f v sc i)
  lset : ∀ {s : State} {n l sc i}, P s → P (s.lset n l sc i)
  emit : ∀ {s : State} {k args data}, P s → P (s.emit k args data)
  answer : ∀ {s : State} {r}, P s → P (s.answer r)
  drew : ∀ {s : State}, P s → P s.drew
  mput : ∀ {s : State} {a b}, P s → P (s.mput a b)
  only : ∀ {s : State} {p : Key × Nat → Bool}, P s → P { s with regs := s.regs.filter p }
  restart : ∀ {s : State} {p : Key × Nat → Bool} {q : LKey × List Nat → Bool} {m : Host.Cell → Bool} {r : List Nat},
    P s → P { s with regs := s.regs.filter p, lists := s.lists.filter q, mem := s.mem.filter m, reply := r }

variable {P : State → Prop}

theorem ite_keep {c : Prop} [Decidable c] {a b : State} (ha : P a) (hb : P b) : P (if c then a else b) := by split <;> assumption

theorem when_keep {s : State} {c : Bool} {f : State → State} (h : P s) (hf : ∀ t, P t → P (f t)) : P (s.when c f) := by
  unfold State.when; split
  · exact hf s h
  · exact h

theorem each_keep {α : Type} {s : State} {l : List α} {f : α → State → State} (h : P s) (hf : ∀ x t, P t → P (f x t)) : P (s.each l f) :=
  each_keeps s P l f hf h

theorem foldl_keep {α : Type} {s : State} {l : List α} {f : State → α → State} (h : P s) (hf : ∀ t x, P t → P (f t x)) : P (l.foldl f s) := by
  induction l generalizing s with
  | nil => exact h
  | cons x r ih => exact ih (hf s x h)

theorem foldl_pair_keep {α β : Type} {p : State × β} {l : List α} {f : State × β → α → State × β} (h : P p.1)
    (hf : ∀ q x, P q.1 → P (f q x).1) : P (l.foldl f p).1 := by
  induction l generalizing p with
  | nil => exact h
  | cons x r ih => exact ih (hf p x h)

/-- The state that an outcome or an option holds, if any, has the property. -/
def NextHas (P : State → Prop) (o : Host.Outcome State Fault Refusal) : Prop := ∀ t, o = .next t → P t

@[inherit_doc NextHas]
def SomeHas (P : State → Prop) (o : Option State) : Prop := ∀ t, o = some t → P t

theorem next_keep {t : State} (h : P t) : NextHas P (.next t) := fun _ e => by cases e; exact h

theorem someHas_some {t : State} (h : P t) : SomeHas P (some t) := fun _ e => by cases e; exact h

theorem someHas_none : SomeHas P none := fun _ e => by cases e

theorem someHas_map {o : Option State} {f : State → State} (hf : ∀ t, P t → P (f t)) (h : SomeHas P o) : SomeHas P (o.map f) := by
  cases o with
  | none => exact someHas_none
  | some t => exact someHas_some (hf t (h t rfl))

theorem run_keep {s : State} {f : State → Host.Outcome State Fault Refusal} (h : P s) (hf : ∀ t, P t → NextHas P (f t)) : P (s.run f) := by
  unfold State.run; split
  · exact hf s h _ (by assumption)
  · exact h

theorem pair_keep {α : Type} {p : State × α} {t : State} {x : α} (e : p = (t, x)) (h : P p.1) : P t := by subst e; exact h

theorem some_keep {o : Option State} {t : State} (e : o = some t) (h : SomeHas P o) : P t := h t e

section Form
variable {s : State}

/-- The canonical form is the four parts. -/
theorem wf_iff : s.wf = true ↔ Scalars.wf s.regs = true ∧ Scalars.inWidth s.regs = true ∧ Seqs.wf s.lists = true ∧ Memory.wf s.mem = true := by
  simp [State.wf, and_assoc]

theorem inWidth_iff {m : List (Key × Nat)} : Scalars.inWidth m = true ↔ ∀ p ∈ m, p.2 < 2 ^ p.1.f.width := by
  simp [Scalars.inWidth]

theorem mem_sinsert {κ α : Type} {lt : κ → κ → Bool} {m : List (κ × α)} {k : κ} {v : α} {p : κ × α} (h : p ∈ sinsert lt m k v) :
    p = (k, v) ∨ p ∈ m := by
  induction m with
  | nil => simpa [sinsert] using h
  | cons q r ih =>
    obtain ⟨k', v'⟩ := q
    unfold sinsert at h
    split at h
    · simpa using h
    · rcases List.mem_cons.1 h with rfl | h
      · exact .inr (by simp)
      · exact (ih h).imp_right (List.mem_cons_of_mem _)

theorem set_wf {f : Field} {v sc i : Nat} (h : s.wf = true) : (s.set f v sc i).wf = true := by
  rw [wf_iff] at h ⊢
  refine ⟨swf_sset Key.ordered (d := fun k : Key => k.f.reset k.sc k.i) (m := s.regs) ⟨f, sc, i⟩ _ h.1, ?_, h.2.2⟩
  have hm := inWidth_iff.1 h.2.1
  refine inWidth_iff.2 (fun p hp => ?_)
  simp only [State.set, sset] at hp
  split at hp
  · exact hm p (mem_serase hp).1
  · rcases mem_sinsert hp with rfl | hp
    · exact Nat.mod_lt _ (Nat.two_pow_pos _)
    · exact hm p (mem_serase hp).1

theorem lset_wf {n : LName} {l : List Nat} {sc i : Nat} (h : s.wf = true) : (s.lset n l sc i).wf = true := by
  rw [wf_iff] at h ⊢
  exact ⟨h.1, h.2.1, swf_sset LKey.ordered (d := fun _ => []) (m := s.lists) ⟨n, sc, i⟩ _ h.2.2.1, h.2.2.2⟩

/-- A byte written keeps the canonical form of memory. -/
theorem mput_wf {a b : Nat} (h : s.wf = true) : (s.mput a b).wf = true := by
  rw [wf_iff] at h ⊢
  exact ⟨h.1, h.2.1, h.2.2.1, swf_sset blt_ordered (d := fun _ => (0 : BitVec 8)) (m := s.mem) a _ h.2.2.2⟩

theorem only_wf {p : Key × Nat → Bool} (h : s.wf = true) : State.wf { s with regs := s.regs.filter p } = true := by
  rw [wf_iff] at h ⊢
  exact ⟨swf_filter Key.ordered p h.1, inWidth_iff.2 (fun q hq => inWidth_iff.1 h.2.1 q (List.mem_filter.1 hq).1), h.2.2⟩

theorem restart_wf {p : Key × Nat → Bool} {q : LKey × List Nat → Bool} {m : Host.Cell → Bool} {r : List Nat} (h : s.wf = true) :
    State.wf { s with regs := s.regs.filter p, lists := s.lists.filter q, mem := s.mem.filter m, reply := r } = true := by
  rw [wf_iff] at h ⊢
  exact ⟨swf_filter Key.ordered p h.1, inWidth_iff.2 (fun x hx => inWidth_iff.1 h.2.1 x (List.mem_filter.1 hx).1),
    swf_filter LKey.ordered q h.2.2.1, swf_filter blt_ordered m h.2.2.2⟩

/-- Every primitive keeps the canonical form and the widths. -/
theorem wf_closed : Closed (fun s => s.wf = true) where
  set h := set_wf h
  lset h := lset_wf h
  emit h := h
  answer h := h
  drew h := h
  mput h := mput_wf h
  only h := only_wf h
  restart h := restart_wf h

/-- No primitive touches the queue. -/
theorem pending_closed (l : List Instr) : Closed (fun s => s.pending = l) where
  set h := h
  lset h := h
  emit h := h
  answer h := h
  drew h := h
  mput h := h
  only h := h
  restart h := h

/-- Every primitive adds to what left the device, if anything, and draws free values in order. -/
theorem out_closed (o : List Out) (n : Nat) : Closed (fun s => o <+: s.out ∧ n ≤ s.free) where
  set h := h
  lset h := h
  emit h := ⟨h.1.trans (List.prefix_append _ _), h.2⟩
  answer h := h
  drew h := ⟨h.1, Nat.le_succ_of_le h.2⟩
  mput h := h
  only h := h
  restart h := h

end Form

end Sys2Proof.Machine
end

