-- ==== Sys2Proof/Laws/KeepShared.lean ====
section
/-! SUPPORT. What every primitive operation keeps, the operations of the shared operations keep: one lemma for each. -/

namespace Sys2Proof.Machine

variable {P : State → Prop} (C : Closed P)
include C

theorem State.clr_keeps {s : State} {f : Field} {sc i : Nat} (h : P s) : P (State.clr s f sc i) := by
  unfold State.clr
  with_reducible repeat' first | assumption | refine C.set ?_

theorem State.bumpN_keeps {s : State} {f : Field} {n sc i : Nat} (h : P s) : P (State.bumpN s f n sc i) := by
  unfold State.bumpN
  with_reducible repeat' first | assumption | refine C.set ?_

theorem State.bump_keeps {s : State} {f : Field} {sc i : Nat} (h : P s) : P (State.bump s f sc i) := by
  unfold State.bump
  with_reducible repeat' first | assumption | refine State.bumpN_keeps C ?_

theorem State.addw_keeps {s : State} {f : Field} {n sc i : Nat} (h : P s) : P (State.addw s f n sc i) := by
  unfold State.addw
  with_reducible repeat' first | assumption | refine C.set ?_

theorem State.setb_keeps {s : State} {f : Field} {k : Nat} {v : Bool} {sc i : Nat} (h : P s) : P (State.setb s f k v sc i) := by
  unfold State.setb
  with_reducible repeat' first | assumption | refine C.set ?_

theorem State.lpush_keeps {s : State} {n : LName} {v sc i : Nat} (h : P s) : P (State.lpush s n v sc i) := by
  unfold State.lpush
  with_reducible repeat' first | assumption | refine C.lset ?_

theorem State.freeBytes_keeps {s : State} {n : Nat} (h : P s) : P (s.freeBytes n).1 := by
  induction n generalizing s with
  | zero => exact h
  | succ n ih => exact ih (C.drew h)

theorem State.mwrite_keeps {s : State} {a : Nat} {l : List Nat} (h : P s) : P (s.mwrite a l) := by
  induction l generalizing s a with
  | nil => exact h
  | cons b r ih => exact ih (C.mput h)

theorem State.mzero_keeps {s : State} {a len : Nat} (h : P s) : P (State.mzero s a len) := by
  unfold State.mzero
  with_reducible repeat' first | assumption | refine each_keep ?_ ?_ | refine C.mput ?_ | intro _

theorem State.advanceTo_keeps {s : State} {t : Nat} (h : P s) : P (State.advanceTo s t) := by
  unfold State.advanceTo
  with_reducible repeat' first | assumption | refine ite_keep ?_ ?_ | refine State.addw_keeps C ?_ | refine C.set ?_

theorem State.hostDown_keeps {s : State} {e : Nat} (h : P s) : P (State.hostDown s e) := by
  unfold State.hostDown
  with_reducible repeat'
    first
    | assumption | refine ite_keep ?_ ?_ | refine State.bump_keeps C ?_ | refine C.set ?_ | refine State.addw_keeps C ?_

theorem State.hostWriteD_keeps {s : State} {e f a pasid : Nat} {data : Bool} {d : List Nat} (h : P s) :
    P (State.hostWriteD s e f a pasid data d) := by
  unfold State.hostWriteD
  with_reducible repeat'
    first
    | assumption | refine ite_keep ?_ ?_ | refine State.hostDown_keeps C ?_ | refine when_keep ?_ ?_ | refine C.emit ?_ | intro _

theorem State.hostWriteP_keeps {s : State} {e f a pasid : Nat} {d : List Nat} (h : P s) : P (State.hostWriteP s e f a pasid d) := by
  unfold State.hostWriteP
  with_reducible repeat' first | assumption | refine State.hostWriteD_keeps C ?_

theorem State.hostWrite_keeps {s : State} {e f a : Nat} {d : List Nat} (h : P s) : P (State.hostWrite s e f a d) := by
  unfold State.hostWrite
  with_reducible repeat' first | assumption | refine State.hostWriteP_keeps C ?_

theorem State.msixSend_keeps {s : State} {e f v : Nat} (h : P s) : P (State.msixSend s e f v) := by
  unfold State.msixSend
  with_reducible repeat' first | assumption | refine C.set ?_ | refine C.emit ?_

theorem State.msix_keeps {s : State} {e f v : Nat} {force : Bool} (h : P s) : P (State.msix s e f v force) := by
  unfold State.msix
  with_reducible repeat' first | assumption | refine ite_keep ?_ ?_ | refine State.msixSend_keeps C ?_ | refine C.set ?_

theorem State.coreMsi_keeps {s : State} {x1 file id : Nat} (h : P s) : P (State.coreMsi s x1 file id) := by
  unfold State.coreMsi
  with_reducible repeat' first | assumption | refine ite_keep ?_ ?_ | refine State.setb_keeps C ?_

theorem State.openVal_keeps {s : State} {w : Nat} {v : Option Nat} (h : P s) : P (State.openVal s w v).1 := by
  unfold State.openVal
  with_reducible repeat' first | assumption | refine C.drew ?_ | intro _ | split | dsimp only

theorem State.logRecord_keeps {s : State} {r : Err} (h : P s) : P (State.logRecord s r) := by
  unfold State.logRecord
  with_reducible repeat'
    first
    | assumption | refine State.openVal_keeps C ?_ | refine State.addw_keeps C ?_ | refine C.set ?_ | split
    | refine pair_keep (by assumption) ?_ | dsimp only

theorem State.errStatus_keeps {s : State} {c : ErrClass} (h : P s) : P (State.errStatus s c) := by
  unfold State.errStatus
  with_reducible repeat' first | assumption | refine C.set ?_ | split

theorem State.errMsg_keeps {s : State} {e f bit sev : Nat} (h : P s) : P (State.errMsg s e f bit sev) := by
  unfold State.errMsg
  with_reducible repeat' first | assumption | refine ite_keep ?_ ?_ | refine State.setb_keeps C ?_ | refine C.emit ?_

theorem State.aerC_keeps {s : State} {e f bit : Nat} (h : P s) : P (State.aerC s e f bit) := by
  unfold State.aerC
  with_reducible repeat' first | assumption | refine ite_keep ?_ ?_ | refine State.setb_keeps C ?_ | refine State.errMsg_keeps C ?_

theorem State.aerU_keeps {s : State} {e f bit : Nat} {advisory : Bool} (h : P s) : P (State.aerU s e f bit advisory) := by
  unfold State.aerU
  with_reducible repeat' first | assumption | refine ite_keep ?_ ?_ | refine State.setb_keeps C ?_ | refine State.errMsg_keeps C ?_

theorem State.aerOn_keeps {s : State} {c : ErrClass} {e : Nat} (h : P s) : P (State.aerOn s c e) := by
  unfold State.aerOn
  with_reducible repeat'
    first
    | assumption | refine ite_keep ?_ ?_ | refine when_keep ?_ ?_ | refine State.aerC_keeps C ?_ | refine State.aerU_keeps C ?_
    | refine each_keep ?_ ?_ | intro _ | split

theorem State.errIrq_keeps {s : State} {c : ErrClass} (h : P s) : P (State.errIrq s c) := by
  unfold State.errIrq
  with_reducible repeat'
    first
    | assumption | refine ite_keep ?_ ?_ | refine when_keep ?_ ?_ | refine State.msix_keeps C ?_ | refine State.coreMsi_keeps C ?_
    | intro _

theorem State.report1_keeps {s : State} {r : Err} (h : P s) : P (State.report1 s r) := by
  unfold State.report1
  with_reducible repeat'
    first
    | assumption | refine ite_keep ?_ ?_ | refine State.bump_keeps C ?_ | refine each_keep ?_ ?_ | refine State.aerOn_keeps C ?_
    | refine State.errIrq_keeps C ?_ | refine State.errStatus_keeps C ?_ | refine State.logRecord_keeps C ?_ | intro _ | split
    | dsimp only

theorem State.deviceFatal_keeps {s : State} {r : Err} (h : P s) : P (State.deviceFatal s r) := by
  unfold State.deviceFatal
  with_reducible repeat'
    first
    | assumption | refine each_keep ?_ ?_ | refine State.report1_keeps C ?_ | refine when_keep ?_ ?_ | refine C.set ?_ | intro _

theorem State.publishUnc_keeps {s : State} (h : P s) : P (State.publishUnc s) := by
  unfold State.publishUnc
  with_reducible repeat' first | assumption | refine C.set ?_

theorem State.growHold_keeps {s : State} (h : P s) : P (State.growHold s) := by
  unfold State.growHold
  with_reducible repeat' first | assumption | refine State.publishUnc_keeps C ?_ | refine C.set ?_

theorem State.slewGo_keeps {s : State} (h : P s) : P (State.slewGo s) := by
  unfold State.slewGo
  with_reducible repeat' first | assumption | refine ite_keep ?_ ?_ | refine C.set ?_ | refine C.drew ?_

theorem State.trackUnc_keeps {s : State} (h : P s) : P (State.trackUnc s) := by
  unfold State.trackUnc
  with_reducible repeat'
    first
    | assumption | refine ite_keep ?_ ?_ | refine State.slewGo_keeps C ?_ | refine State.publishUnc_keeps C ?_ | refine C.set ?_

theorem State.amberPut_keeps {s : State} {k : Nat} {off : Int} {dt : Nat} (h : P s) : P (State.amberPut s k off dt) := by
  unfold State.amberPut
  with_reducible repeat' first | assumption | refine C.lset ?_ | refine State.lpush_keeps C ?_ | refine C.set ?_

theorem State.secondsDue_keeps {s : State} {n : Nat} (h : P s) : P (State.secondsDue s n) := by
  unfold State.secondsDue
  with_reducible repeat'
    first
    | assumption | refine C.set ?_ | refine when_keep ?_ ?_ | refine each_keep ?_ ?_ | refine State.amberPut_keeps C ?_ | intro _

theorem State.newLabel_keeps {s : State} (h : P s) : P (State.newLabel s) := by
  unfold State.newLabel
  with_reducible repeat' first | assumption | refine ite_keep ?_ ?_ | refine C.set ?_

theorem State.issueAmber_keeps {s : State} {k : Nat} {off : Int} (h : P s) : P (State.issueAmber s k off) := by
  unfold State.issueAmber
  with_reducible repeat'
    first
    | assumption | refine ite_keep ?_ ?_ | refine State.newLabel_keeps C ?_ | refine State.secondsDue_keeps C ?_ | refine C.set ?_
    | refine State.addw_keeps C ?_ | refine State.amberPut_keeps C ?_

theorem State.pageUpdate_keeps {s : State} {e dt unc ptm : Nat} (h : P s) : P (State.pageUpdate s e dt unc ptm) := by
  unfold State.pageUpdate
  with_reducible repeat' first | assumption | refine ite_keep ?_ ?_ | refine State.addw_keeps C ?_ | refine C.set ?_

theorem State.repLost_keeps {s : State} {d : Nat} (h : P s) : P (State.repLost s d) := by
  unfold State.repLost
  with_reducible repeat' first | assumption | refine C.set ?_

theorem State.pageNow_keeps {s : State} {e : Nat} (h : P s) : P (State.pageNow s e) := by
  unfold State.pageNow
  with_reducible repeat' first | assumption | refine ite_keep ?_ ?_ | refine State.pageUpdate_keeps C ?_

theorem State.pagesNow_keeps {s : State} (h : P s) : P (State.pagesNow s) := by
  unfold State.pagesNow
  with_reducible repeat' first | assumption | refine State.pageNow_keeps C ?_

theorem State.evidence_keeps {s : State} {s0 : State} {step : Option Int} (h : P s) : P (State.evidence s s0 step) := by
  unfold State.evidence
  with_reducible repeat'
    first
    | assumption | refine when_keep ?_ ?_ | refine State.issueAmber_keeps C ?_ | refine State.pagesNow_keeps C ?_ | intro _ | split

theorem State.enterDisc_keeps {s : State} {st : Nat} (h : P s) : P (State.enterDisc s st) := by
  unfold State.enterDisc
  with_reducible repeat' first | assumption | refine ite_keep ?_ ?_ | refine C.set ?_ | refine C.lset ?_

theorem State.timerTest_keeps {s : State} {x1 k : Nat} (h : P s) : P (State.timerTest s x1 k) := by
  unfold State.timerTest
  with_reducible repeat' first | assumption | refine C.set ?_

theorem State.timersDue_keeps {s : State} (h : P s) : P (State.timersDue s) := by
  unfold State.timersDue
  with_reducible repeat' first | assumption | refine ite_keep ?_ ?_ | refine each_keep ?_ ?_ | refine State.timerTest_keeps C ?_ | intro _

theorem State.stepTo_keeps {s : State} {t : Nat} (h : P s) : P (State.stepTo s t) := by
  unfold State.stepTo
  with_reducible repeat'
    first
    | assumption | refine ite_keep ?_ ?_ | refine State.newLabel_keeps C ?_ | refine State.secondsDue_keeps C ?_ | refine C.set ?_
    | refine each_keep ?_ ?_ | refine when_keep ?_ ?_ | refine State.timersDue_keeps C ?_ | intro _

theorem State.utcShow_keeps {s : State} {u : Nat} (h : P s) : P (State.utcShow s u) := by
  unfold State.utcShow
  with_reducible repeat' first | assumption | refine C.set ?_

theorem State.selectRef_keeps {s : State} {n : Nat} (h : P s) : P (State.selectRef s n) := by
  unfold State.selectRef
  with_reducible repeat' first | assumption | refine ite_keep ?_ ?_ | refine C.set ?_ | refine State.utcShow_keeps C ?_ | refine C.drew ?_

theorem State.startSlew_keeps {s : State} {off : Int} (h : P s) : P (State.startSlew s off) := by
  unfold State.startSlew
  with_reducible repeat' first | assumption | refine C.set ?_

theorem State.timeFault_keeps {s : State} (h : P s) : P (State.timeFault s) := by
  unfold State.timeFault
  with_reducible repeat'
    first
    | assumption | refine ite_keep ?_ ?_ | refine State.report1_keeps C ?_ | refine State.publishUnc_keeps C ?_
    | refine State.enterDisc_keeps C ?_ | refine C.set ?_

theorem State.acquire_keeps {s : State} {n : Nat} {both : Bool} (h : P s) : P (State.acquire s n both).1 := by
  unfold State.acquire
  with_reducible repeat'
    first
    | assumption | refine ite_keep ?_ ?_ | refine State.timeFault_keeps C ?_ | refine C.set ?_ | refine State.enterDisc_keeps C ?_
    | refine State.selectRef_keeps C ?_ | refine State.trackUnc_keeps C ?_ | refine State.stepTo_keeps C ?_
    | refine State.startSlew_keeps C ?_ | intro _ | split | dsimp only

theorem State.deselect_keeps {s : State} (h : P s) : P (State.deselect s) := by
  unfold State.deselect
  with_reducible repeat' first | assumption | refine ite_keep ?_ ?_ | refine C.set ?_ | refine State.utcShow_keeps C ?_ | split

theorem State.startHold_keeps {s : State} {m t0 : Nat} (h : P s) : P (State.startHold s m t0) := by
  unfold State.startHold
  with_reducible repeat' first | assumption | refine State.growHold_keeps C ?_ | refine C.set ?_

theorem State.dacFrame_keeps {s : State} {code : Nat} (h : P s) : P (State.dacFrame s code) := by
  unfold State.dacFrame
  with_reducible repeat' first | assumption | refine when_keep ?_ ?_ | refine C.set ?_ | refine C.emit ?_ | intro _

theorem State.steer_keeps {s : State} {f : Int} (h : P s) : P (State.steer s f) := by
  unfold State.steer
  with_reducible repeat' first | assumption | refine C.set ?_ | refine when_keep ?_ ?_ | refine State.dacFrame_keeps C ?_ | intro _

theorem State.predictFreq_keeps {s : State} (h : P s) : P (State.predictFreq s) := by
  unfold State.predictFreq
  with_reducible repeat' first | assumption | refine State.steer_keeps C ?_ | refine C.set ?_

theorem State.loseRef_keeps {s : State} (h : P s) : P (State.loseRef s) := by
  unfold State.loseRef
  with_reducible repeat'
    first
    | assumption | refine ite_keep ?_ ?_ | refine State.startHold_keeps C ?_ | refine State.enterDisc_keeps C ?_
    | refine State.predictFreq_keeps C ?_ | refine State.deselect_keeps C ?_

theorem State.switchRef_keeps {s : State} {n : Nat} (h : P s) : P (State.switchRef s n) := by
  unfold State.switchRef
  with_reducible repeat'
    first
    | assumption | refine ite_keep ?_ ?_ | refine State.startSlew_keeps C ?_ | refine State.selectRef_keeps C ?_
    | refine State.trackUnc_keeps C ?_ | refine C.set ?_ | refine State.enterDisc_keeps C ?_

theorem State.disqualify_keeps {s : State} {n : Nat} (h : P s) : P (State.disqualify s n) := by
  unfold State.disqualify
  with_reducible repeat'
    first
    | assumption | refine ite_keep ?_ ?_ | refine C.set ?_ | refine State.switchRef_keeps C ?_ | refine State.loseRef_keeps C ?_ | split

theorem State.setMeta_keeps {s : State} {x1 lo w v : Nat} (h : P s) : P (State.setMeta s x1 lo w v) := by
  unfold State.setMeta
  with_reducible repeat' first | assumption | refine C.set ?_

theorem State.operandDrawn_keeps {s : State} {b w : Nat} (h : P s) : P (State.operandDrawn s b w) := by
  unfold State.operandDrawn
  with_reducible repeat' first | assumption | refine ite_keep ?_ ?_ | refine C.drew ?_

theorem State.putOperand_keeps {s : State} {x1 b w v : Nat} (h : P s) : P (State.putOperand s x1 b w v) := by
  unfold State.putOperand
  with_reducible repeat' first | assumption | refine ite_keep ?_ ?_ | refine C.set ?_ | refine State.setMeta_keeps C ?_

theorem State.newPkt_keeps {s : State} {bytes : List Nat} {md : Nat} (h : P s) : P (State.newPkt s bytes md) := by
  unfold State.newPkt
  with_reducible repeat' first | assumption | refine C.set ?_ | refine C.lset ?_

theorem State.enterRegion_keeps {s : State} {x1 n : Nat} (h : P s) : P (State.enterRegion s x1 n) := by
  unfold State.enterRegion
  with_reducible repeat' first | assumption | refine State.addw_keeps C ?_ | refine C.set ?_

theorem State.arbEnter_keeps {s : State} {t : Nat} (h : P s) : P (State.arbEnter s t) := by
  unfold State.arbEnter
  with_reducible repeat' first | assumption | refine ite_keep ?_ ?_ | refine C.set ?_

theorem State.arbLeave_keeps {s : State} {n t : Nat} (h : P s) : P (State.arbLeave s n t) := by
  unfold State.arbLeave
  with_reducible repeat' first | assumption | refine when_keep ?_ ?_ | refine C.set ?_ | intro _

theorem State.freeSpan_keeps {s : State} {x1 : Nat} (h : P s) : P (State.freeSpan s x1) := by
  unfold State.freeSpan
  with_reducible repeat' first | assumption | refine ite_keep ?_ ?_ | refine C.set ?_

theorem State.bufFree_keeps {s : State} {x1 : Nat} (h : P s) : P (State.bufFree s x1) := by
  unfold State.bufFree
  with_reducible repeat' first | assumption | refine ite_keep ?_ ?_ | refine C.set ?_ | refine State.freeSpan_keeps C ?_

theorem State.leavePop_keeps {s : State} {x1 : Nat} (h : P s) : P (State.leavePop s x1) := by
  unfold State.leavePop
  with_reducible repeat' first | assumption | refine ite_keep ?_ ?_ | refine C.set ?_ | refine when_keep ?_ ?_ | intro _

theorem State.leaveRegion_keeps {s : State} {x1 : Nat} (h : P s) : P (State.leaveRegion s x1) := by
  unfold State.leaveRegion
  with_reducible repeat' first | assumption | refine State.bufFree_keeps C ?_ | refine State.leavePop_keeps C ?_

theorem State.freePkt_keeps {s : State} {x1 : Nat} (h : P s) : P (State.freePkt s x1) := by
  unfold State.freePkt
  with_reducible repeat'
    first
    | assumption | refine C.lset ?_ | refine C.set ?_ | refine State.leaveRegion_keeps C ?_ | refine when_keep ?_ ?_
    | refine State.arbLeave_keeps C ?_ | intro _

theorem State.txFate_keeps {s : State} {x1 status detail flags : Nat} (h : P s) : P (State.txFate s x1 status detail flags) := by
  unfold State.txFate
  with_reducible repeat' first | assumption | refine ite_keep ?_ ?_ | refine C.set ?_

theorem State.txDiverted_keeps {s : State} {x1 : Nat} (h : P s) : P (State.txDiverted s x1) := by
  unfold State.txDiverted
  with_reducible repeat' first | assumption | refine State.txFate_keeps C ?_

theorem State.dropWith_keeps {s : State} {x1 reason status : Nat} (h : P s) : P (State.dropWith s x1 reason status) := by
  unfold State.dropWith
  with_reducible repeat'
    first
    | assumption | refine ite_keep ?_ ?_ | refine when_keep ?_ ?_ | refine C.drew ?_ | refine C.set ?_ | refine State.freePkt_keeps C ?_
    | refine State.addw_keeps C ?_ | refine State.txFate_keeps C ?_ | intro _

theorem State.dropPkt_keeps {s : State} {x1 reason : Nat} (h : P s) : P (State.dropPkt s x1 reason) := by
  unfold State.dropPkt
  with_reducible repeat' first | assumption | refine State.dropWith_keeps C ?_

theorem State.readReqP_keeps {s : State} {e f a len kind x y pasid : Nat} (h : P s) : P (State.readReqP s e f a len kind x y pasid) := by
  unfold State.readReqP
  with_reducible repeat' first | assumption | refine ite_keep ?_ ?_ | refine C.emit ?_ | refine C.lset ?_ | refine C.set ?_ | split

theorem State.readReq_keeps {s : State} {e f a len kind x y : Nat} (h : P s) : P (State.readReq s e f a len kind x y) := by
  unfold State.readReq
  with_reducible repeat' first | assumption | refine State.readReqP_keeps C ?_

theorem State.readPass_keeps {s : State} {e : Nat} {a : List Nat} (h : P s) : P (State.readPass s e a) := by
  fun_induction State.readPass s e a
  all_goals with_reducible repeat' first | assumption | refine (by assumption : P _ → P _) ?_ | refine State.readReqP_keeps C ?_

theorem State.atsInvDone_keeps {s : State} {e f : Nat} (h : P s) : P (State.atsInvDone s e f) := by
  unfold State.atsInvDone
  with_reducible repeat' first | assumption | refine ite_keep ?_ ?_ | refine C.set ?_ | refine C.emit ?_

theorem State.readDrain_keeps {s : State} {e : Nat} (h : P s) : P (State.readDrain s e) := by
  unfold State.readDrain
  with_reducible repeat'
    first
    | assumption | refine ite_keep ?_ ?_ | refine State.readPass_keeps C ?_ | refine C.lset ?_ | refine each_keep ?_ ?_
    | refine State.atsInvDone_keeps C ?_ | intro _

theorem State.ringIrq_keeps {s : State} {e f r : Nat} (h : P s) : P (State.ringIrq s e f r) := by
  unfold State.ringIrq
  with_reducible repeat' first | assumption | refine ite_keep ?_ ?_ | refine C.set ?_ | refine State.msix_keeps C ?_

theorem State.entryPut_keeps {s : State} {e f r : Nat} {bytes : List Nat} (h : P s) : P (State.entryPut s e f r bytes) := by
  unfold State.entryPut
  with_reducible repeat'
    first
    | assumption | refine State.hostWriteP_keeps C ?_ | refine C.set ?_ | refine when_keep ?_ ?_ | refine State.ringIrq_keeps C ?_
    | refine State.addw_keeps C ?_ | intro _

theorem State.evtPost_keeps {s : State} {e f source kind object detail : Nat} (h : P s) :
    P (State.evtPost s e f source kind object detail) := by
  unfold State.evtPost
  with_reducible repeat'
    first
    | assumption | refine ite_keep ?_ ?_ | refine State.entryPut_keeps C ?_ | refine State.bump_keeps C ?_ | split

theorem State.cplLost_keeps {s : State} {e c : Nat} (h : P s) : P (State.cplLost s e c) := by
  unfold State.cplLost
  with_reducible repeat' first | assumption | refine State.bump_keeps C ?_

theorem State.unreserve_keeps {s : State} {e c w : Nat} (h : P s) : P (State.unreserve s e c w) := by
  unfold State.unreserve
  with_reducible repeat' first | assumption | refine ite_keep ?_ ?_ | refine C.set ?_

theorem State.reserve_keeps {s : State} {e c w : Nat} (h : P s) : P (State.reserve s e c w) := by
  unfold State.reserve
  with_reducible repeat' first | assumption | refine State.addw_keeps C ?_ | refine C.set ?_

theorem State.cplWrite_keeps {s : State} {e f c w : Nat} (h : P s) : P (State.cplWrite s e f c w) := by
  unfold State.cplWrite
  with_reducible repeat' first | assumption | refine State.unreserve_keeps C ?_ | refine State.entryPut_keeps C ?_

theorem State.cplPost_keeps {s : State} {e f c w : Nat} (h : P s) : P (State.cplPost s e f c w) := by
  unfold State.cplPost
  with_reducible repeat'
    first
    | assumption | refine ite_keep ?_ ?_ | refine State.cplWrite_keeps C ?_ | refine State.lpush_keeps C ?_
    | refine State.unreserve_keeps C ?_ | refine State.cplLost_keeps C ?_

theorem State.cplDrain_keeps {s : State} {e f c : Nat} {a : List Nat} (h : P s) : P (State.cplDrain s e f c a) := by
  fun_induction State.cplDrain s e f c a
  all_goals with_reducible repeat'
    first
    | assumption | refine (by assumption : P _ → P _) ?_ | refine ite_keep ?_ ?_ | refine C.lset ?_ | refine State.cplWrite_keeps C ?_

theorem State.cqPause_keeps {s : State} {e f c : Nat} (h : P s) : P (State.cqPause s e f c) := by
  unfold State.cqPause
  with_reducible repeat'
    first
    | assumption | refine ite_keep ?_ ?_ | refine State.evtPost_keeps C ?_ | refine C.set ?_ | refine each_keep ?_ ?_ | intro _

theorem State.cqResume_keeps {s : State} {e f c : Nat} (h : P s) : P (State.cqResume s e f c) := by
  unfold State.cqResume
  with_reducible repeat' first | assumption | refine ite_keep ?_ ?_ | refine each_keep ?_ ?_ | refine C.set ?_ | intro _

theorem State.ringUnfetch_keeps {s : State} {e r : Nat} (h : P s) : P (State.ringUnfetch s e r) := by
  unfold State.ringUnfetch
  with_reducible repeat'
    first
    | assumption | refine ite_keep ?_ ?_ | refine C.lset ?_ | refine C.set ?_ | refine each_keep ?_ ?_ | intro _

theorem State.cplDiscard_keeps {s : State} {e c : Nat} (h : P s) : P (State.cplDiscard s e c) := by
  unfold State.cplDiscard
  with_reducible repeat'
    first
    | assumption | refine C.lset ?_ | refine each_keep ?_ ?_ | refine State.unreserve_keeps C ?_ | refine State.cplLost_keeps C ?_
    | intro _

theorem State.ringError_keeps {s : State} {e r cause : Nat} (h : P s) : P (State.ringError s e r cause) := by
  unfold State.ringError
  with_reducible repeat'
    first
    | assumption | refine ite_keep ?_ ?_ | refine State.evtPost_keeps C ?_ | refine when_keep ?_ ?_ | refine State.ringUnfetch_keeps C ?_
    | refine C.set ?_ | intro _ | split

theorem State.ringStop_keeps {s : State} {e r : Nat} (h : P s) : P (State.ringStop s e r) := by
  unfold State.ringStop
  with_reducible repeat'
    first
    | assumption | refine ite_keep ?_ ?_ | refine C.set ?_ | refine when_keep ?_ ?_ | refine State.ringUnfetch_keeps C ?_ | intro _

theorem State.ringReset_keeps {s : State} {e r : Nat} (h : P s) : P (State.ringReset s e r) := by
  unfold State.ringReset
  with_reducible repeat'
    first
    | assumption | refine State.clr_keeps C ?_ | refine C.lset ?_ | refine foldl_keep ?_ ?_ | refine foldl_pair_keep ?_ ?_ | intro _

theorem State.newWork_keeps {s : State} {e r cookie : Nat} (h : P s) : P (State.newWork s e r cookie) := by
  unfold State.newWork
  with_reducible repeat' first | assumption | refine C.set ?_ | refine State.lpush_keeps C ?_

theorem State.tagFree_keeps {s : State} {e t : Nat} (h : P s) : P (State.tagFree s e t) := by
  unfold State.tagFree
  with_reducible repeat' first | assumption | refine State.readDrain_keeps C ?_ | refine C.lset ?_ | refine C.set ?_

theorem State.ethCount_keeps {s : State} {d p k n : Nat} (h : P s) : P (State.ethCount s d p k n) := by
  unfold State.ethCount
  with_reducible repeat'
    first
    | assumption | refine ite_keep ?_ ?_ | refine C.set ?_ | refine State.evtPost_keeps C ?_ | refine State.setb_keeps C ?_

theorem State.linkIrq_keeps {s : State} {d p : Nat} (h : P s) : P (State.linkIrq s d p) := by
  unfold State.linkIrq
  with_reducible repeat' first | assumption | refine State.evtPost_keeps C ?_

theorem State.macDiscard_keeps {s : State} {d p : Nat} (h : P s) : P (State.macDiscard s d p) := by
  unfold State.macDiscard
  with_reducible repeat'
    first
    | assumption | refine each_keep ?_ ?_ | refine State.ethCount_keeps C ?_ | refine State.dropPkt_keeps C ?_ | refine when_keep ?_ ?_
    | refine State.addw_keeps C ?_ | refine C.lset ?_ | refine C.set ?_ | intro _

theorem State.ethTrain_keeps {s : State} {d p : Nat} (h : P s) : P (State.ethTrain s d p) := by
  unfold State.ethTrain
  with_reducible repeat' first | assumption | refine C.set ?_

theorem State.ncsiAen_keeps {s : State} {n : Nat} {up : Bool} (h : P s) : P (State.ncsiAen s n up) := by
  unfold State.ncsiAen
  with_reducible repeat' first | assumption | refine ite_keep ?_ ?_ | refine State.bump_keeps C ?_ | refine C.drew ?_ | refine C.emit ?_

theorem State.ncsiReset_keeps {s : State} {n : Nat} (h : P s) : P (State.ncsiReset s n) := by
  unfold State.ncsiReset
  with_reducible repeat'
    first
    | assumption | refine State.clr_keeps C ?_ | refine each_keep ?_ ?_ | refine foldl_keep ?_ ?_ | refine foldl_pair_keep ?_ ?_ | intro _

theorem State.ncsiLost_keeps {s : State} {n : Nat} (h : P s) : P (State.ncsiLost s n) := by
  unfold State.ncsiLost
  with_reducible repeat'
    first
    | assumption | refine ite_keep ?_ ?_ | refine State.bump_keeps C ?_ | refine C.emit ?_ | refine State.ncsiReset_keeps C ?_

theorem State.leaveUp_keeps {s : State} {d p : Nat} (h : P s) : P (State.leaveUp s d p) := by
  unfold State.leaveUp
  with_reducible repeat'
    first
    | assumption | refine ite_keep ?_ ?_ | refine State.ncsiAen_keeps C ?_ | refine State.linkIrq_keeps C ?_ | refine C.set ?_

theorem State.accountTake_keeps {s : State} {sc t uj frac : Nat} (h : P s) : P (State.accountTake s sc t uj frac) := by
  unfold State.accountTake
  with_reducible repeat' first | assumption | refine State.addw_keeps C ?_ | refine C.set ?_

theorem State.charge_keeps {s : State} {sc t parts est : Nat} (h : P s) : P (State.charge s sc t parts est) := by
  unfold State.charge
  with_reducible repeat'
    first
    | assumption | refine ite_keep ?_ ?_ | refine State.addw_keeps C ?_ | refine when_keep ?_ ?_ | refine State.accountTake_keeps C ?_
    | intro _

theorem State.buckets_keeps {s : State} {d n : Nat} (h : P s) : P (State.buckets s d n) := by
  unfold State.buckets
  with_reducible repeat' first | assumption | refine ite_keep ?_ ?_ | refine C.set ?_

theorem State.turn_keeps {s : State} {d c : Nat} (h : P s) : P (s.turn d c) := by
  unfold State.turn
  with_reducible repeat' first | assumption | refine ite_keep ?_ ?_ | refine C.set ?_

theorem State.drrPass_keeps {s : State} {pick : State → Nat → State × Option (List Nat × Nat)} {d : Nat} {l : List Nat} (h : P s)
    (hp : ∀ a n, P a → P (pick a n).1) : P (s.drrPass pick d l).1 := by
  induction l generalizing s with
  | nil => exact h
  | cons c r ih =>
    unfold State.drrPass
    have hc := hp s c h
    split
    · rename_i s1 e
      exact ih (by rw [e] at hc; exact hc)
    · rename_i s1 path len e
      rw [e] at hc
      split
      · exact State.turn_keeps C hc
      · exact ih (C.set (State.turn_keeps C h))

theorem State.drrTier_keeps {s : State} {pick : State → Nat → State × Option (List Nat × Nat)} {d par tier : Nat} {l : List Nat} (h : P s)
    (hp : ∀ a n, P a → P (pick a n).1) : P (s.drrTier pick d par tier l).1 := by
  unfold State.drrTier
  split
  · rename_i s1 x e
    exact C.set (pair_keep e (State.drrPass_keeps C h hp))
  · rename_i s1 e
    exact pair_keep e (State.drrPass_keeps C h hp)

theorem State.drrPick_keeps {s : State} {pick : State → Nat → State × Option (List Nat × Nat)} {d par : Nat} (h : P s)
    (hp : ∀ a n, P a → P (pick a n).1) : P (s.drrPick pick d par).1 := by
  unfold State.drrPick
  dsimp only
  split
  · rename_i s1 x e
    exact pair_keep e (State.drrTier_keeps C h hp)
  · rename_i s1 e
    exact State.drrTier_keeps C (pair_keep e (State.drrTier_keeps C h hp)) hp

theorem State.headQueue_keeps {d : Nat} {s : State} {n : Nat} (h : P s) : P (State.headQueue d s n).1 := by
  unfold State.headQueue
  with_reducible repeat' first | assumption | intro _ | split | dsimp only

theorem State.pickClass_keeps {d : Nat} {s : State} {n : Nat} (h : P s) : P (State.pickClass d s n).1 :=
  State.drrPick_keeps C h (fun _ _ h => h)

theorem State.pickTenant_keeps {d : Nat} {s : State} {i : Nat} (h : P s) : P (State.pickTenant d s i).1 :=
  State.drrPick_keeps C h (fun _ _ h => State.pickClass_keeps C h)

theorem State.pickPort_keeps {s : State} {d p : Nat} (h : P s) : P (s.pickPort d p).1 :=
  State.drrPick_keeps C h (fun _ _ h => State.pickTenant_keeps C h)

theorem State.nodeEmpty_keeps {s : State} {d n : Nat} (h : P s) : P (State.nodeEmpty s d n) := by
  unfold State.nodeEmpty
  with_reducible repeat' first | assumption | refine ite_keep ?_ ?_ | refine C.set ?_

theorem State.dequeue_keeps {s : State} {d q x3 : Nat} (h : P s) : P (State.dequeue s d q x3) := by
  unfold State.dequeue
  with_reducible repeat'
    first
    | assumption | refine C.lset ?_ | refine C.set ?_ | refine each_keep ?_ ?_ | refine State.nodeEmpty_keeps C ?_ | intro _

theorem State.queueDiscard_keeps {s : State} {d q reason : Nat} {count : Option Field} (h : P s) :
    P (State.queueDiscard s d q reason count) := by
  unfold State.queueDiscard
  with_reducible repeat'
    first
    | assumption | refine each_keep ?_ ?_ | refine State.dropPkt_keeps C ?_ | refine State.dequeue_keeps C ?_
    | refine State.bump_keeps C ?_ | intro _ | split

theorem State.enqueue_keeps {s : State} {x1 dp queue c : Nat} (h : P s) : P (State.enqueue s x1 dp queue c) := by
  unfold State.enqueue
  with_reducible repeat'
    first
    | assumption | refine ite_keep ?_ ?_ | refine State.dropPkt_keeps C ?_ | refine State.bump_keeps C ?_ | refine C.set ?_
    | refine State.lpush_keeps C ?_ | refine State.leavePop_keeps C ?_ | refine State.addw_keeps C ?_ | split | dsimp only

theorem State.toHost_keeps {s : State} {x1 ring : Nat} (h : P s) : P (State.toHost s x1 ring) := by
  unfold State.toHost
  with_reducible repeat'
    first
    | assumption | refine ite_keep ?_ ?_ | refine C.set ?_ | refine State.leaveRegion_keeps C ?_ | refine State.dropPkt_keeps C ?_
    | refine C.drew ?_ | refine State.bump_keeps C ?_

theorem State.forwardTo_keeps {s : State} {x1 a : Nat} (h : P s) : P (State.forwardTo s x1 a) := by
  unfold State.forwardTo
  with_reducible repeat' first | assumption | refine ite_keep ?_ ?_ | refine State.toHost_keeps C ?_ | refine State.enqueue_keeps C ?_

theorem State.stampEpoch_keeps {s : State} {x1 n : Nat} (h : P s) : P (State.stampEpoch s x1 n) := by
  unfold State.stampEpoch
  with_reducible repeat' first | assumption | refine State.setMeta_keeps C ?_

theorem State.chargePath_keeps {s : State} {d q len : Nat} (h : P s) : P (State.chargePath s d q len) := by
  unfold State.chargePath
  with_reducible repeat'
    first
    | assumption | refine each_keep ?_ ?_ | refine C.set ?_ | refine State.buckets_keeps C ?_ | refine when_keep ?_ ?_ | intro _

theorem State.bucketsFull_keeps {s : State} {d n : Nat} (h : P s) : P (State.bucketsFull s d n) := by
  unfold State.bucketsFull
  with_reducible repeat' first | assumption | refine C.set ?_

theorem State.shaperApply_keeps {s : State} {d n : Nat} (h : P s) : P (State.shaperApply s d n) := by
  unfold State.shaperApply
  with_reducible repeat' first | assumption | refine ite_keep ?_ ?_ | refine C.set ?_ | refine State.bucketsFull_keeps C ?_

theorem State.spanTake_keeps {s : State} {n handle u : Nat} (h : P s) : P (State.spanTake s n handle u) := by
  unfold State.spanTake
  with_reducible repeat' first | assumption | refine C.drew ?_ | refine C.set ?_

theorem State.spanSave_keeps {s : State} {x1 n handle : Nat} (h : P s) : P (State.spanSave s x1 n handle) := by
  unfold State.spanSave
  with_reducible repeat' first | assumption | refine C.set ?_

theorem State.queueMsi_keeps {s : State} {n q : Nat} (h : P s) : P (State.queueMsi s n q) := by
  unfold State.queueMsi
  with_reducible repeat' first | assumption | refine ite_keep ?_ ?_ | refine C.set ?_ | refine State.coreMsi_keeps C ?_

theorem State.queuePut_keeps {s : State} {n q : Nat} {entry : List Nat} (h : P s) : P (State.queuePut s n q entry) := by
  unfold State.queuePut
  with_reducible repeat'
    first
    | assumption | refine State.mwrite_keeps C ?_ | refine C.set ?_ | refine when_keep ?_ ?_ | refine State.queueMsi_keeps C ?_ | intro _

theorem State.mailbox_keeps {s : State} {n ref : Nat} {entry : List Nat} (h : P s) : P (State.mailbox s n ref entry).1 := by
  unfold State.mailbox
  with_reducible repeat'
    first
    | assumption | refine ite_keep ?_ ?_ | refine State.bump_keeps C ?_ | refine State.queuePut_keeps C ?_ | intro _ | split

theorem State.puntTo_keeps {s : State} {x1 ref reason : Nat} (h : P s) : P (State.puntTo s x1 ref reason) := by
  unfold State.puntTo
  with_reducible repeat'
    first
    | assumption | refine ite_keep ?_ ?_ | refine State.dropPkt_keeps C ?_ | refine State.bump_keeps C ?_ | refine C.set ?_
    | refine when_keep ?_ ?_ | refine State.spanTake_keeps C ?_ | refine State.mwrite_keeps C ?_ | refine State.spanSave_keeps C ?_
    | refine State.queuePut_keeps C ?_ | refine State.freePkt_keeps C ?_ | refine State.txDiverted_keeps C ?_ | intro _ | split
    | dsimp only

theorem State.hartClear_keeps {s : State} {x1 : Nat} (h : P s) : P (State.hartClear s x1) := by
  unfold State.hartClear
  with_reducible repeat' first | assumption | refine State.clr_keeps C ?_ | refine each_keep ?_ ?_ | intro _

theorem State.coresDiscard_keeps {s : State} {n : Nat} (h : P s) : P (State.coresDiscard s n) := by
  unfold State.coresDiscard
  with_reducible repeat'
    first
    | assumption | refine each_keep ?_ ?_ | refine State.hartClear_keeps C ?_ | refine C.set ?_ | refine when_keep ?_ ?_ | intro _

theorem State.atsAsk_keeps {s : State} {e f pasid page : Nat} (h : P s) : P (State.atsAsk s e f pasid page) := by
  unfold State.atsAsk
  with_reducible repeat' first | assumption | refine ite_keep ?_ ?_ | refine C.emit ?_ | refine C.set ?_

theorem State.priAsk_keeps {s : State} {e i : Nat} (h : P s) : P (State.priAsk s e i) := by
  unfold State.priAsk
  with_reducible repeat' first | assumption | refine ite_keep ?_ ?_ | refine C.set ?_ | refine C.emit ?_ | refine State.addw_keeps C ?_

theorem State.pagesForget_keeps {s : State} {r a len : Nat} (h : P s) : P (State.pagesForget s r a len) := by
  unfold State.pagesForget
  with_reducible repeat' first | assumption | refine ite_keep ?_ ?_ | refine each_keep ?_ ?_ | refine C.set ?_ | intro _

theorem State.pagesAsk_keeps {s : State} {r a len : Nat} {write : Bool} (h : P s) : P (State.pagesAsk s r a len write) := by
  unfold State.pagesAsk
  with_reducible repeat'
    first
    | assumption | refine ite_keep ?_ ?_ | refine each_keep ?_ ?_ | refine State.atsAsk_keeps C ?_ | refine State.priAsk_keeps C ?_
    | intro _

theorem State.keyWrite_keeps {s : State} {r a : Nat} {bytes : List Nat} (h : P s) : P (State.keyWrite s r a bytes) := by
  unfold State.keyWrite
  with_reducible repeat'
    first
    | assumption | refine ite_keep ?_ ?_ | refine each_keep ?_ ?_ | refine State.hostWriteD_keeps C ?_ | intro _

theorem State.keyRead_keeps {s : State} {r a len kind x y : Nat} (h : P s) : P (State.keyRead s r a len kind x y) := by
  unfold State.keyRead
  with_reducible repeat' first | assumption | refine ite_keep ?_ ?_ | refine State.readReqP_keeps C ?_

theorem State.keyMiss_keeps {s : State} {n key : Nat} (h : P s) : P (State.keyMiss s n key) := by
  unfold State.keyMiss
  with_reducible repeat'
    first
    | assumption | refine ite_keep ?_ ?_ | refine C.set ?_ | refine State.bump_keeps C ?_ | refine State.addw_keeps C ?_

theorem State.keyFail_keeps {s : State} {n y : Nat} (h : P s) : P (State.keyFail s n y) := by
  unfold State.keyFail
  with_reducible repeat' first | assumption | refine ite_keep ?_ ?_ | refine State.bump_keeps C ?_

theorem State.mkSetState_keeps {s : State} {k st : Nat} (h : P s) : P (State.mkSetState s k st) := by
  unfold State.mkSetState
  with_reducible repeat' first | assumption | refine C.mput ?_

theorem State.mkRevoke_keeps {s : State} {k ch : Nat} (h : P s) : P (State.mkRevoke s k ch) := by
  unfold State.mkRevoke
  with_reducible repeat' first | assumption | refine C.set ?_

theorem State.atcDrop_keeps {s : State} {e : Nat} {p : Nat → Bool} (h : P s) : P (State.atcDrop s e p) := by
  unfold State.atcDrop
  with_reducible repeat' first | assumption | refine ite_keep ?_ ?_ | refine each_keep ?_ ?_ | refine C.set ?_ | intro _

theorem State.atcRoom_keeps {s : State} {e : Nat} (h : P s) : P (State.atcRoom s e) := by
  unfold State.atcRoom
  with_reducible repeat' first | assumption | refine ite_keep ?_ ?_ | refine State.atcDrop_keeps C ?_ | refine C.drew ?_

theorem State.mkyRes_keeps {s : State} {ch r : Nat} (h : P s) : P (State.mkyRes s ch r) := by
  unfold State.mkyRes
  with_reducible repeat' first | assumption | refine C.set ?_

theorem State.pfStep_keeps {s : State} {ch : Nat} (h : P s) : P (State.pfStep s ch) := by
  unfold State.pfStep
  with_reducible repeat'
    first
    | assumption | refine State.mkyRes_keeps C ?_ | refine C.set ?_ | refine State.pagesForget_keeps C ?_
    | refine State.pagesAsk_keeps C ?_ | split | dsimp only

theorem State.pfAll_keeps {s : State} (h : P s) : P (State.pfAll s) := by
  unfold State.pfAll
  with_reducible repeat' first | assumption | refine ite_keep ?_ ?_ | refine each_keep ?_ ?_ | refine State.pfStep_keeps C ?_ | intro _

theorem State.cnEvent_keeps {s : State} {c kind detail : Nat} (h : P s) : P (State.cnEvent s c kind detail) := by
  unfold State.cnEvent
  with_reducible repeat' first | assumption | refine ite_keep ?_ ?_ | refine State.evtPost_keeps C ?_ | split

theorem State.workDone_keeps {s : State} {w status : Nat} (h : P s) : P (State.workDone s w status) := by
  unfold State.workDone
  with_reducible repeat' first | assumption | refine ite_keep ?_ ?_ | refine C.set ?_

theorem State.msReport_keeps {s : State} {c m st : Nat} (h : P s) : P (State.msReport s c m st) := by
  unfold State.msReport
  with_reducible repeat'
    first
    | assumption | refine ite_keep ?_ ?_ | refine State.cnEvent_keeps C ?_ | refine C.set ?_ | refine State.workDone_keeps C ?_

theorem State.rtAck_keeps {s : State} {c i : Nat} (h : P s) : P (State.rtAck s c i) := by
  unfold State.rtAck
  with_reducible repeat' first | assumption | refine C.lset ?_ | refine C.set ?_

theorem State.unaAdvance_keeps {s : State} {c a : Nat} (h : P s) : P (State.unaAdvance s c a) := by
  fun_induction State.unaAdvance s c a
  all_goals with_reducible repeat' first | assumption | refine (by assumption : P _ → P _) ?_ | refine ite_keep ?_ ?_ | refine C.set ?_

theorem State.msDrop_keeps {s : State} {c m : Nat} (h : P s) : P (State.msDrop s c m) := by
  unfold State.msDrop
  with_reducible repeat' first | assumption | refine C.lset ?_ | refine C.set ?_

theorem State.msFail_keeps {s : State} {c m st : Nat} (h : P s) : P (State.msFail s c m st) := by
  unfold State.msFail
  with_reducible repeat'
    first
    | assumption | refine ite_keep ?_ ?_ | refine C.set ?_ | refine when_keep ?_ ?_ | refine each_keep ?_ ?_
    | refine State.rtAck_keeps C ?_ | refine State.msDrop_keeps C ?_ | refine State.msReport_keeps C ?_
    | refine State.unaAdvance_keeps C ?_ | intro _

theorem State.cnFlush_keeps {s : State} {c st : Nat} (h : P s) : P (State.cnFlush s c st) := by
  unfold State.cnFlush
  with_reducible repeat'
    first
    | assumption | refine each_keep ?_ ?_ | refine State.msDrop_keeps C ?_ | refine when_keep ?_ ?_ | refine State.workDone_keeps C ?_
    | refine C.set ?_ | refine C.lset ?_ | intro _ | split | dsimp only

theorem State.msSent_keeps {s : State} {c m : Nat} (h : P s) : P (State.msSent s c m) := by
  unfold State.msSent
  with_reducible repeat' first | assumption | refine ite_keep ?_ ?_ | refine C.set ?_ | refine State.workDone_keeps C ?_

theorem State.silLeft_keeps {s : State} {x1 : Nat} (h : P s) : P (State.silLeft s x1) := by
  unfold State.silLeft
  with_reducible repeat' first | assumption | refine ite_keep ?_ ?_ | refine C.set ?_ | refine State.msSent_keeps C ?_

theorem State.cnError_keeps {s : State} {c : Nat} (h : P s) : P (State.cnError s c) := by
  unfold State.cnError
  with_reducible repeat'
    first
    | assumption | refine ite_keep ?_ ?_ | refine State.cnEvent_keeps C ?_ | refine State.cnFlush_keeps C ?_ | refine C.set ?_

theorem State.cacheWriteBack_keeps {s : State} {n : Nat} (h : P s) : P (State.cacheWriteBack s n) := by
  unfold State.cacheWriteBack
  with_reducible repeat' first | assumption | refine ite_keep ?_ ?_ | refine each_keep ?_ ?_ | refine C.set ?_ | intro _

theorem State.cacheLost_keeps {s : State} {n : Nat} (h : P s) : P (State.cacheLost s n) := by
  unfold State.cacheLost
  with_reducible repeat'
    first
    | assumption | refine ite_keep ?_ ?_ | refine each_keep ?_ ?_ | refine State.cnError_keeps C ?_ | refine C.set ?_ | intro _

theorem State.cqe_keeps {s : State} {k sq cid status dw0 : Nat} (h : P s) : P (State.cqe s k sq cid status dw0) := by
  unfold State.cqe
  with_reducible repeat'
    first
    | assumption | refine ite_keep ?_ ?_ | refine State.hostWrite_keeps C ?_ | refine C.set ?_ | refine when_keep ?_ ?_
    | refine State.msix_keeps C ?_ | intro _

theorem State.ctrlCount_keeps {s : State} {k : Nat} (h : P s) : P (State.ctrlCount s k) := by
  unfold State.ctrlCount
  with_reducible repeat' first | assumption | refine C.set ?_

theorem State.sqFree_keeps {s : State} {id : Nat} (h : P s) : P (State.sqFree s id) := by
  unfold State.sqFree
  with_reducible repeat' first | assumption | refine when_keep ?_ ?_ | refine C.set ?_ | intro _

theorem State.cmdDrop_keeps {s : State} {id : Nat} (h : P s) : P (State.cmdDrop s id) := by
  unfold State.cmdDrop
  with_reducible repeat'
    first
    | assumption | refine when_keep ?_ ?_ | refine C.set ?_ | refine each_keep ?_ ?_ | refine C.lset ?_
    | refine State.ctrlCount_keeps C ?_ | refine State.sqFree_keeps C ?_ | intro _

theorem State.cmdDone_keeps {s : State} {id status dw0 : Nat} (h : P s) : P (State.cmdDone s id status dw0) := by
  unfold State.cmdDone
  with_reducible repeat' first | assumption | refine ite_keep ?_ ?_ | refine State.cmdDrop_keeps C ?_ | refine State.cqe_keeps C ?_

theorem State.ctrlResetEnd_keeps {s : State} {k : Nat} (h : P s) : P (State.ctrlResetEnd s k) := by
  unfold State.ctrlResetEnd
  with_reducible repeat'
    first
    | assumption | refine each_keep ?_ ?_ | refine State.cmdDrop_keeps C ?_ | refine C.set ?_ | refine C.lset ?_ | intro _

theorem State.flushCut_keeps {s : State} {id : Nat} (h : P s) : P (State.flushCut s id) := by
  unfold State.flushCut
  with_reducible repeat'
    first
    | assumption | refine ite_keep ?_ ?_ | refine each_keep ?_ ?_ | refine C.lset ?_ | refine C.set ?_ | intro _

theorem State.ctrlReset_keeps {s : State} {k : Nat} {wait : Bool} (h : P s) : P (State.ctrlReset s k wait) := by
  unfold State.ctrlReset
  with_reducible repeat'
    first
    | assumption | refine ite_keep ?_ ?_ | refine C.set ?_ | refine each_keep ?_ ?_ | refine State.flushCut_keeps C ?_
    | refine State.cmdDrop_keeps C ?_ | refine State.ctrlResetEnd_keeps C ?_ | intro _

theorem State.aerPost_keeps {s : State} {k dw0 : Nat} (h : P s) : P (State.aerPost s k dw0) := by
  unfold State.aerPost
  with_reducible repeat'
    first
    | assumption | refine ite_keep ?_ ?_ | refine State.cqe_keeps C ?_ | refine C.lset ?_ | refine State.lpush_keeps C ?_ | split

theorem State.nsEvent_keeps {s : State} {k nsid : Nat} (h : P s) : P (State.nsEvent s k nsid) := by
  unfold State.nsEvent
  with_reducible repeat' first | assumption | refine ite_keep ?_ ?_ | refine C.lset ?_ | refine State.aerPost_keeps C ?_ | refine C.set ?_

theorem State.containTenant_keeps {s : State} {t : Nat} {forced : Bool} (h : P s) : P (State.containTenant s t forced) := by
  unfold State.containTenant
  with_reducible repeat'
    first
    | assumption | refine C.set ?_ | refine each_keep ?_ ?_ | refine State.ringError_keeps C ?_ | refine State.cnError_keeps C ?_
    | refine State.ctrlReset_keeps C ?_ | refine State.setb_keeps C ?_ | refine when_keep ?_ ?_ | refine State.mkRevoke_keeps C ?_
    | refine State.queueDiscard_keeps C ?_ | intro _

theorem State.tenantFatal_keeps {s : State} {r : Err} {forced : Bool} (h : P s) : P (State.tenantFatal s r forced) := by
  unfold State.tenantFatal
  with_reducible repeat'
    first
    | assumption | refine ite_keep ?_ ?_ | refine State.deviceFatal_keeps C ?_ | refine State.report1_keeps C ?_
    | refine State.containTenant_keeps C ?_

theorem State.tenantCount_keeps {s : State} {r : Err} (h : P s) : P (State.tenantCount s r) := by
  unfold State.tenantCount
  with_reducible repeat' first | assumption | refine ite_keep ?_ ?_ | refine C.lset ?_ | refine State.tenantFatal_keeps C ?_

theorem State.report_keeps {s : State} {r : Err} (h : P s) : P (State.report s r) := by
  unfold State.report
  with_reducible repeat'
    first
    | assumption | refine State.report1_keeps C ?_ | refine State.tenantCount_keeps C ?_ | refine State.tenantFatal_keeps C ?_
    | refine State.deviceFatal_keeps C ?_ | split

theorem State.strMasks_keeps {s : State} (h : P s) : P (State.strMasks s) := by
  unfold State.strMasks
  with_reducible repeat' first | assumption | refine ite_keep ?_ ?_ | refine C.set ?_

theorem State.drainEnd_keeps {s : State} {n : Nat} (h : P s) : P (State.drainEnd s n) := by
  unfold State.drainEnd
  with_reducible repeat' first | assumption | refine State.strMasks_keeps C ?_ | refine C.set ?_ | split

theorem State.regionFault_keeps {s : State} {n : Nat} (h : P s) : P (State.regionFault s n) := by
  unfold State.regionFault
  with_reducible repeat'
    first
    | assumption | refine ite_keep ?_ ?_ | refine State.drainEnd_keeps C ?_ | refine State.report_keeps C ?_ | refine C.set ?_
    | refine when_keep ?_ ?_ | intro _

theorem State.slotPut_keeps {s : State} {k a : Nat} {mat : List Nat} (h : P s) : P (State.slotPut s k a mat) := by
  unfold State.slotPut
  with_reducible repeat' first | assumption | refine State.mwrite_keeps C ?_ | refine C.set ?_

theorem State.slotStore_keeps {s : State} {k a : Nat} {mat : List Nat} (h : P s) : P (State.slotStore s k a mat) := by
  unfold State.slotStore
  with_reducible repeat' first | assumption | refine State.slotPut_keeps C ?_ | refine when_keep ?_ ?_ | intro _

theorem State.slotCorrupt_keeps {s : State} {k : Nat} (h : P s) : P (State.slotCorrupt s k) := by
  unfold State.slotCorrupt
  with_reducible repeat' first | assumption | refine State.report_keeps C ?_ | refine State.bump_keeps C ?_

theorem State.slotWipe_keeps {s : State} {k : Nat} (h : P s) : P (State.slotWipe s k) := by
  unfold State.slotWipe
  with_reducible repeat'
    first
    | assumption | refine ite_keep ?_ ?_ | refine State.mwrite_keeps C ?_ | refine when_keep ?_ ?_ | refine C.set ?_ | intro _

theorem State.keyEvict_keeps {s : State} {k : Nat} (h : P s) : P (State.keyEvict s k) := by
  unfold State.keyEvict
  with_reducible repeat'
    first
    | assumption | refine ite_keep ?_ ?_ | refine each_keep ?_ ?_ | refine C.lset ?_ | refine C.set ?_ | intro _

theorem State.keyDestroy_keeps {s : State} {k : Nat} (h : P s) : P (State.keyDestroy s k) := by
  unfold State.keyDestroy
  with_reducible repeat' first | assumption | refine State.keyEvict_keeps C ?_ | refine State.slotWipe_keeps C ?_

theorem State.keyFetch_keeps {s : State} {k : Nat} (h : P s) : P (State.keyFetch s k).1 := by
  unfold State.keyFetch
  with_reducible repeat' first | assumption | refine ite_keep ?_ ?_ | refine State.slotCorrupt_keeps C ?_ | intro _ | split | dsimp only

theorem State.cipNeed_keeps {s : State} {n k : Nat} (h : P s) : P (State.cipNeed s n k).1 := by
  unfold State.cipNeed
  with_reducible repeat'
    first
    | assumption | refine C.set ?_ | refine State.addw_keeps C ?_ | refine State.bump_keeps C ?_ | intro _ | split

theorem State.cipLoad_keeps {s : State} {n k : Nat} (h : P s) : P (State.cipLoad s n k) := by
  unfold State.cipLoad
  with_reducible repeat'
    first
    | assumption | refine ite_keep ?_ ?_ | refine State.keyFetch_keeps C ?_ | refine C.lset ?_ | refine C.set ?_
    | refine State.addw_keeps C ?_ | split | refine pair_keep (by assumption) ?_

theorem State.cipFail_keeps {s : State} {n : Nat} (h : P s) : P (State.cipFail s n) := by
  unfold State.cipFail
  with_reducible repeat' first | assumption | refine State.bump_keeps C ?_

theorem State.cipMismatch_keeps {s : State} {n tenant k : Nat} (h : P s) : P (State.cipMismatch s n tenant k) := by
  unfold State.cipMismatch
  with_reducible repeat' first | assumption | refine State.report_keeps C ?_ | refine State.bump_keeps C ?_

theorem State.slotClear_keeps {s : State} {t : Slot} {sc i : Nat} (h : P s) : P (State.slotClear s t sc i) := by
  unfold State.slotClear
  with_reducible repeat' first | assumption | refine C.set ?_ | split

theorem State.regRead_keeps {s : State} {path : Nat} {r : RegRow} {sc i : Nat} (h : P s) : P (State.regRead s path r sc i) := by
  unfold State.regRead
  with_reducible repeat'
    first
    | assumption | refine ite_keep ?_ ?_ | refine C.answer ?_ | refine when_keep ?_ ?_ | refine C.set ?_ | refine each_keep ?_ ?_
    | refine State.slotClear_keeps C ?_ | intro _

theorem State.slotWrite_keeps {s : State} {t : Slot} {sc i v : Nat} (h : P s) : P (State.slotWrite s t sc i v) := by
  unfold State.slotWrite
  with_reducible repeat' first | assumption | refine ite_keep ?_ ?_ | refine C.set ?_ | split

theorem State.plainWrite_keeps {s : State} {path addr : Nat} {r : RegRow} {sc i v : Nat} (h : P s) :
    P (State.plainWrite s path addr r sc i v) := by
  unfold State.plainWrite
  with_reducible repeat'
    first
    | assumption | refine when_keep ?_ ?_ | refine State.report1_keeps C ?_ | refine each_keep ?_ ?_ | refine State.slotWrite_keeps C ?_
    | intro _

theorem State.loWrite_keeps {s : State} {path v : Nat} (h : P s) : P (State.loWrite s path v) := by
  unfold State.loWrite
  with_reducible repeat' first | assumption | refine C.set ?_

theorem State.hiWrite_keeps {s : State} {path : Nat} {r : RegRow} {sc i v : Nat} (h : P s) : P (State.hiWrite s path r sc i v) := by
  unfold State.hiWrite
  with_reducible repeat'
    first
    | assumption | refine ite_keep ?_ ?_ | refine C.set ?_ | refine each_keep ?_ ?_ | refine when_keep ?_ ?_ | intro _

theorem State.regWrite_keeps {s : State} {path addr : Nat} {r : RegRow} {sc i v : Nat} (h : P s) :
    P (State.regWrite s path addr r sc i v) := by
  unfold State.regWrite
  with_reducible repeat'
    first
    | assumption | refine ite_keep ?_ ?_ | refine State.hiWrite_keeps C ?_ | refine State.loWrite_keeps C ?_
    | refine State.plainWrite_keeps C ?_

theorem State.hold_keeps {s : State} {path addr kind v : Nat} (h : P s) : P (State.hold s path addr kind v) := by
  unfold State.hold
  with_reducible repeat' first | assumption | refine C.lset ?_

theorem State.unmapped_keeps {s : State} {path addr : Nat} (h : P s) : P (State.unmapped s path addr) := by
  unfold State.unmapped
  with_reducible repeat' first | assumption | refine State.report1_keeps C ?_

theorem State.exeSet_keeps {s : State} {pl px slot e : Nat} (h : P s) : P (State.exeSet s pl px slot e) := by
  unfold State.exeSet
  with_reducible repeat' first | assumption | refine C.set ?_

theorem State.emShift_keeps {s : State} {pl px : Nat} {a : List Nat} (h : P s) : P (State.emShift s pl px a) := by
  fun_induction State.emShift s pl px a
  all_goals with_reducible repeat' first | assumption | refine (by assumption : P _ → P _) ?_ | refine State.exeSet_keeps C ?_

theorem State.emPut_keeps {s : State} {pl px kb key e : Nat} (h : P s) : SomeHas P (State.emPut s pl px kb key e) := by
  unfold State.emPut
  with_reducible repeat'
    first
    | assumption | refine State.exeSet_keeps C ?_ | refine State.emShift_keeps C ?_ | intro _ | split | exact someHas_none
    | refine someHas_some ?_

theorem State.emPlace_keeps {s : State} {pl px kb key e : Nat} (h : P s) : SomeHas P (State.emPlace s pl px kb key e) := by
  unfold State.emPlace
  with_reducible repeat'
    first
    | assumption | refine State.exeSet_keeps C ?_ | refine State.emPut_keeps C ?_ | intro _ | split | refine some_keep (by assumption) ?_
    | exact someHas_none | refine someHas_some ?_ | dsimp only

theorem State.emPutAll_keeps {s : State} {px kb key e : Nat} {a : List Nat} (h : P s) : SomeHas P (State.emPutAll s px kb key e a) := by
  fun_induction State.emPutAll s px kb key e a
  all_goals with_reducible repeat'
    first
    | assumption | refine (by assumption : P _ → SomeHas P _) ?_ | refine State.emPlace_keeps C ?_ | intro _ | split
    | refine some_keep (by assumption) ?_ | exact someHas_none | refine someHas_some ?_

theorem State.emStat_keeps {s : State} {t : Nat} (h : P s) : P (State.emStat s t) := by
  unfold State.emStat
  with_reducible repeat' first | assumption | refine C.set ?_ | split

theorem State.emClear_keeps {s : State} {px : Nat} {p : Nat → Bool} (h : P s) : P (State.emClear s px p) := by
  unfold State.emClear
  with_reducible repeat' first | assumption | refine each_keep ?_ ?_ | refine C.set ?_ | intro _

theorem State.dampClear_keeps {s : State} {ti : Nat} {p : Nat → Bool} (h : P s) : P (State.dampClear s ti p) := by
  unfold State.dampClear
  with_reducible repeat' first | assumption | refine each_keep ?_ ?_ | refine C.set ?_ | intro _

theorem State.emStamped_keeps {s : State} {l : List Nat} (h : P s) : P (State.emStamped s l) := by
  unfold State.emStamped
  with_reducible repeat' first | assumption | refine ite_keep ?_ ?_ | refine C.drew ?_

theorem State.exmEvent_keeps {s : State} {kind region t port prev moves key : Nat} (h : P s) :
    P (State.exmEvent s kind region t port prev moves key) := by
  unfold State.exmEvent
  with_reducible repeat'
    first
    | assumption | refine ite_keep ?_ ?_ | refine State.bump_keeps C ?_ | refine State.mailbox_keeps C ?_ | split
    | refine pair_keep (by assumption) ?_

theorem State.rehashAsk_keeps {s : State} {t pl key : Nat} {l : List Nat} (h : P s) : P (State.rehashAsk s t pl key l) := by
  unfold State.rehashAsk
  with_reducible repeat' first | assumption | refine ite_keep ?_ ?_ | refine State.exmEvent_keeps C ?_ | refine C.set ?_

theorem State.quotaHit_keeps {s : State} {ti key : Nat} (h : P s) : P (State.quotaHit s ti key) := by
  unfold State.quotaHit
  with_reducible repeat' first | assumption | refine State.bump_keeps C ?_

theorem State.shadowFail_keeps {s : State} {t : Nat} (h : P s) : P (State.shadowFail s t) := by
  unfold State.shadowFail
  with_reducible repeat' first | assumption | refine C.set ?_

theorem State.shadowPut_keeps {s : State} {t ti key e : Nat} {pls : List Nat} (h : P s) : P (State.shadowPut s t ti key e pls) := by
  unfold State.shadowPut
  with_reducible repeat'
    first
    | assumption | refine ite_keep ?_ ?_ | refine State.emPutAll_keeps C ?_ | refine State.shadowFail_keeps C ?_ | intro _ | split
    | refine some_keep (by assumption) ?_ | dsimp only

theorem State.emInsert_keeps {s : State} {t ti key e : Nat} (h : P s) : SomeHas P (State.emInsert s t ti key e) := by
  unfold State.emInsert
  with_reducible repeat'
    first
    | assumption | refine C.set ?_ | refine State.shadowPut_keeps C ?_ | refine State.emPutAll_keeps C ?_ | intro _ | split
    | refine some_keep (by assumption) ?_ | refine someHas_map ?_ ?_

theorem State.emEdit1_keeps {s : State} {pl px kb key : Nat} {f : Nat → Nat} (h : P s) : P (State.emEdit1 s pl px kb key f) := by
  unfold State.emEdit1
  with_reducible repeat' first | assumption | refine State.exeSet_keeps C ?_ | split

theorem State.emEdit_keeps {s : State} {t ti key : Nat} {f : Nat → Nat} (h : P s) : P (State.emEdit s t ti key f) := by
  unfold State.emEdit
  with_reducible repeat' first | assumption | refine each_keep ?_ ?_ | refine State.emEdit1_keeps C ?_ | refine when_keep ?_ ?_ | intro _

theorem State.emDelete_keeps {s : State} {t ti key : Nat} (h : P s) : P (State.emDelete s t ti key) := by
  unfold State.emDelete
  with_reducible repeat' first | assumption | refine C.set ?_ | refine State.emEdit_keeps C ?_

theorem State.initPut_keeps {s : State} {ti : Nat} {a : List (List Nat)} (h : P s) : SomeHas P (State.initPut s ti a) := by
  fun_induction State.initPut s ti a
  all_goals with_reducible repeat'
    first
    | assumption | refine (by assumption : P _ → SomeHas P _) ?_ | refine State.emPutAll_keeps C ?_ | intro _ | split
    | refine some_keep (by assumption) ?_ | exact someHas_none | refine someHas_some ?_

theorem State.emFresh_keeps {s : State} {ti : Nat} (h : P s) : P (State.emFresh s ti) := by
  unfold State.emFresh
  with_reducible repeat' first | assumption | refine C.set ?_ | refine State.emClear_keeps C ?_

theorem State.emFlipStamp_keeps {s : State} {ti : Nat} (h : P s) : P (State.emFlipStamp s ti) := by
  unfold State.emFlipStamp
  with_reducible repeat' first | assumption | refine State.emStamped_keeps C ?_ | refine each_keep ?_ ?_ | refine C.set ?_ | intro _

theorem State.shadowDrop_keeps {s : State} {t ti : Nat} (h : P s) : P (State.shadowDrop s t ti) := by
  unfold State.shadowDrop
  with_reducible repeat' first | assumption | refine C.set ?_ | refine State.emClear_keeps C ?_

theorem State.tcQuarantine_keeps {s : State} {n u : Nat} (h : P s) : P (State.tcQuarantine s n u) := by
  unfold State.tcQuarantine
  with_reducible repeat' first | assumption | refine State.bump_keeps C ?_ | refine C.set ?_ | refine State.report_keeps C ?_

theorem State.tcSearch_keeps {s : State} {p : State → Nat → Bool} {n ti key ten : Nat} {bad : List Nat} {lost : List Nat} {re : Bool}
    {a : Nat} (h : P s) :
    P (State.tcSearch s p n ti key ten bad lost re a).1 := by
  fun_induction State.tcSearch s p n ti key ten bad lost re a
  all_goals with_reducible repeat'
    first
    | assumption | refine (by assumption : P _ → P _) ?_ | refine ite_keep ?_ ?_ | refine State.bump_keeps C ?_
    | refine State.tcQuarantine_keeps C ?_ | refine State.report_keeps C ?_

theorem State.tcStuckStat_keeps {s : State} {n : Nat} (h : P s) : P (State.tcStuckStat s n) := by
  unfold State.tcStuckStat
  with_reducible repeat' first | assumption | refine C.set ?_

theorem State.tcPut_keeps {s : State} {n ti u width prio res key mask : Nat} (h : P s) :
    P (State.tcPut s n ti u width prio res key mask) := by
  unfold State.tcPut
  with_reducible repeat' first | assumption | refine C.set ?_

theorem State.tcRemove_keeps {s : State} {n u : Nat} (h : P s) : P (State.tcRemove s n u) := by
  unfold State.tcRemove
  with_reducible repeat' first | assumption | refine State.tcStuckStat_keeps C ?_ | refine C.set ?_

theorem State.bankStat_keeps {s : State} (h : P s) : P (State.bankStat s) := by
  unfold State.bankStat
  with_reducible repeat' first | assumption | refine each_keep ?_ ?_ | refine C.set ?_ | intro _

theorem State.tcInit_keeps {s : State} {ti : Nat} (h : P s) : P (State.tcInit s ti) := by
  unfold State.tcInit
  with_reducible repeat' first | assumption | refine each_keep ?_ ?_ | refine State.tcPut_keeps C ?_ | intro _

theorem State.tcClear_keeps {s : State} {ti : Nat} {p : Nat → Bool} (h : P s) : P (State.tcClear s ti p) := by
  unfold State.tcClear
  with_reducible repeat' first | assumption | refine each_keep ?_ ?_ | refine State.tcRemove_keeps C ?_ | intro _

theorem State.instInit_keeps {s : State} {ti : Nat} (h : P s) : SomeHas P (State.instInit s ti) := by
  unfold State.instInit
  with_reducible repeat'
    first
    | assumption | refine ite_keep ?_ ?_ | refine State.initPut_keeps C ?_ | refine State.emFresh_keeps C ?_
    | refine State.tcInit_keeps C ?_ | refine State.tcClear_keeps C ?_ | intro _ | split | refine some_keep (by assumption) ?_
    | exact someHas_none | refine someHas_some ?_

theorem State.instFree_keeps {s : State} {ti : Nat} (h : P s) : P (State.instFree s ti) := by
  unfold State.instFree
  with_reducible repeat'
    first
    | assumption | refine State.dampClear_keeps C ?_ | refine State.tcClear_keeps C ?_ | refine State.emClear_keeps C ?_ | refine C.set ?_
    | refine C.lset ?_

theorem State.slotShow_keeps {s : State} {k : Nat} (h : P s) : P (State.slotShow s k) := by
  unfold State.slotShow
  with_reducible repeat' first | assumption | refine C.set ?_

theorem State.dirWrite_keeps {s : State} (h : P s) : P (State.dirWrite s) := by
  unfold State.dirWrite
  with_reducible repeat' first | assumption | refine C.lset ?_

theorem State.dirRead_keeps {s : State} (h : P s) : P (State.dirRead s) := by
  unfold State.dirRead
  with_reducible repeat' first | assumption | refine C.set ?_ | refine State.slotShow_keeps C ?_

theorem State.makeTables_keeps {s : State} {act : List Sec} {l : List Sec} {a : List Nat} (h : P s) :
    SomeHas P (State.makeTables s act l a) := by
  fun_induction State.makeTables s act l a
  all_goals with_reducible repeat'
    first
    | assumption | refine (by assumption : P _ → SomeHas P _) ?_ | refine C.lset ?_ | refine State.instFree_keeps C ?_
    | refine State.instInit_keeps C ?_ | intro _ | split | refine some_keep (by assumption) ?_ | exact someHas_none
    | refine someHas_some ?_

theorem State.loadCtx_keeps {s : State} {l : List Sec} {n c : Nat} {ti : Nat → Nat} (h : P s) : P (State.loadCtx s l n c ti) := by
  unfold State.loadCtx
  with_reducible repeat'
    first
    | assumption | refine each_keep ?_ ?_ | refine C.lset ?_ | refine C.set ?_ | refine when_keep ?_ ?_ | intro _

theorem State.clearCtx_keeps {s : State} {n c : Nat} (h : P s) : P (State.clearCtx s n c) := by
  unfold State.clearCtx
  with_reducible repeat' first | assumption | refine State.loadCtx_keeps C ?_

theorem State.loadCommon_keeps {s : State} {l : List Sec} {c : Nat} (h : P s) : P (State.loadCommon s l c) := by
  unfold State.loadCommon
  with_reducible repeat' first | assumption | refine each_keep ?_ ?_ | refine C.lset ?_ | refine C.set ?_ | intro _

theorem State.loadTopo_keeps {s : State} {l : List Sec} (h : P s) : P (State.loadTopo s l) := by
  unfold State.loadTopo
  with_reducible repeat' first | assumption | refine each_keep ?_ ?_ | refine C.set ?_ | refine State.bucketsFull_keeps C ?_ | intro _

theorem State.freeUnused_keeps {s : State} (h : P s) : P (State.freeUnused s) := by
  unfold State.freeUnused
  with_reducible repeat' first | assumption | refine ite_keep ?_ ?_ | refine each_keep ?_ ?_ | refine State.instFree_keeps C ?_ | intro _

theorem State.fragStat_keeps {s : State} {n : Nat} (h : P s) : P (State.fragStat s n) := by
  unfold State.fragStat
  with_reducible repeat' first | assumption | refine C.set ?_

theorem State.dropEpoch_keeps {s : State} {n e r : Nat} {f : State → State} (h : P s) (hf : ∀ a0, P a0 → P (f a0)) :
    P (State.dropEpoch s n e r f) := by
  unfold State.dropEpoch
  with_reducible repeat'
    first
    | assumption | refine hf _ ?_ | refine State.fragStat_keeps C ?_ | refine each_keep ?_ ?_ | refine State.dropPkt_keeps C ?_ | intro _

theorem State.reloadDrop_keeps {s : State} (h : P s) : P (State.reloadDrop s) := by
  unfold State.reloadDrop
  with_reducible repeat'
    first
    | assumption | refine ite_keep ?_ ?_ | refine State.bump_keeps C ?_ | refine C.set ?_ | refine State.addw_keeps C ?_

theorem State.strDone_keeps {s : State} {op result detail : Nat} (h : P s) : P (State.strDone s op result detail) := by
  unfold State.strDone
  with_reducible repeat' first | assumption | refine C.set ?_

theorem State.strBusy_keeps {s : State} {op : Nat} (h : P s) : P (State.strBusy s op) := by
  unfold State.strBusy
  with_reducible repeat' first | assumption | refine C.set ?_ | refine State.strDone_keeps C ?_

theorem State.strCmd_keeps {s : State} {f : State → State} (h : P s) (hf : ∀ a0, P a0 → P (f a0)) : P (State.strCmd s f) := by
  unfold State.strCmd
  with_reducible repeat' first | assumption | refine hf _ ?_ | refine ite_keep ?_ ?_ | refine C.answer ?_

theorem State.wdogStop_keeps {s : State} (h : P s) : P (State.wdogStop s) := by
  unfold State.wdogStop
  with_reducible repeat' first | assumption | refine C.set ?_

theorem State.steerPkt_keeps {s : State} {x1 dp : Nat} (h : P s) : P (State.steerPkt s x1 dp) := by
  unfold State.steerPkt
  with_reducible repeat'
    first
    | assumption | refine ite_keep ?_ ?_ | refine when_keep ?_ ?_ | refine State.bump_keeps C ?_ | refine State.setMeta_keeps C ?_
    | refine State.dropPkt_keeps C ?_ | refine State.reloadDrop_keeps C ?_ | refine State.arbEnter_keeps C ?_ | refine C.drew ?_
    | refine C.set ?_ | refine State.addw_keeps C ?_ | refine State.enterRegion_keeps C ?_ | refine State.stampEpoch_keeps C ?_ | intro _
    | split

theorem State.arbRound_keeps {s : State} {n : Nat} {w : List Nat} {a : List Nat} (h : P s) : P (State.arbRound s n w a).1 := by
  fun_induction State.arbRound s n w a
  all_goals with_reducible repeat'
    first
    | assumption | refine (by assumption : P _ → P _) ?_ | refine ite_keep ?_ ?_ | refine State.addw_keeps C ?_ | intro _ | split
    | refine pair_keep (by assumption) ?_ | dsimp only

theorem State.arbRounds_keeps {s : State} {n : Nat} {w : List Nat} {l : List Nat} {a : Nat} (h : P s) :
    P (State.arbRounds s n w l a).1 := by
  fun_induction State.arbRounds s n w l a
  all_goals with_reducible repeat'
    first
    | assumption | refine (by assumption : P _ → P _) ?_ | refine State.arbRound_keeps C ?_ | intro _ | split
    | refine pair_keep (by assumption) ?_ | dsimp only

theorem State.arbPick_keeps {s : State} {n : Nat} (h : P s) : P (State.arbPick s n).1 := by
  unfold State.arbPick
  with_reducible repeat'
    first
    | assumption | refine ite_keep ?_ ?_ | refine State.arbRounds_keeps C ?_ | refine C.set ?_ | intro _ | split
    | refine pair_keep (by assumption) ?_ | dsimp only

theorem State.arbGrant_keeps {s : State} {n x2 : Nat} (h : P s) : P (State.arbGrant s n x2) := by
  unfold State.arbGrant
  with_reducible repeat' first | assumption | refine State.arbLeave_keeps C ?_ | refine C.set ?_ | refine State.addw_keeps C ?_

theorem State.settle_keeps {s : State} {x1 a : Nat} (h : P s) : P (State.settle s x1 a) := by
  fun_induction State.settle s x1 a
  all_goals with_reducible repeat' first | assumption | refine (by assumption : P _ → P _) ?_ | refine ite_keep ?_ ?_ | refine C.set ?_

theorem State.stageNext_keeps {s : State} {x1 : Nat} (h : P s) : P (State.stageNext s x1) := by
  unfold State.stageNext
  with_reducible repeat' first | assumption | refine State.settle_keeps C ?_ | refine State.addw_keeps C ?_

theorem State.forwardOut_keeps {s : State} {x1 : Nat} (h : P s) : P (State.forwardOut s x1) := by
  unfold State.forwardOut
  with_reducible repeat' first | assumption | refine State.forwardTo_keeps C ?_ | refine C.set ?_

theorem State.forwardDefault_keeps {s : State} {x1 : Nat} (h : P s) : P (State.forwardDefault s x1) := by
  unfold State.forwardDefault
  with_reducible repeat' first | assumption | refine State.forwardOut_keeps C ?_ | refine State.setMeta_keeps C ?_

theorem State.defaultPunt_keeps {s : State} {x1 reason : Nat} (h : P s) : P (State.defaultPunt s x1 reason) := by
  unfold State.defaultPunt
  with_reducible repeat'
    first
    | assumption | refine ite_keep ?_ ?_ | refine State.puntTo_keeps C ?_ | refine State.bump_keeps C ?_ | refine C.set ?_
    | refine State.forwardDefault_keeps C ?_ | refine State.dropPkt_keeps C ?_

theorem State.defaultAct_keeps {s : State} {x1 : Nat} {fail : Bool} (h : P s) : P (State.defaultAct s x1 fail) := by
  unfold State.defaultAct
  with_reducible repeat'
    first
    | assumption | refine ite_keep ?_ ?_ | refine State.dropPkt_keeps C ?_ | refine State.bump_keeps C ?_
    | refine State.forwardDefault_keeps C ?_ | refine State.defaultPunt_keeps C ?_ | split | dsimp only

theorem State.clsSnap_keeps {s : State} {n x2 : Nat} (h : P s) : P (State.clsSnap s n x2) := by
  unfold State.clsSnap
  with_reducible repeat' first | assumption | refine ite_keep ?_ ?_ | refine C.set ?_

theorem State.fragRelease_keeps {s : State} {n dig x3 : Nat} (h : P s) : P (State.fragRelease s n dig x3) := by
  unfold State.fragRelease
  with_reducible repeat' first | assumption | refine ite_keep ?_ ?_ | refine C.set ?_ | refine State.bump_keeps C ?_

theorem State.fragRecord_keeps {s : State} {x1 : Nat} (h : P s) : P (State.fragRecord s x1) := by
  unfold State.fragRecord
  with_reducible repeat'
    first
    | assumption | refine ite_keep ?_ ?_ | refine State.bump_keeps C ?_ | refine C.set ?_ | refine State.fragStat_keeps C ?_
    | refine each_keep ?_ ?_ | refine State.fragRelease_keeps C ?_ | intro _

theorem State.fragRemove_keeps {s : State} {n dig : Nat} (h : P s) : P (State.fragRemove s n dig) := by
  unfold State.fragRemove
  with_reducible repeat' first | assumption | refine C.set ?_

theorem State.fragLost_keeps {s : State} {n : Nat} (h : P s) : P (State.fragLost s n) := by
  unfold State.fragLost
  with_reducible repeat'
    first
    | assumption | refine each_keep ?_ ?_ | refine State.dropPkt_keeps C ?_ | refine State.fragStat_keeps C ?_
    | refine State.fragRemove_keeps C ?_ | intro _

theorem State.puntRecompute_keeps {s : State} (h : P s) : P (State.puntRecompute s) := by
  unfold State.puntRecompute
  with_reducible repeat' first | assumption | refine each_keep ?_ ?_ | refine C.set ?_ | intro _

end Sys2Proof.Machine
end

