-- ==== Sys2Proof/Laws/KeepTraffic.lean ====
section
/-! SUPPORT. What every primitive operation keeps, the operations of time, ports and transport keep: one lemma for each. -/

namespace Sys2Proof.Machine

variable {P : State → Prop} (C : Closed P)
include C

theorem State.measOutlier_keeps {s : State} {n : Nat} (h : P s) : P (State.measOutlier s n) := by
  unfold State.measOutlier
  with_reducible repeat'
    first
    | assumption | refine ite_keep ?_ ?_ | refine C.set ?_ | refine State.bump_keeps C ?_ | refine State.disqualify_keeps C ?_

theorem State.measAccept_keeps {s : State} {n : Nat} {off : Int} (h : P s) : P (State.measAccept s n off) := by
  unfold State.measAccept
  with_reducible repeat' first | assumption | refine ite_keep ?_ ?_ | refine C.set ?_

theorem State.servoUpdate_keeps {s : State} {off : Int} {rate : Nat} (h : P s) : P (State.servoUpdate s off rate) := by
  unfold State.servoUpdate
  with_reducible repeat'
    first
    | assumption | refine ite_keep ?_ ?_ | refine C.set ?_ | refine C.lset ?_ | refine C.drew ?_ | refine State.steer_keeps C ?_

theorem State.lockTests_keeps {s : State} {off : Int} (h : P s) : P (State.lockTests s off) := by
  unfold State.lockTests
  with_reducible repeat' first | assumption | refine ite_keep ?_ ?_ | refine C.set ?_ | refine State.enterDisc_keeps C ?_

theorem State.freqAct_keeps {s : State} {n : Nat} (h : P s) : P (State.freqAct s n) := by
  unfold State.freqAct
  with_reducible repeat' first | assumption | refine ite_keep ?_ ?_ | refine State.steer_keeps C ?_ | refine C.drew ?_

theorem State.ptpInfo_keeps {s : State} {n gm steps utc : Nat} (h : P s) : P (State.ptpInfo s n gm steps utc) := by
  unfold State.ptpInfo
  with_reducible repeat' first | assumption | refine ite_keep ?_ ?_ | refine C.set ?_ | refine State.utcShow_keeps C ?_

theorem State.measUse_keeps {s : State} {n : Nat} {off : Int} {parent : Bool} {rate : Nat} {both : Bool} (h : P s) :
    P (State.measUse s n off parent rate both).1 := by
  unfold State.measUse
  with_reducible repeat'
    first
    | assumption | refine ite_keep ?_ ?_ | refine C.set ?_ | refine State.acquire_keeps C ?_ | refine State.freqAct_keeps C ?_
    | refine State.trackUnc_keeps C ?_ | refine State.lockTests_keeps C ?_ | refine State.servoUpdate_keeps C ?_ | intro _ | split
    | refine pair_keep (by assumption) ?_ | dsimp only

theorem State.measure_keeps {s : State} {n : Nat} {off : Int} {parent : Bool} {gm steps utc rate : Nat} {both : Bool} (h : P s) :
    P (State.measure s n off parent gm steps utc rate both) := by
  unfold State.measure
  with_reducible repeat'
    first
    | assumption | refine ite_keep ?_ ?_ | refine State.ptpInfo_keeps C ?_ | refine State.evidence_keeps C ?_
    | refine State.disqualify_keeps C ?_ | refine State.measUse_keeps C ?_ | refine State.measAccept_keeps C ?_
    | refine State.measOutlier_keeps C ?_

theorem execReferenceMeasurement_keeps {n : Nat} {off : Int} {parent : Bool} {gm steps utc rate : Nat} {both : Bool} {s : State}
    (h : P s) :
    NextHas P (execReferenceMeasurement n off parent gm steps utc rate both s) := by
  unfold execReferenceMeasurement
  refine next_keep ?_
  with_reducible repeat' first | assumption | refine State.measure_keeps C ?_

theorem execMeasurementMissing_keeps {n : Nat} {s : State} (h : P s) : NextHas P (execMeasurementMissing n s) := by
  unfold execMeasurementMissing
  refine next_keep ?_
  with_reducible repeat'
    first
    | assumption | refine ite_keep ?_ ?_ | refine C.set ?_ | refine State.evidence_keeps C ?_ | refine State.disqualify_keeps C ?_

theorem execWtrExpiry_keeps {n : Nat} {s : State} (h : P s) : NextHas P (execWtrExpiry n s) := by
  unfold execWtrExpiry
  refine next_keep ?_
  with_reducible repeat'
    first
    | assumption | refine ite_keep ?_ ?_ | refine State.advanceTo_keeps C ?_ | refine State.evidence_keeps C ?_
    | refine State.switchRef_keeps C ?_

theorem execSlewComplete_keeps {s : State} (h : P s) : NextHas P (execSlewComplete s) := by
  unfold execSlewComplete
  refine next_keep ?_
  with_reducible repeat' first | assumption | refine State.publishUnc_keeps C ?_ | refine C.set ?_ | refine State.advanceTo_keeps C ?_

theorem State.todLoad_keeps {s : State} {unc : Nat} (h : P s) : P (State.todLoad s unc) := by
  unfold State.todLoad
  with_reducible repeat'
    first
    | assumption | refine C.set ?_ | refine State.stepTo_keeps C ?_ | refine State.evidence_keeps C ?_ | refine State.startHold_keeps C ?_

theorem execTsTodSetUnc_keeps {unc : Nat} {both : Bool} {s : State} (h : P s) : NextHas P (execTsTodSetUnc unc both s) := by
  unfold execTsTodSetUnc
  refine next_keep ?_
  with_reducible repeat'
    first
    | assumption | refine ite_keep ?_ ?_ | refine State.todLoad_keeps C ?_ | refine State.evidence_keeps C ?_
    | refine State.timeFault_keeps C ?_ | refine State.bump_keeps C ?_

theorem State.servoOff_keeps {s : State} (h : P s) : P (State.servoOff s) := by
  unfold State.servoOff
  with_reducible repeat'
    first
    | assumption | refine ite_keep ?_ ?_ | refine State.startHold_keeps C ?_ | refine State.enterDisc_keeps C ?_
    | refine State.deselect_keeps C ?_ | refine C.set ?_ | refine State.predictFreq_keeps C ?_ | refine State.growHold_keeps C ?_

theorem execServoEnWrite_keeps {v : Nat} {both : Bool} {s : State} (h : P s) : NextHas P (execServoEnWrite v both s) := by
  unfold execServoEnWrite
  refine next_keep ?_
  with_reducible repeat'
    first
    | assumption | refine ite_keep ?_ ?_ | refine C.set ?_ | refine State.evidence_keeps C ?_ | refine State.servoOff_keeps C ?_
    | refine State.acquire_keeps C ?_ | split

theorem State.faultClear_keeps {s : State} (h : P s) : P (State.faultClear s) := by
  unfold State.faultClear
  with_reducible repeat'
    first
    | assumption | refine ite_keep ?_ ?_ | refine State.addw_keeps C ?_ | refine each_keep ?_ ?_ | refine State.deselect_keeps C ?_
    | refine C.set ?_ | refine C.lset ?_ | refine State.startHold_keeps C ?_ | refine State.enterDisc_keeps C ?_ | intro _

theorem execFaultResolveAToB_keeps {s : State} (h : P s) : NextHas P (execFaultResolveAToB s) := by
  unfold execFaultResolveAToB
  refine next_keep ?_
  with_reducible repeat'
    first
    | assumption | refine ite_keep ?_ ?_ | refine State.evidence_keeps C ?_ | refine State.faultClear_keeps C ?_ | refine C.set ?_

theorem execFaultResolveBToA_keeps {s : State} (h : P s) : NextHas P (execFaultResolveBToA s) := by
  unfold execFaultResolveBToA
  refine next_keep ?_
  with_reducible repeat'
    first
    | assumption | refine ite_keep ?_ ?_ | refine State.evidence_keeps C ?_ | refine State.faultClear_keeps C ?_ | refine C.set ?_
    | refine State.stepTo_keeps C ?_

theorem execAbDiffMeasure_keeps {diff : Int} {s : State} (h : P s) : NextHas P (execAbDiffMeasure diff s) := by
  unfold execAbDiffMeasure
  refine next_keep ?_
  with_reducible repeat'
    first
    | assumption | refine ite_keep ?_ ?_ | refine State.advanceTo_keeps C ?_ | refine C.set ?_ | refine State.evidence_keeps C ?_
    | refine State.timeFault_keeps C ?_

theorem execUncUpdateTick_keeps {s : State} (h : P s) : NextHas P (execUncUpdateTick s) := by
  unfold execUncUpdateTick
  refine next_keep ?_
  with_reducible repeat' first | assumption | refine ite_keep ?_ ?_ | refine State.advanceTo_keeps C ?_ | refine State.growHold_keeps C ?_

theorem execHoldoverMaxReached_keeps {s : State} (h : P s) : NextHas P (execHoldoverMaxReached s) := by
  unfold execHoldoverMaxReached
  refine next_keep ?_
  with_reducible repeat'
    first
    | assumption | refine ite_keep ?_ ?_ | refine State.evidence_keeps C ?_ | refine C.set ?_ | refine State.enterDisc_keeps C ?_

theorem execHoldoverFreqUpdate_keeps {s : State} (h : P s) : NextHas P (execHoldoverFreqUpdate s) := by
  unfold execHoldoverFreqUpdate
  refine next_keep ?_
  with_reducible repeat'
    first
    | assumption | refine ite_keep ?_ ?_ | refine State.advanceTo_keeps C ?_ | refine State.steer_keeps C ?_
    | refine State.dacFrame_keeps C ?_

theorem execOscModeWrite_keeps {v : Nat} {s : State} (h : P s) : NextHas P (execOscModeWrite v s) := by
  unfold execOscModeWrite
  refine next_keep ?_
  with_reducible repeat'
    first
    | assumption | refine ite_keep ?_ ?_ | refine C.set ?_ | refine State.setb_keeps C ?_ | refine State.dacFrame_keeps C ?_

theorem execLearnSample_keeps {s : State} (h : P s) : NextHas P (execLearnSample s) := by
  unfold execLearnSample
  refine next_keep ?_
  with_reducible repeat'
    first
    | assumption | refine ite_keep ?_ ?_ | refine State.advanceTo_keeps C ?_ | refine C.set ?_ | refine C.lset ?_

theorem execLearnValid_keeps {s : State} (h : P s) : NextHas P (execLearnValid s) := by
  unfold execLearnValid
  refine next_keep ?_
  with_reducible repeat' first | assumption | refine ite_keep ?_ ?_ | refine C.set ?_ | refine State.advanceTo_keeps C ?_

theorem execPeriodic_keeps {s : State} (h : P s) : NextHas P (execPeriodic s) := by
  unfold execPeriodic
  refine next_keep ?_
  with_reducible repeat'
    first
    | assumption | refine ite_keep ?_ ?_ | refine when_keep ?_ ?_ | refine C.set ?_ | refine State.advanceTo_keeps C ?_
    | refine State.secondsDue_keeps C ?_ | intro _

theorem State.ringResize_keeps {s : State} (h : P s) : P (State.ringResize s) := by
  unfold State.ringResize
  with_reducible repeat' first | assumption | refine C.set ?_

theorem State.timeRingPut_keeps {s : State} {b : List Nat} (h : P s) : P (State.timeRingPut s b) := by
  unfold State.timeRingPut
  with_reducible repeat'
    first
    | assumption | refine ite_keep ?_ ?_ | refine State.hostDown_keeps C ?_ | refine State.bump_keeps C ?_ | refine C.set ?_
    | refine State.hostWrite_keeps C ?_

theorem execAmberRingDeliver_keeps {s : State} (h : P s) : NextHas P (execAmberRingDeliver s) := by
  unfold execAmberRingDeliver
  refine next_keep ?_
  with_reducible repeat' first | assumption | refine State.timeRingPut_keeps C ?_ | refine C.lset ?_ | split

theorem State.logProgram_keeps {s : State} {b : List Nat} (h : P s) : P (State.logProgram s b) := by
  unfold State.logProgram
  with_reducible repeat'
    first
    | assumption | refine ite_keep ?_ ?_ | refine each_keep ?_ ?_ | refine C.lset ?_ | refine State.addw_keeps C ?_ | intro _

theorem execAmberLogProgram_keeps {s : State} (h : P s) : NextHas P (execAmberLogProgram s) := by
  unfold execAmberLogProgram
  refine next_keep ?_
  with_reducible repeat'
    first
    | assumption | refine ite_keep ?_ ?_ | refine C.lset ?_ | refine State.bump_keeps C ?_ | refine State.logProgram_keeps C ?_ | split

theorem execTsAmberFetch_keeps {seq : Nat} {s : State} (h : P s) : NextHas P (execTsAmberFetch seq s) := by
  unfold execTsAmberFetch
  refine next_keep ?_
  with_reducible repeat' first | assumption | refine ite_keep ?_ ?_ | refine State.timeRingPut_keeps C ?_ | refine C.set ?_ | split

theorem execChainDigestCommit_keeps {v : Nat} {s : State} (h : P s) : NextHas P (execChainDigestCommit v s) := by
  unfold execChainDigestCommit
  refine next_keep ?_
  with_reducible repeat' first | assumption | refine C.set ?_ | refine C.lset ?_ | refine State.issueAmber_keeps C ?_

theorem execTsuCalibrate_keeps {d p : Nat} {s : State} (h : P s) : NextHas P (execTsuCalibrate d p s) := by
  unfold execTsuCalibrate
  refine next_keep ?_
  with_reducible repeat' first | assumption | refine ite_keep ?_ ?_ | refine State.advanceTo_keeps C ?_ | refine C.set ?_

theorem execTsuCalibrationDone_keeps {d p skew : Nat} {s : State} (h : P s) : NextHas P (execTsuCalibrationDone d p skew s) := by
  unfold execTsuCalibrationDone
  refine next_keep ?_
  with_reducible repeat' first | assumption | refine ite_keep ?_ ?_ | refine C.set ?_

theorem State.launchLate_keeps {s : State} {d p x3 : Nat} (h : P s) : P (State.launchLate s d p x3) := by
  unfold State.launchLate
  with_reducible repeat' first | assumption | refine C.set ?_ | refine State.bump_keeps C ?_

theorem State.gateDrop_keeps {s : State} {d p x3 r : Nat} (h : P s) : P (State.gateDrop s d p x3 r) := by
  unfold State.gateDrop
  with_reducible repeat' first | assumption | refine State.dropPkt_keeps C ?_ | refine C.lset ?_ | refine C.set ?_

theorem execLaunchGateArrival_keeps {d p x2 : Nat} {s : State} (h : P s) : NextHas P (execLaunchGateArrival d p x2 s) := by
  unfold execLaunchGateArrival
  refine next_keep ?_
  with_reducible repeat'
    first
    | assumption | refine ite_keep ?_ ?_ | refine C.set ?_ | refine State.gateDrop_keeps C ?_ | refine State.bump_keeps C ?_
    | refine State.launchLate_keeps C ?_

theorem execTimePageUpdate_keeps {e : Nat} {s : State} (h : P s) : NextHas P (execTimePageUpdate e s) := by
  unfold execTimePageUpdate
  refine next_keep ?_
  with_reducible repeat' first | assumption | refine ite_keep ?_ ?_ | refine State.pageNow_keeps C ?_ | refine State.advanceTo_keeps C ?_

theorem execPtmDialogueStart_keeps {e : Nat} {s : State} (h : P s) : NextHas P (execPtmDialogueStart e s) := by
  unfold execPtmDialogueStart
  refine next_keep ?_
  with_reducible repeat'
    first
    | assumption | refine ite_keep ?_ ?_ | refine when_keep ?_ ?_ | refine State.advanceTo_keeps C ?_ | refine C.emit ?_ | refine C.set ?_
    | intro _

theorem State.ptmFail_keeps {s : State} {e : Nat} (h : P s) : P (State.ptmFail s e) := by
  unfold State.ptmFail
  with_reducible repeat' first | assumption | refine ite_keep ?_ ?_ | refine C.set ?_ | refine State.bump_keeps C ?_

theorem State.ptmStop_keeps {s : State} {e : Nat} (h : P s) : P (State.ptmStop s e) := by
  unfold State.ptmStop
  with_reducible repeat' first | assumption | refine C.set ?_

theorem execPtmTimeout_keeps {e : Nat} {s : State} (h : P s) : NextHas P (execPtmTimeout e s) := by
  unfold execPtmTimeout
  refine next_keep ?_
  with_reducible repeat' first | assumption | refine ite_keep ?_ ?_ | refine State.ptmFail_keeps C ?_ | refine State.advanceTo_keeps C ?_

theorem State.ptmRate_keeps {s : State} {e dt ptm dt0 ptm0 : Nat} (h : P s) : P (State.ptmRate s e dt ptm dt0 ptm0) := by
  unfold State.ptmRate
  with_reducible repeat' first | assumption | refine ite_keep ?_ ?_ | refine C.set ?_

theorem State.ptmPair_keeps {s : State} {e dt ptm ld : Nat} (h : P s) : P (State.ptmPair s e dt ptm ld) := by
  unfold State.ptmPair
  with_reducible repeat'
    first
    | assumption | refine ite_keep ?_ ?_ | refine C.set ?_ | refine State.ptmRate_keeps C ?_ | refine State.addw_keeps C ?_
    | refine State.pageUpdate_keeps C ?_ | refine when_keep ?_ ?_ | refine State.timeRingPut_keeps C ?_ | intro _

theorem execPtmResponse_keeps {e el t2 t3 : Nat} {s : State} (h : P s) : NextHas P (execPtmResponse e el t2 t3 s) := by
  unfold execPtmResponse
  refine next_keep ?_
  with_reducible repeat'
    first
    | assumption | refine ite_keep ?_ ?_ | refine State.advanceTo_keeps C ?_ | refine State.ptmFail_keeps C ?_
    | refine State.ptmPair_keeps C ?_

theorem execPpsOutEdge_keeps {k : Nat} {s : State} (h : P s) : NextHas P (execPpsOutEdge k s) := by
  unfold execPpsOutEdge
  refine next_keep ?_
  with_reducible repeat'
    first
    | assumption | refine ite_keep ?_ ?_ | refine State.advanceTo_keeps C ?_ | refine C.set ?_ | refine State.bump_keeps C ?_
    | refine C.emit ?_

theorem execPpsPulseEnd_keeps {k : Nat} {s : State} (h : P s) : NextHas P (execPpsPulseEnd k s) := by
  unfold execPpsPulseEnd
  refine next_keep ?_
  with_reducible repeat'
    first
    | assumption | refine ite_keep ?_ ?_ | refine C.emit ?_ | refine C.set ?_ | refine State.advanceTo_keeps C ?_

theorem State.portDiscardAll_keeps {s : State} {d p : Nat} (h : P s) : P (State.portDiscardAll s d p) := by
  unfold State.portDiscardAll
  with_reducible repeat' first | assumption | refine C.set ?_ | refine each_keep ?_ ?_ | refine State.queueDiscard_keeps C ?_ | intro _

theorem execPortEnable_keeps {d p : Nat} {s : State} (h : P s) : NextHas P (execPortEnable d p s) := by
  unfold execPortEnable
  refine next_keep ?_
  with_reducible repeat' first | assumption | refine ite_keep ?_ ?_ | refine C.set ?_ | refine State.ethTrain_keeps C ?_

theorem execPortDisable_keeps {d p : Nat} {s : State} (h : P s) : NextHas P (execPortDisable d p s) := by
  unfold execPortDisable
  refine next_keep ?_
  with_reducible repeat'
    first
    | assumption | refine ite_keep ?_ ?_ | refine State.leaveUp_keeps C ?_ | refine C.set ?_ | refine State.portDiscardAll_keeps C ?_
    | refine State.macDiscard_keeps C ?_

theorem execPortLinkUp_keeps {d p : Nat} {s : State} (h : P s) : NextHas P (execPortLinkUp d p s) := by
  unfold execPortLinkUp
  refine next_keep ?_
  with_reducible repeat' first | assumption | refine ite_keep ?_ ?_ | refine C.set ?_ | refine State.ncsiAen_keeps C ?_

theorem execTrainingTimeout_keeps {d p : Nat} {s : State} (h : P s) : NextHas P (execTrainingTimeout d p s) := by
  unfold execTrainingTimeout
  refine next_keep ?_
  with_reducible repeat'
    first
    | assumption | refine ite_keep ?_ ?_ | refine State.ethTrain_keeps C ?_ | refine State.bump_keeps C ?_
    | refine State.advanceTo_keeps C ?_

theorem State.downHold0_keeps {s : State} {d p : Nat} (h : P s) : P (State.downHold0 s d p) := by
  unfold State.downHold0
  with_reducible repeat' first | assumption | refine ite_keep ?_ ?_ | refine State.portDiscardAll_keeps C ?_

theorem execLinkFault_keeps {d p : Nat} {s : State} (h : P s) : NextHas P (execLinkFault d p s) := by
  unfold execLinkFault
  refine next_keep ?_
  with_reducible repeat'
    first
    | assumption | refine ite_keep ?_ ?_ | refine State.macDiscard_keeps C ?_ | refine State.leaveUp_keeps C ?_
    | refine State.downHold0_keeps C ?_ | refine C.set ?_

theorem execRemoteFault_keeps {d p : Nat} {s : State} (h : P s) : NextHas P (execRemoteFault d p s) := by
  unfold execRemoteFault
  refine next_keep ?_
  with_reducible repeat'
    first
    | assumption | refine ite_keep ?_ ?_ | refine State.downHold0_keeps C ?_ | refine C.set ?_ | refine State.leaveUp_keeps C ?_

theorem execDownRetrain_keeps {d p : Nat} {s : State} (h : P s) : NextHas P (execDownRetrain d p s) := by
  unfold execDownRetrain
  refine next_keep ?_
  with_reducible repeat'
    first
    | assumption | refine ite_keep ?_ ?_ | refine C.set ?_ | refine State.ethTrain_keeps C ?_ | refine State.advanceTo_keeps C ?_

theorem execDownHoldExpiry_keeps {d p : Nat} {s : State} (h : P s) : NextHas P (execDownHoldExpiry d p s) := by
  unfold execDownHoldExpiry
  refine next_keep ?_
  with_reducible repeat'
    first
    | assumption | refine ite_keep ?_ ?_ | refine State.portDiscardAll_keeps C ?_ | refine State.advanceTo_keeps C ?_

theorem State.portClkLost_keeps {s : State} {d p k : Nat} (h : P s) : P (State.portClkLost s d p k) := by
  unfold State.portClkLost
  with_reducible repeat'
    first
    | assumption | refine ite_keep ?_ ?_ | refine State.macDiscard_keeps C ?_ | refine State.leaveUp_keeps C ?_
    | refine State.report_keeps C ?_ | refine C.set ?_ | refine when_keep ?_ ?_ | refine State.downHold0_keeps C ?_ | intro _

theorem State.hrStat_keeps {s : State} {d : Nat} (h : P s) : P (State.hrStat s d) := by
  unfold State.hrStat
  with_reducible repeat' first | assumption | refine C.set ?_

theorem execEthModeWrite_keeps {d v : Nat} {s : State} (h : P s) : NextHas P (execEthModeWrite d v s) := by
  unfold execEthModeWrite
  refine next_keep ?_
  with_reducible repeat'
    first
    | assumption | refine ite_keep ?_ ?_ | refine when_keep ?_ ?_ | refine C.set ?_ | refine each_keep ?_ ?_
    | refine State.ncsiLost_keeps C ?_ | refine State.hrStat_keeps C ?_ | intro _

theorem execResetThr_keeps {d p : Nat} {s : State} (h : P s) : NextHas P (execResetThr d p s) := by
  unfold execResetThr
  refine next_keep ?_
  with_reducible repeat' first | assumption | refine ite_keep ?_ ?_ | refine C.set ?_

theorem State.flowTake_keeps {s : State} {d p : Nat} {pfc : Bool} {mask : Nat} {q : Nat → Nat} (h : P s) :
    P (State.flowTake s d p pfc mask q) := by
  unfold State.flowTake
  with_reducible repeat'
    first
    | assumption | refine ite_keep ?_ ?_ | refine State.ethCount_keeps C ?_ | refine each_keep ?_ ?_ | refine C.set ?_ | intro _

theorem execPfcReceive_keeps {d p at_ : Nat} {pfc : Bool} {mask : Nat} {quanta : List Nat} {s : State} (h : P s) :
    NextHas P (execPfcReceive d p at_ pfc mask quanta s) := by
  unfold execPfcReceive
  refine next_keep ?_
  with_reducible repeat' first | assumption | refine ite_keep ?_ ?_ | refine State.flowTake_keeps C ?_ | refine State.advanceTo_keeps C ?_

theorem execPauseExpiry_keeps {d p c : Nat} {s : State} (h : P s) : NextHas P (execPauseExpiry d p c s) := by
  unfold execPauseExpiry
  refine next_keep ?_
  with_reducible repeat' first | assumption | refine ite_keep ?_ ?_ | refine C.set ?_ | refine State.advanceTo_keeps C ?_

theorem State.txCount_keeps {s : State} {d p : Nat} {bytes : List Nat} (h : P s) : P (State.txCount s d p bytes) := by
  unfold State.txCount
  with_reducible repeat' first | assumption | refine State.ethCount_keeps C ?_

theorem State.flowEmit_keeps {s : State} {d p c quanta : Nat} (h : P s) : P (State.flowEmit s d p c quanta) := by
  unfold State.flowEmit
  with_reducible repeat'
    first
    | assumption | refine ite_keep ?_ ?_ | refine State.ethCount_keeps C ?_ | refine State.txCount_keeps C ?_ | refine C.emit ?_
    | refine when_keep ?_ ?_ | intro _

theorem State.flowSend_keeps {s : State} {d p c quanta : Nat} (h : P s) : P (State.flowSend s d p c quanta) := by
  unfold State.flowSend
  with_reducible repeat' first | assumption | refine ite_keep ?_ ?_ | refine State.flowEmit_keeps C ?_ | refine C.set ?_

theorem State.xoffCheck_keeps {s : State} {d p c0 : Nat} (h : P s) : P (State.xoffCheck s d p c0) := by
  unfold State.xoffCheck
  with_reducible repeat' first | assumption | refine ite_keep ?_ ?_ | refine State.flowSend_keeps C ?_ | refine C.set ?_

theorem State.xoffCfg_keeps {s : State} {d p : Nat} (h : P s) : P (State.xoffCfg s d p) := by
  unfold State.xoffCfg
  with_reducible repeat'
    first
    | assumption | refine ite_keep ?_ ?_ | refine each_keep ?_ ?_ | refine State.xoffCheck_keeps C ?_ | refine C.set ?_ | intro _

theorem execPfcRefresh_keeps {d p c : Nat} {s : State} (h : P s) : NextHas P (execPfcRefresh d p c s) := by
  unfold execPfcRefresh
  refine next_keep ?_
  with_reducible repeat'
    first
    | assumption | refine ite_keep ?_ ?_ | refine State.flowSend_keeps C ?_ | refine C.set ?_ | refine State.advanceTo_keeps C ?_

theorem State.saValid_keeps {s : State} {d p a : Nat} (h : P s) : P (State.saValid s d p a) := by
  unfold State.saValid
  with_reducible repeat'
    first
    | assumption | refine ite_keep ?_ ?_ | refine C.lset ?_ | refine C.set ?_ | refine State.bump_keeps C ?_
    | refine State.keyFetch_keeps C ?_ | split | refine pair_keep (by assumption) ?_

theorem execSaValidWrite_keeps {d p a : Nat} {s : State} (h : P s) : NextHas P (execSaValidWrite d p a s) := by
  unfold execSaValidWrite
  refine next_keep ?_
  with_reducible repeat' first | assumption | refine ite_keep ?_ ?_ | refine State.saValid_keeps C ?_

theorem State.saInvalid_keeps {s : State} {d p a : Nat} (h : P s) : P (State.saInvalid s d p a) := by
  unfold State.saInvalid
  with_reducible repeat' first | assumption | refine C.lset ?_ | refine C.set ?_

theorem State.msecRx_keeps {s : State} {d p : Nat} {b : List Nat} (h : P s) : P (s.msecRx d p b).1 := by
  have ik : ∀ {c : Prop} [Decidable c] {x y : State × MsecRx}, P x.1 → P y.1 → P (if c then x else y).1 := by
    intros; split <;> assumption
  unfold State.msecRx
  repeat' first | exact h | exact C.set h | refine ik ?_ ?_ | extract_lets | split

theorem State.msecTx_keeps {s : State} {d p : Nat} {b : List Nat} (h : P s) : P (State.msecTx s d p b).1 := by
  unfold State.msecTx
  with_reducible repeat'
    first
    | assumption | refine ite_keep ?_ ?_ | refine State.ethCount_keeps C ?_ | refine C.set ?_ | refine when_keep ?_ ?_ | intro _ | split
    | dsimp only

theorem State.ncsiRx_keeps {s : State} {d p : Nat} {b : List Nat} (h : P s) : P (State.ncsiRx s d p b).1 := by
  unfold State.ncsiRx
  with_reducible repeat'
    first
    | assumption | refine ite_keep ?_ ?_ | refine State.bump_keeps C ?_ | refine State.ethCount_keeps C ?_ | refine C.emit ?_ | intro _
    | split

theorem State.rxPass_keeps {s : State} {d p : Nat} {b : List Nat} {tuple wire : Nat} (h : P s) : P (State.rxPass s d p b tuple wire) := by
  unfold State.rxPass
  with_reducible repeat'
    first
    | assumption | refine ite_keep ?_ ?_ | refine State.ethCount_keeps C ?_ | refine State.ncsiRx_keeps C ?_ | refine C.set ?_
    | refine State.setMeta_keeps C ?_ | refine State.newPkt_keeps C ?_ | refine State.xoffCheck_keeps C ?_
    | refine State.steerPkt_keeps C ?_ | split | refine pair_keep (by assumption) ?_ | dsimp only

theorem State.macRx_keeps {s : State} {d p : Nat} {sym : Bool} {b : List Nat} (h : P s) : P (State.macRx s d p sym b) := by
  unfold State.macRx
  with_reducible repeat'
    first
    | assumption | refine ite_keep ?_ ?_ | refine State.ethCount_keeps C ?_ | refine State.msecRx_keeps C ?_ | refine when_keep ?_ ?_
    | refine State.flowTake_keeps C ?_ | refine State.rxPass_keeps C ?_ | intro _ | split | refine pair_keep (by assumption) ?_

theorem State.fecCount_keeps {s : State} {d p corr uncorr : Nat} (h : P s) : P (State.fecCount s d p corr uncorr) := by
  unfold State.fecCount
  with_reducible repeat' first | assumption | refine ite_keep ?_ ?_ | refine State.ethCount_keeps C ?_

theorem execFrameReceive_keeps {d p at_ : Nat} {sym : Bool} {bytes : List Nat} {corr uncorr : Nat} {s : State} (h : P s) :
    NextHas P (execFrameReceive d p at_ sym bytes corr uncorr s) := by
  unfold execFrameReceive
  refine next_keep ?_
  with_reducible repeat'
    first
    | assumption | refine ite_keep ?_ ?_ | refine State.macRx_keeps C ?_ | refine State.fecCount_keeps C ?_
    | refine State.advanceTo_keeps C ?_

theorem State.macBytes_keeps {s : State} {d p x3 : Nat} (h : P s) : P (State.macBytes s d p x3).1 := by
  unfold State.macBytes
  with_reducible repeat'
    first
    | assumption | refine when_keep ?_ ?_ | refine State.bump_keeps C ?_ | refine C.set ?_ | refine State.msecTx_keeps C ?_ | intro _

theorem State.ncsiSend_keeps {s : State} {d p : Nat} (h : P s) : P (State.ncsiSend s d p) := by
  unfold State.ncsiSend
  with_reducible repeat'
    first
    | assumption | refine State.msecTx_keeps C ?_ | refine C.lset ?_ | refine State.bump_keeps C ?_ | refine State.ethCount_keeps C ?_
    | refine State.txCount_keeps C ?_ | refine C.emit ?_ | split | refine pair_keep (by assumption) ?_

theorem State.macSend_keeps {s : State} {d p x3 : Nat} (h : P s) : P (State.macSend s d p x3) := by
  unfold State.macSend
  with_reducible repeat'
    first
    | assumption | refine C.lset ?_ | refine State.macBytes_keeps C ?_ | refine State.dropPkt_keeps C ?_ | refine C.set ?_
    | refine State.silLeft_keeps C ?_ | refine State.txCount_keeps C ?_ | refine C.emit ?_ | refine State.freePkt_keeps C ?_
    | refine State.txFate_keeps C ?_ | split | refine pair_keep (by assumption) ?_ | dsimp only

theorem State.advanceRep_keeps {s : State} {d t : Nat} (h : P s) : P (State.advanceRep s d t) := by
  unfold State.advanceRep
  with_reducible repeat' first | assumption | refine ite_keep ?_ ?_ | refine State.advanceTo_keeps C ?_

theorem execLaunchRelease_keeps {d p : Nat} {s : State} (h : P s) : NextHas P (execLaunchRelease d p s) := by
  unfold execLaunchRelease
  refine next_keep ?_
  with_reducible repeat'
    first
    | assumption | refine ite_keep ?_ ?_ | refine C.set ?_ | refine State.advanceRep_keeps C ?_ | refine State.macSend_keeps C ?_ | split
    | dsimp only

theorem execMacFrameStart_keeps {d p at_ : Nat} {s : State} (h : P s) : NextHas P (execMacFrameStart d p at_ s) := by
  unfold execMacFrameStart
  refine next_keep ?_
  with_reducible repeat'
    first
    | assumption | refine ite_keep ?_ ?_ | refine State.advanceTo_keeps C ?_ | refine State.flowSend_keeps C ?_
    | refine State.ncsiSend_keeps C ?_ | refine State.macSend_keeps C ?_ | split | dsimp only

theorem execTxUnderrun_keeps {d p k at_ : Nat} {s : State} (h : P s) : NextHas P (execTxUnderrun d p k at_ s) := by
  unfold execTxUnderrun
  refine next_keep ?_
  with_reducible repeat'
    first
    | assumption | refine ite_keep ?_ ?_ | refine State.advanceTo_keeps C ?_ | refine C.lset ?_ | refine State.macBytes_keeps C ?_
    | refine State.dropPkt_keeps C ?_ | refine C.set ?_ | refine C.emit ?_ | refine State.ethCount_keeps C ?_ | split
    | refine pair_keep (by assumption) ?_ | dsimp only

theorem State.wakeDrive_keeps {s : State} {e : Nat} (h : P s) : P (State.wakeDrive s e) := by
  unfold State.wakeDrive
  with_reducible repeat' first | assumption | refine C.emit ?_ | refine C.set ?_

theorem execWakeFrameReceive_keeps {d : Nat} {bytes : List Nat} {s : State} (h : P s) : NextHas P (execWakeFrameReceive d bytes s) := by
  unfold execWakeFrameReceive
  refine next_keep ?_
  with_reducible repeat' first | assumption | refine ite_keep ?_ ?_ | refine State.wakeDrive_keeps C ?_ | refine C.set ?_ | split

theorem State.netSend_keeps {s : State} {c dport path psn : Nat} {data : Bool} {u : List Nat} (h : P s) :
    P (State.netSend s c dport path psn data u) := by
  unfold State.netSend
  with_reducible repeat'
    first
    | assumption | refine ite_keep ?_ ?_ | refine when_keep ?_ ?_ | refine C.drew ?_ | refine C.set ?_ | refine State.newPkt_keeps C ?_
    | refine State.enqueue_keeps C ?_ | intro _

theorem State.cipUse_keeps {s : State} {n slot tenant : Nat} {agree : Bool} (h : P s) : P (State.cipUse s n slot tenant agree).1 := by
  unfold State.cipUse
  with_reducible repeat'
    first
    | assumption | refine ite_keep ?_ ?_ | refine State.cipNeed_keeps C ?_ | refine State.cipMismatch_keeps C ?_ | intro _ | split
    | refine pair_keep (by assumption) ?_

theorem State.txKey_keeps {s : State} {n c : Nat} {agree : Bool} (h : P s) : P (State.txKey s n c agree).1 := by
  unfold State.txKey
  with_reducible repeat' first | assumption | refine ite_keep ?_ ?_ | refine State.cipUse_keeps C ?_ | intro _ | split

theorem State.silEmit_keeps {s : State} {n c path psn nts st : Nat} {data : Bool} {hd : List Nat} {pl : List Nat} (h : P s) :
    P (State.silEmit s n c path psn nts st data hd pl) := by
  unfold State.silEmit
  with_reducible repeat'
    first
    | assumption | refine ite_keep ?_ ?_ | refine State.cipFail_keeps C ?_ | refine State.freeBytes_keeps C ?_
    | refine State.netSend_keeps C ?_ | split | refine pair_keep (by assumption) ?_ | dsimp only

theorem State.keyExhaust_keeps {s : State} {c : Nat} (h : P s) : P (State.keyExhaust s c) := by
  unfold State.keyExhaust
  with_reducible repeat' first | assumption | refine ite_keep ?_ ?_ | refine State.cnEvent_keeps C ?_ | refine C.set ?_

theorem State.cntPkt_keeps {s : State} {c : Nat} (h : P s) : P (State.cntPkt s c) := by
  unfold State.cntPkt
  with_reducible repeat' first | assumption | refine ite_keep ?_ ?_ | refine State.addw_keeps C ?_ | refine State.keyExhaust_keeps C ?_

theorem State.silTs_keeps {s : State} {n : Nat} {used : List Nat} {a : Nat} (h : P s) : P (State.silTs s n used a).1 := by
  fun_induction State.silTs s n used a
  all_goals with_reducible repeat'
    first
    | assumption | refine (by assumption : P _ → P _) ?_ | refine ite_keep ?_ ?_ | refine State.advanceTo_keeps C ?_

theorem State.paceSet_keeps {s : State} {c k n : Nat} (h : P s) : P (State.paceSet s c k n) := by
  unfold State.paceSet
  with_reducible repeat' first | assumption | refine ite_keep ?_ ?_ | refine C.set ?_

theorem State.rtSent_keeps {s : State} {n c i k ts : Nat} (h : P s) : P (State.rtSent s n c i k ts) := by
  unfold State.rtSent
  with_reducible repeat' first | assumption | refine C.set ?_ | refine State.lpush_keeps C ?_ | refine State.addw_keeps C ?_

theorem State.silNew_keeps {s : State} {n c k st op m off len : Nat} {ext : List Nat} {pl : List Nat} {resp : Bool} (h : P s) :
    P (State.silNew s n c k st op m off len ext pl resp) := by
  unfold State.silNew
  with_reducible repeat'
    first
    | assumption | refine State.silTs_keeps C ?_ | refine C.set ?_ | refine C.lset ?_ | refine State.rtSent_keeps C ?_
    | refine State.cntPkt_keeps C ?_ | refine State.paceSet_keeps C ?_ | refine State.silEmit_keeps C ?_

theorem State.silResend_keeps {s : State} {n c i st : Nat} (h : P s) : P (State.silResend s n c i st) := by
  unfold State.silResend
  with_reducible repeat'
    first
    | assumption | refine ite_keep ?_ ?_ | refine State.cnError_keeps C ?_ | refine State.silTs_keeps C ?_ | refine when_keep ?_ ?_
    | refine State.addw_keeps C ?_ | refine State.bump_keeps C ?_ | refine C.set ?_ | refine State.rtSent_keeps C ?_
    | refine State.silEmit_keeps C ?_ | refine State.cntPkt_keeps C ?_ | refine State.paceSet_keeps C ?_ | intro _ | split

theorem State.silCtl_keeps {s : State} {n c path op msg sack ts st : Nat} {ext : List Nat} (h : P s) :
    P (State.silCtl s n c path op msg sack ts st ext) := by
  unfold State.silCtl
  with_reducible repeat'
    first
    | assumption | refine ite_keep ?_ ?_ | refine State.silEmit_keeps C ?_ | refine C.set ?_ | refine State.keyExhaust_keeps C ?_

theorem State.ackSend_keeps {s : State} {n c st : Nat} (h : P s) : P (State.ackSend s n c st) := by
  unfold State.ackSend
  with_reducible repeat' first | assumption | refine C.set ?_ | refine C.drew ?_ | refine State.silCtl_keeps C ?_

theorem State.nakSend_keeps {s : State} {n c path psn msg ts st syn : Nat} (h : P s) :
    P (State.nakSend s n c path psn msg ts st syn) := by
  unfold State.nakSend
  with_reducible repeat'
    first
    | assumption | refine ite_keep ?_ ?_ | refine State.bump_keeps C ?_ | refine State.silCtl_keeps C ?_ | split

theorem State.ackNote_keeps {s : State} {c path ts tuple : Nat} (h : P s) : P (State.ackNote s c path ts tuple) := by
  unfold State.ackNote
  with_reducible repeat' first | assumption | refine C.set ?_

theorem State.rlowAdvance_keeps {s : State} {c a : Nat} (h : P s) : P (State.rlowAdvance s c a) := by
  fun_induction State.rlowAdvance s c a
  all_goals with_reducible repeat'
    first
    | assumption | refine (by assumption : P _ → P _) ?_ | refine ite_keep ?_ ?_ | refine C.set ?_ | refine State.addw_keeps C ?_

theorem State.psnTake_keeps {s : State} {c psn : Nat} (h : P s) : P (State.psnTake s c psn) := by
  unfold State.psnTake
  with_reducible repeat' first | assumption | refine State.rlowAdvance_keeps C ?_ | refine State.setb_keeps C ?_

theorem State.ackCount_keeps {s : State} {n c st : Nat} {now_ : Bool} (h : P s) : P (State.ackCount s n c st now_) := by
  unfold State.ackCount
  with_reducible repeat'
    first
    | assumption | refine ite_keep ?_ ?_ | refine State.addw_keeps C ?_ | refine State.ackSend_keeps C ?_ | refine when_keep ?_ ?_
    | refine C.set ?_ | intro _

theorem State.msgStart_keeps {s : State} {c : Nat} (h : P s) : P (State.msgStart s c) := by
  unfold State.msgStart
  with_reducible repeat'
    first
    | assumption | refine ite_keep ?_ ?_ | refine State.clr_keeps C ?_ | refine C.set ?_ | refine C.lset ?_
    | refine State.lpush_keeps C ?_ | refine when_keep ?_ ?_ | refine State.addw_keeps C ?_ | refine foldl_keep ?_ ?_
    | refine foldl_pair_keep ?_ ?_ | intro _ | split

theorem State.stallOn_keeps {s : State} {n c r a len m : Nat} {resp : Bool} (h : P s) : P (State.stallOn s n c r a len m resp) := by
  unfold State.stallOn
  with_reducible repeat' first | assumption | refine State.bump_keeps C ?_ | refine State.pagesAsk_keeps C ?_ | refine C.set ?_

theorem State.msgFetch_keeps {s : State} {n c m want : Nat} (h : P s) : P (State.msgFetch s n c m want) := by
  unfold State.msgFetch
  with_reducible repeat'
    first
    | assumption | refine ite_keep ?_ ?_ | refine State.keyMiss_keeps C ?_ | refine State.msFail_keeps C ?_ | refine State.addw_keeps C ?_
    | refine State.keyRead_keeps C ?_ | refine State.pagesAsk_keeps C ?_ | refine State.stallOn_keeps C ?_
    | refine State.pagesForget_keeps C ?_ | split | dsimp only

theorem State.msgStep_keeps {s : State} {n c m st : Nat} (h : P s) : P (State.msgStep s n c m st) := by
  unfold State.msgStep
  with_reducible repeat'
    first
    | assumption | refine ite_keep ?_ ?_ | refine State.msgFetch_keeps C ?_ | refine when_keep ?_ ?_ | refine C.set ?_
    | refine State.silNew_keeps C ?_ | refine C.lset ?_ | intro _ | split

theorem State.respKey_keeps {s : State} {n c i right : Nat} {atomic : Bool} (h : P s) : P (State.respKey s n c i right atomic).1 := by
  unfold State.respKey
  with_reducible repeat' first | assumption | refine ite_keep ?_ ?_ | refine State.keyMiss_keeps C ?_ | intro _ | split | dsimp only

theorem State.respNak_keeps {s : State} {c m syn : Nat} (h : P s) : P (State.respNak s c m syn) := by
  unfold State.respNak
  with_reducible repeat' first | assumption | refine C.set ?_

theorem State.respEnd_keeps {s : State} {c m : Nat} (h : P s) : P (State.respEnd s c m) := by
  unfold State.respEnd
  with_reducible repeat' first | assumption | refine C.set ?_ | refine C.lset ?_

theorem State.respStart_keeps {s : State} {n c m : Nat} (h : P s) : P (State.respStart s n c m) := by
  unfold State.respStart
  with_reducible repeat'
    first
    | assumption | refine State.respKey_keeps C ?_ | refine C.set ?_ | refine State.respNak_keeps C ?_ | refine State.readReqP_keeps C ?_
    | refine State.keyRead_keeps C ?_ | refine State.pagesAsk_keeps C ?_ | refine State.pagesForget_keeps C ?_ | split
    | refine pair_keep (by assumption) ?_ | dsimp only

theorem State.respFetch_keeps {s : State} {n c m want : Nat} (h : P s) : P (State.respFetch s n c m want) := by
  unfold State.respFetch
  with_reducible repeat'
    first
    | assumption | refine C.set ?_ | refine State.keyRead_keeps C ?_ | refine State.pagesAsk_keeps C ?_ | refine State.stallOn_keeps C ?_
    | refine State.respNak_keeps C ?_ | refine State.pagesForget_keeps C ?_ | split | dsimp only

theorem State.respStep_keeps {s : State} {n c st : Nat} (h : P s) : P (State.respStep s n c st).1 := by
  unfold State.respStep
  with_reducible repeat'
    first
    | assumption | refine ite_keep ?_ ?_ | refine State.respStart_keeps C ?_ | refine State.silNew_keeps C ?_
    | refine State.respEnd_keeps C ?_ | refine C.set ?_ | refine State.respFetch_keeps C ?_ | refine C.lset ?_ | refine when_keep ?_ ?_
    | intro _ | split | dsimp only

theorem State.msgGot_keeps {s : State} {c m : Nat} {d : Option (List Nat)} (h : P s) : P (State.msgGot s c m d) := by
  unfold State.msgGot
  with_reducible repeat' first | assumption | refine ite_keep ?_ ?_ | refine C.lset ?_ | refine State.msFail_keeps C ?_ | split

theorem State.respGot_keeps {s : State} {c m : Nat} {d : Option (List Nat)} (h : P s) : P (State.respGot s c m d) := by
  unfold State.respGot
  with_reducible repeat'
    first
    | assumption | refine ite_keep ?_ ?_ | refine State.respNak_keeps C ?_ | refine C.lset ?_ | refine C.set ?_
    | refine State.keyWrite_keeps C ?_ | split

theorem State.pathInit_keeps {s : State} {c k : Nat} (h : P s) : P (State.pathInit s c k) := by
  unfold State.pathInit
  with_reducible repeat'
    first
    | assumption | refine State.clr_keeps C ?_ | refine C.set ?_ | refine foldl_keep ?_ ?_ | refine foldl_pair_keep ?_ ?_ | intro _

theorem State.halve_keeps {s : State} {c k : Nat} (h : P s) : P (State.halve s c k) := by
  unfold State.halve
  with_reducible repeat' first | assumption | refine C.set ?_

theorem State.cacheTouch_keeps {s : State} {n c : Nat} (h : P s) : P (State.cacheTouch s n c) := by
  unfold State.cacheTouch
  with_reducible repeat' first | assumption | refine C.set ?_ | refine State.addw_keeps C ?_

theorem State.cacheMiss_keeps {s : State} {n c : Nat} (h : P s) : P (State.cacheMiss s n c) := by
  unfold State.cacheMiss
  with_reducible repeat' first | assumption | refine ite_keep ?_ ?_ | refine State.bump_keeps C ?_ | refine C.set ?_

theorem State.placeGate_keeps {s : State} {r a len : Nat} {write : Bool} (h : P s) : P (State.placeGate s r a len write).1 := by
  unfold State.placeGate
  with_reducible repeat'
    first
    | assumption | refine ite_keep ?_ ?_ | refine State.pagesAsk_keeps C ?_ | refine State.pagesForget_keeps C ?_ | intro _ | split

theorem State.engineTake_keeps {s : State} {x1 : Nat} (h : P s) : P (State.engineTake s x1) := by
  unfold State.engineTake
  with_reducible repeat'
    first
    | assumption | refine C.set ?_ | refine State.freePkt_keeps C ?_ | refine State.txDiverted_keeps C ?_
    | refine State.fragRecord_keeps C ?_

theorem State.chShow_keeps {s : State} {f : Field} {c words r : Nat} (h : P s) : P (State.chShow s f c words r) := by
  unfold State.chShow
  with_reducible repeat' first | assumption | refine each_keep ?_ ?_ | refine C.set ?_ | intro _

theorem State.silRes_keeps {s : State} {ch r : Nat} (h : P s) : P (State.silRes s ch r) := by
  unfold State.silRes
  with_reducible repeat' first | assumption | refine C.set ?_

theorem State.cnLoad_keeps {s : State} {c r : Nat} (h : P s) : P (State.cnLoad s c r) := by
  unfold State.cnLoad
  with_reducible repeat'
    first
    | assumption | refine State.clr_keeps C ?_ | refine C.set ?_ | refine each_keep ?_ ?_ | refine C.lset ?_
    | refine State.pathInit_keeps C ?_ | refine foldl_keep ?_ ?_ | refine foldl_pair_keep ?_ ?_ | intro _

theorem execSilCreate_keeps {ch c : Nat} {s : State} (h : P s) : NextHas P (execSilCreate ch c s) := by
  unfold execSilCreate
  refine next_keep ?_
  with_reducible repeat'
    first
    | assumption | refine ite_keep ?_ ?_ | refine State.silRes_keeps C ?_ | refine State.cnLoad_keeps C ?_ | refine C.set ?_

theorem State.cnModify_keeps {s : State} {c r : Nat} (h : P s) : P (State.cnModify s c r) := by
  unfold State.cnModify
  with_reducible repeat'
    first
    | assumption | refine C.set ?_ | refine when_keep ?_ ?_ | refine each_keep ?_ ?_ | refine State.pathInit_keeps C ?_ | intro _

theorem execSilModify_keeps {ch c : Nat} {s : State} (h : P s) : NextHas P (execSilModify ch c s) := by
  unfold execSilModify
  refine next_keep ?_
  with_reducible repeat' first | assumption | refine ite_keep ?_ ?_ | refine State.silRes_keeps C ?_ | refine State.cnModify_keeps C ?_

theorem State.cnFree_keeps {s : State} {c : Nat} (h : P s) : P (State.cnFree s c) := by
  unfold State.cnFree
  with_reducible repeat' first | assumption | refine each_keep ?_ ?_ | refine C.set ?_ | refine State.silRes_keeps C ?_ | intro _

theorem execSilDestroy_keeps {ch c : Nat} {s : State} (h : P s) : NextHas P (execSilDestroy ch c s) := by
  unfold execSilDestroy
  refine next_keep ?_
  with_reducible repeat'
    first
    | assumption | refine ite_keep ?_ ?_ | refine State.silRes_keeps C ?_ | refine C.set ?_ | refine State.cnFlush_keeps C ?_
    | refine State.cnFree_keeps C ?_

theorem execConnectionRelease_keeps {c : Nat} {s : State} (h : P s) : NextHas P (execConnectionRelease c s) := by
  unfold execConnectionRelease
  refine next_keep ?_
  with_reducible repeat' first | assumption | refine ite_keep ?_ ?_ | refine State.cnFree_keeps C ?_

theorem execSilQuery_keeps {ch c : Nat} {s : State} (h : P s) : NextHas P (execSilQuery ch c s) := by
  unfold execSilQuery
  refine next_keep ?_
  with_reducible repeat'
    first
    | assumption | refine ite_keep ?_ ?_ | refine C.set ?_ | refine State.chShow_keeps C ?_ | refine State.silRes_keeps C ?_

theorem execContextCacheFill_keeps {n c : Nat} {s : State} (h : P s) : NextHas P (execContextCacheFill n c s) := by
  unfold execContextCacheFill
  refine next_keep ?_
  with_reducible repeat'
    first
    | assumption | refine ite_keep ?_ ?_ | refine State.cacheTouch_keeps C ?_ | refine C.set ?_ | refine foldl_keep ?_ ?_
    | refine foldl_pair_keep ?_ ?_ | intro _ | split

theorem State.silStep_keeps {s : State} {n c st : Nat} (h : P s) : P (State.silStep s n c st) := by
  unfold State.silStep
  with_reducible repeat'
    first
    | assumption | refine ite_keep ?_ ?_ | refine State.respEnd_keeps C ?_ | refine State.nakSend_keeps C ?_
    | refine State.silResend_keeps C ?_ | refine State.respStep_keeps C ?_ | refine when_keep ?_ ?_ | refine State.msgStart_keeps C ?_
    | refine State.msgStep_keeps C ?_ | intro _ | split | refine pair_keep (by assumption) ?_ | dsimp only

theorem State.silOpen_keeps {s : State} {n c : Nat} {x : SilHdr} {agree : Bool} (h : P s) : P (State.silOpen s n c x agree).1 := by
  unfold State.silOpen
  with_reducible repeat'
    first
    | assumption | refine ite_keep ?_ ?_ | refine State.cipUse_keeps C ?_ | refine State.freeBytes_keeps C ?_ | intro _ | split
    | refine pair_keep (by assumption) ?_ | dsimp only

theorem State.recvDone_keeps {s : State} {c m : Nat} (h : P s) : P (State.recvDone s c m) := by
  unfold State.recvDone
  with_reducible repeat' first | assumption | refine ite_keep ?_ ?_ | refine State.workDone_keeps C ?_ | refine C.set ?_

theorem State.bufUsed_keeps {s : State} {c m : Nat} (h : P s) : P (State.bufUsed s c m) := by
  unfold State.bufUsed
  with_reducible repeat' first | assumption | refine ite_keep ?_ ?_ | refine State.addw_keeps C ?_ | refine C.lset ?_

theorem State.immDone_keeps {s : State} {c m : Nat} (h : P s) : P (State.immDone s c m) := by
  unfold State.immDone
  with_reducible repeat'
    first
    | assumption | refine C.drew ?_ | refine C.set ?_ | refine State.cplPost_keeps C ?_ | refine State.reserve_keeps C ?_
    | refine State.workDone_keeps C ?_ | split | dsimp only

theorem State.rmFinish_keeps {s : State} {c m : Nat} (h : P s) : P (State.rmFinish s c m) := by
  unfold State.rmFinish
  with_reducible repeat'
    first
    | assumption | refine ite_keep ?_ ?_ | refine C.set ?_ | refine C.lset ?_ | refine State.bufUsed_keeps C ?_ | refine when_keep ?_ ?_
    | refine State.recvDone_keeps C ?_ | refine State.immDone_keeps C ?_ | refine State.lpush_keeps C ?_ | intro _ | split | dsimp only

theorem State.rmAdvance_keeps {s : State} {c a : Nat} (h : P s) : P (State.rmAdvance s c a) := by
  fun_induction State.rmAdvance s c a
  all_goals with_reducible repeat'
    first
    | assumption | refine (by assumption : P _ → P _) ?_ | refine ite_keep ?_ ?_ | refine State.rmFinish_keeps C ?_
    | refine State.addw_keeps C ?_

theorem State.rmSeen_keeps {s : State} {c : Nat} {x : SilHdr} (h : P s) : P (State.rmSeen s c x) := by
  unfold State.rmSeen
  with_reducible repeat'
    first
    | assumption | refine ite_keep ?_ ?_ | refine State.clr_keeps C ?_ | refine C.set ?_ | refine foldl_keep ?_ ?_
    | refine foldl_pair_keep ?_ ?_ | intro _

theorem State.rmRefuse_keeps {s : State} {c : Nat} {x : SilHdr} (h : P s) : P (State.rmRefuse s c x) := by
  unfold State.rmRefuse
  with_reducible repeat' first | assumption | refine C.set ?_ | refine State.rmSeen_keeps C ?_

theorem State.placeKey_keeps {s : State} {n c : Nat} {conn : Option Nat} {key a right : Nat} {pl : List Nat} (h : P s) :
    P (State.placeKey s n c conn key a right pl).1 := by
  unfold State.placeKey
  with_reducible repeat'
    first
    | assumption | refine ite_keep ?_ ?_ | refine State.keyMiss_keeps C ?_ | refine State.placeGate_keeps C ?_
    | refine State.keyWrite_keeps C ?_ | intro _ | split | refine pair_keep (by assumption) ?_ | dsimp only

theorem State.sendPlace_keeps {s : State} {n c : Nat} {x : SilHdr} {pl : List Nat} (h : P s) : P (State.sendPlace s n c x pl).1 := by
  unfold State.sendPlace
  with_reducible repeat'
    first
    | assumption | refine ite_keep ?_ ?_ | refine State.rmSeen_keeps C ?_ | refine C.lset ?_ | refine State.workDone_keeps C ?_
    | refine C.set ?_ | refine State.rmRefuse_keeps C ?_ | refine State.placeKey_keeps C ?_ | refine when_keep ?_ ?_
    | refine State.cqPause_keeps C ?_ | refine State.reserve_keeps C ?_ | intro _ | split | refine pair_keep (by assumption) ?_

theorem State.reqNote_keeps {s : State} {c : Nat} {x : SilHdr} (h : P s) : P (State.reqNote s c x) := by
  unfold State.reqNote
  with_reducible repeat' first | assumption | refine C.set ?_

theorem State.msgPlace_keeps {s : State} {n c : Nat} {x : SilHdr} {pl : List Nat} (h : P s) : P (State.msgPlace s n c x pl).1 := by
  unfold State.msgPlace
  with_reducible repeat'
    first
    | assumption | refine ite_keep ?_ ?_ | refine State.sendPlace_keeps C ?_ | refine State.placeKey_keeps C ?_ | refine when_keep ?_ ?_
    | refine State.rmSeen_keeps C ?_ | refine C.set ?_ | refine State.rmRefuse_keeps C ?_ | refine State.reqNote_keeps C ?_
    | refine State.keyMiss_keeps C ?_ | refine State.placeGate_keeps C ?_ | intro _ | split | refine pair_keep (by assumption) ?_
    | dsimp only

theorem State.msgAnswered_keeps {s : State} {c m st : Nat} (h : P s) : P (State.msgAnswered s c m st) := by
  unfold State.msgAnswered
  with_reducible repeat'
    first
    | assumption | refine C.set ?_ | refine State.msDrop_keeps C ?_ | refine when_keep ?_ ?_ | refine State.workDone_keeps C ?_ | intro _

theorem State.respPlace_keeps {s : State} {n c : Nat} {x : SilHdr} {pl : List Nat} (h : P s) : P (State.respPlace s n c x pl).1 := by
  unfold State.respPlace
  with_reducible repeat'
    first
    | assumption | refine ite_keep ?_ ?_ | refine C.set ?_ | refine State.msgAnswered_keeps C ?_ | refine State.placeKey_keeps C ?_
    | refine State.addw_keeps C ?_ | refine when_keep ?_ ?_ | refine State.msFail_keeps C ?_ | intro _ | split
    | refine pair_keep (by assumption) ?_ | dsimp only

theorem State.silAccept_keeps {s : State} {n c x3 st : Nat} {x : SilHdr} {pl : List Nat} (h : P s) :
    P (State.silAccept s n c x3 st x pl) := by
  unfold State.silAccept
  with_reducible repeat'
    first
    | assumption | refine ite_keep ?_ ?_ | refine State.engineTake_keeps C ?_ | refine State.bump_keeps C ?_
    | refine State.respPlace_keeps C ?_ | refine State.msgPlace_keeps C ?_ | refine State.psnTake_keeps C ?_
    | refine State.ackNote_keeps C ?_ | refine when_keep ?_ ?_ | refine State.addw_keeps C ?_ | refine State.ackCount_keeps C ?_
    | refine State.rmAdvance_keeps C ?_ | refine State.nakSend_keeps C ?_ | intro _ | split | refine pair_keep (by assumption) ?_
    | dsimp only

theorem State.silTake_keeps {s : State} {n x2 : Nat} {agree : Bool} {ctl : Nat → Bool} (h : P s) :
    P (State.silTake s n x2 agree ctl).1 := by
  unfold State.silTake
  with_reducible repeat'
    first
    | assumption | refine ite_keep ?_ ?_ | refine State.engineTake_keeps C ?_ | refine State.bump_keeps C ?_
    | refine State.cacheMiss_keeps C ?_ | refine State.txKey_keeps C ?_ | refine State.cacheTouch_keeps C ?_
    | refine State.silOpen_keeps C ?_ | refine State.dropPkt_keeps C ?_ | refine State.cipFail_keeps C ?_ | refine C.set ?_ | intro _
    | split | refine pair_keep (by assumption) ?_ | dsimp only

theorem State.silData_keeps {s : State} {n c x3 st : Nat} {x : SilHdr} {pl : List Nat} (h : P s) :
    P (State.silData s n c x3 st x pl) := by
  unfold State.silData
  with_reducible repeat'
    first
    | assumption | refine ite_keep ?_ ?_ | refine State.ackNote_keeps C ?_ | refine State.bump_keeps C ?_ | refine when_keep ?_ ?_
    | refine State.lpush_keeps C ?_ | refine C.set ?_ | refine State.engineTake_keeps C ?_ | refine State.ackSend_keeps C ?_
    | refine State.silAccept_keeps C ?_ | intro _

theorem execSillagePacketReceive_keeps {n x1 : Nat} {agree : Bool} {s : State} (h : P s) :
    NextHas P (execSillagePacketReceive n x1 agree s) := by
  unfold execSillagePacketReceive
  refine next_keep ?_
  with_reducible repeat'
    first
    | assumption | refine ite_keep ?_ ?_ | refine State.stageNext_keeps C ?_ | refine State.silTake_keeps C ?_
    | refine State.silData_keeps C ?_ | split | refine pair_keep (by assumption) ?_

theorem execAckDelayExpiry_keeps {c : Nat} {s : State} (h : P s) : NextHas P (execAckDelayExpiry c s) := by
  unfold execAckDelayExpiry
  refine next_keep ?_
  with_reducible repeat'
    first
    | assumption | refine ite_keep ?_ ?_ | refine State.advanceTo_keeps C ?_ | refine State.txKey_keeps C ?_
    | refine State.ackSend_keeps C ?_ | split | refine pair_keep (by assumption) ?_ | dsimp only

theorem State.laterThan_keeps {s : State} {c j : Nat} (h : P s) : P (State.laterThan s c j) := by
  unfold State.laterThan
  with_reducible repeat' first | assumption | refine ite_keep ?_ ?_ | refine each_keep ?_ ?_ | refine C.set ?_ | intro _

theorem State.rttSample_keeps {s : State} {c k rtt : Nat} (h : P s) : P (State.rttSample s c k rtt) := by
  unfold State.rttSample
  with_reducible repeat' first | assumption | refine ite_keep ?_ ?_ | refine C.set ?_

theorem State.rateCtl_keeps {s : State} {c k d target acked : Nat} {cur : Field} {prev : Field} (h : P s) :
    P (State.rateCtl s c k d target acked cur prev) := by
  unfold State.rateCtl
  with_reducible repeat' first | assumption | refine ite_keep ?_ ?_ | refine C.set ?_

theorem State.ackSamples_keeps {s : State} {n c k : Nat} {x : SilHdr} {rx acked : Nat} {unc : Option Nat} (h : P s) :
    P (State.ackSamples s n c k x rx acked unc) := by
  unfold State.ackSamples
  with_reducible repeat'
    first
    | assumption | refine ite_keep ?_ ?_ | refine State.rttSample_keeps C ?_ | refine State.rateCtl_keeps C ?_
    | refine State.bump_keeps C ?_ | refine C.set ?_

theorem State.msgReap_keeps {s : State} {c : Nat} (h : P s) : P (State.msgReap s c) := by
  unfold State.msgReap
  with_reducible repeat' first | assumption | refine ite_keep ?_ ?_ | refine each_keep ?_ ?_ | refine State.msDrop_keeps C ?_ | intro _

theorem State.ackTaken_keeps {s : State} {n c x3 : Nat} {x : SilHdr} (h : P s) : P (State.ackTaken s n c x3 x) := by
  unfold State.ackTaken
  with_reducible repeat'
    first
    | assumption | refine each_keep ?_ ?_ | refine State.laterThan_keeps C ?_ | refine C.set ?_ | refine State.unaAdvance_keeps C ?_
    | refine State.rtAck_keeps C ?_ | refine State.msSent_keeps C ?_ | refine State.msgReap_keeps C ?_
    | refine State.engineTake_keeps C ?_ | refine State.ackSamples_keeps C ?_ | refine State.cnEvent_keeps C ?_
    | refine State.pathInit_keeps C ?_ | intro _

theorem execAckReceive_keeps {n x1 : Nat} {agree : Bool} {s : State} (h : P s) : NextHas P (execAckReceive n x1 agree s) := by
  unfold execAckReceive
  refine next_keep ?_
  with_reducible repeat'
    first
    | assumption | refine ite_keep ?_ ?_ | refine State.silTake_keeps C ?_ | refine State.ackTaken_keeps C ?_ | split
    | refine pair_keep (by assumption) ?_

theorem State.nakTaken_keeps {s : State} {c x2 : Nat} {x : SilHdr} (h : P s) : P (State.nakTaken s c x2 x) := by
  unfold State.nakTaken
  with_reducible repeat'
    first
    | assumption | refine ite_keep ?_ ?_ | refine when_keep ?_ ?_ | refine C.set ?_ | refine each_keep ?_ ?_
    | refine State.unaAdvance_keeps C ?_ | refine State.rtAck_keeps C ?_ | refine State.msFail_keeps C ?_ | refine State.addw_keeps C ?_
    | refine State.engineTake_keeps C ?_ | intro _ | split

theorem execNakReceive_keeps {n x1 : Nat} {agree : Bool} {s : State} (h : P s) : NextHas P (execNakReceive n x1 agree s) := by
  unfold execNakReceive
  refine next_keep ?_
  with_reducible repeat'
    first
    | assumption | refine ite_keep ?_ ?_ | refine State.silTake_keeps C ?_ | refine State.nakTaken_keeps C ?_ | split
    | refine pair_keep (by assumption) ?_

theorem execRetryAfterResend_keeps {c psn : Nat} {s : State} (h : P s) : NextHas P (execRetryAfterResend c psn s) := by
  unfold execRetryAfterResend
  refine next_keep ?_
  with_reducible repeat' first | assumption | refine ite_keep ?_ ?_ | refine C.set ?_ | refine State.advanceTo_keeps C ?_

theorem State.pathRetire_keeps {s : State} {n c k : Nat} (h : P s) : P (State.pathRetire s n c k) := by
  unfold State.pathRetire
  with_reducible repeat'
    first
    | assumption | refine ite_keep ?_ ?_ | refine State.bump_keeps C ?_ | refine C.set ?_ | refine State.cnEvent_keeps C ?_
    | refine State.cnError_keeps C ?_

theorem execRetransmitTimeout_keeps {c k : Nat} {s : State} (h : P s) : NextHas P (execRetransmitTimeout c k s) := by
  unfold execRetransmitTimeout
  refine next_keep ?_
  with_reducible repeat'
    first
    | assumption | refine ite_keep ?_ ?_ | refine State.advanceTo_keeps C ?_ | refine State.halve_keeps C ?_ | refine each_keep ?_ ?_
    | refine C.set ?_ | refine State.addw_keeps C ?_ | refine State.cnError_keeps C ?_ | refine State.pathRetire_keeps C ?_
    | refine foldl_keep ?_ ?_ | refine foldl_pair_keep ?_ ?_ | intro _

theorem execProbe_keeps {c k : Nat} {agree : Bool} {s : State} (h : P s) : NextHas P (execProbe c k agree s) := by
  unfold execProbe
  refine next_keep ?_
  with_reducible repeat'
    first
    | assumption | refine ite_keep ?_ ?_ | refine State.advanceTo_keeps C ?_ | refine State.txKey_keeps C ?_
    | refine State.silNew_keeps C ?_ | refine C.set ?_ | refine C.drew ?_ | split | refine pair_keep (by assumption) ?_ | extract_lets

theorem execBaseWindowRoll_keeps {c : Nat} {s : State} (h : P s) : NextHas P (execBaseWindowRoll c s) := by
  unfold execBaseWindowRoll
  refine next_keep ?_
  with_reducible repeat' first | assumption | refine State.advanceTo_keeps C ?_ | refine each_keep ?_ ?_ | refine C.set ?_ | intro _

theorem execRegisterMkey_keeps {ch k v : Nat} {s : State} (h : P s) : NextHas P (execRegisterMkey ch k v s) := by
  unfold execRegisterMkey
  refine next_keep ?_
  with_reducible repeat'
    first
    | assumption | refine ite_keep ?_ ?_ | refine State.mkyRes_keeps C ?_ | refine State.mwrite_keeps C ?_ | split

theorem execInvalidateMkey_keeps {ch k v : Nat} {s : State} (h : P s) : NextHas P (execInvalidateMkey ch k v s) := by
  unfold execInvalidateMkey
  refine next_keep ?_
  with_reducible repeat'
    first
    | assumption | refine ite_keep ?_ ?_ | refine State.mkyRes_keeps C ?_ | refine State.mkRevoke_keeps C ?_ | refine C.set ?_

theorem execRevokeAt_keeps {k : Nat} {s : State} (h : P s) : NextHas P (execRevokeAt k s) := by
  unfold execRevokeAt
  refine next_keep ?_
  with_reducible repeat' first | assumption | refine ite_keep ?_ ?_ | refine State.advanceTo_keeps C ?_

theorem State.mkDropPages_keeps {s : State} {k : Nat} (h : P s) : P (State.mkDropPages s k) := by
  unfold State.mkDropPages
  with_reducible repeat' first | assumption | refine ite_keep ?_ ?_ | refine State.atcDrop_keeps C ?_

theorem State.mkDone_keeps {s : State} {k : Nat} (h : P s) : P (State.mkDone s k) := by
  unfold State.mkDone
  with_reducible repeat'
    first
    | assumption | refine ite_keep ?_ ?_ | refine C.set ?_ | refine State.mkDropPages_keeps C ?_ | refine State.mkSetState_keeps C ?_
    | refine each_keep ?_ ?_ | refine State.mkyRes_keeps C ?_ | intro _

theorem execMkeyInvalidateComplete_keeps {k : Nat} {s : State} (h : P s) : NextHas P (execMkeyInvalidateComplete k s) := by
  unfold execMkeyInvalidateComplete
  refine next_keep ?_
  with_reducible repeat' first | assumption | refine ite_keep ?_ ?_ | refine State.advanceTo_keeps C ?_ | refine State.mkDone_keeps C ?_

theorem execMkyQuery_keeps {ch k : Nat} {s : State} (h : P s) : NextHas P (execMkyQuery ch k s) := by
  unfold execMkyQuery
  refine next_keep ?_
  with_reducible repeat' first | assumption | refine ite_keep ?_ ?_ | refine State.mkyRes_keeps C ?_ | refine State.chShow_keeps C ?_

theorem execPrefetch_keeps {ch k v : Nat} {s : State} (h : P s) : NextHas P (execPrefetch ch k v s) := by
  unfold execPrefetch
  refine next_keep ?_
  with_reducible repeat'
    first
    | assumption | refine ite_keep ?_ ?_ | refine State.mkyRes_keeps C ?_ | refine State.pfStep_keeps C ?_ | refine C.set ?_

theorem execKeyRecordFill_keeps {n k : Nat} {s : State} (h : P s) : NextHas P (execKeyRecordFill n k s) := by
  unfold execKeyRecordFill
  refine next_keep ?_
  with_reducible repeat' first | assumption | refine ite_keep ?_ ?_ | refine C.set ?_ | refine C.drew ?_

theorem execAtsTranslationComplete_keeps {e f pasid page addr perm : Nat} {s : State} (h : P s) :
    NextHas P (execAtsTranslationComplete e f pasid page addr perm s) := by
  unfold execAtsTranslationComplete
  refine next_keep ?_
  with_reducible repeat'
    first
    | assumption | refine ite_keep ?_ ?_ | refine State.pfAll_keeps C ?_ | refine State.priAsk_keeps C ?_ | refine C.set ?_
    | refine State.atcRoom_keeps C ?_ | refine each_keep ?_ ?_ | refine when_keep ?_ ?_ | intro _

theorem execAtsInvalidation_keeps {e f pasid page n : Nat} {s : State} (h : P s) :
    NextHas P (execAtsInvalidation e f pasid page n s) := by
  unfold execAtsInvalidation
  refine next_keep ?_
  with_reducible repeat'
    first
    | assumption | refine State.atcDrop_keeps C ?_ | refine State.atsInvDone_keeps C ?_ | refine State.addw_keeps C ?_

theorem State.priEnd_keeps {s : State} {e i : Nat} (h : P s) : P (State.priEnd s e i) := by
  unfold State.priEnd
  with_reducible repeat'
    first
    | assumption | refine ite_keep ?_ ?_ | refine C.set ?_ | refine each_keep ?_ ?_ | refine State.priAsk_keeps C ?_ | intro _

theorem State.priFail_keeps {s : State} {e i : Nat} (h : P s) : P (State.priFail s e i) := by
  unfold State.priFail
  with_reducible repeat'
    first
    | assumption | refine ite_keep ?_ ?_ | refine each_keep ?_ ?_ | refine C.set ?_ | refine State.respNak_keeps C ?_
    | refine State.msFail_keeps C ?_ | refine State.pfAll_keeps C ?_ | intro _

theorem execPriResponse_keeps {e f pasid page code : Nat} {s : State} (h : P s) : NextHas P (execPriResponse e f pasid page code s) := by
  unfold execPriResponse
  refine next_keep ?_
  with_reducible repeat'
    first
    | assumption | refine ite_keep ?_ ?_ | refine State.priEnd_keeps C ?_ | refine State.atsAsk_keeps C ?_ | refine C.set ?_
    | refine when_keep ?_ ?_ | refine State.priFail_keeps C ?_ | refine State.bump_keeps C ?_ | intro _

theorem execPriTimeout_keeps {e f pasid page : Nat} {s : State} (h : P s) : NextHas P (execPriTimeout e f pasid page s) := by
  unfold execPriTimeout
  refine next_keep ?_
  with_reducible repeat'
    first
    | assumption | refine ite_keep ?_ ?_ | refine State.advanceTo_keeps C ?_ | refine State.priFail_keeps C ?_
    | refine State.priEnd_keeps C ?_ | refine State.bump_keeps C ?_

end Sys2Proof.Machine
end

