-- ==== Sys2Proof/Laws/KeepStorage.lean ====
section
/-! SUPPORT. What every primitive operation keeps, the operations of storage, keys, rings, tenants and cores keep: one lemma for each. -/

namespace Sys2Proof.Machine

variable {P : State → Prop} (C : Closed P)
include C

theorem State.cmdWriteOut_go_keeps {e f : Nat} {s : State} {d : List Nat} {a : List Nat} (h : P s) :
    P (State.cmdWriteOut.go e f s d a) := by
  fun_induction State.cmdWriteOut.go e f s d a
  all_goals with_reducible repeat' first | assumption | refine (by assumption : P _ → P _) ?_ | refine State.hostWriteD_keeps C ?_

theorem State.cmdWriteOut_keeps {s : State} {id : Nat} (h : P s) : P (State.cmdWriteOut s id) := by
  unfold State.cmdWriteOut
  with_reducible repeat' first | assumption | refine State.cmdWriteOut_go_keeps C ?_

theorem State.cmdUnsend_keeps {s : State} {id : Nat} (h : P s) : P (State.cmdUnsend s id) := by
  unfold State.cmdUnsend
  with_reducible repeat' first | assumption | refine ite_keep ?_ ?_ | refine C.set ?_

theorem State.cmdFinish_keeps {s : State} {id status dw0 : Nat} (h : P s) : P (State.cmdFinish s id status dw0) := by
  unfold State.cmdFinish
  with_reducible repeat'
    first
    | assumption | refine ite_keep ?_ ?_ | refine C.set ?_ | refine State.cmdUnsend_keeps C ?_ | refine when_keep ?_ ?_
    | refine State.cmdWriteOut_keeps C ?_ | refine State.cmdDone_keeps C ?_ | intro _

theorem State.tcpSend_keeps {s : State} {b q id : Nat} {pdu : List Nat} (h : P s) : P (State.tcpSend s b q id pdu) := by
  unfold State.tcpSend
  with_reducible repeat'
    first
    | assumption | refine ite_keep ?_ ?_ | refine State.addw_keeps C ?_ | refine C.lset ?_ | refine C.emit ?_ | split

theorem State.silCmdSend_keeps {s : State} {c t : Nat} {bytes : List Nat} (h : P s) : P (State.silCmdSend s c t bytes) := by
  unfold State.silCmdSend
  with_reducible repeat' first | assumption | refine C.set ?_ | refine C.lset ?_ | refine State.lpush_keeps C ?_

theorem State.cmdSend_keeps {s : State} {id b q : Nat} (h : P s) : P (State.cmdSend s id b q) := by
  unfold State.cmdSend
  with_reducible repeat'
    first
    | assumption | refine ite_keep ?_ ?_ | refine C.set ?_ | refine State.addw_keeps C ?_ | refine State.silCmdSend_keeps C ?_
    | refine State.tcpSend_keeps C ?_

theorem State.orderWait_keeps {s : State} {id : Nat} (h : P s) : P (State.orderWait s id) := by
  unfold State.orderWait
  with_reducible repeat'
    first
    | assumption | refine ite_keep ?_ ?_ | refine C.set ?_ | refine State.bump_keeps C ?_ | refine State.addw_keeps C ?_

theorem State.flushPart_keeps {s : State} {k b bns region nsrec parent : Nat} (h : P s) :
    P (State.flushPart s k b bns region nsrec parent).1 := by
  unfold State.flushPart
  with_reducible repeat' first | assumption | refine C.set ?_

theorem State.tlsUse_keeps {s : State} {id q : Nat} (h : P s) : P (State.tlsUse s id q).1 := by
  unfold State.tlsUse
  with_reducible repeat'
    first
    | assumption | refine ite_keep ?_ ?_ | refine State.cipNeed_keeps C ?_ | intro _ | split | refine pair_keep (by assumption) ?_
    | dsimp only

theorem State.cmdTry_keeps {s : State} {id : Nat} (h : P s) : P (State.cmdTry s id) := by
  unfold State.cmdTry
  with_reducible repeat'
    first
    | assumption | refine ite_keep ?_ ?_ | refine State.orderWait_keeps C ?_ | refine State.cmdSend_keeps C ?_ | split | dsimp only

theorem State.flushTry_keeps {s : State} {id : Nat} (h : P s) : P (State.flushTry s id) := by
  unfold State.flushTry
  with_reducible repeat'
    first
    | assumption | refine ite_keep ?_ ?_ | refine State.cmdFinish_keeps C ?_ | refine State.flushPart_keeps C ?_
    | refine State.cmdTry_keeps C ?_ | refine State.lpush_keeps C ?_ | refine foldl_keep ?_ ?_ | refine foldl_pair_keep ?_ ?_ | intro _
    | split | refine pair_keep (by assumption) ?_ | dsimp only

theorem State.storeKick_keeps {s : State} (h : P s) : P (State.storeKick s) := by
  unfold State.storeKick
  with_reducible repeat'
    first
    | assumption | refine each_keep ?_ ?_ | refine State.cmdTry_keeps C ?_ | refine State.flushTry_keeps C ?_ | intro _

theorem State.detachStep_keeps {s : State} {k : Nat} (h : P s) : P (State.detachStep s k) := by
  unfold State.detachStep
  with_reducible repeat'
    first
    | assumption | refine ite_keep ?_ ?_ | refine each_keep ?_ ?_ | refine State.nsEvent_keeps C ?_ | refine C.set ?_ | intro _

theorem State.shnStep_keeps {s : State} {k : Nat} (h : P s) : P (State.shnStep s k) := by
  unfold State.shnStep
  with_reducible repeat'
    first
    | assumption | refine ite_keep ?_ ?_ | refine C.set ?_ | refine State.flushPart_keeps C ?_ | refine State.cmdTry_keeps C ?_
    | refine State.lpush_keeps C ?_ | refine foldl_keep ?_ ?_ | refine foldl_pair_keep ?_ ?_ | intro _

theorem State.ctrlAfter_keeps {s : State} {k : Nat} (h : P s) : P (State.ctrlAfter s k) := by
  unfold State.ctrlAfter
  with_reducible repeat'
    first
    | assumption | refine ite_keep ?_ ?_ | refine State.shnStep_keeps C ?_ | refine State.detachStep_keeps C ?_
    | refine State.storeKick_keeps C ?_ | refine State.ctrlResetEnd_keeps C ?_

theorem State.cmdEnd_keeps {s : State} {id status dw0 : Nat} (h : P s) : P (State.cmdEnd s id status dw0) := by
  unfold State.cmdEnd
  with_reducible repeat' first | assumption | refine State.ctrlAfter_keeps C ?_ | refine State.cmdFinish_keeps C ?_

theorem State.partEnd_keeps {s : State} {id status : Nat} (h : P s) : P (State.partEnd s id status) := by
  unfold State.partEnd
  with_reducible repeat'
    first
    | assumption | refine ite_keep ?_ ?_ | refine C.set ?_ | refine State.cmdUnsend_keeps C ?_ | refine State.ctrlAfter_keeps C ?_
    | refine C.lset ?_ | refine when_keep ?_ ?_ | refine State.cmdEnd_keeps C ?_ | intro _

theorem State.cmdOver_keeps {s : State} {id status dw0 : Nat} (h : P s) : P (State.cmdOver s id status dw0) := by
  unfold State.cmdOver
  with_reducible repeat'
    first
    | assumption | refine ite_keep ?_ ?_ | refine when_keep ?_ ?_ | refine State.bump_keeps C ?_ | refine State.partEnd_keeps C ?_
    | refine State.cmdEnd_keeps C ?_ | intro _

theorem State.ctrlResume_keeps {s : State} {k : Nat} (h : P s) : P (State.ctrlResume s k) := by
  unfold State.ctrlResume
  with_reducible repeat'
    first
    | assumption | refine ite_keep ?_ ?_ | refine each_keep ?_ ?_ | refine State.cmdFinish_keeps C ?_ | refine State.aerPost_keeps C ?_
    | refine C.lset ?_ | refine State.ctrlAfter_keeps C ?_ | intro _ | split

theorem State.storeRegionLost_keeps {s : State} {n : Nat} (h : P s) : P (State.storeRegionLost s n) := by
  unfold State.storeRegionLost
  with_reducible repeat' first | assumption | refine each_keep ?_ ?_ | refine State.cmdOver_keeps C ?_ | intro _

theorem State.ptrAdd_keeps {s : State} {id a n : Nat} (h : P s) : P (State.ptrAdd s id a n) := by
  unfold State.ptrAdd
  with_reducible repeat' first | assumption | refine ite_keep ?_ ?_ | refine State.addw_keeps C ?_ | refine C.lset ?_

theorem State.ptrReads_go_keeps {id e f : Nat} {s : State} {o : Nat} {a : List Nat} (h : P s) : P (State.ptrReads.go id e f s o a) := by
  fun_induction State.ptrReads.go id e f s o a
  all_goals with_reducible repeat' first | assumption | refine (by assumption : P _ → P _) ?_ | refine State.readReq_keeps C ?_

theorem State.ptrReads_keeps {s : State} {id : Nat} (h : P s) : P (State.ptrReads s id) := by
  unfold State.ptrReads
  with_reducible repeat' first | assumption | refine State.ptrReads_go_keeps C ?_ | refine C.lset ?_ | refine C.set ?_

theorem State.ptrsDone_keeps {s : State} {id : Nat} (h : P s) : P (State.ptrsDone s id) := by
  unfold State.ptrsDone
  with_reducible repeat' first | assumption | refine ite_keep ?_ ?_ | refine State.ptrReads_keeps C ?_ | refine State.cmdEnd_keeps C ?_

theorem State.prpTake_keeps {s : State} {id : Nat} {a : List Nat} (h : P s) : P (State.prpTake s id a) := by
  unfold State.prpTake
  with_reducible repeat'
    first
    | assumption | refine ite_keep ?_ ?_ | refine State.ptrAdd_keeps C ?_ | refine State.ptrsDone_keeps C ?_
    | refine State.readReq_keeps C ?_ | refine C.set ?_ | refine foldl_keep ?_ ?_ | refine foldl_pair_keep ?_ ?_ | intro _ | split

theorem State.sglTake_keeps {s : State} {id a : Nat} {x3 : List Nat} (h : P s) : P (State.sglTake s id a x3) := by
  fun_induction State.sglTake s id a x3
  all_goals with_reducible repeat'
    first
    | assumption | refine (by assumption : P _ → P _) ?_ | refine ite_keep ?_ ?_ | refine State.ptrsDone_keeps C ?_
    | refine State.cmdOver_keeps C ?_ | refine State.ptrAdd_keeps C ?_ | refine State.readReq_keeps C ?_ | split | omega
    | (exact absurd ‹l.getD 15 0 = 0› ‹_›) | contradiction

theorem State.dptrStart_keeps {s : State} {id dir len : Nat} (h : P s) : P (State.dptrStart s id dir len) := by
  unfold State.dptrStart
  with_reducible repeat'
    first
    | assumption | refine ite_keep ?_ ?_ | refine C.set ?_ | refine C.lset ?_ | refine State.ptrsDone_keeps C ?_
    | refine State.ptrAdd_keeps C ?_ | refine State.cmdOver_keeps C ?_ | refine State.readReq_keeps C ?_ | refine State.sglTake_keeps C ?_

theorem State.dsmRanges_keeps {s : State} {id : Nat} (h : P s) : P (State.dsmRanges s id) := by
  unfold State.dsmRanges
  with_reducible repeat'
    first
    | assumption | refine ite_keep ?_ ?_ | refine State.cmdOver_keeps C ?_ | refine State.storeKick_keeps C ?_ | refine C.lset ?_

theorem State.fwTake_keeps {s : State} {id : Nat} (h : P s) : P (State.fwTake s id) := by
  unfold State.fwTake
  with_reducible repeat' first | assumption | refine State.cmdOver_keeps C ?_ | refine C.lset ?_

theorem State.storeRead_keeps {s : State} {id y : Nat} {d : Option (List Nat)} (h : P s) : P (State.storeRead s id y d) := by
  unfold State.storeRead
  with_reducible repeat'
    first
    | assumption | refine ite_keep ?_ ?_ | refine State.cmdOver_keeps C ?_ | refine State.prpTake_keeps C ?_
    | refine State.sglTake_keeps C ?_ | refine C.lset ?_ | refine C.set ?_ | refine State.dsmRanges_keeps C ?_
    | refine State.fwTake_keeps C ?_ | split

theorem State.nvmeFetch1_keeps {s : State} {k : Nat} (h : P s) : P (State.nvmeFetch1 s k) := by
  unfold State.nvmeFetch1
  with_reducible repeat'
    first
    | assumption | refine ite_keep ?_ ?_ | refine C.set ?_ | refine when_keep ?_ ?_ | refine State.addw_keeps C ?_
    | refine State.ctrlCount_keeps C ?_ | refine State.lpush_keeps C ?_ | refine State.readReq_keeps C ?_ | intro _ | split

theorem State.sqeGot_keeps {s : State} {id : Nat} {d : Option (List Nat)} (h : P s) : P (State.sqeGot s id d) := by
  unfold State.sqeGot
  with_reducible repeat'
    first
    | assumption | refine ite_keep ?_ ?_ | refine State.ctrlAfter_keeps C ?_ | refine C.set ?_ | refine State.setb_keeps C ?_
    | refine State.cmdDrop_keeps C ?_ | refine State.storeKick_keeps C ?_ | refine State.cmdOver_keeps C ?_ | split

theorem State.ctrlReady_keeps {s : State} {k : Nat} (h : P s) : P (State.ctrlReady s k) := by
  unfold State.ctrlReady
  with_reducible repeat' first | assumption | refine C.set ?_

theorem State.ctrlEnable_keeps {s : State} {k : Nat} (h : P s) : P (State.ctrlEnable s k) := by
  unfold State.ctrlEnable
  with_reducible repeat' first | assumption | refine ite_keep ?_ ?_ | refine C.set ?_ | refine State.ctrlReady_keeps C ?_

theorem State.ctrlShutdown_keeps {s : State} {k n : Nat} (h : P s) : P (State.ctrlShutdown s k n) := by
  unfold State.ctrlShutdown
  with_reducible repeat' first | assumption | refine ite_keep ?_ ?_ | refine C.set ?_ | refine State.shnStep_keeps C ?_

theorem State.ctrlCc_keeps {s : State} {k v : Nat} (h : P s) : P (State.ctrlCc s k v) := by
  unfold State.ctrlCc
  with_reducible repeat'
    first
    | assumption | refine ite_keep ?_ ?_ | refine C.set ?_ | refine State.ctrlEnable_keeps C ?_ | refine State.ctrlReset_keeps C ?_
    | refine State.ctrlShutdown_keeps C ?_

theorem State.nvmeDoorbell_keeps {s : State} {k q : Nat} {cq : Bool} {v : Nat} (h : P s) : P (State.nvmeDoorbell s k q cq v) := by
  unfold State.nvmeDoorbell
  with_reducible repeat'
    first
    | assumption | refine ite_keep ?_ ?_ | refine State.aerPost_keeps C ?_ | refine State.ctrlResume_keeps C ?_ | refine C.set ?_

theorem State.nvmeWrite_keeps {s : State} {k off v : Nat} (h : P s) : P (State.nvmeWrite s k off v) := by
  unfold State.nvmeWrite
  with_reducible repeat'
    first
    | assumption | refine ite_keep ?_ ?_ | refine State.nvmeDoorbell_keeps C ?_ | refine C.set ?_ | refine State.ctrlCc_keeps C ?_ | split

theorem State.nveRes_keeps {s : State} {ch r : Nat} (h : P s) : P (State.nveRes s ch r) := by
  unfold State.nveRes
  with_reducible repeat' first | assumption | refine C.set ?_

theorem State.beConnect_keeps {s : State} {b q : Nat} (h : P s) : P (State.beConnect s b q) := by
  unfold State.beConnect
  with_reducible repeat' first | assumption | refine State.cnLoad_keeps C ?_ | refine C.set ?_

theorem execBeCreate_keeps {ch b : Nat} {s : State} (h : P s) : NextHas P (execBeCreate ch b s) := by
  unfold execBeCreate
  refine next_keep ?_
  with_reducible repeat'
    first
    | assumption | refine ite_keep ?_ ?_ | refine State.nveRes_keeps C ?_ | refine C.set ?_ | refine each_keep ?_ ?_
    | refine State.beConnect_keeps C ?_ | intro _

theorem State.beqFree_keeps {s : State} {b q : Nat} (h : P s) : P (State.beqFree s b q) := by
  unfold State.beqFree
  with_reducible repeat'
    first
    | assumption | refine ite_keep ?_ ?_ | refine C.set ?_ | refine C.lset ?_ | refine each_keep ?_ ?_ | refine State.cnFlush_keeps C ?_
    | intro _

theorem execBeDestroy_keeps {ch b : Nat} {s : State} (h : P s) : NextHas P (execBeDestroy ch b s) := by
  unfold execBeDestroy
  refine next_keep ?_
  with_reducible repeat'
    first
    | assumption | refine ite_keep ?_ ?_ | refine State.nveRes_keeps C ?_ | refine each_keep ?_ ?_ | refine State.beqFree_keeps C ?_
    | refine C.set ?_ | intro _

theorem execNsCreate_keeps {ch n : Nat} {s : State} (h : P s) : NextHas P (execNsCreate ch n s) := by
  unfold execNsCreate
  refine next_keep ?_
  with_reducible repeat' first | assumption | refine ite_keep ?_ ?_ | refine State.nveRes_keeps C ?_ | refine C.set ?_

theorem execNsDelete_keeps {ch n : Nat} {s : State} (h : P s) : NextHas P (execNsDelete ch n s) := by
  unfold execNsDelete
  refine next_keep ?_
  with_reducible repeat' first | assumption | refine ite_keep ?_ ?_ | refine State.nveRes_keeps C ?_ | refine C.set ?_

theorem execNsAttach_keeps {ch n : Nat} {s : State} (h : P s) : NextHas P (execNsAttach ch n s) := by
  unfold execNsAttach
  refine next_keep ?_
  with_reducible repeat'
    first
    | assumption | refine ite_keep ?_ ?_ | refine State.nveRes_keeps C ?_ | refine State.nsEvent_keeps C ?_ | refine C.set ?_

theorem execNsDetach_keeps {ch n : Nat} {s : State} (h : P s) : NextHas P (execNsDetach ch n s) := by
  unfold execNsDetach
  refine next_keep ?_
  with_reducible repeat'
    first
    | assumption | refine ite_keep ?_ ?_ | refine State.nveRes_keeps C ?_ | refine State.detachStep_keeps C ?_ | refine C.set ?_

theorem execNveQuery_keeps {ch n : Nat} {s : State} (h : P s) : NextHas P (execNveQuery ch n s) := by
  unfold execNveQuery
  refine next_keep ?_
  with_reducible repeat'
    first
    | assumption | refine ite_keep ?_ ?_ | refine State.nveRes_keeps C ?_ | refine State.chShow_keeps C ?_ | refine C.drew ?_

theorem execControllerEnable_keeps {k cc : Nat} {s : State} (h : P s) : NextHas P (execControllerEnable k cc s) := by
  unfold execControllerEnable
  refine next_keep ?_
  with_reducible repeat' first | assumption | refine State.ctrlCc_keeps C ?_

theorem execControllerReset_keeps {k : Nat} {s : State} (h : P s) : NextHas P (execControllerReset k s) := by
  unfold execControllerReset
  refine next_keep ?_
  with_reducible repeat' first | assumption | refine State.ctrlCc_keeps C ?_

theorem execResetLimitExpiry_keeps {k : Nat} {s : State} (h : P s) : NextHas P (execResetLimitExpiry k s) := by
  unfold execResetLimitExpiry
  refine next_keep ?_
  with_reducible repeat'
    first
    | assumption | refine ite_keep ?_ ?_ | refine State.ctrlResetEnd_keeps C ?_ | refine State.advanceTo_keeps C ?_
    | refine State.ctrlAfter_keeps C ?_ | refine each_keep ?_ ?_ | refine State.cmdDrop_keeps C ?_ | intro _

theorem execControllerShutdown_keeps {k n : Nat} {s : State} (h : P s) : NextHas P (execControllerShutdown k n s) := by
  unfold execControllerShutdown
  refine next_keep ?_
  with_reducible repeat' first | assumption | refine State.ctrlCc_keeps C ?_

theorem execNvmeFetch_keeps {k : Nat} {s : State} (h : P s) : NextHas P (execNvmeFetch k s) := by
  unfold execNvmeFetch
  refine next_keep ?_
  with_reducible repeat' first | assumption | refine ite_keep ?_ ?_ | refine State.nvmeFetch1_keeps C ?_

theorem State.adminRun_keeps {s : State} {id op : Nat} {f : Nat → State → State} (h : P s) (hf : ∀ a0 a1, P a1 → P (f a0 a1)) :
    P (State.adminRun s id op f) := by
  unfold State.adminRun
  with_reducible repeat' first | assumption | refine hf _ _ ?_ | refine ite_keep ?_ ?_ | refine State.cmdOver_keeps C ?_

theorem execCreateIoCq_keeps {id : Nat} {s : State} (h : P s) : NextHas P (execCreateIoCq id s) := by
  unfold execCreateIoCq
  refine next_keep ?_
  with_reducible repeat'
    first
    | assumption | refine ite_keep ?_ ?_ | refine State.adminRun_keeps C ?_ ?_ | refine State.cmdOver_keeps C ?_ | refine C.set ?_
    | intro _

theorem execCreateIoSq_keeps {id : Nat} {s : State} (h : P s) : NextHas P (execCreateIoSq id s) := by
  unfold execCreateIoSq
  refine next_keep ?_
  with_reducible repeat'
    first
    | assumption | refine ite_keep ?_ ?_ | refine State.adminRun_keeps C ?_ ?_ | refine State.cmdOver_keeps C ?_ | refine C.set ?_
    | intro _

theorem execDeleteIoSq_keeps {id : Nat} {s : State} (h : P s) : NextHas P (execDeleteIoSq id s) := by
  unfold execDeleteIoSq
  refine next_keep ?_
  with_reducible repeat'
    first
    | assumption | refine ite_keep ?_ ?_ | refine State.adminRun_keeps C ?_ ?_ | refine State.cmdOver_keeps C ?_ | refine each_keep ?_ ?_
    | refine State.cmdDrop_keeps C ?_ | refine C.set ?_ | intro _

theorem execDeleteIoCq_keeps {id : Nat} {s : State} (h : P s) : NextHas P (execDeleteIoCq id s) := by
  unfold execDeleteIoCq
  refine next_keep ?_
  with_reducible repeat'
    first
    | assumption | refine ite_keep ?_ ?_ | refine State.adminRun_keeps C ?_ ?_ | refine State.cmdOver_keeps C ?_ | refine C.set ?_
    | intro _

theorem State.adminData_keeps {s : State} {id o len : Nat} {d : List Nat} (h : P s) : P (State.adminData s id o len d) := by
  unfold State.adminData
  with_reducible repeat' first | assumption | refine State.freeBytes_keeps C ?_ | refine State.dptrStart_keeps C ?_ | refine C.lset ?_

theorem State.fwSlotLog_keeps {s : State} {pf : Bool} (h : P s) : P (State.fwSlotLog s pf).1 := by
  unfold State.fwSlotLog
  with_reducible repeat' first | assumption | refine ite_keep ?_ ?_ | refine State.freeBytes_keeps C ?_ | intro _ | split

theorem execGetLogPage_keeps {id : Nat} {s : State} (h : P s) : NextHas P (execGetLogPage id s) := by
  unfold execGetLogPage
  refine next_keep ?_
  with_reducible repeat'
    first
    | assumption | refine State.adminRun_keeps C ?_ ?_ | refine State.adminData_keeps C ?_ | refine State.fwSlotLog_keeps C ?_
    | refine when_keep ?_ ?_ | refine C.set ?_ | refine C.lset ?_ | refine State.cmdOver_keeps C ?_ | intro _ | split

theorem State.identCtrl_keeps {s : State} {k : Nat} (h : P s) : P (State.identCtrl s k).1 := by
  unfold State.identCtrl
  with_reducible repeat' first | assumption | refine ite_keep ?_ ?_ | refine State.freeBytes_keeps C ?_

theorem execIdentify_keeps {id : Nat} {s : State} (h : P s) : NextHas P (execIdentify id s) := by
  unfold execIdentify
  refine next_keep ?_
  with_reducible repeat'
    first
    | assumption | refine ite_keep ?_ ?_ | refine State.adminRun_keeps C ?_ ?_ | refine State.cmdOver_keeps C ?_
    | refine State.adminData_keeps C ?_ | refine State.identCtrl_keeps C ?_ | intro _ | split

theorem execNvmeAbort_keeps {id : Nat} {s : State} (h : P s) : NextHas P (execNvmeAbort id s) := by
  unfold execNvmeAbort
  refine next_keep ?_
  with_reducible repeat'
    first
    | assumption | refine State.adminRun_keeps C ?_ ?_ | refine State.cmdOver_keeps C ?_ | refine State.bump_keeps C ?_ | intro _ | split
    | dsimp only

theorem execSetFeatures_keeps {id : Nat} {s : State} (h : P s) : NextHas P (execSetFeatures id s) := by
  unfold execSetFeatures
  refine next_keep ?_
  with_reducible repeat'
    first
    | assumption | refine ite_keep ?_ ?_ | refine State.adminRun_keeps C ?_ ?_ | refine State.cmdOver_keeps C ?_ | refine C.set ?_
    | intro _ | split

theorem execGetFeatures_keeps {id : Nat} {s : State} (h : P s) : NextHas P (execGetFeatures id s) := by
  unfold execGetFeatures
  refine next_keep ?_
  with_reducible repeat'
    first
    | assumption | refine ite_keep ?_ ?_ | refine State.adminRun_keeps C ?_ ?_ | refine State.cmdOver_keeps C ?_ | intro _ | split

theorem execAsynchronousEventRequest_keeps {id : Nat} {s : State} (h : P s) : NextHas P (execAsynchronousEventRequest id s) := by
  unfold execAsynchronousEventRequest
  refine next_keep ?_
  with_reducible repeat'
    first
    | assumption | refine ite_keep ?_ ?_ | refine State.adminRun_keeps C ?_ ?_ | refine State.cmdOver_keeps C ?_
    | refine State.lpush_keeps C ?_ | refine State.cmdDrop_keeps C ?_ | refine State.ctrlAfter_keeps C ?_
    | refine State.aerPost_keeps C ?_ | refine C.lset ?_ | intro _ | split | dsimp only

theorem State.ioAdmit_keeps {s : State} {id blocks dir len : Nat} (h : P s) : P (State.ioAdmit s id blocks dir len) := by
  unfold State.ioAdmit
  with_reducible repeat'
    first
    | assumption | refine ite_keep ?_ ?_ | refine C.set ?_ | refine State.sqFree_keeps C ?_ | refine when_keep ?_ ?_ | refine C.lset ?_
    | refine State.dptrStart_keeps C ?_ | intro _ | split | dsimp only

theorem execNvmeWrite_keeps {id : Nat} {s : State} (h : P s) : NextHas P (execNvmeWrite id s) := by
  unfold execNvmeWrite
  refine next_keep ?_
  with_reducible repeat'
    first
    | assumption | refine ite_keep ?_ ?_ | refine State.ioAdmit_keeps C ?_ | refine State.cmdOver_keeps C ?_ | split

theorem execNvmeRead_keeps {id : Nat} {s : State} (h : P s) : NextHas P (execNvmeRead id s) := by
  unfold execNvmeRead
  refine next_keep ?_
  with_reducible repeat'
    first
    | assumption | refine ite_keep ?_ ?_ | refine State.ioAdmit_keeps C ?_ | refine State.cmdOver_keeps C ?_ | split

theorem execWriteZeroes_keeps {id : Nat} {s : State} (h : P s) : NextHas P (execWriteZeroes id s) := by
  unfold execWriteZeroes
  refine next_keep ?_
  with_reducible repeat'
    first
    | assumption | refine ite_keep ?_ ?_ | refine State.ioAdmit_keeps C ?_ | refine when_keep ?_ ?_ | refine C.lset ?_
    | refine State.cmdOver_keeps C ?_ | intro _ | split

theorem execDatasetManagement_keeps {id : Nat} {s : State} (h : P s) : NextHas P (execDatasetManagement id s) := by
  unfold execDatasetManagement
  refine next_keep ?_
  with_reducible repeat'
    first
    | assumption | refine ite_keep ?_ ?_ | refine State.cmdOver_keeps C ?_ | refine State.ioAdmit_keeps C ?_ | split

theorem execNvmeFlush_keeps {id : Nat} {s : State} (h : P s) : NextHas P (execNvmeFlush id s) := by
  unfold execNvmeFlush
  refine next_keep ?_
  with_reducible repeat'
    first
    | assumption | refine ite_keep ?_ ?_ | refine State.cmdOver_keeps C ?_ | refine C.set ?_ | refine State.sqFree_keeps C ?_
    | refine C.lset ?_ | refine State.flushTry_keeps C ?_ | refine State.ctrlAfter_keeps C ?_ | split | dsimp only

theorem State.cmdXts_keeps {s : State} {id alg : Nat} {agree : Bool} (h : P s) : P (State.cmdXts s id alg agree).1 := by
  unfold State.cmdXts
  with_reducible repeat'
    first
    | assumption | refine ite_keep ?_ ?_ | refine State.cipUse_keeps C ?_ | refine C.lset ?_ | refine State.freeBytes_keeps C ?_ | intro _
    | split | refine pair_keep (by assumption) ?_ | dsimp only

theorem State.cmdGo_keeps {s : State} {id : Nat} (h : P s) : P (State.cmdGo s id) := by
  unfold State.cmdGo
  with_reducible repeat'
    first
    | assumption | refine State.flushTry_keeps C ?_ | refine State.cmdTry_keeps C ?_ | refine State.tlsUse_keeps C ?_
    | refine State.cmdOver_keeps C ?_ | split | refine pair_keep (by assumption) ?_ | dsimp only

theorem execCommandStaged_keeps {id : Nat} {agree : Bool} {s : State} (h : P s) : NextHas P (execCommandStaged id agree s) := by
  unfold execCommandStaged
  refine next_keep ?_
  with_reducible repeat'
    first
    | assumption | refine ite_keep ?_ ?_ | refine State.cmdGo_keeps C ?_ | refine State.cmdXts_keeps C ?_ | refine C.set ?_
    | refine State.cmdOver_keeps C ?_ | split | refine pair_keep (by assumption) ?_

theorem State.beAnswer_keeps {s : State} {id status dw0 : Nat} {data : List Nat} (h : P s) : P (State.beAnswer s id status dw0 data) := by
  unfold State.beAnswer
  with_reducible repeat'
    first
    | assumption | refine C.set ?_ | refine State.cmdUnsend_keeps C ?_ | refine when_keep ?_ ?_ | refine C.lset ?_ | intro _

theorem State.beFinish_keeps {s : State} {id : Nat} {agree : Bool} (h : P s) : P (State.beFinish s id agree) := by
  unfold State.beFinish
  with_reducible repeat'
    first
    | assumption | refine ite_keep ?_ ?_ | refine State.cmdXts_keeps C ?_ | refine State.cmdOver_keeps C ?_
    | refine State.storeKick_keeps C ?_ | split | refine pair_keep (by assumption) ?_ | dsimp only

theorem State.lateResp_keeps {s : State} {b q tag : Nat} (h : P s) : P (State.lateResp s b q tag) := by
  unfold State.lateResp
  with_reducible repeat' first | assumption | refine State.bump_keeps C ?_

theorem State.beTake_keeps {s : State} {b q tag status dw0 : Nat} {data : List Nat} {agree : Bool} (h : P s) :
    P (State.beTake s b q tag status dw0 data agree) := by
  unfold State.beTake
  with_reducible repeat'
    first
    | assumption | refine ite_keep ?_ ?_ | refine State.beFinish_keeps C ?_ | refine C.set ?_ | refine C.lset ?_
    | refine State.beAnswer_keeps C ?_ | refine State.lateResp_keeps C ?_ | split

theorem execBackendResponse_keeps {b q tag status dw0 : Nat} {agree : Bool} {data : List Nat} {s : State} (h : P s) :
    NextHas P (execBackendResponse b q tag status dw0 agree data s) := by
  unfold execBackendResponse
  refine next_keep ?_
  with_reducible repeat'
    first
    | assumption | refine ite_keep ?_ ?_ | refine State.beFinish_keeps C ?_ | refine C.lset ?_ | refine State.beTake_keeps C ?_ | split
    | dsimp only

theorem State.cmdResend_keeps {s : State} {id : Nat} (h : P s) : P (State.cmdResend s id) := by
  unfold State.cmdResend
  with_reducible repeat'
    first
    | assumption | refine ite_keep ?_ ?_ | refine State.cmdOver_keeps C ?_ | refine C.set ?_ | refine State.cmdUnsend_keeps C ?_
    | refine State.bump_keeps C ?_ | refine State.addw_keeps C ?_ | refine State.cmdTry_keeps C ?_

theorem execBackendTimeout_keeps {id : Nat} {s : State} (h : P s) : NextHas P (execBackendTimeout id s) := by
  unfold execBackendTimeout
  refine next_keep ?_
  with_reducible repeat'
    first
    | assumption | refine ite_keep ?_ ?_ | refine State.advanceTo_keeps C ?_ | refine State.cmdResend_keeps C ?_
    | refine State.bump_keeps C ?_

theorem execBackendQueueConnect_keeps {b q incap maxh2c : Nat} {s : State} (h : P s) :
    NextHas P (execBackendQueueConnect b q incap maxh2c s) := by
  unfold execBackendQueueConnect
  refine next_keep ?_
  with_reducible repeat'
    first
    | assumption | refine ite_keep ?_ ?_ | refine when_keep ?_ ?_ | refine State.bump_keeps C ?_ | refine State.beConnect_keeps C ?_
    | refine C.set ?_ | refine C.lset ?_ | refine State.storeKick_keeps C ?_ | intro _

theorem execBackendQueueDisconnect_keeps {b q : Nat} {s : State} (h : P s) : NextHas P (execBackendQueueDisconnect b q s) := by
  unfold execBackendQueueDisconnect
  refine next_keep ?_
  with_reducible repeat'
    first
    | assumption | refine ite_keep ?_ ?_ | refine C.lset ?_ | refine C.set ?_ | refine each_keep ?_ ?_ | refine State.cmdResend_keeps C ?_
    | intro _

theorem State.h2cSend_keeps {s : State} {b q id ttag off a x7 : Nat} (h : P s) : P (State.h2cSend s b q id ttag off a x7) := by
  fun_induction State.h2cSend s b q id ttag off a x7
  all_goals with_reducible repeat'
    first
    | assumption | refine (by assumption : P _ → P _) ?_ | refine ite_keep ?_ ?_ | refine State.tcpSend_keeps C ?_

theorem State.tlsHave_keeps {s : State} {id : Nat} (h : P s) : P (State.tlsHave s id).1 := by
  unfold State.tlsHave
  with_reducible repeat'
    first
    | assumption | refine ite_keep ?_ ?_ | refine State.tlsUse_keeps C ?_ | refine State.cipLoad_keeps C ?_
    | refine State.cmdOver_keeps C ?_ | intro _ | split | refine pair_keep (by assumption) ?_ | dsimp only

theorem execReadyToTransferPdu_keeps {b q tag ttag off len : Nat} {s : State} (h : P s) :
    NextHas P (execReadyToTransferPdu b q tag ttag off len s) := by
  unfold execReadyToTransferPdu
  refine next_keep ?_
  with_reducible repeat'
    first
    | assumption | refine ite_keep ?_ ?_ | refine State.tlsHave_keeps C ?_ | refine State.h2cSend_keeps C ?_ | split
    | refine pair_keep (by assumption) ?_

theorem execTcpRetransmitTimeout_keeps {b q : Nat} {s : State} (h : P s) : NextHas P (execTcpRetransmitTimeout b q s) := by
  unfold execTcpRetransmitTimeout
  refine next_keep ?_
  with_reducible repeat'
    first
    | assumption | refine ite_keep ?_ ?_ | refine State.advanceTo_keeps C ?_ | refine C.set ?_ | refine C.emit ?_ | split | dsimp only

theorem State.keyRes_keeps {s : State} {ch r : Nat} (h : P s) : P (State.keyRes s ch r) := by
  unfold State.keyRes
  with_reducible repeat' first | assumption | refine C.set ?_

theorem State.sourceCheck_keeps {s : State} {t k use : Nat} (h : P s) : P (State.sourceCheck s t k use).1 := by
  unfold State.sourceCheck
  with_reducible repeat' first | assumption | refine ite_keep ?_ ?_ | refine State.slotCorrupt_keeps C ?_ | intro _ | split | dsimp only

theorem State.targetPut_keeps {s : State} {ch : Nat} {mat : List Nat} (h : P s) : P (State.targetPut s ch mat) := by
  unfold State.targetPut
  with_reducible repeat' first | assumption | refine State.keyRes_keeps C ?_ | refine State.slotStore_keeps C ?_

theorem execGenerate_keeps {ch t : Nat} {s : State} (h : P s) : NextHas P (execGenerate ch t s) := by
  unfold execGenerate
  refine next_keep ?_
  with_reducible repeat'
    first
    | assumption | refine ite_keep ?_ ?_ | refine State.keyRes_keeps C ?_ | refine State.targetPut_keeps C ?_
    | refine State.addw_keeps C ?_ | split

theorem execUnwrap_keeps {ch t : Nat} {s : State} (h : P s) : NextHas P (execUnwrap ch t s) := by
  unfold execUnwrap
  refine next_keep ?_
  with_reducible repeat'
    first
    | assumption | refine ite_keep ?_ ?_ | refine State.keyRes_keeps C ?_ | refine State.sourceCheck_keeps C ?_
    | refine State.targetPut_keeps C ?_ | split | refine pair_keep (by assumption) ?_

theorem execDerive_keeps {ch t : Nat} {s : State} (h : P s) : NextHas P (execDerive ch t s) := by
  unfold execDerive
  refine next_keep ?_
  with_reducible repeat'
    first
    | assumption | refine ite_keep ?_ ?_ | refine State.keyRes_keeps C ?_ | refine State.sourceCheck_keeps C ?_
    | refine State.targetPut_keeps C ?_ | split | refine pair_keep (by assumption) ?_

theorem execKeyDestroy_keeps {ch t : Nat} {s : State} (h : P s) : NextHas P (execKeyDestroy ch t s) := by
  unfold execKeyDestroy
  refine next_keep ?_
  with_reducible repeat'
    first
    | assumption | refine ite_keep ?_ ?_ | refine State.keyRes_keeps C ?_ | refine State.keyDestroy_keeps C ?_ | split

theorem execKeyQuery_keeps {ch t : Nat} {s : State} (h : P s) : NextHas P (execKeyQuery ch t s) := by
  unfold execKeyQuery
  refine next_keep ?_
  with_reducible repeat'
    first
    | assumption | refine ite_keep ?_ ?_ | refine State.keyRes_keeps C ?_ | refine State.slotCorrupt_keeps C ?_ | refine C.set ?_ | split

theorem execKeyMac_keeps {ch t : Nat} {s : State} (h : P s) : NextHas P (execKeyMac ch t s) := by
  unfold execKeyMac
  refine next_keep ?_
  with_reducible repeat'
    first
    | assumption | refine ite_keep ?_ ?_ | refine State.keyRes_keeps C ?_ | refine State.sourceCheck_keeps C ?_ | refine each_keep ?_ ?_
    | refine C.set ?_ | intro _ | split | refine pair_keep (by assumption) ?_

theorem State.keyZeroise_keeps {s : State} {t : Nat} (h : P s) : P (State.keyZeroise s t) := by
  unfold State.keyZeroise
  with_reducible repeat' first | assumption | refine each_keep ?_ ?_ | refine State.keyDestroy_keeps C ?_ | intro _

theorem execKeyZeroiseTenant_keeps {ch t : Nat} {gate : Bool} {s : State} (h : P s) : NextHas P (execKeyZeroiseTenant ch t gate s) := by
  unfold execKeyZeroiseTenant
  refine next_keep ?_
  with_reducible repeat' first | assumption | refine ite_keep ?_ ?_ | refine State.keyRes_keeps C ?_ | refine State.keyZeroise_keeps C ?_

theorem execKeyLoad_keeps {n k : Nat} {ok : Bool} {s : State} (h : P s) : NextHas P (execKeyLoad n k ok s) := by
  unfold execKeyLoad
  refine next_keep ?_
  with_reducible repeat' first | assumption | refine ite_keep ?_ ?_ | refine State.cipLoad_keeps C ?_ | refine C.lset ?_ | refine C.set ?_

theorem execDrbgReseed_keeps {s : State} (h : P s) : NextHas P (execDrbgReseed s) := by
  unfold execDrbgReseed
  refine next_keep ?_
  with_reducible repeat' first | assumption | refine State.advanceTo_keeps C ?_ | refine C.drew ?_ | refine C.set ?_

theorem execCipherOperation_keeps {n x1 slot : Nat} {enc : Bool} {off len : Nat} {nonce : List Nat} {aad : List Nat} {agree : Bool}
    {s : State} (h : P s) :
    NextHas P (execCipherOperation n x1 slot enc off len nonce aad agree s) := by
  unfold execCipherOperation
  refine next_keep ?_
  with_reducible repeat'
    first
    | assumption | refine ite_keep ?_ ?_ | refine State.dropPkt_keeps C ?_ | refine State.cipFail_keeps C ?_
    | refine State.cipUse_keeps C ?_ | refine State.stageNext_keeps C ?_ | refine C.lset ?_ | refine State.freeBytes_keeps C ?_ | split
    | refine pair_keep (by assumption) ?_ | dsimp only

theorem State.ringRegion_keeps {s : State} {e r : Nat} (h : P s) : P (State.ringRegion s e r).1 := by
  unfold State.ringRegion
  with_reducible repeat' first | assumption | refine ite_keep ?_ ?_ | refine C.set ?_

theorem execRingEnable_keeps {e r : Nat} {s : State} (h : P s) : NextHas P (execRingEnable e r s) := by
  unfold execRingEnable
  refine next_keep ?_
  with_reducible repeat' first | assumption | refine ite_keep ?_ ?_ | refine C.set ?_ | refine when_keep ?_ ?_ | intro _ | split

theorem execRingDisable_keeps {e r : Nat} {s : State} (h : P s) : NextHas P (execRingDisable e r s) := by
  unfold execRingDisable
  refine next_keep ?_
  with_reducible repeat'
    first
    | assumption | refine when_keep ?_ ?_ | refine State.ringUnfetch_keeps C ?_ | refine State.cplDiscard_keeps C ?_ | refine C.set ?_
    | intro _

theorem execFnMapWrite_keeps {e f base count : Nat} {s : State} (h : P s) : NextHas P (execFnMapWrite e f base count s) := by
  unfold execFnMapWrite
  refine next_keep ?_
  with_reducible repeat' first | assumption | refine ite_keep ?_ ?_ | refine C.set ?_

theorem State.doorbellErr_keeps {s : State} {e r : Nat} (h : P s) : P (State.doorbellErr s e r) := by
  unfold State.doorbellErr
  with_reducible repeat' first | assumption | refine C.set ?_

theorem execDoorbellTail_keeps {e r v : Nat} {s : State} (h : P s) : NextHas P (execDoorbellTail e r v s) := by
  unfold execDoorbellTail
  refine next_keep ?_
  with_reducible repeat' first | assumption | refine ite_keep ?_ ?_ | refine State.doorbellErr_keeps C ?_ | refine C.set ?_

theorem execDoorbellCons_keeps {e r v : Nat} {s : State} (h : P s) : NextHas P (execDoorbellCons e r v s) := by
  unfold execDoorbellCons
  refine next_keep ?_
  with_reducible repeat'
    first
    | assumption | refine ite_keep ?_ ?_ | refine State.doorbellErr_keeps C ?_ | refine C.set ?_ | refine when_keep ?_ ?_
    | refine State.ringIrq_keeps C ?_ | refine State.cqResume_keeps C ?_ | refine State.cplDrain_keeps C ?_ | intro _ | split | dsimp only

theorem State.ringFetchN_keeps {s : State} {e r n : Nat} (h : P s) : P (State.ringFetchN s e r n) := by
  unfold State.ringFetchN
  with_reducible repeat' first | assumption | refine ite_keep ?_ ?_ | refine State.readReqP_keeps C ?_ | refine C.set ?_ | split

theorem State.ctrlFetchN_keeps {s : State} {k a : Nat} (h : P s) : P (State.ctrlFetchN s k a).1 := by
  fun_induction State.ctrlFetchN s k a
  all_goals with_reducible repeat'
    first
    | assumption | refine (by assumption : P _ → P _) ?_ | refine ite_keep ?_ ?_ | refine State.nvmeFetch1_keeps C ?_ | intro _ | split
    | refine pair_keep (by assumption) ?_

theorem State.fetchPass_keeps {s : State} {e : Nat} {a : List (Nat × Nat)} (h : P s) : P (State.fetchPass s e a).1 := by
  fun_induction State.fetchPass s e a
  all_goals with_reducible repeat'
    first
    | assumption | refine (by assumption : P _ → P _) ?_ | refine ite_keep ?_ ?_ | refine State.ringFetchN_keeps C ?_
    | refine State.ctrlFetchN_keeps C ?_ | intro _ | split | refine pair_keep (by assumption) ?_

theorem State.fetchRound_keeps {s : State} {e a : Nat} {x3 : List (Nat × Nat)} (h : P s) : P (State.fetchRound s e a x3) := by
  fun_induction State.fetchRound s e a x3
  all_goals with_reducible repeat'
    first
    | assumption | refine (by assumption : P _ → P _) ?_ | refine ite_keep ?_ ?_ | refine State.fetchPass_keeps C ?_ | split
    | refine pair_keep (by assumption) ?_

theorem execRingFetch_keeps {e : Nat} {s : State} (h : P s) : NextHas P (execRingFetch e s) := by
  unfold execRingFetch
  refine next_keep ?_
  with_reducible repeat'
    first
    | assumption | refine ite_keep ?_ ?_ | refine each_keep ?_ ?_ | refine State.ringRegion_keeps C ?_
    | refine State.fetchRound_keeps C ?_ | intro _

theorem State.descGot_keeps {s : State} {e r i : Nat} {d : Option (List Nat)} (h : P s) : P (State.descGot s e r i d) := by
  unfold State.descGot
  with_reducible repeat' first | assumption | refine State.ringError_keeps C ?_ | refine C.lset ?_ | split

theorem State.badDesc_keeps {s : State} {e w : Nat} (h : P s) : P (State.badDesc s e w) := by
  unfold State.badDesc
  with_reducible repeat' first | assumption | refine State.workDone_keeps C ?_ | refine State.bump_keeps C ?_

theorem State.txDispatch_keeps {s : State} {e r w : Nat} (h : P s) : P (State.txDispatch s e r w) := by
  unfold State.txDispatch
  with_reducible repeat'
    first
    | assumption | refine ite_keep ?_ ?_ | refine C.set ?_ | refine State.newPkt_keeps C ?_ | refine State.dropPkt_keeps C ?_
    | refine State.ringRegion_keeps C ?_ | refine C.drew ?_ | refine State.enterRegion_keeps C ?_ | refine State.stampEpoch_keeps C ?_
    | split | refine pair_keep (by assumption) ?_ | dsimp only

theorem State.txGone_keeps {s : State} {w : Nat} (h : P s) : P (State.txGone s w) := by
  unfold State.txGone
  with_reducible repeat' first | assumption | refine ite_keep ?_ ?_ | refine State.freePkt_keeps C ?_

theorem State.txStart_keeps {s : State} {e f r w : Nat} {d : List Nat} (h : P s) : P (State.txStart s e f r w d) := by
  unfold State.txStart
  with_reducible repeat'
    first
    | assumption | refine ite_keep ?_ ?_ | refine C.set ?_ | refine State.txDispatch_keeps C ?_ | refine C.lset ?_
    | refine State.readReqP_keeps C ?_

theorem State.sendStart_keeps {s : State} {c w : Nat} {d : List Nat} (h : P s) : P (State.sendStart s c w d) := by
  unfold State.sendStart
  with_reducible repeat' first | assumption | refine C.set ?_ | refine State.lpush_keeps C ?_

theorem State.descStart_keeps {s : State} {e f r c : Nat} {d : List Nat} (h : P s) : P (State.descStart s e f r c d) := by
  unfold State.descStart
  with_reducible repeat'
    first
    | assumption | refine ite_keep ?_ ?_ | refine C.set ?_ | refine State.newWork_keeps C ?_ | refine State.cqPause_keeps C ?_
    | refine State.badDesc_keeps C ?_ | refine State.reserve_keeps C ?_ | refine State.txStart_keeps C ?_ | refine State.lpush_keeps C ?_
    | refine State.sendStart_keeps C ?_ | split | dsimp only

theorem State.workPause_keeps {s : State} {e f r c : Nat} (h : P s) : P (State.workPause s e f r c) := by
  unfold State.workPause
  with_reducible repeat' first | assumption | refine State.cqPause_keeps C ?_ | refine when_keep ?_ ?_ | refine C.set ?_ | intro _

theorem execDescriptorStart_keeps {e r : Nat} {s : State} (h : P s) : NextHas P (execDescriptorStart e r s) := by
  unfold execDescriptorStart
  refine next_keep ?_
  with_reducible repeat'
    first
    | assumption | refine ite_keep ?_ ?_ | refine State.workPause_keeps C ?_ | refine State.descStart_keeps C ?_ | refine C.lset ?_
    | split

theorem State.txGo_keeps {s : State} {w : Nat} (h : P s) : P (State.txGo s w) := by
  unfold State.txGo
  with_reducible repeat' first | assumption | refine C.lset ?_ | refine C.set ?_ | refine State.arbEnter_keeps C ?_

theorem State.frameGot_keeps {s : State} {w o : Nat} {d : Option (List Nat)} (h : P s) : P (State.frameGot s w o d) := by
  unfold State.frameGot
  with_reducible repeat'
    first
    | assumption | refine ite_keep ?_ ?_ | refine C.lset ?_ | refine State.txGone_keeps C ?_ | refine State.workDone_keeps C ?_
    | refine C.set ?_ | refine State.txGo_keeps C ?_ | split

theorem State.fragGot_keeps {s : State} {w : Nat} {d : Option (List Nat)} (h : P s) : P (State.fragGot s w d) := by
  unfold State.fragGot
  with_reducible repeat'
    first
    | assumption | refine ite_keep ?_ ?_ | refine State.ringError_keeps C ?_ | refine State.txGone_keeps C ?_
    | refine State.workDone_keeps C ?_ | refine State.badDesc_keeps C ?_ | refine State.readReqP_keeps C ?_ | refine foldl_keep ?_ ?_
    | refine foldl_pair_keep ?_ ?_ | intro _ | split

theorem State.bufsWrite_keeps {s : State} {e f pasid : Nat} {a : List Nat} {x5 : List Nat} (h : P s) :
    P (State.bufsWrite s e f pasid a x5) := by
  fun_induction State.bufsWrite s e f pasid a x5
  all_goals with_reducible repeat' first | assumption | refine (by assumption : P _ → P _) ?_ | refine State.hostWriteD_keeps C ?_

theorem execHostRxPlace_keeps {x0 : Nat} {s : State} (h : P s) : NextHas P (execHostRxPlace x0 s) := by
  unfold execHostRxPlace
  refine next_keep ?_
  with_reducible repeat'
    first
    | assumption | refine ite_keep ?_ ?_ | refine State.dropPkt_keeps C ?_ | refine State.bump_keeps C ?_
    | refine State.hostDown_keeps C ?_ | refine State.bufsWrite_keeps C ?_ | refine State.reserve_keeps C ?_ | refine C.lset ?_
    | refine C.set ?_ | refine State.workDone_keeps C ?_ | refine State.cqPause_keeps C ?_ | refine State.freePkt_keeps C ?_
    | refine State.txDiverted_keeps C ?_ | split

theorem State.lateTake_keeps {s : State} {w : Nat} (h : P s) : P (State.lateTake s w) := by
  unfold State.lateTake
  with_reducible repeat' first | assumption | refine ite_keep ?_ ?_ | refine State.setb_keeps C ?_ | refine C.set ?_

theorem execCompletionPost_keeps {e r : Nat} {s : State} (h : P s) : NextHas P (execCompletionPost e r s) := by
  unfold execCompletionPost
  refine next_keep ?_
  with_reducible repeat'
    first
    | assumption | refine ite_keep ?_ ?_ | refine State.lateTake_keeps C ?_ | refine C.lset ?_ | refine when_keep ?_ ?_
    | refine State.reserve_keeps C ?_ | refine State.cqResume_keeps C ?_ | refine State.cplPost_keeps C ?_ | intro _ | split

theorem execCompletionStallTimeout_keeps {e c : Nat} {s : State} (h : P s) : NextHas P (execCompletionStallTimeout e c s) := by
  unfold execCompletionStallTimeout
  refine next_keep ?_
  with_reducible repeat'
    first
    | assumption | refine ite_keep ?_ ?_ | refine State.advanceTo_keeps C ?_ | refine C.set ?_ | refine State.cplDiscard_keeps C ?_
    | refine State.ringError_keeps C ?_ | refine foldl_keep ?_ ?_ | refine foldl_pair_keep ?_ ?_ | intro _ | split

theorem execModerationTimer_keeps {e r : Nat} {s : State} (h : P s) : NextHas P (execModerationTimer e r s) := by
  unfold execModerationTimer
  refine next_keep ?_
  with_reducible repeat'
    first
    | assumption | refine ite_keep ?_ ?_ | refine State.ringIrq_keeps C ?_ | refine State.advanceTo_keeps C ?_ | split

theorem State.readEnd_keeps {s : State} {e kind x y : Nat} {d : Option (List Nat)} (h : P s) : P (State.readEnd s e kind x y d) := by
  unfold State.readEnd
  with_reducible repeat'
    first
    | assumption | refine State.descGot_keeps C ?_ | refine State.frameGot_keeps C ?_ | refine State.fragGot_keeps C ?_
    | refine State.msgGot_keeps C ?_ | refine State.sqeGot_keeps C ?_ | refine State.storeRead_keeps C ?_
    | refine State.respGot_keeps C ?_ | split

theorem State.readErr_keeps {s : State} {e f : Nat} (h : P s) : P (State.readErr s e f) := by
  unfold State.readErr
  with_reducible repeat' first | assumption | refine State.report_keeps C ?_

theorem execCompletionReceive_keeps {e tag status : Nat} {poison : Bool} {data : List Nat} {s : State} (h : P s) :
    NextHas P (execCompletionReceive e tag status poison data s) := by
  unfold execCompletionReceive
  refine next_keep ?_
  with_reducible repeat'
    first
    | assumption | refine ite_keep ?_ ?_ | refine State.bump_keeps C ?_ | refine C.lset ?_ | refine State.tagFree_keeps C ?_
    | refine State.aerU_keeps C ?_ | refine C.set ?_ | refine State.readErr_keeps C ?_ | refine State.readEnd_keeps C ?_ | split

theorem State.quarantineCount_keeps {s : State} {e : Nat} (h : P s) : P (State.quarantineCount s e) := by
  unfold State.quarantineCount
  with_reducible repeat' first | assumption | refine C.set ?_

theorem execCompletionTimeout_keeps {e tag : Nat} {s : State} (h : P s) : NextHas P (execCompletionTimeout e tag s) := by
  unfold execCompletionTimeout
  refine next_keep ?_
  with_reducible repeat'
    first
    | assumption | refine ite_keep ?_ ?_ | refine State.bump_keeps C ?_ | refine State.advanceTo_keeps C ?_
    | refine State.quarantineCount_keeps C ?_ | refine C.set ?_ | refine C.lset ?_ | refine State.readEnd_keeps C ?_
    | refine State.readErr_keeps C ?_ | refine State.aerU_keeps C ?_

theorem execTagQuarantineExpiry_keeps {e tag : Nat} {s : State} (h : P s) : NextHas P (execTagQuarantineExpiry e tag s) := by
  unfold execTagQuarantineExpiry
  refine next_keep ?_
  with_reducible repeat'
    first
    | assumption | refine ite_keep ?_ ?_ | refine State.quarantineCount_keeps C ?_ | refine State.tagFree_keeps C ?_
    | refine State.advanceTo_keeps C ?_

theorem State.fnStop_keeps {s : State} {e f : Nat} (h : P s) : P (State.fnStop s e f) := by
  unfold State.fnStop
  with_reducible repeat'
    first
    | assumption | refine ite_keep ?_ ?_ | refine each_keep ?_ ?_ | refine C.set ?_ | refine C.lset ?_ | refine when_keep ?_ ?_
    | refine State.ringStop_keeps C ?_ | refine State.readEnd_keeps C ?_ | intro _

theorem State.fnResume_keeps {s : State} {e f : Nat} (h : P s) : P (State.fnResume s e f) := by
  unfold State.fnResume
  with_reducible repeat'
    first
    | assumption | refine ite_keep ?_ ?_ | refine each_keep ?_ ?_ | refine State.msix_keeps C ?_ | refine State.pfAll_keeps C ?_
    | refine State.readDrain_keeps C ?_ | refine State.ctrlResume_keeps C ?_ | intro _ | split

theorem execBmeClear_keeps {e f : Nat} {s : State} (h : P s) : NextHas P (execBmeClear e f s) := by
  unfold execBmeClear
  refine next_keep ?_
  with_reducible repeat' first | assumption | refine ite_keep ?_ ?_ | refine State.fnStop_keeps C ?_ | refine C.set ?_

theorem execBmeSet_keeps {e f : Nat} {s : State} (h : P s) : NextHas P (execBmeSet e f s) := by
  unfold execBmeSet
  refine next_keep ?_
  with_reducible repeat' first | assumption | refine ite_keep ?_ ?_ | refine State.fnResume_keeps C ?_ | refine C.set ?_

theorem State.fnPages_keeps {s : State} {e f : Nat} (h : P s) : P (State.fnPages s e f) := by
  unfold State.fnPages
  with_reducible repeat'
    first
    | assumption | refine ite_keep ?_ ?_ | refine each_keep ?_ ?_ | refine C.set ?_ | refine State.atcDrop_keeps C ?_ | intro _

theorem State.fnReset_keeps {s : State} {e f : Nat} (h : P s) : P (State.fnReset s e f) := by
  unfold State.fnReset
  with_reducible repeat'
    first
    | assumption | refine ite_keep ?_ ?_ | refine State.fnStop_keeps C ?_ | refine each_keep ?_ ?_ | refine State.cnError_keeps C ?_
    | refine State.ringReset_keeps C ?_ | refine State.txGone_keeps C ?_ | refine when_keep ?_ ?_ | refine State.mkRevoke_keeps C ?_
    | refine State.clr_keeps C ?_ | refine State.fnPages_keeps C ?_ | refine State.ptmStop_keeps C ?_ | refine C.set ?_
    | refine State.ctrlReset_keeps C ?_ | intro _ | split

theorem State.cfgReset_keeps {s : State} {e f : Nat} (h : P s) : P (State.cfgReset s e f) := by
  unfold State.cfgReset
  with_reducible repeat'
    first
    | assumption | refine ite_keep ?_ ?_ | refine State.clr_keeps C ?_ | refine each_keep ?_ ?_ | refine C.set ?_
    | refine foldl_keep ?_ ?_ | refine foldl_pair_keep ?_ ?_ | intro _

theorem State.fnResetEnd_keeps {s : State} {e f : Nat} (h : P s) : P (State.fnResetEnd s e f) := by
  unfold State.fnResetEnd
  with_reducible repeat'
    first
    | assumption | refine each_keep ?_ ?_ | refine when_keep ?_ ?_ | refine State.mkDone_keeps C ?_ | refine C.set ?_
    | refine State.cfgReset_keeps C ?_ | intro _

theorem State.vfsGone_keeps {s : State} {e f : Nat} (h : P s) : P (State.vfsGone s e f) := by
  unfold State.vfsGone
  with_reducible repeat'
    first
    | assumption | refine each_keep ?_ ?_ | refine C.set ?_ | refine State.fnResetEnd_keeps C ?_ | refine State.fnReset_keeps C ?_
    | intro _

theorem State.frs_keeps {s : State} {e f : Nat} (h : P s) : P (State.frs s e f) := by
  unfold State.frs
  with_reducible repeat' first | assumption | refine when_keep ?_ ?_ | refine C.emit ?_ | intro _

theorem execFlr_keeps {e f : Nat} {s : State} (h : P s) : NextHas P (execFlr e f s) := by
  unfold execFlr
  refine next_keep ?_
  with_reducible repeat'
    first
    | assumption | refine ite_keep ?_ ?_ | refine each_keep ?_ ?_ | refine State.fnReset_keeps C ?_ | refine C.set ?_ | intro _

theorem execFlrComplete_keeps {e f : Nat} {s : State} (h : P s) : NextHas P (execFlrComplete e f s) := by
  unfold execFlrComplete
  refine next_keep ?_
  with_reducible repeat'
    first
    | assumption | refine ite_keep ?_ ?_ | refine State.vfsGone_keeps C ?_ | refine State.frs_keeps C ?_
    | refine State.fnResetEnd_keeps C ?_

theorem execVfEnableClear_keeps {e f : Nat} {s : State} (h : P s) : NextHas P (execVfEnableClear e f s) := by
  unfold execVfEnableClear
  refine next_keep ?_
  with_reducible repeat' first | assumption | refine C.set ?_ | refine State.vfsGone_keeps C ?_

theorem execD3hotEntry_keeps {e f : Nat} {s : State} (h : P s) : NextHas P (execD3hotEntry e f s) := by
  unfold execD3hotEntry
  refine next_keep ?_
  with_reducible repeat'
    first
    | assumption | refine ite_keep ?_ ?_ | refine each_keep ?_ ?_ | refine C.set ?_ | refine State.fnStop_keeps C ?_ | intro _

theorem execD0Return_keeps {e f : Nat} {s : State} (h : P s) : NextHas P (execD0Return e f s) := by
  unfold execD0Return
  refine next_keep ?_
  with_reducible repeat'
    first
    | assumption | refine ite_keep ?_ ?_ | refine State.frs_keeps C ?_ | refine each_keep ?_ ?_ | refine C.set ?_
    | refine State.fnResume_keeps C ?_ | intro _

theorem State.linkDown_keeps {s : State} {e : Nat} (h : P s) : P (State.linkDown s e) := by
  unfold State.linkDown
  with_reducible repeat'
    first
    | assumption | refine ite_keep ?_ ?_ | refine when_keep ?_ ?_ | refine State.bump_keeps C ?_ | refine C.set ?_
    | refine each_keep ?_ ?_ | refine State.vfsGone_keeps C ?_ | refine State.fnResetEnd_keeps C ?_ | refine State.fnReset_keeps C ?_
    | refine C.lset ?_ | refine State.ptmStop_keeps C ?_ | intro _

theorem execDlDown_keeps {e : Nat} {s : State} (h : P s) : NextHas P (execDlDown e s) := by
  unfold execDlDown
  refine next_keep ?_
  with_reducible repeat' first | assumption | refine ite_keep ?_ ?_ | refine State.linkDown_keeps C ?_

theorem State.readiness_keeps {s : State} {e : Nat} (h : P s) : P (State.readiness s e) := by
  unfold State.readiness
  with_reducible repeat' first | assumption | refine ite_keep ?_ ?_ | refine C.emit ?_

theorem execDlUp_keeps {e speed width : Nat} {flit : Bool} {drs : Bool} {s : State} (h : P s) :
    NextHas P (execDlUp e speed width flit drs s) := by
  unfold execDlUp
  refine next_keep ?_
  with_reducible repeat'
    first
    | assumption | refine ite_keep ?_ ?_ | refine C.set ?_ | refine State.readiness_keeps C ?_ | refine C.emit ?_

theorem execPerstAssert_keeps {e : Nat} {s : State} (h : P s) : NextHas P (execPerstAssert e s) := by
  unfold execPerstAssert
  refine next_keep ?_
  with_reducible repeat' first | assumption | refine ite_keep ?_ ?_ | refine C.set ?_ | refine State.linkDown_keeps C ?_

theorem execPerstDeassert_keeps {e : Nat} {s : State} (h : P s) : NextHas P (execPerstDeassert e s) := by
  unfold execPerstDeassert
  refine next_keep ?_
  with_reducible repeat' first | assumption | refine C.set ?_

theorem execExpansionRomRead_keeps {e f off len : Nat} {s : State} (h : P s) : NextHas P (execExpansionRomRead e f off len s) := by
  unfold execExpansionRomRead
  refine next_keep ?_
  with_reducible repeat' first | assumption | refine ite_keep ?_ ?_ | refine C.emit ?_ | refine C.answer ?_

theorem execIdeCheckFailed_keeps {e stream : Nat} {s : State} (h : P s) : NextHas P (execIdeCheckFailed e stream s) := by
  unfold execIdeCheckFailed
  refine next_keep ?_
  with_reducible repeat' first | assumption | refine ite_keep ?_ ?_ | refine State.aerU_keeps C ?_ | refine C.set ?_

theorem State.tenRes_keeps {s : State} {r : Nat} (h : P s) : P (State.tenRes s r) := by
  unfold State.tenRes
  with_reducible repeat' first | assumption | refine C.set ?_

theorem State.windowZero_keeps {s : State} {a b : Nat} (h : P s) : P (State.windowZero s a b) := by
  unfold State.windowZero
  with_reducible repeat' first | assumption | refine each_keep ?_ ?_ | refine C.mput ?_ | intro _

theorem execTenCreate_keeps {t : Nat} {s : State} (h : P s) : NextHas P (execTenCreate t s) := by
  unfold execTenCreate
  refine next_keep ?_
  with_reducible repeat'
    first
    | assumption | refine ite_keep ?_ ?_ | refine State.tenRes_keeps C ?_ | refine C.set ?_ | refine State.windowZero_keeps C ?_ | split

theorem execTenModify_keeps {t : Nat} {s : State} (h : P s) : NextHas P (execTenModify t s) := by
  unfold execTenModify
  refine next_keep ?_
  with_reducible repeat'
    first
    | assumption | refine ite_keep ?_ ?_ | refine State.tenRes_keeps C ?_ | refine C.set ?_ | refine State.windowZero_keeps C ?_ | split

theorem State.accountsClear_keeps {s : State} {t : Nat} (h : P s) : P (State.accountsClear s t) := by
  unfold State.accountsClear
  with_reducible repeat' first | assumption | refine each_keep ?_ ?_ | refine C.set ?_ | intro _

theorem execTenDestroy_keeps {t : Nat} {s : State} (h : P s) : NextHas P (execTenDestroy t s) := by
  unfold execTenDestroy
  refine next_keep ?_
  with_reducible repeat'
    first
    | assumption | refine ite_keep ?_ ?_ | refine State.tenRes_keeps C ?_ | refine State.accountsClear_keeps C ?_ | refine C.set ?_
    | refine State.windowZero_keeps C ?_

theorem execTenResume_keeps {t : Nat} {s : State} (h : P s) : NextHas P (execTenResume t s) := by
  unfold execTenResume
  refine next_keep ?_
  with_reducible repeat' first | assumption | refine ite_keep ?_ ?_ | refine State.tenRes_keeps C ?_ | refine C.set ?_

theorem execForceFatal_keeps {t : Nat} {s : State} (h : P s) : NextHas P (execForceFatal t s) := by
  unfold execForceFatal
  refine next_keep ?_
  with_reducible repeat' first | assumption | refine ite_keep ?_ ?_ | refine State.tenRes_keeps C ?_ | refine State.tenantFatal_keeps C ?_

theorem execTenQuery_keeps {t : Nat} {s : State} (h : P s) : NextHas P (execTenQuery t s) := by
  unfold execTenQuery
  refine next_keep ?_
  with_reducible repeat'
    first
    | assumption | refine ite_keep ?_ ?_ | refine State.tenRes_keeps C ?_ | refine each_keep ?_ ?_ | refine C.set ?_ | intro _

theorem execFnOwnerWrite_keeps {e f v : Nat} {s : State} (h : P s) : NextHas P (execFnOwnerWrite e f v s) := by
  unfold execFnOwnerWrite
  refine next_keep ?_
  with_reducible repeat' first | assumption | refine ite_keep ?_ ?_ | refine C.set ?_ | refine when_keep ?_ ?_ | intro _

theorem execCorIpi_keeps {hart file identity : Nat} {s : State} (h : P s) : NextHas P (execCorIpi hart file identity s) := by
  unfold execCorIpi
  refine next_keep ?_
  with_reducible repeat' first | assumption | refine State.coreMsi_keeps C ?_

theorem State.queueCons_keeps {s : State} {n q cons : Nat} {arm : Bool} (h : P s) : P (State.queueCons s n q cons arm) := by
  unfold State.queueCons
  with_reducible repeat'
    first
    | assumption | refine ite_keep ?_ ?_ | refine C.set ?_ | refine when_keep ?_ ?_ | refine State.queueMsi_keeps C ?_ | intro _

theorem execQueueConsWrite_keeps {n q v : Nat} {s : State} (h : P s) : NextHas P (execQueueConsWrite n q v s) := by
  unfold execQueueConsWrite
  refine next_keep ?_
  with_reducible repeat' first | assumption | refine State.queueCons_keeps C ?_

theorem State.pktAlloc_keeps {s : State} {n : Nat} (h : P s) : P (State.pktAlloc s n) := by
  unfold State.pktAlloc
  with_reducible repeat' first | assumption | refine C.answer ?_ | refine State.spanTake_keeps C ?_ | split

theorem execCorPktAlloc_keeps {n : Nat} {s : State} (h : P s) : NextHas P (execCorPktAlloc n s) := by
  unfold execCorPktAlloc
  refine next_keep ?_
  with_reducible repeat' first | assumption | refine State.pktAlloc_keeps C ?_

theorem State.injPkt_keeps {s : State} {n handle len md : Nat} (h : P s) : P (State.injPkt s n handle len md) := by
  unfold State.injPkt
  with_reducible repeat'
    first
    | assumption | refine C.set ?_ | refine State.newPkt_keeps C ?_ | refine State.enterRegion_keeps C ?_
    | refine State.stampEpoch_keeps C ?_

theorem State.spanRestore_keeps {s : State} {n handle x3 : Nat} (h : P s) : P (State.spanRestore s n handle x3) := by
  unfold State.spanRestore
  with_reducible repeat' first | assumption | refine ite_keep ?_ ?_ | refine State.clsSnap_keeps C ?_ | refine C.set ?_

theorem State.resumeAt_keeps {s : State} {n handle x3 pl k : Nat} (h : P s) : P (State.resumeAt s n handle x3 pl k) := by
  unfold State.resumeAt
  with_reducible repeat'
    first
    | assumption | refine C.drew ?_ | refine C.set ?_ | refine State.spanRestore_keeps C ?_ | refine State.settle_keeps C ?_

theorem State.injDo_keeps {s : State} {n : Nat} {d : List Nat} (h : P s) : P (State.injDo s n d) := by
  unfold State.injDo
  with_reducible repeat'
    first
    | assumption | refine ite_keep ?_ ?_ | refine State.arbEnter_keeps C ?_ | refine C.set ?_ | refine State.injPkt_keeps C ?_
    | refine State.resumeAt_keeps C ?_ | refine State.forwardTo_keeps C ?_ | refine State.setMeta_keeps C ?_ | refine when_keep ?_ ?_
    | intro _ | split

theorem State.injConsume_keeps {s : State} {n i act : Nat} (h : P s) : P (State.injConsume s n i act) := by
  unfold State.injConsume
  with_reducible repeat'
    first
    | assumption | refine ite_keep ?_ ?_ | refine State.bump_keeps C ?_ | refine State.addw_keeps C ?_ | refine State.injDo_keeps C ?_

theorem execInject_keeps {n i : Nat} {s : State} (h : P s) : NextHas P (execInject n i s) := by
  unfold execInject
  refine next_keep ?_
  with_reducible repeat' first | assumption | refine State.injConsume_keeps C ?_

theorem execInjSend_keeps {n i : Nat} {s : State} (h : P s) : NextHas P (execInjSend n i s) := by
  unfold execInjSend
  refine next_keep ?_
  with_reducible repeat' first | assumption | refine State.injConsume_keeps C ?_

theorem execInjFree_keeps {n i : Nat} {s : State} (h : P s) : NextHas P (execInjFree n i s) := by
  unfold execInjFree
  refine next_keep ?_
  with_reducible repeat' first | assumption | refine State.injConsume_keeps C ?_

theorem execScanDone_keeps {n i : Nat} {s : State} (h : P s) : NextHas P (execScanDone n i s) := by
  unfold execScanDone
  refine next_keep ?_
  with_reducible repeat' first | assumption | refine State.injConsume_keeps C ?_

theorem execCoreRun_keeps {n i : Nat} {s : State} (h : P s) : NextHas P (execCoreRun n i s) := by
  unfold execCoreRun
  refine next_keep ?_
  with_reducible repeat' first | assumption | refine ite_keep ?_ ?_ | refine C.set ?_

theorem execHaltReq_keeps {n i : Nat} {s : State} (h : P s) : NextHas P (execHaltReq n i s) := by
  unfold execHaltReq
  refine next_keep ?_
  with_reducible repeat' first | assumption | refine ite_keep ?_ ?_ | refine C.set ?_

theorem execCoreHalted_keeps {n i : Nat} {s : State} (h : P s) : NextHas P (execCoreHalted n i s) := by
  unfold execCoreHalted
  refine next_keep ?_
  with_reducible repeat' first | assumption | refine ite_keep ?_ ?_ | refine C.set ?_

theorem execCoreReset_keeps {n i : Nat} {s : State} (h : P s) : NextHas P (execCoreReset n i s) := by
  unfold execCoreReset
  refine next_keep ?_
  with_reducible repeat' first | assumption | refine ite_keep ?_ ?_ | refine C.set ?_ | refine State.hartClear_keeps C ?_

theorem execTimerInterrupt_keeps {x0 k v : Nat} {s : State} (h : P s) : NextHas P (execTimerInterrupt x0 k v s) := by
  unfold execTimerInterrupt
  refine next_keep ?_
  with_reducible repeat'
    first
    | assumption | refine ite_keep ?_ ?_ | refine C.set ?_ | refine State.timerTest_keeps C ?_ | refine State.advanceTo_keeps C ?_

end Sys2Proof.Machine
end

