-- ==== Sys2Proof/Laws/KeepDevice.lean ====
section
/-! SUPPORT. What every primitive operation keeps, the operations of the rest of the device keep: one lemma for each. -/

namespace Sys2Proof.Machine

variable {P : State → Prop} (C : Closed P)
include C

theorem State.noteHeld_keeps {s : State} (h : P s) : P (State.noteHeld s) := by
  unfold State.noteHeld
  with_reducible repeat' first | assumption | refine each_keep ?_ ?_ | refine C.set ?_ | intro _

theorem State.setLink_keeps {s : State} {a b st : Nat} (h : P s) : P (State.setLink s a b st) := by
  unfold State.setLink
  with_reducible repeat' first | assumption | refine ite_keep ?_ ?_ | refine C.set ?_

theorem State.linkFail_keeps {s : State} {a b : Nat} (h : P s) : P (State.linkFail s a b) := by
  unfold State.linkFail
  with_reducible repeat' first | assumption | refine ite_keep ?_ ?_ | refine State.setLink_keeps C ?_ | refine State.report_keeps C ?_

theorem State.toSpare_keeps {s : State} {a b g : Nat} (h : P s) : P (State.toSpare s a b g) := by
  unfold State.toSpare
  with_reducible repeat' first | assumption | refine State.report_keeps C ?_ | refine State.setLink_keeps C ?_ | refine C.set ?_

theorem execPeingCorrectableError_keeps {a b g : Nat} {s : State} (h : P s) : NextHas P (execPeingCorrectableError a b g s) := by
  unfold execPeingCorrectableError
  refine next_keep ?_
  with_reducible repeat'
    first
    | assumption | refine ite_keep ?_ ?_ | refine State.bump_keeps C ?_ | refine C.lset ?_ | refine State.toSpare_keeps C ?_
    | refine State.report_keeps C ?_

theorem execPeingWireFault_keeps {a b g : Nat} {s : State} (h : P s) : NextHas P (execPeingWireFault a b g s) := by
  unfold execPeingWireFault
  refine next_keep ?_
  with_reducible repeat' first | assumption | refine ite_keep ?_ ?_ | refine State.toSpare_keeps C ?_ | refine State.linkFail_keeps C ?_

theorem State.spareCell_keeps {s : State} {n b c : Nat} {uncorrectable : Bool} {x5 : Nat} (h : P s) :
    P (State.spareCell s n b c uncorrectable x5) := by
  unfold State.spareCell
  with_reducible repeat'
    first
    | assumption | refine ite_keep ?_ ?_ | refine C.set ?_ | refine State.report_keeps C ?_ | refine State.dropPkt_keeps C ?_

theorem State.cellFault_keeps {s : State} {n b c : Nat} {uncorrectable : Bool} {fresh : Bool} {x6 : Nat} (h : P s) :
    P (State.cellFault s n b c uncorrectable fresh x6) := by
  unfold State.cellFault
  with_reducible repeat'
    first
    | assumption | refine ite_keep ?_ ?_ | refine State.report_keeps C ?_ | refine C.set ?_ | refine State.spareCell_keeps C ?_
    | refine State.dropPkt_keeps C ?_ | refine State.regionFault_keeps C ?_

theorem execCellFault_keeps {n b c : Nat} {uncorrectable : Bool} {fresh : Bool} {x5 : Nat} {s : State} (h : P s) :
    NextHas P (execCellFault n b c uncorrectable fresh x5 s) := by
  unfold execCellFault
  refine next_keep ?_
  with_reducible repeat' first | assumption | refine State.cellFault_keeps C ?_

theorem State.settleNote_keeps {s : State} (h : P s) : P (State.settleNote s) := by
  unfold State.settleNote
  with_reducible repeat' first | assumption | refine ite_keep ?_ ?_ | refine C.set ?_

theorem execVoltageStep_keeps {k : Nat} {s : State} (h : P s) : NextHas P (execVoltageStep k s) := by
  unfold execVoltageStep
  refine next_keep ?_
  with_reducible repeat'
    first
    | assumption | refine ite_keep ?_ ?_ | refine State.advanceTo_keeps C ?_ | refine State.settleNote_keeps C ?_ | refine C.set ?_

theorem execRegionSpeedMeasure_keeps {n rel tj : Nat} {s : State} (h : P s) : NextHas P (execRegionSpeedMeasure n rel tj s) := by
  unfold execRegionSpeedMeasure
  refine next_keep ?_
  with_reducible repeat' first | assumption | refine ite_keep ?_ ?_ | refine C.set ?_ | refine State.advanceTo_keeps C ?_

theorem State.ageDerive_keeps {s : State} {n : Nat} (h : P s) : P (State.ageDerive s n) := by
  unfold State.ageDerive
  with_reducible repeat' first | assumption | refine ite_keep ?_ ?_ | refine C.set ?_ | refine State.report_keeps C ?_

theorem execChargePost_keeps {n t : Nat} {counts : List Nat} {rx : Bool} {s : State} (h : P s) :
    NextHas P (execChargePost n t counts rx s) := by
  unfold execChargePost
  refine next_keep ?_
  with_reducible repeat'
    first
    | assumption | refine State.charge_keeps C ?_ | refine when_keep ?_ ?_ | refine State.addw_keeps C ?_ | intro _

theorem State.railAsk_keeps {s : State} {k : Nat} (h : P s) : P (State.railAsk s k) := by
  unfold State.railAsk
  with_reducible repeat' first | assumption | refine C.emit ?_ | refine when_keep ?_ ?_ | intro _

theorem execPmbusRead_keeps {good : Nat} {words : List Nat} {s : State} (h : P s) : NextHas P (execPmbusRead good words s) := by
  unfold execPmbusRead
  refine next_keep ?_
  with_reducible repeat'
    first
    | assumption | refine ite_keep ?_ ?_ | refine C.set ?_ | refine each_keep ?_ ?_ | refine State.railAsk_keeps C ?_
    | refine State.bump_keeps C ?_ | refine when_keep ?_ ?_ | intro _

theorem execMeterStale_keeps {k : Nat} {s : State} (h : P s) : NextHas P (execMeterStale k s) := by
  unfold execMeterStale
  refine next_keep ?_
  with_reducible repeat' first | assumption | refine ite_keep ?_ ?_ | refine C.set ?_ | refine State.advanceTo_keeps C ?_

theorem State.grantTo_keeps {s : State} {sc t g : Nat} (h : P s) : P (State.grantTo s sc t g) := by
  unfold State.grantTo
  with_reducible repeat' first | assumption | refine C.set ?_

theorem State.planTick_keeps {s : State} (h : P s) : P (State.planTick s) := by
  unfold State.planTick
  with_reducible repeat' first | assumption | refine State.advanceTo_keeps C ?_

theorem State.planClose_keeps {s : State} {fixed : Nat} (h : P s) : P (State.planClose s fixed) := by
  unfold State.planClose
  with_reducible repeat' first | assumption | refine State.addw_keeps C ?_ | refine C.set ?_

theorem State.planVolts_keeps {s : State} {plans : List Plan} (h : P s) : P (State.planVolts s plans) := by
  unfold State.planVolts
  with_reducible repeat'
    first
    | assumption | refine ite_keep ?_ ?_ | refine each_keep ?_ ?_ | refine C.set ?_ | refine foldl_keep ?_ ?_
    | refine foldl_pair_keep ?_ ?_ | intro _

theorem State.planWide_keeps {s : State} (h : P s) : P (State.planWide s) := by
  unfold State.planWide
  with_reducible repeat' first | assumption | refine ite_keep ?_ ?_ | refine C.set ?_ | refine State.settleNote_keeps C ?_

theorem State.planCredit_keeps {s : State} {d : Nat} {plans : List Plan} (h : P s) : P (State.planCredit s d plans) := by
  unfold State.planCredit
  with_reducible repeat' first | assumption | refine each_keep ?_ ?_ | refine State.grantTo_keeps C ?_ | refine C.set ?_ | intro _

theorem State.planRoll_keeps {s : State} (h : P s) : P (State.planRoll s) := by
  unfold State.planRoll
  with_reducible repeat' first | assumption | refine each_keep ?_ ?_ | refine C.set ?_ | intro _

theorem execPlannerEpoch_keeps {fixed : Nat} {s : State} (h : P s) : NextHas P (execPlannerEpoch fixed s) := by
  unfold execPlannerEpoch
  refine next_keep ?_
  with_reducible repeat'
    first
    | assumption | refine State.planClose_keeps C ?_ | refine State.planTick_keeps C ?_ | refine State.planRoll_keeps C ?_
    | refine State.planCredit_keeps C ?_ | refine State.noteHeld_keeps C ?_ | refine State.planWide_keeps C ?_
    | refine State.planVolts_keeps C ?_

theorem execAgeingMeasure_keeps {n : Nat} {d0 : List Nat} {d : List Nat} {s : State} (h : P s) :
    NextHas P (execAgeingMeasure n d0 d s) := by
  unfold execAgeingMeasure
  refine next_keep ?_
  with_reducible repeat'
    first
    | assumption | refine ite_keep ?_ ?_ | refine C.set ?_ | refine State.advanceTo_keeps C ?_ | refine State.ageDerive_keeps C ?_
    | refine C.lset ?_

theorem execAgeingForcedIdle_keeps {n : Nat} {s : State} (h : P s) : NextHas P (execAgeingForcedIdle n s) := by
  unfold execAgeingForcedIdle
  refine next_keep ?_
  with_reducible repeat' first | assumption | refine State.advanceTo_keeps C ?_ | refine C.set ?_ | refine State.bump_keeps C ?_

theorem State.persist_keeps {s : State} (h : P s) : P (State.persist s) := by
  unfold State.persist
  with_reducible repeat' first | assumption | refine each_keep ?_ ?_ | refine C.set ?_ | intro _

theorem execPersistentStateWrite_keeps {s : State} (h : P s) : NextHas P (execPersistentStateWrite s) := by
  unfold execPersistentStateWrite
  refine next_keep ?_
  with_reducible repeat'
    first
    | assumption | refine ite_keep ?_ ?_ | refine State.advanceTo_keeps C ?_ | refine C.set ?_ | refine State.persist_keeps C ?_
    | refine State.bump_keeps C ?_

theorem execStage_keeps {s : State} (h : P s) : NextHas P (execStage s) := by
  unfold execStage
  refine next_keep ?_
  with_reducible repeat'
    first
    | assumption | refine ite_keep ?_ ?_ | refine State.strCmd_keeps C ?_ ?_ | refine State.strDone_keeps C ?_ | refine C.set ?_
    | refine State.strBusy_keeps C ?_ | intro _

theorem State.stageLoad_keeps {s : State} {act : List Sec} {l : List Sec} {ti : Nat → Nat} (h : P s) :
    P (State.stageLoad s act l ti) := by
  unfold State.stageLoad
  with_reducible repeat'
    first
    | assumption | refine each_keep ?_ ?_ | refine C.set ?_ | refine State.loadCtx_keeps C ?_ | refine State.loadCommon_keeps C ?_
    | refine State.slotShow_keeps C ?_ | refine State.strDone_keeps C ?_ | refine State.bankStat_keeps C ?_ | intro _

theorem execStageComplete_keeps {s : State} (h : P s) : NextHas P (execStageComplete s) := by
  unfold execStageComplete
  refine next_keep ?_
  with_reducible repeat'
    first
    | assumption | refine ite_keep ?_ ?_ | refine C.set ?_ | refine State.strDone_keeps C ?_ | refine State.makeTables_keeps C ?_
    | refine State.stageLoad_keeps C ?_ | intro _ | split | refine some_keep (by assumption) ?_ | dsimp only

theorem execSwap_keeps {mask : Nat} {s : State} (h : P s) : NextHas P (execSwap mask s) := by
  unfold execSwap
  refine next_keep ?_
  with_reducible repeat'
    first
    | assumption | refine ite_keep ?_ ?_ | refine State.strCmd_keeps C ?_ ?_ | refine State.strDone_keeps C ?_ | refine C.set ?_
    | refine State.strBusy_keeps C ?_ | intro _

theorem State.shadowLost_keeps {s : State} {t : Nat} (h : P s) : P (State.shadowLost s t) := by
  unfold State.shadowLost
  with_reducible repeat'
    first
    | assumption | refine ite_keep ?_ ?_ | refine State.exmEvent_keeps C ?_ | refine State.shadowDrop_keeps C ?_ | split

theorem State.commonRun_keeps {s : State} {new : Nat} (h : P s) : P (State.commonRun s new) := by
  unfold State.commonRun
  with_reducible repeat' first | assumption | refine ite_keep ?_ ?_ | refine C.set ?_

theorem State.flipEpochs_keeps {s : State} {mask st : Nat} (h : P s) : P (State.flipEpochs s mask st) := by
  unfold State.flipEpochs
  with_reducible repeat'
    first
    | assumption | refine each_keep ?_ ?_ | refine State.shadowLost_keeps C ?_ | refine C.set ?_ | refine when_keep ?_ ?_
    | refine State.commonRun_keeps C ?_ | refine State.strMasks_keeps C ?_ | refine State.emStat_keeps C ?_ | intro _

theorem State.flipForward_keeps {s : State} (h : P s) : P (State.flipForward s) := by
  unfold State.flipForward
  with_reducible repeat'
    first
    | assumption | refine State.advanceTo_keeps C ?_ | refine State.flipEpochs_keeps C ?_ | refine each_keep ?_ ?_
    | refine when_keep ?_ ?_ | refine State.emFlipStamp_keeps C ?_ | refine State.drainEnd_keeps C ?_ | refine C.set ?_
    | refine State.strDone_keeps C ?_ | intro _ | split

theorem execEpochFlip_keeps {s : State} (h : P s) : NextHas P (execEpochFlip s) := by
  unfold execEpochFlip
  refine next_keep ?_
  with_reducible repeat' first | assumption | refine ite_keep ?_ ?_ | refine State.flipForward_keeps C ?_

theorem execRollback_keeps {mask : Nat} {s : State} (h : P s) : NextHas P (execRollback mask s) := by
  unfold execRollback
  refine next_keep ?_
  with_reducible repeat'
    first
    | assumption | refine ite_keep ?_ ?_ | refine State.strCmd_keeps C ?_ ?_ | refine State.strDone_keeps C ?_ | refine C.set ?_
    | refine State.strBusy_keeps C ?_ | intro _

theorem State.flipBack_keeps {s : State} (h : P s) : P (State.flipBack s) := by
  unfold State.flipBack
  with_reducible repeat'
    first
    | assumption | refine State.flipEpochs_keeps C ?_ | refine State.advanceTo_keeps C ?_ | refine each_keep ?_ ?_
    | refine when_keep ?_ ?_ | refine State.drainEnd_keeps C ?_ | refine C.set ?_ | refine State.strDone_keeps C ?_ | intro _

theorem execEpochFlipBack_keeps {s : State} (h : P s) : NextHas P (execEpochFlipBack s) := by
  unfold execEpochFlipBack
  refine next_keep ?_
  with_reducible repeat' first | assumption | refine ite_keep ?_ ?_ | refine State.flipBack_keeps C ?_

theorem State.commitEnd_keeps {s : State} {mask : Nat} (h : P s) : P (State.commitEnd s mask) := by
  unfold State.commitEnd
  with_reducible repeat'
    first
    | assumption | refine each_keep ?_ ?_ | refine State.wdogStop_keeps C ?_ | refine C.set ?_ | refine State.clearCtx_keeps C ?_
    | refine when_keep ?_ ?_ | refine State.commonRun_keeps C ?_ | refine State.slotShow_keeps C ?_ | refine State.strDone_keeps C ?_
    | refine State.dirWrite_keeps C ?_ | refine State.strMasks_keeps C ?_ | refine State.bankStat_keeps C ?_
    | refine State.freeUnused_keeps C ?_ | intro _

theorem execCommit_keeps {s : State} (h : P s) : NextHas P (execCommit s) := by
  unfold execCommit
  refine next_keep ?_
  with_reducible repeat'
    first
    | assumption | refine ite_keep ?_ ?_ | refine State.strCmd_keeps C ?_ ?_ | refine State.strDone_keeps C ?_
    | refine State.commitEnd_keeps C ?_ | intro _

theorem State.abortEnd_keeps {s : State} (h : P s) : P (State.abortEnd s) := by
  unfold State.abortEnd
  with_reducible repeat'
    first
    | assumption | refine each_keep ?_ ?_ | refine C.set ?_ | refine State.clearCtx_keeps C ?_ | refine State.wdogStop_keeps C ?_
    | refine State.commonRun_keeps C ?_ | refine State.strDone_keeps C ?_ | refine State.bankStat_keeps C ?_
    | refine State.freeUnused_keeps C ?_ | intro _

theorem execStrAbort_keeps {s : State} (h : P s) : NextHas P (execStrAbort s) := by
  unfold execStrAbort
  refine next_keep ?_
  with_reducible repeat'
    first
    | assumption | refine ite_keep ?_ ?_ | refine State.strCmd_keeps C ?_ ?_ | refine State.strDone_keeps C ?_
    | refine State.abortEnd_keeps C ?_ | intro _

theorem execColdApply_keeps {slot : Nat} {s : State} (h : P s) : NextHas P (execColdApply slot s) := by
  unfold execColdApply
  refine next_keep ?_
  with_reducible repeat'
    first
    | assumption | refine ite_keep ?_ ?_ | refine State.strCmd_keeps C ?_ ?_ | refine State.strDone_keeps C ?_ | refine C.set ?_
    | refine State.strBusy_keeps C ?_ | refine each_keep ?_ ?_ | intro _

theorem State.topoDiscard_keeps {s : State} (h : P s) : P (State.topoDiscard s) := by
  unfold State.topoDiscard
  with_reducible repeat' first | assumption | refine each_keep ?_ ?_ | refine State.queueDiscard_keeps C ?_ | intro _

theorem State.coldLoad_keeps {s1 : State} {act : List Sec} {l : List Sec} {ti : Nat → Nat} {k : Nat} (h : P s1) :
    P (State.coldLoad s1 act l ti k) := by
  unfold State.coldLoad
  with_reducible repeat'
    first
    | assumption | refine ite_keep ?_ ?_ | refine each_keep ?_ ?_ | refine State.shadowLost_keeps C ?_ | refine State.loadCtx_keeps C ?_
    | refine C.set ?_ | refine State.loadCommon_keeps C ?_ | refine State.loadTopo_keeps C ?_ | refine State.topoDiscard_keeps C ?_
    | refine State.bucketsFull_keeps C ?_ | refine State.freeUnused_keeps C ?_ | refine State.emStat_keeps C ?_ | refine when_keep ?_ ?_
    | refine State.emFlipStamp_keeps C ?_ | refine State.slotShow_keeps C ?_ | refine State.wdogStop_keeps C ?_
    | refine State.strDone_keeps C ?_ | refine State.dirWrite_keeps C ?_ | refine State.bankStat_keeps C ?_ | intro _ | split

theorem execColdApplyLoad_keeps {s : State} (h : P s) : NextHas P (execColdApplyLoad s) := by
  unfold execColdApplyLoad
  refine next_keep ?_
  with_reducible repeat'
    first
    | assumption | refine ite_keep ?_ ?_ | refine C.set ?_ | refine State.strDone_keeps C ?_ | refine State.makeTables_keeps C ?_
    | refine State.coldLoad_keeps C ?_ | intro _ | split | refine some_keep (by assumption) ?_ | dsimp only

theorem execRegionDrained_keeps {n : Nat} {s : State} (h : P s) : NextHas P (execRegionDrained n s) := by
  unfold execRegionDrained
  refine next_keep ?_
  with_reducible repeat' first | assumption | refine ite_keep ?_ ?_ | refine State.drainEnd_keeps C ?_

theorem execDrainLimitExpiry_keeps {n : Nat} {s : State} (h : P s) : NextHas P (execDrainLimitExpiry n s) := by
  unfold execDrainLimitExpiry
  refine next_keep ?_
  with_reducible repeat'
    first
    | assumption | refine ite_keep ?_ ?_ | refine State.bump_keeps C ?_ | refine State.advanceTo_keeps C ?_
    | refine State.dropEpoch_keeps C ?_ ?_ | refine when_keep ?_ ?_ | refine C.set ?_ | refine State.drainEnd_keeps C ?_ | intro _

theorem execDrainBackRewriteDone_keeps {n : Nat} {s : State} (h : P s) : NextHas P (execDrainBackRewriteDone n s) := by
  unfold execDrainBackRewriteDone
  refine next_keep ?_
  with_reducible repeat'
    first
    | assumption | refine ite_keep ?_ ?_ | refine each_keep ?_ ?_ | refine State.instInit_keeps C ?_ | refine State.strMasks_keeps C ?_
    | refine C.set ?_ | intro _ | split | refine some_keep (by assumption) ?_

theorem execCommitWatchdogExpiry_keeps {s : State} (h : P s) : NextHas P (execCommitWatchdogExpiry s) := by
  unfold execCommitWatchdogExpiry
  refine next_keep ?_
  with_reducible repeat'
    first
    | assumption | refine ite_keep ?_ ?_ | refine State.advanceTo_keeps C ?_ | refine C.set ?_ | refine State.wdogStop_keeps C ?_
    | refine State.strBusy_keeps C ?_

theorem State.porReset_keeps {s : State} {vaux : Bool} (h : P s) : P (State.porReset s vaux) := by
  unfold State.porReset
  with_reducible repeat'
    first
    | assumption | refine ite_keep ?_ ?_ | refine State.setb_keeps C ?_ | refine each_keep ?_ ?_ | refine when_keep ?_ ?_ | intro _
    | exact C.restart h

theorem State.imgShow_keeps {s : State} {k : Nat} {man : List Nat} {r : Nat × Nat} (h : P s) : P (State.imgShow s k man r) := by
  unfold State.imgShow
  with_reducible repeat' first | assumption | refine ite_keep ?_ ?_ | refine C.set ?_

theorem State.slotErase_keeps {s : State} {kind j : Nat} (h : P s) : P (State.slotErase s kind j) := by
  unfold State.slotErase
  with_reducible repeat'
    first
    | assumption | refine ite_keep ?_ ?_ | refine State.mzero_keeps C ?_ | refine C.lset ?_ | refine State.imgShow_keeps C ?_

theorem State.rcvCut_keeps {s : State} (h : P s) : P (State.rcvCut s) := by
  unfold State.rcvCut
  with_reducible repeat' first | assumption | refine ite_keep ?_ ?_ | refine C.set ?_ | refine State.slotErase_keeps C ?_

theorem State.slotSelect_keeps {s : State} {kind bad : Nat} (h : P s) : P (State.slotSelect s kind bad).1 := by
  unfold State.slotSelect
  with_reducible repeat' first | assumption | refine ite_keep ?_ ?_ | refine State.imgShow_keeps C ?_ | intro _ | split | dsimp only

theorem State.spdmEnd_keeps {s : State} (h : P s) : P (State.spdmEnd s) := by
  unfold State.spdmEnd
  with_reducible repeat' first | assumption | refine each_keep ?_ ?_ | refine C.lset ?_ | refine C.set ?_ | intro _

theorem State.logResume_keeps {s : State} (h : P s) : P (State.logResume s) := by
  unfold State.logResume
  with_reducible repeat' first | assumption | refine ite_keep ?_ ?_ | refine C.set ?_ | refine C.lset ?_ | split | dsimp only

theorem State.cfgReady_keeps {s : State} (h : P s) : P (State.cfgReady s) := by
  unfold State.cfgReady
  with_reducible repeat'
    first
    | assumption | refine ite_keep ?_ ?_ | refine each_keep ?_ ?_ | refine State.readiness_keeps C ?_ | refine C.set ?_ | intro _

theorem State.enterRecovery_keeps {s : State} (h : P s) : P (State.enterRecovery s) := by
  unfold State.enterRecovery
  with_reducible repeat'
    first
    | assumption | refine ite_keep ?_ ?_ | refine State.cfgReady_keeps C ?_ | refine C.set ?_ | refine each_keep ?_ ?_
    | refine State.macDiscard_keeps C ?_ | refine State.leaveUp_keeps C ?_ | refine State.portDiscardAll_keeps C ?_
    | refine State.evidence_keeps C ?_ | refine State.startHold_keeps C ?_ | refine State.enterDisc_keeps C ?_
    | refine State.predictFreq_keeps C ?_ | refine State.deselect_keeps C ?_ | refine State.growHold_keeps C ?_ | intro _

theorem State.mgtHold_keeps {s : State} (h : P s) : P (State.mgtHold s) := by
  unfold State.mgtHold
  with_reducible repeat' first | assumption | refine each_keep ?_ ?_ | refine C.set ?_ | intro _

theorem State.s2Run_keeps {s : State} {j : Nat} (h : P s) : P (State.s2Run s j) := by
  unfold State.s2Run
  with_reducible repeat'
    first
    | assumption | refine C.set ?_ | refine C.lset ?_ | refine when_keep ?_ ?_ | refine State.issueAmber_keeps C ?_
    | refine State.logResume_keeps C ?_ | refine each_keep ?_ ?_ | intro _

theorem State.s2Boot_keeps {s : State} (h : P s) : P (State.s2Boot s) := by
  unfold State.s2Boot
  with_reducible repeat'
    first
    | assumption | refine State.slotSelect_keeps C ?_ | refine State.s2Run_keeps C ?_ | refine when_keep ?_ ?_ | refine C.set ?_
    | refine State.enterRecovery_keeps C ?_ | intro _ | split | refine pair_keep (by assumption) ?_

theorem State.stage0_keeps {s : State} (h : P s) : P (State.stage0 s) := by
  unfold State.stage0
  with_reducible repeat'
    first
    | assumption | refine ite_keep ?_ ?_ | refine when_keep ?_ ?_ | refine State.bump_keeps C ?_ | refine C.set ?_
    | refine State.freeBytes_keeps C ?_ | refine C.drew ?_ | refine C.lset ?_ | refine State.slotSelect_keeps C ?_
    | refine State.enterRecovery_keeps C ?_ | refine each_keep ?_ ?_ | refine State.ageDerive_keeps C ?_ | intro _ | split
    | refine pair_keep (by assumption) ?_ | dsimp only

theorem State.stage0Go_keeps {s : State} (h : P s) : P (State.stage0Go s) := by
  unfold State.stage0Go
  with_reducible repeat' first | assumption | refine ite_keep ?_ ?_ | refine State.stage0_keeps C ?_ | refine C.set ?_

theorem State.porRelease_keeps {s : State} {clk : Bool} (h : P s) : P (State.porRelease s clk) := by
  unfold State.porRelease
  with_reducible repeat'
    first
    | assumption | refine C.set ?_ | refine each_keep ?_ ?_ | refine C.drew ?_ | refine when_keep ?_ ?_ | refine State.setb_keeps C ?_
    | refine State.stage0Go_keeps C ?_ | intro _

theorem State.deviceReset_keeps {s : State} (h : P s) : P (State.deviceReset s) := by
  unfold State.deviceReset
  with_reducible repeat'
    first
    | assumption | refine State.porRelease_keeps C ?_ | refine State.porReset_keeps C ?_ | refine State.linkDown_keeps C ?_

theorem State.bootLoad_keeps {s : State} {k : Nat} (h : P s) : SomeHas P (State.bootLoad s k) := by
  unfold State.bootLoad
  with_reducible repeat'
    first
    | assumption | refine State.makeTables_keeps C ?_ | refine each_keep ?_ ?_ | refine State.loadCtx_keeps C ?_
    | refine State.loadTopo_keeps C ?_ | refine State.loadCommon_keeps C ?_ | refine State.freeUnused_keeps C ?_
    | refine State.emStat_keeps C ?_ | refine when_keep ?_ ?_ | refine State.emFlipStamp_keeps C ?_ | refine C.set ?_
    | refine State.bankStat_keeps C ?_ | intro _ | split | refine some_keep (by assumption) ?_ | exact someHas_none
    | refine someHas_some ?_ | dsimp only

theorem State.pf3Check_keeps {s : State} (h : P s) : P (State.pf3Check s) := by
  unfold State.pf3Check
  with_reducible repeat' first | assumption | refine each_keep ?_ ?_ | refine C.set ?_ | intro _

theorem execStage1Boot_keeps {s : State} (h : P s) : NextHas P (execStage1Boot s) := by
  unfold execStage1Boot
  refine next_keep ?_
  with_reducible repeat'
    first
    | assumption | refine ite_keep ?_ ?_ | refine State.dirRead_keeps C ?_ | refine each_keep ?_ ?_ | refine C.set ?_
    | refine State.s2Boot_keeps C ?_ | refine State.cfgReady_keeps C ?_ | intro _

theorem execHbmTrained_keeps {k : Nat} {s : State} (h : P s) : NextHas P (execHbmTrained k s) := by
  unfold execHbmTrained
  refine next_keep ?_
  with_reducible repeat' first | assumption | refine ite_keep ?_ ?_ | refine C.set ?_

theorem execStructureImageApplied_keeps {s : State} (h : P s) : NextHas P (execStructureImageApplied s) := by
  unfold execStructureImageApplied
  refine next_keep ?_
  with_reducible repeat'
    first
    | assumption | refine ite_keep ?_ ?_ | refine State.bootLoad_keeps C ?_ | refine State.pf3Check_keeps C ?_
    | refine State.slotShow_keeps C ?_ | refine C.set ?_ | refine State.dirWrite_keeps C ?_ | intro _ | split
    | refine some_keep (by assumption) ?_

theorem execFwAlive_keeps {x0 : Nat} {s : State} (h : P s) : NextHas P (execFwAlive x0 s) := by
  unfold execFwAlive
  refine next_keep ?_
  with_reducible repeat' first | assumption | refine ite_keep ?_ ?_ | refine C.set ?_

theorem execDeviceReady_keeps {s : State} (h : P s) : NextHas P (execDeviceReady s) := by
  unfold execDeviceReady
  refine next_keep ?_
  with_reducible repeat'
    first
    | assumption | refine ite_keep ?_ ?_ | refine C.set ?_ | refine each_keep ?_ ?_ | refine State.ctrlReady_keeps C ?_ | intro _

theorem execStage2Watchdog_keeps {s : State} (h : P s) : NextHas P (execStage2Watchdog s) := by
  unfold execStage2Watchdog
  refine next_keep ?_
  with_reducible repeat'
    first
    | assumption | refine ite_keep ?_ ?_ | refine State.mgtHold_keeps C ?_ | refine State.advanceTo_keeps C ?_
    | refine State.setb_keeps C ?_ | refine C.set ?_ | refine State.s2Boot_keeps C ?_

theorem execBootArb_keeps {v : Nat} {s : State} (h : P s) : NextHas P (execBootArb v s) := by
  unfold execBootArb
  refine next_keep ?_
  with_reducible repeat' first | assumption | refine ite_keep ?_ ?_ | refine C.set ?_

theorem execArbProgramDone_keeps {s : State} (h : P s) : NextHas P (execArbProgramDone s) := by
  unfold execArbProgramDone
  refine next_keep ?_
  with_reducible repeat' first | assumption | refine ite_keep ?_ ?_ | refine C.set ?_

theorem State.rcvRes_keeps {s : State} {r : Nat} (h : P s) : P (State.rcvRes s r) := by
  unfold State.rcvRes
  with_reducible repeat' first | assumption | refine C.set ?_

theorem execRecoveryBegin_keeps {kind : Nat} {s : State} (h : P s) : NextHas P (execRecoveryBegin kind s) := by
  unfold execRecoveryBegin
  refine next_keep ?_
  with_reducible repeat'
    first
    | assumption | refine ite_keep ?_ ?_ | refine State.rcvRes_keeps C ?_ | refine C.set ?_ | refine State.slotErase_keeps C ?_ | split

theorem execRecoveryChunk_keeps {s : State} (h : P s) : NextHas P (execRecoveryChunk s) := by
  unfold execRecoveryChunk
  refine next_keep ?_
  with_reducible repeat'
    first
    | assumption | refine ite_keep ?_ ?_ | refine State.rcvRes_keeps C ?_ | refine State.mwrite_keeps C ?_ | refine C.lset ?_
    | refine C.set ?_

theorem execRecoveryFinish_keeps {s : State} (h : P s) : NextHas P (execRecoveryFinish s) := by
  unfold execRecoveryFinish
  refine next_keep ?_
  with_reducible repeat'
    first
    | assumption | refine ite_keep ?_ ?_ | refine State.rcvRes_keeps C ?_ | refine State.imgShow_keeps C ?_ | refine C.set ?_
    | refine State.deviceReset_keeps C ?_ | refine State.s2Boot_keeps C ?_ | refine State.setb_keeps C ?_

theorem execRecoveryAbort_keeps {s : State} (h : P s) : NextHas P (execRecoveryAbort s) := by
  unfold execRecoveryAbort
  refine next_keep ?_
  with_reducible repeat'
    first
    | assumption | refine ite_keep ?_ ?_ | refine State.rcvRes_keeps C ?_ | refine C.set ?_ | refine State.slotErase_keeps C ?_

theorem execPldmUpdate_keeps {comp : Nat} {image : List Nat} {s : State} (h : P s) : NextHas P (execPldmUpdate comp image s) := by
  unfold execPldmUpdate
  refine next_keep ?_
  with_reducible repeat'
    first
    | assumption | refine ite_keep ?_ ?_ | refine C.answer ?_ | refine State.imgShow_keeps C ?_ | refine State.mwrite_keeps C ?_
    | refine State.mzero_keeps C ?_ | refine C.lset ?_ | refine C.set ?_ | refine State.slotShow_keeps C ?_ | split

theorem execFirmwareImageDownload_keeps {id : Nat} {s : State} (h : P s) : NextHas P (execFirmwareImageDownload id s) := by
  unfold execFirmwareImageDownload
  refine next_keep ?_
  with_reducible repeat'
    first
    | assumption | refine ite_keep ?_ ?_ | refine State.adminRun_keeps C ?_ ?_ | refine State.cmdOver_keeps C ?_
    | refine State.dptrStart_keeps C ?_ | intro _

theorem execFirmwareCommit_keeps {id : Nat} {s : State} (h : P s) : NextHas P (execFirmwareCommit id s) := by
  unfold execFirmwareCommit
  refine next_keep ?_
  with_reducible repeat'
    first
    | assumption | refine ite_keep ?_ ?_ | refine State.adminRun_keeps C ?_ ?_ | refine State.cmdOver_keeps C ?_ | refine C.lset ?_
    | refine State.imgShow_keeps C ?_ | refine C.set ?_ | intro _

theorem State.actEnd_keeps {s : State} {status : Nat} (h : P s) : P (State.actEnd s status) := by
  unfold State.actEnd
  with_reducible repeat' first | assumption | refine ite_keep ?_ ?_ | refine C.set ?_ | refine State.cmdOver_keeps C ?_

theorem execActivationDrainDone_keeps {s : State} (h : P s) : NextHas P (execActivationDrainDone s) := by
  unfold execActivationDrainDone
  refine next_keep ?_
  with_reducible repeat'
    first
    | assumption | refine ite_keep ?_ ?_ | refine C.lset ?_ | refine C.set ?_ | refine State.actEnd_keeps C ?_
    | refine State.spdmEnd_keeps C ?_

theorem execActivationDrainTimeout_keeps {s : State} (h : P s) : NextHas P (execActivationDrainTimeout s) := by
  unfold execActivationDrainTimeout
  refine next_keep ?_
  with_reducible repeat' first | assumption | refine ite_keep ?_ ?_ | refine State.actEnd_keeps C ?_ | refine State.advanceTo_keeps C ?_

theorem State.onxNonce_keeps {s : State} (h : P s) : P (State.onxNonce s) := by
  unfold State.onxNonce
  with_reducible repeat' first | assumption | refine each_keep ?_ ?_ | refine C.drew ?_ | refine C.set ?_ | intro _

theorem State.onxEnd_keeps {s : State} {r : Nat} (h : P s) : P (State.onxEnd s r) := by
  unfold State.onxEnd
  with_reducible repeat' first | assumption | refine State.onxNonce_keeps C ?_ | refine C.lset ?_ | refine C.set ?_

theorem State.doUnlock_keeps {s : State} (h : P s) : P (State.doUnlock s) := by
  unfold State.doUnlock
  with_reducible repeat' first | assumption | refine State.onxEnd_keeps C ?_ | refine State.spdmEnd_keeps C ?_ | refine C.set ?_

theorem State.doRevoke_keeps {s : State} {k : Nat} (h : P s) : P (State.doRevoke s k) := by
  unfold State.doRevoke
  with_reducible repeat' first | assumption | refine ite_keep ?_ ?_ | refine State.onxEnd_keeps C ?_ | refine C.set ?_

theorem State.doTransfer_keeps {s : State} {x1 : List Nat} (h : P s) : P (State.doTransfer s x1) := by
  unfold State.doTransfer
  with_reducible repeat' first | assumption | refine ite_keep ?_ ?_ | refine State.onxEnd_keeps C ?_ | refine C.set ?_ | refine C.lset ?_

theorem State.doProvision_keeps {s : State} {k : Nat} {x2 : List Nat} (h : P s) : P (State.doProvision s k x2) := by
  unfold State.doProvision
  with_reducible repeat' first | assumption | refine ite_keep ?_ ?_ | refine State.onxEnd_keeps C ?_ | refine C.set ?_ | refine C.lset ?_

theorem State.doZeroise_keeps {s : State} {t : Nat} (h : P s) : P (State.doZeroise s t) := by
  unfold State.doZeroise
  with_reducible repeat' first | assumption | refine State.onxEnd_keeps C ?_ | refine State.keyZeroise_keeps C ?_

theorem State.onxRun_keeps {s : State} {b : List Nat} (h : P s) : P (State.onxRun s b) := by
  unfold State.onxRun
  with_reducible repeat'
    first
    | assumption | refine ite_keep ?_ ?_ | refine C.set ?_ | refine State.doUnlock_keeps C ?_ | refine State.doZeroise_keeps C ?_
    | refine State.doRevoke_keeps C ?_ | refine State.doTransfer_keeps C ?_ | refine State.doProvision_keeps C ?_ | split

theorem execOnyxSubmit_keeps {s : State} (h : P s) : NextHas P (execOnyxSubmit s) := by
  unfold execOnyxSubmit
  refine next_keep ?_
  with_reducible repeat'
    first
    | assumption | refine ite_keep ?_ ?_ | refine C.set ?_ | refine State.onxRun_keeps C ?_ | refine C.lset ?_
    | refine State.onxEnd_keeps C ?_ | split | dsimp only

theorem execOnyxCancel_keeps {s : State} (h : P s) : NextHas P (execOnyxCancel s) := by
  unfold execOnyxCancel
  refine next_keep ?_
  with_reducible repeat' first | assumption | refine ite_keep ?_ ?_ | refine State.onxEnd_keeps C ?_

theorem execPresenceEvent_keeps {jumper : Bool} {button : Bool} {press : Bool} {s : State} (h : P s) :
    NextHas P (execPresenceEvent jumper button press s) := by
  unfold execPresenceEvent
  refine next_keep ?_
  with_reducible repeat' first | assumption | refine ite_keep ?_ ?_ | refine C.set ?_ | refine State.onxRun_keeps C ?_

theorem execOnyxWindowExpiry_keeps {s : State} (h : P s) : NextHas P (execOnyxWindowExpiry s) := by
  unfold execOnyxWindowExpiry
  refine next_keep ?_
  with_reducible repeat' first | assumption | refine ite_keep ?_ ?_ | refine State.onxEnd_keeps C ?_ | refine State.advanceTo_keeps C ?_

theorem State.onxStep_keeps {s : State} {c a : Nat} (h : P s) : P (State.onxStep s c a) := by
  unfold State.onxStep
  with_reducible repeat' first | assumption | refine ite_keep ?_ ?_ | refine State.onxRun_keeps C ?_

theorem execDebugUnlock_keeps {s : State} (h : P s) : NextHas P (execDebugUnlock s) := by
  unfold execDebugUnlock
  refine next_keep ?_
  with_reducible repeat' first | assumption | refine State.onxStep_keeps C ?_

theorem execRevokeKey_keeps {k : Nat} {s : State} (h : P s) : NextHas P (execRevokeKey k s) := by
  unfold execRevokeKey
  refine next_keep ?_
  with_reducible repeat' first | assumption | refine State.onxStep_keeps C ?_

theorem execTransferOwner_keeps {s : State} (h : P s) : NextHas P (execTransferOwner s) := by
  unfold execTransferOwner
  refine next_keep ?_
  with_reducible repeat' first | assumption | refine State.onxStep_keeps C ?_

theorem execFuseProvision_keeps {k : Nat} {s : State} (h : P s) : NextHas P (execFuseProvision k s) := by
  unfold execFuseProvision
  refine next_keep ?_
  with_reducible repeat' first | assumption | refine State.onxStep_keeps C ?_

theorem execOnyxZeroiseTenant_keeps {t : Nat} {s : State} (h : P s) : NextHas P (execOnyxZeroiseTenant t s) := by
  unfold execOnyxZeroiseTenant
  refine next_keep ?_
  with_reducible repeat' first | assumption | refine State.onxStep_keeps C ?_

theorem execSealBreak_keeps {s : State} (h : P s) : NextHas P (execSealBreak s) := by
  unfold execSealBreak
  refine next_keep ?_
  with_reducible repeat' first | assumption | refine ite_keep ?_ ?_ | refine C.set ?_

theorem State.cellBegin_keeps {s : State} {cell x2 : Nat} (h : P s) : P (State.cellBegin s cell x2) := by
  unfold State.cellBegin
  with_reducible repeat' first | assumption | refine ite_keep ?_ ?_ | refine C.set ?_

theorem State.cellPut_keeps {s : State} {cell x2 b w v : Nat} (h : P s) : P (State.cellPut s cell x2 b w v) := by
  unfold State.cellPut
  with_reducible repeat' first | assumption | refine ite_keep ?_ ?_ | refine C.set ?_ | refine State.putOperand_keeps C ?_

theorem State.cellEnd_keeps {s : State} {cell x2 k : Nat} (h : P s) : P (State.cellEnd s cell x2 k) := by
  unfold State.cellEnd
  with_reducible repeat'
    first
    | assumption | refine ite_keep ?_ ?_ | refine C.set ?_ | refine State.setb_keeps C ?_ | refine State.stageNext_keeps C ?_

theorem State.cellStep_keeps {s : State} {cell x2 k w : Nat} (h : P s) : P (State.cellStep s cell x2 k w) := by
  unfold State.cellStep
  with_reducible repeat' first | assumption | refine ite_keep ?_ ?_ | refine State.cellEnd_keeps C ?_ | refine C.set ?_

theorem State.cellDo_keeps {s : State} {n cell x3 op : Nat} {f : Nat → State → State} (h : P s) (hf : ∀ a0 a1, P a1 → P (f a0 a1)) :
    P (State.cellDo s n cell x3 op f) := by
  unfold State.cellDo
  with_reducible repeat'
    first
    | assumption | refine hf _ _ ?_ | refine ite_keep ?_ ?_ | refine State.cellBegin_keeps C ?_ | refine State.cellStep_keeps C ?_ | split

theorem State.opDrawn_keeps {s : State} {w : Nat} (h : P s) : P (State.opDrawn s w) := by
  unfold State.opDrawn
  with_reducible repeat' first | assumption | refine ite_keep ?_ ?_ | refine State.operandDrawn_keeps C ?_

theorem State.alu_keeps {s : State} {n cell x3 op : Nat} {f : Nat → Nat → Nat → Nat} (h : P s) : P (State.alu s n cell x3 op f) := by
  unfold State.alu
  with_reducible repeat'
    first
    | assumption | refine State.cellDo_keeps C ?_ ?_ | refine State.opDrawn_keeps C ?_ | refine State.cellPut_keeps C ?_ | intro _

theorem execNop_keeps {n cell x2 : Nat} {s : State} (h : P s) : NextHas P (execNop n cell x2 s) := by
  unfold execNop
  refine next_keep ?_
  with_reducible repeat' first | assumption | refine State.cellDo_keeps C ?_ ?_ | intro _

theorem execMov_keeps {n cell x2 : Nat} {s : State} (h : P s) : NextHas P (execMov n cell x2 s) := by
  unfold execMov
  refine next_keep ?_
  with_reducible repeat' first | assumption | refine State.alu_keeps C ?_

theorem execAdd_keeps {n cell x2 : Nat} {s : State} (h : P s) : NextHas P (execAdd n cell x2 s) := by
  unfold execAdd
  refine next_keep ?_
  with_reducible repeat' first | assumption | refine State.alu_keeps C ?_

theorem execSub_keeps {n cell x2 : Nat} {s : State} (h : P s) : NextHas P (execSub n cell x2 s) := by
  unfold execSub
  refine next_keep ?_
  with_reducible repeat' first | assumption | refine State.alu_keeps C ?_

theorem execAnd_keeps {n cell x2 : Nat} {s : State} (h : P s) : NextHas P (execAnd n cell x2 s) := by
  unfold execAnd
  refine next_keep ?_
  with_reducible repeat' first | assumption | refine State.alu_keeps C ?_

theorem execOr_keeps {n cell x2 : Nat} {s : State} (h : P s) : NextHas P (execOr n cell x2 s) := by
  unfold execOr
  refine next_keep ?_
  with_reducible repeat' first | assumption | refine State.alu_keeps C ?_

theorem execXor_keeps {n cell x2 : Nat} {s : State} (h : P s) : NextHas P (execXor n cell x2 s) := by
  unfold execXor
  refine next_keep ?_
  with_reducible repeat' first | assumption | refine State.alu_keeps C ?_

theorem execShl_keeps {n cell x2 : Nat} {s : State} (h : P s) : NextHas P (execShl n cell x2 s) := by
  unfold execShl
  refine next_keep ?_
  with_reducible repeat' first | assumption | refine State.alu_keeps C ?_

theorem execShr_keeps {n cell x2 : Nat} {s : State} (h : P s) : NextHas P (execShr n cell x2 s) := by
  unfold execShr
  refine next_keep ?_
  with_reducible repeat' first | assumption | refine State.alu_keeps C ?_

theorem State.cmp_keeps {s : State} {n cell x3 op : Nat} {f : Nat → Nat → Bool} (h : P s) : P (State.cmp s n cell x3 op f) := by
  unfold State.cmp
  with_reducible repeat'
    first
    | assumption | refine State.cellDo_keeps C ?_ ?_ | refine State.opDrawn_keeps C ?_ | refine State.setb_keeps C ?_ | intro _

theorem execCmpEq_keeps {n cell x2 : Nat} {s : State} (h : P s) : NextHas P (execCmpEq n cell x2 s) := by
  unfold execCmpEq
  refine next_keep ?_
  with_reducible repeat' first | assumption | refine State.cmp_keeps C ?_

theorem execCmpLt_keeps {n cell x2 : Nat} {s : State} (h : P s) : NextHas P (execCmpLt n cell x2 s) := by
  unfold execCmpLt
  refine next_keep ?_
  with_reducible repeat' first | assumption | refine State.cmp_keeps C ?_

theorem execHash_keeps {n cell x2 : Nat} {s : State} (h : P s) : NextHas P (execHash n cell x2 s) := by
  unfold execHash
  refine next_keep ?_
  with_reducible repeat'
    first
    | assumption | refine State.cellDo_keeps C ?_ ?_ | refine State.operandDrawn_keeps C ?_ | refine State.cellPut_keeps C ?_ | intro _

theorem State.meterApply_keeps {s : State} {n k x3 pre : Nat} (h : P s) : P (State.meterApply s n k x3 pre).1 := by
  unfold State.meterApply
  with_reducible repeat' first | assumption | refine ite_keep ?_ ?_ | refine C.set ?_ | intro _ | split

theorem execMeter_keeps {n cell x2 : Nat} {s : State} (h : P s) : NextHas P (execMeter n cell x2 s) := by
  unfold execMeter
  refine next_keep ?_
  with_reducible repeat'
    first
    | assumption | refine State.cellDo_keeps C ?_ ?_ | refine State.meterApply_keeps C ?_ | refine State.operandDrawn_keeps C ?_
    | refine State.cellPut_keeps C ?_ | intro _

theorem execPunt_keeps {n cell x2 : Nat} {s : State} (h : P s) : NextHas P (execPunt n cell x2 s) := by
  unfold execPunt
  refine next_keep ?_
  with_reducible repeat'
    first
    | assumption | refine State.cellDo_keeps C ?_ ?_ | refine State.puntTo_keeps C ?_ | refine State.fragRecord_keeps C ?_ | intro _

theorem execDrop_keeps {n cell x2 : Nat} {s : State} (h : P s) : NextHas P (execDrop n cell x2 s) := by
  unfold execDrop
  refine next_keep ?_
  with_reducible repeat'
    first
    | assumption | refine State.cellDo_keeps C ?_ ?_ | refine State.dropWith_keeps C ?_ | refine State.fragRecord_keeps C ?_ | intro _

theorem execForward_keeps {n cell x2 : Nat} {s : State} (h : P s) : NextHas P (execForward n cell x2 s) := by
  unfold execForward
  refine next_keep ?_
  with_reducible repeat'
    first
    | assumption | refine State.cellDo_keeps C ?_ ?_ | refine State.operandDrawn_keeps C ?_ | refine State.cellPut_keeps C ?_ | intro _

theorem execSetTsOp_keeps {n cell x2 : Nat} {s : State} (h : P s) : NextHas P (execSetTsOp n cell x2 s) := by
  unfold execSetTsOp
  refine next_keep ?_
  with_reducible repeat' first | assumption | refine State.cellDo_keeps C ?_ ?_ | refine State.cellPut_keeps C ?_ | intro _

theorem execSetEpochHint_keeps {n cell x2 : Nat} {s : State} (h : P s) : NextHas P (execSetEpochHint n cell x2 s) := by
  unfold execSetEpochHint
  refine next_keep ?_
  with_reducible repeat' first | assumption | refine State.cellDo_keeps C ?_ ?_ | intro _

theorem State.cellRes_keeps {s : State} {n cell r v : Nat} (h : P s) : P (State.cellRes s n cell r v) := by
  unfold State.cellRes
  with_reducible repeat' first | assumption | refine C.set ?_

theorem State.emTouch_keeps {s : State} {t ti key : Nat} (h : P s) : P (State.emTouch s t ti key) := by
  unfold State.emTouch
  with_reducible repeat' first | assumption | refine State.emStamped_keeps C ?_ | refine State.emEdit_keeps C ?_

theorem State.emLookup_keeps {s : State} {n cell x3 w : Nat} (h : P s) : P (State.emLookup s n cell x3 w) := by
  unfold State.emLookup
  with_reducible repeat'
    first
    | assumption | refine ite_keep ?_ ?_ | refine State.cellPut_keeps C ?_ | refine State.cellRes_keeps C ?_ | refine when_keep ?_ ?_
    | refine State.emTouch_keeps C ?_ | refine State.bump_keeps C ?_ | intro _ | split

theorem execLookupEm_keeps {n cell x2 : Nat} {s : State} (h : P s) : NextHas P (execLookupEm n cell x2 s) := by
  unfold execLookupEm
  refine next_keep ?_
  with_reducible repeat' first | assumption | refine State.cellDo_keeps C ?_ ?_ | refine State.emLookup_keeps C ?_ | intro _

theorem State.dampStart_keeps {s : State} {l : List Nat} {pl ti key : Nat} (h : P s) : P (State.dampStart s l pl ti key) := by
  unfold State.dampStart
  with_reducible repeat' first | assumption | refine ite_keep ?_ ?_ | refine State.bump_keeps C ?_ | refine C.drew ?_ | refine C.set ?_

theorem State.emLearn_keeps {s : State} {t ti key v q : Nat} (h : P s) : P (State.emLearn s t ti key v q) := by
  unfold State.emLearn
  with_reducible repeat'
    first
    | assumption | refine ite_keep ?_ ?_ | refine State.bump_keeps C ?_ | refine State.quotaHit_keeps C ?_
    | refine State.emInsert_keeps C ?_ | refine State.rehashAsk_keeps C ?_ | refine State.dampStart_keeps C ?_
    | refine State.emStamped_keeps C ?_ | refine when_keep ?_ ?_ | refine State.exmEvent_keeps C ?_ | refine State.emTouch_keeps C ?_
    | refine State.emEdit_keeps C ?_ | refine C.set ?_ | intro _ | split | refine some_keep (by assumption) ?_ | dsimp only

theorem execLearn_keeps {n cell x2 : Nat} {s : State} (h : P s) : NextHas P (execLearn n cell x2 s) := by
  unfold execLearn
  refine next_keep ?_
  with_reducible repeat'
    first
    | assumption | refine ite_keep ?_ ?_ | refine State.cellDo_keeps C ?_ ?_ | refine State.bump_keeps C ?_
    | refine State.emLearn_keeps C ?_ | intro _ | split

theorem execDampingRecordExpiry_keeps {pl i : Nat} {s : State} (h : P s) : NextHas P (execDampingRecordExpiry pl i s) := by
  unfold execDampingRecordExpiry
  refine next_keep ?_
  with_reducible repeat' first | assumption | refine ite_keep ?_ ?_ | refine C.set ?_ | refine State.advanceTo_keeps C ?_

theorem execAgeingScan_keeps {t pl slot : Nat} {s : State} (h : P s) : NextHas P (execAgeingScan t pl slot s) := by
  unfold execAgeingScan
  refine next_keep ?_
  with_reducible repeat'
    first
    | assumption | refine ite_keep ?_ ?_ | refine State.emDelete_keeps C ?_ | refine when_keep ?_ ?_ | refine State.exmEvent_keeps C ?_
    | intro _ | split

theorem State.chPut_keeps {s : State} {f : Field} {n c len v : Nat} (h : P s) : P (State.chPut s f n c len v) := by
  unfold State.chPut
  with_reducible repeat' first | assumption | refine each_keep ?_ ?_ | refine C.set ?_ | intro _

theorem State.exmRes_keeps {s : State} {c r : Nat} (h : P s) : P (State.exmRes s c r) := by
  unfold State.exmRes
  with_reducible repeat' first | assumption | refine C.set ?_

theorem State.exmCmd_keeps {s : State} {c t : Nat} {f : Nat → List Nat → State → State} (h : P s)
    (hf : ∀ a0 a1 a2, P a2 → P (f a0 a1 a2)) :
    P (State.exmCmd s c t f) := by
  unfold State.exmCmd
  with_reducible repeat' first | assumption | refine hf _ _ _ ?_ | refine ite_keep ?_ ?_ | refine State.exmRes_keeps C ?_ | split

theorem State.exmKeyCmd_keeps {s : State} {c t : Nat} {f : Nat → List Nat → Nat → State → State} (h : P s)
    (hf : ∀ a0 a1 a2 a3, P a3 → P (f a0 a1 a2 a3)) :
    P (State.exmKeyCmd s c t f) := by
  unfold State.exmKeyCmd
  with_reducible repeat'
    first
    | assumption | refine hf _ _ _ _ ?_ | refine ite_keep ?_ ?_ | refine State.exmCmd_keeps C ?_ ?_ | refine State.exmRes_keeps C ?_
    | intro _

theorem State.exmShow_keeps {s : State} {c : Nat} {l : List Nat} {e : Nat} (h : P s) : P (State.exmShow s c l e) := by
  unfold State.exmShow
  with_reducible repeat' first | assumption | refine State.chPut_keeps C ?_ | refine C.set ?_

theorem execExmSearch_keeps {c t : Nat} {s : State} (h : P s) : NextHas P (execExmSearch c t s) := by
  unfold execExmSearch
  refine next_keep ?_
  with_reducible repeat'
    first
    | assumption | refine State.exmKeyCmd_keeps C ?_ ?_ | refine State.exmRes_keeps C ?_ | refine State.exmShow_keeps C ?_ | intro _
    | split

theorem execExmInsert_keeps {c t : Nat} {s : State} (h : P s) : NextHas P (execExmInsert c t s) := by
  unfold execExmInsert
  refine next_keep ?_
  with_reducible repeat'
    first
    | assumption | refine ite_keep ?_ ?_ | refine State.exmKeyCmd_keeps C ?_ ?_ | refine State.exmRes_keeps C ?_
    | refine State.quotaHit_keeps C ?_ | refine State.emInsert_keeps C ?_ | refine State.emStamped_keeps C ?_
    | refine State.rehashAsk_keeps C ?_ | intro _ | split | refine some_keep (by assumption) ?_ | dsimp only

theorem execExmUpdate_keeps {c t : Nat} {clearMoves : Bool} {s : State} (h : P s) : NextHas P (execExmUpdate c t clearMoves s) := by
  unfold execExmUpdate
  refine next_keep ?_
  with_reducible repeat'
    first
    | assumption | refine ite_keep ?_ ?_ | refine State.exmKeyCmd_keeps C ?_ ?_ | refine State.exmRes_keeps C ?_
    | refine State.emTouch_keeps C ?_ | refine State.emEdit_keeps C ?_ | intro _ | split

theorem execExmDelete_keeps {c t : Nat} {s : State} (h : P s) : NextHas P (execExmDelete c t s) := by
  unfold execExmDelete
  refine next_keep ?_
  with_reducible repeat'
    first
    | assumption | refine State.exmKeyCmd_keeps C ?_ ?_ | refine State.exmRes_keeps C ?_ | refine State.emDelete_keeps C ?_ | intro _
    | split

theorem execExmNext_keeps {c t : Nat} {s : State} (h : P s) : NextHas P (execExmNext c t s) := by
  unfold execExmNext
  refine next_keep ?_
  with_reducible repeat'
    first
    | assumption | refine State.exmCmd_keeps C ?_ ?_ | refine State.exmRes_keeps C ?_ | refine State.chPut_keeps C ?_
    | refine State.exmShow_keeps C ?_ | refine C.set ?_ | intro _ | split

theorem State.exmFlush_keeps {s : State} {t ti : Nat} {static : Bool} {p : Nat → Bool} (h : P s) :
    P (State.exmFlush s t ti static p) := by
  unfold State.exmFlush
  with_reducible repeat' first | assumption | refine ite_keep ?_ ?_ | refine each_keep ?_ ?_ | refine State.emDelete_keeps C ?_ | intro _

theorem execFlushByPort_keeps {c t : Nat} {static : Bool} {s : State} (h : P s) : NextHas P (execFlushByPort c t static s) := by
  unfold execFlushByPort
  refine next_keep ?_
  with_reducible repeat'
    first
    | assumption | refine State.exmCmd_keeps C ?_ ?_ | refine State.exmRes_keeps C ?_ | refine State.exmFlush_keeps C ?_ | intro _

theorem execFlushByTenant_keeps {c t : Nat} {static : Bool} {s : State} (h : P s) : NextHas P (execFlushByTenant c t static s) := by
  unfold execFlushByTenant
  refine next_keep ?_
  with_reducible repeat'
    first
    | assumption | refine ite_keep ?_ ?_ | refine State.exmCmd_keeps C ?_ ?_ | refine State.exmRes_keeps C ?_
    | refine State.exmFlush_keeps C ?_ | intro _

theorem execShadowOpen_keeps {c t : Nat} {s : State} (h : P s) : NextHas P (execShadowOpen c t s) := by
  unfold execShadowOpen
  refine next_keep ?_
  with_reducible repeat'
    first
    | assumption | refine ite_keep ?_ ?_ | refine State.exmCmd_keeps C ?_ ?_ | refine State.exmRes_keeps C ?_ | refine C.set ?_
    | refine State.emClear_keeps C ?_ | intro _

theorem State.shadowCopy1_keeps {s : State} {t ti : Nat} {x : Nat × Nat} (h : P s) : P (State.shadowCopy1 s t ti x) := by
  unfold State.shadowCopy1
  with_reducible repeat'
    first
    | assumption | refine ite_keep ?_ ?_ | refine State.emPutAll_keeps C ?_ | refine State.shadowFail_keeps C ?_ | intro _ | split
    | refine some_keep (by assumption) ?_

theorem execShadowCopy_keeps {c t : Nat} {s : State} (h : P s) : NextHas P (execShadowCopy c t s) := by
  unfold execShadowCopy
  refine next_keep ?_
  with_reducible repeat'
    first
    | assumption | refine ite_keep ?_ ?_ | refine State.exmCmd_keeps C ?_ ?_ | refine State.exmRes_keeps C ?_ | refine each_keep ?_ ?_
    | refine State.shadowCopy1_keeps C ?_ | refine C.set ?_ | intro _ | split | dsimp only

theorem execShadowSwap_keeps {c t : Nat} {s : State} (h : P s) : NextHas P (execShadowSwap c t s) := by
  unfold execShadowSwap
  refine next_keep ?_
  with_reducible repeat'
    first
    | assumption | refine ite_keep ?_ ?_ | refine State.exmCmd_keeps C ?_ ?_ | refine State.exmRes_keeps C ?_
    | refine State.emClear_keeps C ?_ | refine C.set ?_ | refine State.emStat_keeps C ?_ | intro _ | split

theorem execShadowDiscard_keeps {c t : Nat} {s : State} (h : P s) : NextHas P (execShadowDiscard c t s) := by
  unfold execShadowDiscard
  refine next_keep ?_
  with_reducible repeat'
    first
    | assumption | refine ite_keep ?_ ?_ | refine State.exmCmd_keeps C ?_ ?_ | refine State.exmRes_keeps C ?_
    | refine State.shadowDrop_keeps C ?_ | intro _

theorem State.moveEnd_keeps {s : State} {c : Nat} (h : P s) : P (State.moveEnd s c) := by
  unfold State.moveEnd
  with_reducible repeat'
    first
    | assumption | refine each_keep ?_ ?_ | refine when_keep ?_ ?_ | refine State.tcRemove_keeps C ?_ | refine C.set ?_ | intro _

theorem State.movesDue_keeps {s : State} {c : Nat} (h : P s) : P (State.movesDue s c) := by
  unfold State.movesDue
  with_reducible repeat' first | assumption | refine ite_keep ?_ ?_ | refine each_keep ?_ ?_ | refine State.moveEnd_keeps C ?_ | intro _

theorem execLookupTcam_keeps {n cell x2 : Nat} {bad : List Nat} {lost : List Nat} {s : State} (h : P s) :
    NextHas P (execLookupTcam n cell x2 bad lost s) := by
  unfold execLookupTcam
  refine next_keep ?_
  with_reducible repeat'
    first
    | assumption | refine State.cellDo_keeps C ?_ ?_ | refine State.cellPut_keeps C ?_ | refine State.cellRes_keeps C ?_
    | refine State.movesDue_keeps C ?_ | refine State.tcSearch_keeps C ?_ | intro _ | split

theorem execTcamRepair_keeps {n u : Nat} {agree : Bool} {copyBad : Bool} {s : State} (h : P s) :
    NextHas P (execTcamRepair n u agree copyBad s) := by
  unfold execTcamRepair
  refine next_keep ?_
  with_reducible repeat'
    first
    | assumption | refine ite_keep ?_ ?_ | refine C.set ?_ | refine State.tcStuckStat_keeps C ?_ | refine when_keep ?_ ?_
    | refine State.report_keeps C ?_ | intro _

theorem State.tcmRes_keeps {s : State} {c r : Nat} (h : P s) : P (State.tcmRes s c r) := by
  unfold State.tcmRes
  with_reducible repeat' first | assumption | refine C.set ?_

theorem State.tcmCmd_keeps {s : State} {c t : Nat} {f : Nat → List Nat → Nat → List Nat → State → State} (h : P s)
    (hf : ∀ a0 a1 a2 a3 a4, P a4 → P (f a0 a1 a2 a3 a4)) : P (State.tcmCmd s c t f) := by
  have hm := State.movesDue_keeps C (c := c) h
  unfold State.tcmCmd
  extract_lets
  repeat' first | exact State.tcmRes_keeps C hm | exact hf _ _ _ _ _ hm | split

theorem State.tcmShow_keeps {s : State} {f : Field} {c k : Nat} (h : P s) : P (State.tcmShow s f c k) := by
  unfold State.tcmShow
  with_reducible repeat' first | assumption | refine each_keep ?_ ?_ | refine C.set ?_ | intro _

theorem State.tcmHit_keeps {s : State} {c n : Nat} {r : TcHit} (h : P s) : P (State.tcmHit s c n r) := by
  unfold State.tcmHit
  with_reducible repeat' first | assumption | refine State.tcmRes_keeps C ?_ | refine C.set ?_ | split

theorem execTcmSearch_keeps {c t : Nat} {bad : List Nat} {lost : List Nat} {s : State} (h : P s) :
    NextHas P (execTcmSearch c t bad lost s) := by
  unfold execTcmSearch
  refine next_keep ?_
  with_reducible repeat'
    first
    | assumption | refine State.tcmCmd_keeps C ?_ ?_ | refine State.tcSearch_keeps C ?_ | refine State.tcmHit_keeps C ?_ | intro _

theorem execTcmStep_keeps {c t : Nat} {bad : List Nat} {lost : List Nat} {s : State} (h : P s) :
    NextHas P (execTcmStep c t bad lost s) := by
  unfold execTcmStep
  refine next_keep ?_
  with_reducible repeat'
    first
    | assumption | refine State.tcmCmd_keeps C ?_ ?_ | refine State.tcSearch_keeps C ?_ | refine State.tcmHit_keeps C ?_ | intro _

theorem State.tcmEntry_keeps {s : State} {c ti : Nat} {l : List Nat} {n u : Nat} {f : State → State} (h : P s)
    (hf : ∀ a0, P a0 → P (f a0)) :
    P (State.tcmEntry s c ti l n u f) := by
  unfold State.tcmEntry
  with_reducible repeat' first | assumption | refine hf _ ?_ | refine ite_keep ?_ ?_ | refine State.tcmRes_keeps C ?_

theorem execTcmWrite_keeps {c t : Nat} {s : State} (h : P s) : NextHas P (execTcmWrite c t s) := by
  unfold execTcmWrite
  refine next_keep ?_
  with_reducible repeat'
    first
    | assumption | refine ite_keep ?_ ?_ | refine State.tcmCmd_keeps C ?_ ?_ | refine State.tcmRes_keeps C ?_ | refine each_keep ?_ ?_
    | refine State.tcPut_keeps C ?_ | intro _

theorem execTcmUpdate_keeps {c t : Nat} {s : State} (h : P s) : NextHas P (execTcmUpdate c t s) := by
  unfold execTcmUpdate
  refine next_keep ?_
  with_reducible repeat'
    first
    | assumption | refine State.tcmCmd_keeps C ?_ ?_ | refine State.tcmEntry_keeps C ?_ ?_ | refine State.tcmRes_keeps C ?_
    | refine each_keep ?_ ?_ | refine when_keep ?_ ?_ | refine C.set ?_ | intro _

theorem execTcmInvalidate_keeps {c t : Nat} {s : State} (h : P s) : NextHas P (execTcmInvalidate c t s) := by
  unfold execTcmInvalidate
  refine next_keep ?_
  with_reducible repeat'
    first
    | assumption | refine State.tcmCmd_keeps C ?_ ?_ | refine State.tcmEntry_keeps C ?_ ?_ | refine State.tcmRes_keeps C ?_
    | refine each_keep ?_ ?_ | refine when_keep ?_ ?_ | refine State.tcRemove_keeps C ?_ | intro _

theorem execTcmRead_keeps {c t : Nat} {s : State} (h : P s) : NextHas P (execTcmRead c t s) := by
  unfold execTcmRead
  refine next_keep ?_
  with_reducible repeat'
    first
    | assumption | refine State.tcmCmd_keeps C ?_ ?_ | refine State.tcmEntry_keeps C ?_ ?_ | refine C.set ?_ | refine when_keep ?_ ?_
    | refine C.drew ?_ | refine State.tcmRes_keeps C ?_ | refine State.tcmShow_keeps C ?_ | intro _

theorem State.tcMove1_keeps {s : State} {n ti u v : Nat} (h : P s) : P (State.tcMove1 s n ti u v) := by
  unfold State.tcMove1
  with_reducible repeat'
    first
    | assumption | refine ite_keep ?_ ?_ | refine when_keep ?_ ?_ | refine C.set ?_ | refine State.tcPut_keeps C ?_ | refine C.drew ?_
    | intro _

theorem State.moveOpen_keeps {s : State} {c ti u v : Nat} (h : P s) : P (State.moveOpen s c ti u v) := by
  unfold State.moveOpen
  with_reducible repeat' first | assumption | refine C.set ?_

theorem execTcmMove_keeps {c t : Nat} {s : State} (h : P s) : NextHas P (execTcmMove c t s) := by
  unfold execTcmMove
  refine next_keep ?_
  with_reducible repeat'
    first
    | assumption | refine ite_keep ?_ ?_ | refine State.tcmCmd_keeps C ?_ ?_ | refine State.tcmEntry_keeps C ?_ ?_
    | refine State.tcmRes_keeps C ?_ | refine State.moveOpen_keeps C ?_ | refine each_keep ?_ ?_ | refine State.tcMove1_keeps C ?_
    | intro _

theorem State.patBypass_keeps {s : State} {n : Nat} (h : P s) : P (State.patBypass s n) := by
  unfold State.patBypass
  with_reducible repeat' first | assumption | refine C.set ?_

theorem State.patStage_keeps {s : State} {n x2 : Nat} (h : P s) : P (State.patStage s n x2) := by
  unfold State.patStage
  with_reducible repeat'
    first
    | assumption | refine ite_keep ?_ ?_ | refine State.stageNext_keeps C ?_ | refine State.bump_keeps C ?_
    | refine State.puntTo_keeps C ?_ | refine when_keep ?_ ?_ | refine C.drew ?_ | refine State.setMeta_keeps C ?_ | intro _ | split

theorem execAutomataScan_keeps {n x1 : Nat} {s : State} (h : P s) : NextHas P (execAutomataScan n x1 s) := by
  unfold execAutomataScan
  refine next_keep ?_
  with_reducible repeat' first | assumption | refine ite_keep ?_ ?_ | refine State.patStage_keeps C ?_

theorem State.patRes_keeps {s : State} {c r : Nat} (h : P s) : P (State.patRes s c r) := by
  unfold State.patRes
  with_reducible repeat' first | assumption | refine C.set ?_

theorem execLoadSet_keeps {c set mask : Nat} {s : State} (h : P s) : NextHas P (execLoadSet c set mask s) := by
  unfold execLoadSet
  refine next_keep ?_
  with_reducible repeat'
    first
    | assumption | refine ite_keep ?_ ?_ | refine State.patRes_keeps C ?_ | refine each_keep ?_ ?_ | refine C.lset ?_ | intro _

theorem State.patLater_keeps {s : State} {set kind mask : Nat} (h : P s) : P (State.patLater s set kind mask) := by
  unfold State.patLater
  with_reducible repeat' first | assumption | refine C.lset ?_

theorem execActivateSet_keeps {c set : Nat} {s : State} (h : P s) : NextHas P (execActivateSet c set s) := by
  unfold execActivateSet
  refine next_keep ?_
  with_reducible repeat' first | assumption | refine ite_keep ?_ ?_ | refine State.patRes_keeps C ?_ | refine State.patLater_keeps C ?_

theorem State.setActivate_keeps {s : State} {n set : Nat} (h : P s) : P (State.setActivate s n set) := by
  unfold State.setActivate
  with_reducible repeat' first | assumption | refine ite_keep ?_ ?_ | refine C.lset ?_

theorem State.setDelete_keeps {s : State} {n set : Nat} (h : P s) : P (State.setDelete s n set) := by
  unfold State.setDelete
  with_reducible repeat' first | assumption | refine C.lset ?_

theorem execSetActivation_keeps {set : Nat} {s : State} (h : P s) : NextHas P (execSetActivation set s) := by
  unfold execSetActivation
  refine next_keep ?_
  with_reducible repeat'
    first
    | assumption | refine ite_keep ?_ ?_ | refine C.lset ?_ | refine each_keep ?_ ?_ | refine State.advanceTo_keeps C ?_
    | refine State.setActivate_keeps C ?_ | refine State.setDelete_keeps C ?_ | intro _ | split | dsimp only

theorem execDeleteSet_keeps {c set mask : Nat} {s : State} (h : P s) : NextHas P (execDeleteSet c set mask s) := by
  unfold execDeleteSet
  refine next_keep ?_
  with_reducible repeat' first | assumption | refine ite_keep ?_ ?_ | refine State.patRes_keeps C ?_ | refine State.patLater_keeps C ?_

theorem execPatScan_keeps {c set mask : Nat} {s : State} (h : P s) : NextHas P (execPatScan c set mask s) := by
  unfold execPatScan
  refine next_keep ?_
  with_reducible repeat'
    first
    | assumption | refine ite_keep ?_ ?_ | refine State.patRes_keeps C ?_ | refine when_keep ?_ ?_ | refine C.drew ?_
    | refine State.bump_keeps C ?_ | refine State.mwrite_keeps C ?_ | refine C.set ?_ | intro _ | split

theorem execPatEngine_keeps {n e : Nat} {s : State} (h : P s) : NextHas P (execPatEngine n e s) := by
  unfold execPatEngine
  refine next_keep ?_
  with_reducible repeat'
    first
    | assumption | refine State.patBypass_keeps C ?_ | refine State.setb_keeps C ?_ | refine State.report_keeps C ?_

theorem State.patReturn_keeps {s : State} {n : Nat} (h : P s) : P (State.patReturn s n) := by
  unfold State.patReturn
  with_reducible repeat' first | assumption | refine each_keep ?_ ?_ | refine C.lset ?_ | intro _ | split

theorem State.parseWrite_keeps {s : State} {x1 reason : Nat} {w : Walk} (h : P s) : P (State.parseWrite s x1 reason w) := by
  unfold State.parseWrite
  with_reducible repeat' first | assumption | refine ite_keep ?_ ?_ | refine State.setMeta_keeps C ?_ | refine C.set ?_

theorem State.parsePkt_keeps {s : State} {n x2 : Nat} (h : P s) : P (State.parsePkt s n x2) := by
  unfold State.parsePkt
  with_reducible repeat'
    first
    | assumption | refine ite_keep ?_ ?_ | refine State.clsSnap_keeps C ?_ | refine State.parseWrite_keeps C ?_ | refine C.drew ?_
    | refine State.settle_keeps C ?_ | refine C.set ?_ | refine State.defaultAct_keeps C ?_ | refine State.bump_keeps C ?_ | split
    | dsimp only

theorem execPacketParse_keeps {n x1 : Nat} {s : State} (h : P s) : NextHas P (execPacketParse n x1 s) := by
  have ha := State.arbPick_keeps C (n := n) h
  unfold execPacketParse
  refine next_keep (ite_keep h ?_)
  split
  · rename_i e
    rw [e] at ha
    exact ite_keep (State.parsePkt_keeps C (State.arbGrant_keeps C ha)) h
  · exact h

theorem State.classWrite_keeps {s : State} {x1 src hit rule result : Nat} (h : P s) : P (State.classWrite s x1 src hit rule result) := by
  unfold State.classWrite
  with_reducible repeat' first | assumption | refine State.setMeta_keeps C ?_

theorem State.treeWalk_keeps {s : State} {n x2 src : Nat} (h : P s) : P (State.treeWalk s n x2 src) := by
  unfold State.treeWalk
  with_reducible repeat'
    first
    | assumption | refine ite_keep ?_ ?_ | refine State.classWrite_keeps C ?_ | refine State.bump_keeps C ?_ | split | dsimp only

theorem State.fragLookup_keeps {s : State} {n x2 : Nat} (h : P s) : P (State.fragLookup s n x2) := by
  unfold State.fragLookup
  with_reducible repeat'
    first
    | assumption | refine ite_keep ?_ ?_ | refine C.set ?_ | refine State.bump_keeps C ?_ | refine State.fragStat_keeps C ?_

theorem State.treeStage_keeps {s : State} {n x2 : Nat} (h : P s) : P (State.treeStage s n x2) := by
  unfold State.treeStage
  with_reducible repeat'
    first
    | assumption | refine ite_keep ?_ ?_ | refine State.classWrite_keeps C ?_ | refine State.treeWalk_keeps C ?_

theorem execTreeWalk_keeps {n x1 : Nat} {s : State} (h : P s) : NextHas P (execTreeWalk n x1 s) := by
  unfold execTreeWalk
  refine next_keep ?_
  with_reducible repeat'
    first
    | assumption | refine ite_keep ?_ ?_ | refine State.fragLookup_keeps C ?_ | refine State.stageNext_keeps C ?_
    | refine State.treeStage_keeps C ?_

theorem execPipelineExit_keeps {n x1 : Nat} {s : State} (h : P s) : NextHas P (execPipelineExit n x1 s) := by
  unfold execPipelineExit
  refine next_keep ?_
  with_reducible repeat'
    first
    | assumption | refine ite_keep ?_ ?_ | refine State.puntTo_keeps C ?_ | refine State.fragRecord_keeps C ?_
    | refine State.forwardOut_keeps C ?_ | refine State.enqueue_keeps C ?_ | refine C.set ?_ | refine State.defaultAct_keeps C ?_

theorem execPuntBucketRecompute_keeps {s : State} (h : P s) : NextHas P (execPuntBucketRecompute s) := by
  unfold execPuntBucketRecompute
  refine next_keep ?_
  with_reducible repeat' first | assumption | refine State.puntRecompute_keeps C ?_

theorem execClsRegisterPropagate_keeps {n : Nat} {s : State} (h : P s) : NextHas P (execClsRegisterPropagate n s) := by
  unfold execClsRegisterPropagate
  refine next_keep ?_
  with_reducible repeat' first | assumption | refine each_keep ?_ ?_ | refine C.set ?_ | intro _

theorem execFragHoldExpiry_keeps {n x1 : Nat} {s : State} (h : P s) : NextHas P (execFragHoldExpiry n x1 s) := by
  unfold execFragHoldExpiry
  refine next_keep ?_
  with_reducible repeat'
    first
    | assumption | refine ite_keep ?_ ?_ | refine State.advanceTo_keeps C ?_ | refine State.fragStat_keeps C ?_
    | refine State.bump_keeps C ?_ | refine C.set ?_

theorem execFragEntryExpiry_keeps {n dig : Nat} {s : State} (h : P s) : NextHas P (execFragEntryExpiry n dig s) := by
  unfold execFragEntryExpiry
  refine next_keep ?_
  with_reducible repeat'
    first
    | assumption | refine ite_keep ?_ ?_ | refine State.advanceTo_keeps C ?_ | refine State.fragStat_keeps C ?_
    | refine State.fragRemove_keeps C ?_

theorem execPolicerApply_keeps {n k v : Nat} {s : State} (h : P s) : NextHas P (execPolicerApply n k v s) := by
  unfold execPolicerApply
  refine next_keep ?_
  with_reducible repeat' first | assumption | refine C.set ?_

theorem State.chargeFrame_keeps {s : State} {d t parts x4 : Nat} (h : P s) : P (State.chargeFrame s d t parts x4) := by
  unfold State.chargeFrame
  with_reducible repeat' first | assumption | refine ite_keep ?_ ?_ | refine State.charge_keeps C ?_

theorem State.dispatch_keeps {s : State} {d p i q x5 : Nat} (h : P s) : P (State.dispatch s d p i q x5) := by
  unfold State.dispatch
  with_reducible repeat'
    first
    | assumption | refine ite_keep ?_ ?_ | refine State.dequeue_keeps C ?_ | refine State.chargeFrame_keeps C ?_
    | refine State.chargePath_keeps C ?_ | refine State.lpush_keeps C ?_ | refine State.bufFree_keeps C ?_ | refine C.set ?_

theorem execSchedulerDispatch_keeps {d p : Nat} {s : State} (h : P s) : NextHas P (execSchedulerDispatch d p s) := by
  unfold execSchedulerDispatch
  refine next_keep ?_
  with_reducible repeat'
    first
    | assumption | refine ite_keep ?_ ?_ | refine State.pickPort_keeps C ?_ | refine State.dispatch_keeps C ?_ | split
    | refine pair_keep (by assumption) ?_

theorem execShaperApply_keeps {d n v : Nat} {s : State} (h : P s) : NextHas P (execShaperApply d n v s) := by
  unfold execShaperApply
  refine next_keep ?_
  with_reducible repeat' first | assumption | refine State.shaperApply_keeps C ?_ | refine C.set ?_

theorem State.samplePut_keeps {s : State} {d q t : Nat} (h : P s) : P (State.samplePut s d q t) := by
  unfold State.samplePut
  with_reducible repeat'
    first
    | assumption | refine ite_keep ?_ ?_ | refine C.set ?_ | refine State.hostDown_keeps C ?_ | refine State.bump_keeps C ?_
    | refine State.hostWrite_keeps C ?_

theorem execQueueSample_keeps {d : Nat} {s : State} (h : P s) : NextHas P (execQueueSample d s) := by
  unfold execQueueSample
  refine next_keep ?_
  with_reducible repeat'
    first
    | assumption | refine ite_keep ?_ ?_ | refine each_keep ?_ ?_ | refine State.advanceTo_keeps C ?_ | refine State.samplePut_keeps C ?_
    | intro _

theorem State.setQuanta_keeps {s : State} (h : P s) : P (State.setQuanta s) := by
  unfold State.setQuanta
  with_reducible repeat' first | assumption | refine ite_keep ?_ ?_ | refine each_keep ?_ ?_ | refine C.set ?_ | intro _

theorem execReconcilerEpoch_keeps {s : State} (h : P s) : NextHas P (execReconcilerEpoch s) := by
  unfold execReconcilerEpoch
  refine next_keep ?_
  with_reducible repeat'
    first
    | assumption | refine ite_keep ?_ ?_ | refine State.advanceTo_keeps C ?_ | refine each_keep ?_ ?_ | refine C.set ?_
    | refine when_keep ?_ ?_ | refine State.bump_keeps C ?_ | refine State.setQuanta_keeps C ?_ | refine foldl_keep ?_ ?_
    | refine foldl_pair_keep ?_ ?_ | intro _

theorem State.srvBusy_keeps {s : State} (h : P s) : P (State.srvBusy s) := by
  unfold State.srvBusy
  with_reducible repeat' first | assumption | refine C.set ?_

theorem execRegionOffline_keeps {n : Nat} {force : Bool} {s : State} (h : P s) : NextHas P (execRegionOffline n force s) := by
  unfold execRegionOffline
  refine next_keep ?_
  with_reducible repeat' first | assumption | refine ite_keep ?_ ?_ | refine C.set ?_ | refine State.srvBusy_keeps C ?_

theorem State.accountsDiscard_keeps {s : State} {n : Nat} (h : P s) : P (State.accountsDiscard s n) := by
  unfold State.accountsDiscard
  with_reducible repeat' first | assumption | refine each_keep ?_ ?_ | refine C.set ?_ | intro _

theorem State.ringsRetarget_keeps {s : State} (h : P s) : P (State.ringsRetarget s) := by
  unfold State.ringsRetarget
  with_reducible repeat' first | assumption | refine each_keep ?_ ?_ | refine when_keep ?_ ?_ | refine C.set ?_ | intro _

theorem execRegionOfflineEffective_keeps {n : Nat} {s : State} (h : P s) : NextHas P (execRegionOfflineEffective n s) := by
  unfold execRegionOfflineEffective
  refine next_keep ?_
  with_reducible repeat'
    first
    | assumption | refine ite_keep ?_ ?_ | refine C.set ?_ | refine State.advanceTo_keeps C ?_ | refine State.accountsDiscard_keeps C ?_
    | refine State.fragLost_keeps C ?_ | refine State.coresDiscard_keeps C ?_ | refine each_keep ?_ ?_ | refine State.setb_keeps C ?_
    | refine State.ringsRetarget_keeps C ?_ | intro _ | split

theorem State.regionPktsLost_keeps {s : State} {n : Nat} (h : P s) : P (State.regionPktsLost s n) := by
  unfold State.regionPktsLost
  with_reducible repeat'
    first
    | assumption | refine State.fragLost_keeps C ?_ | refine each_keep ?_ ?_ | refine State.dropPkt_keeps C ?_
    | refine State.dequeue_keeps C ?_ | intro _

theorem execRegionDrainDone_keeps {n : Nat} {lost : List Nat} {s : State} (h : P s) : NextHas P (execRegionDrainDone n lost s) := by
  unfold execRegionDrainDone
  refine next_keep ?_
  with_reducible repeat'
    first
    | assumption | refine ite_keep ?_ ?_ | refine State.fragLost_keeps C ?_ | refine State.advanceTo_keeps C ?_
    | refine State.storeRegionLost_keeps C ?_ | refine State.regionPktsLost_keeps C ?_ | refine each_keep ?_ ?_
    | refine State.cnError_keeps C ?_ | refine C.set ?_ | refine State.cacheWriteBack_keeps C ?_ | intro _

theorem State.blockBist_keeps {s : State} {n b : Nat} {failed : List Nat} (h : P s) : P (State.blockBist s n b failed) := by
  unfold State.blockBist
  with_reducible repeat' first | assumption | refine each_keep ?_ ?_ | refine C.set ?_ | intro _

theorem State.sramBist_keeps {s : State} {n : Nat} (h : P s) : P (State.sramBist s n) := by
  unfold State.sramBist
  with_reducible repeat'
    first
    | assumption | refine State.mzero_keeps C ?_ | refine each_keep ?_ ?_ | refine C.set ?_ | refine State.emStat_keeps C ?_ | intro _

theorem execRegionBistEnd_keeps {n : Nat} {failed : List Nat} {s : State} (h : P s) : NextHas P (execRegionBistEnd n failed s) := by
  unfold execRegionBistEnd
  refine next_keep ?_
  with_reducible repeat'
    first
    | assumption | refine ite_keep ?_ ?_ | refine State.sramBist_keeps C ?_ | refine each_keep ?_ ?_ | refine State.blockBist_keeps C ?_
    | refine C.set ?_ | refine State.srvBusy_keeps C ?_ | refine State.report_keeps C ?_ | refine foldl_keep ?_ ?_
    | refine foldl_pair_keep ?_ ?_ | intro _

theorem execRegionOnline_keeps {n : Nat} {s : State} (h : P s) : NextHas P (execRegionOnline n s) := by
  unfold execRegionOnline
  refine next_keep ?_
  with_reducible repeat' first | assumption | refine ite_keep ?_ ?_ | refine C.set ?_ | refine State.srvBusy_keeps C ?_

theorem State.tcCopyIn_keeps {s : State} {n ti : Nat} (h : P s) : P (State.tcCopyIn s n ti) := by
  unfold State.tcCopyIn
  with_reducible repeat'
    first
    | assumption | refine State.tcClear_keeps C ?_ | refine each_keep ?_ ?_ | refine State.tcPut_keeps C ?_ | intro _ | split

theorem State.tcReturn_keeps {s : State} {n : Nat} (h : P s) : P (State.tcReturn s n) := by
  unfold State.tcReturn
  with_reducible repeat' first | assumption | refine each_keep ?_ ?_ | refine State.tcCopyIn_keeps C ?_ | intro _

theorem execRegionReturnComplete_keeps {n : Nat} {s : State} (h : P s) : NextHas P (execRegionReturnComplete n s) := by
  unfold execRegionReturnComplete
  refine next_keep ?_
  with_reducible repeat'
    first
    | assumption | refine ite_keep ?_ ?_ | refine State.patReturn_keeps C ?_ | refine State.tcReturn_keeps C ?_ | refine each_keep ?_ ?_
    | refine State.exmEvent_keeps C ?_ | refine State.setb_keeps C ?_ | refine C.set ?_ | refine State.srvBusy_keeps C ?_ | intro _

theorem execTcamBankTest_keeps {n : Nat} {pass : Bool} {stuck : List Nat} {s : State} (h : P s) :
    NextHas P (execTcamBankTest n pass stuck s) := by
  unfold execTcamBankTest
  refine next_keep ?_
  with_reducible repeat'
    first
    | assumption | refine ite_keep ?_ ?_ | refine State.advanceTo_keeps C ?_ | refine C.set ?_ | refine State.report_keeps C ?_
    | refine each_keep ?_ ?_ | refine State.tcStuckStat_keeps C ?_ | intro _

theorem execCipherKat_keeps {k : Nat} {pass : Bool} {s : State} (h : P s) : NextHas P (execCipherKat k pass s) := by
  unfold execCipherKat
  refine next_keep ?_
  with_reducible repeat'
    first
    | assumption | refine ite_keep ?_ ?_ | refine State.regionFault_keeps C ?_ | refine State.report_keeps C ?_ | refine C.set ?_

theorem State.poisonRead_keeps {s : State} {kind x y : Nat} (h : P s) : P (State.poisonRead s kind x y) := by
  unfold State.poisonRead
  with_reducible repeat'
    first
    | assumption | refine ite_keep ?_ ?_ | refine State.emDelete_keeps C ?_ | refine State.cnError_keeps C ?_
    | refine State.slotCorrupt_keeps C ?_ | refine C.set ?_ | refine State.cellFault_keeps C ?_ | refine State.dropPkt_keeps C ?_ | split

theorem State.poison_keeps {s : State} {a : Nat} (h : P s) : P (State.poison s a) := by
  unfold State.poison
  with_reducible repeat' first | assumption | refine ite_keep ?_ ?_ | refine State.freeBytes_keeps C ?_ | refine State.mwrite_keeps C ?_

theorem State.scrub_keeps {s : State} {a found kind x y : Nat} (h : P s) : P (State.scrub s a found kind x y) := by
  unfold State.scrub
  with_reducible repeat'
    first
    | assumption | refine State.report_keeps C ?_ | refine State.poisonRead_keeps C ?_ | refine State.poison_keeps C ?_ | split

theorem execSramScrub_keeps {d o found kind x y : Nat} {s : State} (h : P s) : NextHas P (execSramScrub d o found kind x y s) := by
  unfold execSramScrub
  refine next_keep ?_
  with_reducible repeat' first | assumption | refine State.advanceTo_keeps C ?_ | refine State.scrub_keeps C ?_ | refine C.set ?_

theorem State.hbmRetire_keeps {s : State} {k pc : Nat} (h : P s) : P (State.hbmRetire s k pc) := by
  unfold State.hbmRetire
  with_reducible repeat'
    first
    | assumption | refine ite_keep ?_ ?_ | refine State.lpush_keeps C ?_ | refine State.report_keeps C ?_ | refine C.set ?_ | split

theorem execHbmPcRetire_keeps {k pc : Nat} {s : State} (h : P s) : NextHas P (execHbmPcRetire k pc s) := by
  unfold execHbmPcRetire
  refine next_keep ?_
  with_reducible repeat' first | assumption | refine State.hbmRetire_keeps C ?_

theorem State.hbmNext_keeps {s : State} {a : List Nat} (h : P s) : P (State.hbmNext s a) := by
  fun_induction State.hbmNext s a
  all_goals with_reducible repeat'
    first
    | assumption | refine (by assumption : P _ → P _) ?_ | refine ite_keep ?_ ?_ | refine C.lset ?_ | refine State.hbmRetire_keeps C ?_

theorem execHbmPcSubstituteDone_keeps {s : State} (h : P s) : NextHas P (execHbmPcSubstituteDone s) := by
  unfold execHbmPcSubstituteDone
  refine next_keep ?_
  with_reducible repeat' first | assumption | refine C.set ?_ | refine State.hbmNext_keeps C ?_ | refine State.report_keeps C ?_ | split

theorem State.hbmCorrected_keeps {s : State} {i : Nat} (h : P s) : P (State.hbmCorrected s i) := by
  unfold State.hbmCorrected
  with_reducible repeat'
    first
    | assumption | refine ite_keep ?_ ?_ | refine C.lset ?_ | refine State.bump_keeps C ?_ | refine State.hbmRetire_keeps C ?_

theorem execHbmScrub_keeps {k o found kind x y : Nat} {s : State} (h : P s) : NextHas P (execHbmScrub k o found kind x y s) := by
  unfold execHbmScrub
  refine next_keep ?_
  with_reducible repeat'
    first
    | assumption | refine State.advanceTo_keeps C ?_ | refine State.scrub_keeps C ?_ | refine C.set ?_
    | refine State.hbmCorrected_keeps C ?_ | refine when_keep ?_ ?_ | refine State.hbmRetire_keeps C ?_ | intro _ | split

theorem State.tap_keeps {s : State} {inst pins : Nat} (h : P s) : P (State.tap s inst pins) := by
  unfold State.tap
  with_reducible repeat' first | assumption | refine C.set ?_

theorem execBypass_keeps {s : State} (h : P s) : NextHas P (execBypass s) := by
  unfold execBypass
  refine next_keep ?_
  with_reducible repeat' first | assumption | refine C.answer ?_ | refine State.tap_keeps C ?_

theorem execIdcode_keeps {s : State} (h : P s) : NextHas P (execIdcode s) := by
  unfold execIdcode
  refine next_keep ?_
  with_reducible repeat' first | assumption | refine C.answer ?_ | refine State.tap_keeps C ?_

theorem execSamplePreload_keeps {bits : List Nat} {s : State} (h : P s) : NextHas P (execSamplePreload bits s) := by
  unfold execSamplePreload
  refine next_keep ?_
  with_reducible repeat'
    first
    | assumption | refine State.freeBytes_keeps C ?_ | refine C.lset ?_ | refine State.tap_keeps C ?_ | refine C.answer ?_

theorem State.tapBelow2_keeps {s : State} {inst pins : Nat} (h : P s) : P (State.tapBelow2 s inst pins) := by
  unfold State.tapBelow2
  with_reducible repeat' first | assumption | refine ite_keep ?_ ?_ | refine State.tap_keeps C ?_

theorem execExtest_keeps {s : State} (h : P s) : NextHas P (execExtest s) := by
  unfold execExtest
  refine next_keep ?_
  with_reducible repeat'
    first
    | assumption | refine ite_keep ?_ ?_ | refine State.freeBytes_keeps C ?_ | refine State.tap_keeps C ?_ | refine C.answer ?_

theorem execClamp_keeps {s : State} (h : P s) : NextHas P (execClamp s) := by
  unfold execClamp
  refine next_keep ?_
  with_reducible repeat' first | assumption | refine C.answer ?_ | refine State.tapBelow2_keeps C ?_

theorem execHighz_keeps {s : State} (h : P s) : NextHas P (execHighz s) := by
  unfold execHighz
  refine next_keep ?_
  with_reducible repeat' first | assumption | refine C.answer ?_ | refine State.tapBelow2_keeps C ?_

theorem State.exmCommand_keeps {s : State} {c v : Nat} (h : P s) : P (State.exmCommand s c v) := by
  unfold State.exmCommand
  with_reducible repeat'
    first
    | assumption | refine ite_keep ?_ ?_ | refine run_keep ?_ ?_ | refine execExmSearch_keeps C ?_ | refine execExmInsert_keeps C ?_
    | refine execExmUpdate_keeps C ?_ | refine execExmDelete_keeps C ?_ | refine execExmNext_keeps C ?_
    | refine execFlushByPort_keeps C ?_ | refine execFlushByTenant_keeps C ?_ | refine execShadowOpen_keeps C ?_
    | refine execShadowCopy_keeps C ?_ | refine execShadowSwap_keeps C ?_ | refine execShadowDiscard_keeps C ?_
    | refine State.exmRes_keeps C ?_ | intro _ | split

theorem State.tcmCommand_keeps {s : State} {c v : Nat} (h : P s) : P (State.tcmCommand s c v) := by
  unfold State.tcmCommand
  with_reducible repeat'
    first
    | assumption | refine ite_keep ?_ ?_ | refine run_keep ?_ ?_ | refine execTcmSearch_keeps C ?_ | refine execTcmStep_keeps C ?_
    | refine execTcmWrite_keeps C ?_ | refine execTcmUpdate_keeps C ?_ | refine execTcmInvalidate_keeps C ?_
    | refine execTcmRead_keeps C ?_ | refine execTcmMove_keeps C ?_ | refine State.tcmRes_keeps C ?_ | intro _ | split

theorem State.patCommand_keeps {s : State} {c v : Nat} (h : P s) : P (State.patCommand s c v) := by
  unfold State.patCommand
  with_reducible repeat'
    first
    | assumption | refine ite_keep ?_ ?_ | refine run_keep ?_ ?_ | refine execLoadSet_keeps C ?_ | refine execActivateSet_keeps C ?_
    | refine execDeleteSet_keeps C ?_ | refine execPatScan_keeps C ?_ | refine State.patRes_keeps C ?_ | intro _ | split

theorem State.silCommand_keeps {s : State} {ch v : Nat} (h : P s) : P (State.silCommand s ch v) := by
  unfold State.silCommand
  with_reducible repeat'
    first
    | assumption | refine ite_keep ?_ ?_ | refine run_keep ?_ ?_ | refine execSilCreate_keeps C ?_ | refine execSilModify_keeps C ?_
    | refine execSilDestroy_keeps C ?_ | refine execSilQuery_keeps C ?_ | refine State.silRes_keeps C ?_ | intro _ | split

theorem State.mkyCommand_keeps {s : State} {ch v : Nat} (h : P s) : P (State.mkyCommand s ch v) := by
  unfold State.mkyCommand
  with_reducible repeat'
    first
    | assumption | refine ite_keep ?_ ?_ | refine run_keep ?_ ?_ | refine execRegisterMkey_keeps C ?_
    | refine execInvalidateMkey_keeps C ?_ | refine execMkyQuery_keeps C ?_ | refine execPrefetch_keeps C ?_
    | refine State.mkyRes_keeps C ?_ | intro _ | split

theorem State.nveCommand_keeps {s : State} {ch v : Nat} (h : P s) : P (State.nveCommand s ch v) := by
  unfold State.nveCommand
  with_reducible repeat'
    first
    | assumption | refine ite_keep ?_ ?_ | refine run_keep ?_ ?_ | refine execBeCreate_keeps C ?_ | refine execBeDestroy_keeps C ?_
    | refine execNsCreate_keeps C ?_ | refine execNsDelete_keeps C ?_ | refine execNsAttach_keeps C ?_ | refine execNsDetach_keeps C ?_
    | refine execNveQuery_keeps C ?_ | refine State.nveRes_keeps C ?_ | intro _ | split

theorem State.keyCommand_keeps {s : State} {ch v : Nat} (h : P s) : P (State.keyCommand s ch v) := by
  unfold State.keyCommand
  with_reducible repeat'
    first
    | assumption | refine ite_keep ?_ ?_ | refine run_keep ?_ ?_ | refine execGenerate_keeps C ?_ | refine execUnwrap_keeps C ?_
    | refine execDerive_keeps C ?_ | refine execKeyDestroy_keeps C ?_ | refine execKeyQuery_keeps C ?_ | refine execKeyMac_keeps C ?_
    | refine execKeyZeroiseTenant_keeps C ?_ | refine State.keyRes_keeps C ?_ | intro _ | split

theorem State.tenCommand_keeps {s : State} {v : Nat} (h : P s) : P (State.tenCommand s v) := by
  unfold State.tenCommand
  with_reducible repeat'
    first
    | assumption | refine ite_keep ?_ ?_ | refine run_keep ?_ ?_ | refine execTenCreate_keeps C ?_ | refine execTenModify_keeps C ?_
    | refine execTenDestroy_keeps C ?_ | refine execTenResume_keeps C ?_ | refine execForceFatal_keeps C ?_
    | refine execTenQuery_keeps C ?_ | refine State.tenRes_keeps C ?_ | intro _ | split

theorem State.strCommand_keeps {s : State} {v : Nat} (h : P s) : P (State.strCommand s v) := by
  unfold State.strCommand
  with_reducible repeat'
    first
    | assumption | refine run_keep ?_ ?_ | refine execStage_keeps C ?_ | refine execSwap_keeps C ?_ | refine execRollback_keeps C ?_
    | refine execCommit_keeps C ?_ | refine execStrAbort_keeps C ?_ | refine execColdApply_keeps C ?_ | refine State.strCmd_keeps C ?_ ?_
    | refine State.strDone_keeps C ?_ | intro _ | split

theorem State.regionCommand_keeps {s : State} {v : Nat} (h : P s) : P (State.regionCommand s v) := by
  unfold State.regionCommand
  with_reducible repeat'
    first
    | assumption | refine C.set ?_ | refine run_keep ?_ ?_ | refine execRegionOffline_keeps C ?_ | refine execRegionOnline_keeps C ?_
    | intro _ | split

theorem State.rcvCommand_keeps {s : State} {v : Nat} (h : P s) : P (State.rcvCommand s v) := by
  unfold State.rcvCommand
  with_reducible repeat'
    first
    | assumption | refine run_keep ?_ ?_ | refine execRecoveryBegin_keeps C ?_ | refine execRecoveryChunk_keeps C ?_
    | refine execRecoveryFinish_keeps C ?_ | refine execRecoveryAbort_keeps C ?_ | intro _ | split

theorem State.refCfg_keeps {s : State} {path addr : Nat} {r : RegRow} {n v : Nat} (h : P s) : P (State.refCfg s path addr r n v) := by
  unfold State.refCfg
  with_reducible repeat'
    first
    | assumption | refine ite_keep ?_ ?_ | refine State.publishUnc_keeps C ?_ | refine State.regWrite_keeps C ?_ | refine C.set ?_
    | refine State.evidence_keeps C ?_ | refine State.disqualify_keeps C ?_

theorem State.msecCfg_keeps {s : State} {path addr : Nat} {r : RegRow} {d p v : Nat} (h : P s) :
    P (State.msecCfg s path addr r d p v) := by
  unfold State.msecCfg
  with_reducible repeat'
    first
    | assumption | refine ite_keep ?_ ?_ | refine State.regWrite_keeps C ?_ | refine each_keep ?_ ?_ | refine when_keep ?_ ?_
    | refine C.set ?_ | intro _

theorem State.portCfg_keeps {s : State} {path addr : Nat} {r : RegRow} {d p v : Nat} (h : P s) :
    P (State.portCfg s path addr r d p v) := by
  unfold State.portCfg
  with_reducible repeat'
    first
    | assumption | refine ite_keep ?_ ?_ | refine State.xoffCfg_keeps C ?_ | refine State.hrStat_keeps C ?_
    | refine State.regWrite_keeps C ?_ | refine when_keep ?_ ?_ | refine run_keep ?_ ?_ | refine execResetThr_keeps C ?_
    | refine execPortEnable_keeps C ?_ | refine execPortDisable_keeps C ?_ | intro _

theorem State.ringCfg_keeps {s : State} {e r v : Nat} (h : P s) : P (State.ringCfg s e r v) := by
  unfold State.ringCfg
  with_reducible repeat'
    first
    | assumption | refine ite_keep ?_ ?_ | refine C.set ?_ | refine run_keep ?_ ?_ | refine execRingEnable_keeps C ?_
    | refine execRingDisable_keeps C ?_ | intro _

theorem State.coreCtl_keeps {s : State} {n i v : Nat} (h : P s) : P (State.coreCtl s n i v) := by
  unfold State.coreCtl
  with_reducible repeat'
    first
    | assumption | refine ite_keep ?_ ?_ | refine run_keep ?_ ?_ | refine execCoreRun_keeps C ?_ | refine execCoreReset_keeps C ?_
    | refine when_keep ?_ ?_ | refine execHaltReq_keeps C ?_ | intro _

theorem State.regEffect_keeps {s : State} {path addr : Nat} {r : RegRow} {sc i v : Nat} (h : P s) :
    P (State.regEffect s path addr r sc i v) := by
  unfold State.regEffect
  with_reducible repeat'
    first
    | assumption | refine ite_keep ?_ ?_ | refine run_keep ?_ ?_ | refine execServoEnWrite_keeps C ?_
    | refine execFaultResolveAToB_keeps C ?_ | refine execFaultResolveBToA_keeps C ?_ | refine execTsTodSetUnc_keeps C ?_
    | refine execOscModeWrite_keeps C ?_ | refine State.refCfg_keeps C ?_ | refine execChainDigestCommit_keeps C ?_
    | refine State.regWrite_keeps C ?_ | refine State.ringResize_keeps C ?_ | refine execTsAmberFetch_keeps C ?_ | refine C.emit ?_
    | refine C.set ?_ | refine State.strCommand_keeps C ?_ | refine State.exmCommand_keeps C ?_ | refine State.tcmCommand_keeps C ?_
    | refine State.patCommand_keeps C ?_ | refine State.silCommand_keeps C ?_ | refine State.mkyCommand_keeps C ?_
    | refine State.nveCommand_keeps C ?_ | refine State.keyCommand_keeps C ?_ | refine State.tenCommand_keeps C ?_
    | refine execPolicerApply_keeps C ?_ | refine execShaperApply_keeps C ?_ | refine execEthModeWrite_keeps C ?_
    | refine State.portCfg_keeps C ?_ | refine State.msecCfg_keeps C ?_ | refine State.xoffCfg_keeps C ?_ | refine State.hrStat_keeps C ?_
    | refine execSaValidWrite_keeps C ?_ | refine State.saInvalid_keeps C ?_ | refine State.coreCtl_keeps C ?_
    | refine execQueueConsWrite_keeps C ?_ | refine execCorIpi_keeps C ?_ | refine State.readiness_keeps C ?_
    | refine execFnMapWrite_keeps C ?_ | refine State.ringCfg_keeps C ?_ | refine execFnOwnerWrite_keeps C ?_ | refine each_keep ?_ ?_
    | refine State.ageDerive_keeps C ?_ | refine State.patBypass_keeps C ?_ | refine execFwAlive_keeps C ?_
    | refine execBootArb_keeps C ?_ | refine State.rcvCommand_keeps C ?_ | refine when_keep ?_ ?_ | refine execOnyxSubmit_keeps C ?_
    | refine execOnyxCancel_keeps C ?_ | refine State.regionCommand_keeps C ?_ | refine execHbmPcRetire_keeps C ?_ | intro _ | split

theorem State.live_keeps {s : State} {r : RegRow} {sc i : Nat} (h : P s) : P (State.live s r sc i) := by
  unfold State.live
  with_reducible repeat'
    first
    | assumption | refine ite_keep ?_ ?_ | refine State.growHold_keeps C ?_ | refine State.movesDue_keeps C ?_ | refine C.set ?_ | split

theorem State.writeReg_keeps {s : State} {path addr : Nat} {r : RegRow} {sc i v : Nat} (h : P s) :
    P (State.writeReg s path addr r sc i v) := by
  unfold State.writeReg
  with_reducible repeat' first | assumption | refine ite_keep ?_ ?_ | refine State.regEffect_keeps C ?_

theorem State.readReg_keeps {s : State} {path : Nat} {r : RegRow} {sc i : Nat} (h : P s) : P (State.readReg s path r sc i) := by
  unfold State.readReg
  with_reducible repeat'
    first
    | assumption | refine ite_keep ?_ ?_ | refine C.answer ?_ | refine State.pktAlloc_keeps C ?_ | refine State.regRead_keeps C ?_
    | refine State.live_keeps C ?_

theorem State.coreWrite_keeps {s : State} {x1 o v : Nat} (h : P s) : P (State.coreWrite s x1 o v) := by
  unfold State.coreWrite
  with_reducible repeat'
    first
    | assumption | refine ite_keep ?_ ?_ | refine C.set ?_ | refine State.timerTest_keeps C ?_ | refine State.coreMsi_keeps C ?_

theorem State.coreRead_keeps {s : State} {x1 o : Nat} (h : P s) : P (State.coreRead s x1 o) := by
  unfold State.coreRead
  with_reducible repeat' first | assumption | refine ite_keep ?_ ?_ | refine C.answer ?_ | refine C.set ?_

theorem State.writeAt_keeps {s : State} {path a v : Nat} (h : P s) : P (State.writeAt s path a v) := by
  unfold State.writeAt
  with_reducible repeat'
    first
    | assumption | refine ite_keep ?_ ?_ | refine State.coreWrite_keeps C ?_ | refine State.writeReg_keeps C ?_
    | refine State.hold_keeps C ?_ | refine State.mwrite_keeps C ?_ | refine State.unmapped_keeps C ?_ | split

theorem State.readAt_keeps {s : State} {path a : Nat} (h : P s) : P (State.readAt s path a) := by
  unfold State.readAt
  with_reducible repeat'
    first
    | assumption | refine ite_keep ?_ ?_ | refine C.answer ?_ | refine State.coreRead_keeps C ?_ | refine State.readReg_keeps C ?_
    | refine State.hold_keeps C ?_ | refine State.unmapped_keeps C ?_ | split

theorem execRegisterWrite_keeps {path addr v : Nat} {s : State} (h : P s) : NextHas P (execRegisterWrite path addr v s) := by
  unfold execRegisterWrite
  refine next_keep ?_
  with_reducible repeat' first | assumption | refine State.writeAt_keeps C ?_

theorem execPartialWrite_keeps {path addr : Nat} {s : State} (h : P s) : NextHas P (execPartialWrite path addr s) := by
  unfold execPartialWrite
  refine next_keep ?_
  with_reducible repeat' first | assumption | refine ite_keep ?_ ?_ | refine State.report1_keeps C ?_

theorem execReadLo_keeps {path addr : Nat} {s : State} (h : P s) : NextHas P (execReadLo path addr s) := by
  unfold execReadLo
  refine next_keep ?_
  with_reducible repeat' first | assumption | refine State.readAt_keeps C ?_

theorem execReadHi_keeps {path addr : Nat} {s : State} (h : P s) : NextHas P (execReadHi path addr s) := by
  unfold execReadHi
  refine next_keep ?_
  with_reducible repeat' first | assumption | refine State.readAt_keeps C ?_

theorem execWriteLo_keeps {path addr v : Nat} {s : State} (h : P s) : NextHas P (execWriteLo path addr v s) := by
  unfold execWriteLo
  refine next_keep ?_
  with_reducible repeat' first | assumption | refine State.writeAt_keeps C ?_

theorem execWriteHi_keeps {path addr v : Nat} {s : State} (h : P s) : NextHas P (execWriteHi path addr v s) := by
  unfold execWriteHi
  refine next_keep ?_
  with_reducible repeat' first | assumption | refine State.writeAt_keeps C ?_

theorem execRcRead_keeps {path addr : Nat} {s : State} (h : P s) : NextHas P (execRcRead path addr s) := by
  unfold execRcRead
  refine next_keep ?_
  with_reducible repeat' first | assumption | refine State.readAt_keeps C ?_

theorem State.clockMark_keeps {s : State} {k d : Nat} {v : Bool} (h : P s) : P (State.clockMark s k d v) := by
  unfold State.clockMark
  with_reducible repeat' first | assumption | refine State.setb_keeps C ?_

theorem State.oscLost_keeps {s : State} (h : P s) : P (State.oscLost s) := by
  unfold State.oscLost
  with_reducible repeat'
    first
    | assumption | refine ite_keep ?_ ?_ | refine C.lset ?_ | refine C.set ?_ | refine C.drew ?_ | refine State.trackUnc_keeps C ?_
    | refine State.enterDisc_keeps C ?_ | refine State.startHold_keeps C ?_ | refine State.deselect_keeps C ?_
    | refine State.evidence_keeps C ?_

theorem State.clockLoss_keeps {s : State} {k d : Nat} (h : P s) : P (State.clockLoss s k d) := by
  unfold State.clockLoss
  with_reducible repeat'
    first
    | assumption | refine ite_keep ?_ ?_ | refine State.deviceFatal_keeps C ?_ | refine State.oscLost_keeps C ?_
    | refine State.evidence_keeps C ?_ | refine State.timeFault_keeps C ?_ | refine State.report_keeps C ?_
    | refine State.repLost_keeps C ?_ | refine each_keep ?_ ?_ | refine State.portClkLost_keeps C ?_ | refine State.linkDown_keeps C ?_
    | refine C.set ?_ | refine when_keep ?_ ?_ | intro _ | split

theorem execClockAbsent_keeps {k d : Nat} {s : State} (h : P s) : NextHas P (execClockAbsent k d s) := by
  unfold execClockAbsent
  refine next_keep ?_
  with_reducible repeat'
    first
    | assumption | refine ite_keep ?_ ?_ | refine State.clockMark_keeps C ?_ | refine when_keep ?_ ?_ | refine State.setb_keeps C ?_
    | refine State.clockLoss_keeps C ?_ | intro _

theorem State.clockBack_keeps {s : State} {k d : Nat} (h : P s) : P (State.clockBack s k d) := by
  unfold State.clockBack
  with_reducible repeat'
    first
    | assumption | refine ite_keep ?_ ?_ | refine each_keep ?_ ?_ | refine C.set ?_ | refine State.ethTrain_keeps C ?_
    | refine when_keep ?_ ?_ | refine State.stage0Go_keeps C ?_ | intro _ | split

theorem State.heldDo_keeps {s : State} {path a kind v : Nat} (h : P s) : P (State.heldDo s path a kind v) := by
  unfold State.heldDo
  with_reducible repeat'
    first
    | assumption | refine ite_keep ?_ ?_ | refine State.writeAt_keeps C ?_ | refine State.readAt_keeps C ?_ | refine C.emit ?_
    | refine C.answer ?_ | refine State.mwrite_keeps C ?_ | split

theorem State.heldEnd_keeps {s : State} {path a kind : Nat} (h : P s) : P (State.heldEnd s path a kind) := by
  unfold State.heldEnd
  with_reducible repeat'
    first
    | assumption | refine ite_keep ?_ ?_ | refine State.report1_keeps C ?_ | refine C.emit ?_ | refine C.answer ?_ | split | dsimp only

theorem State.heldRun_keeps {s : State} {path : Nat} {a : List Nat} (h : P s) : P (State.heldRun s path a) := by
  fun_induction State.heldRun s path a
  all_goals with_reducible repeat'
    first
    | assumption | refine (by assumption : P _ → P _) ?_ | refine ite_keep ?_ ?_ | refine State.heldEnd_keeps C ?_
    | refine State.heldDo_keeps C ?_ | refine C.lset ?_

theorem execClockPresent_keeps {k d : Nat} {hz20 : Bool} {s : State} (h : P s) : NextHas P (execClockPresent k d hz20 s) := by
  unfold execClockPresent
  refine next_keep ?_
  with_reducible repeat'
    first
    | assumption | refine ite_keep ?_ ?_ | refine State.clockBack_keeps C ?_ | refine State.clockMark_keeps C ?_ | refine each_keep ?_ ?_
    | refine State.heldRun_keeps C ?_ | refine C.lset ?_ | intro _

theorem execClockAccessTimeout_keeps {path : Nat} {s : State} (h : P s) : NextHas P (execClockAccessTimeout path s) := by
  unfold execClockAccessTimeout
  refine next_keep ?_
  with_reducible repeat'
    first
    | assumption | refine State.heldEnd_keeps C ?_ | refine C.lset ?_ | refine State.advanceTo_keeps C ?_ | split

theorem execTimeCsrRead_keeps {x0 adv ret : Nat} {s : State} (h : P s) : NextHas P (execTimeCsrRead x0 adv ret s) := by
  unfold execTimeCsrRead
  refine next_keep ?_
  with_reducible repeat'
    first
    | assumption | refine when_keep ?_ ?_ | refine State.addw_keeps C ?_ | refine C.answer ?_ | refine C.set ?_ | intro _

theorem execReplicaRealign_keeps {d : Nat} {s : State} (h : P s) : NextHas P (execReplicaRealign d s) := by
  unfold execReplicaRealign
  refine next_keep ?_
  with_reducible repeat' first | assumption | refine ite_keep ?_ ?_ | refine C.set ?_

theorem State.msixFlush_keeps {s : State} {e f : Nat} (h : P s) : P (State.msixFlush s e f) := by
  unfold State.msixFlush
  with_reducible repeat' first | assumption | refine ite_keep ?_ ?_ | refine each_keep ?_ ?_ | refine State.msix_keeps C ?_ | intro _

theorem State.vfEnable_keeps {s : State} {e f : Nat} (h : P s) : P (State.vfEnable s e f) := by
  unfold State.vfEnable
  with_reducible repeat' first | assumption | refine each_keep ?_ ?_ | refine C.set ?_ | refine State.frs_keeps C ?_ | intro _

theorem State.edge_keeps {s : State} {was now : Nat} {up : State → State} {down : State → State} (h : P s)
    (hup : ∀ a0, P a0 → P (up a0)) (hdown : ∀ a0, P a0 → P (down a0)) :
    P (State.edge s was now up down) := by
  unfold State.edge
  with_reducible repeat' first | assumption | refine hup _ ?_ | refine hdown _ ?_ | refine ite_keep ?_ ?_

theorem State.priEnable_keeps {s : State} {e f : Nat} (h : P s) : P (State.priEnable s e f) := by
  unfold State.priEnable
  with_reducible repeat'
    first
    | assumption | refine ite_keep ?_ ?_ | refine C.set ?_ | refine State.pfAll_keeps C ?_ | refine each_keep ?_ ?_
    | refine State.priAsk_keeps C ?_ | intro _

theorem State.cfgCommand_keeps {s : State} {e f v : Nat} (h : P s) : P (State.cfgCommand s e f v) := by
  unfold State.cfgCommand
  with_reducible repeat'
    first
    | assumption | refine C.set ?_ | refine when_keep ?_ ?_ | refine State.edge_keeps C ?_ ?_ ?_ | refine run_keep ?_ ?_
    | refine execBmeSet_keeps C ?_ | refine execBmeClear_keeps C ?_ | intro _

theorem State.cfgLowWrite_keeps {s : State} {e f off v w : Nat} (h : P s) : P (State.cfgLowWrite s e f off v w) := by
  unfold State.cfgLowWrite
  with_reducible repeat'
    first
    | assumption | refine ite_keep ?_ ?_ | refine C.set ?_ | refine State.cfgCommand_keeps C ?_ | refine when_keep ?_ ?_
    | refine run_keep ?_ ?_ | refine execD3hotEntry_keeps C ?_ | refine execD0Return_keeps C ?_ | refine State.msixFlush_keeps C ?_
    | refine execFlr_keeps C ?_ | intro _ | split

theorem State.sriovWrite_keeps {s : State} {e f o v : Nat} (h : P s) : P (State.sriovWrite s e f o v) := by
  unfold State.sriovWrite
  with_reducible repeat'
    first
    | assumption | refine ite_keep ?_ ?_ | refine C.set ?_ | refine State.edge_keeps C ?_ ?_ ?_ | refine State.vfEnable_keeps C ?_
    | refine run_keep ?_ ?_ | refine execVfEnableClear_keeps C ?_ | intro _ | split

theorem State.ideCtlWrite_keeps {s : State} {e k v : Nat} (h : P s) : P (State.ideCtlWrite s e k v) := by
  unfold State.ideCtlWrite
  with_reducible repeat' first | assumption | refine ite_keep ?_ ?_ | refine C.set ?_

theorem State.ideWrite_keeps {s : State} {e o v w : Nat} (h : P s) : P (State.ideWrite s e o v w) := by
  unfold State.ideWrite
  with_reducible repeat'
    first
    | assumption | refine ite_keep ?_ ?_ | refine State.ideCtlWrite_keeps C ?_ | refine when_keep ?_ ?_ | refine C.set ?_ | intro _
    | split

theorem State.cfgHighWrite_keeps {s : State} {e f off v w : Nat} (h : P s) : P (State.cfgHighWrite s e f off v w) := by
  unfold State.cfgHighWrite
  with_reducible repeat'
    first
    | assumption | refine ite_keep ?_ ?_ | refine C.set ?_ | refine State.sriovWrite_keeps C ?_ | refine State.edge_keeps C ?_ ?_ ?_
    | refine State.fnPages_keeps C ?_ | refine State.priEnable_keeps C ?_ | refine State.ptmStop_keeps C ?_
    | refine State.ideWrite_keeps C ?_ | intro _ | split | dsimp only

theorem execConfigRequest_keeps {e f off : Nat} {write : Bool} {v be bus : Nat} {s : State} (h : P s) :
    NextHas P (execConfigRequest e f off write v be bus s) := by
  unfold execConfigRequest
  refine next_keep ?_
  with_reducible repeat'
    first
    | assumption | refine ite_keep ?_ ?_ | refine C.emit ?_ | refine C.answer ?_ | refine C.set ?_ | refine State.cfgLowWrite_keeps C ?_
    | refine State.cfgHighWrite_keeps C ?_ | refine when_keep ?_ ?_ | refine C.drew ?_ | intro _

theorem State.spotRead_keeps {s : State} {e f : Nat} {t : BarSpot} (h : P s) : P (State.spotRead s e f t) := by
  unfold State.spotRead
  with_reducible repeat'
    first
    | assumption | refine State.readReg_keeps C ?_ | refine C.answer ?_ | refine foldl_keep ?_ ?_ | refine foldl_pair_keep ?_ ?_ | intro _
    | split

theorem State.spotWrite_keeps {s : State} {e f : Nat} {t : BarSpot} {v : Nat} (h : P s) : P (State.spotWrite s e f t v) := by
  unfold State.spotWrite
  with_reducible repeat'
    first
    | assumption | refine ite_keep ?_ ?_ | refine State.writeReg_keeps C ?_ | refine run_keep ?_ ?_ | refine execDoorbellCons_keeps C ?_
    | refine execDoorbellTail_keeps C ?_ | refine C.set ?_ | refine when_keep ?_ ?_ | refine State.msix_keeps C ?_
    | refine State.nvmeWrite_keeps C ?_ | intro _ | split

theorem State.unsupported_keeps {s : State} {e f : Nat} {write : Bool} (h : P s) : P (State.unsupported s e f write) := by
  unfold State.unsupported
  with_reducible repeat'
    first
    | assumption | refine ite_keep ?_ ?_ | refine when_keep ?_ ?_ | refine State.aerU_keeps C ?_ | refine C.emit ?_ | refine C.answer ?_
    | intro _

theorem State.spotPartial_keeps {s : State} {e f b o : Nat} (h : P s) : P (State.spotPartial s e f b o) := by
  unfold State.spotPartial
  with_reducible repeat' first | assumption | refine State.report1_keeps C ?_ | split | dsimp only

theorem State.barRead_keeps {s : State} {e f b o len : Nat} (h : P s) : P (State.barRead s e f b o len) := by
  unfold State.barRead
  with_reducible repeat'
    first
    | assumption | refine ite_keep ?_ ?_ | refine C.emit ?_ | refine C.answer ?_ | refine State.hold_keeps C ?_ | refine each_keep ?_ ?_
    | refine State.readAt_keeps C ?_ | refine State.spotRead_keeps C ?_ | refine foldl_keep ?_ ?_ | refine foldl_pair_keep ?_ ?_ | intro _
    | split

theorem State.barWrite_keeps {s : State} {e f b o : Nat} {data : List Nat} (h : P s) : P (State.barWrite s e f b o data) := by
  unfold State.barWrite
  with_reducible repeat'
    first
    | assumption | refine ite_keep ?_ ?_ | refine C.lset ?_ | refine State.mwrite_keeps C ?_ | refine State.hold_keeps C ?_
    | refine each_keep ?_ ?_ | refine State.writeAt_keeps C ?_ | refine run_keep ?_ ?_ | refine execPartialWrite_keeps C ?_
    | refine State.spotWrite_keeps C ?_ | refine State.spotPartial_keeps C ?_ | intro _

theorem execBarRequest_keeps {e rid f b : Nat} {write : Bool} {o len : Nat} {data : List Nat} {s : State} (h : P s) :
    NextHas P (execBarRequest e rid f b write o len data s) := by
  unfold execBarRequest
  refine next_keep ?_
  with_reducible repeat'
    first
    | assumption | refine ite_keep ?_ ?_ | refine C.set ?_ | refine State.unsupported_keeps C ?_ | refine State.barWrite_keeps C ?_
    | refine State.barRead_keeps C ?_

theorem State.ncsiDo_keeps {s : State} {n type : Nat} {p : List Nat} (h : P s) : P (State.ncsiDo s n type p).1 := by
  unfold State.ncsiDo
  with_reducible repeat'
    first
    | assumption | refine ite_keep ?_ ?_ | refine C.set ?_ | refine State.ncsiReset_keeps C ?_ | refine C.drew ?_ | intro _ | split
    | dsimp only

theorem State.ncsiAnswer_keeps {s : State} {b : List Nat} {data : List Nat} (h : P s) : P (State.ncsiAnswer s b data) := by
  unfold State.ncsiAnswer
  with_reducible repeat' first | assumption | refine State.bump_keeps C ?_ | refine C.emit ?_

theorem State.ncsiCommand_keeps {s : State} {b : List Nat} (h : P s) : P (State.ncsiCommand s b) := by
  unfold State.ncsiCommand
  with_reducible repeat'
    first
    | assumption | refine ite_keep ?_ ?_ | refine State.ncsiAnswer_keeps C ?_ | refine State.bump_keeps C ?_ | refine C.set ?_
    | refine State.ncsiDo_keeps C ?_ | split | refine pair_keep (by assumption) ?_ | dsimp only

theorem execNcsiCommand_keeps {b : List Nat} {s : State} (h : P s) : NextHas P (execNcsiCommand b s) := by
  unfold execNcsiCommand
  refine next_keep ?_
  with_reducible repeat' first | assumption | refine ite_keep ?_ ?_ | refine State.bump_keeps C ?_ | refine State.ncsiCommand_keeps C ?_

theorem execNcsiFrameTransmit_keeps {n at_ : Nat} {b : List Nat} {s : State} (h : P s) : NextHas P (execNcsiFrameTransmit n at_ b s) := by
  unfold execNcsiFrameTransmit
  refine next_keep ?_
  with_reducible repeat'
    first
    | assumption | refine ite_keep ?_ ?_ | refine State.advanceTo_keeps C ?_ | refine State.bump_keeps C ?_ | refine C.lset ?_
    | refine State.ncsiSend_keeps C ?_

theorem State.park_keeps {s : State} (h : P s) : P (State.park s) := by
  unfold State.park
  with_reducible repeat'
    first
    | assumption | refine ite_keep ?_ ?_ | refine each_keep ?_ ?_ | refine C.emit ?_ | refine C.set ?_ | intro _

theorem State.amberLast_keeps {s : State} (h : P s) : P (State.amberLast s) := by
  unfold State.amberLast
  with_reducible repeat'
    first
    | assumption | refine ite_keep ?_ ?_ | refine each_keep ?_ ?_ | refine State.logProgram_keeps C ?_ | refine State.bump_keeps C ?_
    | refine C.set ?_ | refine C.lset ?_ | intro _

theorem State.persistLast_keeps {s : State} (h : P s) : P (State.persistLast s) := by
  unfold State.persistLast
  with_reducible repeat'
    first
    | assumption | refine ite_keep ?_ ?_ | refine C.set ?_ | refine State.persist_keeps C ?_ | refine State.bump_keeps C ?_

theorem State.arbCut_keeps {s : State} {blown : Nat} (h : P s) : P (State.arbCut s blown) := by
  unfold State.arbCut
  with_reducible repeat' first | assumption | refine ite_keep ?_ ?_ | refine C.set ?_

theorem execPowerFailWarning_keeps {blown : Nat} {s : State} (h : P s) : NextHas P (execPowerFailWarning blown s) := by
  unfold execPowerFailWarning
  refine next_keep ?_
  with_reducible repeat'
    first
    | assumption | refine ite_keep ?_ ?_ | refine State.park_keeps C ?_ | refine C.set ?_ | refine State.rcvCut_keeps C ?_
    | refine State.arbCut_keeps C ?_ | refine State.persistLast_keeps C ?_ | refine State.amberLast_keeps C ?_
    | refine State.advanceTo_keeps C ?_

theorem State.holdReset_keeps {s : State} (h : P s) : P (State.holdReset s) := by
  unfold State.holdReset
  with_reducible repeat' first | assumption | refine C.set ?_ | refine State.porReset_keeps C ?_ | refine State.linkDown_keeps C ?_

theorem State.amberTorn_keeps {s : State} (h : P s) : P (State.amberTorn s) := by
  unfold State.amberTorn
  with_reducible repeat' first | assumption | refine State.addw_keeps C ?_ | refine C.lset ?_ | split

theorem execRailDrop_keeps {rail : Nat} {logged : Bool} {saved : Bool} {blown : Nat} {s : State} (h : P s) :
    NextHas P (execRailDrop rail logged saved blown s) := by
  unfold execRailDrop
  refine next_keep ?_
  with_reducible repeat'
    first
    | assumption | refine ite_keep ?_ ?_ | refine State.park_keeps C ?_ | refine C.set ?_ | refine State.amberLast_keeps C ?_
    | refine State.amberTorn_keeps C ?_ | refine State.rcvCut_keeps C ?_ | refine State.arbCut_keeps C ?_
    | refine State.persistLast_keeps C ?_ | refine State.holdReset_keeps C ?_

theorem execMainRailsRemoved_keeps {s : State} (h : P s) : NextHas P (execMainRailsRemoved s) := by
  unfold execMainRailsRemoved
  refine next_keep ?_
  with_reducible repeat'
    first
    | assumption | refine ite_keep ?_ ?_ | refine C.set ?_ | refine State.holdReset_keeps C ?_ | refine State.rcvCut_keeps C ?_

theorem execMainRailsGood_keeps {s : State} (h : P s) : NextHas P (execMainRailsGood s) := by
  unfold execMainRailsGood
  refine next_keep ?_
  with_reducible repeat'
    first
    | assumption | refine ite_keep ?_ ?_ | refine each_keep ?_ ?_ | refine C.set ?_ | refine C.emit ?_ | intro _

theorem State.vauxReset_keeps {s : State} (h : P s) : P (State.vauxReset s) := by
  unfold State.vauxReset
  with_reducible repeat' first | assumption | refine State.setb_keeps C ?_ | refine each_keep ?_ ?_ | intro _ | exact C.only h

theorem execVauxUp_keeps {s : State} (h : P s) : NextHas P (execVauxUp s) := by
  unfold execVauxUp
  refine next_keep ?_
  with_reducible repeat' first | assumption | refine ite_keep ?_ ?_ | refine C.set ?_ | refine State.vauxReset_keeps C ?_

theorem execVauxLoss_keeps {s : State} (h : P s) : NextHas P (execVauxLoss s) := by
  unfold execVauxLoss
  refine next_keep ?_
  with_reducible repeat' first | assumption | refine ite_keep ?_ ?_ | refine C.set ?_ | refine State.vauxReset_keeps C ?_

theorem State.thermRead_keeps {s : State} {d tj : Nat} (h : P s) : P (State.thermRead s d tj) := by
  unfold State.thermRead
  with_reducible repeat' first | assumption | refine ite_keep ?_ ?_ | refine C.set ?_

theorem execThermalWarn_keeps {d tj : Nat} {s : State} (h : P s) : NextHas P (execThermalWarn d tj s) := by
  unfold execThermalWarn
  refine next_keep ?_
  with_reducible repeat' first | assumption | refine State.thermRead_keeps C ?_

theorem execThermalWarnClear_keeps {d tj : Nat} {s : State} (h : P s) : NextHas P (execThermalWarnClear d tj s) := by
  unfold execThermalWarnClear
  refine next_keep ?_
  with_reducible repeat' first | assumption | refine State.thermRead_keeps C ?_

theorem execThermtrip_keeps {d tj : Nat} {s : State} (h : P s) : NextHas P (execThermtrip d tj s) := by
  unfold execThermtrip
  refine next_keep ?_
  with_reducible repeat'
    first
    | assumption | refine ite_keep ?_ ?_ | refine State.thermRead_keeps C ?_ | refine State.report_keeps C ?_ | refine C.emit ?_
    | refine C.set ?_

theorem State.trainFail_keeps {s : State} {a b : Nat} (h : P s) : P (State.trainFail s a b) := by
  unfold State.trainFail
  with_reducible repeat'
    first
    | assumption | refine State.stage0Go_keeps C ?_ | refine State.linkFail_keeps C ?_ | refine State.advanceTo_keeps C ?_

theorem execPeingLinkTrained_keeps {a b spares : Nat} {s : State} (h : P s) : NextHas P (execPeingLinkTrained a b spares s) := by
  unfold execPeingLinkTrained
  refine next_keep ?_
  with_reducible repeat'
    first
    | assumption | refine ite_keep ?_ ?_ | refine State.trainFail_keeps C ?_ | refine State.stage0Go_keeps C ?_
    | refine State.setLink_keeps C ?_ | refine C.set ?_

theorem execPeingTrainTimeout_keeps {a b : Nat} {s : State} (h : P s) : NextHas P (execPeingTrainTimeout a b s) := by
  unfold execPeingTrainTimeout
  refine next_keep ?_
  with_reducible repeat' first | assumption | refine ite_keep ?_ ?_ | refine State.trainFail_keeps C ?_

theorem execPowerOnResetAssert_keeps {s : State} (h : P s) : NextHas P (execPowerOnResetAssert s) := by
  unfold execPowerOnResetAssert
  refine next_keep ?_
  with_reducible repeat' first | assumption | refine ite_keep ?_ ?_ | refine State.holdReset_keeps C ?_

theorem execPowerOnReset_keeps {clk : Bool} {size : Nat} {s : State} (h : P s) : NextHas P (execPowerOnReset clk size s) := by
  unfold execPowerOnReset
  refine next_keep ?_
  with_reducible repeat'
    first
    | assumption | refine ite_keep ?_ ?_ | refine State.porRelease_keeps C ?_ | refine C.set ?_ | refine State.holdReset_keeps C ?_

theorem State.roceEmit_keeps {s : State} {c psn : Nat} {data : Bool} {u : List Nat} (h : P s) : P (State.roceEmit s c psn data u) := by
  unfold State.roceEmit
  with_reducible repeat' first | assumption | refine State.netSend_keeps C ?_

theorem State.roceUna_keeps {s : State} {c : Nat} (h : P s) : P (State.roceUna s c) := by
  unfold State.roceUna
  with_reducible repeat' first | assumption | refine each_keep ?_ ?_ | refine C.set ?_ | intro _ | split | dsimp only

theorem State.roceNew_keeps {s : State} {c op m cnt : Nat} {last : Bool} {ext : List Nat} {pl : List Nat} (h : P s) :
    P (State.roceNew s c op m cnt last ext pl) := by
  unfold State.roceNew
  with_reducible repeat'
    first
    | assumption | refine C.set ?_ | refine C.lset ?_ | refine State.rtSent_keeps C ?_ | refine State.roceEmit_keeps C ?_
    | refine State.paceSet_keeps C ?_

theorem State.roceResend_keeps {s : State} {n c i : Nat} (h : P s) : P (State.roceResend s n c i) := by
  unfold State.roceResend
  with_reducible repeat'
    first
    | assumption | refine ite_keep ?_ ?_ | refine State.cnError_keeps C ?_ | refine State.bump_keeps C ?_ | refine State.rtSent_keeps C ?_
    | refine State.addw_keeps C ?_ | refine when_keep ?_ ?_ | refine C.set ?_ | refine State.roceEmit_keeps C ?_
    | refine State.paceSet_keeps C ?_ | intro _

theorem State.roceMsg_keeps {s : State} {n c m : Nat} (h : P s) : P (State.roceMsg s n c m) := by
  unfold State.roceMsg
  with_reducible repeat'
    first
    | assumption | refine ite_keep ?_ ?_ | refine State.msgFetch_keeps C ?_ | refine State.cnError_keeps C ?_ | refine when_keep ?_ ?_
    | refine C.set ?_ | refine State.roceNew_keeps C ?_ | refine C.lset ?_ | intro _ | split

theorem State.roceAck_keeps {s : State} {c psn syn : Nat} (h : P s) : P (State.roceAck s c psn syn) := by
  unfold State.roceAck
  with_reducible repeat' first | assumption | refine State.roceEmit_keeps C ?_ | refine C.set ?_

theorem State.roceResp_keeps {s : State} {n c m : Nat} (h : P s) : P (State.roceResp s n c m) := by
  unfold State.roceResp
  with_reducible repeat'
    first
    | assumption | refine ite_keep ?_ ?_ | refine State.respEnd_keeps C ?_ | refine State.roceAck_keeps C ?_
    | refine State.respStart_keeps C ?_ | refine State.roceEmit_keeps C ?_ | refine State.paceSet_keeps C ?_
    | refine State.respFetch_keeps C ?_ | refine C.lset ?_ | refine C.set ?_ | refine when_keep ?_ ?_ | intro _ | split | dsimp only

theorem State.roceStep_keeps {s : State} {n c : Nat} (h : P s) : P (State.roceStep s n c) := by
  unfold State.roceStep
  with_reducible repeat'
    first
    | assumption | refine ite_keep ?_ ?_ | refine State.cnError_keeps C ?_ | refine State.respEnd_keeps C ?_
    | refine State.roceAck_keeps C ?_ | refine State.keyFail_keeps C ?_ | refine State.roceResp_keeps C ?_
    | refine State.roceResend_keeps C ?_ | refine when_keep ?_ ?_ | refine State.msgStart_keeps C ?_ | refine State.roceMsg_keeps C ?_
    | intro _ | split | dsimp only

theorem execSillagePacketSend_keeps {c at_ : Nat} {agree : Bool} {s : State} (h : P s) :
    NextHas P (execSillagePacketSend c at_ agree s) := by
  unfold execSillagePacketSend
  refine next_keep ?_
  with_reducible repeat'
    first
    | assumption | refine ite_keep ?_ ?_ | refine State.advanceTo_keeps C ?_ | refine State.cacheMiss_keeps C ?_
    | refine State.cacheTouch_keeps C ?_ | refine State.roceStep_keeps C ?_ | refine State.txKey_keeps C ?_
    | refine State.silStep_keeps C ?_ | split | refine pair_keep (by assumption) ?_

theorem State.roceReap_keeps {s : State} {c : Nat} (h : P s) : P (State.roceReap s c) := by
  unfold State.roceReap
  with_reducible repeat'
    first
    | assumption | refine ite_keep ?_ ?_ | refine each_keep ?_ ?_ | refine State.msgAnswered_keeps C ?_ | refine C.set ?_
    | refine State.roceUna_keeps C ?_ | intro _

theorem State.roceAcked_keeps {s : State} {c p : Nat} (h : P s) : P (State.roceAcked s c p) := by
  unfold State.roceAcked
  with_reducible repeat'
    first
    | assumption | refine ite_keep ?_ ?_ | refine C.set ?_ | refine each_keep ?_ ?_ | refine State.rtAck_keeps C ?_ | intro _

theorem State.roceBack_keeps {s : State} {c p : Nat} (h : P s) : P (State.roceBack s c p) := by
  unfold State.roceBack
  with_reducible repeat' first | assumption | refine each_keep ?_ ?_ | refine C.set ?_ | intro _

theorem State.roceFail_keeps {s : State} {c p st : Nat} (h : P s) : P (State.roceFail s c p st) := by
  unfold State.roceFail
  with_reducible repeat' first | assumption | refine ite_keep ?_ ?_ | refine State.msReport_keeps C ?_ | refine State.cnError_keeps C ?_

theorem State.roceAckIn_keeps {s : State} {c p syn : Nat} (h : P s) : P (State.roceAckIn s c p syn) := by
  unfold State.roceAckIn
  with_reducible repeat'
    first
    | assumption | refine ite_keep ?_ ?_ | refine State.roceReap_keeps C ?_ | refine State.roceAcked_keeps C ?_
    | refine State.roceFail_keeps C ?_ | refine State.roceBack_keeps C ?_ | refine State.addw_keeps C ?_ | refine C.set ?_ | split

theorem State.roceRespIn_keeps {s : State} {n c p : Nat} {atomic : Bool} {pl : List Nat} (h : P s) :
    P (State.roceRespIn s n c p atomic pl) := by
  unfold State.roceRespIn
  with_reducible repeat'
    first
    | assumption | refine ite_keep ?_ ?_ | refine C.set ?_ | refine State.roceAcked_keeps C ?_ | refine State.placeKey_keeps C ?_
    | refine State.addw_keeps C ?_ | refine State.roceReap_keeps C ?_ | refine State.msgAnswered_keeps C ?_
    | refine State.rtAck_keeps C ?_ | refine State.cnError_keeps C ?_ | refine State.msReport_keeps C ?_ | split
    | refine pair_keep (by assumption) ?_ | dsimp only

theorem State.roceBuf_keeps {s : State} {c : Nat} (h : P s) : P (State.roceBuf s c).1 := by
  unfold State.roceBuf
  with_reducible repeat'
    first
    | assumption | refine ite_keep ?_ ?_ | refine State.cqPause_keeps C ?_ | refine State.reserve_keeps C ?_ | intro _ | split

theorem State.roceReq_keeps {s : State} {n c op psn : Nat} {b : List Nat} (h : P s) : P (State.roceReq s n c op psn b).1 := by
  unfold State.roceReq
  with_reducible repeat'
    first
    | assumption | refine ite_keep ?_ ?_ | refine State.clr_keeps C ?_ | refine C.set ?_ | refine State.addw_keeps C ?_
    | refine when_keep ?_ ?_ | refine State.bufUsed_keeps C ?_ | refine State.recvDone_keeps C ?_ | refine State.keyMiss_keeps C ?_
    | refine State.placeGate_keeps C ?_ | refine State.lpush_keeps C ?_ | refine State.keyFail_keeps C ?_
    | refine State.roceBuf_keeps C ?_ | refine State.workDone_keeps C ?_ | refine State.placeKey_keeps C ?_ | refine foldl_keep ?_ ?_
    | refine foldl_pair_keep ?_ ?_ | intro _ | split | refine pair_keep (by assumption) ?_ | dsimp only

theorem State.roceCnp_keeps {s : State} {c : Nat} (h : P s) : P (State.roceCnp s c) := by
  unfold State.roceCnp
  with_reducible repeat' first | assumption | refine ite_keep ?_ ?_ | refine State.roceEmit_keeps C ?_ | refine C.set ?_

theorem State.roceReqIn_keeps {s : State} {n c x3 op psn : Nat} {ack : Bool} {b : List Nat} (h : P s) :
    P (State.roceReqIn s n c x3 op psn ack b) := by
  unfold State.roceReqIn
  with_reducible repeat'
    first
    | assumption | refine ite_keep ?_ ?_ | refine State.roceReq_keeps C ?_ | refine C.set ?_ | refine State.roceAck_keeps C ?_
    | refine State.engineTake_keeps C ?_ | refine State.cnError_keeps C ?_ | refine State.bump_keeps C ?_ | refine State.lpush_keeps C ?_
    | split | refine pair_keep (by assumption) ?_

theorem execRocePacketReceive_keeps {n x1 : Nat} {s : State} (h : P s) : NextHas P (execRocePacketReceive n x1 s) := by
  unfold execRocePacketReceive
  refine next_keep ?_
  with_reducible repeat'
    first
    | assumption | refine ite_keep ?_ ?_ | refine State.engineTake_keeps C ?_ | refine State.bump_keeps C ?_
    | refine State.cacheMiss_keeps C ?_ | refine C.set ?_ | refine State.cacheTouch_keeps C ?_ | refine when_keep ?_ ?_
    | refine State.roceCnp_keeps C ?_ | refine State.halve_keeps C ?_ | refine State.roceAckIn_keeps C ?_
    | refine State.roceRespIn_keeps C ?_ | refine State.roceReqIn_keeps C ?_ | intro _ | split

theorem State.spdmSend_keeps {s : State} {e ss : Nat} {b : List Nat} (h : P s) : P (State.spdmSend s e ss b) := by
  unfold State.spdmSend
  with_reducible repeat' first | assumption | refine ite_keep ?_ ?_ | refine C.emit ?_ | refine State.addw_keeps C ?_

theorem State.spdmErr_keeps {s : State} {e ss code : Nat} (h : P s) : P (State.spdmErr s e ss code) := by
  unfold State.spdmErr
  with_reducible repeat' first | assumption | refine State.spdmSend_keeps C ?_

theorem State.spdmRun_keeps {s : State} {e ss : Nat} {ok : Bool} {f : State → State} (h : P s) (hf : ∀ a0, P a0 → P (f a0)) :
    P (State.spdmRun s e ss ok f) := by
  unfold State.spdmRun
  with_reducible repeat' first | assumption | refine hf _ ?_ | refine ite_keep ?_ ?_ | refine State.spdmErr_keeps C ?_

theorem execGetVersion_keeps {e : Nat} {s : State} (h : P s) : NextHas P (execGetVersion e s) := by
  unfold execGetVersion
  refine next_keep ?_
  with_reducible repeat'
    first
    | assumption | refine State.spdmRun_keeps C ?_ ?_ | refine each_keep ?_ ?_ | refine C.lset ?_ | refine C.set ?_
    | refine State.spdmSend_keeps C ?_ | intro _

theorem execGetCapabilities_keeps {e p1 p2 : Nat} {data : List Nat} {s : State} (h : P s) :
    NextHas P (execGetCapabilities e p1 p2 data s) := by
  unfold execGetCapabilities
  refine next_keep ?_
  with_reducible repeat'
    first
    | assumption | refine State.spdmRun_keeps C ?_ ?_ | refine C.lset ?_ | refine C.set ?_ | refine C.drew ?_
    | refine State.spdmSend_keeps C ?_ | intro _

theorem execNegotiateAlgorithms_keeps {e p1 p2 : Nat} {data : List Nat} {s : State} (h : P s) :
    NextHas P (execNegotiateAlgorithms e p1 p2 data s) := by
  unfold execNegotiateAlgorithms
  refine next_keep ?_
  with_reducible repeat'
    first
    | assumption | refine State.spdmRun_keeps C ?_ ?_ | refine C.lset ?_ | refine C.set ?_ | refine State.spdmSend_keeps C ?_ | intro _

theorem execGetDigests_keeps {e ss : Nat} {s : State} (h : P s) : NextHas P (execGetDigests e ss s) := by
  unfold execGetDigests
  refine next_keep ?_
  with_reducible repeat'
    first
    | assumption | refine State.spdmRun_keeps C ?_ ?_ | refine State.spdmSend_keeps C ?_ | refine C.lset ?_ | intro _

theorem execGetCertificate_keeps {e ss p1 p2 : Nat} {data : List Nat} {s : State} (h : P s) :
    NextHas P (execGetCertificate e ss p1 p2 data s) := by
  unfold execGetCertificate
  refine next_keep ?_
  with_reducible repeat'
    first
    | assumption | refine ite_keep ?_ ?_ | refine State.spdmRun_keeps C ?_ ?_ | refine State.spdmErr_keeps C ?_
    | refine State.spdmSend_keeps C ?_ | refine C.lset ?_ | intro _

theorem execChallenge_keeps {e p1 p2 : Nat} {data : List Nat} {s : State} (h : P s) : NextHas P (execChallenge e p1 p2 data s) := by
  unfold execChallenge
  refine next_keep ?_
  with_reducible repeat'
    first
    | assumption | refine ite_keep ?_ ?_ | refine State.spdmRun_keeps C ?_ ?_ | refine State.spdmErr_keeps C ?_
    | refine State.freeBytes_keeps C ?_ | refine State.spdmSend_keeps C ?_ | refine C.lset ?_ | intro _

theorem execGetMeasurements_keeps {e ss p1 p2 : Nat} {data : List Nat} {s : State} (h : P s) :
    NextHas P (execGetMeasurements e ss p1 p2 data s) := by
  unfold execGetMeasurements
  refine next_keep ?_
  with_reducible repeat'
    first
    | assumption | refine ite_keep ?_ ?_ | refine State.spdmRun_keeps C ?_ ?_ | refine State.spdmErr_keeps C ?_
    | refine State.freeBytes_keeps C ?_ | refine State.spdmSend_keeps C ?_ | refine C.lset ?_ | intro _

theorem execKeyExchange_keeps {e p1 p2 : Nat} {data : List Nat} {s : State} (h : P s) : NextHas P (execKeyExchange e p1 p2 data s) := by
  unfold execKeyExchange
  refine next_keep ?_
  with_reducible repeat'
    first
    | assumption | refine ite_keep ?_ ?_ | refine State.spdmRun_keeps C ?_ ?_ | refine State.spdmErr_keeps C ?_
    | refine State.freeBytes_keeps C ?_ | refine C.drew ?_ | refine C.set ?_ | refine State.spdmSend_keeps C ?_ | refine C.lset ?_
    | intro _ | split

theorem execSpdmFinish_keeps {e ss p1 p2 : Nat} {data : List Nat} {s : State} (h : P s) :
    NextHas P (execSpdmFinish e ss p1 p2 data s) := by
  unfold execSpdmFinish
  refine next_keep ?_
  with_reducible repeat'
    first
    | assumption | refine ite_keep ?_ ?_ | refine State.spdmRun_keeps C ?_ ?_ | refine State.spdmSend_keeps C ?_ | refine C.lset ?_
    | refine C.set ?_ | refine State.spdmErr_keeps C ?_ | intro _

theorem execHeartbeat_keeps {e ss : Nat} {s : State} (h : P s) : NextHas P (execHeartbeat e ss s) := by
  unfold execHeartbeat
  refine next_keep ?_
  with_reducible repeat' first | assumption | refine State.spdmRun_keeps C ?_ ?_ | refine State.spdmSend_keeps C ?_ | intro _

theorem execKeyUpdate_keeps {e ss p1 p2 : Nat} {s : State} (h : P s) : NextHas P (execKeyUpdate e ss p1 p2 s) := by
  unfold execKeyUpdate
  refine next_keep ?_
  with_reducible repeat'
    first
    | assumption | refine ite_keep ?_ ?_ | refine State.spdmRun_keeps C ?_ ?_ | refine State.spdmErr_keeps C ?_
    | refine State.spdmSend_keeps C ?_ | refine C.set ?_ | refine C.lset ?_ | intro _

theorem execEndSession_keeps {e ss : Nat} {s : State} (h : P s) : NextHas P (execEndSession e ss s) := by
  unfold execEndSession
  refine next_keep ?_
  with_reducible repeat'
    first
    | assumption | refine State.spdmRun_keeps C ?_ ?_ | refine C.lset ?_ | refine C.set ?_ | refine State.spdmSend_keeps C ?_ | intro _

theorem execIdeKmKeyProgram_keeps {e ss stream sub dir : Nat} {go : Bool} {key : List Nat} {s : State} (h : P s) :
    NextHas P (execIdeKmKeyProgram e ss stream sub dir go key s) := by
  unfold execIdeKmKeyProgram
  refine next_keep ?_
  with_reducible repeat'
    first
    | assumption | refine ite_keep ?_ ?_ | refine State.spdmRun_keeps C ?_ ?_ | refine when_keep ?_ ?_ | refine State.setb_keeps C ?_
    | refine C.set ?_ | refine State.spdmSend_keeps C ?_ | refine C.lset ?_ | intro _

theorem execDoeDiscovery_keeps {e ix : Nat} {s : State} (h : P s) : NextHas P (execDoeDiscovery e ix s) := by
  unfold execDoeDiscovery
  refine next_keep ?_
  with_reducible repeat' first | assumption | refine ite_keep ?_ ?_ | refine C.emit ?_

/-- What every primitive operation keeps, every command keeps. -/
theorem exec_keeps (i : Instr) {s : State} (h : P s) : NextHas P (exec i s) := by
  cases i with
  | registerWrite => exact execRegisterWrite_keeps C h
  | partialWrite => exact execPartialWrite_keeps C h
  | readLo => exact execReadLo_keeps C h
  | readHi => exact execReadHi_keeps C h
  | writeLo => exact execWriteLo_keeps C h
  | writeHi => exact execWriteHi_keeps C h
  | rcRead => exact execRcRead_keeps C h
  | powerOnReset => exact execPowerOnReset_keeps C h
  | peingLinkTrained => exact execPeingLinkTrained_keeps C h
  | peingTrainTimeout => exact execPeingTrainTimeout_keeps C h
  | peingCorrectableError => exact execPeingCorrectableError_keeps C h
  | peingWireFault => exact execPeingWireFault_keeps C h
  | cellFault => exact execCellFault_keeps C h
  | voltageStep => exact execVoltageStep_keeps C h
  | clockAbsent => exact execClockAbsent_keeps C h
  | clockPresent => exact execClockPresent_keeps C h
  | clockAccessTimeout => exact execClockAccessTimeout_keeps C h
  | regionSpeedMeasure => exact execRegionSpeedMeasure_keeps C h
  | timeCsrRead => exact execTimeCsrRead_keeps C h
  | abDiffMeasure => exact execAbDiffMeasure_keeps C h
  | replicaRealign => exact execReplicaRealign_keeps C h
  | referenceMeasurement => exact execReferenceMeasurement_keeps C h
  | measurementMissing => exact execMeasurementMissing_keeps C h
  | wtrExpiry => exact execWtrExpiry_keeps C h
  | slewComplete => exact execSlewComplete_keeps C h
  | tsTodSetUnc => exact execTsTodSetUnc_keeps C h
  | servoEnWrite => exact execServoEnWrite_keeps C h
  | faultResolveAToB => exact execFaultResolveAToB_keeps C h
  | faultResolveBToA => exact execFaultResolveBToA_keeps C h
  | uncUpdateTick => exact execUncUpdateTick_keeps C h
  | holdoverMaxReached => exact execHoldoverMaxReached_keeps C h
  | holdoverFreqUpdate => exact execHoldoverFreqUpdate_keeps C h
  | oscModeWrite => exact execOscModeWrite_keeps C h
  | learnSample => exact execLearnSample_keeps C h
  | learnValid => exact execLearnValid_keeps C h
  | periodic => exact execPeriodic_keeps C h
  | amberRingDeliver => exact execAmberRingDeliver_keeps C h
  | amberLogProgram => exact execAmberLogProgram_keeps C h
  | tsAmberFetch => exact execTsAmberFetch_keeps C h
  | chainDigestCommit => exact execChainDigestCommit_keeps C h
  | tsuCalibrate => exact execTsuCalibrate_keeps C h
  | tsuCalibrationDone => exact execTsuCalibrationDone_keeps C h
  | launchGateArrival => exact execLaunchGateArrival_keeps C h
  | launchRelease => exact execLaunchRelease_keeps C h
  | timePageUpdate => exact execTimePageUpdate_keeps C h
  | ptmDialogueStart => exact execPtmDialogueStart_keeps C h
  | ptmResponse => exact execPtmResponse_keeps C h
  | ptmTimeout => exact execPtmTimeout_keeps C h
  | ppsOutEdge => exact execPpsOutEdge_keeps C h
  | ppsPulseEnd => exact execPpsPulseEnd_keeps C h
  | stage => exact execStage_keeps C h
  | stageComplete => exact execStageComplete_keeps C h
  | swap => exact execSwap_keeps C h
  | epochFlip => exact execEpochFlip_keeps C h
  | rollback => exact execRollback_keeps C h
  | epochFlipBack => exact execEpochFlipBack_keeps C h
  | commit => exact execCommit_keeps C h
  | strAbort => exact execStrAbort_keeps C h
  | coldApply => exact execColdApply_keeps C h
  | coldApplyLoad => exact execColdApplyLoad_keeps C h
  | regionDrained => exact execRegionDrained_keeps C h
  | drainLimitExpiry => exact execDrainLimitExpiry_keeps C h
  | drainBackRewriteDone => exact execDrainBackRewriteDone_keeps C h
  | commitWatchdogExpiry => exact execCommitWatchdogExpiry_keeps C h
  | frameReceive => exact execFrameReceive_keeps C h
  | packetParse => exact execPacketParse_keeps C h
  | nop => exact execNop_keeps C h
  | mov => exact execMov_keeps C h
  | add => exact execAdd_keeps C h
  | sub => exact execSub_keeps C h
  | and => exact execAnd_keeps C h
  | or => exact execOr_keeps C h
  | xor => exact execXor_keeps C h
  | shl => exact execShl_keeps C h
  | shr => exact execShr_keeps C h
  | cmpEq => exact execCmpEq_keeps C h
  | cmpLt => exact execCmpLt_keeps C h
  | hash => exact execHash_keeps C h
  | lookupEm => exact execLookupEm_keeps C h
  | lookupTcam => exact execLookupTcam_keeps C h
  | learn => exact execLearn_keeps C h
  | meter => exact execMeter_keeps C h
  | punt => exact execPunt_keeps C h
  | drop => exact execDrop_keeps C h
  | forward => exact execForward_keeps C h
  | setTsOp => exact execSetTsOp_keeps C h
  | setEpochHint => exact execSetEpochHint_keeps C h
  | treeWalk => exact execTreeWalk_keeps C h
  | automataScan => exact execAutomataScan_keeps C h
  | cipherOperation => exact execCipherOperation_keeps C h
  | pipelineExit => exact execPipelineExit_keeps C h
  | puntBucketRecompute => exact execPuntBucketRecompute_keeps C h
  | clsRegisterPropagate => exact execClsRegisterPropagate_keeps C h
  | fragHoldExpiry => exact execFragHoldExpiry_keeps C h
  | fragEntryExpiry => exact execFragEntryExpiry_keeps C h
  | policerApply => exact execPolicerApply_keeps C h
  | ageingScan => exact execAgeingScan_keeps C h
  | exmSearch => exact execExmSearch_keeps C h
  | exmInsert => exact execExmInsert_keeps C h
  | exmUpdate => exact execExmUpdate_keeps C h
  | exmDelete => exact execExmDelete_keeps C h
  | exmNext => exact execExmNext_keeps C h
  | flushByPort => exact execFlushByPort_keeps C h
  | flushByTenant => exact execFlushByTenant_keeps C h
  | shadowOpen => exact execShadowOpen_keeps C h
  | shadowCopy => exact execShadowCopy_keeps C h
  | shadowSwap => exact execShadowSwap_keeps C h
  | shadowDiscard => exact execShadowDiscard_keeps C h
  | dampingRecordExpiry => exact execDampingRecordExpiry_keeps C h
  | tcmSearch => exact execTcmSearch_keeps C h
  | tcmStep => exact execTcmStep_keeps C h
  | tcmWrite => exact execTcmWrite_keeps C h
  | tcmUpdate => exact execTcmUpdate_keeps C h
  | tcmInvalidate => exact execTcmInvalidate_keeps C h
  | tcmRead => exact execTcmRead_keeps C h
  | tcmMove => exact execTcmMove_keeps C h
  | tcamRepair => exact execTcamRepair_keeps C h
  | loadSet => exact execLoadSet_keeps C h
  | activateSet => exact execActivateSet_keeps C h
  | setActivation => exact execSetActivation_keeps C h
  | deleteSet => exact execDeleteSet_keeps C h
  | patScan => exact execPatScan_keeps C h
  | patEngine => exact execPatEngine_keeps C h
  | ethModeWrite => exact execEthModeWrite_keeps C h
  | portEnable => exact execPortEnable_keeps C h
  | portDisable => exact execPortDisable_keeps C h
  | portLinkUp => exact execPortLinkUp_keeps C h
  | trainingTimeout => exact execTrainingTimeout_keeps C h
  | linkFault => exact execLinkFault_keeps C h
  | remoteFault => exact execRemoteFault_keeps C h
  | downRetrain => exact execDownRetrain_keeps C h
  | pfcReceive => exact execPfcReceive_keeps C h
  | pauseExpiry => exact execPauseExpiry_keeps C h
  | pfcRefresh => exact execPfcRefresh_keeps C h
  | macFrameStart => exact execMacFrameStart_keeps C h
  | txUnderrun => exact execTxUnderrun_keeps C h
  | resetThr => exact execResetThr_keeps C h
  | saValidWrite => exact execSaValidWrite_keeps C h
  | wakeFrameReceive => exact execWakeFrameReceive_keeps C h
  | ncsiCommand => exact execNcsiCommand_keeps C h
  | ncsiFrameTransmit => exact execNcsiFrameTransmit_keeps C h
  | schedulerDispatch => exact execSchedulerDispatch_keeps C h
  | shaperApply => exact execShaperApply_keeps C h
  | downHoldExpiry => exact execDownHoldExpiry_keeps C h
  | queueSample => exact execQueueSample_keeps C h
  | reconcilerEpoch => exact execReconcilerEpoch_keeps C h
  | silCreate => exact execSilCreate_keeps C h
  | silModify => exact execSilModify_keeps C h
  | silDestroy => exact execSilDestroy_keeps C h
  | connectionRelease => exact execConnectionRelease_keeps C h
  | silQuery => exact execSilQuery_keeps C h
  | contextCacheFill => exact execContextCacheFill_keeps C h
  | sillagePacketSend => exact execSillagePacketSend_keeps C h
  | sillagePacketReceive => exact execSillagePacketReceive_keeps C h
  | rocePacketReceive => exact execRocePacketReceive_keeps C h
  | ackDelayExpiry => exact execAckDelayExpiry_keeps C h
  | ackReceive => exact execAckReceive_keeps C h
  | nakReceive => exact execNakReceive_keeps C h
  | retransmitTimeout => exact execRetransmitTimeout_keeps C h
  | retryAfterResend => exact execRetryAfterResend_keeps C h
  | probe => exact execProbe_keeps C h
  | baseWindowRoll => exact execBaseWindowRoll_keeps C h
  | registerMkey => exact execRegisterMkey_keeps C h
  | invalidateMkey => exact execInvalidateMkey_keeps C h
  | revokeAt => exact execRevokeAt_keeps C h
  | mkeyInvalidateComplete => exact execMkeyInvalidateComplete_keeps C h
  | mkyQuery => exact execMkyQuery_keeps C h
  | prefetch => exact execPrefetch_keeps C h
  | keyRecordFill => exact execKeyRecordFill_keeps C h
  | atsTranslationComplete => exact execAtsTranslationComplete_keeps C h
  | atsInvalidation => exact execAtsInvalidation_keeps C h
  | priResponse => exact execPriResponse_keeps C h
  | priTimeout => exact execPriTimeout_keeps C h
  | beCreate => exact execBeCreate_keeps C h
  | beDestroy => exact execBeDestroy_keeps C h
  | nsCreate => exact execNsCreate_keeps C h
  | nsDelete => exact execNsDelete_keeps C h
  | nsAttach => exact execNsAttach_keeps C h
  | nsDetach => exact execNsDetach_keeps C h
  | nveQuery => exact execNveQuery_keeps C h
  | controllerEnable => exact execControllerEnable_keeps C h
  | controllerReset => exact execControllerReset_keeps C h
  | resetLimitExpiry => exact execResetLimitExpiry_keeps C h
  | controllerShutdown => exact execControllerShutdown_keeps C h
  | nvmeFetch => exact execNvmeFetch_keeps C h
  | createIoSq => exact execCreateIoSq_keeps C h
  | deleteIoSq => exact execDeleteIoSq_keeps C h
  | createIoCq => exact execCreateIoCq_keeps C h
  | deleteIoCq => exact execDeleteIoCq_keeps C h
  | getLogPage => exact execGetLogPage_keeps C h
  | identify => exact execIdentify_keeps C h
  | nvmeAbort => exact execNvmeAbort_keeps C h
  | setFeatures => exact execSetFeatures_keeps C h
  | getFeatures => exact execGetFeatures_keeps C h
  | asynchronousEventRequest => exact execAsynchronousEventRequest_keeps C h
  | firmwareImageDownload => exact execFirmwareImageDownload_keeps C h
  | firmwareCommit => exact execFirmwareCommit_keeps C h
  | activationDrainDone => exact execActivationDrainDone_keeps C h
  | activationDrainTimeout => exact execActivationDrainTimeout_keeps C h
  | nvmeFlush => exact execNvmeFlush_keeps C h
  | nvmeWrite => exact execNvmeWrite_keeps C h
  | nvmeRead => exact execNvmeRead_keeps C h
  | writeZeroes => exact execWriteZeroes_keeps C h
  | datasetManagement => exact execDatasetManagement_keeps C h
  | commandStaged => exact execCommandStaged_keeps C h
  | backendResponse => exact execBackendResponse_keeps C h
  | backendTimeout => exact execBackendTimeout_keeps C h
  | generate => exact execGenerate_keeps C h
  | unwrap => exact execUnwrap_keeps C h
  | derive => exact execDerive_keeps C h
  | keyDestroy => exact execKeyDestroy_keeps C h
  | keyQuery => exact execKeyQuery_keeps C h
  | keyMac => exact execKeyMac_keeps C h
  | keyZeroiseTenant => exact execKeyZeroiseTenant_keeps C h
  | keyLoad => exact execKeyLoad_keeps C h
  | drbgReseed => exact execDrbgReseed_keeps C h
  | corIpi => exact execCorIpi_keeps C h
  | queueConsWrite => exact execQueueConsWrite_keeps C h
  | corPktAlloc => exact execCorPktAlloc_keeps C h
  | inject => exact execInject_keeps C h
  | injSend => exact execInjSend_keeps C h
  | injFree => exact execInjFree_keeps C h
  | scanDone => exact execScanDone_keeps C h
  | coreRun => exact execCoreRun_keeps C h
  | haltReq => exact execHaltReq_keeps C h
  | coreHalted => exact execCoreHalted_keeps C h
  | coreReset => exact execCoreReset_keeps C h
  | timerInterrupt => exact execTimerInterrupt_keeps C h
  | configRequest => exact execConfigRequest_keeps C h
  | barRequest => exact execBarRequest_keeps C h
  | expansionRomRead => exact execExpansionRomRead_keeps C h
  | bmeClear => exact execBmeClear_keeps C h
  | bmeSet => exact execBmeSet_keeps C h
  | flr => exact execFlr_keeps C h
  | flrComplete => exact execFlrComplete_keeps C h
  | vfEnableClear => exact execVfEnableClear_keeps C h
  | d3hotEntry => exact execD3hotEntry_keeps C h
  | d0Return => exact execD0Return_keeps C h
  | completionReceive => exact execCompletionReceive_keeps C h
  | completionTimeout => exact execCompletionTimeout_keeps C h
  | tagQuarantineExpiry => exact execTagQuarantineExpiry_keeps C h
  | dlDown => exact execDlDown_keeps C h
  | dlUp => exact execDlUp_keeps C h
  | perstAssert => exact execPerstAssert_keeps C h
  | perstDeassert => exact execPerstDeassert_keeps C h
  | getVersion => exact execGetVersion_keeps C h
  | getCapabilities => exact execGetCapabilities_keeps C h
  | negotiateAlgorithms => exact execNegotiateAlgorithms_keeps C h
  | getDigests => exact execGetDigests_keeps C h
  | getCertificate => exact execGetCertificate_keeps C h
  | challenge => exact execChallenge_keeps C h
  | getMeasurements => exact execGetMeasurements_keeps C h
  | keyExchange => exact execKeyExchange_keeps C h
  | spdmFinish => exact execSpdmFinish_keeps C h
  | heartbeat => exact execHeartbeat_keeps C h
  | keyUpdate => exact execKeyUpdate_keeps C h
  | endSession => exact execEndSession_keeps C h
  | ideCheckFailed => exact execIdeCheckFailed_keeps C h
  | doorbellTail => exact execDoorbellTail_keeps C h
  | doorbellCons => exact execDoorbellCons_keeps C h
  | ringEnable => exact execRingEnable_keeps C h
  | ringDisable => exact execRingDisable_keeps C h
  | fnMapWrite => exact execFnMapWrite_keeps C h
  | ringFetch => exact execRingFetch_keeps C h
  | descriptorStart => exact execDescriptorStart_keeps C h
  | hostRxPlace => exact execHostRxPlace_keeps C h
  | completionPost => exact execCompletionPost_keeps C h
  | completionStallTimeout => exact execCompletionStallTimeout_keeps C h
  | moderationTimer => exact execModerationTimer_keeps C h
  | tenCreate => exact execTenCreate_keeps C h
  | tenModify => exact execTenModify_keeps C h
  | tenDestroy => exact execTenDestroy_keeps C h
  | tenResume => exact execTenResume_keeps C h
  | forceFatal => exact execForceFatal_keeps C h
  | tenQuery => exact execTenQuery_keeps C h
  | fnOwnerWrite => exact execFnOwnerWrite_keeps C h
  | chargePost => exact execChargePost_keeps C h
  | pmbusRead => exact execPmbusRead_keeps C h
  | meterStale => exact execMeterStale_keeps C h
  | plannerEpoch => exact execPlannerEpoch_keeps C h
  | ageingMeasure => exact execAgeingMeasure_keeps C h
  | ageingForcedIdle => exact execAgeingForcedIdle_keeps C h
  | persistentStateWrite => exact execPersistentStateWrite_keeps C h
  | stage1Boot => exact execStage1Boot_keeps C h
  | hbmTrained => exact execHbmTrained_keeps C h
  | structureImageApplied => exact execStructureImageApplied_keeps C h
  | fwAlive => exact execFwAlive_keeps C h
  | deviceReady => exact execDeviceReady_keeps C h
  | stage2Watchdog => exact execStage2Watchdog_keeps C h
  | bootArb => exact execBootArb_keeps C h
  | arbProgramDone => exact execArbProgramDone_keeps C h
  | recoveryBegin => exact execRecoveryBegin_keeps C h
  | recoveryChunk => exact execRecoveryChunk_keeps C h
  | recoveryFinish => exact execRecoveryFinish_keeps C h
  | recoveryAbort => exact execRecoveryAbort_keeps C h
  | pldmUpdate => exact execPldmUpdate_keeps C h
  | onyxSubmit => rw [exec]; exact execOnyxSubmit_keeps C h
  | onyxCancel => exact execOnyxCancel_keeps C h
  | presenceEvent => exact execPresenceEvent_keeps C h
  | onyxWindowExpiry => exact execOnyxWindowExpiry_keeps C h
  | debugUnlock => exact execDebugUnlock_keeps C h
  | revokeKey => exact execRevokeKey_keeps C h
  | transferOwner => exact execTransferOwner_keeps C h
  | fuseProvision => exact execFuseProvision_keeps C h
  | onyxZeroiseTenant => exact execOnyxZeroiseTenant_keeps C h
  | sealBreak => exact execSealBreak_keeps C h
  | powerFailWarning => exact execPowerFailWarning_keeps C h
  | railDrop => exact execRailDrop_keeps C h
  | mainRailsGood => exact execMainRailsGood_keeps C h
  | vauxUp => exact execVauxUp_keeps C h
  | vauxLoss => exact execVauxLoss_keeps C h
  | thermalWarn => exact execThermalWarn_keeps C h
  | thermalWarnClear => exact execThermalWarnClear_keeps C h
  | thermtrip => exact execThermtrip_keeps C h
  | regionOffline => exact execRegionOffline_keeps C h
  | regionOfflineEffective => exact execRegionOfflineEffective_keeps C h
  | regionDrainDone => exact execRegionDrainDone_keeps C h
  | regionBistEnd => exact execRegionBistEnd_keeps C h
  | regionOnline => exact execRegionOnline_keeps C h
  | regionReturnComplete => exact execRegionReturnComplete_keeps C h
  | tcamBankTest => exact execTcamBankTest_keeps C h
  | cipherKat => exact execCipherKat_keeps C h
  | sramScrub => exact execSramScrub_keeps C h
  | hbmScrub => exact execHbmScrub_keeps C h
  | hbmPcRetire => exact execHbmPcRetire_keeps C h
  | hbmPcSubstituteDone => exact execHbmPcSubstituteDone_keeps C h
  | bypass => exact execBypass_keeps C h
  | idcode => exact execIdcode_keeps C h
  | samplePreload => exact execSamplePreload_keeps C h
  | extest => exact execExtest_keeps C h
  | clamp => exact execClamp_keeps C h
  | highz => exact execHighz_keeps C h
  | backendQueueConnect => exact execBackendQueueConnect_keeps C h
  | backendQueueDisconnect => exact execBackendQueueDisconnect_keeps C h
  | readyToTransferPdu => exact execReadyToTransferPdu_keeps C h
  | tcpRetransmitTimeout => exact execTcpRetransmitTimeout_keeps C h
  | ideKmKeyProgram => exact execIdeKmKeyProgram_keeps C h
  | doeDiscovery => exact execDoeDiscovery_keeps C h
  | mainRailsRemoved => exact execMainRailsRemoved_keeps C h
  | powerOnResetAssert => exact execPowerOnResetAssert_keeps C h

/-- What every primitive operation keeps, a step keeps; it need hold only where the command has left the queue. -/
theorem step_keeps {s t : State} (h : ∀ c r, s.pending = c :: r → P { s with pending := r }) (h0 : s.pending = [] → P s)
    (e : Sys2Proof.Machine.step s = .next t) : P t := by
  unfold Sys2Proof.Machine.step at e
  split at e
  · cases e; exact h0 (by assumption)
  · exact exec_keeps C _ (h _ _ (by assumption)) t e

end Sys2Proof.Machine
end

