-- ==== Sys2Proof/WellFormed.lean ====
section
/-! DEFINITION. Which commands name things the device has: the range check of every operand that numbers a die, IOD, port,
region, core, channel or table. A command outside these ranges names nothing and no sender can issue it. -/

namespace Sys2Proof

/-- Whether every operand of the command numbers something the device has. -/
def Instr.wellFormed : Instr → Bool
  | .registerWrite path addr v => decide (path < 57 ∧ addr < 2 ^ 56 ∧ addr % 4 = 0 ∧ v < 2 ^ 32)
  | .partialWrite path addr => decide (path < 57 ∧ addr < 2 ^ 56 ∧ addr % 4 = 0)
  | .readLo path addr => decide (path < 57 ∧ addr < 2 ^ 56 ∧ addr % 4 = 0)
  | .readHi path addr => decide (path < 57 ∧ addr < 2 ^ 56 ∧ addr % 4 = 0)
  | .writeLo path addr v => decide (path < 57 ∧ addr < 2 ^ 56 ∧ addr % 4 = 0 ∧ v < 2 ^ 32)
  | .writeHi path addr v => decide (path < 57 ∧ addr < 2 ^ 56 ∧ addr % 4 = 0 ∧ v < 2 ^ 32)
  | .rcRead path addr => decide (path < 57 ∧ addr < 2 ^ 56 ∧ addr % 4 = 0)
  | .powerOnReset _ size => decide (size < 2 ^ 40)
  | .peingLinkTrained a b spares => decide (a < 8 ∧ b < 8 ∧ spares ≤ 4)
  | .peingTrainTimeout a b => decide (a < 8 ∧ b < 8)
  | .peingCorrectableError a b g => decide (a < 8 ∧ b < 8 ∧ g < 256)
  | .peingWireFault a b g => decide (a < 8 ∧ b < 8 ∧ g < 256)
  | .cellFault n b c _ _ _ => decide (n < 8 ∧ b < 32 ∧ c < 17)
  | .voltageStep k => decide (k < 15)
  | .clockAbsent k d => decide (k < 18 ∧ d < 8)
  | .clockPresent k d _ => decide (k < 18 ∧ d < 8)
  | .clockAccessTimeout path => decide (path < 57)
  | .regionSpeedMeasure n rel tj => decide (n < 8 ∧ rel < 4096 ∧ tj < 1024)
  | .timeCsrRead h _ _ => decide (h < 53)
  | .abDiffMeasure diff => decide (-32768 ≤ diff ∧ diff < 32768)
  | .replicaRealign d => decide (d < 8 ∧ d ≠ 1)
  | .referenceMeasurement n _ _ _ _ _ _ _ => decide (n < 8)
  | .measurementMissing n => decide (n < 8)
  | .wtrExpiry n => decide (n < 6)
  | .slewComplete => true
  | .tsTodSetUnc unc _ => decide (unc < 65536)
  | .servoEnWrite v _ => decide (v < 4294967296)
  | .faultResolveAToB => true
  | .faultResolveBToA => true
  | .uncUpdateTick => true
  | .holdoverMaxReached => true
  | .holdoverFreqUpdate => true
  | .oscModeWrite v => decide (v < 4294967296)
  | .learnSample => true
  | .learnValid => true
  | .periodic => true
  | .amberRingDeliver => true
  | .amberLogProgram => true
  | .tsAmberFetch seq => decide (seq < 4294967296)
  | .chainDigestCommit v => decide (v < 4294967296)
  | .tsuCalibrate d p => decide (d < 2 ∧ p < 8)
  | .tsuCalibrationDone d p skew => decide (d < 2 ∧ p < 8 ∧ skew < 65536)
  | .launchGateArrival d p _ => decide (d < 2 ∧ p < 8)
  | .launchRelease d p => decide (d < 2 ∧ p < 8)
  | .timePageUpdate e => decide (e < 2)
  | .ptmDialogueStart e => decide (e < 2)
  | .ptmResponse e _ _ _ => decide (e < 2)
  | .ptmTimeout e => decide (e < 2)
  | .ppsOutEdge k => decide (k < 2)
  | .ppsPulseEnd k => decide (k < 2)
  | .stage => true
  | .stageComplete => true
  | .swap mask => decide (mask < 256)
  | .epochFlip => true
  | .rollback mask => decide (mask < 256)
  | .epochFlipBack => true
  | .commit => true
  | .strAbort => true
  | .coldApply slot => decide (slot < 2)
  | .coldApplyLoad => true
  | .regionDrained n => decide (n < 8)
  | .drainLimitExpiry n => decide (n < 8)
  | .drainBackRewriteDone n => decide (n < 8)
  | .commitWatchdogExpiry => true
  | .frameReceive d p _ _ bytes _ _ => decide (d < 2 ∧ p < 8 ∧ bytes.all (· < 256))
  | .packetParse n _ => decide (n < 8)
  | .nop n cell _ => decide (n < 8 ∧ cell < 256)
  | .mov n cell _ => decide (n < 8 ∧ cell < 256)
  | .add n cell _ => decide (n < 8 ∧ cell < 256)
  | .sub n cell _ => decide (n < 8 ∧ cell < 256)
  | .and n cell _ => decide (n < 8 ∧ cell < 256)
  | .or n cell _ => decide (n < 8 ∧ cell < 256)
  | .xor n cell _ => decide (n < 8 ∧ cell < 256)
  | .shl n cell _ => decide (n < 8 ∧ cell < 256)
  | .shr n cell _ => decide (n < 8 ∧ cell < 256)
  | .cmpEq n cell _ => decide (n < 8 ∧ cell < 256)
  | .cmpLt n cell _ => decide (n < 8 ∧ cell < 256)
  | .hash n cell _ => decide (n < 8 ∧ cell < 256)
  | .lookupEm n cell _ => decide (n < 8 ∧ cell < 256)
  | .lookupTcam n cell _ _ _ => decide (n < 8 ∧ cell < 256)
  | .learn n cell _ => decide (n < 8 ∧ cell < 256)
  | .meter n cell _ => decide (n < 8 ∧ cell < 256)
  | .punt n cell _ => decide (n < 8 ∧ cell < 256)
  | .drop n cell _ => decide (n < 8 ∧ cell < 256)
  | .forward n cell _ => decide (n < 8 ∧ cell < 256)
  | .setTsOp n cell _ => decide (n < 8 ∧ cell < 256)
  | .setEpochHint n cell _ => decide (n < 8 ∧ cell < 256)
  | .treeWalk n _ => decide (n < 8)
  | .automataScan n _ => decide (n < 8)
  | .cipherOperation n _ slot _ _ _ nonce aad _ => decide (n < 8 ∧ slot < 2 ^ 24 ∧ nonce.all (· < 256) ∧ aad.all (· < 256))
  | .pipelineExit n _ => decide (n < 8)
  | .puntBucketRecompute => true
  | .clsRegisterPropagate n => decide (n < 8)
  | .fragHoldExpiry n _ => decide (n < 8)
  | .fragEntryExpiry n dig => decide (n < 8 ∧ dig < 2 ^ 64)
  | .policerApply n k v => decide (n < 8 ∧ k < 8192 ∧ v < 4294967296)
  | .ageingScan t pl slot => decide (t < 1024 ∧ pl < 10 ∧ slot < 2 ^ 27)
  | .exmSearch c t => decide (c < 16 ∧ t < 1024)
  | .exmInsert c t => decide (c < 16 ∧ t < 1024)
  | .exmUpdate c t _ => decide (c < 16 ∧ t < 1024)
  | .exmDelete c t => decide (c < 16 ∧ t < 1024)
  | .exmNext c t => decide (c < 16 ∧ t < 1024)
  | .flushByPort c t _ => decide (c < 16 ∧ t < 1024)
  | .flushByTenant c t _ => decide (c < 16 ∧ t < 1024)
  | .shadowOpen c t => decide (c < 16 ∧ t < 1024)
  | .shadowCopy c t => decide (c < 16 ∧ t < 1024)
  | .shadowSwap c t => decide (c < 16 ∧ t < 1024)
  | .shadowDiscard c t => decide (c < 16 ∧ t < 1024)
  | .dampingRecordExpiry pl i => decide (pl < 10 ∧ i < 2 ^ 235)
  | .tcmSearch c t _ _ => decide (c < 8 ∧ t < 1024)
  | .tcmStep c t _ _ => decide (c < 8 ∧ t < 1024)
  | .tcmWrite c t => decide (c < 8 ∧ t < 1024)
  | .tcmUpdate c t => decide (c < 8 ∧ t < 1024)
  | .tcmInvalidate c t => decide (c < 8 ∧ t < 1024)
  | .tcmRead c t => decide (c < 8 ∧ t < 1024)
  | .tcmMove c t => decide (c < 8 ∧ t < 1024)
  | .tcamRepair n u _ _ => decide (n < 8 ∧ u < 16384)
  | .loadSet c set mask => decide (c < 4 ∧ set < 64 ∧ mask < 256)
  | .activateSet c set => decide (c < 4 ∧ set < 64)
  | .setActivation set => decide (set < 64)
  | .deleteSet c set mask => decide (c < 4 ∧ set < 64 ∧ mask < 256)
  | .patScan c set mask => decide (c < 4 ∧ set < 64 ∧ mask < 256)
  | .patEngine n e => decide (n < 8 ∧ e < 2)
  | .ethModeWrite d v => decide (d < 2 ∧ v < 2 ^ 32)
  | .portEnable d p => decide (d < 2 ∧ p < 8)
  | .portDisable d p => decide (d < 2 ∧ p < 8)
  | .portLinkUp d p => decide (d < 2 ∧ p < 8)
  | .trainingTimeout d p => decide (d < 2 ∧ p < 8)
  | .linkFault d p => decide (d < 2 ∧ p < 8)
  | .remoteFault d p => decide (d < 2 ∧ p < 8)
  | .downRetrain d p => decide (d < 2 ∧ p < 8)
  | .pfcReceive d p _ _ mask quanta => decide (d < 2 ∧ p < 8 ∧ mask < 256 ∧ quanta.all (· < 65536))
  | .pauseExpiry d p c => decide (d < 2 ∧ p < 8 ∧ c < 8)
  | .pfcRefresh d p c => decide (d < 2 ∧ p < 8 ∧ c < 8)
  | .macFrameStart d p _ => decide (d < 2 ∧ p < 8)
  | .txUnderrun d p _ _ => decide (d < 2 ∧ p < 8)
  | .resetThr d p => decide (d < 2 ∧ p < 8)
  | .saValidWrite d p a => decide (d < 2 ∧ p < 8 ∧ a < 132)
  | .wakeFrameReceive d bytes => decide (d < 2 ∧ bytes.all (· < 256))
  | .ncsiCommand b => decide (b.all (· < 256))
  | .ncsiFrameTransmit n _ b => decide (n < 16 ∧ b.all (· < 256))
  | .schedulerDispatch d p => decide (d < 2 ∧ p < 8)
  | .shaperApply d n v => decide (d < 2 ∧ n < 25600 ∧ v < 2 ^ 32)
  | .downHoldExpiry d p => decide (d < 2 ∧ p < 8)
  | .queueSample d => decide (d < 2)
  | .reconcilerEpoch => true
  | .silCreate ch c => decide (ch < 4 ∧ c < 4194304)
  | .silModify ch c => decide (ch < 4 ∧ c < 4194304)
  | .silDestroy ch c => decide (ch < 4 ∧ c < 4194304)
  | .connectionRelease c => decide (c < 4194304)
  | .silQuery ch c => decide (ch < 4 ∧ c < 4194304)
  | .contextCacheFill n c => decide (n < 8 ∧ c < 4194304)
  | .sillagePacketSend c _ _ => decide (c < 4194304)
  | .sillagePacketReceive n _ _ => decide (n < 8)
  | .rocePacketReceive n _ => decide (n < 8)
  | .ackDelayExpiry c => decide (c < 4194304)
  | .ackReceive n _ _ => decide (n < 8)
  | .nakReceive n _ _ => decide (n < 8)
  | .retransmitTimeout c k => decide (c < 4194304 ∧ k < 256)
  | .retryAfterResend c psn => decide (c < 4194304 ∧ psn < 2 ^ 32)
  | .probe c k _ => decide (c < 4194304 ∧ k < 256)
  | .baseWindowRoll c => decide (c < 4194304)
  | .registerMkey ch k v => decide (ch < 4 ∧ k < 1048576 ∧ v < 256)
  | .invalidateMkey ch k v => decide (ch < 4 ∧ k < 1048576 ∧ v < 256)
  | .revokeAt k => decide (k < 1048576)
  | .mkeyInvalidateComplete k => decide (k < 1048576)
  | .mkyQuery ch k => decide (ch < 4 ∧ k < 1048576)
  | .prefetch ch k v => decide (ch < 4 ∧ k < 1048576 ∧ v < 256)
  | .keyRecordFill n k => decide (n < 8 ∧ k < 1048576)
  | .atsTranslationComplete e f pasid page addr perm => decide (e < 2 ∧ f < 1028 ∧ pasid ≤ 2 ^ 20 ∧ page < 2 ^ 52 ∧ addr < 2 ^ 52 ∧ perm < 4)
  | .atsInvalidation e f pasid page n => decide (e < 2 ∧ f < 1028 ∧ pasid ≤ 2 ^ 20 ∧ page < 2 ^ 52 ∧ n ≤ 2 ^ 52)
  | .priResponse e f pasid page code => decide (e < 2 ∧ f < 1028 ∧ pasid ≤ 2 ^ 20 ∧ page < 2 ^ 52 ∧ code < 16)
  | .priTimeout e f pasid page => decide (e < 2 ∧ f < 1028 ∧ pasid ≤ 2 ^ 20 ∧ page < 2 ^ 52)
  | .beCreate ch b => decide (ch < 4 ∧ b < 16384)
  | .beDestroy ch b => decide (ch < 4 ∧ b < 16384)
  | .nsCreate ch n => decide (ch < 4 ∧ n < 16384)
  | .nsDelete ch n => decide (ch < 4 ∧ n < 16384)
  | .nsAttach ch n => decide (ch < 4 ∧ n < 16384)
  | .nsDetach ch n => decide (ch < 4 ∧ n < 16384)
  | .nveQuery ch n => decide (ch < 4 ∧ n < 16384)
  | .controllerEnable k cc => decide (k < 1024 ∧ cc < 2 ^ 32)
  | .controllerReset k => decide (k < 1024)
  | .resetLimitExpiry k => decide (k < 1024)
  | .controllerShutdown k n => decide (k < 1024 ∧ 1 ≤ n ∧ n < 3)
  | .nvmeFetch k => decide (k < 1024)
  | .createIoSq id => decide (id < 2 ^ 32)
  | .deleteIoSq id => decide (id < 2 ^ 32)
  | .createIoCq id => decide (id < 2 ^ 32)
  | .deleteIoCq id => decide (id < 2 ^ 32)
  | .getLogPage id => decide (id < 2 ^ 32)
  | .identify id => decide (id < 2 ^ 32)
  | .nvmeAbort id => decide (id < 2 ^ 32)
  | .setFeatures id => decide (id < 2 ^ 32)
  | .getFeatures id => decide (id < 2 ^ 32)
  | .asynchronousEventRequest id => decide (id < 2 ^ 32)
  | .firmwareImageDownload _ => true
  | .firmwareCommit _ => true
  | .activationDrainDone => true
  | .activationDrainTimeout => true
  | .nvmeFlush id => decide (id < 2 ^ 32)
  | .nvmeWrite id => decide (id < 2 ^ 32)
  | .nvmeRead id => decide (id < 2 ^ 32)
  | .writeZeroes id => decide (id < 2 ^ 32)
  | .datasetManagement id => decide (id < 2 ^ 32)
  | .commandStaged id _ => decide (id < 2 ^ 32)
  | .backendResponse b q tag status dw0 _ data => decide (b < 4096 ∧ q < 64 ∧ tag < 65536 ∧ status < 2 ^ 11 ∧ dw0 < 2 ^ 32 ∧ data.all (· < 256))
  | .backendTimeout id => decide (id < 2 ^ 32)
  | .generate ch t => decide (ch < 4 ∧ t < 256)
  | .unwrap ch t => decide (ch < 4 ∧ t < 256)
  | .derive ch t => decide (ch < 4 ∧ t < 256)
  | .keyDestroy ch t => decide (ch < 4 ∧ t < 256)
  | .keyQuery ch t => decide (ch < 4 ∧ t < 256)
  | .keyMac ch t => decide (ch < 4 ∧ t < 256)
  | .keyZeroiseTenant ch t _ => decide (ch < 4 ∧ t < 256)
  | .keyLoad n k _ => decide (n < 8 ∧ k < 2 ^ 24)
  | .drbgReseed => true
  | .corIpi hart file identity => decide (hart < 64 ∧ file < 8 ∧ identity < 256)
  | .queueConsWrite n q v => decide (n < 8 ∧ q < 256 ∧ v < 4294967296)
  | .corPktAlloc n => decide (n < 8)
  | .inject n i => decide (n < 8 ∧ i < 6)
  | .injSend n i => decide (n < 8 ∧ i < 6)
  | .injFree n i => decide (n < 8 ∧ i < 6)
  | .scanDone n i => decide (n < 8 ∧ i < 6)
  | .coreRun n i => decide (n < 8 ∧ i < 6)
  | .haltReq n i => decide (n < 8 ∧ i < 6)
  | .coreHalted n i => decide (n < 8 ∧ i < 6)
  | .coreReset n i => decide (n < 8 ∧ i < 6)
  | .timerInterrupt h k v => decide (h < 53 ∧ k < 3 ∧ v < 2 ^ 64)
  | .configRequest e f off _ v be bus => decide (e < 2 ∧ f < 1280 ∧ off < 4096 ∧ off % 4 = 0 ∧ v < 2 ^ 32 ∧ be < 16 ∧ bus < 256)
  | .barRequest e rid f b _ _ len data => decide (e < 2 ∧ rid < 65536 ∧ f < 1028 ∧ b < 6 ∧ 0 < len ∧ len ≤ 4096 ∧ data.length ≤ len ∧ data.all (· < 256))
  | .expansionRomRead e f off len => decide (e < 2 ∧ f < 2 ∧ off + len ≤ 1048576)
  | .bmeClear e f => decide (e < 2 ∧ f < 1028)
  | .bmeSet e f => decide (e < 2 ∧ f < 1028)
  | .flr e f => decide (e < 2 ∧ f < 1028)
  | .flrComplete e f => decide (e < 2 ∧ f < 1028)
  | .vfEnableClear e f => decide (e < 2 ∧ f < 4)
  | .d3hotEntry e f => decide (e < 2 ∧ f < 4)
  | .d0Return e f => decide (e < 2 ∧ f < 4)
  | .completionReceive e tag status _ data => decide (e < 2 ∧ tag < 16384 ∧ status < 8 ∧ data.all (· < 256))
  | .completionTimeout e tag => decide (e < 2 ∧ tag < 16384)
  | .tagQuarantineExpiry e tag => decide (e < 2 ∧ tag < 16384)
  | .dlDown e => decide (e < 2)
  | .dlUp e speed width _ _ => decide (e < 2 ∧ 1 ≤ speed ∧ speed ≤ 6 ∧ (width = 1 ∨ width = 2 ∨ width = 4 ∨ width = 8 ∨ width = 16))
  | .perstAssert e => decide (e < 2)
  | .perstDeassert e => decide (e < 2)
  | .getVersion e => decide (e < 2)
  | .getCapabilities e p1 p2 data => decide (e < 2 ∧ p1 < 256 ∧ p2 < 256 ∧ data.all (· < 256))
  | .negotiateAlgorithms e p1 p2 data => decide (e < 2 ∧ p1 < 256 ∧ p2 < 256 ∧ data.all (· < 256))
  | .getDigests e ss => decide (e < 2 ∧ ss < 3)
  | .getCertificate e ss p1 p2 data => decide (e < 2 ∧ ss < 3 ∧ p1 < 256 ∧ p2 < 256 ∧ data.all (· < 256))
  | .challenge e p1 p2 data => decide (e < 2 ∧ p1 < 256 ∧ p2 < 256 ∧ data.all (· < 256))
  | .getMeasurements e ss p1 p2 data => decide (e < 2 ∧ ss < 3 ∧ p1 < 256 ∧ p2 < 256 ∧ data.all (· < 256))
  | .keyExchange e p1 p2 data => decide (e < 2 ∧ p1 < 256 ∧ p2 < 256 ∧ data.all (· < 256))
  | .spdmFinish e ss p1 p2 data => decide (e < 2 ∧ ss < 3 ∧ p1 < 256 ∧ p2 < 256 ∧ data.all (· < 256))
  | .heartbeat e ss => decide (e < 2 ∧ ss < 3)
  | .keyUpdate e ss p1 p2 => decide (e < 2 ∧ ss < 3 ∧ p1 < 256 ∧ p2 < 256)
  | .endSession e ss => decide (e < 2 ∧ ss < 3)
  | .ideCheckFailed e stream => decide (e < 2 ∧ stream < 5)
  | .doorbellTail e r v => decide (e < 2 ∧ r < 32768 ∧ v < 2 ^ 32)
  | .doorbellCons e r v => decide (e < 2 ∧ r < 32768 ∧ v < 2 ^ 32)
  | .ringEnable e r => decide (e < 2 ∧ r < 32768)
  | .ringDisable e r => decide (e < 2 ∧ r < 32768)
  | .fnMapWrite e f base count => decide (e < 2 ∧ f < 1028 ∧ base < 32768 ∧ count < 65536)
  | .ringFetch e => decide (e < 2)
  | .descriptorStart e r => decide (e < 2 ∧ r < 32768)
  | .hostRxPlace _ => true
  | .completionPost e r => decide (e < 2 ∧ r < 32768)
  | .completionStallTimeout e c => decide (e < 2 ∧ c < 32768)
  | .moderationTimer e r => decide (e < 2 ∧ r < 32768)
  | .tenCreate t => decide (t < 256)
  | .tenModify t => decide (t < 256)
  | .tenDestroy t => decide (t < 256)
  | .tenResume t => decide (t < 256)
  | .forceFatal t => decide (t < 256)
  | .tenQuery t => decide (t < 256)
  | .fnOwnerWrite e f v => decide (e < 2 ∧ f < 1028 ∧ v < 4294967296)
  | .chargePost n t _ _ => decide (n < 8 ∧ t < 256)
  | .pmbusRead good words => decide (good < 256 ∧ words.all (· < 65536))
  | .meterStale k => decide (k < 8)
  | .plannerEpoch fixed => decide (fixed < 4294967296)
  | .ageingMeasure n d0 d => decide (n < 8 ∧ d0.length = 32 ∧ d.length = 32)
  | .ageingForcedIdle n => decide (n < 8)
  | .persistentStateWrite => true
  | .stage1Boot => true
  | .hbmTrained k => decide (k < 2)
  | .structureImageApplied => true
  | .fwAlive h => decide (h < 53)
  | .deviceReady => true
  | .stage2Watchdog => true
  | .bootArb v => decide (v < 128)
  | .arbProgramDone => true
  | .recoveryBegin kind => decide (kind < 4)
  | .recoveryChunk => true
  | .recoveryFinish => true
  | .recoveryAbort => true
  | .pldmUpdate comp image => decide (comp < 65536 ∧ image.all (· < 256))
  | .onyxSubmit => true
  | .onyxCancel => true
  | .presenceEvent _ _ _ => true
  | .onyxWindowExpiry => true
  | .debugUnlock => true
  | .revokeKey k => decide (k < 4)
  | .transferOwner => true
  | .fuseProvision k => decide (k < 4)
  | .onyxZeroiseTenant t => decide (t < 256)
  | .sealBreak => true
  | .powerFailWarning blown => decide (blown ≤ 64)
  | .railDrop rail _ _ blown => decide (rail < 10 ∧ rail ≠ 8 ∧ blown ≤ 64)
  | .mainRailsGood => true
  | .vauxUp => true
  | .vauxLoss => true
  | .thermalWarn d tj => decide (d < 8 ∧ tj < 1024)
  | .thermalWarnClear d tj => decide (d < 8 ∧ tj < 1024)
  | .thermtrip d tj => decide (d < 8 ∧ tj < 1024)
  | .regionOffline n _ => decide (n < 8)
  | .regionOfflineEffective n => decide (n < 8)
  | .regionDrainDone n _ => decide (n < 8)
  | .regionBistEnd n failed => decide (n < 8 ∧ failed.all (· < 272))
  | .regionOnline n => decide (n < 8)
  | .regionReturnComplete n => decide (n < 8)
  | .tcamBankTest n _ stuck => decide (n < 8 ∧ stuck.all (· < 16384))
  | .cipherKat k _ => decide (k < 10)
  | .sramScrub d o found kind _ _ => decide (d < 8 ∧ o < 2 ^ 44 ∧ found < 3 ∧ kind < 5)
  | .hbmScrub k o found kind _ _ => decide (k < 2 ∧ o < 0x600000000 ∧ found < 3 ∧ kind < 5)
  | .hbmPcRetire k pc => decide (k < 2 ∧ pc < 32)
  | .hbmPcSubstituteDone => true
  | .bypass => true
  | .idcode => true
  | .samplePreload bits => decide (bits.all (· < 2))
  | .extest => true
  | .clamp => true
  | .highz => true
  | .backendQueueConnect b q incap maxh2c => decide (b < 4096 ∧ q < 64 ∧ incap < 2 ^ 32 ∧ maxh2c < 2 ^ 32)
  | .backendQueueDisconnect b q => decide (b < 4096 ∧ q < 64)
  | .readyToTransferPdu b q tag ttag off len => decide (b < 4096 ∧ q < 64 ∧ tag < 65536 ∧ ttag < 65536 ∧ off < 2 ^ 32 ∧ len < 2 ^ 32)
  | .tcpRetransmitTimeout b q => decide (b < 4096 ∧ q < 64)
  | .ideKmKeyProgram e ss stream su dir _ key => decide (e < 2 ∧ ss < 3 ∧ stream < 5 ∧ su < 3 ∧ dir < 2 ∧ key.all (· < 256))
  | .doeDiscovery e ix => decide (e < 2 ∧ ix < 256)
  | .mainRailsRemoved => true
  | .powerOnResetAssert => true

end Sys2Proof
end

