-- ==== Sys2Proof/Laws/PerInstr.lean ====
section
/-! SUPPORT. The family Shape, one lemma per command: no command is shut out by the range checks, for each constructor has a well-formed
member. -/

namespace Sys2Proof.Laws.Shape

/-- Some well-formed command has the constructor of `i`. -/
def Statement (i : Instr) : Prop := ∃ j : Instr, j.wellFormed = true ∧ j.ctorIdx = i.ctorIdx

theorem registerWrite (path : Nat) (addr : Nat) (v : Nat) : Statement (.registerWrite path addr v) := ⟨(.registerWrite 0 0 0), rfl, rfl⟩
theorem partialWrite (path : Nat) (addr : Nat) : Statement (.partialWrite path addr) := ⟨(.partialWrite 0 0), rfl, rfl⟩
theorem readLo (path : Nat) (addr : Nat) : Statement (.readLo path addr) := ⟨(.readLo 0 0), rfl, rfl⟩
theorem readHi (path : Nat) (addr : Nat) : Statement (.readHi path addr) := ⟨(.readHi 0 0), rfl, rfl⟩
theorem writeLo (path : Nat) (addr : Nat) (v : Nat) : Statement (.writeLo path addr v) := ⟨(.writeLo 0 0 0), rfl, rfl⟩
theorem writeHi (path : Nat) (addr : Nat) (v : Nat) : Statement (.writeHi path addr v) := ⟨(.writeHi 0 0 0), rfl, rfl⟩
theorem rcRead (path : Nat) (addr : Nat) : Statement (.rcRead path addr) := ⟨(.rcRead 0 0), rfl, rfl⟩
theorem powerOnReset (clk : Bool) (size : Nat) : Statement (.powerOnReset clk size) := ⟨(.powerOnReset false 0), rfl, rfl⟩
theorem peingLinkTrained (a : Nat) (b : Nat) (spares : Nat) : Statement (.peingLinkTrained a b spares) := ⟨(.peingLinkTrained 0 0 0), rfl, rfl⟩
theorem peingTrainTimeout (a : Nat) (b : Nat) : Statement (.peingTrainTimeout a b) := ⟨(.peingTrainTimeout 0 0), rfl, rfl⟩
theorem peingCorrectableError (a : Nat) (b : Nat) (g : Nat) : Statement (.peingCorrectableError a b g) := ⟨(.peingCorrectableError 0 0 0), rfl, rfl⟩
theorem peingWireFault (a : Nat) (b : Nat) (g : Nat) : Statement (.peingWireFault a b g) := ⟨(.peingWireFault 0 0 0), rfl, rfl⟩
theorem cellFault (n : Nat) (b : Nat) (c : Nat) (uncorrectable : Bool) (fresh : Bool) (h : Nat) : Statement (.cellFault n b c uncorrectable fresh h) := ⟨(.cellFault 0 0 0 false false 0), rfl, rfl⟩
theorem voltageStep (k : Nat) : Statement (.voltageStep k) := ⟨(.voltageStep 0), rfl, rfl⟩
theorem clockAbsent (k : Nat) (d : Nat) : Statement (.clockAbsent k d) := ⟨(.clockAbsent 0 0), rfl, rfl⟩
theorem clockPresent (k : Nat) (d : Nat) (hz20 : Bool) : Statement (.clockPresent k d hz20) := ⟨(.clockPresent 0 0 false), rfl, rfl⟩
theorem clockAccessTimeout (path : Nat) : Statement (.clockAccessTimeout path) := ⟨(.clockAccessTimeout 0), rfl, rfl⟩
theorem regionSpeedMeasure (n : Nat) (rel : Nat) (tj : Nat) : Statement (.regionSpeedMeasure n rel tj) := ⟨(.regionSpeedMeasure 0 0 0), rfl, rfl⟩
theorem timeCsrRead (h : Nat) (adv : Nat) (ret : Nat) : Statement (.timeCsrRead h adv ret) := ⟨(.timeCsrRead 0 0 0), rfl, rfl⟩
theorem abDiffMeasure (diff : Int) : Statement (.abDiffMeasure diff) := ⟨(.abDiffMeasure 0), rfl, rfl⟩
theorem replicaRealign (d : Nat) : Statement (.replicaRealign d) := ⟨(.replicaRealign 0), rfl, rfl⟩
theorem referenceMeasurement (n : Nat) (off : Int) (parent : Bool) (gm : Nat) (steps : Nat) (utc : Nat) (rate : Nat) (both : Bool) : Statement (.referenceMeasurement n off parent gm steps utc rate both) := ⟨(.referenceMeasurement 0 0 false 0 0 0 0 false), rfl, rfl⟩
theorem measurementMissing (n : Nat) : Statement (.measurementMissing n) := ⟨(.measurementMissing 0), rfl, rfl⟩
theorem wtrExpiry (n : Nat) : Statement (.wtrExpiry n) := ⟨(.wtrExpiry 0), rfl, rfl⟩
theorem slewComplete : Statement (.slewComplete) := ⟨(.slewComplete), rfl, rfl⟩
theorem tsTodSetUnc (unc : Nat) (both : Bool) : Statement (.tsTodSetUnc unc both) := ⟨(.tsTodSetUnc 0 false), rfl, rfl⟩
theorem servoEnWrite (v : Nat) (both : Bool) : Statement (.servoEnWrite v both) := ⟨(.servoEnWrite 0 false), rfl, rfl⟩
theorem faultResolveAToB : Statement (.faultResolveAToB) := ⟨(.faultResolveAToB), rfl, rfl⟩
theorem faultResolveBToA : Statement (.faultResolveBToA) := ⟨(.faultResolveBToA), rfl, rfl⟩
theorem uncUpdateTick : Statement (.uncUpdateTick) := ⟨(.uncUpdateTick), rfl, rfl⟩
theorem holdoverMaxReached : Statement (.holdoverMaxReached) := ⟨(.holdoverMaxReached), rfl, rfl⟩
theorem holdoverFreqUpdate : Statement (.holdoverFreqUpdate) := ⟨(.holdoverFreqUpdate), rfl, rfl⟩
theorem oscModeWrite (v : Nat) : Statement (.oscModeWrite v) := ⟨(.oscModeWrite 0), rfl, rfl⟩
theorem learnSample : Statement (.learnSample) := ⟨(.learnSample), rfl, rfl⟩
theorem learnValid : Statement (.learnValid) := ⟨(.learnValid), rfl, rfl⟩
theorem periodic : Statement (.periodic) := ⟨(.periodic), rfl, rfl⟩
theorem amberRingDeliver : Statement (.amberRingDeliver) := ⟨(.amberRingDeliver), rfl, rfl⟩
theorem amberLogProgram : Statement (.amberLogProgram) := ⟨(.amberLogProgram), rfl, rfl⟩
theorem tsAmberFetch (seq : Nat) : Statement (.tsAmberFetch seq) := ⟨(.tsAmberFetch 0), rfl, rfl⟩
theorem chainDigestCommit (v : Nat) : Statement (.chainDigestCommit v) := ⟨(.chainDigestCommit 0), rfl, rfl⟩
theorem tsuCalibrate (d : Nat) (p : Nat) : Statement (.tsuCalibrate d p) := ⟨(.tsuCalibrate 0 0), rfl, rfl⟩
theorem tsuCalibrationDone (d : Nat) (p : Nat) (skew : Nat) : Statement (.tsuCalibrationDone d p skew) := ⟨(.tsuCalibrationDone 0 0 0), rfl, rfl⟩
theorem launchGateArrival (d : Nat) (p : Nat) (h : Nat) : Statement (.launchGateArrival d p h) := ⟨(.launchGateArrival 0 0 0), rfl, rfl⟩
theorem launchRelease (d : Nat) (p : Nat) : Statement (.launchRelease d p) := ⟨(.launchRelease 0 0), rfl, rfl⟩
theorem timePageUpdate (e : Nat) : Statement (.timePageUpdate e) := ⟨(.timePageUpdate 0), rfl, rfl⟩
theorem ptmDialogueStart (e : Nat) : Statement (.ptmDialogueStart e) := ⟨(.ptmDialogueStart 0), rfl, rfl⟩
theorem ptmResponse (e : Nat) (el : Nat) (t2 : Nat) (t3 : Nat) : Statement (.ptmResponse e el t2 t3) := ⟨(.ptmResponse 0 0 0 0), rfl, rfl⟩
theorem ptmTimeout (e : Nat) : Statement (.ptmTimeout e) := ⟨(.ptmTimeout 0), rfl, rfl⟩
theorem ppsOutEdge (k : Nat) : Statement (.ppsOutEdge k) := ⟨(.ppsOutEdge 0), rfl, rfl⟩
theorem ppsPulseEnd (k : Nat) : Statement (.ppsPulseEnd k) := ⟨(.ppsPulseEnd 0), rfl, rfl⟩
theorem stage : Statement (.stage) := ⟨(.stage), rfl, rfl⟩
theorem stageComplete : Statement (.stageComplete) := ⟨(.stageComplete), rfl, rfl⟩
theorem swap (mask : Nat) : Statement (.swap mask) := ⟨(.swap 0), rfl, rfl⟩
theorem epochFlip : Statement (.epochFlip) := ⟨(.epochFlip), rfl, rfl⟩
theorem rollback (mask : Nat) : Statement (.rollback mask) := ⟨(.rollback 0), rfl, rfl⟩
theorem epochFlipBack : Statement (.epochFlipBack) := ⟨(.epochFlipBack), rfl, rfl⟩
theorem commit : Statement (.commit) := ⟨(.commit), rfl, rfl⟩
theorem strAbort : Statement (.strAbort) := ⟨(.strAbort), rfl, rfl⟩
theorem coldApply (slot : Nat) : Statement (.coldApply slot) := ⟨(.coldApply 0), rfl, rfl⟩
theorem coldApplyLoad : Statement (.coldApplyLoad) := ⟨(.coldApplyLoad), rfl, rfl⟩
theorem regionDrained (n : Nat) : Statement (.regionDrained n) := ⟨(.regionDrained 0), rfl, rfl⟩
theorem drainLimitExpiry (n : Nat) : Statement (.drainLimitExpiry n) := ⟨(.drainLimitExpiry 0), rfl, rfl⟩
theorem drainBackRewriteDone (n : Nat) : Statement (.drainBackRewriteDone n) := ⟨(.drainBackRewriteDone 0), rfl, rfl⟩
theorem commitWatchdogExpiry : Statement (.commitWatchdogExpiry) := ⟨(.commitWatchdogExpiry), rfl, rfl⟩
theorem frameReceive (d : Nat) (p : Nat) (at_ : Nat) (sym : Bool) (bytes : List Nat) (corr : Nat) (uncorr : Nat) : Statement (.frameReceive d p at_ sym bytes corr uncorr) := ⟨(.frameReceive 0 0 0 false [] 0 0), rfl, rfl⟩
theorem packetParse (n : Nat) (h : Nat) : Statement (.packetParse n h) := ⟨(.packetParse 0 0), rfl, rfl⟩
theorem nop (n : Nat) (cell : Nat) (h : Nat) : Statement (.nop n cell h) := ⟨(.nop 0 0 0), rfl, rfl⟩
theorem mov (n : Nat) (cell : Nat) (h : Nat) : Statement (.mov n cell h) := ⟨(.mov 0 0 0), rfl, rfl⟩
theorem add (n : Nat) (cell : Nat) (h : Nat) : Statement (.add n cell h) := ⟨(.add 0 0 0), rfl, rfl⟩
theorem sub (n : Nat) (cell : Nat) (h : Nat) : Statement (.sub n cell h) := ⟨(.sub 0 0 0), rfl, rfl⟩
theorem and (n : Nat) (cell : Nat) (h : Nat) : Statement (.and n cell h) := ⟨(.and 0 0 0), rfl, rfl⟩
theorem or (n : Nat) (cell : Nat) (h : Nat) : Statement (.or n cell h) := ⟨(.or 0 0 0), rfl, rfl⟩
theorem xor (n : Nat) (cell : Nat) (h : Nat) : Statement (.xor n cell h) := ⟨(.xor 0 0 0), rfl, rfl⟩
theorem shl (n : Nat) (cell : Nat) (h : Nat) : Statement (.shl n cell h) := ⟨(.shl 0 0 0), rfl, rfl⟩
theorem shr (n : Nat) (cell : Nat) (h : Nat) : Statement (.shr n cell h) := ⟨(.shr 0 0 0), rfl, rfl⟩
theorem cmpEq (n : Nat) (cell : Nat) (h : Nat) : Statement (.cmpEq n cell h) := ⟨(.cmpEq 0 0 0), rfl, rfl⟩
theorem cmpLt (n : Nat) (cell : Nat) (h : Nat) : Statement (.cmpLt n cell h) := ⟨(.cmpLt 0 0 0), rfl, rfl⟩
theorem hash (n : Nat) (cell : Nat) (h : Nat) : Statement (.hash n cell h) := ⟨(.hash 0 0 0), rfl, rfl⟩
theorem lookupEm (n : Nat) (cell : Nat) (h : Nat) : Statement (.lookupEm n cell h) := ⟨(.lookupEm 0 0 0), rfl, rfl⟩
theorem lookupTcam (n : Nat) (cell : Nat) (h : Nat) (bad : List Nat) (lost : List Nat) : Statement (.lookupTcam n cell h bad lost) := ⟨(.lookupTcam 0 0 0 [] []), rfl, rfl⟩
theorem learn (n : Nat) (cell : Nat) (h : Nat) : Statement (.learn n cell h) := ⟨(.learn 0 0 0), rfl, rfl⟩
theorem meter (n : Nat) (cell : Nat) (h : Nat) : Statement (.meter n cell h) := ⟨(.meter 0 0 0), rfl, rfl⟩
theorem punt (n : Nat) (cell : Nat) (h : Nat) : Statement (.punt n cell h) := ⟨(.punt 0 0 0), rfl, rfl⟩
theorem drop (n : Nat) (cell : Nat) (h : Nat) : Statement (.drop n cell h) := ⟨(.drop 0 0 0), rfl, rfl⟩
theorem forward (n : Nat) (cell : Nat) (h : Nat) : Statement (.forward n cell h) := ⟨(.forward 0 0 0), rfl, rfl⟩
theorem setTsOp (n : Nat) (cell : Nat) (h : Nat) : Statement (.setTsOp n cell h) := ⟨(.setTsOp 0 0 0), rfl, rfl⟩
theorem setEpochHint (n : Nat) (cell : Nat) (h : Nat) : Statement (.setEpochHint n cell h) := ⟨(.setEpochHint 0 0 0), rfl, rfl⟩
theorem treeWalk (n : Nat) (h : Nat) : Statement (.treeWalk n h) := ⟨(.treeWalk 0 0), rfl, rfl⟩
theorem automataScan (n : Nat) (h : Nat) : Statement (.automataScan n h) := ⟨(.automataScan 0 0), rfl, rfl⟩
theorem cipherOperation (n : Nat) (h : Nat) (slot : Nat) (enc : Bool) (off : Nat) (len : Nat) (nonce : List Nat) (aad : List Nat) (agree : Bool) : Statement (.cipherOperation n h slot enc off len nonce aad agree) := ⟨(.cipherOperation 0 0 0 false 0 0 [] [] false), rfl, rfl⟩
theorem pipelineExit (n : Nat) (h : Nat) : Statement (.pipelineExit n h) := ⟨(.pipelineExit 0 0), rfl, rfl⟩
theorem puntBucketRecompute : Statement (.puntBucketRecompute) := ⟨(.puntBucketRecompute), rfl, rfl⟩
theorem clsRegisterPropagate (n : Nat) : Statement (.clsRegisterPropagate n) := ⟨(.clsRegisterPropagate 0), rfl, rfl⟩
theorem fragHoldExpiry (n : Nat) (h : Nat) : Statement (.fragHoldExpiry n h) := ⟨(.fragHoldExpiry 0 0), rfl, rfl⟩
theorem fragEntryExpiry (n : Nat) (dig : Nat) : Statement (.fragEntryExpiry n dig) := ⟨(.fragEntryExpiry 0 0), rfl, rfl⟩
theorem policerApply (n : Nat) (k : Nat) (v : Nat) : Statement (.policerApply n k v) := ⟨(.policerApply 0 0 0), rfl, rfl⟩
theorem ageingScan (t : Nat) (pl : Nat) (slot : Nat) : Statement (.ageingScan t pl slot) := ⟨(.ageingScan 0 0 0), rfl, rfl⟩
theorem exmSearch (c : Nat) (t : Nat) : Statement (.exmSearch c t) := ⟨(.exmSearch 0 0), rfl, rfl⟩
theorem exmInsert (c : Nat) (t : Nat) : Statement (.exmInsert c t) := ⟨(.exmInsert 0 0), rfl, rfl⟩
theorem exmUpdate (c : Nat) (t : Nat) (clearMoves : Bool) : Statement (.exmUpdate c t clearMoves) := ⟨(.exmUpdate 0 0 false), rfl, rfl⟩
theorem exmDelete (c : Nat) (t : Nat) : Statement (.exmDelete c t) := ⟨(.exmDelete 0 0), rfl, rfl⟩
theorem exmNext (c : Nat) (t : Nat) : Statement (.exmNext c t) := ⟨(.exmNext 0 0), rfl, rfl⟩
theorem flushByPort (c : Nat) (t : Nat) (static : Bool) : Statement (.flushByPort c t static) := ⟨(.flushByPort 0 0 false), rfl, rfl⟩
theorem flushByTenant (c : Nat) (t : Nat) (static : Bool) : Statement (.flushByTenant c t static) := ⟨(.flushByTenant 0 0 false), rfl, rfl⟩
theorem shadowOpen (c : Nat) (t : Nat) : Statement (.shadowOpen c t) := ⟨(.shadowOpen 0 0), rfl, rfl⟩
theorem shadowCopy (c : Nat) (t : Nat) : Statement (.shadowCopy c t) := ⟨(.shadowCopy 0 0), rfl, rfl⟩
theorem shadowSwap (c : Nat) (t : Nat) : Statement (.shadowSwap c t) := ⟨(.shadowSwap 0 0), rfl, rfl⟩
theorem shadowDiscard (c : Nat) (t : Nat) : Statement (.shadowDiscard c t) := ⟨(.shadowDiscard 0 0), rfl, rfl⟩
theorem dampingRecordExpiry (pl : Nat) (i : Nat) : Statement (.dampingRecordExpiry pl i) := ⟨(.dampingRecordExpiry 0 0), rfl, rfl⟩
theorem tcmSearch (c : Nat) (t : Nat) (bad : List Nat) (lost : List Nat) : Statement (.tcmSearch c t bad lost) := ⟨(.tcmSearch 0 0 [] []), rfl, rfl⟩
theorem tcmStep (c : Nat) (t : Nat) (bad : List Nat) (lost : List Nat) : Statement (.tcmStep c t bad lost) := ⟨(.tcmStep 0 0 [] []), rfl, rfl⟩
theorem tcmWrite (c : Nat) (t : Nat) : Statement (.tcmWrite c t) := ⟨(.tcmWrite 0 0), rfl, rfl⟩
theorem tcmUpdate (c : Nat) (t : Nat) : Statement (.tcmUpdate c t) := ⟨(.tcmUpdate 0 0), rfl, rfl⟩
theorem tcmInvalidate (c : Nat) (t : Nat) : Statement (.tcmInvalidate c t) := ⟨(.tcmInvalidate 0 0), rfl, rfl⟩
theorem tcmRead (c : Nat) (t : Nat) : Statement (.tcmRead c t) := ⟨(.tcmRead 0 0), rfl, rfl⟩
theorem tcmMove (c : Nat) (t : Nat) : Statement (.tcmMove c t) := ⟨(.tcmMove 0 0), rfl, rfl⟩
theorem tcamRepair (n : Nat) (u : Nat) (agree : Bool) (copyBad : Bool) : Statement (.tcamRepair n u agree copyBad) := ⟨(.tcamRepair 0 0 false false), rfl, rfl⟩
theorem loadSet (c : Nat) (set : Nat) (mask : Nat) : Statement (.loadSet c set mask) := ⟨(.loadSet 0 0 0), rfl, rfl⟩
theorem activateSet (c : Nat) (set : Nat) : Statement (.activateSet c set) := ⟨(.activateSet 0 0), rfl, rfl⟩
theorem setActivation (set : Nat) : Statement (.setActivation set) := ⟨(.setActivation 0), rfl, rfl⟩
theorem deleteSet (c : Nat) (set : Nat) (mask : Nat) : Statement (.deleteSet c set mask) := ⟨(.deleteSet 0 0 0), rfl, rfl⟩
theorem patScan (c : Nat) (set : Nat) (mask : Nat) : Statement (.patScan c set mask) := ⟨(.patScan 0 0 0), rfl, rfl⟩
theorem patEngine (n : Nat) (e : Nat) : Statement (.patEngine n e) := ⟨(.patEngine 0 0), rfl, rfl⟩
theorem ethModeWrite (d : Nat) (v : Nat) : Statement (.ethModeWrite d v) := ⟨(.ethModeWrite 0 0), rfl, rfl⟩
theorem portEnable (d : Nat) (p : Nat) : Statement (.portEnable d p) := ⟨(.portEnable 0 0), rfl, rfl⟩
theorem portDisable (d : Nat) (p : Nat) : Statement (.portDisable d p) := ⟨(.portDisable 0 0), rfl, rfl⟩
theorem portLinkUp (d : Nat) (p : Nat) : Statement (.portLinkUp d p) := ⟨(.portLinkUp 0 0), rfl, rfl⟩
theorem trainingTimeout (d : Nat) (p : Nat) : Statement (.trainingTimeout d p) := ⟨(.trainingTimeout 0 0), rfl, rfl⟩
theorem linkFault (d : Nat) (p : Nat) : Statement (.linkFault d p) := ⟨(.linkFault 0 0), rfl, rfl⟩
theorem remoteFault (d : Nat) (p : Nat) : Statement (.remoteFault d p) := ⟨(.remoteFault 0 0), rfl, rfl⟩
theorem downRetrain (d : Nat) (p : Nat) : Statement (.downRetrain d p) := ⟨(.downRetrain 0 0), rfl, rfl⟩
theorem pfcReceive (d : Nat) (p : Nat) (at_ : Nat) (pfc : Bool) (mask : Nat) (quanta : List Nat) : Statement (.pfcReceive d p at_ pfc mask quanta) := ⟨(.pfcReceive 0 0 0 false 0 []), rfl, rfl⟩
theorem pauseExpiry (d : Nat) (p : Nat) (c : Nat) : Statement (.pauseExpiry d p c) := ⟨(.pauseExpiry 0 0 0), rfl, rfl⟩
theorem pfcRefresh (d : Nat) (p : Nat) (c : Nat) : Statement (.pfcRefresh d p c) := ⟨(.pfcRefresh 0 0 0), rfl, rfl⟩
theorem macFrameStart (d : Nat) (p : Nat) (at_ : Nat) : Statement (.macFrameStart d p at_) := ⟨(.macFrameStart 0 0 0), rfl, rfl⟩
theorem txUnderrun (d : Nat) (p : Nat) (k : Nat) (at_ : Nat) : Statement (.txUnderrun d p k at_) := ⟨(.txUnderrun 0 0 0 0), rfl, rfl⟩
theorem resetThr (d : Nat) (p : Nat) : Statement (.resetThr d p) := ⟨(.resetThr 0 0), rfl, rfl⟩
theorem saValidWrite (d : Nat) (p : Nat) (a : Nat) : Statement (.saValidWrite d p a) := ⟨(.saValidWrite 0 0 0), rfl, rfl⟩
theorem wakeFrameReceive (d : Nat) (bytes : List Nat) : Statement (.wakeFrameReceive d bytes) := ⟨(.wakeFrameReceive 0 []), rfl, rfl⟩
theorem ncsiCommand (b : List Nat) : Statement (.ncsiCommand b) := ⟨(.ncsiCommand []), rfl, rfl⟩
theorem ncsiFrameTransmit (n : Nat) (at_ : Nat) (b : List Nat) : Statement (.ncsiFrameTransmit n at_ b) := ⟨(.ncsiFrameTransmit 0 0 []), rfl, rfl⟩
theorem schedulerDispatch (d : Nat) (p : Nat) : Statement (.schedulerDispatch d p) := ⟨(.schedulerDispatch 0 0), rfl, rfl⟩
theorem shaperApply (d : Nat) (n : Nat) (v : Nat) : Statement (.shaperApply d n v) := ⟨(.shaperApply 0 0 0), rfl, rfl⟩
theorem downHoldExpiry (d : Nat) (p : Nat) : Statement (.downHoldExpiry d p) := ⟨(.downHoldExpiry 0 0), rfl, rfl⟩
theorem queueSample (d : Nat) : Statement (.queueSample d) := ⟨(.queueSample 0), rfl, rfl⟩
theorem reconcilerEpoch : Statement (.reconcilerEpoch) := ⟨(.reconcilerEpoch), rfl, rfl⟩
theorem silCreate (ch : Nat) (c : Nat) : Statement (.silCreate ch c) := ⟨(.silCreate 0 0), rfl, rfl⟩
theorem silModify (ch : Nat) (c : Nat) : Statement (.silModify ch c) := ⟨(.silModify 0 0), rfl, rfl⟩
theorem silDestroy (ch : Nat) (c : Nat) : Statement (.silDestroy ch c) := ⟨(.silDestroy 0 0), rfl, rfl⟩
theorem connectionRelease (c : Nat) : Statement (.connectionRelease c) := ⟨(.connectionRelease 0), rfl, rfl⟩
theorem silQuery (ch : Nat) (c : Nat) : Statement (.silQuery ch c) := ⟨(.silQuery 0 0), rfl, rfl⟩
theorem contextCacheFill (n : Nat) (c : Nat) : Statement (.contextCacheFill n c) := ⟨(.contextCacheFill 0 0), rfl, rfl⟩
theorem sillagePacketSend (c : Nat) (at_ : Nat) (agree : Bool) : Statement (.sillagePacketSend c at_ agree) := ⟨(.sillagePacketSend 0 0 false), rfl, rfl⟩
theorem sillagePacketReceive (n : Nat) (h : Nat) (agree : Bool) : Statement (.sillagePacketReceive n h agree) := ⟨(.sillagePacketReceive 0 0 false), rfl, rfl⟩
theorem rocePacketReceive (n : Nat) (h : Nat) : Statement (.rocePacketReceive n h) := ⟨(.rocePacketReceive 0 0), rfl, rfl⟩
theorem ackDelayExpiry (c : Nat) : Statement (.ackDelayExpiry c) := ⟨(.ackDelayExpiry 0), rfl, rfl⟩
theorem ackReceive (n : Nat) (h : Nat) (agree : Bool) : Statement (.ackReceive n h agree) := ⟨(.ackReceive 0 0 false), rfl, rfl⟩
theorem nakReceive (n : Nat) (h : Nat) (agree : Bool) : Statement (.nakReceive n h agree) := ⟨(.nakReceive 0 0 false), rfl, rfl⟩
theorem retransmitTimeout (c : Nat) (k : Nat) : Statement (.retransmitTimeout c k) := ⟨(.retransmitTimeout 0 0), rfl, rfl⟩
theorem retryAfterResend (c : Nat) (psn : Nat) : Statement (.retryAfterResend c psn) := ⟨(.retryAfterResend 0 0), rfl, rfl⟩
theorem probe (c : Nat) (k : Nat) (agree : Bool) : Statement (.probe c k agree) := ⟨(.probe 0 0 false), rfl, rfl⟩
theorem baseWindowRoll (c : Nat) : Statement (.baseWindowRoll c) := ⟨(.baseWindowRoll 0), rfl, rfl⟩
theorem registerMkey (ch : Nat) (k : Nat) (v : Nat) : Statement (.registerMkey ch k v) := ⟨(.registerMkey 0 0 0), rfl, rfl⟩
theorem invalidateMkey (ch : Nat) (k : Nat) (v : Nat) : Statement (.invalidateMkey ch k v) := ⟨(.invalidateMkey 0 0 0), rfl, rfl⟩
theorem revokeAt (k : Nat) : Statement (.revokeAt k) := ⟨(.revokeAt 0), rfl, rfl⟩
theorem mkeyInvalidateComplete (k : Nat) : Statement (.mkeyInvalidateComplete k) := ⟨(.mkeyInvalidateComplete 0), rfl, rfl⟩
theorem mkyQuery (ch : Nat) (k : Nat) : Statement (.mkyQuery ch k) := ⟨(.mkyQuery 0 0), rfl, rfl⟩
theorem prefetch (ch : Nat) (k : Nat) (v : Nat) : Statement (.prefetch ch k v) := ⟨(.prefetch 0 0 0), rfl, rfl⟩
theorem keyRecordFill (n : Nat) (k : Nat) : Statement (.keyRecordFill n k) := ⟨(.keyRecordFill 0 0), rfl, rfl⟩
theorem atsTranslationComplete (e : Nat) (f : Nat) (pasid : Nat) (page : Nat) (addr : Nat) (perm : Nat) : Statement (.atsTranslationComplete e f pasid page addr perm) := ⟨(.atsTranslationComplete 0 0 0 0 0 0), rfl, rfl⟩
theorem atsInvalidation (e : Nat) (f : Nat) (pasid : Nat) (page : Nat) (n : Nat) : Statement (.atsInvalidation e f pasid page n) := ⟨(.atsInvalidation 0 0 0 0 0), rfl, rfl⟩
theorem priResponse (e : Nat) (f : Nat) (pasid : Nat) (page : Nat) (code : Nat) : Statement (.priResponse e f pasid page code) := ⟨(.priResponse 0 0 0 0 0), rfl, rfl⟩
theorem priTimeout (e : Nat) (f : Nat) (pasid : Nat) (page : Nat) : Statement (.priTimeout e f pasid page) := ⟨(.priTimeout 0 0 0 0), rfl, rfl⟩
theorem beCreate (ch : Nat) (b : Nat) : Statement (.beCreate ch b) := ⟨(.beCreate 0 0), rfl, rfl⟩
theorem beDestroy (ch : Nat) (b : Nat) : Statement (.beDestroy ch b) := ⟨(.beDestroy 0 0), rfl, rfl⟩
theorem nsCreate (ch : Nat) (n : Nat) : Statement (.nsCreate ch n) := ⟨(.nsCreate 0 0), rfl, rfl⟩
theorem nsDelete (ch : Nat) (n : Nat) : Statement (.nsDelete ch n) := ⟨(.nsDelete 0 0), rfl, rfl⟩
theorem nsAttach (ch : Nat) (n : Nat) : Statement (.nsAttach ch n) := ⟨(.nsAttach 0 0), rfl, rfl⟩
theorem nsDetach (ch : Nat) (n : Nat) : Statement (.nsDetach ch n) := ⟨(.nsDetach 0 0), rfl, rfl⟩
theorem nveQuery (ch : Nat) (n : Nat) : Statement (.nveQuery ch n) := ⟨(.nveQuery 0 0), rfl, rfl⟩
theorem controllerEnable (k : Nat) (cc : Nat) : Statement (.controllerEnable k cc) := ⟨(.controllerEnable 0 0), rfl, rfl⟩
theorem controllerReset (k : Nat) : Statement (.controllerReset k) := ⟨(.controllerReset 0), rfl, rfl⟩
theorem resetLimitExpiry (k : Nat) : Statement (.resetLimitExpiry k) := ⟨(.resetLimitExpiry 0), rfl, rfl⟩
theorem controllerShutdown (k : Nat) (n : Nat) : Statement (.controllerShutdown k n) := ⟨(.controllerShutdown 0 1), rfl, rfl⟩
theorem nvmeFetch (k : Nat) : Statement (.nvmeFetch k) := ⟨(.nvmeFetch 0), rfl, rfl⟩
theorem createIoSq (id : Nat) : Statement (.createIoSq id) := ⟨(.createIoSq 0), rfl, rfl⟩
theorem deleteIoSq (id : Nat) : Statement (.deleteIoSq id) := ⟨(.deleteIoSq 0), rfl, rfl⟩
theorem createIoCq (id : Nat) : Statement (.createIoCq id) := ⟨(.createIoCq 0), rfl, rfl⟩
theorem deleteIoCq (id : Nat) : Statement (.deleteIoCq id) := ⟨(.deleteIoCq 0), rfl, rfl⟩
theorem getLogPage (id : Nat) : Statement (.getLogPage id) := ⟨(.getLogPage 0), rfl, rfl⟩
theorem identify (id : Nat) : Statement (.identify id) := ⟨(.identify 0), rfl, rfl⟩
theorem nvmeAbort (id : Nat) : Statement (.nvmeAbort id) := ⟨(.nvmeAbort 0), rfl, rfl⟩
theorem setFeatures (id : Nat) : Statement (.setFeatures id) := ⟨(.setFeatures 0), rfl, rfl⟩
theorem getFeatures (id : Nat) : Statement (.getFeatures id) := ⟨(.getFeatures 0), rfl, rfl⟩
theorem asynchronousEventRequest (id : Nat) : Statement (.asynchronousEventRequest id) := ⟨(.asynchronousEventRequest 0), rfl, rfl⟩
theorem firmwareImageDownload (id : Nat) : Statement (.firmwareImageDownload id) := ⟨(.firmwareImageDownload 0), rfl, rfl⟩
theorem firmwareCommit (id : Nat) : Statement (.firmwareCommit id) := ⟨(.firmwareCommit 0), rfl, rfl⟩
theorem activationDrainDone : Statement (.activationDrainDone) := ⟨(.activationDrainDone), rfl, rfl⟩
theorem activationDrainTimeout : Statement (.activationDrainTimeout) := ⟨(.activationDrainTimeout), rfl, rfl⟩
theorem nvmeFlush (id : Nat) : Statement (.nvmeFlush id) := ⟨(.nvmeFlush 0), rfl, rfl⟩
theorem nvmeWrite (id : Nat) : Statement (.nvmeWrite id) := ⟨(.nvmeWrite 0), rfl, rfl⟩
theorem nvmeRead (id : Nat) : Statement (.nvmeRead id) := ⟨(.nvmeRead 0), rfl, rfl⟩
theorem writeZeroes (id : Nat) : Statement (.writeZeroes id) := ⟨(.writeZeroes 0), rfl, rfl⟩
theorem datasetManagement (id : Nat) : Statement (.datasetManagement id) := ⟨(.datasetManagement 0), rfl, rfl⟩
theorem commandStaged (id : Nat) (agree : Bool) : Statement (.commandStaged id agree) := ⟨(.commandStaged 0 false), rfl, rfl⟩
theorem backendResponse (b : Nat) (q : Nat) (tag : Nat) (status : Nat) (dw0 : Nat) (agree : Bool) (data : List Nat) : Statement (.backendResponse b q tag status dw0 agree data) := ⟨(.backendResponse 0 0 0 0 0 false []), rfl, rfl⟩
theorem backendTimeout (id : Nat) : Statement (.backendTimeout id) := ⟨(.backendTimeout 0), rfl, rfl⟩
theorem generate (ch : Nat) (t : Nat) : Statement (.generate ch t) := ⟨(.generate 0 0), rfl, rfl⟩
theorem unwrap (ch : Nat) (t : Nat) : Statement (.unwrap ch t) := ⟨(.unwrap 0 0), rfl, rfl⟩
theorem derive (ch : Nat) (t : Nat) : Statement (.derive ch t) := ⟨(.derive 0 0), rfl, rfl⟩
theorem keyDestroy (ch : Nat) (t : Nat) : Statement (.keyDestroy ch t) := ⟨(.keyDestroy 0 0), rfl, rfl⟩
theorem keyQuery (ch : Nat) (t : Nat) : Statement (.keyQuery ch t) := ⟨(.keyQuery 0 0), rfl, rfl⟩
theorem keyMac (ch : Nat) (t : Nat) : Statement (.keyMac ch t) := ⟨(.keyMac 0 0), rfl, rfl⟩
theorem keyZeroiseTenant (ch : Nat) (t : Nat) (gate : Bool) : Statement (.keyZeroiseTenant ch t gate) := ⟨(.keyZeroiseTenant 0 0 false), rfl, rfl⟩
theorem keyLoad (n : Nat) (k : Nat) (ok : Bool) : Statement (.keyLoad n k ok) := ⟨(.keyLoad 0 0 false), rfl, rfl⟩
theorem drbgReseed : Statement (.drbgReseed) := ⟨(.drbgReseed), rfl, rfl⟩
theorem corIpi (hart : Nat) (file : Nat) (identity : Nat) : Statement (.corIpi hart file identity) := ⟨(.corIpi 0 0 0), rfl, rfl⟩
theorem queueConsWrite (n : Nat) (q : Nat) (v : Nat) : Statement (.queueConsWrite n q v) := ⟨(.queueConsWrite 0 0 0), rfl, rfl⟩
theorem corPktAlloc (n : Nat) : Statement (.corPktAlloc n) := ⟨(.corPktAlloc 0), rfl, rfl⟩
theorem inject (n : Nat) (i : Nat) : Statement (.inject n i) := ⟨(.inject 0 0), rfl, rfl⟩
theorem injSend (n : Nat) (i : Nat) : Statement (.injSend n i) := ⟨(.injSend 0 0), rfl, rfl⟩
theorem injFree (n : Nat) (i : Nat) : Statement (.injFree n i) := ⟨(.injFree 0 0), rfl, rfl⟩
theorem scanDone (n : Nat) (i : Nat) : Statement (.scanDone n i) := ⟨(.scanDone 0 0), rfl, rfl⟩
theorem coreRun (n : Nat) (i : Nat) : Statement (.coreRun n i) := ⟨(.coreRun 0 0), rfl, rfl⟩
theorem haltReq (n : Nat) (i : Nat) : Statement (.haltReq n i) := ⟨(.haltReq 0 0), rfl, rfl⟩
theorem coreHalted (n : Nat) (i : Nat) : Statement (.coreHalted n i) := ⟨(.coreHalted 0 0), rfl, rfl⟩
theorem coreReset (n : Nat) (i : Nat) : Statement (.coreReset n i) := ⟨(.coreReset 0 0), rfl, rfl⟩
theorem timerInterrupt (h : Nat) (k : Nat) (v : Nat) : Statement (.timerInterrupt h k v) := ⟨(.timerInterrupt 0 0 0), rfl, rfl⟩
theorem configRequest (e : Nat) (f : Nat) (off : Nat) (write : Bool) (v : Nat) (be : Nat) (bus : Nat) : Statement (.configRequest e f off write v be bus) := ⟨(.configRequest 0 0 0 false 0 0 0), rfl, rfl⟩
theorem barRequest (e : Nat) (rid : Nat) (f : Nat) (b : Nat) (write : Bool) (o : Nat) (len : Nat) (data : List Nat) : Statement (.barRequest e rid f b write o len data) := ⟨(.barRequest 0 0 0 0 false 0 1 []), rfl, rfl⟩
theorem expansionRomRead (e : Nat) (f : Nat) (off : Nat) (len : Nat) : Statement (.expansionRomRead e f off len) := ⟨(.expansionRomRead 0 0 0 0), rfl, rfl⟩
theorem bmeClear (e : Nat) (f : Nat) : Statement (.bmeClear e f) := ⟨(.bmeClear 0 0), rfl, rfl⟩
theorem bmeSet (e : Nat) (f : Nat) : Statement (.bmeSet e f) := ⟨(.bmeSet 0 0), rfl, rfl⟩
theorem flr (e : Nat) (f : Nat) : Statement (.flr e f) := ⟨(.flr 0 0), rfl, rfl⟩
theorem flrComplete (e : Nat) (f : Nat) : Statement (.flrComplete e f) := ⟨(.flrComplete 0 0), rfl, rfl⟩
theorem vfEnableClear (e : Nat) (f : Nat) : Statement (.vfEnableClear e f) := ⟨(.vfEnableClear 0 0), rfl, rfl⟩
theorem d3hotEntry (e : Nat) (f : Nat) : Statement (.d3hotEntry e f) := ⟨(.d3hotEntry 0 0), rfl, rfl⟩
theorem d0Return (e : Nat) (f : Nat) : Statement (.d0Return e f) := ⟨(.d0Return 0 0), rfl, rfl⟩
theorem completionReceive (e : Nat) (tag : Nat) (status : Nat) (poison : Bool) (data : List Nat) : Statement (.completionReceive e tag status poison data) := ⟨(.completionReceive 0 0 0 false []), rfl, rfl⟩
theorem completionTimeout (e : Nat) (tag : Nat) : Statement (.completionTimeout e tag) := ⟨(.completionTimeout 0 0), rfl, rfl⟩
theorem tagQuarantineExpiry (e : Nat) (tag : Nat) : Statement (.tagQuarantineExpiry e tag) := ⟨(.tagQuarantineExpiry 0 0), rfl, rfl⟩
theorem dlDown (e : Nat) : Statement (.dlDown e) := ⟨(.dlDown 0), rfl, rfl⟩
theorem dlUp (e : Nat) (speed : Nat) (width : Nat) (flit : Bool) (drs : Bool) : Statement (.dlUp e speed width flit drs) := ⟨(.dlUp 0 1 1 false false), rfl, rfl⟩
theorem perstAssert (e : Nat) : Statement (.perstAssert e) := ⟨(.perstAssert 0), rfl, rfl⟩
theorem perstDeassert (e : Nat) : Statement (.perstDeassert e) := ⟨(.perstDeassert 0), rfl, rfl⟩
theorem getVersion (e : Nat) : Statement (.getVersion e) := ⟨(.getVersion 0), rfl, rfl⟩
theorem getCapabilities (e : Nat) (p1 : Nat) (p2 : Nat) (data : List Nat) : Statement (.getCapabilities e p1 p2 data) := ⟨(.getCapabilities 0 0 0 []), rfl, rfl⟩
theorem negotiateAlgorithms (e : Nat) (p1 : Nat) (p2 : Nat) (data : List Nat) : Statement (.negotiateAlgorithms e p1 p2 data) := ⟨(.negotiateAlgorithms 0 0 0 []), rfl, rfl⟩
theorem getDigests (e : Nat) (ss : Nat) : Statement (.getDigests e ss) := ⟨(.getDigests 0 0), rfl, rfl⟩
theorem getCertificate (e : Nat) (ss : Nat) (p1 : Nat) (p2 : Nat) (data : List Nat) : Statement (.getCertificate e ss p1 p2 data) := ⟨(.getCertificate 0 0 0 0 []), rfl, rfl⟩
theorem challenge (e : Nat) (p1 : Nat) (p2 : Nat) (data : List Nat) : Statement (.challenge e p1 p2 data) := ⟨(.challenge 0 0 0 []), rfl, rfl⟩
theorem getMeasurements (e : Nat) (ss : Nat) (p1 : Nat) (p2 : Nat) (data : List Nat) : Statement (.getMeasurements e ss p1 p2 data) := ⟨(.getMeasurements 0 0 0 0 []), rfl, rfl⟩
theorem keyExchange (e : Nat) (p1 : Nat) (p2 : Nat) (data : List Nat) : Statement (.keyExchange e p1 p2 data) := ⟨(.keyExchange 0 0 0 []), rfl, rfl⟩
theorem spdmFinish (e : Nat) (ss : Nat) (p1 : Nat) (p2 : Nat) (data : List Nat) : Statement (.spdmFinish e ss p1 p2 data) := ⟨(.spdmFinish 0 0 0 0 []), rfl, rfl⟩
theorem heartbeat (e : Nat) (ss : Nat) : Statement (.heartbeat e ss) := ⟨(.heartbeat 0 0), rfl, rfl⟩
theorem keyUpdate (e : Nat) (ss : Nat) (p1 : Nat) (p2 : Nat) : Statement (.keyUpdate e ss p1 p2) := ⟨(.keyUpdate 0 0 0 0), rfl, rfl⟩
theorem endSession (e : Nat) (ss : Nat) : Statement (.endSession e ss) := ⟨(.endSession 0 0), rfl, rfl⟩
theorem ideCheckFailed (e : Nat) (stream : Nat) : Statement (.ideCheckFailed e stream) := ⟨(.ideCheckFailed 0 0), rfl, rfl⟩
theorem doorbellTail (e : Nat) (r : Nat) (v : Nat) : Statement (.doorbellTail e r v) := ⟨(.doorbellTail 0 0 0), rfl, rfl⟩
theorem doorbellCons (e : Nat) (r : Nat) (v : Nat) : Statement (.doorbellCons e r v) := ⟨(.doorbellCons 0 0 0), rfl, rfl⟩
theorem ringEnable (e : Nat) (r : Nat) : Statement (.ringEnable e r) := ⟨(.ringEnable 0 0), rfl, rfl⟩
theorem ringDisable (e : Nat) (r : Nat) : Statement (.ringDisable e r) := ⟨(.ringDisable 0 0), rfl, rfl⟩
theorem fnMapWrite (e : Nat) (f : Nat) (base : Nat) (count : Nat) : Statement (.fnMapWrite e f base count) := ⟨(.fnMapWrite 0 0 0 0), rfl, rfl⟩
theorem ringFetch (e : Nat) : Statement (.ringFetch e) := ⟨(.ringFetch 0), rfl, rfl⟩
theorem descriptorStart (e : Nat) (r : Nat) : Statement (.descriptorStart e r) := ⟨(.descriptorStart 0 0), rfl, rfl⟩
theorem hostRxPlace (h : Nat) : Statement (.hostRxPlace h) := ⟨(.hostRxPlace 0), rfl, rfl⟩
theorem completionPost (e : Nat) (r : Nat) : Statement (.completionPost e r) := ⟨(.completionPost 0 0), rfl, rfl⟩
theorem completionStallTimeout (e : Nat) (c : Nat) : Statement (.completionStallTimeout e c) := ⟨(.completionStallTimeout 0 0), rfl, rfl⟩
theorem moderationTimer (e : Nat) (r : Nat) : Statement (.moderationTimer e r) := ⟨(.moderationTimer 0 0), rfl, rfl⟩
theorem tenCreate (t : Nat) : Statement (.tenCreate t) := ⟨(.tenCreate 0), rfl, rfl⟩
theorem tenModify (t : Nat) : Statement (.tenModify t) := ⟨(.tenModify 0), rfl, rfl⟩
theorem tenDestroy (t : Nat) : Statement (.tenDestroy t) := ⟨(.tenDestroy 0), rfl, rfl⟩
theorem tenResume (t : Nat) : Statement (.tenResume t) := ⟨(.tenResume 0), rfl, rfl⟩
theorem forceFatal (t : Nat) : Statement (.forceFatal t) := ⟨(.forceFatal 0), rfl, rfl⟩
theorem tenQuery (t : Nat) : Statement (.tenQuery t) := ⟨(.tenQuery 0), rfl, rfl⟩
theorem fnOwnerWrite (e : Nat) (f : Nat) (v : Nat) : Statement (.fnOwnerWrite e f v) := ⟨(.fnOwnerWrite 0 0 0), rfl, rfl⟩
theorem chargePost (n : Nat) (t : Nat) (counts : List Nat) (rx : Bool) : Statement (.chargePost n t counts rx) := ⟨(.chargePost 0 0 [] false), rfl, rfl⟩
theorem pmbusRead (good : Nat) (words : List Nat) : Statement (.pmbusRead good words) := ⟨(.pmbusRead 0 []), rfl, rfl⟩
theorem meterStale (k : Nat) : Statement (.meterStale k) := ⟨(.meterStale 0), rfl, rfl⟩
theorem plannerEpoch (fixed : Nat) : Statement (.plannerEpoch fixed) := ⟨(.plannerEpoch 0), rfl, rfl⟩
theorem ageingMeasure (n : Nat) (d0 : List Nat) (d : List Nat) : Statement (.ageingMeasure n d0 d) := ⟨(.ageingMeasure 0 (List.replicate 32 0) (List.replicate 32 0)), rfl, rfl⟩
theorem ageingForcedIdle (n : Nat) : Statement (.ageingForcedIdle n) := ⟨(.ageingForcedIdle 0), rfl, rfl⟩
theorem persistentStateWrite : Statement (.persistentStateWrite) := ⟨(.persistentStateWrite), rfl, rfl⟩
theorem stage1Boot : Statement (.stage1Boot) := ⟨(.stage1Boot), rfl, rfl⟩
theorem hbmTrained (k : Nat) : Statement (.hbmTrained k) := ⟨(.hbmTrained 0), rfl, rfl⟩
theorem structureImageApplied : Statement (.structureImageApplied) := ⟨(.structureImageApplied), rfl, rfl⟩
theorem fwAlive (h : Nat) : Statement (.fwAlive h) := ⟨(.fwAlive 0), rfl, rfl⟩
theorem deviceReady : Statement (.deviceReady) := ⟨(.deviceReady), rfl, rfl⟩
theorem stage2Watchdog : Statement (.stage2Watchdog) := ⟨(.stage2Watchdog), rfl, rfl⟩
theorem bootArb (v : Nat) : Statement (.bootArb v) := ⟨(.bootArb 0), rfl, rfl⟩
theorem arbProgramDone : Statement (.arbProgramDone) := ⟨(.arbProgramDone), rfl, rfl⟩
theorem recoveryBegin (kind : Nat) : Statement (.recoveryBegin kind) := ⟨(.recoveryBegin 0), rfl, rfl⟩
theorem recoveryChunk : Statement (.recoveryChunk) := ⟨(.recoveryChunk), rfl, rfl⟩
theorem recoveryFinish : Statement (.recoveryFinish) := ⟨(.recoveryFinish), rfl, rfl⟩
theorem recoveryAbort : Statement (.recoveryAbort) := ⟨(.recoveryAbort), rfl, rfl⟩
theorem pldmUpdate (comp : Nat) (image : List Nat) : Statement (.pldmUpdate comp image) := ⟨(.pldmUpdate 0 []), rfl, rfl⟩
theorem onyxSubmit : Statement (.onyxSubmit) := ⟨(.onyxSubmit), rfl, rfl⟩
theorem onyxCancel : Statement (.onyxCancel) := ⟨(.onyxCancel), rfl, rfl⟩
theorem presenceEvent (jumper : Bool) (button : Bool) (press : Bool) : Statement (.presenceEvent jumper button press) := ⟨(.presenceEvent false false false), rfl, rfl⟩
theorem onyxWindowExpiry : Statement (.onyxWindowExpiry) := ⟨(.onyxWindowExpiry), rfl, rfl⟩
theorem debugUnlock : Statement (.debugUnlock) := ⟨(.debugUnlock), rfl, rfl⟩
theorem revokeKey (k : Nat) : Statement (.revokeKey k) := ⟨(.revokeKey 0), rfl, rfl⟩
theorem transferOwner : Statement (.transferOwner) := ⟨(.transferOwner), rfl, rfl⟩
theorem fuseProvision (k : Nat) : Statement (.fuseProvision k) := ⟨(.fuseProvision 0), rfl, rfl⟩
theorem onyxZeroiseTenant (t : Nat) : Statement (.onyxZeroiseTenant t) := ⟨(.onyxZeroiseTenant 0), rfl, rfl⟩
theorem sealBreak : Statement (.sealBreak) := ⟨(.sealBreak), rfl, rfl⟩
theorem powerFailWarning (blown : Nat) : Statement (.powerFailWarning blown) := ⟨(.powerFailWarning 0), rfl, rfl⟩
theorem railDrop (rail : Nat) (logged : Bool) (saved : Bool) (blown : Nat) : Statement (.railDrop rail logged saved blown) := ⟨(.railDrop 0 false false 0), rfl, rfl⟩
theorem mainRailsGood : Statement (.mainRailsGood) := ⟨(.mainRailsGood), rfl, rfl⟩
theorem vauxUp : Statement (.vauxUp) := ⟨(.vauxUp), rfl, rfl⟩
theorem vauxLoss : Statement (.vauxLoss) := ⟨(.vauxLoss), rfl, rfl⟩
theorem thermalWarn (d : Nat) (tj : Nat) : Statement (.thermalWarn d tj) := ⟨(.thermalWarn 0 0), rfl, rfl⟩
theorem thermalWarnClear (d : Nat) (tj : Nat) : Statement (.thermalWarnClear d tj) := ⟨(.thermalWarnClear 0 0), rfl, rfl⟩
theorem thermtrip (d : Nat) (tj : Nat) : Statement (.thermtrip d tj) := ⟨(.thermtrip 0 0), rfl, rfl⟩
theorem regionOffline (n : Nat) (force : Bool) : Statement (.regionOffline n force) := ⟨(.regionOffline 0 false), rfl, rfl⟩
theorem regionOfflineEffective (n : Nat) : Statement (.regionOfflineEffective n) := ⟨(.regionOfflineEffective 0), rfl, rfl⟩
theorem regionDrainDone (n : Nat) (lost : List Nat) : Statement (.regionDrainDone n lost) := ⟨(.regionDrainDone 0 []), rfl, rfl⟩
theorem regionBistEnd (n : Nat) (failed : List Nat) : Statement (.regionBistEnd n failed) := ⟨(.regionBistEnd 0 []), rfl, rfl⟩
theorem regionOnline (n : Nat) : Statement (.regionOnline n) := ⟨(.regionOnline 0), rfl, rfl⟩
theorem regionReturnComplete (n : Nat) : Statement (.regionReturnComplete n) := ⟨(.regionReturnComplete 0), rfl, rfl⟩
theorem tcamBankTest (n : Nat) (pass : Bool) (stuck : List Nat) : Statement (.tcamBankTest n pass stuck) := ⟨(.tcamBankTest 0 false []), rfl, rfl⟩
theorem cipherKat (k : Nat) (pass : Bool) : Statement (.cipherKat k pass) := ⟨(.cipherKat 0 false), rfl, rfl⟩
theorem sramScrub (d : Nat) (o : Nat) (found : Nat) (kind : Nat) (x : Nat) (y : Nat) : Statement (.sramScrub d o found kind x y) := ⟨(.sramScrub 0 0 0 0 0 0), rfl, rfl⟩
theorem hbmScrub (k : Nat) (o : Nat) (found : Nat) (kind : Nat) (x : Nat) (y : Nat) : Statement (.hbmScrub k o found kind x y) := ⟨(.hbmScrub 0 0 0 0 0 0), rfl, rfl⟩
theorem hbmPcRetire (k : Nat) (pc : Nat) : Statement (.hbmPcRetire k pc) := ⟨(.hbmPcRetire 0 0), rfl, rfl⟩
theorem hbmPcSubstituteDone : Statement (.hbmPcSubstituteDone) := ⟨(.hbmPcSubstituteDone), rfl, rfl⟩
theorem bypass : Statement (.bypass) := ⟨(.bypass), rfl, rfl⟩
theorem idcode : Statement (.idcode) := ⟨(.idcode), rfl, rfl⟩
theorem samplePreload (bits : List Nat) : Statement (.samplePreload bits) := ⟨(.samplePreload []), rfl, rfl⟩
theorem extest : Statement (.extest) := ⟨(.extest), rfl, rfl⟩
theorem clamp : Statement (.clamp) := ⟨(.clamp), rfl, rfl⟩
theorem highz : Statement (.highz) := ⟨(.highz), rfl, rfl⟩
theorem backendQueueConnect (b : Nat) (q : Nat) (incap : Nat) (maxh2c : Nat) : Statement (.backendQueueConnect b q incap maxh2c) := ⟨(.backendQueueConnect 0 0 0 0), rfl, rfl⟩
theorem backendQueueDisconnect (b : Nat) (q : Nat) : Statement (.backendQueueDisconnect b q) := ⟨(.backendQueueDisconnect 0 0), rfl, rfl⟩
theorem readyToTransferPdu (b : Nat) (q : Nat) (tag : Nat) (ttag : Nat) (off : Nat) (len : Nat) : Statement (.readyToTransferPdu b q tag ttag off len) := ⟨(.readyToTransferPdu 0 0 0 0 0 0), rfl, rfl⟩
theorem tcpRetransmitTimeout (b : Nat) (q : Nat) : Statement (.tcpRetransmitTimeout b q) := ⟨(.tcpRetransmitTimeout 0 0), rfl, rfl⟩
theorem ideKmKeyProgram (e : Nat) (ss : Nat) (stream : Nat) (su : Nat) (dir : Nat) (go : Bool) (key : List Nat) : Statement (.ideKmKeyProgram e ss stream su dir go key) := ⟨(.ideKmKeyProgram 0 0 0 0 0 false []), rfl, rfl⟩
theorem doeDiscovery (e : Nat) (ix : Nat) : Statement (.doeDiscovery e ix) := ⟨(.doeDiscovery 0 0), rfl, rfl⟩
theorem mainRailsRemoved : Statement (.mainRailsRemoved) := ⟨(.mainRailsRemoved), rfl, rfl⟩
theorem powerOnResetAssert : Statement (.powerOnResetAssert) := ⟨(.powerOnResetAssert), rfl, rfl⟩

end Sys2Proof.Laws.Shape
end

