-- ==== Sys2Proof/Tests/Slice0.lean ====
section
/-! SUPPORT. Tests: the checks of WellFormed each refuse an ill-formed command; numbers of the spec's worked examples; and one witness for
every statement, in which states and operands meet all its hypotheses. -/

namespace Sys2Proof.Tests

open Sys2Proof Sys2Proof.Machine

set_option Elab.async false

/-- WellFormed smoke, part 1: each command breaks one check of its own and is refused. -/
theorem test_ill_formed_1 :
    ([.registerWrite 57 0 0, .registerWrite 0 (2 ^ 56) 0, .registerWrite 0 2 0, .registerWrite 0 0 (2 ^ 32), .partialWrite 57 0,
    .partialWrite 0 (2 ^ 56), .partialWrite 0 2, .readLo 57 0, .readLo 0 (2 ^ 56), .readLo 0 2, .readHi 57 0, .readHi 0 (2 ^ 56),
    .readHi 0 2, .writeLo 57 0 0, .writeLo 0 (2 ^ 56) 0, .writeLo 0 2 0, .writeLo 0 0 (2 ^ 32), .writeHi 57 0 0, .writeHi 0 (2 ^ 56) 0,
    .writeHi 0 2 0, .writeHi 0 0 (2 ^ 32), .rcRead 57 0, .rcRead 0 (2 ^ 56), .rcRead 0 2, .powerOnReset false (2 ^ 40),
    .peingLinkTrained 8 0 0, .peingLinkTrained 0 8 0, .peingLinkTrained 0 0 (4 + 1), .peingTrainTimeout 8 0, .peingTrainTimeout 0 8,
    .peingCorrectableError 8 0 0, .peingCorrectableError 0 8 0, .peingCorrectableError 0 0 256, .peingWireFault 8 0 0,
    .peingWireFault 0 8 0, .peingWireFault 0 0 256, .cellFault 8 0 0 false false 0, .cellFault 0 32 0 false false 0,
    .cellFault 0 0 17 false false 0, .voltageStep 15, .clockAbsent 18 0, .clockAbsent 0 8, .clockPresent 18 0 false,
    .clockPresent 0 8 false, .clockAccessTimeout 57, .regionSpeedMeasure 8 0 0, .regionSpeedMeasure 0 4096 0,
    .regionSpeedMeasure 0 0 1024, .timeCsrRead 53 0 0, .abDiffMeasure 32768, .replicaRealign 8,
    .referenceMeasurement 8 0 false 0 0 0 0 true, .measurementMissing 8, .wtrExpiry 6, .tsTodSetUnc 65536 true, .servoEnWrite 4294967296 true,
    .oscModeWrite 4294967296] : List Instr).all (fun c => !c.wellFormed) = true := by decide +kernel

/-- WellFormed smoke, part 2: each command breaks one check of its own and is refused. -/
theorem test_ill_formed_2 :
    ([.tsAmberFetch 4294967296, .chainDigestCommit 4294967296, .tsuCalibrate 2 0, .tsuCalibrate 0 8, .tsuCalibrationDone 2 0 0,
    .tsuCalibrationDone 0 8 0, .tsuCalibrationDone 0 0 65536, .launchGateArrival 2 0 0, .launchGateArrival 0 8 0, .launchRelease 2 0,
    .launchRelease 0 8, .timePageUpdate 2, .ptmDialogueStart 2, .ptmResponse 2 0 0 0, .ptmTimeout 2, .ppsOutEdge 2, .ppsPulseEnd 2,
    .swap 256, .rollback 256, .coldApply 2, .regionDrained 8, .drainLimitExpiry 8, .drainBackRewriteDone 8,
    .frameReceive 2 0 0 false [] 0 0, .frameReceive 0 8 0 false [] 0 0, .frameReceive 0 0 0 false [256] 0 0, .packetParse 8 0, .nop 8 0 0,
    .nop 0 256 0, .mov 8 0 0, .mov 0 256 0, .add 8 0 0, .add 0 256 0, .sub 8 0 0, .sub 0 256 0, .and 8 0 0, .and 0 256 0, .or 8 0 0,
    .or 0 256 0, .xor 8 0 0, .xor 0 256 0, .shl 8 0 0, .shl 0 256 0, .shr 8 0 0, .shr 0 256 0, .cmpEq 8 0 0, .cmpEq 0 256 0,
    .cmpLt 8 0 0, .cmpLt 0 256 0, .hash 8 0 0, .hash 0 256 0, .lookupEm 8 0 0, .lookupEm 0 256 0, .lookupTcam 8 0 0 [] [],
    .lookupTcam 0 256 0 [] [], .learn 8 0 0, .learn 0 256 0, .meter 8 0 0] : List Instr).all (fun c => !c.wellFormed) = true := by decide +kernel

/-- WellFormed smoke, part 3: each command breaks one check of its own and is refused. -/
theorem test_ill_formed_3 :
    ([.meter 0 256 0, .punt 8 0 0, .punt 0 256 0, .drop 8 0 0, .drop 0 256 0, .forward 8 0 0, .forward 0 256 0, .setTsOp 8 0 0,
    .setTsOp 0 256 0, .setEpochHint 8 0 0, .setEpochHint 0 256 0, .treeWalk 8 0, .automataScan 8 0,
    .cipherOperation 8 0 0 false 0 0 [] [] false, .cipherOperation 0 0 (2 ^ 24) false 0 0 [] [] false,
    .cipherOperation 0 0 0 false 0 0 [256] [] false, .cipherOperation 0 0 0 false 0 0 [] [256] false, .pipelineExit 8 0,
    .clsRegisterPropagate 8, .fragHoldExpiry 8 0, .fragEntryExpiry 8 0, .fragEntryExpiry 0 (2 ^ 64), .policerApply 8 0 0,
    .policerApply 0 8192 0, .policerApply 0 0 4294967296, .ageingScan 1024 0 0, .ageingScan 0 10 0, .ageingScan 0 0 (2 ^ 27),
    .exmSearch 16 0, .exmSearch 0 1024, .exmInsert 16 0, .exmInsert 0 1024, .exmUpdate 16 0 false, .exmUpdate 0 1024 false,
    .exmDelete 16 0, .exmDelete 0 1024, .exmNext 16 0, .exmNext 0 1024, .flushByPort 16 0 false, .flushByPort 0 1024 false,
    .flushByTenant 16 0 false, .flushByTenant 0 1024 false, .shadowOpen 16 0, .shadowOpen 0 1024, .shadowCopy 16 0, .shadowCopy 0 1024,
    .shadowSwap 16 0, .shadowSwap 0 1024, .shadowDiscard 16 0, .shadowDiscard 0 1024, .dampingRecordExpiry 10 0,
    .dampingRecordExpiry 0 (2 ^ 235), .tcmSearch 8 0 [] [], .tcmSearch 0 1024 [] [], .tcmStep 8 0 [] [], .tcmStep 0 1024 [] [], .tcmWrite 8 0,
    .tcmWrite 0 1024] : List Instr).all (fun c => !c.wellFormed) = true := by decide +kernel

/-- WellFormed smoke, part 4: each command breaks one check of its own and is refused. -/
theorem test_ill_formed_4 :
    ([.tcmUpdate 8 0, .tcmUpdate 0 1024, .tcmInvalidate 8 0, .tcmInvalidate 0 1024, .tcmRead 8 0, .tcmRead 0 1024, .tcmMove 8 0,
    .tcmMove 0 1024, .tcamRepair 8 0 false false, .tcamRepair 0 16384 false false, .loadSet 4 0 0, .loadSet 0 64 0, .loadSet 0 0 256,
    .activateSet 4 0, .activateSet 0 64, .setActivation 64, .deleteSet 4 0 0, .deleteSet 0 64 0, .deleteSet 0 0 256, .patScan 4 0 0,
    .patScan 0 64 0, .patScan 0 0 256, .patEngine 8 0, .patEngine 0 2, .ethModeWrite 2 0, .ethModeWrite 0 (2 ^ 32), .portEnable 2 0,
    .portEnable 0 8, .portDisable 2 0, .portDisable 0 8, .portLinkUp 2 0, .portLinkUp 0 8, .trainingTimeout 2 0, .trainingTimeout 0 8,
    .linkFault 2 0, .linkFault 0 8, .remoteFault 2 0, .remoteFault 0 8, .downRetrain 2 0, .downRetrain 0 8,
    .pfcReceive 2 0 0 false 0 [], .pfcReceive 0 8 0 false 0 [], .pfcReceive 0 0 0 false 256 [], .pfcReceive 0 0 0 false 0 [65536],
    .pauseExpiry 2 0 0, .pauseExpiry 0 8 0, .pauseExpiry 0 0 8, .pfcRefresh 2 0 0, .pfcRefresh 0 8 0, .pfcRefresh 0 0 8,
    .macFrameStart 2 0 0, .macFrameStart 0 8 0, .txUnderrun 2 0 0 0, .txUnderrun 0 8 0 0, .resetThr 2 0, .resetThr 0 8,
    .saValidWrite 2 0 0, .saValidWrite 0 8 0] : List Instr).all (fun c => !c.wellFormed) = true := by decide +kernel

/-- WellFormed smoke, part 5: each command breaks one check of its own and is refused. -/
theorem test_ill_formed_5 :
    ([.saValidWrite 0 0 132, .wakeFrameReceive 2 [], .wakeFrameReceive 0 [256], .ncsiCommand [256], .ncsiFrameTransmit 16 0 [],
    .ncsiFrameTransmit 0 0 [256], .schedulerDispatch 2 0, .schedulerDispatch 0 8, .shaperApply 2 0 0, .shaperApply 0 25600 0,
    .shaperApply 0 0 (2 ^ 32), .downHoldExpiry 2 0, .downHoldExpiry 0 8, .queueSample 2, .silCreate 4 0,
    .silCreate 0 4194304, .silModify 4 0, .silModify 0 4194304, .silDestroy 4 0, .silDestroy 0 4194304, .connectionRelease 4194304,
    .silQuery 4 0, .silQuery 0 4194304, .contextCacheFill 8 0, .contextCacheFill 0 4194304, .sillagePacketSend 4194304 0 false,
    .sillagePacketReceive 8 0 false, .rocePacketReceive 8 0, .ackDelayExpiry 4194304, .ackReceive 8 0 false, .nakReceive 8 0 false,
    .retransmitTimeout 4194304 0, .retransmitTimeout 0 256, .retryAfterResend 4194304 0, .retryAfterResend 0 (2 ^ 32),
    .probe 4194304 0 false, .probe 0 256 false, .baseWindowRoll 4194304, .registerMkey 4 0 0, .registerMkey 0 1048576 0,
    .registerMkey 0 0 256, .invalidateMkey 4 0 0, .invalidateMkey 0 1048576 0, .invalidateMkey 0 0 256, .revokeAt 1048576,
    .mkeyInvalidateComplete 1048576, .mkyQuery 4 0, .mkyQuery 0 1048576, .prefetch 4 0 0, .prefetch 0 1048576 0, .prefetch 0 0 256,
    .keyRecordFill 8 0, .keyRecordFill 0 1048576, .atsTranslationComplete 2 0 0 0 0 0, .atsTranslationComplete 0 1028 0 0 0 0,
    .atsTranslationComplete 0 0 (2 ^ 20 + 1) 0 0 0, .atsTranslationComplete 0 0 0 (2 ^ 52) 0 0] : List Instr).all (fun c => !c.wellFormed) = true := by decide +kernel

/-- WellFormed smoke, part 6: each command breaks one check of its own and is refused. -/
theorem test_ill_formed_6 :
    ([.atsTranslationComplete 0 0 0 0 (2 ^ 52) 0, .atsTranslationComplete 0 0 0 0 0 4, .atsInvalidation 2 0 0 0 0,
    .atsInvalidation 0 1028 0 0 0, .atsInvalidation 0 0 (2 ^ 20 + 1) 0 0, .atsInvalidation 0 0 0 (2 ^ 52) 0,
    .atsInvalidation 0 0 0 0 (2 ^ 52 + 1), .priResponse 2 0 0 0 0, .priResponse 0 1028 0 0 0, .priResponse 0 0 (2 ^ 20 + 1) 0 0,
    .priResponse 0 0 0 (2 ^ 52) 0, .priResponse 0 0 0 0 16, .priTimeout 2 0 0 0, .priTimeout 0 1028 0 0,
    .priTimeout 0 0 (2 ^ 20 + 1) 0, .priTimeout 0 0 0 (2 ^ 52), .beCreate 4 0, .beCreate 0 16384, .beDestroy 4 0, .beDestroy 0 16384,
    .nsCreate 4 0, .nsCreate 0 16384, .nsDelete 4 0, .nsDelete 0 16384, .nsAttach 4 0, .nsAttach 0 16384, .nsDetach 4 0,
    .nsDetach 0 16384, .nveQuery 4 0, .nveQuery 0 16384, .controllerEnable 1024 0, .controllerEnable 0 (2 ^ 32), .controllerReset 1024,
    .resetLimitExpiry 1024, .controllerShutdown 1024 1, .controllerShutdown 0 3, .nvmeFetch 1024, .createIoSq (2 ^ 32),
    .deleteIoSq (2 ^ 32), .createIoCq (2 ^ 32), .deleteIoCq (2 ^ 32), .getLogPage (2 ^ 32), .identify (2 ^ 32), .nvmeAbort (2 ^ 32),
    .setFeatures (2 ^ 32), .getFeatures (2 ^ 32), .asynchronousEventRequest (2 ^ 32), .nvmeFlush (2 ^ 32), .nvmeWrite (2 ^ 32),
    .nvmeRead (2 ^ 32), .writeZeroes (2 ^ 32), .datasetManagement (2 ^ 32), .commandStaged (2 ^ 32) false,
    .backendResponse 4096 0 0 0 0 false [], .backendResponse 0 64 0 0 0 false [], .backendResponse 0 0 65536 0 0 false [],
    .backendResponse 0 0 0 (2 ^ 11) 0 false [], .backendResponse 0 0 0 0 (2 ^ 32) false []] : List Instr).all (fun c => !c.wellFormed) = true := by decide +kernel

/-- WellFormed smoke, part 7: each command breaks one check of its own and is refused. -/
theorem test_ill_formed_7 :
    ([.backendResponse 0 0 0 0 0 false [256], .backendTimeout (2 ^ 32), .generate 4 0, .generate 0 256, .unwrap 4 0, .unwrap 0 256,
    .derive 4 0, .derive 0 256, .keyDestroy 4 0, .keyDestroy 0 256, .keyQuery 4 0, .keyQuery 0 256, .keyMac 4 0, .keyMac 0 256,
    .keyZeroiseTenant 4 0 false, .keyZeroiseTenant 0 256 false, .keyLoad 8 0 false, .keyLoad 0 (2 ^ 24) false, .corIpi 64 0 0,
    .corIpi 0 8 0, .corIpi 0 0 256, .queueConsWrite 8 0 0, .queueConsWrite 0 256 0, .queueConsWrite 0 0 4294967296, .corPktAlloc 8,
    .inject 8 0, .inject 0 6, .injSend 8 0, .injSend 0 6, .injFree 8 0, .injFree 0 6, .scanDone 8 0, .scanDone 0 6, .coreRun 8 0,
    .coreRun 0 6, .haltReq 8 0, .haltReq 0 6, .coreHalted 8 0, .coreHalted 0 6, .coreReset 8 0, .coreReset 0 6, .timerInterrupt 53 0 0,
   .timerInterrupt 0 3 0, .timerInterrupt 0 0 (2 ^ 64), .configRequest 2 0 0 false 0 0 0, .configRequest 0 1280 0 false 0 0 0, .configRequest 0 0 4096 false 0 0 0,
    .configRequest 0 0 2 false 0 0 0, .configRequest 0 0 0 false (2 ^ 32) 0 0, .configRequest 0 0 0 false 0 16 0,
    .configRequest 0 0 0 false 0 0 256, .barRequest 2 0 0 0 false 0 1 [], .barRequest 0 0 1028 0 false 0 1 [], .barRequest 0 65536 0 0 false 0 1 [],
    .barRequest 0 0 0 6 false 0 1 [], .barRequest 0 0 0 0 false 0 (4096 + 1) [], .barRequest 0 0 0 0 false 0 1 [256],
    .expansionRomRead 2 0 0 0, .expansionRomRead 0 2 0 0, .bmeClear 2 0] : List Instr).all (fun c => !c.wellFormed) = true := by decide +kernel

/-- WellFormed smoke, part 8: each command breaks one check of its own and is refused. -/
theorem test_ill_formed_8 :
    ([.bmeClear 0 1028, .bmeSet 2 0, .bmeSet 0 1028, .flr 2 0, .flr 0 1028, .flrComplete 2 0, .flrComplete 0 1028, .vfEnableClear 2 0,
    .vfEnableClear 0 4, .d3hotEntry 2 0, .d3hotEntry 0 4, .d0Return 2 0, .d0Return 0 4, .completionReceive 2 0 0 false [],
    .completionReceive 0 16384 0 false [], .completionReceive 0 0 8 false [], .completionReceive 0 0 0 false [256],
    .completionTimeout 2 0, .completionTimeout 0 16384, .tagQuarantineExpiry 2 0, .tagQuarantineExpiry 0 16384, .dlDown 2,
    .dlUp 2 1 1 false false, .dlUp 0 (6 + 1) 1 false false, .perstAssert 2, .perstDeassert 2, .getVersion 2, .getCapabilities 2 0 0 [],
    .getCapabilities 0 256 0 [], .getCapabilities 0 0 256 [], .getCapabilities 0 0 0 [256], .negotiateAlgorithms 2 0 0 [],
    .negotiateAlgorithms 0 256 0 [], .negotiateAlgorithms 0 0 256 [], .negotiateAlgorithms 0 0 0 [256], .getDigests 2 0,
    .getDigests 0 3, .getCertificate 2 0 0 0 [], .getCertificate 0 3 0 0 [], .getCertificate 0 0 256 0 [],
    .getCertificate 0 0 0 256 [], .getCertificate 0 0 0 0 [256], .challenge 2 0 0 [], .challenge 0 256 0 [], .challenge 0 0 256 [],
    .challenge 0 0 0 [256], .getMeasurements 2 0 0 0 [], .getMeasurements 0 3 0 0 [], .getMeasurements 0 0 256 0 [],
    .getMeasurements 0 0 0 256 [], .getMeasurements 0 0 0 0 [256], .keyExchange 2 0 0 [], .keyExchange 0 256 0 [],
    .keyExchange 0 0 256 [], .keyExchange 0 0 0 [256], .spdmFinish 2 0 0 0 [], .spdmFinish 0 3 0 0 [], .spdmFinish 0 0 256 0 []] : List Instr).all (fun c => !c.wellFormed) = true := by decide +kernel

/-- WellFormed smoke, part 9: each command breaks one check of its own and is refused. -/
theorem test_ill_formed_9 :
    ([.spdmFinish 0 0 0 256 [], .spdmFinish 0 0 0 0 [256], .heartbeat 2 0, .heartbeat 0 3, .keyUpdate 2 0 0 0, .keyUpdate 0 3 0 0,
    .keyUpdate 0 0 256 0, .keyUpdate 0 0 0 256, .endSession 2 0, .endSession 0 3, .ideCheckFailed 2 0, .ideCheckFailed 0 5,
    .doorbellTail 2 0 0, .doorbellTail 0 32768 0, .doorbellTail 0 0 (2 ^ 32), .doorbellCons 2 0 0, .doorbellCons 0 32768 0,
    .doorbellCons 0 0 (2 ^ 32), .ringEnable 2 0, .ringEnable 0 32768, .ringDisable 2 0, .ringDisable 0 32768, .fnMapWrite 2 0 0 0,
    .fnMapWrite 0 1028 0 0, .fnMapWrite 0 0 32768 0, .fnMapWrite 0 0 0 65536, .ringFetch 2, .descriptorStart 2 0,
    .descriptorStart 0 32768, .completionPost 2 0, .completionPost 0 32768, .completionStallTimeout 2 0,
    .completionStallTimeout 0 32768, .moderationTimer 2 0, .moderationTimer 0 32768, .tenCreate 256, .tenModify 256, .tenDestroy 256,
    .tenResume 256, .forceFatal 256, .tenQuery 256, .fnOwnerWrite 2 0 0, .fnOwnerWrite 0 1028 0, .fnOwnerWrite 0 0 4294967296,
    .chargePost 8 0 [] false, .chargePost 0 256 [] false, .pmbusRead 256 [], .pmbusRead 0 [65536], .meterStale 8,
    .plannerEpoch 4294967296, .ageingMeasure 8 (List.replicate 32 0) (List.replicate 32 0), .ageingMeasure 0 [] (List.replicate 32 0),
    .ageingMeasure 0 (List.replicate 32 0) [], .ageingForcedIdle 8, .hbmTrained 2, .fwAlive 53, .bootArb 128, .recoveryBegin 4] : List Instr).all (fun c => !c.wellFormed) = true := by decide +kernel

/-- WellFormed smoke, part 10: each command breaks one check of its own and is refused. -/
theorem test_ill_formed_10 :
    ([.pldmUpdate 65536 [], .pldmUpdate 0 [256], .revokeKey 4, .fuseProvision 4, .onyxZeroiseTenant 256, .powerFailWarning (64 + 1),
    .railDrop 10 false false 0, .railDrop 0 false false (64 + 1), .thermalWarn 8 0, .thermalWarn 0 1024, .thermalWarnClear 8 0,
    .thermalWarnClear 0 1024, .thermtrip 8 0, .thermtrip 0 1024, .regionOffline 8 false, .regionOfflineEffective 8,
    .regionDrainDone 8 [], .regionBistEnd 8 [], .regionBistEnd 0 [272], .regionOnline 8, .regionReturnComplete 8,
    .tcamBankTest 8 false [], .tcamBankTest 0 false [16384], .cipherKat 10 false, .sramScrub 8 0 0 0 0 0,
    .sramScrub 0 (2 ^ 44) 0 0 0 0, .sramScrub 0 0 3 0 0 0, .sramScrub 0 0 0 5 0 0, .hbmScrub 2 0 0 0 0 0,
    .hbmScrub 0 0x600000000 0 0 0 0, .hbmScrub 0 0 3 0 0 0, .hbmScrub 0 0 0 5 0 0, .hbmPcRetire 2 0, .hbmPcRetire 0 32,
    .samplePreload [2], .backendQueueConnect 4096 0 0 0, .backendQueueConnect 0 64 0 0, .backendQueueConnect 0 0 (2 ^ 32) 0,
    .backendQueueConnect 0 0 0 (2 ^ 32), .backendQueueDisconnect 4096 0, .backendQueueDisconnect 0 64,
    .readyToTransferPdu 4096 0 0 0 0 0, .readyToTransferPdu 0 64 0 0 0 0, .readyToTransferPdu 0 0 65536 0 0 0,
    .readyToTransferPdu 0 0 0 65536 0 0, .readyToTransferPdu 0 0 0 0 (2 ^ 32) 0, .readyToTransferPdu 0 0 0 0 0 (2 ^ 32),
    .tcpRetransmitTimeout 4096 0, .tcpRetransmitTimeout 0 64, .ideKmKeyProgram 2 0 0 0 0 false [], .ideKmKeyProgram 0 3 0 0 0 false [],
    .ideKmKeyProgram 0 0 5 0 0 false [], .ideKmKeyProgram 0 0 0 3 0 false [], .ideKmKeyProgram 0 0 0 0 2 false [],
    .ideKmKeyProgram 0 0 0 0 0 false [256], .doeDiscovery 2 0, .doeDiscovery 0 256, .abDiffMeasure (-32769)] : List Instr).all (fun c => !c.wellFormed) = true := by decide +kernel

/-- WellFormed smoke, part 11: each command breaks one check of its own and is refused. -/
theorem test_ill_formed_11 :
    ([.replicaRealign 1, .controllerShutdown 0 0, .barRequest 0 0 0 0 false 0 0 [], .barRequest 0 0 0 0 false 0 1 [0, 0],
    .expansionRomRead 0 0 1048576 1, .dlUp 0 0 1 false false, .dlUp 0 1 3 false false, .railDrop 8 false false 0] : List Instr).all (fun c => !c.wellFormed) = true := by decide +kernel

/-- Packet 0 at stage 0 of pipeline 0 of region 0. -/
def packetIn (chain prog : List Nat) : State :=
  (((((State.reset.set .PKT_live 1 0 0).set .PKT_stage 1 0 0).set .PKT_in_region 1 0 0).set .PKT_todo 1 0 0).lset .ctxSec chain 0 3).lset
    .ctxSec prog 0 2

/-- Packet 0 at a group of one cell, cell 0, whose program is the one word of opcode `op`, not predicated, with next 0xFF. -/
def cellState (op : Nat) : State :=
  packetIn ([1, 0, 1] ++ List.replicate 31 0) ([0, 0, 1, 0] ++ List.replicate 12 0 ++ leBytes 16 (op + 0xFF * 2 ^ 59) ++ List.replicate 240 0)

/-- Packet 0 at engine `e`. -/
def engineState (e : Nat) : State := packetIn ([1, 1, 0, e] ++ List.replicate 30 0) []

/-- Table 0 in region 0: key of 4 bytes, learning, one bucket, holding key 5 with value 9. -/
def tableState : State :=
  ((State.reset.set .TBL_inst 1 0 0).lset .tblLay ([0, 0, 1, 1, 0, 4, 0, 0, 0, 0] ++ List.replicate 22 0) 0 0).set .EXE (exeMake 4 1 5 9) 0 0

/-- The same with key 5 in the words of channel 0. -/
def tableState5 : State := tableState.set .EXM_CH_key 5 0 0


/-- TCAM table 0 of 160-bit keys over units 0 to 15 in region 0, with an entry of one unit at unit 1; channel 0 names unit 1 and dst 2. -/
def tcamState : State :=
  ((((State.reset.set .TBL_inst 1 0 0).lset .tblLay ([2, 0, 1, 0, 0, 0, 160, 0, 0, 0, 16, 0] ++ List.replicate 52 0) 0 0).set .TCE_inst 1 0 1).set .TCM_CH_unit 1 0 0).set .TCM_CH_dst 2 0 0

/-- A pattern set of one DFA state, one class and one pattern, which reports nothing. -/
def patternSet : List Nat :=
  leBytes 4 0x54455350 ++ leBytes 2 1 ++ [0, 0] ++ leBytes 4 1 ++ leBytes 2 1 ++ leBytes 2 1 ++ leBytes 4 372 ++ leBytes 4 0 ++
    leBytes 2 1 ++ leBytes 2 0 ++ leBytes 4 96 ++ leBytes 4 352 ++ leBytes 4 356 ++ leBytes 4 360 ++ leBytes 4 360 ++
    List.replicate 48 0 ++ List.replicate 256 0 ++ leBytes 4 0xFFFFFF ++ leBytes 4 0 ++ leBytes 4 0 ++ leBytes 4 0xFFFFFF ++ leBytes 4 0

/-- Slot 0 of HBM's key store holds a good key of 16 bytes whose attribute word is `a`. -/
def slotState (a : Nat) : State :=
  State.reset.mwrite (slotAddr 0) (leBytes 4 a)

/-- Port 0 of IOD0 is UP; its one queue, of tenant 0, holds packet 5, of 100 bytes. -/
def schedState : State :=
  (((((State.reset.set .ETH_PORT_STATUS_state ethUP 0 0).set .TOPO_ntn 1 0).set .TOPO_nq 1 0).set .NRL_CFG_enforce 0).set .PKT_L 100 0 5).lset
    .txq [5] 0 0

/-- Connection 0, not encrypted, is ACTIVE with its context in the cache of region 0. -/
def connState : State := ((State.reset.set .CN_state 1 0 0).set .CACHE_in 1 0 0).set .SIL_CFG_udp_port 6000

/-- A frame of UDP to a port, with its checksum left out. -/
def udpBytes (dport : Nat) (u : List Nat) : List Nat :=
  List.replicate 12 0 ++ [8, 0] ++ [0x45, 0] ++ beBytes 2 (28 + u.length) ++ [0, 0, 0, 0, 64, 17, 0, 0, 0, 0, 0, 0, 0, 0, 0, 0] ++
    [0, 0] ++ beBytes 2 dport ++ beBytes 2 (8 + u.length) ++ [0, 0] ++ u

/-- A packet of opcode `op` for connection 0 stands at the transport block. -/
def silPacket (op : Nat) : State :=
  (((((engineState 6).set .CN_state 1 0 0).set .CN_gen 0 0 0).set .CACHE_in 1 0 0).set .SIL_CFG_udp_port 6000).lset .pktBytes
    (udpBytes 6000 ([1, op] ++ List.replicate 30 0 ++ List.replicate ((silExt op).getD 0) 0)) 0 0

/-- A CNP for connection 0, of RoCE, stands at the transport block; with 1 its invariant CRC is right. -/
def rocePacketState (good : Nat) : State :=
  let u := [0x81] ++ List.replicate 27 0
  let f := udpBytes 4791 (u ++ [0, 0, 0, 0])
  (((((engineState 6).set .CN_state 1 0 0).set .CACHE_in 1 0 0).set .SIL_CFG_roce_en 1).set .CN_rec (4 * 2 ^ 72) 0 0).lset .pktBytes
    (if good = 1 then udpBytes 4791 (u ++ icrcOf f) else f) 0 0

/-- Channel 0 holds a record that tenant 0 may create connection 0 with. -/
def createState : State :=
  ((((((State.reset.set .SIL_CFG_udp_port 6000).set .TREC (2 ^ 32) 0 0).set .TEN_STATE_state 1 0 0).set .SIL_CH_record (2 ^ 16) 0 1)).set .PLC_mask 1 0 0).set .RNG_FN_MAP_ring_count 4 0 0

/-- Channel 0 holds a key record that tenant 0 may register: function 0, not paged, one byte at 0. -/
def keyRecState : State :=
  (((State.reset.set .TEN_STATE_state 1 0 0).set .PCI_FN_STAT_present 1 0 0).set .MKY_CH_record 0xFFFFFFFF 0 3).set .MKY_CH_record 1 0 6

/-- Key 0 is VALID with variant 7, paged, one byte at 0, and channel 0 names that byte. -/
def validKeyState : State :=
  (State.reset.mwrite (mkAddr 0) ([7, 1, 1, 1] ++ List.replicate 20 0 ++ [1])).set .MKY_CH_record 1 0 6

/-- Channel 0 names the empty slot 0 for an AES-128 key of 16 bytes of tenant 0, the secret slot 4, and 16 bytes of the tenant's window. -/
def keyChState : State :=
  ((((((((State.reset.set .TEN_STATE_state 1 0 0).set .KEY_CH_attr (16 * 2 ^ 12) 0 0).set .KEY_CH_kdf 1 0 0).set .KEY_CH_len_a 24 0 0).set
    .KEY_CH_src_slot 4 0 0).set .KEY_CH_length 16 0 0).set .KEY_CH_src_addr 0x501300000000 0 0).set .TREC
      (8 * 2 ^ 32 + 2 ^ 14 * 2 ^ (8 * 24)) 0 0).mwrite (slotAddr 4) (leBytes 4 5)

/-- Channel 0 holds a backend record of a type, with one queue of depth 1. -/
def beChState (type : Nat) : State :=
  ((State.reset.set .NVE_CH_record (type + 256) 0 0).set .NVE_CH_record 65536 0 1).set .NVE_CH_record (2 ^ 16) 0 9

/-- Channel 0, and namespace 0, hold a namespace record of 16 blocks of 512 bytes of tenant 0 in region 0 on backend 0. -/
def nsChState : State :=
  ((((State.reset.set .TEN_STATE_state 1 0 0).set .PLC_mask 1 0 0).set .NVE_CH_record (9 * 2 ^ 16) 0 1).set .NVE_CH_record 16 0 4).set .NS_rec
    (9 * 2 ^ 48 + 16 * 2 ^ 128) 0 0

/-- Controller 0 is ready, with an admin entry to fetch; its function may issue requests. -/
def fetchState : State :=
  ((((((((State.reset.set .TEN_STATE_state 1 0 0).set .PLC_mask 1 0 0).set .NRL_CFG_enforce 0).set .NVE_CTRL_CFG_enable 1 0 0).set .NC_csts 1 0 0).set
    .SQ_on 1 0 0).set .SQ_tail 1 0 0).set .PCI_FN_STAT_bme 1 0 1).set .PCI_EP_CFG_link_up 1 0

/-- Command 0 of controller 0 is a fetched admin command of opcode `op` with the bytes `b` from byte 40 on. -/
def adminState (op : Nat) (b : List Nat) : State :=
  (State.reset.set .CM_st 2 0 0).set .CM_sqe (op + leNat b * 2 ^ 320) 0 0

/-- Command 0 of controller 0 is a fetched I/O command of opcode `op` for nsid 1, namespace 0; byte 44 of its entry is `a`. -/
def ioState (op a : Nat) : State :=
  (((((nsChState.set .NRL_CFG_enforce 0).set .NS_on 1 0 0).set .NSA 1 0 1).set .CM_st 2 0 0).set .CM_sq 1 0 0).set .CM_sqe
    (op + 2 ^ 32 + a * 2 ^ 352) 0 0

/-- The injection ring of core 0 of region 0 holds a descriptor of action `a` for span 0, of 3 units, which firmware holds. -/
def injState (a : Nat) : State :=
  ((((((State.reset.set .COR_CORE_inj_enable 1 0 0).set .COR_CORE_inj_prod 1 0 0).set .COR_CORE_inj_base 0x501000000000 0 0).set .NRL_CFG_enforce 0).set
    .SPAN_units 3 0 0).set .SPAN_fw 1 0 0).mwrite 0x501000000000 ([a, 0, 64] ++ List.replicate 61 0)

/-- Endpoint 0's link is up and its configuration space answers; PF0 is present, in D0, with Memory Space Enable. -/
def hostState : State :=
  ((((State.reset.set .PCI_EP_CFG_link_up 1 0).set .PWR_reset 0).set .PCI_EP_CFG_cfg_ready 1 0).set .PCI_FN_STAT_present 1 0 0).set .FN_cmd 2 0 0

/-- Ring 0 of endpoint 0, of kind `k`, DISABLED, is PF0's, whose owner tenant 0 is ACTIVE and holds rings 0 to 7. -/
def ringState (k : Nat) : State :=
  ((((State.reset.set .TEN_STATE_state 1 0 0).set .TREC (8 * 2 ^ 80) 0 0).set .RNG_FN_MAP_ring_count 8 0 0).set .RNG_RING_kind k 0 0).set .RNG_fetch 0 0 0

/-- Ring 1 is an ENABLED RX ring with buffer 2 of 4 bytes, whose completion ring is ring 0; packet 5 of 3 bytes is addressed to it. -/
def rxRingState : State :=
  (((((((((((((ringState 4).set .RNG_RING_state 1 0 0).set .RNG_RING_kind 1 0 1).set .RNG_RING_state 1 0 1).set .PCI_EP_CFG_link_up 1 0).set
    .PCI_FN_STAT_bme 1 0 0).set .WRK_len 4 0 2).set .PKT_live 1 0 5).set .PKT_hostring 2 0 5).lset .rxBufs [2] 0 1).lset .pktBytes [7, 8, 9] 0 5).set
      .RNG_RING_cq 0 0 1))

/-- Register, scope and instance that a device address names. -/
def placeOf (a : Nat) : Option (Reg × Nat × Nat) :=
  match State.reset.target a with
  | .reg r sc i => some (r.reg, sc, i)
  | _ => none

/-- The next state of a command, or the state itself where it stops. -/
def after (c : Instr) (s : State) : State :=
  match exec c s with
  | .next t => t
  | _ => s

/-- 23_register_index.md, "two addresses": CLS_POLICER[100] of F5. -/
theorem test_address_of_policer : placeOf 0x600008050640 = some (.CLS_POLICER_W00, 5, 100) := by decide +kernel

/-- 23_register_index.md, "two addresses": RNG_RING[300] of IOD1. -/
theorem test_address_of_ring : placeOf 0x300000502580 = some (.RNG_RING_base_LO, 1, 300) := by decide +kernel

/-- 23_register_index.md, "two addresses": both through PF2's BAR0. -/
theorem test_address_in_bar : State.reset.pf2Addr 0 0xA850640 = 0x600008050640 ∧ State.reset.pf2Addr 0 0x3502580 = 0x300000502580 := by
  decide +kernel

/-- 14_cipher_engines_and_key_store.md, "a masked storage key": slot 0x0A_1B2C in stack 0, which is FBD1's. -/
theorem test_slot_address : slotAddr 0x0A1B2C = 0x50128286CB00 := by decide +kernel

/-- 12_memory_registration_and_paging.md, "a page fault": the record of key index 842. -/
theorem test_key_record_address : mkAddr 842 = 0x50118000D280 := by decide +kernel

/-- 18_tenants.md, "creating tenant 12": window 0 of stack 1, base 100. -/
theorem test_window_address : windowAddr (100, 1, 512) = 0x60130C800000 := by decide +kernel

/-- 15_service_cores.md, "a default punt": queue 5 of F6, its ring at 0x7000_11D0_0000. -/
def puntQueue : State :=
  (((((State.reset.set .COR_Q_enable 1 6 5).set .COR_Q_log2_entries 10 6 5).set .COR_Q_base 0x700011D00000 6 5).set .COR_Q_prod 0x07FF 6 5).set
    .COR_Q_cons 0x0400 6 5)

/-- 15_service_cores.md: the entry goes to 0x7000_11D0_FFC0, prod becomes 0x0800, and the queue is full where it was not. -/
theorem test_punt_fills_queue :
    puntQueue.queueFull 6 5 0 = false ∧ (puntQueue.queuePut 6 5 [0xAB]).mread 0x700011D0FFC0 1 = [0xAB] ∧
    (puntQueue.queuePut 6 5 [0xAB]).get .COR_Q_prod 6 5 = 0x0800 ∧ (puntQueue.queuePut 6 5 [0xAB]).queueFull 6 5 0 = true := by decide +kernel

/-- 15_service_cores.md: the span of handle 0x1234 of F6, and the hart of core 2 of F6. -/
theorem test_span_and_hart : spanAddr 6 0x1234 = 0x700011848D00 ∧ hartOf 6 2 = 38 := by decide +kernel

/-- 03_device_timescale.md, "uncertainty while locked": 26.2 ns is UNC16 105 and 28.2 ns is 113. -/
theorem test_unc_rounds_up : toUnc 1717043 = 0x69 ∧ toUnc 1848115 = 0x71 := by decide +kernel

/-- 03_device_timescale.md, steps 6 and 7: u_hold is 22.35 ns after 3,600 s and 98.4 ns after 14,400 s, in 2^-16 ns rounded up. -/
theorem test_holdover_growth :
    uHoldAt 6 10 (3600 * 4000000000) = 22350 * 65536 / 1000 + 1 ∧ uHoldAt 6 10 (14400 * 4000000000) = 98400 * 65536 / 1000 + 1 := by decide +kernel

/-- 00_scope.md, "reading a 64-bit counter": the _HI read gives the snapshot of the _LO read, not the live half. -/
theorem test_counter_does_not_tear :
    let t := after (.readLo 4 0x10050) (State.reset.set .NRL_TOTAL 0x00000001FFFFFFFE)
    t.reply = [0xFFFFFFFE] ∧ (after (.readHi 4 0x10054) (t.set .NRL_TOTAL 0x0000000200000001)).reply = [1] := by decide +kernel

/-- 20_boot_and_trust.md, step 4: the running stage 2 has security_version 5, so v = 6 is rejected. -/
theorem test_arb_above_version_rejected :
    let s := (((State.reset.set .BOOT_STATUS_stage 2).set .BOOT_ARB_counter 5).set .BOOT_IMAGE_security_version 5 0 2).set
      .BOOT_IMAGE_security_version 9 0 0
    (after (.bootArb 6) s).get .BOOT_EVENTS_arb_rejected = 1 ∧ (after (.bootArb 6) s).get .BOOT_ARB_busy = 0 := by decide +kernel

/-- 01_package_dies_and_hierarchy.md, "hops and latency": x first, FBD3 to FBD0 over FBD2 and back over FBD1. -/
theorem test_mesh_route : State.reset.meshRoute 7 4 = some [7, 6, 4] ∧ State.reset.meshRoute 4 7 = some [4, 5, 7] := by decide +kernel

/-- 02_handshake_timing_and_clock_islands.md: 0x5F2A_866A reads as 95.00 °C, 680 mV and 0x66A. -/
theorem test_speed_word :
    let s := (State.reset.set .ISLAND_mv 680 0 3).set .AGE_REGION_index 200 0 3
    let t := after (.regionSpeedMeasure 3 0x66A 380) s
    t.get .XD_SPEED_tj_qc 3 * 2 ^ 22 + t.get .XD_SPEED_v_mv 3 * 2 ^ 12 + t.get .XD_SPEED_rel_speed 3 = 0x5F2A866A := by decide +kernel

/-- 08_associative_and_pattern_search.md, R252: the entry at unit 1 is copied to unit 2, and both are valid until the command completes. -/
theorem test_tcam_move :
    (after (.tcmMove 0 0) tcamState).get .TCE_inst 0 2 = 1 ∧ (after (.tcmMove 0 0) tcamState).get .TCE_inst 0 1 = 1 ∧
    (after (.tcmMove 0 0) tcamState).get .TCM_CH_busy 0 0 = 1 := by decide +kernel

/-- 07_exact_match_tables.md, "damping, moves and a flap": learn, flap_freeze, damp_us 2,000, flap_threshold 3; key 5 is at port 7 with
move_count 3 and no damping record. -/
def flapState : State :=
  (tableState.lset .tblLay ([0, 0, 1, 17, 0, 4, 0, 0, 0, 0, 0, 0, 0xD0, 0x07, 3] ++ List.replicate 17 0) 0 0).set .EXE
    (exeMake 4 (1 + 7 * 16 + 3 * 2 ^ 9) 5 9) 0 0

/-- 07_exact_match_tables.md, the row of 3.0 ms: while the damping record runs the learn is a candidate and the port stays. -/
theorem test_damped_move_is_candidate :
    let s := (flapState.set .DAMP_at 9 0 (dampIx 0 5)).emLearn 0 0 5 9 3
    bitsOf (s.get .EXE 0 0) 4 5 = 7 ∧ s.get .EXM_TABLE_STAT_move_cands 0 0 = 1 ∧ s.get .EXM_TABLE_STAT_moves 0 0 = 0 := by decide +kernel

/-- 07_exact_match_tables.md, the row of 12.0 ms: a flapping entry under flap_freeze keeps its port. -/
theorem test_flapping_entry_frozen :
    let s := (flapState.set .EXE (exeMake 4 (1 + 3 * 16 + 4 * 2 ^ 9 + 2 ^ 13) 5 9) 0 0).emLearn 0 0 5 9 7
    bitsOf (s.get .EXE 0 0) 4 5 = 3 ∧ s.get .EXM_TABLE_STAT_moves 0 0 = 0 := by decide +kernel

/-- The check value of the CRC-32 that 09_ethernet_ports.md names for frames. -/
theorem test_crc : crc32 [0x31, 0x32, 0x33, 0x34, 0x35, 0x36, 0x37, 0x38, 0x39] = 0xCBF43926 := by decide +kernel

theorem witness_StepTakesFront : State.reset.pending = [] := by decide +kernel

theorem witness_StepKeepsWf : State.reset.wf = true ∧ Sys2Proof.Machine.step State.reset = .next State.reset := ⟨by decide, rfl⟩

theorem witness_StepPopsOne : Sys2Proof.Machine.step { State.reset with pending := [.getVersion 0] } =
    Sys2Proof.Machine.exec (.getVersion 0) State.reset := rfl

theorem witness_OutputGrows : Sys2Proof.Machine.step { State.reset with pending := [.slewComplete] } =
    Sys2Proof.Machine.exec .slewComplete State.reset := rfl

theorem witness_PeingLinks :
    (let s := State.reset.set .PWR_reset 0
     let late := s.set .TS_NOW (2 * msUnits)
     (s.get .PKG_PEING_LINK_present 4 5 = 1 ∧ s.linkState 4 5 = 0 ∧ s.get .PWR_reset ≠ 1 ∧ s.mono ≤ msUnits) ∧
     late.get .PKG_PEING_LINK_present 4 5 = 1 ∧ late.linkState 4 5 = 0 ∧ late.get .PWR_reset ≠ 1 ∧ msUnits < late.mono) ∧
    (let s := State.reset.set .PKG_PEING_LINK_state 1 4 5
     s.linkUp 4 5 = true ∧ (s.lget .wireTimes 4 (5 * 256)).length ≤ 63 ∧ s.spareFree 4 5 = true ∧
     64 < (s.now :: ((s.lset .wireTimes (List.replicate 64 0) 4 (5 * 256)).lget .wireTimes 4 (5 * 256)).filter (fun t =>
        decide (s.now ≤ t + msUnits))).length) ∧
    (State.reset.set .PKG_PEING_LINK_state 3 4 5).linkState 4 5 = 3 := by decide +kernel

theorem witness_CellsAndIslands :
    (State.reset.get .CELL_retry 0 0 < 3 ∧ State.reset.get .CELL_spare_used 0 0 = 0) ∧
    3 ≤ (State.reset.set .CELL_retry 3 0 0).get .CELL_retry 0 0 ∧ (State.reset.set .CELL_spare_used 1 0 0).get .CELL_spare_used 0 0 ≠ 0 ∧
    (let s := State.reset.set .NRL_REGION_STAT_v_target_mv 700 0 0
     let lo := s.set .ISLAND_mv 650 0 0
     let hi := s.set .ISLAND_mv 745 0 0
     let eq := s.set .ISLAND_mv (s.islandTarget 0) 0 0
     s.islandTarget 0 ≠ 0 ∧ lo.get .ISLAND_mv 0 0 < lo.islandTarget 0 ∧ hi.islandTarget 0 < hi.get .ISLAND_mv 0 0 ∧
     eq.islandTarget 0 = eq.get .ISLAND_mv 0 0) ∧
    State.reset.offlineForTest 0 = false ∧ (State.reset.set .ERR_REGION_STATE_state 2 0 0).offlineForTest 0 = true := by decide +kernel

theorem witness_PairAccess :
    (State.reset.reachesStored 4 0x2008 ⟨.STR_SWAP_AT_LO, .ctd, 0x2008, [], [⟨.STR_SWAP_AT, 0, 32, .RW, .lo⟩]⟩ 0 0 ∧
      State.reset.reachesPlain 4 0x2008 ⟨.STR_SWAP_AT_LO, .ctd, 0x2008, [], [⟨.STR_SWAP_AT, 0, 32, .RW, .lo⟩]⟩ 0 0 7) ∧
    (State.reset.reachesStored 4 0x200C ⟨.STR_SWAP_AT_HI, .ctd, 0x200C, [], [⟨.STR_SWAP_AT, 0, 32, .RW, .hi⟩]⟩ 0 0 ∧
      State.reset.reachesPlain 4 0x200C ⟨.STR_SWAP_AT_HI, .ctd, 0x200C, [], [⟨.STR_SWAP_AT, 0, 32, .RW, .hi⟩]⟩ 0 0 7) := by
  refine ⟨⟨⟨⟨?_, ?_, ?_, ?_⟩, ?_, ?_⟩, ⟨⟨?_, ?_, ?_, ?_⟩, ?_⟩⟩, ⟨⟨⟨?_, ?_, ?_, ?_⟩, ?_, ?_⟩, ⟨⟨?_, ?_, ?_, ?_⟩, ?_⟩⟩⟩ <;> decide +kernel

/-- The device with every clock present. -/
def clocked : State := (State.reset.set .XD_CLK_DIE_PRESENT_present (2 ^ 18 - 1) 0 1).set .XD_CLK_DIE_PRESENT_present (2 ^ 18 - 1) 0 2

theorem witness_AccessTypes :
    State.reset.reachesPlain 4 0x2044 ⟨.STR_DRAIN_LIMIT, .ctd, 0x2044, [], [⟨.STR_DRAIN_LIMIT_limit_us, 0, 16, .RW, .full⟩]⟩ 0 0 9 ∧
    State.reset.reachesPlain 4 0x1100 ⟨.XD_CLK_PRESENT, .ctd, 0x1100, [], [⟨.XD_CLK_PRESENT_present, 0, 18, .RO, .full⟩]⟩ 0 0 9 ∧
    State.reset.reachesPlain 4 0x1104 ⟨.XD_CLK_LOST, .ctd, 0x1104, [], [⟨.XD_CLK_LOST_lost, 0, 18, .W1C, .full⟩]⟩ 0 0 9 ∧
    State.reset.reachesPlain 4 0x2048 ⟨.STR_MIN_VERSION, .ctd, 0x2048, [], [⟨.STR_MIN_VERSION_min_version, 0, 32, .RWL, .full⟩]⟩ 0 0 9 ∧
    State.reset.reachesStored 4 0x60004 ⟨.EXM_EVT_STAT, .ctd, 0x60004, [], [⟨.EXM_EVT_STAT_evt_drops, 0, 16, .RC, .full⟩]⟩ 0 0 ∧
    State.reset.reachesStored 4 0x2044 ⟨.STR_DRAIN_LIMIT, .ctd, 0x2044, [], [⟨.STR_DRAIN_LIMIT_limit_us, 0, 16, .RW, .full⟩]⟩ 0 0 := by
  refine ⟨⟨⟨?_, ?_, ?_, ?_⟩, ?_⟩, ⟨⟨?_, ?_, ?_, ?_⟩, ?_⟩, ⟨⟨?_, ?_, ?_, ?_⟩, ?_⟩, ⟨⟨?_, ?_, ?_, ?_⟩, ?_⟩, ⟨⟨?_, ?_, ?_, ?_⟩, ?_, ?_⟩,
    ⟨⟨?_, ?_, ?_, ?_⟩, ?_, ?_⟩⟩ <;> decide +kernel

theorem witness_LockedWrite :
    (State.reset.set .BOOT_STATUS_keylock 1).reachesPlain 4 0x2048
      ⟨.STR_MIN_VERSION, .ctd, 0x2048, [], [⟨.STR_MIN_VERSION_min_version, 0, 32, .RWL, .full⟩]⟩ 0 0 9 := by
  refine ⟨⟨?_, ?_, ?_, ?_⟩, ?_⟩ <;> first | decide +kernel | rfl

theorem witness_PartialAndUnmapped : State.reset.target 0x8000_0000_0000 = .unmapped ∧ coreSpace 4 0x8000_0000_0000 = false ∧ State.reset.target 0xFFC = .gap ∧
    State.reset.pathServes 4 .gap = true := by decide +kernel

theorem witness_ClockWatch :
    (let s := State.reset.set .PWR_main 1
     let s := s.set .PWR_reset 0
     (clockDies 13).contains 0 = true ∧ s.watched 13 = true ∧ s.getb .XD_CLK_DIE_PRESENT_present 13 0 0 = false ∧
     (let t := s.clockMark 13 0 true
      t.getb .XD_CLK_DIE_PRESENT_present 13 0 0 = true ∧ t.getb .XD_CLK_PRESENT_present 13 = true)) ∧
    ((State.reset.set .PWR_reset 1).watched 1 = false) ∧
    (∀ k, k < 5 → (State.reset.lset .busHeld [8, k, 0, 0] 0 0).lget .busHeld 0 0 = [8, k, 0, 0]) ∧
    (let s := (State.reset.set .REP_apart 1 0 1).setb .XD_CLK_DIE_PRESENT_present 2 true 0 1
     s.get .REP_apart 0 1 = 1 ∧ s.getb .XD_CLK_DIE_PRESENT_present 2 0 1 = true) := by decide +kernel

theorem witness_TimeReferences :
    let s := (State.reset.set .TS_REF_CFG_enable 1 0 6).set .TS_SERVO_CFG_qual_s 9
    (s.get .TS_REF_CFG_enable 0 6 = 1 ∧ s.measValid 6 5 = true ∧ (s.measAccept 6 5).qualifies 6 true = false ∧
      s.get .TS_STATUS_ref_sel ≠ 6 ∧ s.get .REF_miss 0 6 < 2) ∧
    (let w := (((State.reset.set .TS_REF_CFG_enable 1 0 4).set .TS_STATUS_ref_sel 4).set .TS_STATUS_state tsLOCKED).set .TS_REF_STATUS_qualified 1 0 4
     w.get .TS_REF_CFG_enable 0 4 = 1 ∧ w.measValid 4 5 = true ∧ (w.measAccept 4 5).qualifies 4 true = false ∧
     (w.measAccept 4 5).get .TS_STATUS_ref_sel = 4 ∧ (w.measAccept 4 5).get .TS_STATUS_state = tsLOCKED) ∧
    State.reset.freqRef ≠ some 6 ∧
    (let v := State.reset.set .TS_STATUS_state tsLOCKED
     v.get .TS_STATUS_state ≠ tsFREERUN ∧ v.get .TS_STATUS_state ≠ tsHOLDOVER) ∧
    (let u := (((((State.reset.set .TS_CTRL_revertive 1).set .TS_REF_STATUS_qualified 1 0 1).set .TS_REF_CFG_enable 1 0 1).set
        .TS_STATUS_ref_sel 2).set .TS_REF_CFG_priority 1 0 1).set .TS_REF_CFG_priority 5 0 2
     u.get .TS_CTRL_revertive = 1 ∧ u.betterRef 1 = true) := by decide +kernel

theorem witness_TimescaleSetting :
    State.reset.get .TS_STATUS_state = tsFREERUN ∧
    (8 % 2 = State.reset.get .TS_CTRL_servo_en) ∧
    (let s := (State.reset.set .TS_CTRL_servo_en 1).set .TS_STATUS_state 3
     s.get .TS_CTRL_servo_en = 1 ∧ s.get .TS_STATUS_state = tsHOLDOVER) ∧
    (State.reset.set .TS_STATUS_state 4).get .TS_STATUS_state = tsFAULT := by decide +kernel

theorem witness_HoldoverAndLearning :
    (let s := (State.reset.set .TS_STATUS_state 3).set .U_base 1
     s.get .TS_STATUS_state = tsHOLDOVER ∧ (s.set .TS_HOLDOVER_MAX_holdover_max 0).get .TS_HOLDOVER_MAX_holdover_max * 16384 < (s.set .TS_HOLDOVER_MAX_holdover_max 0).uDts) ∧
    (State.reset.set .TIME_pred_on 1).get .TIME_pred_on = 1 ∧ State.reset.get .TIME_pred_on ≠ 1 ∧
    (State.reset.set .TS_OSC_CFG_mode 1).get .TS_OSC_CFG_mode = 1 ∧ State.reset.get .TS_OSC_CFG_mode = 0 ∧
    State.reset.get .TS_OSC_CFG_osc_20m = 1 / 2 % 2 ∧ (State.reset.set .TS_STATUS_state 2).get .TS_STATUS_state = tsLOCKED := by decide +kernel

theorem witness_AmberRecords :
    (let s := ((State.reset.lset .amberToRing [7]).lset .amberToLog [7]).set .XD_CLK_DIE_PRESENT_present (2 ^ 18 - 1) 0 0
     s.lget .amberToRing = [7] ∧ s.lget .amberToLog = [7] ∧ s.get .AMBER_stop = 0 ∧ s.xspiOk = true ∧
     s.get .XSPI_back ≤ leNat (slice (s.lget .amber 0 7) 8 8) + 50 * msUnits ∧
     (s.set .AMBER_stop 1).get .AMBER_stop = 1 ∧ (s.lset .amberLog [0, 0, 0, 0, 9, 0, 0, 0] 0 3).logFind 9 = some 3) ∧
    State.reset.xspiOk = false ∧ State.reset.get .AMBER_due = State.reset.now / secUnits ∧
    (let u := (State.reset.set .TS_NOW (2 * secUnits)).lset .amberToLog [7]
     u.get .AMBER_due < u.now / secUnits ∧ u.get .AMBER_stop = 0 ∧
     leNat (slice (u.lget .amber 0 7) 8 8) + 50 * msUnits < (if u.xspiOk then u.get .XSPI_back else u.now)) ∧
    (State.reset.set .ATT_on 1).get .ATT_on = 1 ∧
    (let s := ((State.reset.set .TS_RING_CFG_enable 1).set .PCI_EP_CFG_link_up 1 0).set .PCI_FN_STAT_bme 1 0 2
     s.get .TS_RING_CFG_enable = 1 ∧ s.mayIssue 0 2 = true ∧ (0 + 1) % s.ringSlots ≠ s.get .TS_RING_CONS % s.ringSlots) := by decide +kernel

theorem witness_TodRejected :
    (let s := ((State.reset.set .TS_STATUS_state 2).set .XD_CLK_DIE_PRESENT_present (2 ^ 18 - 1) 0 1)
     s.get .TS_STATUS_state ≠ tsFREERUN ∧ (∃ r ∈ regRows, r.reg = .TS_TOD_SET_UNC ∧ s.reaches 4 0x100000001028 r 0 0)) := by
  refine ⟨by decide +kernel, ⟨.TS_TOD_SET_UNC, .tmd, 0x1028, [], [⟨.TS_TOD_SET_UNC_unc16, 0, 16, .WO, .full⟩,
    ⟨.TS_TOD_SET_UNC_tod_rejected, 16, 16, .RC, .full⟩]⟩, ?_, rfl, ?_, ?_, ?_, ?_⟩ <;> decide +kernel

theorem witness_TimestampUnit :
    (let s := (State.reset.lset .mac [5] 0 0)
     (s.lget .mac 0 0).contains 5 = true ∧ s.get .PKT_gate 0 5 = 0 ∧ s.get .PKT_launch 0 5 = 0 ∧
     (let u := s.set .PKT_launch 9 0 5
      u.repNow 2 < u.get .PKT_launch 0 5 ∧ u.get .PKT_launch 0 5 ≤ u.repNow 2 + u.launchHorizon 0 (u.get .PKT_prof 0 5)) ∧
     (let u := s.set .PKT_launch (2 ^ 60) 0 5
      u.repNow 2 + u.launchHorizon 0 (u.get .PKT_prof 0 5) < u.get .PKT_launch 0 5) ∧
     (let u := (s.set .PKT_launch 9 0 5).set .TS_NOW 9
      0 < u.get .PKT_launch 0 5 ∧ u.get .PKT_launch 0 5 ≤ u.repNow 2 ∧
      u.repNow 2 ≤ u.get .PKT_launch 0 5 + u.get .TSU_LAUNCH_PROF_late_bound 0 (u.get .PKT_prof 0 5) * 32)) ∧
    (let s := State.reset.set .ETH_PORT_STATUS_state ethUP 0 0
     s.portOk 0 0 = true ∧ s.get .ETH_PORT_STATUS_state 0 0 = ethUP ∧ s.get .TSU_tdc 0 ≠ 1 ∧ s.get .TSU_cal_busy 0 0 ≠ 1 ∧
     (s.set .TSU_cal_busy 1 0 0).get .TSU_cal_busy 0 0 ≠ 0) ∧
    State.reset.get .TSU_tdc 0 = 0 ∧ 5 ∈ ((State.reset.lset .mac [4, 5] 0 0).set .PKT_gate 1 0 5).heldFrames 0 0 ∧
    (let s := (State.reset.set .TS_PPS_CFG_enable 1 0 0).set .TS_PPS_CFG_squelch_en 0 0 0
     s.get .TS_PPS_CFG_enable 0 0 = 1 ∧ s.get .PWR_fail = 0 ∧ s.get .PPS_label 0 0 ≤ s.ppsNext 0 ∧
     s.get .TS_PPS_CFG_squelch_en 0 0 = 0 ∧ (s.set .TS_PPS_CFG_squelch_en 1 0 0).get .TS_PPS_CFG_squelch_en 0 0 = 1 ∧ s.uncForced = true) ∧
    (State.reset.set .PPS_high 1 0 1).get .PPS_high 0 1 = 1 := by decide +kernel

theorem witness_HostTime :
    State.reset.get .TSU_PTM_STATUS_ptm_valid 0 = 0 ∧ (State.reset.set .TSU_PTM_STATUS_ptm_valid 1 0).get .TSU_PTM_STATUS_ptm_valid 0 = 1 ∧
    (let s := ((State.reset.set .TSU_PTM_CFG_enable 1 0).set .TSU_PTM_STATUS_ptm_enabled 1 0).set .PCI_EP_CFG_link_up 1 0
     s.get .PTM_busy_at 0 = 0 ∧ s.get .TSU_PTM_CFG_enable 0 = 1 ∧ s.get .TSU_PTM_STATUS_ptm_enabled 0 = 1 ∧ s.get .PCI_EP_CFG_link_up 0 = 1) ∧
    (State.reset.set .PTM_busy 1 0).get .PTM_busy 0 = 1 ∧ 4 * (3 - 2) ≤ 4 ∧ 4 ≤ 100 * usUnits ∧
    (State.reset.set .PTM_fails 2 0).get .PTM_fails 0 = 2 := by decide +kernel

theorem witness_StructureLoad :
    let s := (State.reset.set .XD_CLK_DIE_PRESENT_present (2 ^ 18 - 1) 0 0).set .STR_SLOT_empty 0 0 2
    (s.get .STR_CMD_STATUS_busy = 0 ∧ s.regionsIn 0xFF (fun st => decide (st = 0)) = true ∧ s.get .STR_SLOT_empty 0 (2 - 0) = 0 ∧ s.flashOk = true) ∧
    (let u := (s.set .STR_CMD_STATUS_busy 1).set .STR_CMD_STATUS_last_op 1
     u.get .STR_CMD_STATUS_busy = 1 ∧ u.get .STR_CMD_STATUS_last_op = 1) ∧
    (let u := ((s.set .STR_CMD_STATUS_busy 1).set .STR_CMD_STATUS_last_op 6).set .STR_cold 1
     u.get .STR_CMD_STATUS_busy = 1 ∧ u.get .STR_CMD_STATUS_last_op = 6 ∧ u.get .STR_cold = 1 ∧
     (∀ n < 8, u.get .REG_pop n 0 = 0 ∧ u.get .REG_pop n 1 = 0)) := by decide +kernel

theorem witness_StructureSwap :
    let s := State.reset
    (let u := s.set .STR_REGION_STATE_state 1 0 0
     u.get .STR_CMD_STATUS_busy = 0 ∧ u.regionsIn 1 (fun st => decide (st = 1)) = true ∧
     shardSplit u.activeSecs (secsOf (u.slotImg 2)) 1 = false ∧ commonDiffers u.activeSecs (secsOf (u.slotImg 2)) = false ∧
     u.get .STR_SWAP_AT ≤ u.now + secUnits ∧ u.regionsIn 0xFF (fun st => decide (st = 0 ∨ st = 1)) = true) ∧
    (let u := (s.set .STR_CMD_STATUS_busy 1).set .STR_CMD_STATUS_last_op 2
     u.get .STR_CMD_STATUS_busy = 1 ∧ u.get .STR_CMD_STATUS_last_op = 2 ∧ (u.set .STR_CMD_STATUS_last_op 3).get .STR_CMD_STATUS_last_op = 3) ∧
    (let u := ((s.set .STR_REGION_STATE_state 3 0 0).set .STR_STATUS_staged_valid 1).set .STR_STATUS_changed_mask 1
     u.regionsIn 1 (fun st => decide (st = 2 ∨ st = 3)) = true ∧ u.get .STR_STATUS_staged_valid = 1 ∧
     u.regionsIn (u.get .STR_STATUS_changed_mask) (fun st => decide (st = 3)) = true) ∧
    (let u := (s.set .STR_REGION_STATE_state 4 0 0).set .STR_rewrite 1 0 0
     u.get .STR_REGION_STATE_state 0 0 = 4 ∧ u.get .REG_pop 0 (1 - u.get .STR_REGION_STATE_epoch 0 0) = 0 ∧ u.get .STR_rewrite 0 0 = 1 ∧
     u.rebuiltIn 0 = [] ∧ u.get .STR_cold = 0 ∧ (u.set .REG_pop 1 0 1).get .REG_pop 0 1 ≠ 0 ∧
     (((u.set .REG_pop 1 0 1).set .STR_EVENTS_drain_expired 1).dropEpoch 0 1 reasonEPOCH_EXPIRED
       (fun s => s.bump .STR_DROP_CNT_epoch_expired)).get .STR_cold = 0) ∧
    (s.set .STR_STATUS_wdog_running 1).get .STR_STATUS_wdog_running = 1 := by decide +kernel

theorem witness_CellArithmetic :
    [0x00, 0x34, 0x01, 0x02, 0x03, 0x04, 0x05, 0x06, 0x07, 0x08, 0x09, 0x0A, 0x0B, 0x23, 0x30, 0x31, 0x32, 0x33, 0x20, 0x21, 0x22].all (fun op =>
      match (cellState op).cellAt 0 0 0 op with
      | some (k, w) => decide (k = 0) && !(wPredEn w && !(cellState op).pred 0 0 (wPred w))
      | none => false) = true := by decide +kernel

theorem witness_OperandPlacement : 10 + 4 ≤ 4096 ∧ 4096 ≤ 4100 ∧ 4100 + 8 ≤ 5120 ∧ (14 + 2 ≤ 4096 ∧ 10 + 4 ≤ 14) ∧ 4096 ≤ 4108 := by omega

theorem witness_ParseAndWalk :
    (let s := (packetIn [] []).set .PKT_stage 0 0 0
     s.get .PKT_live 0 0 = 1 ∧ s.bufRoom 0 0 = true ∧ (s.arbPick 0).2 = some 0 ∧ (s.arbPick 0).2 ≠ some 1) ∧
    (let s := engineState 0
     s.atEngine 0 0 0 = true ∧ s.get .PKT_fragkey 0 0 = 0 ∧ s.get .PKT_stage 0 0 = 1 ∧ s.get .PKT_follow 0 0 = 0 ∧ s.get .PKT_outer 0 0 = 0) ∧
    (let s := packetIn [] []
     s.get .PKT_puntr 0 0 = 0 ∧ s.atStage 0 0 = none ∧ (s.fragRecord 0).meta_ 0 1010 1 = 0 ∧ (s.fragRecord 0).get .PKT_work 0 0 = 0 ∧
     ((s.set .PKT_meta (2 ^ 1010) 0 0).fragRecord 0).meta_ 0 1010 1 = 1) := by decide +kernel

theorem witness_FragmentsAndPolicers :
    ((State.reset.set .PKT_stage 2 0 0).get .PKT_stage 0 0 = 2 ∧ (State.reset.set .PKT_live 1 0 0).get .PKT_live 0 0 = 1 ∧ State.reset.get .PKT_region 0 0 = 0) ∧
    (State.reset.set .FRE_on 1 2 7).get .FRE_on 2 7 = 1 := by decide +kernel

theorem witness_TableCommands :
    (tableState5.liveTi 0 = some 0 ∧ layExact (tableState5.lay 0) = true ∧ tableState5.homeDown (tableState5.lay 0) = false ∧ tableState5.chWords .EXM_CH_key 7 0 % 2 ^ (8 * layKey (tableState5.lay 0)) = 5 ∧
     tableState5.placeUp ((keyPlaces (tableState5.lay 0) 5).headD 0) = true ∧ tableState5.emEntry 0 5 = some (exeMake 4 1 5 9) ∧
     (tableState5.exmFrom 0 (tableState5.get .EXM_CH_cursor 0 0)) = [(0, 0)]) ∧
    (let s := tableState5.set .EXM_CH_key 6 0 0
     s.chWords .EXM_CH_key 7 0 % 2 ^ (8 * layKey (s.lay 0)) = 6 ∧ s.placeUp ((keyPlaces (s.lay 0) 6).headD 0) = true ∧
     s.emEntry 0 6 = none ∧ s.quotaFull 0 0 6 = false ∧ (s.emInsert 0 0 6 (exeMake 4 1 6 0)).isSome = true ∧
     (s.set .EXM_CH_cursor 9 0 0).exmFrom 0 9 = []) ∧
    State.reset.liveTi 0 = none := by decide +kernel

theorem witness_TableRebuild :
    (tableState.get .EXM_TABLE_STAT_shadow 0 0 = 0 ∧ tableState.get .EXM_CH_key 0 2 < 26 ∧ tableState.shadowRoom (tableState.lay 0) 0 = true ∧
      layTen (tableState.lay 0) ≠ 0xFF) ∧
    (let s := (tableState.set .EXM_TABLE_STAT_shadow 1 0 0).set .EXM_sh_end 1 0 0
     s.get .EXM_TABLE_STAT_shadow 0 0 = 1 ∧ (s.exmFrom 0 (s.get .EXM_CH_cursor 0 0)).length ≤ 4096 ∧ s.get .EXM_sh_end 0 0 = 1) ∧
    (State.reset.set .DAMP_at 9 0 0).get .DAMP_at 0 0 ≠ 0 ∧
    (let s := tableState.set .TS_NOW (2 ^ 50)
     layAge (s.lay 0) ≠ 0xFF ∧ (layPlaces (s.lay 0)).contains 0 = true ∧ s.placeUp 0 = true ∧ (s.exe 0 (s.emLive 0) 0).testBit 0 = true ∧
     (s.exe 0 (s.emLive 0) 0).testBit 1 = false ∧
     layMaxAge (s.lay 0) < (s.emStamp (s.lay 0) + 65536 - bitsOf (s.exe 0 (s.emLive 0) 0) 16 16) % 65536 ∧ layFlag (s.lay 0) 2 = false) := by
  decide +kernel

theorem witness_CellTables :
    let s := ((cellState 0x20).set .TBL_inst 1 0 0).lset .tblLay ([0, 0, 1, 1, 0, 4, 0, 0, 0, 0] ++ List.replicate 22 0) 0 0
    (s.cellBegin 0 0).pktTi 0 0 = some 0 ∧ (s.cellBegin 0 0).placeUp (lookupPlace (s.lay 0) 0 0) = true ∧
    (s.cellBegin 0 0).emFind (lookupPlace (s.lay 0) 0 0) ((s.cellBegin 0 0).emLive 0) 4 0 = none ∧
    ((s.set .EXE (exeMake 4 1 0 9) 0 0).cellBegin 0 0).emFind (lookupPlace (s.lay 0) 0 0) ((s.cellBegin 0 0).emLive 0) 4 0 = some 0 ∧
    (s.set .ERR_REGION_STATE_state 3 0 0).placeUp (lookupPlace (s.lay 0) 0 0) = false ∧
    (let u := ((s.set .TBL_inst 1 0 0).set .TBL_inst 2 0 1024).set .STR_REGION_STATE_epoch 1 0 0
     u.pktTi 0 0 = some 0 ∧ u.liveTi 0 ≠ some 0) := by decide +kernel

theorem witness_TcamCommands :
    (let s := tcamState
     s.keysOf .TCM_mv_on = [] ∧ (s.set .TCM_mv_on 1 0 3).keysOf .TCM_mv_on = [(0, 3)] ∧ s.liveTi 0 = some 0 ∧ layKind (s.lay 0) = 2 ∧ s.tcRegions 0 = [0] ∧ tcIndexOk (s.lay 0) 2 0 = true ∧
     s.tcOccupied 0 2 (unitsOf 0) = false ∧ tcIndexOk (s.lay 0) 4096 0 = false ∧
     s.get .TCM_CH_unit 0 0 = 1 ∧ tlFirst (s.lay 0) ≤ 1 ∧ 1 < tlFirst (s.lay 0) + tlUnits (s.lay 0) ∧ s.tcHas 0 0 1 = true ∧
     s.get .TCE_bad 0 1 = 0 ∧ s.get .TCM_CH_dst 0 0 = 2 ∧ s.get .TCE_width 0 1 = 0) ∧
    (let s := tcamState.set .TCM_CH_unit 4096 0 0
     tcIndexOk (s.lay 0) (s.get .TCM_CH_unit 0 0) (s.get .TCM_CH_width 0 0) = false) ∧
    (let s := tcamState.set .TCE_quar 1 0 1
     s.get .TCE_inst 0 1 ≠ 0 ∧ s.get .TCE_quar 0 1 ≠ 0 ∧ s.get .TCE_stuck 0 1 ≠ 1) := by decide +kernel

theorem witness_PatternSets :
    (let b := patternSet
     let s := (State.reset.mwrite 0x501000000000 b).set .PAT_CH_src 0x501000000000 0 0
     s.maskOnline 1 ≠ [] ∧ inHbm 0x501000000000 96 = true ∧ psHeadOk (s.mread 0x501000000000 96) = true ∧
     inHbm 0x501000000000 (psTotal (s.mread 0x501000000000 96)) = true ∧
     psBodyOk (s.mread 0x501000000000 (psTotal (s.mread 0x501000000000 96))) = true ∧
     (bitList 8 1).any (fun n => decide (2 ^ 22 < s.patMem n + b.length)) = false) ∧
    (let s := State.reset.lset .patSet patternSet 0 1
     (List.range 8).foldl (fun m n => if s.lget .patSet n (2 * 0 + 1) = [] then m else m + 2 ^ n) 0 = 1 ∧
     0 ∈ s.maskOnline 1 ∧ s.lget .patSet 0 (2 * 0 + 1) ≠ []) ∧
    (State.reset.lset .patPend [0, 5, 1] 0 0).lget .patPend 0 0 = [0, 5, 1] ∧ (State.reset.lset .patPend [1, 5, 1] 0 0).lget .patPend 0 0 = [1, 5, 1] ∧
    (let s := (State.reset.lset .patSet patternSet 0 0).set .PAT_CH_src 0x501000000000 0 0
     let s := s.set .PAT_CH_dst 0x501000000000 0 0
     bitList 8 1 = [0] ∧ s.online 0 = true ∧ s.get .PAT_REGION_STAT_bypass_active 0 = 0 ∧ s.get .PAT_CH_length 0 0 ≤ 65536 ∧
     s.get .PAT_CH_max_reports 0 0 ≤ 4096 ∧ inHbm 0x501000000000 (s.get .PAT_CH_length 0 0) = true ∧
     inHbm 0x501000000000 (8 * s.get .PAT_CH_max_reports 0 0) = true ∧ s.psActive 0 0 = some patternSet ∧
     (psScan patternSet (s.freeVal 16) 0 (s.mread 0x501000000000 (s.get .PAT_CH_length 0 0))).2 = false) ∧
    (engineState 4).atEngine 0 0 4 = true := by decide +kernel

theorem witness_PortStates :
    (State.reset.portOk 0 0 = true ∧ State.reset.get .ETH_PORT_STATUS_state 0 0 = ethDISABLED ∧
      State.reset.get .BOOT_STATUS_recovery = 0 ∧ State.reset.ethClk 0 = false ∧ State.reset.get .ETH_clk_down 0 0 = 0 ∧
      (State.reset.set .ETH_discard 0 0 0).get .ETH_discard 0 0 = 0) ∧
    ((State.reset.setb .XD_CLK_DIE_PRESENT_present 3 true 0 2).setb .XD_CLK_DIE_PRESENT_present 5 true 0 2).ethClk 0 = true ∧
    (∀ v, v < 4 → (State.reset.set .ETH_PORT_STATUS_state v 0 0).get .ETH_PORT_STATUS_state 0 0 = v) := by decide +kernel

theorem witness_FlowControl :
    (let s := State.reset.set .ETH_PORT_STATUS_state ethUP 0 0
     s.portOk 0 0 = true ∧ s.get .ETH_PORT_STATUS_state 0 0 = ethUP ∧ ((s.set .ETH_PORT_CFG_fc_mode 1 0 0).ethCount 0 0 5 1).get .ETH_PORT_CFG_fc_mode 0 0 = 1) ∧
    (State.reset.set .ETH_stop 1 0 3).get .ETH_stop 0 3 ≠ 0 ∧
    (let s := State.reset.set .ETH_xoff 1 0 3
     let u := (s.set .ETH_PFC_CLASS_xoff_thr 2 0 3).set .ETH_PFC_CLASS_xon_gap 1 0 3
     let v := (s.set .ETH_PFC_CLASS_xoff_thr 0 0 3).set .ETH_PFC_CLASS_xon_gap 0 0 3
     u.get .ETH_xoff 0 3 ≠ 0 ∧ v.get .ETH_xoff 0 3 ≠ 0 ∧
     u.xoffOcc 0 0 3 < (u.get .ETH_PFC_CLASS_xoff_thr 0 3 - u.get .ETH_PFC_CLASS_xon_gap 0 3) * 1024 ∧
     (v.get .ETH_PFC_CLASS_xoff_thr 0 3 - v.get .ETH_PFC_CLASS_xon_gap 0 3) * 1024 ≤ v.xoffOcc 0 0 3) := by decide +kernel

theorem witness_FrameReceive :
    (let s := State.reset.set .ETH_PORT_STATUS_state ethUP 0 0
     let b := withFcs (List.replicate 60 0)
     s.portOk 0 0 = true ∧ s.get .ETH_PORT_STATUS_state 0 0 = ethUP ∧ 64 ≤ b.length ∧ b.length ≤ ((s.advanceTo 0).fecCount 0 0 0 0).maxFrame 0 0 ∧
     leNat (b.drop (b.length - 4)) = crc32 (b.take (b.length - 4)) ∧ ((s.advanceTo 0).fecCount 0 0 0 0).get .ETH_PORT_CFG_macsec_en 0 0 = 0 ∧
     flowFrame (b.take (b.length - 4)) = none) ∧
    (let b := List.replicate 64 1
     leNat (b.drop (b.length - 4)) ≠ crc32 (b.take (b.length - 4))) ∧
    (let b := withFcs (List.replicate 59 0)
     leNat (b.drop (b.length - 4)) = crc32 (b.take (b.length - 4)) ∧ b.length < 64) ∧
    (let b := withFcs (List.replicate 1600 0)
     leNat (b.drop (b.length - 4)) = crc32 (b.take (b.length - 4)) ∧ 64 ≤ b.length ∧ State.reset.maxFrame 0 0 < b.length) ∧
    (State.reset.rxRoom 0 0 0 (2 ^ 22 + 1) = none) :=
  ⟨by decide +kernel, by decide +kernel, by decide +kernel, ⟨withFcs_good _, by decide +kernel⟩, by decide +kernel⟩

theorem witness_FrameSend :
    (let s := (State.reset.set .ETH_PORT_STATUS_state ethUP 0 0).set .PKT_L 2000 0 5
     let s := (s.lset .mac [5] 0 0).lset .pktBytes (List.replicate 1996 0) 0 5
     let u := s.advanceTo 0
     s.macUp 0 0 = true ∧ u.flowNext 0 0 = none ∧ (u.set .ETH_fc_wait 1 0 3).flowNext 0 0 = some 3 ∧ u.ncsiMay 0 0 = false ∧ u.macNext 0 0 = some 5 ∧
     ((u.lset .mac ((u.lget .mac 0 0).erase 5) 0 0).macBytes 0 0 5).2.isSome = true ∧ u.get .PKT_launch 0 5 = 0 ∧ u.tsOp 5 = 0 ∧
     64 * u.get .ETH_PORT_STATUS_threshold 0 0 ≤ 1024 ∧ 1024 + 4 < u.get .PKT_L 0 5 ∧
     (s.lset .mac [] 0 0).macNext 0 0 = none ∧ (s.lset .ncsiTx (4 :: List.replicate 4 0) 0 0).ncsiMay 0 0 = true) := by decide +kernel

theorem witness_PortSettings :
    (∀ p, p < 8 → State.reset.get .ETH_PORT_STATUS_state 0 p = ethDISABLED) ∧
    (State.reset.set .ETH_PORT_STATUS_state ethUP 0 0).get .ETH_PORT_STATUS_state 0 0 ≠ ethDISABLED ∧
    (State.reset.set .ETH_MODE_mode 0 0).get .ETH_MODE_mode 0 ≠ 5 % 4 ∧ State.reset.portOk 0 0 = true ∧
    (let s := slotState (2 ^ 8 + 2 ^ 11)
     attrValid (s.slotAttr 0) && attrMasked (s.slotAttr 0)) = true ∧
    (let s := slotState (2 ^ 11)
     (attrValid (s.slotAttr 0) && attrMasked (s.slotAttr 0)) = false) ∧
    (let s := (((State.reset.set .ETH_WAKE_CFG_wake_en 1 0).set .PWR_main 0).set .PWR_vaux 1).setb .XD_CLK_DIE_PRESENT_present 15 true 0 2
     let b := withFcs (List.replicate 6 0xFF ++ List.replicate 96 0)
     s.get .ETH_WAKE_CFG_wake_en 0 = 1 ∧ s.get .PWR_main = 0 ∧ s.get .PWR_vaux = 1 ∧ s.get .ETH_WAKE_STATUS_woke 0 = 0 ∧
     s.getb .XD_CLK_DIE_PRESENT_present 15 0 2 = true ∧ leNat (b.drop (b.length - 4)) = crc32 (b.take (b.length - 4)) ∧
     magicIn (s.get .ETH_WAKE_MAC 0) (b.take 1518) = true ∧
     (List.range 8).find? (fun k => (s.set .ETH_WAKE_CFG_pat_en 4 0).getb .ETH_WAKE_CFG_pat_en k 0 && (s.set .ETH_WAKE_CFG_pat_en 4 0).wakeHit 0 k b) = some 2) := by decide +kernel

theorem witness_NcsiPackage :
    (let s := (State.reset.set .ETH_NCSI_CFG_enable 1).setb .XD_CLK_DIE_PRESENT_present 16 true 0 2
     let s := (s.set .PWR_main 1).set .PWR_vaux 1
     let b := [0, 1, 0, 1, 0x01, 0, 0, 4, 0, 0, 0, 0, 0, 0, 0, 0, 0, 0, 0, 1]
     s.ncsiOn = true ∧ b.getD 5 0 / 32 % 8 = s.get .ETH_NCSI_CFG_package_id ∧ b.getD 4 0 = 0x01 ∧ beNat (slice b 6 2) % 4096 = 4 ∧ 20 ≤ b.length ∧
     (beNat (slice (b ++ beBytes 4 (2 ^ 32 - ncsiSum b)) 20 4) + ncsiSum b) % 2 ^ 32 = 0 ∧
     (beNat (slice (b ++ [0, 0, 0, 1]) 20 4) + ncsiSum b) % 2 ^ 32 ≠ 0 ∧
     (let u := ((s.set .NCSI_tx 1 0 0).set .ETH_PORT_STATUS_state ethUP 0 0).advanceTo 0
      u.ncsiOn = true ∧ u.get .NCSI_tx 0 0 ≠ 0 ∧ u.macUp 0 0 = true)) ∧
    (State.reset.advanceTo 0).get .NCSI_tx 0 0 = 0 := by decide +kernel

theorem witness_Scheduling :
    (let s := schedState
     s.macUp 0 0 = true ∧ (s.pickPort 0 0).2 = some ([0, 1024, 9216], 100) ∧ (s.pickPort 0 0).1.lget .txq 0 (9216 - 9216) = [5]) ∧
    State.reset.macUp 0 0 = false ∧ (State.reset.set .SCH_NODE_reset_mode 0 0 0).get .SCH_NODE_reset_mode 0 0 = 0 ∧
    (State.reset.set .SCH_NODE_reset_mode 1 0 0).get .SCH_NODE_reset_mode 0 0 ≠ 0 ∧
    (State.reset.set .SCH_SAMPLE_CFG_enable 1 0).get .SCH_SAMPLE_CFG_enable 0 ≠ 0 ∧
    (let s := State.reset.set .SCH_RECON_CFG_enable 0
     s.get .SCH_RECON_CFG_enable = 0 ∧ (s.advanceTo (s.now + (10 * usUnits - s.mono % (10 * usUnits)))).get .SCH_RECON_CFG_enable = 0) ∧
    (State.reset.set .SCH_RECON_CFG_enable 1).get .SCH_RECON_CFG_enable ≠ 0 := by decide +kernel

theorem witness_Connections :
    (let s := createState
     s.get .SIL_CH_busy 0 0 = 0 ∧ s.get .SIL_CFG_udp_port ≠ 0 ∧ s.get .CN_state 0 0 = 0 ∧
     s.tenActive (recAt (s.chRec .SIL_CH_record 0 24) 4 1) = true ∧ (recAt (s.chRec .SIL_CH_record 0 24) 9 1).testBit 2 = false ∧
     cnRecOk 0 (s.chRec .SIL_CH_record 0 24) = true ∧ s.online 0 = true ∧ s.cnRecOwn (s.chRec .SIL_CH_record 0 24) = true ∧
     0 < backendCtx) ∧
    (let s := (createState.set .CN_state 1 0 0).set .CN_rec (createState.chRec .SIL_CH_record 0 24) 0 0
     s.get .CN_state 0 0 = 1 ∧ (∀ p ∈ cnFixed, recAt (s.get .CN_rec 0 0) p.1 p.2 = recAt (s.chRec .SIL_CH_record 0 24) p.1 p.2) ∧
     recAt (s.get .CN_rec 0 0) 8 1 = recAt (s.chRec .SIL_CH_record 0 24) 8 1 ∧ s.cnFlag 0 0 = false ∧
     s.tenSlot (s.cnTenant 0) (recAt (s.chRec .SIL_CH_record 0 24) 12 4) = true ∧
     s.tenSlot (s.cnTenant 0) (recAt (s.chRec .SIL_CH_record 0 24) 16 4) = true ∧
     (s.set .TREC 0 0 0).tenSlot (s.cnTenant 0) (recAt (s.chRec .SIL_CH_record 0 24) 12 4) = false ∧ s.get .CN_dying 0 0 = 0 ∧
     (((s.cnFlush 0 msFLUSHED).set .CN_state 2 0 0).set .CN_dying 1 0 0).cnPackets 0 = false) ∧
    (let s := ((State.reset.set .CN_state 1 0 0).set .PKT_sil 1 0 0).set .PKT_live 1 0 0
     s.get .CN_state 0 0 ≠ 0 ∧ s.get .CN_dying 0 0 = 0 ∧ (((s.cnFlush 0 msFLUSHED).set .CN_state 2 0 0).set .CN_dying 1 0 0).cnPackets 0 = true) ∧
    (let s := State.reset.set .CN_dying 1 0 0
     s.get .CN_dying 0 0 ≠ 0 ∧ s.cnPackets 0 = false) ∧
    (let s := State.reset.set .CACHE_fill 1 0 0
     s.get .CACHE_fill 0 0 ≠ 0 ∧ ((s.keysOf .CACHE_in).filter (fun k => decide (k.1 = 0))).length < 8192) := by decide +kernel

theorem witness_SillagePackets :
    (let s := connState
     s.cnRegion 0 = 0 ∧ s.get .CN_state 0 0 = 1 ∧ s.fatal = false ∧ s.get .CN_stop 0 0 = 0 ∧ s.online 0 = true ∧
     s.cnFlag 0 2 = false ∧ (s.advanceTo 0).get .CACHE_in 0 0 ≠ 0 ∧ ((s.advanceTo 0).cacheTouch 0 0).cnFlag 0 2 = false ∧
     ((s.advanceTo 0).cacheTouch 0 0).get .SIL_CFG_udp_port ≠ 0 ∧
     (((s.advanceTo 0).cacheTouch 0 0).txKey 0 0 true).2 ≠ 1 ∧ ((s.set .CACHE_in 0 0 0).advanceTo 0).get .CACHE_in 0 0 = 0 ∧
     (((s.set .CN_rec (4 * 2 ^ 72) 0 0).advanceTo 0).cacheTouch 0 0).cnFlag 0 2 = true ∧
     (s.set .SIL_CFG_roce_en 1).get .SIL_CFG_roce_en ≠ 0) ∧
    (∀ op ∈ [0x12, 0x10, 0x11], (let s := silPacket op
      s.atEngine 0 0 6 = true ∧ ((udpOf (s.lget .pktBytes 0 0)).map (fun y => s.isSil y)) = some true ∧
      (s.silTake 0 0 true (fun o => decide (o = op))).2.isSome = true)) ∧
    ((silPacket 0x12).silTake 0 0 true (fun op => decide (op ≠ 0x10 ∧ op ≠ 0x11))).2.isSome = true ∧
    ((engineState 6).atEngine 0 0 6 = true ∧ udpOf ((engineState 6).lget .pktBytes 0 0) = none) ∧
    (State.reset.get .CN_rlow 0 0 = 0 ∧ (State.reset.get .CN_rmap 0 0).testBit 255 = false ∧ State.reset.get .RT_st 0 (rtIx 0 0) = 0) ∧
    (let s := rocePacketState 0
     s.atEngine 0 0 6 = true ∧ ((udpOf (s.lget .pktBytes 0 0)).map (fun y => decide (y.dport = rocePort) && !s.isSil y && y.ok &&
       decide (16 + y.pay.getD 1 0 / 16 % 4 ≤ y.pay.length))) = some true ∧ s.get .SIL_CFG_roce_en = 1 ∧
     icrcHas (s.lget .pktBytes 0 0) ≠ icrcOf (s.lget .pktBytes 0 0)) ∧
    (let s := rocePacketState 1
     s.atEngine 0 0 6 = true ∧ ((udpOf (s.lget .pktBytes 0 0)).map (fun y => decide (y.dport = rocePort) && !s.isSil y && y.ok &&
       decide (16 + y.pay.getD 1 0 / 16 % 4 ≤ y.pay.length) && decide (beAt y.pay 5 3 = 0 ∧ y.pay.getD 0 0 = 0x81 ∧ y.v6 = s.cnFlag 0 1))) = some true ∧
     s.get .SIL_CFG_roce_en = 1 ∧ icrcHas (s.lget .pktBytes 0 0) = icrcOf (s.lget .pktBytes 0 0) ∧ s.get .CN_state 0 0 = 1 ∧ s.cnFlag 0 2 = true ∧
     s.cnHome 0 = 0 ∧ s.get .CACHE_in 0 0 ≠ 0) := by decide +kernel

theorem witness_SillageTimers :
    (let s := connState.set .CN_ack_at 5 0 0
     s.cnRegion 0 = 0 ∧ s.get .CN_state 0 0 = 1 ∧ s.get .CN_ack_at 0 0 ≠ 0 ∧ s.fatal = false ∧ s.get .SIL_CFG_udp_port ≠ 0 ∧
     ((s.advanceTo (s.get .CN_ack_at 0 0 + max 1 (s.get .SIL_ACK_CFG_ack_delay) * 400)).txKey 0 0 true).2 ≠ 1) ∧
    (let s := connState.set .RT_st 1 0 0
     s.rtWhere 0 (fun s i => decide (s.get .RT_st 0 i = 1 ∧ s.get .RT_path 0 i = 0 ∧ s.get .RT_exempt 0 i = 0)) = [0] ∧
     s.cnFlag 0 2 = false) ∧
    (let s := connState.set .RT_st 4 0 0
     s.get .RT_st 0 (rtIx 0 0) = 4 ∧ s.get .RT_psn 0 (rtIx 0 0) = 0) ∧
    (let s := connState.set .PT_retired 1 0 0
     s.get .PT_retired 0 (ptIx 0 0) ≠ 0 ∧ s.get .CN_stop 0 0 = 0 ∧ s.psnOk 0 0 = true ∧
     ((s.advanceTo (s.get .PT_probe_at 0 (ptIx 0 0) + max 1 (s.get .SIL_PATH_CFG1_probe_ms) * msUnits)).txKey 0 0 true).2 ≠ 1) := by decide +kernel

theorem witness_MemoryKeys :
    (let s := keyRecState
     s.get .MKY_CH_busy 0 0 = 0 ∧ s.registerCheck 0 7 (s.chRec .MKY_CH_record 0 16) = 0) ∧
    (State.reset.registerCheck 0 7 (State.reset.chRec .MKY_CH_record 0 16) = 2 + 1) ∧
    (let s := validKeyState
     s.get .MKY_CH_busy 0 0 = 0 ∧ s.mkValid 0 7 = true ∧ mkPaged (s.mkRec 0) = true ∧ s.mkyRange 0 = (0, 1) ∧ recAt (s.mkRec 0) 16 8 ≤ 0 ∧
     0 + 1 ≤ recAt (s.mkRec 0) 16 8 + recAt (s.mkRec 0) 24 8 ∧
     (s.set .MK_revoke_at 9 0 0).get .MK_revoke_at 0 0 ≠ 0 ∧ ((s.set .MK_revoke_at 9 0 0).advanceTo 9).mkReading 0 = false ∧
     ((((s.set .RESP_st 1 0 0).lset .cnExec [0] 0 0).set .MK_revoke_at 9 0 0).advanceTo 9).mkReading 0 = true) ∧
    (let s := State.reset.set .KEYC_fill 1 0 0
     s.get .KEYC_fill 0 0 ≠ 0 ∧ (s.keyHeld 0).length < 4096) := by decide +kernel

theorem witness_Paging :
    ((State.reset.set .ATC_st 1 0 (atcIx 0 0 5)).get .ATC_st 0 (atcIx 0 0 5) = 1) ∧ (1 : Nat).testBit 0 = true ∧ 2 % 4 = 2 ∧
    (let s := (State.reset.set .PRI_out 1 0 (atcIx 0 0 5)).set .ATC_st 3 0 (atcIx 0 0 5)
     s.get .PRI_out 0 (atcIx 0 0 5) ≠ 0 ∧ (s.priEnd 0 (atcIx 0 0 5)).get .ATC_st 0 (atcIx 0 0 5) ≠ 0) := by decide +kernel

theorem witness_StorageChannels :
    (let s := beChState 0
     s.get .NVE_CH_busy 0 0 = 0 ∧ beRecOk 0 (s.chRec .NVE_CH_record 0 32) = true ∧ s.get .BE_on 0 0 ≠ 1 ∧
     (∀ q, q < 64 → s.get .CN_state 0 (beCtx 0 q) = 0) ∧ recAt (s.chRec .NVE_CH_record 0 32) 0 1 ≠ 2) ∧
    (let s := beChState 2
     s.get .NVE_CH_busy 0 0 = 0 ∧ beRecOk 0 (s.chRec .NVE_CH_record 0 32) = true ∧ recAt (s.chRec .NVE_CH_record 0 32) 0 1 = 2) ∧
    (let s := State.reset.set .BE_on 1 0 0
     s.get .BE_on 0 0 ≠ 0 ∧ (∀ x ∈ s.keysOf .NS_on, s.get .NS_on 0 x.2 ≠ 1 ∨ s.nsAt x.2 4 2 ≠ 0)) ∧
    (let s := nsChState
     let r := s.chRec .NVE_CH_record 0 32 % 2 ^ 512
     s.get .NVE_CH_busy 0 0 = 0 ∧ s.get .NS_on 0 0 ≠ 1 ∧ s.tenActive (recAt r 28 1) = true ∧ nsRecOk r = true ∧
     (s.affMask (recAt r 28 1)).testBit (recAt r 29 1) = true ∧ (recAt r 7 1).testBit 0 = false) ∧
    (let s := ((nsChState.set .NS_on 1 0 0).set .NVE_CTRL_CFG_enable 1 0 0).set .NVE_CH_nsid 1 0 0
     s.get .NS_on 0 0 ≠ 0 ∧ s.nsAttached 0 = false ∧ s.get .NVE_CH_nsid 0 0 = 1 ∧ s.get .NVE_CH_ctrl 0 0 = 0 ∧
     s.get .NVE_CTRL_CFG_enable 0 0 ≠ 0 ∧ s.get .NSA 0 1 = 0 ∧ s.get .NSA_old 0 1 = 0 ∧ s.tenActive (s.nsAt 0 28 1) = true ∧
     s.nsAt 0 28 1 = s.ctrlTenant 0 ∧ (s.set .NSA 1 0 1).nsAttached 0 = true ∧ (s.set .NSA 1 0 1).get .NSA 0 1 = 0 + 1) := by decide +kernel

theorem witness_Controllers :
    (let s := State.reset.set .NVE_CTRL_CFG_enable 1 0 0
     s.get .NVE_CTRL_CFG_enable 0 0 ≠ 0 ∧ s.get .NC_cc 0 0 % 2 = 0 ∧ s.get .NVE_CTRL_STAT_state 0 0 ≠ 2 ∧ bitsOf (putBits 0 0 1 1) 14 2 = 0 ∧
     putBits 0 0 1 1 % 2 = 1 ∧ (s.set .BOOT_STATUS_device_ready 1).get .BOOT_STATUS_device_ready = 1) ∧
    (let s := ((State.reset.set .NVE_CTRL_CFG_enable 1 0 0).set .NC_cc 1 0 0).set .NC_csts 1 0 0
     s.get .NC_cc 0 0 % 2 = 1 ∧ putBits (s.get .NC_cc 0 0) 0 1 0 % 2 = 0 ∧ putBits (s.get .NC_cc 0 0) 14 2 1 % 2 = 1 ∧
     bitsOf (putBits (s.get .NC_cc 0 0) 14 2 1) 14 2 = 1 ∧ bitsOf (s.get .NC_cc 0 0) 14 2 = 0 ∧ s.get .NC_csts 0 0 % 2 = 1) ∧
    (State.reset.set .NVE_CTRL_STAT_state 2 0 0).get .NVE_CTRL_STAT_state 0 0 = 2 ∧
    (let s := (State.reset.set .NVE_CTRL_STAT_state 3 0 0).set .NC_shn 1 0 0
     s.get .NVE_CTRL_STAT_state 0 0 = 3 ∧ s.get .NC_shn 0 0 = 1) ∧
    (fetchState.ctrlEligible 0 = true) ∧
    (let s := adminState 0x05 ([1, 0, 1, 0] ++ [1, 0, 0, 0])
     s.isAdmin 0 0x05 = true ∧ s.dw0Status 0 = 0 ∧ s.sq4 0 40 2 = 1 ∧ 1 ≤ s.ioqMax 0 ∧ s.get .CQ_on 0 (qIx 0 1) ≠ 1 ∧ s.sq4 0 42 2 ≠ 0 ∧
     s.sq4 0 44 2 % 2 = 1 ∧ s.sq4 0 46 2 < 65 ∧ s.sq4 0 24 8 % 4096 = 0) ∧
    (let s := (adminState 0x01 ([1, 0, 1, 0] ++ [1, 0, 1, 0])).set .CQ_on 1 0 (qIx 0 1)
     s.isAdmin 0 0x01 = true ∧ s.dw0Status 0 = 0 ∧ s.sq4 0 40 2 = 1 ∧ s.get .SQ_on 0 (qIx 0 1) ≠ 1 ∧ s.sq4 0 46 2 = 1 ∧
     s.get .CQ_on 0 (qIx 0 1) ≠ 0 ∧ s.sq4 0 42 2 ≠ 0 ∧ s.sq4 0 44 1 % 2 ≠ 0 ∧ s.sq4 0 24 8 % 4096 = 0) ∧
    (let s := (adminState 0x00 [1, 0, 0, 0]).set .SQ_on 1 0 (qIx 0 1)
     s.isAdmin 0 0x00 = true ∧ s.dw0Status 0 = 0 ∧ s.sq4 0 40 2 = 1 ∧ s.get .SQ_on 0 (qIx 0 1) ≠ 0) ∧
    (let s := (adminState 0x04 [1, 0, 0, 0]).set .CQ_on 1 0 (qIx 0 1)
     s.isAdmin 0 0x04 = true ∧ s.dw0Status 0 = 0 ∧ s.sq4 0 40 2 = 1 ∧ s.get .CQ_on 0 (qIx 0 1) ≠ 0 ∧
     (∀ j, j < 65 → s.get .SQ_on 0 (qIx 0 j) ≠ 1 ∨ s.get .SQ_cq 0 (qIx 0 j) ≠ 1)) := by decide +kernel

theorem witness_AdminCommands :
    (∀ p, p < 6 → (let s := adminState 0x02 [p, 0, 0, 0]
      s.isAdmin 0 0x02 = true ∧ s.dw0Status 0 = 0 ∧ s.sq4 0 40 1 = p)) ∧
    (let s := ((adminState 0x06 [0, 0, 0, 0]).set .NSA 1 0 1).set .CM_sqe (6 + 2 ^ 32) 0 0
     s.isAdmin 0 0x06 = true ∧ s.dw0Status 0 = 0 ∧ s.sq4 0 40 1 = 0 ∧ s.sq4 0 4 4 = 1 ∧ s.nsOf 0 1 ≠ 0) ∧
    (let s := adminState 0x06 [1, 0, 0, 0]
     s.isAdmin 0 0x06 = true ∧ s.dw0Status 0 = 0 ∧ s.sq4 0 40 1 = 1) ∧
    (let s := adminState 0x08 [1, 0, 0, 0]
     s.isAdmin 0 0x08 = true ∧ s.dw0Status 0 = 0 ∧ s.lget .ctrlCmds 0 0 = [] ∧
     (let s := ((s.lset .ctrlCmds [1] 0 0).set .CM_sq 1 0 1).set .CM_st 2 0 1
      (s.lget .ctrlCmds 0 0).find? (fun j => decide (j ≠ 0 ∧ s.get .CM_sq 0 j = s.sq4 0 40 2 ∧ s.cmdCid j = s.sq4 0 42 2 ∧
        2 ≤ s.get .CM_st 0 j ∧ s.get .CM_st 0 j ≤ 4 ∧ s.lget .flushLeft 0 j = [])) = some 1)) ∧
    (∀ f ∈ [1, 11], (let s := adminState 0x09 [f, 0, 0, 0]
      s.isAdmin 0 0x09 = true ∧ s.dw0Status 0 = 0 ∧ s.sq4 0 40 1 = f ∧ (s.sq4 0 43 1).testBit 7 = false)) ∧
    (∀ f ∈ [1, 11], (let s := adminState 0x0A [f, 0, 0, 0]
      s.isAdmin 0 0x0A = true ∧ s.dw0Status 0 = 0 ∧ s.sq4 0 40 1 = f)) ∧
    (let s := adminState 0x0C []
     s.isAdmin 0 0x0C = true ∧ s.dw0Status 0 = 0 ∧ (s.lget .aerCids 0 0).length < 4 ∧
     ((s.cmdDrop 0).lpush .aerCids (s.cmdCid 0) 0 0).lget .aerWait 0 0 = [] ∧ 4 ≤ ((s.lset .aerCids [1, 2, 3, 4] 0 0).lget .aerCids 0 0).length) ∧
    (let s := adminState 0x11 []
     s.isAdmin 0 0x11 = true ∧ s.dw0Status 0 = 0 ∧ s.sq4 0 44 4 * 4 + (s.sq4 0 40 4 + 1) * 4 ≤ 0x800000 ∧
     (s.set .CM_ctrl 1 0 0).isAdmin 0 0x11 = true ∧ (s.set .CM_ctrl 1 0 0).get .CM_ctrl 0 0 % 512 ≠ 0) ∧
    (let s := adminState 0x10 [3 * 8 + 2, 0, 0, 0]
     s.isAdmin 0 0x10 = true ∧ s.dw0Status 0 = 0 ∧ bitsOf (s.sq4 0 40 4) 3 3 = 3 ∧ s.sq4 0 40 4 % 8 = 1 + 1 ∧
     1 ≠ s.get .BOOT_STATUS_s2_slot ∧ s.get .PWR_fail = 0 ∧ s.get .ACT_on = 0) ∧
    (let s := State.reset.set .ACT_on 1
     s.get .ACT_on ≠ 0 ∧ s.actLeft = false ∧ s.now ≤ s.get .ACT_at + 600 * msUnits ∧ (s.lset .ctrlCmds [3] 0 0).actLeft = true) := by
  decide +kernel

theorem witness_IoCommands :
    (∀ op ∈ [1, 2], (let s := ioState op 0
      s.isIo 0 op = true ∧ s.ioStatus 0 (s.ioBlocks 0) true = 0)) ∧
    (let s := (ioState 1 0).set .NSA 0 0 1
     s.isIo 0 1 = true ∧ s.ioStatus 0 (s.ioBlocks 0) true = 10 + 1) ∧
    (let s := ioState 8 0
     s.isIo 0 8 = true ∧ s.ioStatus 0 (s.ioBlocks 0) false = 0 ∧ (s.nsAt (s.cmdNs 0 - 1) 7 1).testBit 0 = false) ∧
    (∀ a ∈ [0, 4], (let s := ioState 9 a
      s.isIo 0 9 = true ∧ s.ioStatus 0 0 false = 0 ∧ (s.sq4 0 44 1).testBit 2 = decide (a = 4))) ∧
    (let s := ioState 0 0
     s.isIo 0 0 = true ∧ s.dw0Status 0 = 0 ∧ s.sq4 0 4 4 = 1 ∧ s.cmdNs 0 = 1 ∧ s.nsRegion 0 = some 0 ∧ s.creditOk 0 (s.ctrlTenant 0) = true ∧
     (∀ j ∈ s.lget .ctrlCmds 0 0, ¬ (s.get .CM_st 0 j = 1 ∧ s.get .CM_sq 0 j ≠ 0 ∧ s.get .CM_seq 0 j < s.get .CM_seq 0 0)) ∧
     (s.set .NRL_CFG_enforce 1).creditOk 0 (s.ctrlTenant 0) = false ∧ 2 ^ 29 < s.stagingUsed 0 + (2 ^ 29 + 1)) ∧
    (let s := (ioState 2 0).set .CM_st 3 0 0
     s.get .CM_st 0 0 = 3 ∧ s.cmdAdmin 0 = false ∧ s.get .CM_want 0 0 = 0 ∧ s.get .CM_desc 0 0 = s.get .CM_dlen 0 0 ∧ s.opSent 0 ≠ 1 ∧
     (s.set .CM_st 4 0 0).get .CM_st 0 0 = 4 ∧ s.pickQueue (s.cmdBackend 0) (s.get .CM_avoid 0 0) = none) ∧
    (let s := ((ioState 2 0).set .BE_rec (256 + 2 ^ 48) 0 0).set .BEQ_on 1 0 0
     s.pickQueue (s.cmdBackend 0) (s.get .CM_avoid 0 0) = some 0 ∧ (s.tlsUse 0 0).2 ≠ 3) ∧
    (let s := ((ioState 2 0).set .BE_rec (257 + 2 ^ 48) 0 0).set .BEQ_on 1 0 0 |>.set .CIPC_st 3 0 0
     s.pickQueue (s.cmdBackend 0) (s.get .CM_avoid 0 0) = some 0 ∧ (s.tlsUse 0 0).2 = 3) := by decide +kernel

theorem witness_BackendQueues :
    (let s := (State.reset.set .BE_on 1 0 0).set .BE_rec 256 0 0
     s.get .BE_on 0 0 ≠ 0 ∧ 0 < s.beField 0 1 1 ∧ s.get .BEQ_on 0 0 ≠ 1 ∧ s.get .BEQ_was 0 0 ≠ 1 ∧ s.beField 0 0 1 ≠ 2 ∧
     (s.set .BEQ_on 1 0 0).get .BEQ_on 0 0 ≠ 0 ∧ s.sentAs 0 0 0 7 = none ∧ s.sentAs 0 0 0 5 = none ∧
     (let s := ((s.set .CM_st 5 0 3).set .CM_sent_at 1 0 3).lset .cmdData [7, 8] 0 3
      s.sentAs 0 0 0 7 = none ∧ s.sentAs 0 0 0 5 = some 3 ∧ s.get .CM_st 0 3 = 5 ∧ s.get .NVE_CTRL_STAT_state 0 (s.get .CM_ctrl 0 3) ≠ 2 ∧
      0 < (s.lget .cmdData 0 3).length ∧ (s.tlsHave 3).2 = true ∧
      (((s.set .BE_rec 257 0 0).set .CIPC_st 3 0 0).tlsHave 3).2 = false ∧ ((s.set .BEQ_on 1 0 0).lset .beUna [3, 1, 7] 0 0).lget .beUna 0 0 = 3 :: 1 :: [7])) := by decide +kernel

theorem witness_KeyStore :
    (let s := keyChState
     s.get .KEY_CH_busy 0 0 = 0 ∧ s.targetCheck 0 0 = 0 ∧ s.targetEmpty 0 = true ∧ s.slotCheck 0 0 = 0 ∧ attrValid (s.slotAttr 0) = false ∧
     s.get .KEY_CH_kdf 0 0 = 1 ∧ s.get .KEY_CH_len_a 0 0 = 24 ∧ s.get .KEY_CH_len_b 0 0 = 0 ∧ 24 - 8 + 0 = attrLen (s.get .KEY_CH_attr 0 0) ∧
     attrKind (s.slotAttr 4) = 5 ∧ s.get .KEY_CH_src_slot 0 0 = 4 ∧ s.get .KEY_CH_length 0 0 = 16 ∧
     s.inWindow 0 (s.get .KEY_CH_src_addr 0 0) 16 = true) ∧
    (let s := keyChState.mwrite (slotAddr 0) (leBytes 4 (2 ^ 11))
     s.targetCheck 0 0 = 0 ∧ s.targetEmpty 0 = false) := by decide +kernel

theorem witness_CipherBlocks :
    ((State.reset.set .CIPC_st 1 0 0).get .CIPC_st 0 0 = 1) ∧
    (let s := ((engineState 5).set .CIPC_st 2 0 0).lset .pktBytes (List.replicate 64 0) 0 0
     s.atEngine 0 0 5 = true ∧ attrKind (s.slotAttr 0) ≤ 1 ∧ (s.cipUse 0 0 (s.pktTenant 0) true).2 = 2 ∧
     (espBytes 0 true [] [] [] (s.lget .pktBytes 0 0) 14 8).isSome = true) ∧
    attrKind (((engineState 5).mwrite (slotAddr 0) [2]).slotAttr 0) = 2 := by decide +kernel

theorem witness_ZeroiseIssuer :
    State.reset.get .KEY_CH_busy 0 2 = 0 ∧ 0x107 % 16 = 7 ∧
    (∃ r ∈ regRows, r.reg = .KEY_CH_W00 ∧ State.reset.reaches 4 0x9200 r 0 2) := by
  refine ⟨by decide +kernel, by decide, ⟨.KEY_CH_W00, .ctd, 0x9000, [(4, 0x100)], [⟨.KEY_CH_op, 0, 4, .WO, .full⟩, ⟨.KEY_CH_tenant, 8, 8, .WO, .full⟩]⟩, ?_, rfl, ?_, ?_, ?_, ?_⟩ <;>
    decide +kernel

theorem witness_ServiceCores :
    State.reset.queueHeld 0 0 < (State.reset.get .COR_Q_prod 0 0 + 0x10000 - 1 % 0x10000 % 0x10000) % 0x10000 ∧
    (let s := State.reset.set .COR_Q_prod 3 0 0
     s.queueHeld 0 0 = 3 ∧ (s.get .COR_Q_prod 0 0 + 0x10000 - 3 % 0x10000 % 0x10000) % 0x10000 = 0 ∧
     (s.get .COR_Q_prod 0 0 + 0x10000 - 1 % 0x10000 % 0x10000) % 0x10000 = 2 ∧ (2 ^ 31 + 3).testBit 31 = true ∧ (1 : Nat).testBit 31 = false ∧
     (2 ^ 31 + 3) % 0x10000 = 3) ∧
    (∀ a ∈ [1, 2, 3, 4], (let s := injState a
      s.get .COR_CORE_inj_enable 0 0 ≠ 0 ∧ s.injWaiting 0 0 ≠ 0 ∧ s.injOk 0 (s.injDesc 0 0) = true ∧ (s.injDesc 0 0).getD 0 0 = a ∧
      s.creditOk 0 (s.injTenant 0 (s.injDesc 0 0)) = true)) ∧
    (injState 0).injOk 0 ((injState 0).injDesc 0 0) = false ∧
    State.reset.get .COR_CORE_state 0 0 = 0 ∧
    (let s := (State.reset.set .COR_CORE_state 1 0 1).set .CORE_halting 1 0 1
     s.get .COR_CORE_state 0 1 = 1 ∧ s.get .CORE_halting 0 1 = 1 ∧ (s.set .COR_CORE_state 2 0 1).get .COR_CORE_state 0 1 = 2) ∧
    (State.reset.set .CORE_cmp_set 1 0 0).get .CORE_cmp_set 0 0 ≠ 0 := by decide +kernel

theorem witness_HostRequests :
    (let s := hostState
     s.get .PCI_EP_CFG_link_up 0 ≠ 0 ∧ s.get .PWR_reset ≠ 1 ∧ s.get .PCI_EP_CFG_cfg_ready 0 ≠ 0 ∧ s.get .PCI_FN_STAT_flr_active 0 0 ≠ 1 ∧
     s.get .PCI_FN_STAT_present 0 0 ≠ 0 ∧ s.get .PCI_FN_STAT_present 0 9 = 0 ∧ (s.cfgWord 0 0 0).2 = 0 ∧ (s.cfgWord 0 0 4).2 ≠ 0 ∧
     (s.set .PCI_FN_STAT_flr_active 1 0 0).get .PCI_FN_STAT_flr_active 0 0 = 1 ∧
     (let u := s.set .PATH_rid 0 0 (pathEp 0)
      u.barOpen 0 0 = true ∧ u.barDecodes 0 0 0 0 4 = true ∧ u.barOpen 0 9 = false ∧ u.get .PCI_FN_STAT_present 0 9 ≠ 1) ∧
     s.get .FN_rom 0 0 % 2 ≠ 1) ∧
    (let s := hostState.set .FN_rom 1 0 0
     s.get .FN_rom 0 0 % 2 = 1 ∧ s.getb .FN_cmd 1 0 0 = true ∧ s.get .PCI_FN_STAT_dstate 0 0 = 0 ∧ s.get .PCI_FN_STAT_flr_active 0 0 = 0 ∧
     s.get .PCI_EP_CFG_link_up 0 = 1) := by decide +kernel

theorem witness_Functions :
    (let s := hostState
     s.get .PCI_FN_STAT_present 0 0 ≠ 0 ∧ s.get .PCI_EP_CFG_link_up 0 ≠ 0 ∧ s.get .PCI_FN_STAT_flr_active 0 0 ≠ 1 ∧
     s.get .PCI_FN_STAT_dstate 0 0 ≠ 3 ∧ s.get .PCI_perst 0 ≠ 1 ∧ s.get .TAG_state 0 0 = 0) ∧
    (let s := (hostState.set .PCI_FN_STAT_bme 1 0 0).set .PCI_FN_STAT_flr_active 1 0 0
     s.get .PCI_FN_STAT_bme 0 0 ≠ 0 ∧ s.get .PCI_FN_STAT_flr_active 0 0 ≠ 0 ∧
     (s.set .PCI_FN_STAT_dstate 3 0 0).get .PCI_FN_STAT_dstate 0 0 = 3) ∧
    (let s := ((State.reset.set .PCI_perst 0 0).set .PWR_reset 0).set .XD_CLK_DIE_PRESENT_present (2 ^ 7) 0 2
     s.get .PCI_EP_CFG_link_up 0 ≠ 1 ∧ s.get .PCI_perst 0 ≠ 1 ∧ s.get .PWR_reset ≠ 1 ∧ s.getb .XD_CLK_DIE_PRESENT_present 7 0 2 = true) ∧
    (State.reset.set .IDE_state 2 0 0).get .IDE_state 0 0 = 2 ∧
    (let s := (hostState.set .TAG_state 1 0 0).set .TAG_len 2 0 0
     s.get .TAG_state 0 0 = 1 ∧ s.get .TAG_flush 0 0 ≠ 1 ∧ s.ideBad 0 (s.get .TAG_fn 0 0) = false ∧ s.get .TAG_len 0 0 = 2 ∧ s.lget .tagData 0 0 = []
      ∧ (s.set .TAG_state 2 0 0).get .TAG_state 0 0 = 2) := by decide +kernel

theorem witness_SpdmResponder :
    (∀ k < 4, (let s := (hostState.set .BOOT_STATUS_stage 2).set .SPDM_st k 0
      s.spdmUp 0 = true ∧ s.get .SPDM_st 0 = k ∧ s.spdmIn 0 0 2 = decide (k = 3))) ∧
    (let s := ((hostState.set .BOOT_STATUS_stage 2).set .SPDM_st 3 0).set .SPDM_sess 2 0 0
     s.spdmUp 0 = true ∧ s.spdmIn 0 0 2 = true ∧ s.spdmIn 0 1 2 = true ∧ s.spdmIn 0 1 1 = false ∧
     [0, 1].find? (fun k => decide (s.get .SPDM_sess 0 k = 0)) = some 1 ∧ (s.set .SPDM_sess 2 0 1).get .SPDM_sess 0 1 ≠ 0 ∧
     (s.set .SPDM_sess 1 0 0).spdmIn 0 1 1 = true ∧ (s.set .SPDM_sess 1 0 0).spdmIn 0 1 2 = false ∧
     (List.replicate 132 0).length = 132 ∧ (List.replicate 41 0).getD 32 0 % 16 = 0 ∧
     (s.setb .IDE_prog 1 true 0 2).getb .IDE_prog 1 0 2 = true) ∧
    hostState.get .PCI_EP_CFG_link_up 0 = 1 ∧ hostState.get .PCI_EP_CFG_cfg_ready 0 = 1 := by decide +kernel

theorem witness_Rings :
    (let s := ringState 4
     s.get .RNG_RING_state 0 0 = 0 ∧ s.ringOk 0 0 = true ∧ (s.set .RNG_RING_kind 7 0 0).ringOk 0 0 = false) ∧
    (isNetFn 0 = true ∧ (recRings (ringState 4 |>.get .TREC 0 0) 0) = (0, 8) ∧ isNetFn 2 = false ∧ State.reset.ownerOf 0 0 = 0) ∧
    (let s := (ringState 0).set .RNG_RING_state 1 0 0
     s.isWork 0 0 = true ∧ s.ringOpen 0 0 = true ∧ s.get .RNG_RING_head 0 0 = 0 ∧ s.get .RNG_RING_tail 0 0 = 0 ∧ bitsOf 3 17 14 = 0 ∧
     cnt17 3 0 ≤ s.ringSize 0 0 ∧ cnt17 0 0 ≤ cnt17 (3 % 2 ^ 17) 0 ∧ bitsOf (2 ^ 17) 17 14 ≠ 0 ∧ s.get .STR_cold ≠ 1 ∧ s.fatal = false) ∧
    (let s := ((ringState 4).set .RNG_RING_state 1 0 0).set .RNG_RING_head 3 0 0
     s.isWork 0 0 = false ∧ s.ringOpen 0 0 = true ∧ bitsOf 2 17 14 = 0 ∧ cnt17 (s.get .RNG_RING_head 0 0) (2 % 2 ^ 17) ≤ s.ringHeld 0 0 ∧
     (s.set .RNG_RING_tail 2 0 0).ringFn 0 0 = some 0 ∧ s.ringHeld 0 0 < cnt17 (s.get .RNG_RING_head 0 0) (4 % 2 ^ 17)) ∧
    (let s := (rxRingState.lset .ringFetched (0 :: List.replicate 64 0) 0 1).set .RNG_RING_kind 0 0 1
     s.ringFn 0 1 = some 0 ∧ s.ringCq 0 1 = some 0 ∧ s.headDesc 0 1 = (some (List.replicate 64 0), []) ∧ s.get .RNG_RING_state 0 1 = 1 ∧
     s.isWork 0 1 = true ∧ s.cqFree 0 0 = true ∧ (s.set .RNG_resv 40 0 0).cqFree 0 0 = false ∧
     ((s.set .RNG_resv 40 0 0).cqPause 0 0 0).get .RNG_RING_state 0 1 ≠ 1 ∧
     (((s.set .RNG_resv 40 0 0).set .RNG_RING_state 2 0 0).cqPause 0 0 0).get .RNG_RING_state 0 1 = 1) := by decide +kernel

theorem witness_Rings_receive :
    (let s := rxRingState
     s.get .PKT_live 0 5 ≠ 0 ∧ ringNo (s.get .PKT_hostring 0 5 - 1) = (0, 1) ∧ s.get .PKT_hostring 0 5 ≠ 0 ∧ s.get .PCI_EP_CFG_link_up 0 ≠ 0 ∧
     s.ringFn 0 1 = some 0 ∧ s.ringCq 0 1 = some 0 ∧ s.bufsFor (s.lget .pktBytes 0 5).length 8 (s.lget .rxBufs 0 1) = some [2] ∧
     s.get .RNG_RING_state 0 1 = 1 ∧ s.get .RNG_RING_kind 0 1 = 1 ∧ s.mayIssue 0 0 = true ∧ s.cqFree 0 0 = true ∧
     (s.lset .rxBufs [] 0 1).bufsFor 3 8 ((s.lset .rxBufs [] 0 1).lget .rxBufs 0 1) = none ∧
     (s.set .PCI_EP_CFG_link_up 0 0).get .PCI_EP_CFG_link_up 0 = 0) ∧
    (let s := (rxRingState.lset .ringOrder [2] 0 1).set .WRK_done 1 0 2
     s.lget .ringOrder 0 1 = 2 :: [] ∧ s.ringFn 0 1 = some 0 ∧ s.ringCq 0 1 = some 0 ∧ s.get .WRK_done 0 2 ≠ 0) ∧
    (let s := (ringState 4).set .RNG_RING_state 2 0 0
     s.ringFn 0 0 = some 0 ∧ s.get .RNG_RING_state 0 0 = 2 ∧ s.get .RNG_RING_kind 0 0 = 4) ∧
    (let s := (((ringState 4).set .RNG_RING_armed 1 0 0).set .RNG_irq_cnt 1 0 0).set .RNG_RING_mod_time 5 0 0
     s.ringFn 0 0 = some 0 ∧ s.isWork 0 0 = false ∧ s.get .RNG_RING_armed 0 0 ≠ 0 ∧ s.get .RNG_irq_cnt 0 0 ≠ 0 ∧ s.get .RNG_RING_mod_time 0 0 ≠ 0) := by
  decide +kernel

theorem witness_Tenants :
    (let s := State.reset
     s.get .TEN_CMD_STATUS_busy ≠ 1 ∧ s.get .TEN_STATE_state 0 3 = 0 ∧ s.recCheck 3 s.tenNew = 0 ∧ s.fnsOf 3 = [] ∧ s.validSlots = [] ∧
     s.cnOfTenant 3 = false ∧ s.keysOf .NS_on = [] ∧ s.keysOf .RNG_RING_state = [] ∧
     (s.set .TEN_REC (2 ^ 25) 0 1).recCheck 3 (s.set .TEN_REC (2 ^ 25) 0 1).tenNew = 3 + 1) ∧
    (∀ k < 3, ((State.reset.set .TEN_STATE_state k 0 3).get .TEN_STATE_state 0 3 = k ∧ (State.reset.set .TEN_STATE_state k 0 3).recCheck 3
      (State.reset.set .TEN_STATE_state k 0 3).tenNew = 0)) ∧
    (State.reset.set .TEN_FN_OWNER_tenant 3 0 9).fnsOf 3 ≠ [] ∧
    (let s := State.reset.set .TEN_STATE_state 1 0 3
     s.fnQuiet 0 9 = true ∧ s.tenActive (3 % 256) = true) := by decide +kernel

theorem witness_Energy :
    (let s := (State.reset.set .NRL_PMBUS_CFG_n_rails 1).set .NRL_EST_est_mw 5
     let a := (s.each (List.range s.nRails) (fun k s => s.railAsk k)).set .NRL_pm_done 1
     let u := (a.each (List.range s.nRails) (fun j s => (s.set .NRL_rail_mw (linear11 ([5].getD j 0)) 0 j).set .NRL_rail_at s.now 0 j)).set
       .NRL_CFG_meas_stale 0
     s.nRails ≠ 0 ∧ s.get .NRL_pm_done ≠ 1 ∧ s.get .PWR_fail ≠ 1 ∧ (∀ j, j < s.nRails → (1 : Nat).testBit j = true) ∧ u.nRails = s.nRails ∧
     (let v := u.set .NRL_MEAS_meas_mw (min 5000 (2 ^ 20 - 1))
      ((List.range s.nRails).map (fun j => u.get .NRL_rail_mw 0 j)).sum = 5000 ∧ v.get .NRL_EST_est_mw = 5 ∧ 0 < s.nRails) ∧
     (let s := s.set .NRL_EST_est_mw 5000
      3277 < (63 * s.get .NRL_K_k * 5000 + 4096 * 5000) / (64 * 5000) ∧ (63 * s.get .NRL_K_k * 5000 + 4096 * 5000) / (64 * 5000) < 5120)) ∧
    State.reset.get .REG_pop 0 0 = 0 ∧ State.reset.get .REG_pop 0 1 = 0 ∧ State.reset.embFlashOk = false ∧
    (State.reset.set .XD_CLK_DIE_PRESENT_present (2 ^ 13) 0 0).embFlashOk = true := by decide +kernel

theorem witness_BootAndUpdate :
    (let s := State.reset.set .BOOT_STATUS_stage 1
     s.get .BOOT_STATUS_stage = 1 ∧ s.get .BOOT_STATUS_recovery ≠ 1 ∧ s.get .BOOT_STATUS_stage ≠ 0) ∧
    (let s := (State.reset.set .BOOT_STATUS_stage 2).set .MGT_on 1 0 1
     s.get .BOOT_STATUS_stage = 2 ∧ s.get .STR_loaded ≠ 1 ∧ s.get .BOOT_STATUS_struct_none ≠ 1 ∧ s.bootLoad 0 = none ∧ s.bootLoad 1 = none ∧
     s.get .MGT_on 0 (49 - 48) = 1 ∧ s.get .BOOT_CTRL_fw_alive ≠ 1 ∧ s.get .BOOT_STATUS_recovery = 0) ∧
    (let s := ((((State.reset.set .BOOT_STATUS_stage 2).set .BOOT_CTRL_fw_alive 1).set .PKG_DIE_INFO_hbm_trained 1 5).set .PKG_DIE_INFO_hbm_trained
       1 6).set .STR_loaded 1
     s.get .BOOT_STATUS_stage = 2 ∧ s.get .BOOT_STATUS_recovery = 0 ∧ s.get .BOOT_CTRL_fw_alive = 1 ∧ s.get .PKG_DIE_INFO_hbm_trained 5 = 1 ∧
     s.get .PKG_DIE_INFO_hbm_trained 6 = 1 ∧ s.get .STR_loaded = 1 ∧ s.get .BOOT_STATUS_device_ready = 0) ∧
    (let s := (State.reset.set .BOOT_STATUS_stage 1).set .BOOT_IMAGE_security_version 5 0 0
     s.get .BOOT_ARB_counter < 5 ∧ 5 ≤ s.arbLimit ∧ s.get .BOOT_ARB_busy = 0 ∧ s.get .PWR_fail = 0 ∧ s.arbLimit < 6 ∧
     (s.set .BOOT_ARB_busy 1).get .BOOT_ARB_busy ≠ 0) ∧
    (∀ kind ∈ [1, 2], (let s := (((State.reset.set .BOOT_STATUS_recovery 1).set .BOOT_s2_bad 1).set .BOOT_IMAGE_result 1 0 0)
      s.get .BOOT_STATUS_recovery ≠ 0 ∧ s.get .BOOT_RCV_STATUS_open ≠ 1 ∧ s.get .PWR_fail ≠ 1 ∧
      [0, 1].find? (fun j => s.slotInvalid kind j) = some 0)) ∧
    (State.reset.slotInvalid 1 0 = false ∧ (State.reset.set .BOOT_IMAGE_result 1 0 0).slotInvalid 1 0 = true) ∧
    (∀ kind ∈ [1, 2], (let s := ((State.reset.set .BOOT_RCV_STATUS_open 1).set .BOOT_RCV_LEN 64).set .BOOT_rcv_kind kind
      s.get .BOOT_RCV_OFFSET = 0 ∧ s.get .BOOT_RCV_LEN = 64 ∧ s.get .BOOT_RCV_STATUS_open ≠ 0 ∧ s.get .PWR_fail ≠ 1 ∧ s.get .BOOT_rcv_next = 0 ∧
      s.get .BOOT_rcv_kind = kind)) ∧
    ((State.reset.set .BOOT_STATUS_stage 2).get .PWR_fail ≠ 1 ∧ (State.reset.set .BOOT_STATUS_stage 2).get .BOOT_STATUS_stage = 2) := by decide +kernel

theorem witness_OnyxAndPower :
    (let s := State.reset
     s.get .ONX_STATUS_wait ≠ 1 ∧ (s.set .ONX_STATUS_last_cmd (s.onxBytes.getD 6 0)).onxCheck s.onxBytes = 0 + 1) ∧ (State.reset.set .PWR_vaux 0).get .PWR_vaux ≠ 1 ∧
    (let s := (State.reset.set .ONX_STATUS_wait 1).set .PWR_vaux 1
     s.get .ONX_STATUS_wait ≠ 0 ∧ s.get .PWR_vaux ≠ 0 ∧
     ((s.set .ONX_STATUS_jumper 1).set .ONX_STATUS_button 0).get .ONX_STATUS_wait = 1) ∧
    (∀ c ∈ [1, 2, 3, 4, 5], (let s := (State.reset.set .ONX_STATUS_wait 1).lset .onxHeld (List.replicate 6 0 ++ [c] ++ List.replicate 89 0)
      s.onxMay c 0 = true)) ∧
    (let s := (State.reset.set .PWR_main 1).set .PWR_reset 0
     s.get .PWR_fail ≠ 1 ∧ s.get .PWR_reset ≠ 1 ∧ s.get .PWR_main ≠ 0) ∧
    (State.reset.set .PWR_main 0).get .PWR_main ≠ 1 ∧ (State.reset.set .PWR_vaux 1).get .PWR_vaux ≠ 0 ∧
    440 < sgn 10 441 ∧ sgn 10 440 ≤ 440 ∧ sgn 10 399 < 400 ∧ 400 ≤ sgn 10 400 ∧ 480 < sgn 10 481 ∧ sgn 10 480 ≤ 480 ∧ (State.reset.set .PWR_vaux 0).get .PWR_vaux = 0 ∧
    (let u := (State.reset.set .PKG_THERM_tj_qc 481 3).set .PKG_THERM_peak_qc 481 3
     (u.set .PKG_THERM_warn 1 3).get .PKG_THERM_trip 3 ≠ 1) := by
  decide +kernel

theorem witness_ServiceAndTap :
    (let s := State.reset.set .BOOT_STATUS_stage 2
     s.srvCheck 3 false false = 0 ∧ s.srvCheck 3 true false ≠ 0 ∧ 2 ≤ s.get .BOOT_STATUS_stage ∧ State.reset.get .BOOT_STATUS_stage < 2) ∧
    ((State.reset.set .ERR_REGION_STATE_state 3 0 3).set .ERR_REGION_STATE_bist_pass 1 0 3).srvCheck 3 true false = 0 ∧
    (State.reset.set .ERR_REGION_STATE_state 3 0 3).srvCheck 3 false false ≠ 0 ∧
    (let s := State.reset.set .ERR_REGION_STATE_state 1 0 3
     s.srv 3 = 1 ∧ s.get .SRV_effective 0 3 ≠ 1 ∧
     ((s.advanceTo (s.get .SRV_accept_at 0 3 + 10 * usUnits)).set .SRV_effective 1 0 3).onlineRegions = 0 :: [1, 2, 4, 5, 6, 7] ∧
     (s.set .SRV_effective 1 0 3).get .SRV_effective 0 3 ≠ 0 ∧ s.regionPkts 3 = [] ∧ s.regionQueued 3 = [] ∧ s.regionCmds 3 = [] ∧
     (s.fragLost 3).get .SRV_fault 0 3 ≠ 1 ∧ ((s.set .SRV_fault 1 0 3).fragLost 3).get .SRV_fault 0 3 = 1) ∧
    (State.reset.set .ERR_REGION_STATE_state 2 0 3).srv 3 = 2 ∧ (State.reset.set .ERR_REGION_STATE_state 4 0 3).srv 3 = 4 ∧
    (List.range 16).filter (fun b => decide (2 ≤ (blockFails [4] b).length)) = [] ∧
    (List.range 16).filter (fun b => decide (2 ≤ (blockFails [4, 5] b).length)) ≠ [] ∧
    (let s := State.reset
     s.online 3 = true ∧ s.get .SRV_tcam_shadow 3 = 0 ∧ s.offlineForTest 3 = false ∧ s.get .ERR_HBM_PC_state 0 3 = 0 ∧ s.get .ERR_HBM_CMD_busy ≠ 1 ∧
     s.substituteOf 0 = some 31 ∧ (s.advanceTo (max 1 (s.get .ERR_TEST_CFG_tcam_period_s) * secUnits)).get .SRV_tcam_bank 3 < 4) ∧
    (let s := State.reset.set .ERR_HBM_PC_state 1 0 3
     (List.range 64).find? (fun i => decide (i % 32 < 16 ∧ s.get .ERR_HBM_PC_state 0 i = 1)) = some 3) := by decide +kernel

end Sys2Proof.Tests
end

section
/-! SUPPORT. Laws of register access (R5 to R15, R17, R41, R570): where an access of a path lands, what the read and the write of a word
of one slot come to for each access type and each half of a pair; and the four statements on access that rest on them. -/

namespace Sys2Proof.Machine

section Commands
variable (s : State) (path a v : Nat)

/-! The register commands are the two accesses of R5. -/

theorem exec_registerWrite : exec (.registerWrite path a v) s = .next (s.writeAt path a v) := rfl
theorem exec_writeLo : exec (.writeLo path a v) s = .next (s.writeAt path a v) := rfl
theorem exec_writeHi : exec (.writeHi path a v) s = .next (s.writeAt path a v) := rfl
theorem exec_rcRead : exec (.rcRead path a) s = .next (s.readAt path a) := rfl
theorem exec_readLo : exec (.readLo path a) s = .next (s.readAt path a) := rfl
theorem exec_readHi : exec (.readHi path a) s = .next (s.readAt path a) := rfl
theorem exec_partialWrite : exec (.partialWrite path a) s = .next
    (if !s.pathServes path (s.target a) ∨ s.target a = .mem ∨ coreSpace path a then s else s.report1 (s.pathErr 0x01 path a)) := rfl

end Commands

section Landing
variable {s : State} {path a v sc i : Nat} {r : RegRow}

/-- Die values 8 to 15, and what lies past the device addresses, are unmapped (R17, R41). -/
theorem target_of_die_high (h : 8 * 2 ^ 44 ≤ a) : s.target a = .unmapped := by
  have hd : 7 < a / 2 ^ 44 := by omega
  simp only [State.target, if_pos hd]

/-- What lands anywhere lies on a die, below the space of its own that a core has. -/
theorem coreSpace_of_target_ne (h : s.target a ≠ .unmapped) : coreSpace path a = false := by
  have ha : ¬ 8 * 2 ^ 44 ≤ a := fun hle => h (target_of_die_high hle)
  simp only [coreSpace, decide_eq_false_iff_not]
  omega

theorem writeAt_unmapped (ht : s.target a = .unmapped) (hc : coreSpace path a = false) (hp : s.pathServes path .unmapped = true) :
    s.writeAt path a v = s.report1 (s.pathErr 0x03 path a) := by
  simp [State.writeAt, State.unmapped, ht, hc, hp]

theorem readAt_unmapped (ht : s.target a = .unmapped) (hc : coreSpace path a = false) (hp : s.pathServes path .unmapped = true) :
    s.readAt path a = (s.report1 (s.pathErr 0x03 path a)).answer [0] := by
  simp [State.readAt, State.unmapped, ht, hc, hp]

theorem writeAt_gap (ht : s.target a = .gap) (hp : s.pathServes path .gap = true) : s.writeAt path a v = s := by
  have hc : coreSpace path a = false := coreSpace_of_target_ne (s := s) (by simp [ht])
  simp [State.writeAt, ht, hc, hp]

theorem readAt_gap (ht : s.target a = .gap) (hp : s.pathServes path .gap = true) : s.readAt path a = s.answer [0] := by
  have hc : coreSpace path a = false := coreSpace_of_target_ne (s := s) (by simp [ht])
  simp [State.readAt, ht, hc, hp]

/-- A write that reaches a word has the word's effect. -/
theorem writeAt_reaches (h : s.reaches path a r sc i) : s.writeAt path a v = s.regEffect path a r sc i v := by
  obtain ⟨ht, hp, hck, hcov⟩ := h
  have hc : coreSpace path a = false := coreSpace_of_target_ne (s := s) (by simp [ht])
  simp [State.writeAt, State.writeReg, ht, hc, hp, hck, hcov]

/-- A write that reaches a word without a command or event of its own goes by the access types alone. -/
theorem writeAt_reachesPlain (h : s.reachesPlain path a r sc i v) : s.writeAt path a v = s.regWrite path a r sc i v :=
  (writeAt_reaches h.1).trans h.2

/-- A read that reaches a word of stored fields is that word's read. -/
theorem readAt_reachesStored (h : s.reachesStored path a r sc i) : s.readAt path a = s.regRead path r sc i := by
  obtain ⟨⟨ht, hp, hck, hcov⟩, hlive, hreg⟩ := h
  have hc : coreSpace path a = false := coreSpace_of_target_ne (s := s) (by simp [ht])
  simp only [List.mem_cons, not_or] at hreg
  simp [State.readAt, State.readReg, ht, hc, hp, hck, hcov, hlive, hreg]

end Landing

section OneSlot
variable {s : State} {path a v sc i lo w : Nat} {r : RegRow} {t : Slot} {f : Field} {acc : Access}

/-! A word of one slot is a half, writable or locked as that slot is. -/

theorem isHi_of_slots (h : r.slots = [t]) : r.isHi = decide (t.part = .hi) := by simp [RegRow.isHi, h]
theorem isLo_of_slots (h : r.slots = [t]) : r.isLo = decide (t.part = .lo) := by simp [RegRow.isLo, h]
theorem isRw_of_slots (h : r.slots = [t]) : r.isRw = decide (t.acc = .RW) := by simp [RegRow.isRw, h]
theorem hasRwl_of_slots (h : r.slots = [t]) : r.hasRwl = decide (t.acc = .RWL) := by simp [RegRow.hasRwl, h]

theorem wordRead_of_slots (h : r.slots = [t]) : s.wordRead r sc i = s.slotRead t sc i := by simp [State.wordRead, h]

theorem slotRead_of_ne_WO (h : t.acc ≠ .WO) : s.slotRead t sc i = t.show (s.get t.f sc i) * 2 ^ t.lo := by
  unfold State.slotRead
  split
  · exact absurd ‹_› h
  · rfl

theorem slotClear_of_ne_RC (h : t.acc ≠ .RC) : s.slotClear t sc i = s := by
  unfold State.slotClear
  split
  · exact absurd ‹_› h
  · rfl

theorem slotClear_RC (h : t.acc = .RC) : s.slotClear t sc i = s.set t.f 0 sc i := by simp [State.slotClear, h]

/-- A word of one whole field is read as its slot and then cleared as its slot is. -/
theorem regRead_full (hr : s.reachesStored path a r sc i) (h : r.slots = [⟨f, lo, w, acc, .full⟩]) (hacc : acc ≠ .WO) :
    s.regRead path r sc i = (s.answer [s.get f sc i % 2 ^ w * 2 ^ lo]).slotClear ⟨f, lo, w, acc, .full⟩ sc i := by
  obtain ⟨-, -, hreg⟩ := hr
  simp only [List.mem_cons, not_or] at hreg
  have hval : s.wordRead r sc i = s.get f sc i % 2 ^ w * 2 ^ lo := by rw [wordRead_of_slots h, slotRead_of_ne_WO hacc]; rfl
  simp [State.regRead, isHi_of_slots h, isLo_of_slots h, hreg, hval, h]

/-- A low half is read as the low word; the path's snapshot takes the high word (R13). -/
theorem regRead_lo (hr : s.reachesStored path a r sc i) (h : r.slots = [⟨f, 0, 32, acc, .lo⟩]) (hwo : acc ≠ .WO) (hrc : acc ≠ .RC) :
    s.regRead path r sc i =
      (s.answer [s.get f sc i % 2 ^ 32]).set .PATH_snap (s.get f sc i / 2 ^ 32 % 2 ^ 32) 0 path := by
  obtain ⟨-, -, hreg⟩ := hr
  simp only [List.mem_cons, not_or] at hreg
  have hval : s.wordRead r sc i = s.get f sc i % 2 ^ 32 := by
    rw [wordRead_of_slots h, slotRead_of_ne_WO hwo]; simp [Slot.show]
  have hhigh : ∀ u : State, u.hiWord r sc i = u.get f sc i / 2 ^ 32 % 2 ^ 32 := fun u => by simp [State.hiWord, h]
  have hclear : ∀ u : State, u.slotClear ⟨f, 0, 32, acc, .lo⟩ sc i = u := fun u => slotClear_of_ne_RC hrc
  simp [State.regRead, isHi_of_slots h, isLo_of_slots h, hreg, hval, hhigh, hclear, h]

/-- A high half is read as the path's snapshot, which changes nothing (R13). -/
theorem regRead_hi (h : r.slots = [⟨f, lo, w, acc, .hi⟩]) : s.regRead path r sc i = s.answer [s.get .PATH_snap 0 path] := by
  simp [State.regRead, isHi_of_slots h]

/-- A write of the low half of an RW pair is held for its path (R15). -/
theorem regWrite_lo (h : r.slots = [⟨f, lo, w, .RW, .lo⟩]) :
    s.regWrite path a r sc i v = (s.set .PATH_pend v 0 path).set .PATH_pend_v 1 0 path := by
  simp [State.regWrite, State.loWrite, isHi_of_slots h, isLo_of_slots h, isRw_of_slots h]

/-- A write of the high half of an RW pair applies the whole quantity and uses up the pending low half (R15). -/
theorem regWrite_hi (h : r.slots = [⟨f, lo, w, .RW, .hi⟩]) :
    s.regWrite path a r sc i v = (s.set f (f.fit (v % 2 ^ w * 2 ^ 32 +
      (if s.get .PATH_pend_v 0 path = 1 then s.get .PATH_pend 0 path else s.get f sc i % 2 ^ 32))) sc i).set .PATH_pend_v 0 0 path := by
  simp [State.regWrite, State.hiWrite, isHi_of_slots h, isRw_of_slots h, h]

/-- A word of one whole field that is not locked is written as its slot is. -/
theorem regWrite_full (h : r.slots = [⟨f, lo, w, acc, .full⟩]) (hk : acc = .RWL → s.get .BOOT_STATUS_keylock ≠ 1) :
    s.regWrite path a r sc i v = s.slotWrite ⟨f, lo, w, acc, .full⟩ sc i (bitsOf v lo w) := by
  have hlock : (r.hasRwl && decide (s.get .BOOT_STATUS_keylock = 1)) = false := by
    simpa [hasRwl_of_slots h] using hk
  simp [State.regWrite, State.plainWrite, isHi_of_slots h, isLo_of_slots h, hlock, h]

theorem slotWrite_RWL_unlocked (hk : s.get .BOOT_STATUS_keylock ≠ 1) :
    s.slotWrite ⟨f, lo, w, .RWL, .full⟩ sc i v = s.set f v sc i := if_neg hk

theorem slotWrite_RWL_locked (hk : s.get .BOOT_STATUS_keylock = 1) : s.slotWrite ⟨f, lo, w, .RWL, .full⟩ sc i v = s := if_pos hk

/-- A write of a locked field is reported and no more (R12): the report leaves KEYLOCK, so the slot after it is still locked. -/
theorem regWrite_locked (h : r.slots = [⟨f, lo, w, .RWL, .full⟩]) (hk : s.get .BOOT_STATUS_keylock = 1) :
    s.regWrite path a r sc i v = s.report1 (s.pathErr 0x02 path a) := by
  have hkeep : (s.report1 (s.pathErr 0x02 path a)).get .BOOT_STATUS_keylock = 1 := (get_report1 (by decide)).trans hk
  simp [State.regWrite, State.plainWrite, isHi_of_slots h, isLo_of_slots h, hasRwl_of_slots h, hk, h, slotWrite_RWL_locked hkeep]

end OneSlot

/-- Settles O8: the access lands on the half, whose read or write is that of a word of one slot. -/
theorem pairAccess : Obligations.PairAccess := by
  refine ⟨?readLo, ?readHi, ?writeLo, ?writeHi⟩
  case readLo =>
    intro s path a r sc i f acc hr hslots hwo hrc
    rw [exec_readLo, readAt_reachesStored hr, regRead_lo hr hslots hwo hrc]
  case readHi =>
    intro s path a r sc i w f acc hr hslots
    rw [exec_readHi, readAt_reachesStored hr, regRead_hi hslots]
  case writeLo =>
    intro s path a r sc i v f hr hslots
    rw [exec_writeLo, writeAt_reachesPlain hr, regWrite_lo hslots]
  case writeHi =>
    intro s path a r sc i v w f hr hslots
    rw [exec_writeHi, writeAt_reachesPlain hr, regWrite_hi hslots]

/-- Settles O9, by the access type of the word's one slot. -/
theorem accessTypes : Obligations.AccessTypes := by
  constructor
  · intro s path a r sc i v lo w f hr
    simp only [exec_registerWrite, writeAt_reachesPlain hr]
    refine ⟨fun hRW => ?_, fun hRO => ?_, fun hW1C => ?_, fun hRWL hk => ?_⟩
    · rw [regWrite_full hRW nofun]; rfl
    · rw [regWrite_full hRO nofun]; rfl
    · rw [regWrite_full hW1C nofun]; rfl
    · have hopen : s.get .BOOT_STATUS_keylock ≠ 1 := by omega
      rw [regWrite_full hRWL fun _ => hopen, slotWrite_RWL_unlocked hopen]
  · intro s path a r sc i lo w f hr
    simp only [exec_rcRead, readAt_reachesStored hr]
    refine ⟨fun hRC => ?_, fun hstays => ?_⟩
    · rw [regRead_full hr hRC nofun, slotClear_RC rfl]
    · rcases hstays with hRW | hRO
      · rw [regRead_full hr hRW nofun, slotClear_of_ne_RC (by simp)]
      · rw [regRead_full hr hRO nofun, slotClear_of_ne_RC (by simp)]

/-- Settles O10: KEYLOCK decides between the record and the write. -/
theorem lockedWrite : Obligations.LockedWrite := by
  intro s path a r sc i v lo w f hr hslots
  simp only [exec_registerWrite, writeAt_reachesPlain hr]
  refine ⟨fun hlocked => ?_, fun hopen => ?_⟩
  · rw [regWrite_locked hslots hlocked]; rfl
  · rw [regWrite_full hslots fun _ => hopen, slotWrite_RWL_unlocked hopen]

/-- Settles O11, by where the access lands. -/
theorem partialAndUnmapped : Obligations.PartialAndUnmapped := by
  refine ⟨?partialWrite, ?unmapped, ?highDie, ?gap⟩
  case partialWrite =>
    intro s path a sc i r ht hp
    have hc : coreSpace path a = false := coreSpace_of_target_ne (s := s) (by simp [ht])
    simp [exec_partialWrite, ht, hp, hc, State.pathErr]
  case unmapped =>
    intro s path a v ht hc hp
    rw [exec_rcRead, exec_registerWrite, readAt_unmapped ht hc hp, writeAt_unmapped ht hc hp]
    exact ⟨rfl, rfl⟩
  case highDie =>
    intro s a ha
    exact target_of_die_high ha
  case gap =>
    intro s path a v ht hp
    rw [exec_rcRead, exec_registerWrite, readAt_gap ht hp, writeAt_gap ht hp]
    exact ⟨rfl, rfl⟩

end Sys2Proof.Machine
end

section
/-! SUPPORT. Laws of the package's faults (R21 to R37, R45, R52, R73, R576): what each command on a Peing link, a cell, a voltage island or a
region's speed comes to in each of its cases; and the statement that rests on them. -/

namespace Sys2Proof.Machine

section PackageCommands
variable (s : State) (n a b c g h k rel tj spares : Nat) (uncorrectable fresh : Bool)

theorem exec_peingLinkTrained : exec (.peingLinkTrained a b spares) s = execPeingLinkTrained a b spares s := rfl
theorem exec_peingTrainTimeout : exec (.peingTrainTimeout a b) s = execPeingTrainTimeout a b s := rfl
theorem exec_peingCorrectableError : exec (.peingCorrectableError a b g) s = execPeingCorrectableError a b g s := rfl
theorem exec_peingWireFault : exec (.peingWireFault a b g) s = execPeingWireFault a b g s := rfl
theorem exec_cellFault : exec (.cellFault n b c uncorrectable fresh h) s = .next (s.cellFault n b c uncorrectable fresh h) := rfl
theorem exec_voltageStep : exec (.voltageStep k) s = execVoltageStep k s := rfl
theorem exec_regionSpeedMeasure : exec (.regionSpeedMeasure n rel tj) s = execRegionSpeedMeasure n rel tj s := rfl

end PackageCommands

section Links
variable {s : State} {a b g spares : Nat}

/-- Only a write of a link's state changes it. -/
@[simp] theorem linkState_set {f : Field} (v sc i : Nat) (hf : f ≠ .PKG_PEING_LINK_state) :
    (s.set f v sc i).linkState a b = s.linkState a b := get_set_field s f _ v sc i a b hf

/-- Both ends of a link that has not FAILED enter the state (R45). -/
theorem setLink_of_ne_FAILED {st : Nat} (h : s.linkState a b ≠ peingFAILED) :
    s.setLink a b st = (s.set .PKG_PEING_LINK_state st a b).set .PKG_PEING_LINK_state st b a := if_neg h

/-- A FAILED link carries no traffic. -/
theorem linkUp_of_FAILED (h : s.linkState a b = peingFAILED) : s.linkUp a b = false := by
  simp [State.linkUp, h, peingFAILED]

/-- A present link in DOWN out of reset is no link that training passes over (R576). -/
theorem trains_of_down (hp : s.get .PKG_PEING_LINK_present a b = 1) (hdown : s.linkState a b = 0) (hr : s.get .PWR_reset ≠ 1) :
    ¬ (s.get .PKG_PEING_LINK_present a b = 0 ∨ s.linkState a b ≠ 0 ∨ s.get .PWR_reset = 1) := by omega

/-- A DOWN link that trains in time enters UP, or DEGRADED with spares in use, and stage 0 may start (R576). -/
theorem peingLinkTrained_inTime (hp : s.get .PKG_PEING_LINK_present a b = 1) (hdown : s.linkState a b = 0)
    (hr : s.get .PWR_reset ≠ 1) (ht : s.mono ≤ msUnits) :
    exec (.peingLinkTrained a b spares) s = .next (((((s.set .PKG_PEING_LINK_spares_used spares a b).set
      .PKG_PEING_LINK_spares_used spares b a).set .PKG_PEING_LINK_state (if spares = 0 then 1 else 2) a b).set
        .PKG_PEING_LINK_state (if spares = 0 then 1 else 2) b a).stage0Go) := by
  have hdown' : ((s.set .PKG_PEING_LINK_spares_used spares a b).set .PKG_PEING_LINK_spares_used spares b a).linkState a b ≠ peingFAILED := by
    simp [hdown, peingFAILED]
  rw [exec_peingLinkTrained, execPeingLinkTrained, if_neg (trains_of_down hp hdown hr), if_neg (Nat.not_lt.mpr ht),
    setLink_of_ne_FAILED hdown']

/-- A DOWN link that trains too late has failed (R576). -/
theorem peingLinkTrained_late (hp : s.get .PKG_PEING_LINK_present a b = 1) (hdown : s.linkState a b = 0)
    (hr : s.get .PWR_reset ≠ 1) (ht : msUnits < s.mono) : exec (.peingLinkTrained a b spares) s = .next (s.trainFail a b) := by
  rw [exec_peingLinkTrained, execPeingLinkTrained, if_neg (trains_of_down hp hdown hr), if_pos ht]

/-- A link still DOWN at the time limit fails (R576). -/
theorem peingTrainTimeout_down (hp : s.get .PKG_PEING_LINK_present a b = 1) (hdown : s.linkState a b = 0)
    (hr : s.get .PWR_reset ≠ 1) : exec (.peingTrainTimeout a b) s = .next (s.trainFail a b) := by
  rw [exec_peingTrainTimeout, execPeingTrainTimeout, if_neg (trains_of_down hp hdown hr)]

/-- A link that has left DOWN is not trained again (R576). -/
theorem peingLinkTrained_of_ne_DOWN (h : s.linkState a b ≠ 0) : exec (.peingLinkTrained a b spares) s = .next s := by
  simp [exec_peingLinkTrained, execPeingLinkTrained, h]

theorem peingTrainTimeout_of_ne_DOWN (h : s.linkState a b ≠ 0) : exec (.peingTrainTimeout a b) s = .next s := by
  simp [exec_peingTrainTimeout, execPeingTrainTimeout, h]

/-- The errors of a wire group within the last 1 ms, the one at hand the first of them (R23). -/
def State.recentErrors (s : State) (a b g : Nat) : List Nat :=
  s.now :: (s.lget .wireTimes a (b * 256 + g)).filter (fun t => decide (s.now ≤ t + msUnits))

/-- A correctable error on a link that carries traffic is counted, and its group is watched (R23). -/
theorem peingCorrectableError_up {u : State} (hup : s.linkUp a b = true) (hu : u = s.bump .PKG_PEING_LINK_corrected_count a b) :
    exec (.peingCorrectableError a b g) s = .next
      (if (u.recentErrors a b g).length ≤ 64 then u.lset .wireTimes (u.recentErrors a b g) a (b * 256 + g)
       else if (u.lset .wireTimes [] a (b * 256 + g)).spareFree a b then (u.lset .wireTimes [] a (b * 256 + g)).toSpare a b g
       else (u.lset .wireTimes [] a (b * 256 + g)).report { src := 0x08, cls := .corrected, die := a, detail := some g }) := by
  subst hu
  rw [exec_peingCorrectableError, execPeingCorrectableError, hup]
  rfl

theorem peingWireFault_up (hup : s.linkUp a b = true) :
    exec (.peingWireFault a b g) s = .next (if s.spareFree a b then s.toSpare a b g else s.linkFail a b) := by
  rw [exec_peingWireFault, execPeingWireFault, hup]
  rfl

/-- Errors on a link that carries no traffic have no effect. -/
theorem peingErrors_not_up (hup : s.linkUp a b = false) :
    exec (.peingCorrectableError a b g) s = .next s ∧ exec (.peingWireFault a b g) s = .next s := by
  simp [exec_peingCorrectableError, execPeingCorrectableError, exec_peingWireFault, execPeingWireFault, hup]

end Links

section Cells
variable {s : State} {n b c h : Nat} {uncorrectable fresh : Bool}

/-- A correctable fault of a block's cell is retried while fewer than 3 tries have failed (R28). -/
theorem cellFault_retried (hb : b < 16) (ht : (if fresh then 0 else s.get .CELL_retry n (b * 17 + c)) < 3) :
    s.cellFault n b c false fresh h =
      (s.set .CELL_retry ((if fresh then 0 else s.get .CELL_retry n (b * 17 + c)) + 1) n (b * 17 + c)).report
        { src := 0x05, cls := .corrected, level := some 0, die := 4 + n / 2, region := n } :=
  if_pos ⟨hb, rfl, ht⟩

/-- A fault beyond retrying goes to the block's spare, while that is free (R30, R31). -/
theorem cellFault_spared (hb : b < 16) (hfree : s.get .CELL_spare_used n b = 0)
    (hno : uncorrectable = true ∨ fresh = false ∧ 3 ≤ s.get .CELL_retry n (b * 17 + c)) :
    s.cellFault n b c uncorrectable fresh h = s.spareCell n b c uncorrectable h := by
  rcases hno with rfl | ⟨rfl, h3⟩
  · simp [State.cellFault, hb, hfree]
  · have : ¬ s.get .CELL_retry n (b * 17 + c) < 3 := by omega
    simp [State.cellFault, hb, hfree, this]

/-- An uncorrectable fault with no spare to take it passes to the region (R33, R37). -/
theorem cellFault_passed (hno : 16 ≤ b ∨ s.get .CELL_spare_used n b ≠ 0) :
    s.cellFault n b c true fresh h = (if h ≠ 0 then s.dropPkt (h - 1) reasonCELL_FAULT else s).regionFault n := by
  have hspare : ¬ (b < 16 ∧ s.get .CELL_spare_used n b = 0) := by omega
  simp [State.cellFault, hspare]

end Cells

section Islands
variable {s : State} {k n rel tj : Nat}

/-- An island away from its target moves by one step of at most 10 mV (R21, R52). -/
theorem voltageStep_moves {v t : Nat} (hv : v = s.get .ISLAND_mv 0 k) (ht : t = s.islandTarget k) (h0 : t ≠ 0) (hne : t ≠ v) :
    exec (.voltageStep k) s = .next ((((s.advanceTo (s.get .ISLAND_at 0 k + 2 * usUnits)).set .ISLAND_mv
      (if v < t then min t (v + 10) else max t (v - 10)) 0 k).set .ISLAND_at
        (s.advanceTo (s.get .ISLAND_at 0 k + 2 * usUnits)).now 0 k).settleNote) := by
  subst hv ht
  simp [exec_voltageStep, execVoltageStep, h0, hne]

theorem voltageStep_atTarget (h : s.islandTarget k = s.get .ISLAND_mv 0 k) : exec (.voltageStep k) s = .next s := by
  simp [exec_voltageStep, execVoltageStep, h]

/-- The whole 1 ms of DTS at which region `n` is measured next (R73). -/
def State.measureAt (s : State) (n : Nat) : Nat :=
  if s.get .XD_mark n < s.now / msUnits * msUnits + 1 then s.now / msUnits * msUnits else s.now / msUnits * msUnits + msUnits

/-- A measurement that is due leaves every scalar but the two counters and the region's mark as it was. -/
theorem get_measureMark (b : Nat) {f : Field} (hNow : f ≠ .TS_NOW) (hB : f ≠ .TS_B) (hMark : f ≠ .XD_mark) (sc i : Nat) :
    ((s.advanceTo b).set .XD_mark (b + 1) n).get f sc i = s.get f sc i := by
  rw [get_set_field _ _ _ _ _ _ _ _ hMark.symm, get_advanceTo _ _ hNow hB]

/-- A region that is not offline for test is measured, never below its guaranteed speed (R58, R73). -/
theorem regionSpeedMeasure_measured {b v : Nat} {u : State} (hon : s.offlineForTest n = false) (hb : b = s.measureAt n)
    (hu : u = (s.advanceTo b).set .XD_mark (b + 1) n) (hv : v = s.get .ISLAND_mv 0 n) :
    exec (.regionSpeedMeasure n rel tj) s =
      .next (((u.set .XD_SPEED_rel_speed (max (rel % 4096) (speedFloor v (sgn 10 tj) (s.get .AGE_REGION_index 0 n))) n).set
        .XD_SPEED_v_mv v n).set .XD_SPEED_tj_qc tj n) := by
  have hmv : u.get .ISLAND_mv 0 n = v := by rw [hu, hv]; exact get_measureMark b (by decide) (by decide) (by decide) 0 n
  have hage : u.get .AGE_REGION_index 0 n = s.get .AGE_REGION_index 0 n := by
    rw [hu]; exact get_measureMark b (by decide) (by decide) (by decide) 0 n
  rw [← hmv, ← hage, hu, hb, exec_regionSpeedMeasure, execRegionSpeedMeasure, hon]
  rfl

theorem regionSpeedMeasure_offline (h : s.offlineForTest n = true) : exec (.regionSpeedMeasure n rel tj) s = .next s := by
  simp [exec_regionSpeedMeasure, execRegionSpeedMeasure, h]

end Islands

/-- Settles O7, by the cases of each command. -/
theorem packageFaults : Obligations.PackageFaults := by
  refine ⟨⟨?training, ?correctable, fun s a b g hup => peingWireFault_up hup, ?failed⟩,
    ?retried, ?spared, ?passed, ?voltage, ?speed⟩
  case training =>
    intro s a b spares hp hdown hr
    exact ⟨peingLinkTrained_inTime hp hdown hr, peingLinkTrained_late hp hdown hr, peingTrainTimeout_down hp hdown hr⟩
  case correctable =>
    intro s a b g l hup hl
    rw [peingCorrectableError_up hup rfl, show State.recentErrors _ a b g = l from hl.symm]
    exact ⟨fun hfew => by rw [if_pos hfew], fun hmany => by rw [if_neg (by omega)]⟩
  case failed =>
    intro s a b g spares h
    have hne : s.linkState a b ≠ 0 := by omega
    exact ⟨peingLinkTrained_of_ne_DOWN hne, peingTrainTimeout_of_ne_DOWN hne, peingErrors_not_up (linkUp_of_FAILED h)⟩
  case retried =>
    intro s n b c h fresh hb htry
    rw [exec_cellFault, cellFault_retried hb]
    rcases htry with rfl | hlt
    · simp
    · split <;> omega
  case spared =>
    intro s n b c h fresh hb hfree
    simp only [exec_cellFault]
    exact ⟨by rw [cellFault_spared hb hfree (.inl rfl)], fun hf h3 => by rw [cellFault_spared hb hfree (.inr ⟨hf, h3⟩)]⟩
  case passed =>
    intro s n b c h fresh hno
    rw [exec_cellFault, cellFault_passed hno]
  case voltage =>
    intro s u k v t hv ht h0 hu
    subst hu
    refine ⟨fun hup => ?_, fun hdown => ?_, fun heq => voltageStep_atTarget (by rw [← ht, ← hv, heq])⟩
    · rw [voltageStep_moves hv ht h0 (by omega), if_pos hup]
    · rw [voltageStep_moves hv ht h0 (by omega), if_neg (by omega)]
  case speed =>
    intro s u n rel tj b hb hu
    exact ⟨fun hon => regionSpeedMeasure_measured hon hb hu rfl, regionSpeedMeasure_offline⟩

end Sys2Proof.Machine
end

section
/-! SUPPORT. Laws of the parser, of a tree-walk stage and of the pipeline's end (R36, R49, R184 to R195): what each of the three commands
comes to in each of its cases; and the statement that rests on them. -/

namespace Sys2Proof.Machine

section PipelineCommands
variable {s : State} {n h : Nat}

theorem exec_packetParse : exec (.packetParse n h) s = execPacketParse n h s := rfl
theorem exec_treeWalk : exec (.treeWalk n h) s = execTreeWalk n h s := rfl
theorem exec_pipelineExit : exec (.pipelineExit n h) s = execPipelineExit n h s := rfl

/-- The packet that the arbiter grants next is parsed where the packet buffer has room for it (R36, R49). -/
theorem packetParse_granted {s1 : State} (hlive : s.get .PKT_live 0 h = 1) (hroom : s.bufRoom n h = true)
    (hpick : s.arbPick n = (s1, some h)) : exec (.packetParse n h) s = .next ((s1.arbGrant n h).parsePkt n h) := by
  simp [exec_packetParse, execPacketParse, hlive, hroom, hpick]

/-- A packet waits for room in the packet buffer and for its grant (R36, R49). -/
theorem packetParse_waits (hwait : s.bufRoom n h = false ∨ (s.arbPick n).2 ≠ some h) : exec (.packetParse n h) s = .next s := by
  rcases hwait with hfull | hother
  · simp [exec_packetParse, execPacketParse, hfull]
  · rcases hpick : s.arbPick n with ⟨s1, _ | g⟩
    · simp [exec_packetParse, execPacketParse, hpick]
    · have hne : g ≠ h := by simpa [hpick] using hother
      simp [exec_packetParse, execPacketParse, hpick, hne]

/-- What the walk of the graph answers decides between the first stage and the parse failure (R185, R187, R195). -/
theorem parsePkt_of_walk {u : State} {d : List Nat} {reason : Nat} {w : Walk} (hu : u = s.clsSnap n h) (hd : d = u.pktSec h 1)
    (hwalk : pgWalk d (u.lget .pktBytes 0 h) (decide (u.pktCls h 5 1 = 0)) (u.freeVal 32) 257
      (if d = [] then 0xFFFE else leAt d (4 + 2 * u.pktInPort h) 2) ⟨0, 0, [], false, false, [], 0⟩ = (reason, w)) :
    s.parsePkt n h =
      if reason = 0 then ((u.drew.parseWrite h reason w).set .PKT_nstage 0 0 h).settle h 33
      else ((u.drew.parseWrite h reason w).bump .PAR_FAIL_CNT_count n reason).defaultAct h true := by
  subst hu hd
  rw [State.parsePkt, hwalk]

/-- At a tree-walk stage a packet with no fragment key is walked and passed on (R192). -/
theorem treeWalk_unfragmented (hat : s.atEngine n h 0 = true) (hkey : s.get .PKT_fragkey 0 h = 0) (hstage : s.get .PKT_stage 0 h = 1) :
    exec (.treeWalk n h) s = .next ((s.treeStage n h).stageNext h) := by
  simp [exec_treeWalk, execTreeWalk, hat, hkey, hstage]

/-- A packet that follows no fragment and is not walked on outer fields is walked with source 1 (R192, R203). -/
theorem treeStage_unfollowed (hfollow : s.get .PKT_follow 0 h = 0) (houter : s.get .PKT_outer 0 h = 0) :
    s.treeStage n h = s.treeWalk n h 1 := by
  simp [State.treeStage, hfollow, houter]

/-- A packet past its last stage, which no punt holds, takes its FORWARD or else, with no work ring of its own, is unmatched (R190, R194,
R195). -/
theorem pipelineExit_past {u : State} (hlive : s.get .PKT_live 0 h = 1) (hin : s.get .PKT_in_region 0 h = 1)
    (hregion : s.get .PKT_region 0 h = n) (hstage : s.get .PKT_stage 0 h = 1) (hpunt : s.get .PKT_puntr 0 h = 0)
    (hpast : s.atStage n h = none) (hu : u = s.fragRecord h) :
    (u.meta_ h 1010 1 = 1 → exec (.pipelineExit n h) s = .next (u.forwardOut h)) ∧
    (u.meta_ h 1010 1 = 0 → u.get .PKT_work 0 h = 0 → exec (.pipelineExit n h) s = .next (u.defaultAct h false)) := by
  subst hu
  constructor
  · intro hset
    simp [exec_pipelineExit, execPipelineExit, hlive, hin, hregion, hstage, hpunt, hpast, hset]
  · intro hunset hwork
    simp [exec_pipelineExit, execPipelineExit, hlive, hin, hregion, hstage, hpunt, hpast, hunset, hwork]

end PipelineCommands

/-- Settles O25, by the cases of each command. -/
theorem parseAndWalk : Obligations.ParseAndWalk := by
  refine ⟨?parse, fun s n h => packetParse_waits, fun s n h => treeWalk_unfragmented, fun s n h => treeStage_unfollowed, ?exit⟩
  case parse =>
    intro s s1 u v n h reason w d hlive hroom hpick hu hd hwalk hv
    rw [packetParse_granted hlive hroom hpick, parsePkt_of_walk hu hd hwalk, ← hv]
    exact ⟨fun haccept => by rw [if_pos haccept], fun hfail => by rw [if_neg hfail]⟩
  case exit =>
    intro s n h hlive hin hregion hstage hpunt hpast
    exact pipelineExit_past hlive hin hregion hstage hpunt hpast rfl

end Sys2Proof.Machine
end

section
/-! SUPPORT. Laws of the clock watch (R61, R62), of the accesses that wait for a clock (R70) and of the time that a core reads from its die's
replica (R71, R78, R82): what each of the five commands comes to in each of its cases; and the statement that rests on them. -/

namespace Sys2Proof.Machine

section ClockCommands
variable (s : State) (k d path h adv ret : Nat) (hz20 : Bool)

theorem exec_clockAbsent : exec (.clockAbsent k d) s = execClockAbsent k d s := rfl
theorem exec_clockPresent : exec (.clockPresent k d hz20) s = execClockPresent k d hz20 s := rfl
theorem exec_clockAccessTimeout : exec (.clockAccessTimeout path) s = execClockAccessTimeout path s := rfl
theorem exec_timeCsrRead : exec (.timeCsrRead h adv ret) s = execTimeCsrRead h adv ret s := rfl
theorem exec_replicaRealign : exec (.replicaRealign d) s = execReplicaRealign d s := rfl

end ClockCommands

section Watch
variable {s : State} {k d : Nat} {hz20 : Bool}

/-- The loss of a present instance of a domain present until then sets the domain's lost bit; CK_AUX's only with main power (R61, R62). -/
theorem clockAbsent_present (hdie : (clockDies k).contains d = true) (hwatch : s.watched k = true)
    (hpresent : s.getb .XD_CLK_DIE_PRESENT_present k 0 d = true) (hdomain : s.getb .XD_CLK_PRESENT_present k = true)
    (hpower : k ≠ 15 ∨ s.get .PWR_main = 1) :
    exec (.clockAbsent k d) s = .next (((s.clockMark k d false).setb .XD_CLK_LOST_lost k true).clockLoss k d) := by
  simp [exec_clockAbsent, execClockAbsent, -List.contains_eq_mem, hdie, hwatch, hpresent, hdomain, hpower]

/-- The return of an absent instance, CK_OSC's at the frequency that osc_20m selects, lets the waiting accesses run (R61, R70). -/
theorem clockPresent_absent (hdie : (clockDies k).contains d = true) (hwatch : s.watched k = true)
    (habsent : s.getb .XD_CLK_DIE_PRESENT_present k 0 d = false) (hfreq : k = 1 → b2n hz20 = s.get .TS_OSC_CFG_osc_20m) :
    exec (.clockPresent k d hz20) s = .next (((s.clockMark k d true).clockBack k d).each
      (((s.clockMark k d true).clockBack k d).lkeysOf .busHeld)
      (fun p s => (s.lset .busHeld [] 0 p.2).heldRun p.2 (s.lget .busHeld 0 p.2))) := by
  rw [exec_clockPresent, execClockPresent, if_neg]
  simpa [-List.contains_eq_mem, hdie, hwatch, habsent] using hfreq

theorem clockAbsent_unwatched (h : s.watched k = false) : exec (.clockAbsent k d) s = .next s := by
  simp [exec_clockAbsent, execClockAbsent, h]

theorem clockPresent_unwatched (h : s.watched k = false) : exec (.clockPresent k d hz20) s = .next s := by
  simp [exec_clockPresent, execClockPresent, h]

end Watch

section Waiting
variable {s : State} {path a k v t : Nat} {r : List Nat}

/-- The oldest access of a path ends 10 µs after it began, and leaves the others waiting (R70). -/
theorem clockAccessTimeout_oldest (h : s.lget .busHeld 0 path = a :: k :: v :: t :: r) :
    exec (.clockAccessTimeout path) s =
      .next (((s.advanceTo (t + 10 * usUnits)).lset .busHeld r 0 path).heldEnd path a k) := by
  simp only [exec_clockAccessTimeout, execClockAccessTimeout, h]

/-! An access that ends without its clock is logged; a read answers 0, to the host as a completion of its size (R70). -/

theorem heldEnd_write : s.heldEnd path a 2 = s.report1 (s.pathErr 0x04 path a) := rfl

theorem heldEnd_read : s.heldEnd path a 1 = (s.report1 (s.pathErr 0x04 path a)).answer [0] := rfl

theorem heldEnd_hostRead : s.heldEnd path a 3 =
    ((s.report1 (s.pathErr 0x04 path a)).answer [0]).emit .cpl [path, 0] (leBytes 4 0) := rfl

theorem heldEnd_hostReadPair : s.heldEnd path a 4 =
    ((s.report1 (s.pathErr 0x04 path a)).answer [0]).emit .cpl [path, 0] (leBytes 8 0) := rfl

end Waiting

section Replica
variable {s : State} {d h adv ret : Nat}

/-- What the cycle and instret CSRs of a hart have counted by the time it reads its time CSR (R72). -/
def State.hartCounted (s : State) (h adv ret : Nat) : State :=
  if s.hartOn h then (s.addw .CORE_cycle adv 0 h).addw .CORE_instret ret 0 h else s

/-- A read of the time CSR answers the core's time and its UNC16, and keeps the time as the least for the next read (R71, R78). -/
theorem timeCsrRead_answers {u : State} (hu : u = s.hartCounted h adv ret) :
    exec (.timeCsrRead h adv ret) s =
      .next ((u.set .CORE_time (u.coreTime h) 0 h).answer [u.coreTime h, u.repUnc (hartDie h) 0]) := by
  subst hu
  rfl

/-- A replica that ran apart is realigned from the value it has once its clock is present (R82). -/
theorem replicaRealign_apart (hapart : s.get .REP_apart 0 d = 1) (hclock : s.getb .XD_CLK_DIE_PRESENT_present 2 0 d = true) :
    exec (.replicaRealign d) s = .next ((s.set .REP_dt64 (s.repNow d) 0 d).set .REP_apart 0 0 d) := by
  simp [exec_replicaRealign, execReplicaRealign, hapart, hclock]

end Replica

/-- Settles O12, by the cases of each command. -/
theorem clockWatch : Obligations.ClockWatch := by
  refine ⟨?watched, ?unwatched, ?timeout, ?time, fun s d => replicaRealign_apart⟩
  case watched =>
    intro s k d hdie hwatch
    exact ⟨fun hpresent hdomain hk => clockAbsent_present hdie hwatch hpresent hdomain (.inl hk),
      fun hz habsent hfreq => clockPresent_absent hdie hwatch habsent hfreq⟩
  case unwatched =>
    intro s k d h
    exact ⟨clockAbsent_unwatched h, fun hz => clockPresent_unwatched h⟩
  case timeout =>
    intro s w u path a k v t r hheld hw hu
    rw [clockAccessTimeout_oldest hheld, ← hw, hu]
    refine ⟨?write, ?hostRead, ?hostReadPair, ?read⟩
    case write => rintro rfl; rw [heldEnd_write]
    case hostRead => rintro rfl; rw [heldEnd_hostRead]
    case hostReadPair => rintro rfl; rw [heldEnd_hostReadPair]
    case read => rintro rfl; rw [heldEnd_read]
  case time =>
    intro s u h adv ret t hu ht
    rw [timeCsrRead_answers hu, State.coreTime, ← ht]

end Sys2Proof.Machine
end

section
/-! SUPPORT. Laws of the timescale's references (R85 to R88): what a measurement comes to once its phase is known, as its reference is
selected or not; what a missing measurement, the wait-to-restore time and the end of a slew do; and the statement that rests on them. -/

namespace Sys2Proof.Machine

section ReferenceCommands
variable (s : State) (n gm steps utc rate : Nat) (off : Int) (parent both : Bool)

theorem exec_referenceMeasurement :
    exec (.referenceMeasurement n off parent gm steps utc rate both) s = .next (s.measure n off parent gm steps utc rate both) := rfl
theorem exec_measurementMissing : exec (.measurementMissing n) s = execMeasurementMissing n s := rfl
theorem exec_wtrExpiry : exec (.wtrExpiry n) s = execWtrExpiry n s := rfl
theorem exec_slewComplete : exec .slewComplete s = .next (((s.advanceTo s.slewEnd).set .U_slew 0).set .TIME_slew_off 0).publishUnc := rfl

end ReferenceCommands

section Measurements
variable {s : State} {n gm steps utc rate : Nat} {off p : Int} {parent both : Bool}

/-- A measurement as its reference takes it: a time reference's without its known delay, a PPS's within its second (R85). -/
def State.measPhase (s : State) (n : Nat) (off : Int) : Int :=
  let off := if n < 6 then off - sgn 32 (s.get .TS_REF_DELAY 0 n) * 16384 else off
  if n = 4 ∨ n = 5 then ppsPhase off else off

theorem measPhase_frequency (hn : 6 ≤ n) : s.measPhase n off = off := by
  have htime : ¬ n < 6 := by omega
  have hpps : ¬ (n = 4 ∨ n = 5) := by omega
  simp only [State.measPhase, if_neg htime, if_neg hpps]

theorem measPhase_pps (hn : n = 4 ∨ n = 5) : s.measPhase n off = ppsPhase (off - sgn 32 (s.get .TS_REF_DELAY 0 n) * 16384) := by
  have htime : n < 6 := by omega
  simp only [State.measPhase, if_pos htime, if_pos hn]

/-- Only PTP firmware reports more than the measurement. -/
theorem ptpInfo_of_not_ptp (hn : 4 ≤ n) : s.ptpInfo n gm steps utc = s := if_neg (by omega)

/-- A valid measurement of an enabled reference other than PTP is recorded and then used (R85, R86). -/
theorem measure_valid (hn : 4 ≤ n) (hon : s.get .TS_REF_CFG_enable 0 n = 1) (hp : s.measPhase n off = p) (hvalid : s.measValid n p = true) :
    s.measure n off parent gm steps utc rate both =
      ((s.measAccept n p).measUse n p parent rate both).1.evidence s ((s.measAccept n p).measUse n p parent rate both).2 := by
  have hoff : s.get .TS_REF_CFG_enable 0 n ≠ 0 := by omega
  have hptp : ¬ (n < 4 ∧ parent = false ∧ s.get .TS_REF_STATUS_qualified 0 n = 1) := by omega
  simp only [State.measPhase] at hp
  simp only [State.measure, ptpInfo_of_not_ptp hn, hp, if_neg hoff, if_neg hptp, if_pos hvalid]

/-- A measurement neither qualifying its reference nor of the selected one steers by frequency alone, if at all (R89). -/
theorem measUse_unselected (hq : s.qualifies n parent = false) (hsel : s.get .TS_STATUS_ref_sel ≠ n) :
    s.measUse n p parent rate both = (s.freqAct n, none) := by
  simp [State.measUse, hq, hsel]

/-- A measurement of the selected reference updates the servo and undergoes the lock tests (R94, Table TIME-5). -/
theorem measUse_selected (hq : s.qualifies n parent = false) (hsel : s.get .TS_STATUS_ref_sel = n)
    (hst : s.get .TS_STATUS_state = tsACQUIRING ∨ s.get .TS_STATUS_state = tsLOCKED) :
    s.measUse n p parent rate both = (((s.servoUpdate p rate).lockTests p).trackUnc, none) := by
  simp [State.measUse, hq, hsel, hst]

/-- Recording a measurement selects no other reference. -/
@[simp] theorem measAccept_ref_sel : (s.measAccept n p).get .TS_STATUS_ref_sel = s.get .TS_STATUS_ref_sel := by
  unfold State.measAccept
  split <;> simp

/-! A recorded measurement is the reference's last one, and ends its row of outliers and of missing ones (R86). -/

@[simp] theorem measAccept_valid : (s.measAccept n p).get .TS_REF_STATUS_valid 0 n = 1 := by
  have hwidth : Field.TS_REF_STATUS_valid.width = 1 := rfl
  simp [State.measAccept, hwidth]

@[simp] theorem measAccept_out : (s.measAccept n p).get .REF_out 0 n = 0 := by simp [State.measAccept]

@[simp] theorem measAccept_miss : (s.measAccept n p).get .REF_miss 0 n = 0 := by simp [State.measAccept]

@[simp] theorem measAccept_last : (s.measAccept n p).get .REF_last 0 n = unsgn 64 p := by
  have hwidth : unsgn 64 p < 2 ^ Field.REF_last.width := BitVec.isLt _
  simp [State.measAccept, Nat.mod_eq_of_lt hwidth]

theorem freqAct_idle (h : s.freqRef ≠ some n ∨ (s.get .TS_STATUS_state ≠ tsFREERUN ∧ s.get .TS_STATUS_state ≠ tsHOLDOVER)) :
    s.freqAct n = s := by
  rcases h with hother | ⟨hrun, hhold⟩
  · exact if_neg fun hact => hother hact.1
  · exact if_neg fun hact => hact.2.elim hrun hhold

end Measurements

section ReferenceTimes
variable {s : State} {n : Nat}

/-- The first two missing measurements in a row are counted and end the reference's run (R86). -/
theorem measurementMissing_counted (hon : s.get .TS_REF_CFG_enable 0 n = 1) (hfew : s.get .REF_miss 0 n < 2) :
    exec (.measurementMissing n) s = .next
      (((s.set .TS_REF_STATUS_valid 0 0 n).set .REF_run 0 0 n).set .REF_miss (s.get .REF_miss 0 n + 1) 0 n) := by
  rw [exec_measurementMissing, execMeasurementMissing, if_neg (by omega)]
  dsimp only
  rw [if_neg (by omega)]

/-- Once it has stayed qualified for wtr_s, a better reference is switched to (R87). -/
theorem wtrExpiry_better {t : State} (hrev : s.get .TS_CTRL_revertive = 1) (hbetter : s.betterRef n = true)
    (ht : t = s.advanceTo (s.get .REF_qual_at 0 n + s.get .TS_SERVO_CFG_wtr_s * secUnits)) :
    exec (.wtrExpiry n) s = .next ((t.switchRef n).evidence t none) := by
  rw [exec_wtrExpiry, execWtrExpiry, ← ht]
  dsimp only
  rw [if_pos ⟨hrev, hbetter⟩]

end ReferenceTimes

/-- Settles O13: a measurement by whether its reference is selected, the others by the one case of each. -/
theorem timeReferences : Obligations.TimeReferences := by
  refine ⟨?unselected, ?selectedPps, fun s n => freqAct_idle, ?recorded, fun s n => measurementMissing_counted,
    fun s t n => wtrExpiry_better, exec_slewComplete⟩
  case unselected =>
    intro s n gm steps utc rate off parent both hon hn hvalid hq hsel
    have hsel' : (s.measAccept n off).get .TS_STATUS_ref_sel ≠ n := by rwa [measAccept_ref_sel]
    rw [exec_referenceMeasurement, measure_valid (by omega) hon (measPhase_frequency hn) hvalid, measUse_unselected hq hsel']
  case selectedPps =>
    intro s t n gm steps utc rate off p parent both hn hon hp hvalid ht hq hsel hst
    subst ht
    have hphase : s.measPhase n off = p := (measPhase_pps hn).trans hp.symm
    rw [exec_referenceMeasurement, measure_valid (by omega) hon hphase hvalid, measUse_selected hq hsel hst]
  case recorded =>
    intro s n off
    exact ⟨measAccept_valid, measAccept_out, measAccept_miss, measAccept_last⟩

end Sys2Proof.Machine
end

section
/-! SUPPORT. Laws of the commands that set the timescale, turn its servo on and off and tend its two counters (R81, R82, R90 to R92): what
each comes to in each of its cases; and the two statements that rest on them. -/

namespace Sys2Proof.Machine

section SettingCommands
variable (s : State) (unc v : Nat) (diff : Int) (both : Bool)

theorem exec_tsTodSetUnc : exec (.tsTodSetUnc unc both) s = execTsTodSetUnc unc both s := rfl
theorem exec_servoEnWrite : exec (.servoEnWrite v both) s = execServoEnWrite v both s := rfl
theorem exec_faultResolveAToB : exec .faultResolveAToB s = execFaultResolveAToB s := rfl
theorem exec_faultResolveBToA : exec .faultResolveBToA s = execFaultResolveBToA s := rfl
theorem exec_abDiffMeasure : exec (.abDiffMeasure diff) s = execAbDiffMeasure diff s := rfl

end SettingCommands

section Setting
variable {s : State} {unc v path a sc i : Nat} {r : RegRow} {both : Bool}

/-- In FREERUN the time is loaded where both counters can take it, else the device enters FAULT (R82, R90). -/
theorem execTsTodSetUnc_freerun (h : s.get .TS_STATUS_state = tsFREERUN) :
    execTsTodSetUnc unc both s = .next (if both then s.todLoad unc else s.timeFault.evidence s none) :=
  congrArg _ (if_pos h)

/-- In every other state the write is counted and no more (R91). -/
theorem execTsTodSetUnc_rejected (h : s.get .TS_STATUS_state ≠ tsFREERUN) :
    execTsTodSetUnc unc both s = .next (s.bump .TS_TOD_SET_UNC_tod_rejected) :=
  congrArg _ (if_neg h)

/-- A write that reaches the register TS_TOD_SET_UNC is the command, with the low 16 bits as its uncertainty. -/
theorem writeAt_todSetUnc (h : s.reaches path a r sc i) (hr : r.reg = .TS_TOD_SET_UNC) :
    s.writeAt path a v = s.run (execTsTodSetUnc (v % 65536) true) := by
  rw [writeAt_reaches h, State.regEffect, hr]

/-- A servo_en that does not change has no effect; revertive is stored (R90). -/
theorem servoEnWrite_kept (h : v % 2 = s.get .TS_CTRL_servo_en) :
    exec (.servoEnWrite v both) s = .next ((s.set .TS_CTRL_servo_en (v % 2)).set .TS_CTRL_revertive (v / 8)) :=
  congrArg _ (if_pos h)

/-- A servo_en turned to 0 acts once it is stored (R90, Table TIME-5). -/
theorem servoEnWrite_off (hon : s.get .TS_CTRL_servo_en = 1) (hv : v % 2 = 0) :
    exec (.servoEnWrite v both) s =
      .next (((s.set .TS_CTRL_servo_en 0).set .TS_CTRL_revertive (v / 8)).servoOff.evidence s none) := by
  simp [exec_servoEnWrite, execServoEnWrite, hon, hv]

/-- The servo turned off in HOLDOVER goes on as FREERUN after holdover (R90, Table TIME-5). -/
theorem servoOff_holdover (h : s.get .TS_STATUS_state = tsHOLDOVER) :
    s.servoOff = ((s.deselect.enterDisc tsFREERUN).set .TIME_after_hold 1).growHold := by
  simp [State.servoOff, h, tsHOLDOVER, tsACQUIRING, tsLOCKED]

theorem faultResolveAToB_fault (h : s.get .TS_STATUS_state = tsFAULT) :
    exec .faultResolveAToB s = .next (((s.set .TS_B s.now).faultClear).evidence s none) :=
  congrArg _ (if_pos h)

theorem faultResolveBToA_fault (h : s.get .TS_STATUS_state = tsFAULT) :
    exec .faultResolveBToA s = .next ((((s.stepTo (s.get .TS_B)).set .TS_B (s.get .TS_B)).faultClear).evidence s
      (some (stepSize s.now (s.get .TS_B)))) :=
  congrArg _ (if_pos h)

theorem faultResolveAToB_elsewhere (h : s.get .TS_STATUS_state ≠ tsFAULT) : exec .faultResolveAToB s = .next s := congrArg _ (if_neg h)

theorem faultResolveBToA_elsewhere (h : s.get .TS_STATUS_state ≠ tsFAULT) : exec .faultResolveBToA s = .next s := congrArg _ (if_neg h)

end Setting

section Counters
variable {s : State} {diff : Int}

/-- Only a write of counter A moves DTS. -/
@[simp] theorem now_set {f : Field} (v sc i : Nat) (hf : f ≠ .TS_NOW) : (s.set f v sc i).now = s.now :=
  get_set_field s f _ v sc i 0 0 hf

/-- The difference of the counters as it is shown, with its largest magnitude, and counter B that far from counter A (R81). -/
def State.abShown (s : State) (diff : Int) : State :=
  ((s.set .TS_AB_DIFF_diff (unsgn 16 diff)).set .TS_AB_DIFF_max_abs (max (s.get .TS_AB_DIFF_max_abs) (min diff.natAbs 0xFFFF))).set
    .TS_B (unsgn 64 (Int.ofNat s.now + diff.fdiv 4))

/-- At the next microsecond the difference is shown; beyond 2.0 ns the device enters FAULT (R81). -/
theorem abDiffMeasure_shown {u : State} (hu : u = (s.advanceTo ((s.now / usUnits + 1) * usUnits)).abShown diff) :
    exec (.abDiffMeasure diff) s = .next (if 32 < diff.natAbs then u.timeFault.evidence s none else u) := by
  simp [exec_abDiffMeasure, execAbDiffMeasure, hu, State.abShown]

end Counters

/-- Settles O17: the command and the write of the register are one operation, whose other case this is. -/
theorem todRejected : Obligations.TodRejected := by
  intro s h
  refine ⟨fun unc both => execTsTodSetUnc_rejected h, fun path a sc i v r hreaches hr => ?_⟩
  rw [exec_registerWrite, writeAt_todSetUnc hreaches hr, State.run, execTsTodSetUnc_rejected h]

/-- Settles O14, by the cases of each command. -/
theorem timescaleSetting : Obligations.TimescaleSetting := by
  refine ⟨?load, fun s v both => servoEnWrite_kept, ?servoOff, fun s => faultResolveAToB_fault, fun s => faultResolveBToA_fault,
    fun s h => ⟨faultResolveAToB_elsewhere h, faultResolveBToA_elsewhere h⟩, ?counters⟩
  case load =>
    intro s unc h
    simp only [exec_tsTodSetUnc, execTsTodSetUnc_freerun h]
    exact ⟨rfl, rfl⟩
  case servoOff =>
    intro s t v both hon hv hst ht
    have hkeep : t.get .TS_STATUS_state = tsHOLDOVER := by simpa [ht] using hst
    rw [servoEnWrite_off hon hv, ← ht, servoOff_holdover hkeep]
  case counters =>
    intro s t u diff ht hu
    subst ht
    rw [abDiffMeasure_shown hu]
    exact ⟨fun hnear => by rw [if_neg (by omega)], fun hfar => by rw [if_pos hfar]⟩

end Sys2Proof.Machine
end

section
/-! SUPPORT. Laws of holdover, of the oscillator's settings and of learning (R90, R97 to R104): what each of the six commands comes to in each
of its cases; and the statement that rests on them. -/

namespace Sys2Proof.Machine

section HoldoverCommands
variable (s : State) (v : Nat)

theorem exec_uncUpdateTick : exec .uncUpdateTick s = execUncUpdateTick s := rfl
theorem exec_holdoverMaxReached : exec .holdoverMaxReached s = execHoldoverMaxReached s := rfl
theorem exec_holdoverFreqUpdate : exec .holdoverFreqUpdate s = execHoldoverFreqUpdate s := rfl
theorem exec_oscModeWrite : exec (.oscModeWrite v) s = execOscModeWrite v s := rfl
theorem exec_learnSample : exec .learnSample s = execLearnSample s := rfl
theorem exec_learnValid : exec .learnValid s = execLearnValid s := rfl

end HoldoverCommands

section Holdover
variable {s t : State} {k v : Nat} {l : List Nat}

/-- The running of DTS leaves the discipline state. -/
theorem discState_advanceTo (x : Nat) : (s.advanceTo x).get .TS_STATUS_state = s.get .TS_STATUS_state :=
  get_advanceTo s x (by decide) (by decide) 0 0

/-- Each 1 ms without a reference u_hold is recomputed (R104). -/
theorem uncUpdateTick_grows (h : s.get .TS_STATUS_state = tsHOLDOVER ∨ s.get .TS_STATUS_state = tsFREERUN)
    (ht : t = s.advanceTo ((s.now / msUnits + 1) * msUnits)) :
    exec .uncUpdateTick s = .next (t.set .U_hold t.holdTerm).publishUnc := by
  subst ht
  rw [exec_uncUpdateTick, execUncUpdateTick]
  dsimp only
  rw [discState_advanceTo, if_pos h, State.growHold]

/-- An uncertainty beyond holdover_max ends HOLDOVER (R90). -/
theorem holdoverMaxReached_beyond (hst : s.get .TS_STATUS_state = tsHOLDOVER)
    (hmax : s.get .TS_HOLDOVER_MAX_holdover_max * 16384 < s.uDts) :
    exec .holdoverMaxReached s = .next (((s.enterDisc tsFREERUN).set .TIME_after_hold 1).evidence s none) :=
  congrArg _ (if_pos ⟨hst, hmax⟩)

/-- The predicted frequency is applied at each second since it took over (R102). -/
theorem holdoverFreqUpdate_predicted (hon : s.get .TIME_pred_on = 1) (hk : k = (s.now - s.get .TIME_pred_from) / secUnits + 1)
    (ht : t = s.advanceTo (s.get .TIME_pred_from + k * secUnits)) : exec .holdoverFreqUpdate s = .next (t.steer (t.holdFreq k)) := by
  rw [exec_holdoverFreqUpdate, execHoldoverFreqUpdate, if_pos hon, ← hk]
  dsimp only
  rw [← ht]

/-- Without a prediction the DAC of EXT_OCXO gets its frame again one second after the last (R98). -/
theorem holdoverFreqUpdate_repeats (hoff : s.get .TIME_pred_on ≠ 1) (hmode : s.get .TS_OSC_CFG_mode = 1) :
    exec .holdoverFreqUpdate s = .next ((s.advanceTo (s.get .TIME_dac_at + secUnits)).dacFrame (s.get .TIME_dac)) := by
  rw [exec_holdoverFreqUpdate, execHoldoverFreqUpdate, if_neg hoff, if_pos hmode]

/-- TS_OSC_CFG's fields of `v` but osc_20m. -/
def State.oscFields (s : State) (v : Nat) : State :=
  (((s.set .TS_OSC_CFG_learn_h (v / 4)).set .TS_OSC_CFG_dac_span_ppb (v / 256)).set .TS_OSC_CFG_dac_invert (v / 2 ^ 20)).set
    .TS_OSC_CFG_mode v

/-- A write that leaves osc_20m stores the other fields, and starts the DAC at half scale where EXT_OCXO begins with it (R61, R97). -/
theorem oscModeWrite_same (hosc : s.get .TS_OSC_CFG_mode = 0 → s.get .TS_OSC_CFG_osc_20m = v / 2 % 2) :
    exec (.oscModeWrite v) s =
      .next (if s.get .TS_OSC_CFG_mode = 0 ∧ v % 2 = 1 then (s.oscFields v).dacFrame (2 ^ 19) else s.oscFields v) := by
  have hkeep : ¬ (s.get .TS_OSC_CFG_mode = 0 ∧ s.get .TS_OSC_CFG_osc_20m ≠ v / 2 % 2) := fun h => h.2 (hosc h.1)
  rw [exec_oscModeWrite, execOscModeWrite]
  dsimp only
  rw [if_neg hkeep, State.oscFields]

end Holdover

section Learning
variable {s t : State} {l : List Nat}

/-- Each 64 s of LOCKED the correction is sampled and the line fitted over the samples of learn_h hours (R101). -/
theorem learnSample_locked (hst : s.get .TS_STATUS_state = tsLOCKED)
    (ht : t = s.advanceTo (s.get .TIME_locked_since + ((s.now - s.get .TIME_locked_since) / (64 * secUnits) + 1) * (64 * secUnits)))
    (hl : l = (s.get .TIME_freq :: s.lget .learnSamples).take (max 1 (s.get .TS_OSC_CFG_learn_h) * 3600 / 64)) :
    exec .learnSample s = .next (((t.lset .learnSamples l).set .TS_LEARN_age_rate (unsgn 24 (fitSlope l))).set .TS_LEARN_hours
      (min 127 (l.length * 64 / 3600))) := by
  have hfreq : t.get .TIME_freq = s.get .TIME_freq := by rw [ht]; exact get_advanceTo _ _ (by decide) (by decide) 0 0
  have hlearn : t.get .TS_OSC_CFG_learn_h = s.get .TS_OSC_CFG_learn_h := by rw [ht]; exact get_advanceTo _ _ (by decide) (by decide) 0 0
  have hsamples : t.lget .learnSamples = s.lget .learnSamples := by rw [ht]; exact lget_advanceTo _ _ _ 0 0
  rw [exec_learnSample, execLearnSample, if_pos hst]
  dsimp only
  rw [← ht, hfreq, hlearn, hsamples, ← hl]

/-- 6 h of LOCKED make the learned rate valid (R101). -/
theorem learnValid_locked (hst : s.get .TS_STATUS_state = tsLOCKED) :
    exec .learnValid s = .next ((s.advanceTo (s.get .TIME_locked_since + 6 * 3600 * secUnits)).set .TS_LEARN_learn_valid 1) :=
  congrArg _ (if_pos hst)

end Learning

/-- Settles O15, by the cases of each command. -/
theorem holdoverAndLearning : Obligations.HoldoverAndLearning := by
  refine ⟨fun s t => uncUpdateTick_grows, fun s => holdoverMaxReached_beyond, fun s t k => holdoverFreqUpdate_predicted,
    fun s => holdoverFreqUpdate_repeats, ?external, ?starts, fun s t l => learnSample_locked, fun s => learnValid_locked⟩
  case external =>
    intro s v hmode
    rw [oscModeWrite_same (by omega), if_neg (by omega), State.oscFields]
  case starts =>
    intro s v hmode hosc hv
    rw [oscModeWrite_same fun _ => hosc, if_pos ⟨hmode, hv⟩, State.oscFields]

end Sys2Proof.Machine
end

section
/-! SUPPORT. Laws of amber records (R108 to R116): at which boundaries PERIODIC records are issued, where the oldest record goes in the time
ring and in the log, what a fetch answers, and when a chain digest takes effect; and the statement that rests on them. -/

namespace Sys2Proof.Machine

section AmberCommands
variable (s : State) (q : Nat)

theorem exec_periodic : exec .periodic s = execPeriodic s := rfl
theorem exec_amberRingDeliver : exec .amberRingDeliver s = execAmberRingDeliver s := rfl
theorem exec_amberLogProgram : exec .amberLogProgram s = execAmberLogProgram s := rfl
theorem exec_tsAmberFetch : exec (.tsAmberFetch q) s = execTsAmberFetch q s := rfl

end AmberCommands

section Periodic
variable {s t : State} {n : Nat}

/-- With a record for every boundary so far, counter A runs to the next one, which gets its record (R108, R109). -/
theorem periodic_next (hdue : s.get .AMBER_due = s.now / secUnits) (ht : t = s.advanceTo ((s.now / secUnits + 1) * secUnits)) :
    exec .periodic s = .next ((t.secondsDue (t.now / secUnits)).set .AMBER_due (t.now / secUnits)) := by
  subst ht
  simp [exec_periodic, execPeriodic, hdue]

/-- The boundaries passed without a record get theirs (R108). -/
theorem periodic_passed (hdue : s.get .AMBER_due < s.now / secUnits) :
    exec .periodic s = .next ((s.secondsDue (s.now / secUnits)).set .AMBER_due (s.now / secUnits)) := by
  have hback : ¬ s.now / secUnits < s.get .AMBER_due := by omega
  simp [exec_periodic, execPeriodic, hdue, hback]

/-- With the attestation key there, each boundary up to second `n` that has no record gets a PERIODIC one (R108, R521). -/
theorem secondsDue_attested (hkey : s.get .ATT_on = 1) :
    s.secondsDue n = (s.each (List.range (n - s.get .AMBER_due)) (fun j t =>
      t.amberPut 4 t.offEst ((s.get .AMBER_due + 1 + j) * secUnits))).set .AMBER_due (max (s.get .AMBER_due) n) := by
  simp [State.secondsDue, hkey]

end Periodic

section Delivery
variable {s : State} {q k p : Nat} {b r : List Nat}

/-- The oldest record not delivered goes to the time ring (R112, R115). -/
theorem amberRingDeliver_oldest (h : s.lget .amberToRing = q :: r) :
    exec .amberRingDeliver s = .next ((s.lset .amberToRing r).timeRingPut (s.lget .amber 0 q)) := by
  rw [exec_amberRingDeliver, execAmberRingDeliver, h]

/-- The DT64 until which record `q` may wait for CK_XSPI: 50 ms after its issue (R529). -/
def State.logLimit (s : State) (q : Nat) : Nat := leNat (slice (s.lget .amber 0 q) 8 8) + 50 * msUnits

/-- The fate of the oldest record not programmed: forgotten with all others after a power-fail warning, lost when CK_XSPI was away too long,
else programmed as soon as CK_XSPI is there (R112, R114, R529). -/
theorem amberLogProgram_oldest (h : s.lget .amberToLog = q :: r) :
    exec .amberLogProgram s = .next (
      if s.get .AMBER_stop = 1 then s.lset .amberToLog []
      else if s.logLimit q < (if s.xspiOk then s.get .XSPI_back else s.now) then (s.lset .amberToLog r).bump .BOOT_FLASH_STAT_log_lost
      else if s.xspiOk then (s.lset .amberToLog r).logProgram (s.lget .amber 0 q)
      else s) := by
  rw [exec_amberLogProgram, execAmberLogProgram, h]
  rfl

/-- A record found in the log is replayed to the time ring (R116). -/
theorem tsAmberFetch_found (hclock : s.xspiOk = true) (hfind : s.logFind q = some k) :
    exec (.tsAmberFetch q) s = .next (s.timeRingPut (s.lget .amberLog 0 k)) := by
  simp [exec_tsAmberFetch, execTsAmberFetch, hclock, hfind]

/-- A record that is not in the log, or not to be read there, is missed (R116). -/
theorem tsAmberFetch_missed (h : s.xspiOk = false ∨ s.logFind q = none) :
    exec (.tsAmberFetch q) s = .next (s.set .TS_STATUS_fetch_miss 1) := by
  rcases h with hclock | hfind
  · simp [exec_tsAmberFetch, execTsAmberFetch, hclock]
  · simp [exec_tsAmberFetch, execTsAmberFetch, hfind]

/-- A slot of an enabled ring with room is written to the host, where the host may be written (R115, R436). -/
theorem timeRingPut_written (hp : p = s.get .TS_RING_PROD % s.ringSlots) (hon : s.get .TS_RING_CFG_enable = 1)
    (hlink : s.get .PCI_EP_CFG_link_up (s.get .TS_RING_CFG_endpoint) = 1) (hmay : s.mayIssue (s.get .TS_RING_CFG_endpoint) 2 = true)
    (hroom : (p + 1) % s.ringSlots ≠ s.get .TS_RING_CONS % s.ringSlots) :
    s.timeRingPut b = (s.hostWrite (s.get .TS_RING_CFG_endpoint) 2 (s.get .TS_RING_BASE + p * 256) (fixLen 256 b)).set
      .TS_RING_PROD ((p + 1) % s.ringSlots) := by
  have hfits : ¬ ((p + 1) % s.ringSlots = s.get .TS_RING_CONS % s.ringSlots ∨ s.mayIssue (s.get .TS_RING_CFG_endpoint) 2 = false) := by
    simp [hroom, hmay]
  rw [State.timeRingPut, ← hp, if_neg (by omega), if_neg (by omega), if_neg hfits]

/-- The last word written makes the whole digest effective, of which a REFERENCE_CHANGE record tells (R108). -/
theorem chainDigestCommit_effective {t : State} {v : Nat} (ht : t = (s.set .TS_CHAIN_DIGEST v 0 11).lset .chainDigest
    ((List.range 12).flatMap (fun j => leBytes 4 ((s.set .TS_CHAIN_DIGEST v 0 11).get .TS_CHAIN_DIGEST 0 j)))) :
    exec (.chainDigestCommit v) s = .next (t.issueAmber 3 t.offEst) := by
  subst ht
  rfl

end Delivery

/-- Settles O16, by the cases of each command. -/
theorem amberRecords : Obligations.AmberRecords := by
  refine ⟨fun s t => periodic_next, fun s => periodic_passed, fun s n => secondsDue_attested, fun s q r => amberRingDeliver_oldest,
    ?programmed, ?lost, ?stopped, fun s q k => tsAmberFetch_found, fun s q => tsAmberFetch_missed,
    fun s t v => chainDigestCommit_effective, fun s b p => timeRingPut_written⟩
  case programmed =>
    intro s q r h hstop hclock hback
    have hintime : ¬ s.logLimit q < (if s.xspiOk then s.get .XSPI_back else s.now) := by
      rw [if_pos hclock]
      exact Nat.not_lt.mpr hback
    rw [amberLogProgram_oldest h, if_neg (by omega), if_neg hintime, if_pos hclock]
  case lost =>
    intro s q r h hstop hlate
    have hpast : s.logLimit q < (if s.xspiOk then s.get .XSPI_back else s.now) := hlate
    rw [amberLogProgram_oldest h, if_neg (by omega), if_pos hpast]
  case stopped =>
    intro s q r h hstop
    rw [amberLogProgram_oldest h, if_pos hstop]

end Sys2Proof.Machine
end

section
/-! SUPPORT. Laws of the timestamp unit's calibration, of the launch gate and of the PPS outputs (R120, R130, R132, R143 to R145): what each of
the six commands comes to in each of its cases; and the statement that rests on them. -/

namespace Sys2Proof.Machine

section TimestampCommands
variable (s : State) (d p h k skew : Nat)

theorem exec_tsuCalibrate : exec (.tsuCalibrate d p) s = execTsuCalibrate d p s := rfl
theorem exec_tsuCalibrationDone : exec (.tsuCalibrationDone d p skew) s = execTsuCalibrationDone d p skew s := rfl
theorem exec_launchGateArrival : exec (.launchGateArrival d p h) s = execLaunchGateArrival d p h s := rfl
theorem exec_launchRelease : exec (.launchRelease d p) s = execLaunchRelease d p s := rfl
theorem exec_ppsOutEdge : exec (.ppsOutEdge k) s = execPpsOutEdge k s := rfl
theorem exec_ppsPulseEnd : exec (.ppsPulseEnd k) s = execPpsPulseEnd k s := rfl

end TimestampCommands

section Calibration
variable {s t : State} {d p skew : Nat}

/-- A port that is UP, with its clock there and no calibration in progress, starts the next one 60 s after the last (R120). -/
theorem tsuCalibrate_starts (hport : s.portOk d p = true) (hup : s.get .ETH_PORT_STATUS_state d p = ethUP) (hclock : s.get .TSU_tdc d ≠ 1)
    (hidle : s.get .TSU_cal_busy d p ≠ 1) (ht : t = s.advanceTo (s.get .TSU_cal_at d p + 60 * secUnits)) :
    exec (.tsuCalibrate d p) s = .next ((t.set .TSU_cal_busy 1 d p).set .TSU_cal_at t.now d p) := by
  subst ht
  simp [exec_tsuCalibrate, execTsuCalibrate, hport, hup, hclock, hidle]

theorem tsuCalibrationDone_idle (h : s.get .TSU_cal_busy d p = 0) : exec (.tsuCalibrationDone d p skew) s = .next s :=
  congrArg _ (if_pos h)

/-- A calibration in progress ends with the skew it removed, while its clock is there (R120, R121). -/
theorem tsuCalibrationDone_busy (hbusy : s.get .TSU_cal_busy d p ≠ 0) (hclock : s.get .TSU_tdc d = 0) :
    exec (.tsuCalibrationDone d p skew) s =
      .next (((s.set .TSU_cal_busy 0 d p).set .TSU_PORT_STATUS_cal_done 1 d p).set .TSU_PORT_STATUS_skew_max skew d p) := by
  simp [exec_tsuCalibrationDone, execTsuCalibrationDone, hbusy, hclock]

end Calibration

section Gate
variable {s : State} {d p h : Nat}

/-- How the gate judges a frame that waits before it, by its launch time and the replica of its IOD (R132, Table TSTP-6). -/
theorem launchGateArrival_judged {l k now : Nat} (hin : (s.lget .mac d p).contains h = true) (hgate : s.get .PKT_gate 0 h = 0)
    (hl : l = s.get .PKT_launch 0 h) (hk : k = s.get .PKT_prof 0 h) (hnow : now = s.repNow (2 + d)) :
    exec (.launchGateArrival d p h) s = .next (
      if l = 0 then s.set .PKT_gate 2 0 h
      else if now < l then
        if l ≤ now + s.launchHorizon d k then (s.set .PKT_gate 1 0 h).set .PKT_tsflags 0x08 0 h
        else (s.bump .TSU_PORT_ERR_far_dropped d p).gateDrop d p h reasonLAUNCH_FAR
      else if now ≤ l + s.get .TSU_LAUNCH_PROF_late_bound d k * 32 then s.launchLate d p h
      else if s.get .TSU_LAUNCH_PROF_late_policy d k = 1 then s.launchLate d p h
      else (s.bump .TSU_LATE_CNT_late_dropped d p).gateDrop d p h reasonLAUNCH_LATE) := by
  have hwaits : ¬ (!(s.lget .mac d p).contains h ∨ s.get .PKT_gate 0 h ≠ 0) := by simp only [hin, hgate]; decide
  subst hl hk hnow
  rw [exec_launchGateArrival, execLaunchGateArrival]
  dsimp only
  rw [if_neg hwaits]

/-- Among the frames of a list there is one of earliest launch, and that is the one found. -/
theorem firstLaunch_earliest {l : List Nat} (hne : l ≠ []) :
    ∃ g ∈ l, s.firstLaunch l = some g ∧ ∀ x ∈ l, s.get .PKT_launch 0 g ≤ s.get .PKT_launch 0 x := by
  induction l with
  | nil => exact absurd rfl hne
  | cons f r ih =>
    by_cases hr : r = []
    · subst hr
      exact ⟨f, by simp [State.firstLaunch]⟩
    · obtain ⟨g, hg, hfirst, hleast⟩ := ih hr
      simp only [State.firstLaunch, hfirst]
      by_cases hlt : s.get .PKT_launch 0 g < s.get .PKT_launch 0 f
      · exact ⟨g, List.mem_cons_of_mem f hg, if_pos hlt, List.forall_mem_cons.mpr ⟨Nat.le_of_lt hlt, hleast⟩⟩
      · refine ⟨f, List.mem_cons_self, if_neg hlt, List.forall_mem_cons.mpr ⟨Nat.le_refl _, fun x hx => ?_⟩⟩
        exact Nat.le_trans (Nat.not_lt.mp hlt) (hleast x hx)

/-- The held frame found first is released as its preamble is due, and sent unless the MAC is down or the frame's class stopped (R118, R130,
R272). -/
theorem launchRelease_first {t : State} {g : Nat} (hfirst : s.firstLaunch (s.heldFrames d p) = some g)
    (ht : t = (s.advanceRep (2 + d) ((s.launchBalls d p g).toNat - s.wireTime d 8)).set .PKT_gate 2 0 g) :
    exec (.launchRelease d p) s = .next (if t.macUp d p && !t.macStopped d p g then t.macSend d p g else t) := by
  have hpreamble : (s.launchBalls d p g - Int.ofNat (s.wireTime d 8)).toNat = (s.launchBalls d p g).toNat - s.wireTime d 8 :=
    Int.toNat_sub' _ _
  rw [ht, ← hpreamble, exec_launchRelease, execLaunchRelease, hfirst]

end Gate

section Pps
variable {s t : State} {k : Nat}

/-- An enabled output whose next label is unused uses it, to raise its edge or, squelched, to count it (R143 to R145). -/
theorem ppsOutEdge_enabled {u : State} (hon : s.get .TS_PPS_CFG_enable 0 k = 1) (hpower : s.get .PWR_fail = 0)
    (hlabel : s.get .PPS_label 0 k ≤ s.ppsNext k)
    (ht : t = s.advanceTo (Int.ofNat (s.ppsNext k * secUnits) - sgn 16 (s.get .TS_PPS_DELAY_delay 0 k)).toNat)
    (hu : u = t.set .PPS_label (s.ppsNext k + 1) 0 k) :
    exec (.ppsOutEdge k) s = .next (
      if s.get .TS_PPS_CFG_squelch_en 0 k = 1 ∧ (u.uncForced ∨ s.get .TS_PPS_CFG_squelch_unc 0 k < u.uncOf 0) then
        u.bump .TS_PPS_DELAY_squelched 0 k
      else ((u.set .PPS_high 1 0 k).set .PPS_end (u.now + ppsWidth (s.get .TS_PPS_CFG_width 0 k)) 0 k).emit .pin [k, 1]) := by
  have hkeep : ∀ {f : Field} (i : Nat), f ≠ .TS_NOW → f ≠ .TS_B → t.get f 0 i = s.get f 0 i := by
    intro f i hNow hB
    rw [ht]
    exact get_advanceTo s _ hNow hB 0 i
  have hunused : ¬ s.ppsNext k + 1 ≤ s.get .PPS_label 0 k := by omega
  rw [exec_ppsOutEdge, execPpsOutEdge]
  dsimp only
  rw [← ht]
  simp [hu, hkeep, hon, hpower, hunused]

/-- An output that is high falls when its width has elapsed (R143). -/
theorem ppsPulseEnd_high (h : s.get .PPS_high 0 k = 1) :
    exec (.ppsPulseEnd k) s = .next (((s.advanceTo (s.get .PPS_end 0 k)).set .PPS_high 0 0 k).emit .pin [k, 0]) :=
  congrArg _ (if_neg (by omega))

end Pps

/-- Settles O18, by the cases of each command; the frame released is the earliest of those held. -/
theorem timestampUnit : Obligations.TimestampUnit := by
  refine ⟨fun s t d p => tsuCalibrate_starts, fun s d p skew => tsuCalibrationDone_idle, fun s d p skew => tsuCalibrationDone_busy,
    ?gate, ?release, ?edge, fun s k => ppsPulseEnd_high⟩
  case gate =>
    intro s d p h hin hgate
    rw [launchGateArrival_judged hin hgate rfl rfl rfl]
    refine ⟨fun hnone => ?passes, fun hahead hwithin => ?held, fun hfar => ?far, fun hsome hpast hbound => ?late⟩
    case passes => rw [if_pos hnone]
    case held => rw [if_neg (by omega), if_pos hahead, if_pos hwithin]
    case far => rw [if_neg (by omega), if_pos (by omega), if_neg (by omega)]
    case late => rw [if_neg (by omega), if_neg (by omega), if_pos hbound, State.launchLate]
  case release =>
    intro s d p h hheld
    obtain ⟨g, hg, hfirst, hleast⟩ := firstLaunch_earliest (s := s) (List.ne_nil_of_mem hheld)
    refine ⟨g, hg, _, rfl, hleast, fun hup hgoes => ?sent, fun hwait => ?waits⟩
    case sent => rw [launchRelease_first hfirst rfl, if_pos (by simp [hup, hgoes])]
    case waits => rw [launchRelease_first hfirst rfl, if_neg (by rcases hwait with hdown | hstop <;> simp [*])]
  case edge =>
    intro s t k ht hon hpower hlabel
    rw [ppsOutEdge_enabled hon hpower hlabel ht rfl]
    exact ⟨fun hopen => by rw [if_neg (by omega)], fun hsquelch hforced => by rw [if_pos ⟨hsquelch, .inl hforced⟩]⟩

end Sys2Proof.Machine
end

section
/-! SUPPORT. Laws of the host time page and of PTM's dialogues (R137 to R139): what each of the four commands comes to in each of its cases, and
what a failed dialogue leaves of ptm_valid; and the statement that rests on them. -/

namespace Sys2Proof.Machine

section HostTimeCommands
variable (s : State) (e el t2 t3 : Nat)

theorem exec_timePageUpdate : exec (.timePageUpdate e) s = execTimePageUpdate e s := rfl
theorem exec_ptmDialogueStart : exec (.ptmDialogueStart e) s = execPtmDialogueStart e s := rfl
theorem exec_ptmResponse : exec (.ptmResponse e el t2 t3) s = execPtmResponse e el t2 t3 s := rfl
theorem exec_ptmTimeout : exec (.ptmTimeout e) s = execPtmTimeout e s := rfl

end HostTimeCommands

section Page
variable {s : State} {e : Nat}

/-- Without a valid pair the page waits for the next whole 1 ms of DTS (R137). -/
theorem timePageUpdate_unpaired (h : s.get .TSU_PTM_STATUS_ptm_valid e = 0) :
    exec (.timePageUpdate e) s = .next ((s.advanceTo ((s.now / msUnits + 1) * msUnits)).pageNow e) :=
  congrArg _ (if_neg (by omega))

theorem timePageUpdate_paired (h : s.get .TSU_PTM_STATUS_ptm_valid e = 1) : exec (.timePageUpdate e) s = .next (s.pageNow e) :=
  congrArg _ (if_pos h)

end Page

section Dialogue
variable {s t : State} {e el t2 t3 : Nat}

/-- The first dialogue of an endpoint that both sides enable takes t1 as its request leaves, and waits for nothing (R138). -/
theorem ptmDialogueStart_first (hfirst : s.get .PTM_busy_at e = 0) (hon : s.get .TSU_PTM_CFG_enable e = 1)
    (hhost : s.get .TSU_PTM_STATUS_ptm_enabled e = 1) (hlink : s.get .PCI_EP_CFG_link_up e = 1) :
    exec (.ptmDialogueStart e) s =
      .next ((((s.set .PTM_t1 (s.repNow (2 + e)) e).set .PTM_busy 1 e).set .PTM_busy_at s.now e).emit .pcieMsg [e, 0, 10]) := by
  simp [exec_ptmDialogueStart, execPtmDialogueStart, hfirst, hon, hhost, hlink]

/-- A response fails its dialogue when late or earlier than the master's own time allows, and else makes a pair (R138, R139). -/
theorem ptmResponse_busy (hbusy : s.get .PTM_busy e = 1) (ht : t = s.advanceTo (s.get .PTM_busy_at e + el)) :
    exec (.ptmResponse e el t2 t3) s = .next (
      if 100 * usUnits < el ∨ el < 4 * (t3 - t2) then t.ptmFail e
      else t.ptmPair e (s.get .PTM_t1 e) ((4 * t2 - (el - 4 * (t3 - t2)) / 2) / 4) ((el - 4 * (t3 - t2)) / 2)) := by
  subst ht
  exact congrArg _ (if_neg (by omega))

theorem ptmTimeout_busy (hbusy : s.get .PTM_busy e = 1) :
    exec (.ptmTimeout e) s = .next ((s.advanceTo (s.get .PTM_busy_at e + 100 * usUnits)).ptmFail e) :=
  congrArg _ (if_pos hbusy)

/-- The count of failures in a row reaches 3, the most it holds, with the third. -/
theorem bump_fails_third (h : 2 ≤ s.get .PTM_fails e) : (s.bump .PTM_fails e).get .PTM_fails e = 3 := by
  have hwidth : Field.PTM_fails.width = 2 := rfl
  rw [State.bump, State.bumpN, get_set_same, hwidth]
  omega

/-- The third failure in a row ends ptm_valid (R139). -/
theorem ptmFail_third (h : 2 ≤ s.get .PTM_fails e) : (s.ptmFail e).get .TSU_PTM_STATUS_ptm_valid e = 0 := by
  have hcounted : 2 ≤ (s.bump .TSU_PTM_STATUS_fail_count e).get .PTM_fails e := by
    rwa [State.bump, State.bumpN, get_set_field _ _ _ _ _ _ _ _ (by decide)]
  have hthree : (((s.bump .TSU_PTM_STATUS_fail_count e).bump .PTM_fails e).set .PTM_busy 0 e).get .PTM_fails e = 3 := by
    rw [get_set_field _ _ _ _ _ _ _ _ (by decide), bump_fails_third hcounted]
  rw [State.ptmFail, if_pos (Nat.le_of_eq hthree.symm), get_set_same, Nat.zero_mod]

end Dialogue

/-- Settles O19, by the cases of each command. -/
theorem hostTime : Obligations.HostTime := by
  refine ⟨fun s e => timePageUpdate_unpaired, fun s e => timePageUpdate_paired, fun s e => ptmDialogueStart_first, ?response,
    fun s e => ptmTimeout_busy, fun s e => ptmFail_third⟩
  case response =>
    intro s t e el t2 t3 hbusy ht
    rw [ptmResponse_busy hbusy ht]
    exact ⟨fun hsoon hdelay => by rw [if_neg (by omega)], fun hfails => by rw [if_pos hfails]⟩

end Sys2Proof.Machine
end

section
/-! SUPPORT. Laws of the opcodes of a cell (R151 to R153, Table STRC-7): a cell's command is what its word's operation comes to, after which
the cell goes on; a word whose predicate is 0 only goes on; and the two statements that rest on them. -/

namespace Sys2Proof.Machine

section ComputingWords
variable (s : State) (n cell h : Nat)

theorem exec_nop : exec (.nop n cell h) s = .next (s.cellDo n cell h 0x00 (fun _ s => s)) := rfl
theorem exec_setEpochHint : exec (.setEpochHint n cell h) s = .next (s.cellDo n cell h 0x34 (fun _ s => s)) := rfl
theorem exec_mov : exec (.mov n cell h) s = .next (s.alu n cell h 0x01 (fun _ b _ => b)) := rfl
theorem exec_add : exec (.add n cell h) s = .next (s.alu n cell h 0x02 (fun a b _ => a + b)) := rfl
theorem exec_sub : exec (.sub n cell h) s = .next (s.alu n cell h 0x03 (fun a b w => a + 2 ^ w - b % 2 ^ w)) := rfl
theorem exec_and : exec (.and n cell h) s = .next (s.alu n cell h 0x04 (fun a b _ => a &&& b)) := rfl
theorem exec_or : exec (.or n cell h) s = .next (s.alu n cell h 0x05 (fun a b _ => a ||| b)) := rfl
theorem exec_xor : exec (.xor n cell h) s = .next (s.alu n cell h 0x06 (fun a b _ => a ^^^ b)) := rfl
theorem exec_shl : exec (.shl n cell h) s = .next (s.alu n cell h 0x07 (fun a b _ => a * 2 ^ (b % 64))) := rfl
theorem exec_shr : exec (.shr n cell h) s = .next (s.alu n cell h 0x08 (fun a b _ => a / 2 ^ (b % 64))) := rfl
theorem exec_cmpEq : exec (.cmpEq n cell h) s = .next (s.cmp n cell h 0x09 (fun a b => decide (a = b))) := rfl
theorem exec_cmpLt : exec (.cmpLt n cell h) s = .next (s.cmp n cell h 0x0A (fun a b => decide (a < b))) := rfl

end ComputingWords

section ActingWords
variable (s : State) (n cell h : Nat)

theorem exec_hash : exec (.hash n cell h) s = execHash n cell h s := rfl
theorem exec_meter : exec (.meter n cell h) s = execMeter n cell h s := rfl
theorem exec_punt : exec (.punt n cell h) s = execPunt n cell h s := rfl
theorem exec_drop : exec (.drop n cell h) s = execDrop n cell h s := rfl
theorem exec_forward : exec (.forward n cell h) s = execForward n cell h s := rfl
theorem exec_setTsOp : exec (.setTsOp n cell h) s = execSetTsOp n cell h s := rfl

end ActingWords

section Words
variable {s u : State} {n cell h op k w a b : Nat}

/-- A word whose predicate is 0 does nothing, and its cell goes on (Table STRC-6). -/
theorem cellDo_skipped (f : Nat → State → State) (hat : s.cellAt n cell h op = some (k, w))
    (hpred : (wPredEn w && !s.pred n cell (wPred w)) = true) :
    s.cellDo n cell h op f = (s.cellBegin cell h).cellThen cell h k w := by
  rw [State.cellDo, hat]
  simp only [cellBegin_pred, hpred, if_true, State.cellThen]

/-- A word that computes from two operands writes the value to its destination (Table STRC-7). -/
theorem alu_ready (f : Nat → Nat → Nat → Nat) (hready : s.cellReady n cell h op k w) (hu : u = s.cellBegin cell h)
    (ha : a = u.opA cell h w) (hb : b = u.opB cell h w) :
    s.alu n cell h op f = ((u.cellPut cell h (wD w) (wWidth w) (f a b (wWidth w))).opDrawn w).cellThen cell h k w := by
  rw [State.alu, cellDo_ready _ hready, hb, ha, hu]

/-- A word that compares two operands writes the predicate that it selects (Table STRC-7). -/
theorem cmp_ready (f : Nat → Nat → Bool) (hready : s.cellReady n cell h op k w) (hu : u = s.cellBegin cell h)
    (ha : a = u.opA cell h w) (hb : b = u.opB cell h w) :
    s.cmp n cell h op f = ((u.setb .CELL_pred (wPred w) (f a b) n cell).opDrawn w).cellThen cell h k w := by
  rw [State.cmp, cellDo_ready _ hready, hb, ha, hu]

end Words

/-- Settles O22: each opcode is one operation on the word's operands, and a word whose predicate is 0 is passed over. -/
theorem cellArithmetic : Obligations.CellArithmetic := by
  intro s u n cell h k w a b hu ha hb
  refine ⟨?nop, ?hint, ?mov, ?add, ?sub, ?and, ?or, ?xor, ?shl, ?shr, ?cmpEq, ?cmpLt, ?skipped⟩
  case nop => exact fun hready => by rw [exec_nop, cellDo_ready _ hready, hu]
  case hint => exact fun hready => by rw [exec_setEpochHint, cellDo_ready _ hready, hu]
  case mov => exact fun hready => by rw [exec_mov, alu_ready _ hready hu ha hb]
  case add => exact fun hready => by rw [exec_add, alu_ready _ hready hu ha hb]
  case sub => exact fun hready => by rw [exec_sub, alu_ready _ hready hu ha hb]
  case and => exact fun hready => by rw [exec_and, alu_ready _ hready hu ha hb]
  case or => exact fun hready => by rw [exec_or, alu_ready _ hready hu ha hb]
  case xor => exact fun hready => by rw [exec_xor, alu_ready _ hready hu ha hb]
  case shl => exact fun hready => by rw [exec_shl, alu_ready _ hready hu ha hb]
  case shr => exact fun hready => by rw [exec_shr, alu_ready _ hready hu ha hb]
  case cmpEq => exact fun hready => by rw [exec_cmpEq, cmp_ready _ hready hu ha hb]
  case cmpLt => exact fun hready => by rw [exec_cmpLt, cmp_ready _ hready hu ha hb]
  case skipped => exact fun hat hpred => by rw [exec_add, State.alu, cellDo_skipped _ hat hpred, hu]

/-- Settles O23: each opcode is one operation on the packet, applied to the word's operand A. -/
theorem cellActions : Obligations.CellActions := by
  rintro s _ n cell h k w _ rfl rfl
  refine ⟨?hash, ?meter, ?punt, ?drop, ?forward, ?setTsOp⟩
  case hash => exact fun hready => by rw [exec_hash, execHash, cellDo_ready _ hready]
  case meter => exact fun hready => by rw [exec_meter, execMeter, cellDo_ready _ hready]
  case punt => exact fun hready => by rw [exec_punt, execPunt, cellDo_ready _ hready]
  case drop => exact fun hready => by rw [exec_drop, execDrop, cellDo_ready _ hready]
  case forward => exact fun hready => by rw [exec_forward, execForward, cellDo_ready _ hready]
  case setTsOp => exact fun hready => by rw [exec_setTsOp, execSetTsOp, cellDo_ready _ hready]

end Sys2Proof.Machine
end

section
/-! SUPPORT. Laws of lookups and learning by a cell (R169, R219 to R221, R234, R244): what a lookup of an exact-match table comes to in each of
its cases; what learning and a TCAM lookup do with the table that the packet's context names; and the statement that rests on
them. -/

namespace Sys2Proof.Machine

section TableOpcodes
variable (s : State) (n cell h : Nat) (bad lost : List Nat)

theorem exec_lookupEm : exec (.lookupEm n cell h) s = execLookupEm n cell h s := rfl
theorem exec_learn : exec (.learn n cell h) s = execLearn n cell h s := rfl
theorem exec_lookupTcam : exec (.lookupTcam n cell h bad lost) s = execLookupTcam n cell h bad lost s := rfl

end TableOpcodes

section Lookup
variable {u : State} {n cell h w ti key x : Nat}

/-- An entry found at an online place gives its port and value, and is not touched where touch_on_hit is 0 (R219, R220). -/
theorem emLookup_hit (hti : u.pktTi h (wRef w) = some ti) (hkey : key = u.cellKey cell h (wA w) (layKey (u.lay ti)))
    (hup : u.placeUp (lookupPlace (u.lay ti) n key) = true) (hage : layFlag (u.lay ti) 1 = false)
    (hfind : u.emFind (lookupPlace (u.lay ti) n key) (u.emLive ti) (layKey (u.lay ti)) key = some x) :
    u.emLookup n cell h w = (u.cellRes n cell (wRes w) 1).cellPut cell h (4096 + 512) 256
      (1 + bitsOf (u.exe (lookupPlace (u.lay ti) n key) (u.emLive ti) x) 4 5 * 4 +
        exeVal (u.lay ti) (u.exe (lookupPlace (u.lay ti) n key) (u.emLive ti) x) * 2 ^ 32) := by
  subst hkey
  rw [State.emLookup, hti]
  dsimp only
  rw [if_pos hup, hfind]
  dsimp only
  rw [hage, Bool.false_and, when_false]

/-- A key without an entry at its online place is a miss (R219). -/
theorem emLookup_miss (hti : u.pktTi h (wRef w) = some ti) (hkey : key = u.cellKey cell h (wA w) (layKey (u.lay ti)))
    (hup : u.placeUp (lookupPlace (u.lay ti) n key) = true)
    (hfind : u.emFind (lookupPlace (u.lay ti) n key) (u.emLive ti) (layKey (u.lay ti)) key = none) :
    u.emLookup n cell h w = (u.cellRes n cell (wRes w) 0).cellPut cell h (4096 + 512) 256 0 := by
  subst hkey
  simp only [State.emLookup, hti, if_pos hup, hfind]

/-- A key whose place is offline is a counted miss with the shard-down status (R221). -/
theorem emLookup_shardDown (hti : u.pktTi h (wRef w) = some ti) (hkey : key = u.cellKey cell h (wA w) (layKey (u.lay ti)))
    (hdown : u.placeUp (lookupPlace (u.lay ti) n key) = false) :
    u.emLookup n cell h w =
      ((u.cellRes n cell (wRes w) 2).cellPut cell h (4096 + 512) 256 2).bump .EXM_REGION_CNT_shard_down_miss n := by
  subst hkey
  simp only [State.emLookup, hti, hdown, Bool.false_eq_true, if_false]

end Lookup

section OtherTables
variable {s u : State} {n cell h k w ti : Nat}

/-- A packet whose context names the live table learns; one of the old epoch only counts a stale learn (R169, R234). -/
theorem learn_ready (hready : s.cellReady n cell h 0x22 k w) (hu : u = s.cellBegin cell h) (hti : u.pktTi h (wRef w) = some ti) :
    exec (.learn n cell h) s = .next (
      (if u.liveTi (wRef w) = some ti then u.emLearn (wRef w) ti (u.cellKey cell h (wA w) (layKey (u.lay ti)))
        (u.cellKey cell h (wB w) (layVal (u.lay ti))) (u.pktInPort h)
      else u.bump .STR_DROP_CNT_stale_learns).cellThen cell h k w) := by
  rw [exec_learn, execLearn, cellDo_ready _ hready, ← hu]
  simp only [hti]

/-- A TCAM lookup searches the table once the moves that are due have ended, and shows the result as the word says (R244, log entry 160). -/
theorem lookupTcam_ready {m v : State} {r : TcHit} {bad lost : List Nat} (hready : s.cellReady n cell h 0x21 k w)
    (hu : u = s.cellBegin cell h) (hti : u.pktTi h (wRef w) = some ti) (hm : m = u.movesDue 8)
    (hsearch : m.tcSearch (fun _ _ => true) n ti (m.tcCellKey cell h w (m.lay ti)) (m.pktTenant h) bad lost false 3 = (v, r)) :
    exec (.lookupTcam n cell h bad lost) s = .next (((v.cellRes n cell (wRes w)
      (b2n r.unit.isSome + 2 * b2n r.multi + 4 * b2n r.failed)).cellPut cell h (4096 + 768) 112 (v.tcMeta n r)).cellThen cell h k w) := by
  rw [exec_lookupTcam, execLookupTcam, cellDo_ready _ hready, ← hu]
  simp only [hti, ← hm, hsearch]

end OtherTables

/-- Settles O29, by the cases of each opcode. -/
theorem cellTables : Obligations.CellTables := by
  intro s u n cell h k w hu
  refine ⟨?lookup, fun ti key x => emLookup_hit, fun ti key => emLookup_miss, fun ti key => emLookup_shardDown, ?learns, ?stale, ?tcam⟩
  case lookup => exact fun hready => by rw [exec_lookupEm, execLookupEm, cellDo_ready _ hready, hu]
  case learns => exact fun hready ti hti hlive => by rw [learn_ready hready hu hti, if_pos hlive]
  case stale => exact fun hready ti hti hstale => by rw [learn_ready hready hu hti, if_neg hstale]
  case tcam => exact fun hready bad lost ti m v r hti hm hsearch => lookupTcam_ready hready hu hti hm hsearch

end Sys2Proof.Machine
end

section
/-! SUPPORT. Laws of the structure commands that verify and load an image (R157 to R159, R167, R168, R174): what a finished or an accepted
command shows in STR_CMD_STATUS, when each command starts, and what the reading of a slot's image comes to, which STAGE and COLD_APPLY share;
and the statement that rests on them. -/

namespace Sys2Proof.Machine

section LoadCommands
variable (s : State) (slot : Nat)

theorem exec_stage : exec .stage s = execStage s := rfl
theorem exec_stageComplete : exec .stageComplete s = execStageComplete s := rfl
theorem exec_coldApply : exec (.coldApply slot) s = execColdApply slot s := rfl
theorem exec_coldApplyLoad : exec .coldApplyLoad s = execColdApplyLoad s := rfl
theorem exec_commit : exec .commit s = execCommit s := rfl
theorem exec_strAbort : exec .strAbort s = execStrAbort s := rfl

end LoadCommands

section Status
variable (s : State) (op result detail : Nat)

/-- A busy command register answers BUSY and changes nothing (R157). -/
theorem strCmd_busy {s : State} (f : State → State) (h : s.get .STR_CMD_STATUS_busy = 1) : s.strCmd f = s.answer [1] := if_pos h

theorem strCmd_idle {s : State} (f : State → State) (h : s.get .STR_CMD_STATUS_busy = 0) : s.strCmd f = f s := if_neg (by omega)

@[simp] theorem strDone_busy : (s.strDone op result detail).get .STR_CMD_STATUS_busy = 0 := by simp [State.strDone]

@[simp] theorem strDone_lastOp : (s.strDone op result detail).get .STR_CMD_STATUS_last_op = op % 16 := by
  have hwidth : Field.STR_CMD_STATUS_last_op.width = 4 := rfl
  simp [State.strDone, hwidth]

@[simp] theorem strDone_result : (s.strDone op result detail).get .STR_CMD_STATUS_result = result % 256 := by
  have hwidth : Field.STR_CMD_STATUS_result.width = 8 := rfl
  simp [State.strDone, hwidth]

@[simp] theorem strDone_cold : (s.strDone op result detail).get .STR_cold = s.get .STR_cold := by simp [State.strDone]

end Status

section Starts
variable {s : State} {v slot : Nat}

/-- STAGE starts where the manifest stands and at most a block's hash fails, which is for its completion to tell (R158, R159). -/
theorem stage_judged (hidle : s.get .STR_CMD_STATUS_busy = 0) (hstable : s.regionsIn 0xFF (fun st => decide (st = 0)) = true)
    (himage : s.get .STR_SLOT_empty 0 2 = 0) (hflash : s.flashOk = true)
    (hv : v = (s.imageValid (s.lget .partManifest 0 (s.slotPart 2)) (s.slotImg 2) 3 0x2000000).1) :
    exec .stage s = .next (if v = 0 ∨ v = 6 then s.strBusy 1 else (s.strDone 1 4 0).set .STR_EVENTS_stage_fail 1) := by
  subst hv
  rw [exec_stage, execStage, strCmd_idle _ hidle]
  simp only [hstable, himage, hflash, Bool.not_true, Bool.false_eq_true, if_false, Nat.zero_ne_one, ← not_or, ite_not]

/-- COLD_APPLY of a slot that holds an image starts the drain of every region (R174). -/
theorem coldApply_starts (hslot : slot < 2) (hidle : s.get .STR_CMD_STATUS_busy = 0)
    (hstable : s.regionsIn 0xFF (fun st => decide (st = 0)) = true) (himage : s.get .STR_SLOT_empty 0 (2 - slot) = 0)
    (hflash : s.flashOk = true) :
    exec (.coldApply slot) s = .next ((((s.strBusy 6).set .STR_cold 1).set .STR_cold_slot slot).each (List.range 8)
      (fun n s => s.set .STR_drain_from s.now 0 n)) := by
  have hplace : (if slot = 0 then 2 else 1) = 2 - slot := by split <;> omega
  rw [exec_coldApply, execColdApply, strCmd_idle _ hidle]
  simp only [hstable, hplace, himage, hflash, Bool.not_true, Bool.false_eq_true, if_false, Nat.zero_ne_one]

end Starts

/-- What reading the image of slot `k` comes to: the result and detail that reject it, or the state with its tables made (R158, R159, R167,
R168). -/
def State.imageTables (s : State) (k : Nat) (stage : Bool) : Except (Nat × Nat) State :=
  match s.imageVerify k stage with
  | some r => .error r
  | none =>
    if (carriedTables s.activeSecs (secsOf (s.slotImg k))).all (s.initFits (secsOf (s.slotImg k))) then
      match s.makeTables s.activeSecs (secsOf (s.slotImg k)) (rebuiltTables s.activeSecs (secsOf (s.slotImg k))) with
      | none => .error (8, 0)
      | some s1 => .ok s1
    else .error (8, 0)

/-- How STAGE completes with what the reading of STAGED came to (R158). -/
def State.stageEnd (s : State) : Except (Nat × Nat) State → State
  | .error r => (s.strDone 1 r.1 r.2).set .STR_EVENTS_stage_fail 1
  | .ok s1 => s1.stageLoad s.activeSecs (secsOf (s.slotImg 2)) (s.newTi s.activeSecs (secsOf (s.slotImg 2)))

/-- How COLD_APPLY of slot `k` ends with what the reading of its image came to (R174). -/
def State.coldEnd (s : State) (k : Nat) : Except (Nat × Nat) State → State
  | .error r => (((s.strDone 6 r.1 r.2).set .STR_EVENTS_stage_fail 1).set .STR_EVENTS_cold_fallback 1).set .STR_cold 0
  | .ok s1 => s1.coldLoad s.activeSecs (secsOf (s.slotImg k)) (s.newTi s.activeSecs (secsOf (s.slotImg k))) k

section Reading
variable {s s1 : State} {k : Nat} {stage : Bool} {r : Nat × Nat}

theorem imageTables_rejected (h : s.imageVerify k stage = some r) : s.imageTables k stage = .error r := by
  simp only [State.imageTables, h]

theorem imageTables_unplaced (h : s.imageVerify k stage = none)
    (hfits : (carriedTables s.activeSecs (secsOf (s.slotImg k))).all (s.initFits (secsOf (s.slotImg k))) = false) :
    s.imageTables k stage = .error (8, 0) := by
  simp only [State.imageTables, h, hfits, Bool.false_eq_true, if_false]

theorem imageTables_made (h : s.imageVerify k stage = none)
    (hfits : (carriedTables s.activeSecs (secsOf (s.slotImg k))).all (s.initFits (secsOf (s.slotImg k))) = true)
    (hmade : s.makeTables s.activeSecs (secsOf (s.slotImg k)) (rebuiltTables s.activeSecs (secsOf (s.slotImg k))) = some s1) :
    s.imageTables k stage = .ok s1 := by
  simp only [State.imageTables, h, if_pos hfits, hmade]

end Reading

section Ends
variable {s : State} (s1 : State) (act l : List Sec) (ti : Nat → Nat) {k : Nat} {x : Except (Nat × Nat) State}

/-- A load by STAGE ends as command 1 done without an error (R158). -/
theorem stageLoad_done : ∃ u : State, s1.stageLoad act l ti = u.strDone 1 0 0 := ⟨_, rfl⟩

/-- A load by COLD_APPLY ends its drain, and command 6 done without an error (R174). -/
theorem coldLoad_done : ∃ u : State, s1.coldLoad act l ti k = (u.set .STR_cold 0).strDone 6 0 0 := ⟨_, rfl⟩

theorem stageLoad_result : (s1.stageLoad act l ti).get .STR_CMD_STATUS_result = 0 := by
  obtain ⟨u, hu⟩ := stageLoad_done s1 act l ti
  simp [hu]

theorem coldLoad_result : (s1.coldLoad act l ti k).get .STR_CMD_STATUS_result = 0 := by
  obtain ⟨u, hu⟩ := coldLoad_done (k := k) s1 act l ti
  simp [hu]

/-- STAGE completes with its command done, whatever became of the image. -/
theorem stageEnd_status : (s.stageEnd x).get .STR_CMD_STATUS_busy = 0 ∧ (s.stageEnd x).get .STR_CMD_STATUS_last_op = 1 := by
  cases x with
  | error r => simp [State.stageEnd]
  | ok s1 =>
    obtain ⟨u, hu⟩ := stageLoad_done s1 s.activeSecs (secsOf (s.slotImg 2)) (s.newTi s.activeSecs (secsOf (s.slotImg 2)))
    simp [State.stageEnd, hu]

/-- COLD_APPLY ends with its command done and its drain over, whatever became of the image. -/
theorem coldEnd_status : (s.coldEnd k x).get .STR_CMD_STATUS_busy = 0 ∧ (s.coldEnd k x).get .STR_CMD_STATUS_last_op = 6 ∧
    (s.coldEnd k x).get .STR_cold = 0 := by
  cases x with
  | error r => simp [State.coldEnd]
  | ok s1 =>
    obtain ⟨u, hu⟩ := coldLoad_done (k := k) s1 s.activeSecs (secsOf (s.slotImg k)) (s.newTi s.activeSecs (secsOf (s.slotImg k)))
    simp [State.coldEnd, hu]

/-- STAGE completes with what the reading of STAGED comes to (R158). -/
theorem stageComplete_ends (hbusy : s.get .STR_CMD_STATUS_busy = 1) (hop : s.get .STR_CMD_STATUS_last_op = 1) :
    exec .stageComplete s = .next (s.stageEnd (s.imageTables 2 true)) := by
  rw [exec_stageComplete, execStageComplete, if_neg (by omega), State.imageTables]
  rcases hverify : s.imageVerify 2 true with _ | r
  · dsimp only
    cases hfits : (carriedTables s.activeSecs (secsOf (s.slotImg 2))).all (s.initFits (secsOf (s.slotImg 2)))
    · rfl
    · rcases hmade : s.makeTables s.activeSecs (secsOf (s.slotImg 2)) (rebuiltTables s.activeSecs (secsOf (s.slotImg 2))) with _ | s1
      · rfl
      · rfl
  · rfl

/-- Once no packet is left, COLD_APPLY ends with what the reading of its slot's image comes to (R174). -/
theorem coldApplyLoad_ends (hbusy : s.get .STR_CMD_STATUS_busy = 1) (hop : s.get .STR_CMD_STATUS_last_op = 6)
    (hcold : s.get .STR_cold = 1) (hempty : ∀ n < 8, s.get .REG_pop n 0 = 0 ∧ s.get .REG_pop n 1 = 0)
    (hk : k = if s.get .STR_cold_slot = 0 then 2 else 1) :
    exec .coldApplyLoad s = .next (s.coldEnd k (s.imageTables k false)) := by
  have hleft : ¬ (List.range 8).any (fun n => decide (s.get .REG_pop n 0 ≠ 0 ∨ s.get .REG_pop n 1 ≠ 0)) = true := by
    rw [List.any_eq_true]
    rintro ⟨n, hn, hkept⟩
    obtain ⟨hfirst, hsecond⟩ := hempty n (List.mem_range.mp hn)
    exact (of_decide_eq_true hkept).elim (· hfirst) (· hsecond)
  rw [exec_coldApplyLoad, execColdApplyLoad, if_neg (by omega), if_neg hleft, State.imageTables]
  dsimp only
  rw [← hk]
  rcases hverify : s.imageVerify k false with _ | r
  · dsimp only
    cases hfits : (carriedTables s.activeSecs (secsOf (s.slotImg k))).all (s.initFits (secsOf (s.slotImg k)))
    · rfl
    · rcases hmade : s.makeTables s.activeSecs (secsOf (s.slotImg k)) (rebuiltTables s.activeSecs (secsOf (s.slotImg k))) with _ | s1
      · rfl
      · rfl
  · rfl

end Ends

/-- Settles O20: STAGE and COLD_APPLY end with what the reading of the slot's image comes to. -/
theorem structureLoad : Obligations.StructureLoad := by
  refine ⟨?busy, fun s v => stage_judged, ?stage, fun s slot => coldApply_starts, ?cold⟩
  case busy =>
    intro s hbusy
    simp only [exec_stage, execStage, exec_commit, execCommit, exec_strAbort, execStrAbort, strCmd_busy _ hbusy, and_self]
  case stage =>
    intro s hbusy hop
    refine ⟨_, stageComplete_ends hbusy hop, stageEnd_status.1, stageEnd_status.2, fun r d hrejected => ?_, fun hread hfits => ?_,
      fun s1 hread hfits hmade => ?_⟩
    · rw [imageTables_rejected hrejected, State.stageEnd]
    · rw [imageTables_unplaced hread hfits, State.stageEnd]
    · rw [imageTables_made hread hfits hmade, State.stageEnd]
      exact ⟨rfl, stageLoad_result _ _ _ _⟩
  case cold =>
    intro s k hbusy hop hcold hempty hk
    obtain ⟨hidle, hlast, hover⟩ := coldEnd_status (s := s) (k := k) (x := s.imageTables k false)
    refine ⟨_, coldApplyLoad_ends hbusy hop hcold hempty hk, hidle, hlast, hover, fun r d hrejected => ?_, fun hread hfits => ?_,
      fun s1 hread hfits hmade => ?_⟩
    · rw [imageTables_rejected hrejected, State.coldEnd]
    · rw [imageTables_unplaced hread hfits, State.coldEnd]
    · rw [imageTables_made hread hfits hmade, State.coldEnd]
      exact ⟨rfl, coldLoad_result _ _ _ _⟩

end Sys2Proof.Machine
end

section
/-! SUPPORT. Laws of the structure commands that change over, keep or forget a staged image (R160 to R166, R170 to R177): what each command and
each event of a region comes to in each of its cases; and the statement that rests on them. -/

namespace Sys2Proof.Machine

section SwapCommands
variable (s : State) (mask n : Nat)

theorem exec_swap : exec (.swap mask) s = execSwap mask s := rfl
theorem exec_epochFlip : exec .epochFlip s = execEpochFlip s := rfl
theorem exec_rollback : exec (.rollback mask) s = execRollback mask s := rfl
theorem exec_epochFlipBack : exec .epochFlipBack s = execEpochFlipBack s := rfl
theorem exec_regionDrained : exec (.regionDrained n) s = execRegionDrained n s := rfl
theorem exec_drainLimitExpiry : exec (.drainLimitExpiry n) s = execDrainLimitExpiry n s := rfl
theorem exec_drainBackRewriteDone : exec (.drainBackRewriteDone n) s = execDrainBackRewriteDone n s := rfl
theorem exec_commitWatchdogExpiry : exec .commitWatchdogExpiry s = execCommitWatchdogExpiry s := rfl

end SwapCommands

section Accepted
variable {s : State} {mask : Nat}

/-- SWAP of loaded regions that splits no table and changes no common section waits for its instant, at least 10 µs off (R160, R163, R164). -/
theorem swap_starts (hidle : s.get .STR_CMD_STATUS_busy = 0) (hloaded : s.regionsIn mask (fun st => decide (st = 1)) = true)
    (hwhole : shardSplit s.activeSecs (secsOf (s.slotImg 2)) mask = false)
    (hcommon : commonDiffers s.activeSecs (secsOf (s.slotImg 2)) = false) (hnear : s.get .STR_SWAP_AT ≤ s.now + secUnits) :
    exec (.swap mask) s =
      .next (((s.strBusy 2).set .STR_mask_req mask).set .STR_flip_at (max (s.get .STR_SWAP_AT) (s.now + 10 * usUnits))) := by
  rw [exec_swap, execSwap, strCmd_idle _ hidle]
  simp only [hloaded, hwhole, hcommon, Bool.not_true, Bool.false_and, Bool.false_eq_true, if_false, if_neg (Nat.not_lt.mpr hnear)]

/-- ROLLBACK of regions that run the new image waits for 10 µs (R170). -/
theorem rollback_starts (hidle : s.get .STR_CMD_STATUS_busy = 0)
    (hnew : s.regionsIn mask (fun st => decide (st = 2 ∨ st = 3)) = true)
    (hcommon : commonDiffers s.activeSecs (secsOf (s.slotImg 2)) = false) :
    exec (.rollback mask) s =
      .next ((((s.strBusy 3).set .STR_mask_req mask).set .STR_flip_at (s.now + 10 * usUnits)).set .STR_wd 0) := by
  rw [exec_rollback, execRollback, strCmd_idle _ hidle]
  simp only [hnew, hcommon, Bool.not_true, Bool.false_and, Bool.false_eq_true, if_false]

theorem epochFlip_due (hbusy : s.get .STR_CMD_STATUS_busy = 1) (hop : s.get .STR_CMD_STATUS_last_op = 2) :
    exec .epochFlip s = .next s.flipForward :=
  congrArg _ (if_neg (by omega))

theorem epochFlipBack_due (hbusy : s.get .STR_CMD_STATUS_busy = 1) (hop : s.get .STR_CMD_STATUS_last_op = 3) :
    exec .epochFlipBack s = .next s.flipBack :=
  congrArg _ (if_neg (by omega))

/-- COMMIT keeps the change once every changed region is SWAPPED (R171). -/
theorem commit_keeps (hidle : s.get .STR_CMD_STATUS_busy = 0) (hstaged : s.get .STR_STATUS_staged_valid = 1)
    (hswapped : s.regionsIn (s.get .STR_STATUS_changed_mask) (fun st => decide (st = 3)) = true) :
    exec .commit s = .next (s.commitEnd (s.get .STR_STATUS_changed_mask)) := by
  rw [exec_commit, execCommit, strCmd_idle _ hidle]
  simp only [hstaged, hswapped, Nat.one_ne_zero, Bool.not_true, Bool.false_eq_true, if_false]

/-- ABORT forgets the change while every region is STABLE or LOADED (R172). -/
theorem strAbort_forgets (hidle : s.get .STR_CMD_STATUS_busy = 0)
    (hunswapped : s.regionsIn 0xFF (fun st => decide (st = 0 ∨ st = 1)) = true) : exec .strAbort s = .next s.abortEnd := by
  rw [exec_strAbort, execStrAbort, strCmd_idle _ hidle]
  simp only [hunswapped, Bool.not_true, Bool.false_eq_true, if_false]

end Accepted

section Regions
variable {s : State} {n : Nat}

theorem regionDrained_empty (hdrain : s.get .STR_REGION_STATE_state 0 n = 2 ∨ s.get .STR_REGION_STATE_state 0 n = 4)
    (hempty : s.get .REG_pop n (1 - s.get .STR_REGION_STATE_epoch 0 n) = 0) : exec (.regionDrained n) s = .next (s.drainEnd n) :=
  congrArg _ (if_pos ⟨hdrain, hempty⟩)

/-- At the drain limit of a region outside COLD_APPLY the packets of its old epoch are dropped, and its drain ends (R165). -/
theorem drainLimitExpiry_drops {t u : State} (hdrain : s.get .STR_REGION_STATE_state 0 n = 2 ∨ s.get .STR_REGION_STATE_state 0 n = 4)
    (ht : t = s.advanceTo (s.get .STR_drain_from 0 n + max 100 (s.get .STR_DRAIN_LIMIT_limit_us) * usUnits))
    (hleft : s.get .REG_pop n (1 - s.get .STR_REGION_STATE_epoch 0 n) ≠ 0)
    (hu : u = (t.set .STR_EVENTS_drain_expired 1).dropEpoch n (1 - s.get .STR_REGION_STATE_epoch 0 n) reasonEPOCH_EXPIRED
      (fun s => s.bump .STR_DROP_CNT_epoch_expired)) (hcold : u.get .STR_cold = 0) :
    exec (.drainLimitExpiry n) s = .next (u.drainEnd n) := by
  have hkept : t.get .REG_pop n (1 - s.get .STR_REGION_STATE_epoch 0 n) ≠ 0 := by
    rwa [ht, get_advanceTo _ _ (by decide) (by decide)]
  have hexpired : (decide (t.get .REG_pop n (1 - s.get .STR_REGION_STATE_epoch 0 n) ≠ 0) ||
      (decide (t.get .STR_cold = 1) && decide (t.get .REG_pop n (s.get .STR_REGION_STATE_epoch 0 n) ≠ 0))) = true := by
    rw [decide_eq_true hkept, Bool.true_or]
  have hwarm : decide (u.get .STR_cold = 1) = false := decide_eq_false (by omega)
  rw [exec_drainLimitExpiry, execDrainLimitExpiry, if_pos (by omega)]
  dsimp only
  rw [← ht, hexpired, when_true, ← hu, hwarm, when_false]

/-- A region in DRAIN_BACK waits while a packet uses one of its rebuilt tables (R170). -/
theorem drainBackRewriteDone_waits (h : ∃ x ∈ s.rebuiltIn n, s.newInUse x = true) :
    exec (.drainBackRewriteDone n) s = .next s :=
  congrArg _ (if_pos (.inr (.inr (List.any_eq_true.mpr h))))

/-- A rewritten region without rebuilt tables is LOADED again (R170, Table STRC-11). -/
theorem drainBackRewriteDone_loaded (hback : s.get .STR_REGION_STATE_state 0 n = 4) (hwrite : s.get .STR_rewrite 0 n = 1)
    (hnone : s.rebuiltIn n = []) :
    exec (.drainBackRewriteDone n) s = .next ((s.set .STR_rewrite 0 0 n).set .STR_REGION_STATE_state 1 0 n).strMasks := by
  rw [exec_drainBackRewriteDone, execDrainBackRewriteDone, hnone, if_neg (by simp [hback, hwrite])]
  dsimp only [each_nil]

/-- The watchdog rolls every swapped region back, as ROLLBACK does, and waits for the next SWAP (R173). -/
theorem commitWatchdogExpiry_rollsBack {t : State} (hrunning : s.get .STR_STATUS_wdog_running = 1) (hidle : s.get .STR_CMD_STATUS_busy = 0)
    (ht : t = ((s.advanceTo (s.get .STR_wdog_at)).wdogStop).set .STR_EVENTS_wdog_rollback 1) :
    exec .commitWatchdogExpiry s = .next ((((t.strBusy 3).set .STR_mask_req (s.get .STR_STATUS_swapped_mask)).set .STR_flip_at
      (t.now + 10 * usUnits)).set .STR_wd 1) := by
  rw [exec_commitWatchdogExpiry, execCommitWatchdogExpiry, if_neg (by omega)]
  dsimp only
  rw [← ht, get_advanceTo _ _ (by decide) (by decide)]

end Regions

section Done
variable (s : State) (mask : Nat)

/-! Each of the four commands ends as one done without an error. -/

theorem commitEnd_done : ∃ u : State, s.commitEnd mask = u.strDone 4 0 0 := ⟨_, rfl⟩
theorem abortEnd_done : ∃ u : State, s.abortEnd = u.strDone 5 0 0 := ⟨_, rfl⟩
theorem flipForward_done : ∃ u : State, s.flipForward = u.strDone 2 0 0 := ⟨_, rfl⟩
theorem flipBack_done : ∃ u : State, s.flipBack = u.strDone 3 0 0 := ⟨_, rfl⟩

end Done

/-- Settles O21, by the cases of each command and event. -/
theorem structureSwap : Obligations.StructureSwap := by
  refine ⟨fun s mask => swap_starts, fun s => epochFlip_due, fun s mask => rollback_starts, fun s => epochFlipBack_due,
    fun s => commit_keeps, fun s => strAbort_forgets, fun s n => regionDrained_empty, ?limit, ?rewrite,
    fun s t => commitWatchdogExpiry_rollsBack, ?done⟩
  case limit => exact fun s t n hdrain _ ht hleft u hu hcold => drainLimitExpiry_drops hdrain ht hleft hu hcold
  case rewrite => exact fun s n hback hwrite => ⟨drainBackRewriteDone_loaded hback hwrite, drainBackRewriteDone_waits⟩
  case done =>
    intro s m
    obtain ⟨u, hcommit⟩ := commitEnd_done s m
    obtain ⟨v, habort⟩ := abortEnd_done s
    obtain ⟨x, hforward⟩ := flipForward_done s
    obtain ⟨y, hback⟩ := flipBack_done s
    rw [hcommit, habort, hforward, hback]
    exact ⟨strDone_result _ _ _ _, strDone_result _ _ _ _, strDone_busy _ _ _ _, strDone_busy _ _ _ _⟩

end Sys2Proof.Machine
end

section
/-! SUPPORT. Laws of bit fields (R188): a field that is written reads its new value, a field that it does not overlap reads its old one; how
an operand lies in the vector or in the metadata; and the statement that rests on them. -/

namespace Sys2Proof.Machine

section Fields
variable {n lo w v : Nat}

@[simp] theorem bitsOf_zero_width (n lo : Nat) : bitsOf n lo 0 = 0 := Nat.mod_one _

theorem testBit_bitsOf (n lo w k : Nat) : (bitsOf n lo w).testBit k = (decide (k < w) && n.testBit (lo + k)) := by
  rw [bitsOf, Nat.testBit_mod_two_pow, Nat.testBit_div_two_pow, Nat.add_comm]

/-- A number with a field replaced, as what stands below the field, the field and what stands above it. -/
theorem putBits_eq_nested (n lo w v : Nat) :
    putBits n lo w v = 2 ^ lo * (2 ^ w * (n / 2 ^ (lo + w)) + v % 2 ^ w) + n % 2 ^ lo := by
  rw [putBits, Nat.pow_add, Nat.mul_add]; ac_rfl

/-- A bit after the write of a field: below the field and above it the old number's, inside it the written value's. -/
theorem testBit_putBits (n lo w v k : Nat) :
    (putBits n lo w v).testBit k = if lo ≤ k ∧ k < lo + w then v.testBit (k - lo) else n.testBit k := by
  have hlow : n % 2 ^ lo < 2 ^ lo := Nat.mod_lt _ (Nat.two_pow_pos _)
  have hfield : v % 2 ^ w < 2 ^ w := Nat.mod_lt _ (Nat.two_pow_pos _)
  rw [putBits_eq_nested, Nat.testBit_two_pow_mul_add _ hlow, Nat.testBit_two_pow_mul_add _ hfield]
  rcases Nat.lt_or_ge k lo with hbelow | hge
  · have hout : ¬ (lo ≤ k ∧ k < lo + w) := by omega
    rw [if_pos hbelow, if_neg hout, Nat.testBit_mod_two_pow, decide_eq_true hbelow, Bool.true_and]
  · rw [if_neg (Nat.not_lt.2 hge)]
    rcases Nat.lt_or_ge k (lo + w) with hin | habove
    · have hoff : k - lo < w := by omega
      rw [if_pos hoff, if_pos ⟨hge, hin⟩, Nat.testBit_mod_two_pow, decide_eq_true hoff, Bool.true_and]
    · have hoff : ¬ k - lo < w := by omega
      have hout : ¬ (lo ≤ k ∧ k < lo + w) := by omega
      have hplace : k - lo - w + (lo + w) = k := by omega
      rw [if_neg hoff, if_neg hout, Nat.testBit_div_two_pow, hplace]

theorem bitsOf_putBits_same (n lo w v : Nat) : bitsOf (putBits n lo w v) lo w = v % 2 ^ w := by
  refine Nat.eq_of_testBit_eq fun k => ?_
  rw [testBit_bitsOf, testBit_putBits, Nat.testBit_mod_two_pow]
  by_cases hk : k < w <;> simp [hk]

theorem bitsOf_putBits_apart {lo' w' : Nat} (hapart : lo' + w' ≤ lo ∨ lo + w ≤ lo') :
    bitsOf (putBits n lo w v) lo' w' = bitsOf n lo' w' := by
  refine Nat.eq_of_testBit_eq fun k => ?_
  rw [testBit_bitsOf, testBit_bitsOf, testBit_putBits]
  by_cases hk : k < w'
  · have hout : ¬ (lo ≤ lo' + k ∧ lo' + k < lo + w) := by omega
    rw [if_neg hout]
  · simp [hk]

end Fields

section Operands
variable {phv md b w fr : Nat}

theorem operandOf_vector (h : b + w ≤ 4096) : operandOf phv md b w fr = bitsOf phv (4096 - b - w) w := if_pos h

/-- An operand of width 0 at offset 4096 counts as one of the vector, where it reads the same 0. -/
theorem operandOf_metadata (hlo : 4096 ≤ b) (hhi : b + w ≤ 5120) : operandOf phv md b w fr = bitsOf md (b - 4096) w := by
  rcases Nat.eq_zero_or_pos w with rfl | hpos
  · simp [operandOf, Nat.mod_one]
  · rw [operandOf, if_neg (by omega), if_pos ⟨hlo, hhi⟩]

end Operands

/-- Settles O24, from the two readings of a field after a write, in the vector and in the metadata. -/
theorem operandPlacement : Obligations.OperandPlacement := by
  refine ⟨?vectorSame, ?metadataSame, ?vectorApart, ?metadataApart⟩
  case vectorSame =>
    intro phv md b w v fr h
    rw [operandOf_vector h, bitsOf_putBits_same]
  case metadataSame =>
    intro phv md b w v fr hlo hhi
    rw [operandOf_metadata hlo hhi, bitsOf_putBits_same]
  case vectorApart =>
    intro phv md b w v fr b' w' h h' hapart
    rw [operandOf_vector h', operandOf_vector h', bitsOf_putBits_apart (by omega)]
  case metadataApart =>
    intro phv md b w v fr b' w' hlo hhi hlo' hhi' hapart
    rw [operandOf_metadata hlo' hhi', operandOf_metadata hlo' hhi', bitsOf_putBits_apart (by omega)]

end Sys2Proof.Machine
end

section
/-! SUPPORT. Laws of the fragment events, of the copy of the CLS_ registers, of the policers' PBS word and of the punt buckets (R196, R199,
R204, R205, R211): what each of the five commands comes to; and the statement that rests on them. -/

namespace Sys2Proof.Machine

section ClassifierCommands
variable {s t : State} {n h dig k v : Nat}

theorem exec_fragHoldExpiry : exec (.fragHoldExpiry n h) s = execFragHoldExpiry n h s := rfl
theorem exec_fragEntryExpiry : exec (.fragEntryExpiry n dig) s = execFragEntryExpiry n dig s := rfl
theorem exec_puntBucketRecompute : exec .puntBucketRecompute s = execPuntBucketRecompute s := rfl

/-- A live fragment that its region holds goes on to a walk on outer fields when hold_us of its packet's view has passed (R204). -/
theorem fragHoldExpiry_held (hlive : s.get .PKT_live 0 h = 1) (hheld : s.get .PKT_stage 0 h = 2) (hregion : s.get .PKT_region 0 h = n)
    (ht : t = s.advanceTo (s.get .PKT_held_at 0 h + s.get .PKT_clsf 0 h / 65536 * usUnits)) :
    exec (.fragHoldExpiry n h) s =
      .next ((((t.set .PKT_stage 1 0 h).set .PKT_outer 1 0 h).bump .CLS_FRAG_CNT0_hold_expired n).fragStat n) := by
  subst ht
  simp [exec_fragHoldExpiry, execFragHoldExpiry, hlive, hheld, hregion]

/-- An entry in use is removed when lifetime_us, of which 0 acts as 1, has passed since its last use (R205). -/
theorem fragEntryExpiry_used (hon : s.get .FRE_on n dig = 1)
    (ht : t = s.advanceTo (s.get .FRE_at n dig + max 1 (s.get .CLSR_frag n % 65536) * usUnits)) :
    exec (.fragEntryExpiry n dig) s = .next ((t.fragRemove n dig).fragStat n) := by
  subst ht
  simp [exec_fragEntryExpiry, execFragEntryExpiry, hon]

/-- What a region keeps of the CLS_ registers of port `d` (R199). -/
def State.clsPortWord (s : State) (d : Nat) : Nat :=
  s.get .CLS_PORT_DEF_nomatch_act 0 d + 4 * s.get .CLS_PORT_DEF_parsefail_act 0 d + 16 * s.get .CLS_PORT_DEF_secondary 0 d +
    32 * s.get .CLS_PORT_DEF_frag_mode 0 d + 64 * s.get .CLS_PORT_DEF_punt_q 0 d + 2 ^ 22 * s.get .CLS_PORT_DEST_index 0 d +
    2 ^ 38 * s.get .CLS_PORT_DEST_kind 0 d + 2 ^ 39 * s.get .CLS_PORT_DEST_tclass 0 d

/-- The words of all ports copied to region `n`. -/
def State.clsPortsCopied (s : State) (n : Nat) : State :=
  s.each (List.range 16) (fun d s => s.set .CLSR_port (s.clsPortWord d) n d)

/-- The copy of the ports' words writes no other field. -/
theorem get_clsPortsCopied {f : Field} (hf : f ≠ .CLSR_port) (sc i : Nat) : (s.clsPortsCopied n).get f sc i = s.get f sc i :=
  get_each_keep fun _ _ => get_set_field _ _ _ _ _ _ _ _ hf.symm

/-- The fragment times that a region takes are the CTD's own: the copy of the ports' words, which comes first, leaves them (R199). -/
theorem clsRegisterPropagate_copies : exec (.clsRegisterPropagate n) s = .next ((s.clsPortsCopied n).set .CLSR_frag
    (s.get .CLS_FRAG_CFG_lifetime_us + 65536 * s.get .CLS_FRAG_CFG_hold_us) n) := by
  have hexec : exec (.clsRegisterPropagate n) s = .next ((s.clsPortsCopied n).set .CLSR_frag
      ((s.clsPortsCopied n).get .CLS_FRAG_CFG_lifetime_us + 65536 * (s.clsPortsCopied n).get .CLS_FRAG_CFG_hold_us) n) := rfl
  rw [hexec, get_clsPortsCopied (by decide), get_clsPortsCopied (by decide)]

theorem policer_widths : Field.POL_cir.width = 24 ∧ Field.POL_cbs.width = 24 ∧ Field.POL_pbs.width = 24 ∧ Field.POL_en.width = 1 ∧
    Field.POL_tc.width = 64 ∧ Field.POL_tp.width = 64 := ⟨rfl, rfl, rfl, rfl, rfl, rfl⟩

/-- A policer with both buckets full at the depths of its words (R211). -/
def State.policerFilled (s : State) (n k : Nat) : State :=
  ((s.set .POL_tc (s.get .POL_cbs n k * 32000) n k).set .POL_tp (s.get .POL_pbs n k * 32000) n k).set .POL_at s.now n k

/-- The PBS word applies the words of the policer's registers, then fills both buckets (R211). -/
theorem policerApply_words : ∃ u : State, exec (.policerApply n k v) s = .next (u.policerFilled n k) ∧
    u.get .POL_cir n k = s.get .CLS_POLICER_cir n k % 2 ^ 24 ∧ u.get .POL_cbs n k = s.get .CLS_POLICER_cbs n k % 2 ^ 24 ∧
    u.get .POL_pbs n k = v % 2 ^ 24 ∧ u.get .POL_en n k = s.get .CLS_POLICER_enable n k % 2 := by
  refine ⟨_, rfl, ?_, ?_, ?_, ?_⟩ <;> simp [policer_widths]

/-! A full bucket holds all of its depth: at most 2^24 - 1 times 32000, it fits its 64 bits. -/

theorem policerFilled_tc {x : Nat} (hcbs : s.get .POL_cbs n k = x % 2 ^ 24) :
    (s.policerFilled n k).get .POL_tc n k = x % 2 ^ 24 * 32000 := by
  have hfits : x % 2 ^ 24 * 32000 < 2 ^ 64 := by omega
  simpa [State.policerFilled, hcbs, policer_widths] using hfits

theorem policerFilled_tp {x : Nat} (hpbs : s.get .POL_pbs n k = x % 2 ^ 24) :
    (s.policerFilled n k).get .POL_tp n k = x % 2 ^ 24 * 32000 := by
  have hfits : x % 2 ^ 24 * 32000 < 2 ^ 64 := by omega
  simpa [State.policerFilled, hpbs, policer_widths] using hfits

/-- Filling the buckets leaves the words of the policer. -/
theorem get_policerFilled {f : Field} (htc : f ≠ .POL_tc) (htp : f ≠ .POL_tp) (hat : f ≠ .POL_at) (sc i : Nat) :
    (s.policerFilled n k).get f sc i = s.get f sc i := by
  simp [State.policerFilled, htc.symm, htp.symm, hat.symm]

end ClassifierCommands

/-- Settles O26, by what each of the five commands comes to. -/
theorem fragmentsAndPolicers : Obligations.FragmentsAndPolicers := by
  refine ⟨fun s t n h => fragHoldExpiry_held, fun s t n dig => fragEntryExpiry_used,
    fun s n => ⟨_, clsRegisterPropagate_copies, rfl⟩, ?policer, fun s => exec_puntBucketRecompute⟩
  case policer =>
    intro s n k v
    obtain ⟨u, hexec, hcir, hcbs, hpbs, hen⟩ := policerApply_words (s := s) (n := n) (k := k) (v := v)
    refine ⟨u.policerFilled n k, hexec, ?_, ?_, ?_, ?_, policerFilled_tc hcbs, policerFilled_tp hpbs⟩
    · rw [get_policerFilled (by decide) (by decide) (by decide), hcir]
    · rw [get_policerFilled (by decide) (by decide) (by decide), hcbs]
    · rw [get_policerFilled (by decide) (by decide) (by decide), hpbs]
    · rw [get_policerFilled (by decide) (by decide) (by decide), hen]

end Sys2Proof.Machine
end

section
/-! SUPPORT. Laws of the commands on one key of an exact-match table, and of NEXT (R221, R222, R225, R231, R233, R236; Table EXM-4, Table
EXM-7): what each command comes to in each of its cases; and the statement that rests on them. -/

namespace Sys2Proof.Machine

section KeyOpcodes
variable (s : State) (c t : Nat) (clearMoves : Bool)

theorem exec_exmSearch : exec (.exmSearch c t) s = execExmSearch c t s := rfl
theorem exec_exmInsert : exec (.exmInsert c t) s = execExmInsert c t s := rfl
theorem exec_exmUpdate : exec (.exmUpdate c t clearMoves) s = execExmUpdate c t clearMoves s := rfl
theorem exec_exmDelete : exec (.exmDelete c t) s = execExmDelete c t s := rfl
theorem exec_exmNext : exec (.exmNext c t) s = execExmNext c t s := rfl

end KeyOpcodes

/-- The value of channel `c`, as long as a value of layout `l`. -/
def State.chValue (s : State) (c : Nat) (l : List Nat) : Nat := s.chWords .EXM_CH_value 8 c % 2 ^ (8 * layVal l)

/-- The entry that INSERT makes of a channel's header and value: valid, with the channel's static and port and the tick now (R222, R231). -/
def State.chEntry (s : State) (c : Nat) (l : List Nat) (key : Nat) : Nat :=
  exeMake (layKey l) (1 + bitsOf (s.get .EXM_CH_hdr 0 c) 1 1 * 2 + bitsOf (s.get .EXM_CH_hdr 0 c) 4 5 * 16 + s.emStamp l * 2 ^ 16) key
    (s.chValue c l)

/-- What UPDATE without clear_moves makes of entry `e`: static, port and value of the channel, the rest of the header kept (R231, R236). -/
def State.chUpdated (s : State) (c : Nat) (l : List Nat) (key e : Nat) : Nat :=
  exeMake (layKey l) (putBits (putBits (e % 2 ^ 32) 1 1 (bitsOf (s.get .EXM_CH_hdr 0 c) 1 1)) 4 5 (bitsOf (s.get .EXM_CH_hdr 0 c) 4 5)) key
    (s.chValue c l)

section OneKey
variable {s s' : State} {c t ti key e : Nat} {l : List Nat} (hready : s.keyReady c t ti key l)
include hready

theorem exmSearch_present (he : s.emEntry ti key = some e) : exec (.exmSearch c t) s = .next ((s.exmShow c l e).exmRes c 0) := by
  rw [exec_exmSearch, execExmSearch, exmKeyCmd_ready _ hready]
  simp only [he]

theorem exmSearch_absent (he : s.emEntry ti key = none) : exec (.exmSearch c t) s = .next (s.exmRes c 1) := by
  rw [exec_exmSearch, execExmSearch, exmKeyCmd_ready _ hready]
  simp only [he]

theorem exmInsert_present (he : s.emEntry ti key = some e) : exec (.exmInsert c t) s = .next (s.exmRes c 2) := by
  rw [exec_exmInsert, execExmInsert, exmKeyCmd_ready _ hready]
  simp only [he]

/-- An absent key of a tenant within its quota is inserted where there is room (R225, R469). -/
theorem exmInsert_room (he : s.emEntry ti key = none) (hquota : s.quotaFull t ti key = false)
    (hroom : s.emInsert t ti key (s.chEntry c l key) = some s') : exec (.exmInsert c t) s = .next ((s'.emStamped l).exmRes c 0) := by
  unfold State.chEntry State.chValue at hroom
  rw [exec_exmInsert, execExmInsert, exmKeyCmd_ready _ hready]
  simp only [he, hquota, Bool.false_eq_true, if_false, hroom]

theorem exmUpdate_present (he : s.emEntry ti key = some e) :
    exec (.exmUpdate c t false) s = .next (((s.emEdit t ti key (s.chUpdated c l key)).emTouch t ti key).exmRes c 0) := by
  rw [exec_exmUpdate, execExmUpdate, exmKeyCmd_ready _ hready]
  simp only [he, Bool.false_eq_true, if_false]
  rfl

theorem exmDelete_present (he : s.emEntry ti key = some e) :
    exec (.exmDelete c t) s = .next ((s.emDelete t ti key).exmRes c 0) := by
  rw [exec_exmDelete, execExmDelete, exmKeyCmd_ready _ hready]
  simp only [he]

end OneKey

section Iteration
variable {s : State} {c t ti pl k : Nat} {l : List Nat} {r : List (Nat × Nat)}

/-- NEXT shows the first entry from the cursor on, with its key, and moves the cursor past it (R233). -/
theorem exmNext_entry (hready : s.tableReady t ti l) (hfrom : s.exmFrom ti (s.get .EXM_CH_cursor 0 c) = (pl, k) :: r) :
    exec (.exmNext c t) s = .next ((((s.exmShow c l (s.exe pl (s.emLive ti) k)).chPut .EXM_CH_key 7 c (layKey l)
      (exeKey (layKey l) (s.exe pl (s.emLive ti) k))).set .EXM_CH_cursor (cursorAfter (pl, k)) 0 c).exmRes c 0) := by
  rw [exec_exmNext, execExmNext, exmCmd_ready c _ hready]
  simp only [hfrom]

theorem exmNext_end (hready : s.tableReady t ti l) (hfrom : s.exmFrom ti (s.get .EXM_CH_cursor 0 c) = []) :
    exec (.exmNext c t) s = .next (s.exmRes c 7) := by
  rw [exec_exmNext, execExmNext, exmCmd_ready c _ hready]
  simp only [hfrom]

/-- A command on a table that no region runs is answered BAD_TABLE (R169, Table EXM-7). -/
theorem exmCmd_notLive (f : Nat → List Nat → State → State) (hlive : s.liveTi t = none) : s.exmCmd c t f = s.exmRes c 5 := by
  simp only [State.exmCmd, hlive]

theorem exmSearch_notLive (hlive : s.liveTi t = none) : exec (.exmSearch c t) s = .next (s.exmRes c 5) := by
  rw [exec_exmSearch, execExmSearch, State.exmKeyCmd, exmCmd_notLive _ hlive]

end Iteration

/-- Settles O27, by the cases of each command. -/
theorem tableCommands : Obligations.TableCommands := by
  refine ⟨?oneKey, fun s c t ti pl k l r => exmNext_entry, fun s c t ti l => exmNext_end, fun s c t => exmSearch_notLive⟩
  case oneKey =>
    exact fun s c t ti key l hready => ⟨fun _ => exmSearch_present hready, exmSearch_absent hready, fun _ => exmInsert_present hready,
      fun _ => exmInsert_room hready, fun _ => exmUpdate_present hready, fun _ => exmDelete_present hready⟩

end Sys2Proof.Machine
end

section
/-! SUPPORT. Laws of flushes, of a table's shadow, of damping records and of the ageing scan (R223, R227 to R229, R232, R235): what each command
and each event comes to in each of its cases; and the statement that rests on them. -/

namespace Sys2Proof.Machine

section RebuildOpcodes
variable (s : State) (c t pl i slot : Nat) (static : Bool)

theorem exec_flushByPort : exec (.flushByPort c t static) s = execFlushByPort c t static s := rfl
theorem exec_flushByTenant : exec (.flushByTenant c t static) s = execFlushByTenant c t static s := rfl
theorem exec_shadowOpen : exec (.shadowOpen c t) s = execShadowOpen c t s := rfl
theorem exec_shadowCopy : exec (.shadowCopy c t) s = execShadowCopy c t s := rfl
theorem exec_shadowSwap : exec (.shadowSwap c t) s = execShadowSwap c t s := rfl
theorem exec_shadowDiscard : exec (.shadowDiscard c t) s = execShadowDiscard c t s := rfl
theorem exec_dampingRecordExpiry : exec (.dampingRecordExpiry pl i) s = execDampingRecordExpiry pl i s := rfl
theorem exec_ageingScan : exec (.ageingScan t pl slot) s = execAgeingScan t pl slot s := rfl

end RebuildOpcodes

/-- The empty shadow of `ti` with the seeds and the size in the key words of channel `c` (R227). -/
def State.shadowMade (s : State) (c ti : Nat) : State :=
  (((s.emClear (s.emShadow ti) (fun _ => true)).set .EXI_seed0 (s.get .EXM_CH_key 0 (c * 7)) 0 (s.emShadow ti)).set .EXI_seed1
    (s.get .EXM_CH_key 0 (c * 7 + 1)) 0 (s.emShadow ti)).set .EXI_log2 (s.get .EXM_CH_key 0 (c * 7 + 2)) 0 (s.emShadow ti)

/-- The other half of `ti`'s storage made the live one; no shadow is left, nor a request for a rehash (R225, R229). -/
def State.halfSwapped (s : State) (t ti : Nat) : State :=
  (((s.set .EXI_half (1 - s.get .EXI_half 0 ti) 0 ti).set .EXM_TABLE_STAT_shadow 0 0 t).set .EXM_sh_end 0 0 t).set
    .EXM_TABLE_STAT_rehash_req 0 0 t

section Table
variable {s : State} {c t ti : Nat} {l : List Nat} (hready : s.tableReady t ti l)
include hready

theorem flushByPort_ready (static : Bool) : exec (.flushByPort c t static) s =
    .next ((s.exmFlush t ti static (fun e => decide (bitsOf e 4 5 = s.get .EXM_CH_key 0 (c * 7) % 32))).exmRes c 0) := by
  rw [exec_flushByPort, execFlushByPort, exmCmd_ready c _ hready]

theorem flushByTenant_ready (static : Bool) (hten : layTen l ≠ 0xFF) : exec (.flushByTenant c t static) s =
    .next ((s.exmFlush t ti static
      (fun e => decide (bitsOf e (32 + 8 * layTen l) 8 = s.get .EXM_CH_key 0 (c * 7) % 256))).exmRes c 0) := by
  rw [exec_flushByTenant, execFlushByTenant, exmCmd_ready c _ hready, if_neg hten]

/-- A table without a shadow gets one, of at most 2^25 buckets, where table memory has room for it (R227). -/
theorem shadowOpen_room (hnone : s.get .EXM_TABLE_STAT_shadow 0 t = 0) (hlog2 : s.get .EXM_CH_key 0 (c * 7 + 2) < 26)
    (hroom : s.shadowRoom l (s.get .EXM_CH_key 0 (c * 7 + 2)) = true) : exec (.shadowOpen c t) s =
      .next ((((s.shadowMade c ti).set .EXM_TABLE_STAT_shadow 1 0 t).set .EXM_sh_end 0 0 t).exmRes c 0) := by
  have hfits : ¬ (26 ≤ s.get .EXM_CH_key 0 (c * 7 + 2) ∨ (!s.shadowRoom l (s.get .EXM_CH_key 0 (c * 7 + 2))) = true) := by
    rw [hroom]; simpa using hlog2
  rw [exec_shadowOpen, execShadowOpen, exmCmd_ready c _ hready, if_neg (fun hopen => hopen hnone), if_neg hfits]
  rfl

/-- A copy that reaches the last entry answers END and completes the shadow (R228). -/
theorem shadowCopy_end (hopen : s.get .EXM_TABLE_STAT_shadow 0 t ≠ 0)
    (hfew : (s.exmFrom ti (s.get .EXM_CH_cursor 0 c)).length ≤ 4096) : exec (.shadowCopy c t) s =
      .next (((s.each ((s.exmFrom ti (s.get .EXM_CH_cursor 0 c)).take 4096)
        (fun x s => s.shadowCopy1 t ti x)).set .EXM_sh_end 1 0 t).exmRes c 7) := by
  rw [exec_shadowCopy, execShadowCopy, exmCmd_ready c _ hready, if_neg hopen]
  simp only [List.drop_eq_nil_of_le hfew]
  cases ((s.exmFrom ti (s.get .EXM_CH_cursor 0 c)).take 4096).getLast? <;> rfl

/-- A complete shadow becomes live, and the storage that was live is emptied (R229). -/
theorem shadowSwap_complete (hopen : s.get .EXM_TABLE_STAT_shadow 0 t = 1) (hend : s.get .EXM_sh_end 0 t = 1) :
    exec (.shadowSwap c t) s =
      .next ((((s.emClear (s.emLive ti) (fun _ => true)).halfSwapped t ti).emStat t).exmRes c 0) := by
  rw [exec_shadowSwap, execShadowSwap, exmCmd_ready c _ hready]
  simp only [hopen, hend, Nat.one_ne_zero, if_false]
  rfl

theorem shadowDiscard_open (hopen : s.get .EXM_TABLE_STAT_shadow 0 t ≠ 0) :
    exec (.shadowDiscard c t) s = .next ((s.shadowDrop t ti).exmRes c 0) := by
  rw [exec_shadowDiscard, execShadowDiscard, exmCmd_ready c _ hready, if_neg hopen]

/-! The commands on a shadow answer SHADOW_STATE where there is none. -/

theorem shadowSwap_none (hnone : s.get .EXM_TABLE_STAT_shadow 0 t = 0) : exec (.shadowSwap c t) s = .next (s.exmRes c 9) := by
  rw [exec_shadowSwap, execShadowSwap, exmCmd_ready c _ hready]
  simp only [hnone]

theorem shadowDiscard_none (hnone : s.get .EXM_TABLE_STAT_shadow 0 t = 0) : exec (.shadowDiscard c t) s = .next (s.exmRes c 9) := by
  rw [exec_shadowDiscard, execShadowDiscard, exmCmd_ready c _ hready, if_pos hnone]

theorem shadowCopy_none (hnone : s.get .EXM_TABLE_STAT_shadow 0 t = 0) : exec (.shadowCopy c t) s = .next (s.exmRes c 9) := by
  rw [exec_shadowCopy, execShadowCopy, exmCmd_ready c _ hready, if_pos hnone]

/-- An entry that may age and is older than max_age is deleted, without an event where age_notify is 0 (R223). -/
theorem ageingScan_aged {pl slot e : Nat} (he : e = s.exe pl (s.emLive ti) slot) (hage : layAge l ≠ 0xFF)
    (hplace : (layPlaces l).contains pl = true) (hup : s.placeUp pl = true) (hvalid : e.testBit 0 = true)
    (hdynamic : e.testBit 1 = false) (hold : layMaxAge l < (s.emStamp l + 65536 - bitsOf e 16 16) % 65536)
    (hquiet : layFlag l 2 = false) : exec (.ageingScan t pl slot) s = .next (s.emDelete t ti (exeKey (layKey l) e)) := by
  obtain ⟨hlive, rfl, hexact, -⟩ := hready
  subst he
  have hdyn : (!(s.exe pl (s.emLive ti) slot).testBit 1) = true := by rw [hdynamic]; rfl
  rw [exec_ageingScan, execAgeingScan, hlive]
  dsimp only
  rw [if_pos ⟨hexact, hage, hplace, hup, hvalid, hdyn, hold⟩, hquiet, when_false]

end Table

/-- A damping record in use expires at its instant, and its move candidate with it (R235). -/
theorem dampingRecordExpiry_used {s : State} {pl i : Nat} (hused : s.get .DAMP_at pl i ≠ 0) : exec (.dampingRecordExpiry pl i) s =
    .next ((((s.advanceTo (s.get .DAMP_at pl i)).set .DAMP_at 0 pl i).set .DAMP_blk 0 pl i).set .DAMP_cand 0 pl i) := by
  rw [exec_dampingRecordExpiry, execDampingRecordExpiry, if_neg hused]

/-- Settles O28, by the cases of each command and event. -/
theorem tableRebuild : Obligations.TableRebuild := by
  refine ⟨?commands, fun s pl i => dampingRecordExpiry_used, fun s t ti pl slot e l hready => ageingScan_aged hready⟩
  case commands =>
    intro s c t ti l hready
    refine ⟨flushByPort_ready hready, flushByTenant_ready hready, ?opens, ?copies, ?swaps, shadowDiscard_open hready, ?absent⟩
    case opens => rintro hnone hlog2 hroom _ rfl; exact shadowOpen_room hready hnone hlog2 hroom
    case copies => exact fun hopen => shadowCopy_end hready (by rw [hopen]; decide)
    case swaps => rintro hopen hend _ rfl; exact shadowSwap_complete hready hopen hend
    case absent => exact fun hnone => ⟨shadowSwap_none hready hnone, shadowDiscard_none hready hnone, shadowCopy_none hready hnone⟩

end Sys2Proof.Machine
end

section
/-! SUPPORT. Laws of the TCAM table commands, of the end of a MOVE and of repair (R238, R240, R243, R248, R250 to R253; Table ASOC-4): what the
guards come to once a live table has an online region, what each command and event comes to in each of its cases; and the statement that rests on
them. Where the spec leaves the instant of a MOVE's end and the cursor after SEARCH open, the model goes by log entries 160 and 32. -/

namespace Sys2Proof.Machine

section TcamOpcodes
variable (s : State) (c t n u : Nat) (bad lost : List Nat) (agree copyBad : Bool)

theorem exec_tcmSearch : exec (.tcmSearch c t bad lost) s = execTcmSearch c t bad lost s := rfl
theorem exec_tcmStep : exec (.tcmStep c t bad lost) s = execTcmStep c t bad lost s := rfl
theorem exec_tcmWrite : exec (.tcmWrite c t) s = execTcmWrite c t s := rfl
theorem exec_tcmUpdate : exec (.tcmUpdate c t) s = execTcmUpdate c t s := rfl
theorem exec_tcmInvalidate : exec (.tcmInvalidate c t) s = execTcmInvalidate c t s := rfl
theorem exec_tcmRead : exec (.tcmRead c t) s = execTcmRead c t s := rfl
theorem exec_tcmMove : exec (.tcmMove c t) s = execTcmMove c t s := rfl
theorem exec_tcamRepair : exec (.tcamRepair n u agree copyBad) s = execTcamRepair n u agree copyBad s := rfl

end TcamOpcodes

section OnTable
variable {s0 s u' : State} {c t ti n : Nat} {r bad lost : List Nat} {x : TcHit}
  (hs : s = s0.movesDue c) (hready : s.tcamReady t ti n r)
include hs hready

/-- A command on a live TCAM table with an online region runs, once the moves that are due have ended (R253; log entry 160). -/
theorem tcmCmd_ready (f : Nat → List Nat → Nat → List Nat → State → State) : s0.tcmCmd c t f = f ti (s.lay ti) n (n :: r) s := by
  obtain ⟨hlive, hkind, hregions⟩ := hready
  simp only [State.tcmCmd, ← hs, hlive, hkind, hregions, ne_eq, not_true_eq_false, if_false]

/-- SEARCH answers what the search over all entries finds (R251). -/
theorem tcmSearch_ready (hsearch : s.tcSearch (fun _ _ => true) n ti (s.tcmKey c (s.lay ti)) 0 bad lost false 3 = (u', x)) :
    exec (.tcmSearch c t bad lost) s0 = .next (u'.tcmHit c n x) := by
  rw [exec_tcmSearch, execTcmSearch, tcmCmd_ready hs hready]
  simp only [hsearch]

/-- STEP answers what the search over the entries after the cursor finds (R251). -/
theorem tcmStep_ready {cp cu : Nat} (hcp : cp = s.get .TCM_CH_cur_priority 0 c) (hcu : cu = s.get .TCM_CH_cur_unit 0 c)
    (hsearch : s.tcSearch (fun s u => decide (cp < s.get .TCE_prio n u ∨ (cp = s.get .TCE_prio n u ∧ cu < u))) n ti
      (s.tcmKey c (s.lay ti)) 0 bad lost false 3 = (u', x)) :
    exec (.tcmStep c t bad lost) s0 = .next (u'.tcmHit c n x) := by
  subst hcp hcu
  rw [exec_tcmStep, execTcmStep, tcmCmd_ready hs hready]
  simp only [hsearch]

/-- WRITE puts the channel's entry at free units of the table into every online replica (R250, R253). -/
theorem tcmWrite_free {u w : Nat} (hu : u = s.get .TCM_CH_unit 0 c) (hw : w = s.get .TCM_CH_width 0 c)
    (hindex : tcIndexOk (s.lay ti) u w = true) (hfree : s.tcOccupied n u (unitsOf w) = false) :
    exec (.tcmWrite c t) s0 =
      .next ((s.each (n :: r) (fun m s => s.tcPut m ti u w (s.get .TCM_CH_priority 0 c) (s.get .TCM_CH_entry_result 0 c)
        (tcKey (unitsOf w) (s.tcmBytes .TCM_CH_key c)) (tcKey (unitsOf w) (s.tcmBytes .TCM_CH_mask c)))).tcmRes c 0) := by
  subst hu hw
  rw [exec_tcmWrite, execTcmWrite, tcmCmd_ready hs hready]
  simp only [hindex, hfree, Bool.not_true, Bool.false_eq_true, if_false]

/-- WRITE where an entry of the channel's width cannot stand is answered BAD_INDEX (R238). -/
theorem tcmWrite_badIndex (hindex : tcIndexOk (s.lay ti) (s.get .TCM_CH_unit 0 c) (s.get .TCM_CH_width 0 c) = false) :
    exec (.tcmWrite c t) s0 = .next (s.tcmRes c 3) := by
  rw [exec_tcmWrite, execTcmWrite, tcmCmd_ready hs hready]
  simp only [hindex, Bool.not_false, if_true]

end OnTable

/-- A copy without an uncorrectable error holds what was written. -/
theorem tcCopy_good {s : State} {n u : Nat} (hgood : s.get .TCE_bad n u = 0) :
    s.tcCopy n u = (s.get .TCE_prio n u, s.get .TCE_res n u, s.get .TCE_key n u, s.get .TCE_mask n u) :=
  if_neg (by omega)

section OnEntry
variable {s0 s : State} {c t ti n : Nat} {r : List Nat} {u : Nat} (hs : s = s0.movesDue c) (hentry : s.entryReady c t ti n r u)

include hentry in
/-- A command on a unit of the table's range at which an entry begins reaches that entry (R238). -/
theorem tcmEntry_ready (f : State → State) : s.tcmEntry c ti (s.lay ti) n u f = f s := by
  obtain ⟨-, -, hfirst, hlast, hhas⟩ := hentry
  rw [State.tcmEntry, if_neg (by omega), if_pos hhas]

include hs hentry

/-- UPDATE replaces priority and result in every online replica that holds the entry (R250, R253). -/
theorem tcmUpdate_entry : exec (.tcmUpdate c t) s0 =
    .next ((s.each (n :: r) (fun m s => s.when (s.tcHas m ti u) (fun s =>
      (s.set .TCE_prio (s.get .TCM_CH_priority 0 c) m u).set .TCE_res (s.get .TCM_CH_entry_result 0 c) m u))).tcmRes c 0) := by
  have hreach := tcmEntry_ready hentry
  obtain ⟨hready, rfl, -⟩ := hentry
  rw [exec_tcmUpdate, execTcmUpdate, tcmCmd_ready hs hready]
  exact congrArg _ (hreach _)

/-- INVALIDATE removes the entry from every online replica that holds it (R250, R253). -/
theorem tcmInvalidate_entry : exec (.tcmInvalidate c t) s0 =
    .next ((s.each (n :: r) (fun m s => s.when (s.tcHas m ti u) (fun s => s.tcRemove m u))).tcmRes c 0) := by
  have hreach := tcmEntry_ready hentry
  obtain ⟨hready, rfl, -⟩ := hentry
  rw [exec_tcmInvalidate, execTcmInvalidate, tcmCmd_ready hs hready]
  exact congrArg _ (hreach _)

/-- READ shows the entry's copy, which has no uncorrectable error, and whether the entry is quarantined (R240). -/
theorem tcmRead_good (hgood : s.get .TCE_bad n u = 0) : exec (.tcmRead c t) s0 =
    .next (((((((((s.set .TCM_CH_width (s.get .TCE_width n u) 0 c).set .TCM_CH_quarantined (s.get .TCE_quar n u) 0 c).set
      .TCM_CH_copy_bad 0 0 c).set .TCM_CH_priority (s.get .TCE_prio n u) 0 c).set .TCM_CH_entry_result (s.get .TCE_res n u) 0 c
      ).tcmShow .TCM_CH_key c (s.get .TCE_key n u)).tcmShow .TCM_CH_mask c (s.get .TCE_mask n u))).tcmRes c 0) := by
  have hreach := tcmEntry_ready hentry
  obtain ⟨hready, rfl, -⟩ := hentry
  rw [exec_tcmRead, execTcmRead, tcmCmd_ready hs hready]
  refine congrArg _ ((hreach _).trans ?_)
  simp [tcCopy_good hgood, hgood]

/-- MOVE makes the entry valid at free units at dst beside the original, and stays busy (R252; log entry 160). -/
theorem tcmMove_free {v : Nat} (hv : v = s.get .TCM_CH_dst 0 c) (hindex : tcIndexOk (s.lay ti) v (s.get .TCE_width n u) = true)
    (hfree : s.tcOccupied n v (unitsOf (s.get .TCE_width n u)) = false) : exec (.tcmMove c t) s0 =
      .next ((s.each (n :: r) (fun m s => s.tcMove1 m ti u v)).moveOpen c ti u v) := by
  subst hv
  have hreach := tcmEntry_ready hentry
  obtain ⟨hready, rfl, -⟩ := hentry
  rw [exec_tcmMove, execTcmMove, tcmCmd_ready hs hready]
  refine congrArg _ ((hreach _).trans ?_)
  simp only [hindex, hfree, Bool.not_true, Bool.false_eq_true, if_false]

end OnEntry

section MoveEnds
variable {s : State} {c : Nat}

theorem movesDue_none (hnone : s.keysOf .TCM_mv_on = []) : s.movesDue c = s := by
  rw [State.movesDue, hnone, each_nil]

/-- The only open MOVE, the channel's own, ends before the channel's next command, whatever its age (R252; log entry 160). -/
theorem movesDue_own (hopen : s.keysOf .TCM_mv_on = [(0, c)]) : s.movesDue c = s.moveEnd c := by
  rw [State.movesDue, hopen, each_cons, each_nil, if_pos (.inl rfl)]

end MoveEnds

section Repair
variable {s : State} {n u : Nat} (hvalid : s.get .TCE_inst n u ≠ 0) (hquar : s.get .TCE_quar n u ≠ 0) (hloose : s.get .TCE_stuck n u ≠ 1)
include hvalid hquar hloose

theorem tcamRepair_agrees : exec (.tcamRepair n u true false) s = .next (s.set .TCE_quar 0 n u) := by
  rw [exec_tcamRepair, execTcamRepair, if_neg (by simp [hvalid, hquar, hloose])]
  rfl

/-- A match row that does not agree with its good copy makes its entry stuck, which is counted, logged and reported (R248). -/
theorem tcamRepair_sticks {s' : State} (hs' : s' = ((s.set .TCE_stuck 1 n u).set .TCE_bad 0 n u).tcStuckStat n) :
    exec (.tcamRepair n u false false) s =
      .next ((s'.when (decide (s'.get .TCM_QUAR_LOG_unit n = u)) (·.set .TCM_QUAR_LOG_stuck 1 n)).report
        { src := 0x0C, cls := .contained, die := 4 + n / 2, region := n }) := by
  subst hs'
  rw [exec_tcamRepair, execTcamRepair, if_neg (by simp [hvalid, hquar, hloose])]
  rfl

end Repair

/-- Settles O30, by what each command and event comes to. -/
theorem tcamCommands : Obligations.TcamCommands := by
  refine ⟨?onTable, ?onEntry, fun s hnone c => movesDue_none hnone, ?moveEnds, ?repair⟩
  case onTable =>
    exact fun s0 s c t ti n r hs hready => ⟨fun _ _ _ _ => tcmSearch_ready hs hready, fun _ _ _ _ _ _ => tcmStep_ready hs hready,
      fun _ _ => tcmWrite_free hs hready, tcmWrite_badIndex hs hready⟩
  case onEntry =>
    exact fun s0 s c t ti n r u hs hentry => ⟨tcmUpdate_entry hs hentry, tcmInvalidate_entry hs hentry, tcmRead_good hs hentry,
      fun _ => tcmMove_free hs hentry⟩
  case moveEnds => rintro s c _ _ _ hopen rfl rfl rfl; exact movesDue_own hopen
  case repair =>
    exact fun s n u hvalid hquar hloose => ⟨tcamRepair_agrees hvalid hquar hloose, fun _ => tcamRepair_sticks hvalid hquar hloose⟩

end Sys2Proof.Machine
end

section
/-! SUPPORT. Laws of pattern sets, of scans and of the loss of an engine (R255 to R258, R260, R262, R263): what each command and event comes to
in each of its cases; and the statement that rests on them. The regions of an activation or a deletion are those fixed at its acceptance,
and the changes of a set take effect in the order of acceptance (log entry 120). -/

namespace Sys2Proof.Machine

section PatternOpcodes
variable (s : State) (c set mask n h e : Nat)

theorem exec_loadSet : exec (.loadSet c set mask) s = execLoadSet c set mask s := rfl
theorem exec_activateSet : exec (.activateSet c set) s = execActivateSet c set s := rfl
theorem exec_setActivation : exec (.setActivation set) s = execSetActivation set s := rfl
theorem exec_deleteSet : exec (.deleteSet c set mask) s = execDeleteSet c set mask s := rfl
theorem exec_patScan : exec (.patScan c set mask) s = execPatScan c set mask s := rfl
theorem exec_automataScan : exec (.automataScan n h) s = execAutomataScan n h s := rfl
theorem exec_patEngine : exec (.patEngine n e) s = execPatEngine n e s := rfl

end PatternOpcodes

section SetCommands
variable {s : State} {c set mask : Nat}

/-- LOAD_SET of a set whose header and body are right and for which there is room loads it in every online named region, unless its
digest disagrees (R256). -/
theorem loadSet_checked {hd b : List Nat} (honline : s.maskOnline mask ≠ []) (hhead : inHbm (s.get .PAT_CH_src 0 c) 96 = true)
    (hhd : hd = s.mread (s.get .PAT_CH_src 0 c) 96) (hheadOk : psHeadOk hd = true)
    (hbody : inHbm (s.get .PAT_CH_src 0 c) (psTotal hd) = true) (hb : b = s.mread (s.get .PAT_CH_src 0 c) (psTotal hd))
    (hbodyOk : psBodyOk b = true) (hroom : (bitList 8 mask).any (fun n => decide (2 ^ 22 < s.patMem n + b.length)) = false) :
    exec (.loadSet c set mask) s = .next (if sha384 (b.drop 96) = slice b 48 48 then
      (s.each (s.maskOnline mask) (fun n s => s.lset .patSet b n (2 * set + 1))).patRes c 0 else s.patRes c 0xA) := by
  subst hhd hb
  rw [exec_loadSet, execLoadSet, if_neg honline]
  simp only [hhead, hheadOk, hbody, hbodyOk, hroom, Bool.not_true, Bool.false_eq_true, if_false, ite_not]

/-- ACTIVATE_SET accepts, for 10 µs from now, the change in the regions that hold a staged version (R257). -/
theorem activateSet_staged {m : Nat} (hsome : m ≠ 0)
    (hm : m = (List.range 8).foldl (fun m n => if s.lget .patSet n (2 * set + 1) = [] then m else m + 2 ^ n) 0) :
    exec (.activateSet c set) s = .next ((s.patLater set 0 m).patRes c 0) := by
  subst hm
  rw [exec_activateSet, execActivateSet, if_neg hsome]

/-- DELETE_SET accepts, for 10 µs from now, the change in the named regions, an online one of which holds a version (R257). -/
theorem deleteSet_held {n : Nat} (hn : n ∈ s.maskOnline mask)
    (hheld : s.lget .patSet n (2 * set) ≠ [] ∨ s.lget .patSet n (2 * set + 1) ≠ []) :
    exec (.deleteSet c set mask) s = .next ((s.patLater set 1 (mask % 256)).patRes c 0) := by
  have hnone : ¬ (s.maskOnline mask).all (fun n => s.lget .patSet n (2 * set) = [] && s.lget .patSet n (2 * set + 1) = []) = true := by
    intro hall
    have hfree := List.all_eq_true.mp hall n hn
    simp only [Bool.and_eq_true, decide_eq_true_eq] at hfree
    exact hheld.elim (· hfree.1) (· hfree.2)
  rw [exec_deleteSet, execDeleteSet, if_neg (List.ne_nil_of_mem hn), if_neg hnone]

/-- At the instant of the change accepted first, that change is made in its regions, and the next one waits (R257; log entry 120). -/
theorem setActivation_due {kind t : Nat} {rest : List Nat} (hfirst : s.lget .patPend 0 set = kind :: t :: mask :: rest) :
    exec (.setActivation set) s = .next (((s.advanceTo t).each (bitList 8 mask)
      (fun n s => if kind = 0 then s.setActivate n set else s.setDelete n set)).lset .patPend rest 0 set) := by
  rw [exec_setActivation, execSetActivation, hfirst]

end SetCommands

section Scans
variable {s : State} {c set mask n : Nat}

/-- PAT_SCAN in an online region with an engine scans HBM with the set's active version, and writes as many report records as are asked
for (R260, R262). -/
theorem patScan_complete {len most : Nat} {r b : List Nat} {rs : List Report} (hmask : bitList 8 mask = n :: r) (honline : s.online n = true)
    (hengine : s.get .PAT_REGION_STAT_bypass_active n = 0) (hlen : len = s.get .PAT_CH_length 0 c) (hshort : len ≤ 65536)
    (hmost : most = s.get .PAT_CH_max_reports 0 c) (hfew : most ≤ 4096) (hsrc : inHbm (s.get .PAT_CH_src 0 c) len = true)
    (hdst : inHbm (s.get .PAT_CH_dst 0 c) (8 * most) = true) (hactive : s.psActive n set = some b)
    (hscan : psScan b (s.freeVal 16) 0 (s.mread (s.get .PAT_CH_src 0 c) len) = (rs, false)) :
    exec (.patScan c set mask) s =
      .next ((((s.drew.mwrite (s.get .PAT_CH_dst 0 c) ((rs.take most).flatMap reportBytes)).set
        .PAT_CH_count (min most rs.length) 0 c).set .PAT_CH_more (b2n (most < rs.length)) 0 c).patRes c 0) := by
  have hserves : ¬ ((!s.online n) = true ∨ s.get .PAT_REGION_STAT_bypass_active n = 1) := by simp [honline, hengine]
  rw [exec_patScan, execPatScan, hmask]
  simp only [← hlen, ← hmost, Nat.min_eq_right hshort, Nat.min_eq_right hfew, if_neg hserves, hsrc, hdst, hactive, hscan, Bool.not_true,
    Bool.false_eq_true, or_self, if_false, when_false]

theorem automataScan_there {h : Nat} (hat : s.atEngine n h 4 = true) : exec (.automataScan n h) s = .next (s.patStage n h) := by
  rw [exec_automataScan, execAutomataScan, if_pos hat]

/-- A lost engine is reported, and bypass_active of its region follows the engines that are left (R263). -/
theorem patEngine_lost {e : Nat} : exec (.patEngine n e) s =
    .next (((s.setb .PAT_REGION_STAT_engine_ok e false n).patBypass n).report
      { src := 0x0E, cls := .contained, die := 4 + n / 2, region := n }) := by
  rw [exec_patEngine, execPatEngine]

end Scans

/-- Settles O31, by what each command and event comes to. -/
theorem patternSets : Obligations.PatternSets := by
  refine ⟨fun s c set mask hd b => loadSet_checked, fun s c set m => activateSet_staged, ?instants, fun s c set mask n => deleteSet_held,
    ?scans, fun s n h => automataScan_there, fun s n e => patEngine_lost⟩
  case instants => exact fun s set t mask rest => ⟨setActivation_due, setActivation_due⟩
  case scans =>
    intro s c set mask n len most r b hmask honline hengine hlen hshort hmost hfew hsrc hdst hactive rs
    exact patScan_complete hmask honline hengine hlen hshort hmost hfew hsrc hdst hactive

end Sys2Proof.Machine
end

section
/-! SUPPORT. Laws of the Ethernet ports (R267, R271, R274 to R279, R281, R284, R287, R288, R290 to R292, R389, R398): what the MAC makes of a
frame that arrives, which frame it starts and what leaves, what a port's settings and the wake link do, and what the management controller's
package answers; and the statements that rest on them. What counts as a flow-control frame that waits and may start is `State.flowNext`
(log entry 149); the layout and the checksum of a control packet, and the loss of a channel's configuration with its port, follow DSP0222
(log entry 42). -/

namespace Sys2Proof.Machine

section PortOpcodes
variable (s : State) (d p a k n t v x y : Nat) (sym : Bool) (b : List Nat)

theorem exec_frameReceive : exec (.frameReceive d p t sym b x y) s = execFrameReceive d p t sym b x y s := rfl
theorem exec_macFrameStart : exec (.macFrameStart d p t) s = execMacFrameStart d p t s := rfl
theorem exec_txUnderrun : exec (.txUnderrun d p k t) s = execTxUnderrun d p k t s := rfl
theorem exec_ethModeWrite : exec (.ethModeWrite d v) s = execEthModeWrite d v s := rfl
theorem exec_resetThr : exec (.resetThr d p) s = execResetThr d p s := rfl
theorem exec_saValidWrite : exec (.saValidWrite d p a) s = execSaValidWrite d p a s := rfl
theorem exec_wakeFrameReceive : exec (.wakeFrameReceive d b) s = execWakeFrameReceive d b s := rfl
theorem exec_ncsiCommand : exec (.ncsiCommand b) s = execNcsiCommand b s := rfl
theorem exec_ncsiFrameTransmit : exec (.ncsiFrameTransmit n t b) s = execNcsiFrameTransmit n t b s := rfl

end PortOpcodes

section Reception
variable {s u : State} {d p t x y : Nat} {sym : Bool} {b : List Nat}

/-- Whether a frame, from its destination address through its FCS, is long enough for an FCS and carries the right one (R271). -/
def FcsGood (b : List Nat) : Prop := 4 ≤ b.length ∧ leNat (b.drop (b.length - 4)) = crc32 (b.take (b.length - 4))

/-- The check that a MAC and the wake link make of the FCS. -/
theorem fcsGood_iff : FcsGood b ↔ ¬ (b.length < 4 ∨ leNat (b.drop (b.length - 4)) ≠ crc32 (b.take (b.length - 4))) := by
  rw [FcsGood, not_or, Nat.not_lt, Decidable.not_not]

theorem fecCount_both (hx : x ≠ 0) (hy : y ≠ 0) : s.fecCount d p x y = (s.ethCount d p 19 x).ethCount d p 20 y := by
  simp only [State.fecCount, if_neg hx, if_neg hy]

/-- A frame on an UP port is checked at its instant, the FEC codewords being counted before (R271, R284). -/
theorem frameReceive_up (hport : s.portOk d p = true) (hup : s.get .ETH_PORT_STATUS_state d p = ethUP)
    (hu : u = (s.advanceTo t).fecCount d p x y) : exec (.frameReceive d p t sym b x y) s = .next (u.macRx d p sym b) := by
  rw [exec_frameReceive, execFrameReceive, if_pos ⟨hport, hup⟩, hu]

theorem macRx_symbolErrors : u.macRx d p true b = u.ethCount d p 18 1 := rfl

theorem macRx_badFcs (hbad : ¬ FcsGood b) : u.macRx d p false b =
    u.ethCount d p (if b.length < 64 then 16 else if u.maxFrame d p + 1024 < b.length then 17 else 13) 1 := by
  rw [fcsGood_iff, Decidable.not_not] at hbad
  simp only [State.macRx, Bool.false_eq_true, if_false, if_pos hbad]

theorem macRx_undersize (hgood : FcsGood b) (hshort : b.length < 64) : u.macRx d p false b = u.ethCount d p 14 1 := by
  simp only [State.macRx, Bool.false_eq_true, if_false, if_neg (fcsGood_iff.mp hgood), if_pos hshort]

theorem macRx_oversize (hgood : FcsGood b) (hmin : 64 ≤ b.length) (hlong : u.maxFrame d p < b.length) :
    u.macRx d p false b = u.ethCount d p 15 1 := by
  simp only [State.macRx, Bool.false_eq_true, if_false, if_neg (fcsGood_iff.mp hgood), if_neg (Nat.not_lt.mpr hmin), if_pos hlong]

/-- With MACsec off a received frame passes as it is, without a count (R280). -/
theorem msecRx_off (hoff : u.get .ETH_PORT_CFG_macsec_en d p = 0) : u.msecRx d p b = (u, .pass b false) := by
  rw [State.msecRx, if_pos hoff]

/-- A good frame that carries no flow control goes on to the receive buffer, without its FCS (R271, R275). -/
theorem macRx_passes (hgood : FcsGood b) (hmin : 64 ≤ b.length) (hmax : b.length ≤ u.maxFrame d p)
    (hoff : u.get .ETH_PORT_CFG_macsec_en d p = 0) (hplain : flowFrame (b.take (b.length - 4)) = none) :
    u.macRx d p false b = u.rxPass d p (b.take (b.length - 4)) (u.rxTuple d p) b.length := by
  simp only [State.macRx, Bool.false_eq_true, if_false, if_neg (fcsGood_iff.mp hgood), if_neg (Nat.not_lt.mpr hmin),
    if_neg (Nat.not_lt.mpr hmax), msecRx_off hoff, when_false, hplain]

theorem rxPass_noRoom {tuple wire : Nat} (hroom : u.rxRoom d p (rxClass b) (b.length + 4) = none) :
    u.rxPass d p b tuple wire = u.ethCount d p 22 1 := by
  simp only [State.rxPass, hroom]

end Reception

/-- Settles O33: the check at which a frame on an UP port ends decides what is counted. -/
theorem frameReceive : Obligations.FrameReceive := by
  refine ⟨?checks, fun s d p x y => fecCount_both⟩
  intro s u d p t x y b hport hup hu
  simp only [frameReceive_up hport hup hu]
  refine ⟨?symbols, ?badFcs, ?goodFcs, fun tuple wire => rxPass_noRoom⟩
  case symbols => rw [macRx_symbolErrors]
  case badFcs =>
    intro hlen hwrong
    rw [macRx_badFcs fun hgood => hwrong hgood.2]
  case goodFcs =>
    intro hlen hright
    have hgood : FcsGood b := ⟨hlen, hright⟩
    refine ⟨fun hshort => ?_, fun hmin hlong => ?_, fun hmin hmax hoff hplain => ?_⟩
    · rw [macRx_undersize hgood hshort]
    · rw [macRx_oversize hgood hmin hlong]
    · rw [macRx_passes hgood hmin hmax hoff hplain]

section Sending
variable {s u v : State} {d p t h k c : Nat} {b : List Nat}

/-- The flow-control frame that waits and may start goes first (R274). -/
theorem macFrameStart_flow (hup : s.macUp d p = true) (hu : u = s.advanceTo t) (hflow : u.flowNext d p = some c) :
    exec (.macFrameStart d p t) s = .next (u.flowSend d p c (u.get .ETH_fc_wait d (p * 8 + c) - 1)) := by
  subst hu
  simp only [exec_macFrameStart, execMacFrameStart, hup, Bool.not_true, Bool.false_eq_true, if_false, hflow]

/-- Without one, the frame of the management controller that may start goes (R291). -/
theorem macFrameStart_ncsi (hup : s.macUp d p = true) (hu : u = s.advanceTo t) (hflow : u.flowNext d p = none)
    (hncsi : u.ncsiMay d p = true) : exec (.macFrameStart d p t) s = .next (u.ncsiSend d p) := by
  subst hu
  simp only [exec_macFrameStart, execMacFrameStart, hup, Bool.not_true, Bool.false_eq_true, if_false, hflow, hncsi, if_true]

/-- Without either, the MAC turns to its own buffer (R276). -/
theorem macFrameStart_buffer (hup : s.macUp d p = true) (hu : u = s.advanceTo t) (hflow : u.flowNext d p = none)
    (hncsi : u.ncsiMay d p = false) : exec (.macFrameStart d p t) s = .next ((u.macNext d p).elim u (u.macSend d p)) := by
  subst hu
  simp only [exec_macFrameStart, execMacFrameStart, hup, Bool.not_true, Bool.false_eq_true, if_false, hflow, hncsi]
  cases (s.advanceTo t).macNext d p <;> rfl

/-- A frame for which its MAC has bytes leaves with its FCS, is counted, reports its fate and is freed. -/
theorem macSend_whole (hbytes : (u.lset .mac ((u.lget .mac d p).erase h) d p).macBytes d p h = (v, some b)) :
    u.macSend d p h = ((((v.emit .frame [d, p] (withFcs b)).txCount d p b).silLeft h).txFate h 0 0 0).freePkt h := by
  simp only [State.macSend, hbytes]

/-- A frame that is not buffered whole and is longer than the threshold can run dry: what was sent of it ends with the inverted FCS, the
threshold rises and the frame is dropped (R277, R278). -/
theorem txUnderrun_dry (hup : s.macUp d p = true) (hu : u = s.advanceTo t) (hnext : u.macNext d p = some h)
    (hlaunch : u.get .PKT_launch 0 h = 0) (hts : u.tsOp h = 0) (hstart : 64 * u.get .ETH_PORT_STATUS_threshold d p ≤ k)
    (hmore : k + 4 < u.get .PKT_L 0 h)
    (hbytes : (u.lset .mac ((u.lget .mac d p).erase h) d p).macBytes d p h = (v, some b)) :
    exec (.txUnderrun d p k t) s =
      .next ((((((v.emit .frame [d, p] (b.take k ++ leBytes 4 (0xFFFFFFFF - crc32 (b.take k)))).ethCount d p 45 1).set
        .ETH_PORT_STATUS_threshold (min (u.get .ETH_PORT_STATUS_threshold d p + 2) 64) d p).set .PKT_dt64 0 0 h)).dropPkt h
          reasonUNDERRUN) := by
  have hdry : ¬ (u.get .PKT_launch 0 h ≠ 0 ∨ u.tsOp h ≠ 0 ∨ k < 64 * u.get .ETH_PORT_STATUS_threshold d p ∨
      u.get .PKT_L 0 h ≤ k + 4) := by omega
  subst hu
  simp only [exec_txUnderrun, execTxUnderrun, hup, Bool.not_true, Bool.false_eq_true, if_false, hnext, if_neg hdry, hbytes]

end Sending

/-- Settles O34, by what the MAC finds to start at its instant. -/
theorem frameSend : Obligations.FrameSend := by
  intro s u v d p t hup hu
  refine ⟨fun c => macFrameStart_flow hup hu, macFrameStart_ncsi hup hu, ?whole, ?idle, fun h b k => txUnderrun_dry hup hu⟩
  case whole =>
    intro h b hflow hncsi hnext hbytes
    rw [macFrameStart_buffer hup hu hflow hncsi, hnext, Option.elim_some, macSend_whole hbytes]
  case idle =>
    intro hflow hncsi hnone
    rw [macFrameStart_buffer hup hu hflow hncsi, hnone, Option.elim_none]

section Settings
variable {s u v w : State} {d p a k n : Nat} {m : List Nat}

/-- The check that a write of ETH_MODE makes of the IOD's ports. -/
theorem allDisabled_iff : (List.range 8).all (fun p => decide (u.get .ETH_PORT_STATUS_state d p = ethDISABLED)) = true ↔
    ∀ p, p < 8 → u.get .ETH_PORT_STATUS_state d p = ethDISABLED := by
  simp only [List.all_eq_true, List.mem_range, decide_eq_true_eq]

/-- A new mode is taken while every port is DISABLED: statistics and thresholds start again, the channels of ports that are no more lose
their configuration, and the headroom is taken anew (R267, R273, R290). -/
theorem ethModeWrite_taken (hu : u = s.when (n.testBit 2) (·.set .ETH_MODE_mode_rejected 0 d))
    (hdisabled : ∀ p, p < 8 → u.get .ETH_PORT_STATUS_state d p = ethDISABLED) (hnew : u.get .ETH_MODE_mode d ≠ n % 4)
    (hw : w = ((u.set .ETH_MODE_mode n d).each (List.range 8) (fun p s =>
        ((s.set .ETH_PORT_STATUS_threshold 4 d p).set .TSU_PORT_STATUS_cal_done 0 d p).set .TSU_PORT_STATUS_mode n d p)).each
          (List.range 512) (fun k s => s.set .ETH_STAT_count 0 d k)) :
    exec (.ethModeWrite d n) s =
      .next ((w.each ((List.range 8).filter (fun p => !w.portOk d p && decide (w.get .NCSI_init 0 (8 * d + p) = 1)))
        (fun p s => s.ncsiLost (8 * d + p))).hrStat d) := by
  rw [exec_ethModeWrite, execEthModeWrite, ← hu]
  dsimp only
  rw [if_pos (allDisabled_iff.mpr hdisabled), if_neg hnew, ← hw]

theorem ethModeWrite_same (hu : u = s.when (n.testBit 2) (·.set .ETH_MODE_mode_rejected 0 d))
    (hdisabled : ∀ p, p < 8 → u.get .ETH_PORT_STATUS_state d p = ethDISABLED) (hsame : u.get .ETH_MODE_mode d = n % 4) :
    exec (.ethModeWrite d n) s = .next u := by
  subst hu
  simp only [exec_ethModeWrite, execEthModeWrite, if_pos (allDisabled_iff.mpr hdisabled), if_pos hsame]

theorem ethModeWrite_rejected (hu : u = s.when (n.testBit 2) (·.set .ETH_MODE_mode_rejected 0 d)) (hp : p < 8)
    (henabled : u.get .ETH_PORT_STATUS_state d p ≠ ethDISABLED) :
    exec (.ethModeWrite d n) s = .next (u.set .ETH_MODE_mode_rejected 1 d) := by
  subst hu
  simp only [exec_ethModeWrite, execEthModeWrite, if_neg fun hall => henabled (allDisabled_iff.mp hall p hp)]

theorem resetThr_port (hport : s.portOk d p = true) :
    exec (.resetThr d p) s = .next (s.set .ETH_PORT_STATUS_threshold 4 d p) := by
  rw [exec_resetThr, execResetThr, if_pos hport]

theorem saValidWrite_port (hport : s.portOk d p = true) : exec (.saValidWrite d p a) s = .next (s.saValid d p a) := by
  rw [exec_saValidWrite, execSaValidWrite, if_pos hport]

section KeyLoads
variable (hk : k = s.get .ETH_MSEC_SA_key_slot d (saIx p a))
  (hu : u = ((s.set .ETH_MSEC_SA_valid 1 d (saIx p a)).set .ETH_sa_key 0 d (saIx p a)).lset .saKey [] d (saIx p a))
include hk hu

/-- An SA does not take the key of a masked slot (R389). -/
theorem saValid_masked (hmasked : (attrValid (u.slotAttr k) && attrMasked (u.slotAttr k)) = true) :
    s.saValid d p a = u.bump .KEY_STAT_load_refused := by
  subst hk hu
  simp only [State.saValid, if_pos hmasked]

/-- An SA takes the key material that its slot gives (R281, R398). -/
theorem saValid_loaded (hopen : (attrValid (u.slotAttr k) && attrMasked (u.slotAttr k)) = false) (hfetch : u.keyFetch k = (v, some m)) :
    s.saValid d p a = (v.set .ETH_sa_key 1 d (saIx p a)).lset .saKey m d (saIx p a) := by
  subst hk hu
  simp only [State.saValid, hopen, Bool.false_eq_true, if_false, hfetch]

theorem saValid_noKey (hopen : (attrValid (u.slotAttr k) && attrMasked (u.slotAttr k)) = false) (hfetch : u.keyFetch k = (v, none)) :
    s.saValid d p a = v := by
  subst hk hu
  simp only [State.saValid, hopen, Bool.false_eq_true, if_false, hfetch]

end KeyLoads

end Settings

section WakeLink
variable {s : State} {d k : Nat} {b : List Nat}

/-- The wake link listens: it is enabled and has its clock, the main rails are removed and VAUX is there, and nothing woke yet (R287,
R564). -/
structure WakeListens (s : State) (d : Nat) : Prop where
  enabled : s.get .ETH_WAKE_CFG_wake_en d = 1
  mainOff : s.get .PWR_main = 0
  aux : s.get .PWR_vaux = 1
  unwoken : s.get .ETH_WAKE_STATUS_woke d = 0
  clock : s.getb .XD_CLK_DIE_PRESENT_present 15 0 (2 + d) = true

theorem WakeListens.not_deaf (hon : WakeListens s d) : ¬ (s.get .ETH_WAKE_CFG_wake_en d = 0 ∨ s.get .PWR_main = 1 ∨ s.get .PWR_vaux = 0 ∨
    s.get .ETH_WAKE_STATUS_woke d = 1 ∨ (!s.getb .XD_CLK_DIE_PRESENT_present 15 0 (2 + d)) = true) := by
  simp [hon.enabled, hon.mainOff, hon.aux, hon.unwoken, hon.clock]

/-- A good frame with the magic packet is latched as such and drives PEn_WAKE_N low (R287, R288). -/
theorem wakeFrameReceive_magic (hon : WakeListens s d) (hgood : FcsGood b) (hen : s.get .ETH_WAKE_CFG_magic_en d = 1)
    (hmagic : magicIn (s.get .ETH_WAKE_MAC d) (b.take 1518) = true) :
    exec (.wakeFrameReceive d b) s = .next ((((s.set .ETH_WAKE_STATUS_woke 1 d).set .ETH_WAKE_STATUS_by_magic 1 d).set
      .ETH_WAKE_STATUS_pattern 0 d).wakeDrive d) := by
  simp only [exec_wakeFrameReceive, execWakeFrameReceive, if_neg hon.not_deaf, if_neg (fcsGood_iff.mp hgood), hen, hmagic, decide_true,
    Bool.and_self, if_true]

/-- A good frame is latched with the lowest enabled pattern that it matches, and drives PEn_WAKE_N low (R287, R288). -/
theorem wakeFrameReceive_pattern (hon : WakeListens s d) (hgood : FcsGood b) (hoff : s.get .ETH_WAKE_CFG_magic_en d = 0)
    (hpat : (List.range 8).find? (fun k => s.getb .ETH_WAKE_CFG_pat_en k d && s.wakeHit d k (b.take 1518)) = some k) :
    exec (.wakeFrameReceive d b) s = .next ((((s.set .ETH_WAKE_STATUS_woke 1 d).set .ETH_WAKE_STATUS_by_magic 0 d).set
      .ETH_WAKE_STATUS_pattern k d).wakeDrive d) := by
  simp only [exec_wakeFrameReceive, execWakeFrameReceive, if_neg hon.not_deaf, if_neg (fcsGood_iff.mp hgood), hoff, Nat.zero_ne_one,
    decide_false, Bool.false_and, Bool.false_eq_true, if_false, hpat]

end WakeLink

/-- Settles O35, by the cases of each command. -/
theorem portSettings : Obligations.PortSettings := by
  refine ⟨?mode, fun s d p => resetThr_port, ?saValid, ?wake⟩
  case mode =>
    exact fun s u d v hu => ⟨fun hdisabled => ⟨fun w hnew hw => ethModeWrite_taken hu hdisabled hnew hw, ethModeWrite_same hu hdisabled⟩,
      fun p hp henabled => ethModeWrite_rejected hu hp henabled⟩
  case saValid =>
    intro s u v d p a k hport hk hu
    rw [saValidWrite_port hport]
    refine ⟨fun hmasked => ?_, fun hopen => ⟨s.saValid d p a, rfl, fun m => saValid_loaded hk hu hopen, saValid_noKey hk hu hopen⟩⟩
    rw [saValid_masked hk hu hmasked]
  case wake =>
    intro s d b f hen hmain haux hwoke hclock hlen hfcs hf
    subst hf
    have hon : WakeListens s d := ⟨hen, hmain, haux, hwoke, hclock⟩
    have hgood : FcsGood b := ⟨hlen, hfcs⟩
    exact ⟨wakeFrameReceive_magic hon hgood, fun k => wakeFrameReceive_pattern hon hgood⟩

section ControlPackets
variable {s : State} {n : Nat} {b : List Nat}

section Addressed
variable (hon : s.ncsiOn = true) (haddr : b.getD 5 0 / 32 % 8 = s.get .ETH_NCSI_CFG_package_id)
  (hn : n = 16 + (beNat (slice b 6 2) % 4096 + 3) / 4 * 4)
include hon haddr hn

/-- A packet for the package is counted, and carried out unless it carries a wrong checksum (R290; log entry 42). -/
theorem ncsiCommand_addressed : exec (.ncsiCommand b) s = .next (
    if beNat (slice b n 4) ≠ 0 ∧ (beNat (slice b n 4) + ncsiSum (b.take n)) % 2 ^ 32 ≠ 0 then
      ((s.bump .NCSI_cmds).bump .NCSI_sum_err).bump .NCSI_dropped
    else (s.bump .NCSI_cmds).ncsiCommand b) := by
  have hours : ¬ ((!s.ncsiOn) = true ∨ b.getD 5 0 / 32 % 8 ≠ s.get .ETH_NCSI_CFG_package_id) := by rw [hon, haddr]; simp
  subst hn
  rw [exec_ncsiCommand, execNcsiCommand, if_neg hours]

theorem ncsiCommand_rightSum (hsum : (beNat (slice b n 4) + ncsiSum (b.take n)) % 2 ^ 32 = 0) :
    exec (.ncsiCommand b) s = .next ((s.bump .NCSI_cmds).ncsiCommand b) := by
  rw [ncsiCommand_addressed hon haddr hn, if_neg fun hwrong => hwrong.2 hsum]

theorem ncsiCommand_wrongSum (hgiven : beNat (slice b n 4) ≠ 0) (hsum : (beNat (slice b n 4) + ncsiSum (b.take n)) % 2 ^ 32 ≠ 0) :
    exec (.ncsiCommand b) s = .next (((s.bump .NCSI_cmds).bump .NCSI_sum_err).bump .NCSI_dropped) := by
  rw [ncsiCommand_addressed hon haddr hn, if_pos ⟨hgiven, hsum⟩]

end Addressed

/-- Select Package, which has 4 bytes of payload, selects the package and takes its last byte as the arbitration setting (DSP0222; log
entry 42). -/
theorem ncsiCommand_selectPackage (htype : b.getD 4 0 = 0x01) (hpayload : beNat (slice b 6 2) % 4096 = 4) (hlen : 20 ≤ b.length) :
    s.ncsiCommand b = ((s.set .NCSI_sel 1).set .NCSI_hwarb (b.getD 19 0)).ncsiAnswer b ncOk := by
  have hwhole : ((b.drop 16).take 4).length = 4 := by simp only [List.length_take, List.length_drop]; omega
  have hlast : ((b.drop 16).take 4).getD 3 0 = b.getD 19 0 := by simp [List.getD_eq_getElem?_getD]
  have hneeds : ncsiLen 0x01 = some 4 := rfl
  simp only [State.ncsiCommand, htype, hpayload, hneeds, hwhole, hlast, ne_eq, not_true, if_false, if_true]

end ControlPackets

section ControllerFrames
variable {s u v : State} {n t : Nat} {b : List Nat}

/-- A frame for a channel whose transmission is not enabled, or without CK_NCSI, is dropped (R291, R292). -/
theorem ncsiFrameTransmit_dropped (hu : u = s.advanceTo t) (hoff : u.ncsiOn = false ∨ u.get .NCSI_tx 0 n = 0) :
    exec (.ncsiFrameTransmit n t b) s = .next (u.bump .NCSI_pt_txdrop 0 n) := by
  have hdrop : (!u.ncsiOn) = true ∨ u.get .NCSI_tx 0 n = 0 ∨ (!u.macUp (n / 8 % 2) (n % 8)) = true :=
    hoff.imp (congrArg not) .inl
  subst hu
  rw [exec_ncsiFrameTransmit, execNcsiFrameTransmit]
  dsimp only
  rw [if_pos hdrop]

/-- A frame for an enabled channel waits at the port's MAC, and starts at once where it may (R291). -/
theorem ncsiFrameTransmit_queued (hu : u = s.advanceTo t) (hon : u.ncsiOn = true) (htx : u.get .NCSI_tx 0 n ≠ 0)
    (hup : u.macUp (n / 8 % 2) (n % 8) = true)
    (hv : v = u.lset .ncsiTx (u.lget .ncsiTx (n / 8 % 2) (n % 8) ++ (b.length :: b)) (n / 8 % 2) (n % 8)) :
    exec (.ncsiFrameTransmit n t b) s =
      .next (if v.ncsiMay (n / 8 % 2) (n % 8) then v.ncsiSend (n / 8 % 2) (n % 8) else v) := by
  have htaken : ¬ ((!u.ncsiOn) = true ∨ u.get .NCSI_tx 0 n = 0 ∨ (!u.macUp (n / 8 % 2) (n % 8)) = true) := by simp [hon, htx, hup]
  subst hv hu
  rw [exec_ncsiFrameTransmit, execNcsiFrameTransmit]
  dsimp only
  rw [if_neg htaken]

end ControllerFrames

/-- Settles O36, by the checksum of a control packet and by the channel of a frame. -/
theorem ncsiPackage : Obligations.NcsiPackage := by
  refine ⟨?packet, fun s b => ncsiCommand_selectPackage, ?frame⟩
  case packet =>
    exact fun s b n hon haddr hn => ⟨ncsiCommand_rightSum hon haddr hn, ncsiCommand_wrongSum hon haddr hn⟩
  case frame =>
    exact fun s u v n t b hu => ⟨ncsiFrameTransmit_dropped hu, ncsiFrameTransmit_queued hu⟩

end Sys2Proof.Machine
end

section
/-! SUPPORT. Laws of the transmit scheduler, of its queue samples and of the share reconciler (R299 to R312, R481, R486): what a dispatch, an
applied shaper, a sampling boundary and an end of an epoch come to; and the statement that rests on them. A port's choice is `State.pickPort`
(log entry 17); a queue waits for the gate's judgement of its launch frame (R133, R304; log entry 147); the reconciler's divisions round down
(log entry 43). -/

namespace Sys2Proof.Machine

section SchedulingCommands
variable (s : State) (d p n v : Nat)

theorem exec_schedulerDispatch : exec (.schedulerDispatch d p) s = execSchedulerDispatch d p s := rfl
theorem exec_shaperApply : exec (.shaperApply d n v) s = execShaperApply d n v s := rfl
theorem exec_queueSample : exec (.queueSample d) s = execQueueSample d s := rfl
theorem exec_reconcilerEpoch : exec .reconcilerEpoch s = execReconcilerEpoch s := rfl

end SchedulingCommands

section Dispatch
variable {s u v : State} {d p i cn n q len h : Nat} {r : List Nat}

/-- A dispatch charges the path and the tenant, takes the frame from its queue and from the region's buffer to the MAC, and holds the queue
for a launch frame (R297, R301, R304, R481). -/
theorem dispatch_charged (hv : v = (((u.chargePath d q (u.get .PKT_L 0 h)).chargeFrame d (u.get .TOPO_tn_tenant d i)
      (u.iodCost (u.get .PKT_L 0 h)) h).dequeue d q h).bufFree h) :
    u.dispatch d p i q h = (v.lpush .mac h d p).set .NODE_gate
      (if (v.lpush .mac h d p).get .PKT_launch 0 h = 0 then 0 else h + 1) d q := by
  rw [State.dispatch, hv]

/-- A port that may send dispatches the head of the queue that it chose (R299). -/
theorem schedulerDispatch_chosen (hup : s.macUp d p = true) (hpick : s.pickPort d p = (u, some ([i, cn, n], len)))
    (hhead : u.lget .txq d (n - 9216) = h :: r) :
    exec (.schedulerDispatch d p) s = .next (u.dispatch d p i (n - 9216) h) := by
  simp only [exec_schedulerDispatch, execSchedulerDispatch, hup, Bool.not_true, Bool.false_eq_true, if_false, hpick, hhead]

/-- A port that may not send holds its queues (R307). -/
theorem schedulerDispatch_down (hdown : s.macUp d p = false) : exec (.schedulerDispatch d p) s = .next s := by
  simp only [exec_schedulerDispatch, execSchedulerDispatch, hdown, Bool.not_false, if_true]

end Dispatch

section Shaper
variable {s u : State} {d n v : Nat}

/-- The settings of a node's shaper registers are its buckets' (R303). -/
def State.shaperLoad (s : State) (d n : Nat) : State :=
  (((((s.set .NODE_cir_en (s.get .SCH_NODE_cir_en d n) d n).set .NODE_pir_en (s.get .SCH_NODE_pir_en d n) d n).set
    .NODE_cir (s.get .SCH_NODE_cir d n) d n).set .NODE_pir (s.get .SCH_NODE_pir d n) d n).set .NODE_cbs (s.get .SCH_NODE_cbs d n) d n).set
    .NODE_pbs (s.get .SCH_NODE_pbs d n) d n

/-- What the buckets become is read after the load, which leaves reset_mode as it was. -/
theorem shaperLoad_reset_mode : (s.shaperLoad d n).get .SCH_NODE_reset_mode d n = s.get .SCH_NODE_reset_mode d n := by
  simp [State.shaperLoad]

theorem shaperApply_full (hmode : s.get .SCH_NODE_reset_mode d n = 0) : s.shaperApply d n = (s.shaperLoad d n).bucketsFull d n := by
  have hloaded := shaperLoad_reset_mode.trans hmode
  exact if_pos hloaded

theorem shaperApply_zero (hmode : s.get .SCH_NODE_reset_mode d n ≠ 0) :
    s.shaperApply d n = (((s.shaperLoad d n).set .NODE_ct 0 d n).set .NODE_pt 0 d n).set .NODE_at (s.shaperLoad d n).mono d n := by
  have hloaded := shaperLoad_reset_mode.trans_ne hmode
  exact if_neg hloaded

/-- The write of pbs reaches no other setting that the shaper takes (R303). -/
theorem shaperLoad_pbsWritten : (s.set .SCH_NODE_pbs v d n).shaperLoad d n =
    ((((((s.set .SCH_NODE_pbs v d n).set .NODE_cir_en (s.get .SCH_NODE_cir_en d n) d n).set .NODE_pir_en (s.get .SCH_NODE_pir_en d n) d n).set
      .NODE_cir (s.get .SCH_NODE_cir d n) d n).set .NODE_pir (s.get .SCH_NODE_pir d n) d n).set .NODE_cbs (s.get .SCH_NODE_cbs d n) d n).set
      .NODE_pbs ((s.set .SCH_NODE_pbs v d n).get .SCH_NODE_pbs d n) d n := by
  simp [State.shaperLoad]

end Shaper

section Samples
variable {s : State} {d per t : Nat}

/-- At the next multiple of the period every enabled entry gets its record, in ascending order (R309). -/
theorem queueSample_enabled (hon : s.get .SCH_SAMPLE_CFG_enable d ≠ 0) (hper : per = max 10 (s.get .SCH_SAMPLE_CFG_period_us d) * usUnits)
    (ht : t = (s.now / per + 1) * per) :
    exec (.queueSample d) s = .next ((s.advanceTo t).each (List.range 256) (fun k s =>
      if s.get .SCH_SAMPLE_Q_enable d k = 1 then s.samplePut d (s.get .SCH_SAMPLE_Q_queue d k) t else s)) := by
  rw [exec_queueSample, execQueueSample, if_neg hon, ht, hper]

end Samples

section Epochs
variable {s u v : State} {total wsum : Nat} {l : List Nat} {new : List (Nat × Int × Bool)}

/-- The debts that an epoch leaves: those of the contending tenants, and 0 for every other (R312). -/
def State.debtsLeft (u : State) (new : List (Nat × Int × Bool)) : State :=
  (u.each (List.range 256) (fun t s => s.set .DEBT 0 0 t)).each new (fun x s => s.set .DEBT (unsgn 64 x.2.1) 0 x.1)

/-- The end of an epoch once its debts stand: the largest and a clamped one are recorded, the service counts start again and the quanta follow
(R312). -/
def State.epochClosed (v : State) (new : List (Nat × Int × Bool)) : State :=
  ((((v.set .SCH_RECON_STAT_max_debt (min 0xFFFF (max (new.foldl (fun m x => max m (x.2.1.natAbs / 1024)) 0)
    (v.get .SCH_RECON_STAT_max_debt)))).when (new.any (fun x => x.2.2)) (·.bump .SCH_RECON_STAT_cap_hits))).each (List.range 256)
      (fun t s => s.set .SERVED 0 0 t)).setQuanta

/-- Where no tenant contends, the statistics stand. -/
theorem epochClosed_nil : v.epochClosed [] =
    ((v.set .SCH_RECON_STAT_max_debt (min 0xFFFF (v.get .SCH_RECON_STAT_max_debt))).each (List.range 256)
      (fun t s => s.set .SERVED 0 0 t)).setQuanta := by
  rw [State.epochClosed, List.foldl_nil, List.any_nil, when_false, Nat.zero_max]

/-- An epoch of an enabled reconciler moves the debts of the tenants that contended throughout it (R311, R312). -/
theorem reconcilerEpoch_enabled (hu : u = s.advanceTo (s.now + (10 * usUnits - s.mono % (10 * usUnits))))
    (hon : u.get .SCH_RECON_CFG_enable ≠ 0) (hl : l = u.contending (u.mono - 10 * usUnits))
    (htotal : total = (l.map (fun t => u.get .SERVED 0 t)).sum) (hwsum : wsum = (l.map (fun t => u.weight t)).sum)
    (hnew : new = l.map (fun t => (t, u.newDebt total wsum t))) :
    exec .reconcilerEpoch s = .next ((u.debtsLeft new).epochClosed new) := by
  rw [exec_reconcilerEpoch, execReconcilerEpoch, ← hu]
  dsimp only
  rw [if_neg hon, ← hl, ← htotal, ← hwsum, ← hnew, State.epochClosed, State.debtsLeft]

/-- With the reconciler off no tenant contends, and every debt is 0 (R312). -/
theorem reconcilerEpoch_disabled (hu : u = s.advanceTo (s.now + (10 * usUnits - s.mono % (10 * usUnits))))
    (hoff : u.get .SCH_RECON_CFG_enable = 0) : exec .reconcilerEpoch s = .next ((u.debtsLeft []).epochClosed []) := by
  rw [exec_reconcilerEpoch, execReconcilerEpoch, ← hu]
  dsimp only
  rw [if_pos hoff, List.map_nil, State.epochClosed, State.debtsLeft]

end Epochs

/-- Settles O37, by the cases of each command. -/
theorem scheduling : Obligations.Scheduling := by
  refine ⟨?dispatch, fun s d p => schedulerDispatch_down, ?shaper, fun s d per t => queueSample_enabled, ?off, ?on⟩
  case dispatch =>
    intro s u v d p i cn n len h r hup hpick hhead hv
    rw [schedulerDispatch_chosen hup hpick hhead, dispatch_charged hv]
  case shaper =>
    intro s u d n v hu
    rw [← shaperLoad_pbsWritten] at hu
    have hmode : (s.set .SCH_NODE_pbs v d n).get .SCH_NODE_reset_mode d n = s.get .SCH_NODE_reset_mode d n := by simp
    rw [exec_shaperApply, execShaperApply, hu, ← hmode]
    exact ⟨fun hfull => by rw [shaperApply_full hfull], fun hzero => by rw [shaperApply_zero hzero]⟩
  case off =>
    intro s u _ hu hoff
    rw [reconcilerEpoch_disabled hu hoff, epochClosed_nil, State.debtsLeft, each_nil]
  case on =>
    intro s u v total wsum l new hon hu hl htotal hwsum hnew hv
    have hstays : u.get .SCH_RECON_CFG_enable ≠ 0 := by rwa [hu, get_advanceTo s _ (by decide) (by decide)]
    rw [reconcilerEpoch_enabled hu hstays hl htotal hwsum hnew, State.epochClosed, State.debtsLeft, ← hv]

end Sys2Proof.Machine
end

section
/-! SUPPORT. Laws of a step (log entries 1 and 21): which command it runs, that every command answers a next state, and what every step keeps
of the state, of its queue and of what left the device; and the statements that rest on them. -/

namespace Sys2Proof.Machine

section Steps
variable {s t : State} {c : Instr} {r : List Instr}

/-- A step runs the command at the front of the queue on the state that holds the rest. -/
theorem step_front (hq : s.pending = c :: r) : step s = exec c { s with pending := r } := by
  rw [step, hq]

theorem step_idle (hq : s.pending = []) : step s = .next s := by
  rw [step, hq]

/-- No meaning of the table's 340 rows stops the device: each is a next state. -/
theorem exec_runs (c : Instr) (s : State) : runsOn (exec c s) = true := by
  cases c <;> rfl

/-- What is shown of the state that a command answers holds of some state that it answers. -/
theorem exec_completes {Q : State → Prop} (h : ∀ u, exec c s = .next u → Q u) : ∃ u, exec c s = .next u ∧ Q u := by
  have hruns := exec_runs c s
  cases hx : exec c s with
  | next u => exact ⟨u, rfl, h u hx⟩
  | fault r => rw [hx] at hruns; cases hruns
  | refused r => rw [hx] at hruns; cases hruns

/-- A command answers one state. -/
theorem exec_unique {u v : State} (hu : exec c s = .next u) (hv : exec c s = .next v) : u = v := by
  rw [hu] at hv
  exact Host.Outcome.next.inj hv

/-- The canonical form and the widths say nothing of the queue. -/
theorem wf_withQueue (hs : s.wf = true) : State.wf { s with pending := r } = true := hs

end Steps

/-- Settles O1, by the two cases of the queue. -/
theorem stepTakesFront : Obligations.StepTakesFront :=
  ⟨fun _ _ => step_front rfl, fun _ => step_idle⟩

/-- Settles O2: `exec_runs` for each row of the table. -/
theorem everyCommandRuns : Obligations.EveryCommandRuns := exec_runs

/-- Settles O3: at reset every map is empty. -/
theorem resetWellFormed : Obligations.ResetWellFormed := ⟨rfl, rfl⟩

/-- Settles O4: every primitive operation keeps the canonical form, and so does a step. -/
theorem stepKeepsWf : Obligations.StepKeepsWf :=
  fun _ _ hs hstep => step_keeps wf_closed (fun _ _ _ => wf_withQueue hs) (fun _ => hs) hstep

/-- Settles O5: no primitive operation touches the queue, so what waits after a step is what the step left in it before its command ran. -/
theorem stepPopsOne : Obligations.StepPopsOne := by
  intro s t hstep
  refine step_keeps (pending_closed s.pending.tail) (fun c r hq => ?_) (fun hq => ?_) hstep
  · rw [hq, List.tail_cons]
  · rw [hq, List.tail_nil]

/-- Settles O6: every primitive operation adds to what left the device, if anything, and draws free values in order. -/
theorem outputGrows : Obligations.OutputGrows :=
  fun s _ hstep => step_keeps (out_closed s.out s.free) (fun _ _ _ => ⟨List.prefix_rfl, le_rfl⟩) (fun _ => ⟨List.prefix_rfl, le_rfl⟩) hstep

end Sys2Proof.Machine
end

section
/-! SUPPORT. Laws of the connection channel and of the context cache (R319 to R322, R337, R340, R343): what CREATE, MODIFY, DESTROY and QUERY come
to once their checks pass, what frees a destroyed context, and the place that a loaded context takes; and the statement that rests on them.
The channel of a DESTROY stays busy until its context is FREE (log entry 102). -/

namespace Sys2Proof.Machine

section ConnectionCommands
variable (s : State) (ch c n : Nat)

theorem exec_silCreate : exec (.silCreate ch c) s = execSilCreate ch c s := rfl
theorem exec_silModify : exec (.silModify ch c) s = execSilModify ch c s := rfl
theorem exec_silDestroy : exec (.silDestroy ch c) s = execSilDestroy ch c s := rfl
theorem exec_connectionRelease : exec (.connectionRelease c) s = execConnectionRelease c s := rfl
theorem exec_silQuery : exec (.silQuery ch c) s = execSilQuery ch c s := rfl
theorem exec_contextCacheFill : exec (.contextCacheFill n c) s = execContextCacheFill n c s := rfl

end ConnectionCommands

section Channel
variable {s u : State} {ch c r : Nat}

/-- The check that some region is online. -/
theorem anyOnline_iff : (List.range 8).any (fun n => s.online n) = true ↔ ∃ n, n < 8 ∧ s.online n = true := by
  simp only [List.any_eq_true, List.mem_range]

/-- A free context with an acceptable record of its own tenant becomes an ACTIVE connection of the next generation (R319, R321, R322). -/
theorem silCreate_accepted (hidle : s.get .SIL_CH_busy 0 ch = 0) (hr : r = s.chRec .SIL_CH_record ch 24) (hc : c < backendCtx)
    (hport : s.get .SIL_CFG_udp_port ≠ 0) (hroce : (recAt r 9 1).testBit 2 = true → s.get .SIL_CFG_roce_en ≠ 0)
    (hfree : s.get .CN_state 0 c = 0) (hten : s.tenActive (recAt r 4 1) = true) (hok : cnRecOk c r = true)
    (honline : ∃ n, n < 8 ∧ s.online n = true) (hown : s.cnRecOwn r = true)
    (hu : u = (s.set .CN_gen (s.get .CN_gen 0 c + 1) 0 c).cnLoad c r) :
    exec (.silCreate ch c) s = .next (((u.set .SIL_CH_conn_id (u.cnId c) 0 ch).set .SIL_CH_state 1 0 ch).silRes ch 0) := by
  have hstate : ¬ (s.get .SIL_CFG_udp_port = 0 ∨ ((recAt r 9 1).testBit 2 = true ∧ s.get .SIL_CFG_roce_en = 0) ∨ s.get .CN_state 0 c ≠ 0 ∨
      (!s.tenActive (recAt r 4 1)) = true) := by
    simp only [hport, hfree, hten, false_or, ne_eq, not_true, Bool.not_true, Bool.false_eq_true, or_false]
    exact fun h => hroce h.1 h.2
  rw [exec_silCreate, execSilCreate, ← hr, hu]
  simp only [hidle, Nat.zero_ne_one, if_false, if_neg (Nat.not_le.mpr hc), if_neg hstate, hok,
    anyOnline_iff.mpr honline, hown, Bool.not_true, Bool.false_eq_true]

section Modify
variable (hidle : s.get .SIL_CH_busy 0 ch = 0) (hr : r = s.chRec .SIL_CH_record ch 24) (hc : c < backendCtx) (hactive : s.get .CN_state 0 c = 1)
  (hfixed : ∀ p ∈ cnFixed, recAt (s.get .CN_rec 0 c) p.1 p.2 = recAt r p.1 p.2) (hok : cnRecOk c r = true)
  (hmtu : recAt (s.get .CN_rec 0 c) 8 1 = recAt r 8 1)
include hidle hr hc hactive hfixed hok hmtu

/-- A record in range that keeps the fixed bytes and the MTU is applied if its key slots are the tenant's (R321, R337). -/
theorem silModify_checked : exec (.silModify ch c) s = .next (
    if !(s.tenSlot (s.cnTenant c) (recAt r 12 4) && s.tenSlot (s.cnTenant c) (recAt r 16 4)) then s.silRes ch 4
    else (s.cnModify c r).silRes ch 0) := by
  have hkeeps : ¬ (cnFixed.any (fun p => decide (recAt (s.get .CN_rec 0 c) p.1 p.2 ≠ recAt r p.1 p.2)) = true ∨ (!cnRecOk c r) = true ∨
      (recAt (s.get .CN_rec 0 c) 8 1 ≠ recAt r 8 1 ∧ ((!s.cnFlag c 2) = true ∨ s.get .CN_used 0 c = 1))) := by
    simpa [hok, hmtu] using hfixed
  rw [exec_silModify, execSilModify, ← hr]
  simp only [hidle, Nat.zero_ne_one, if_false, if_neg (Nat.not_le.mpr hc), hactive, ne_eq, not_true,
    if_neg hkeeps]

theorem silModify_applied (htx : s.tenSlot (s.cnTenant c) (recAt r 12 4) = true) (hrx : s.tenSlot (s.cnTenant c) (recAt r 16 4) = true) :
    exec (.silModify ch c) s = .next ((s.cnModify c r).silRes ch 0) := by
  rw [silModify_checked hidle hr hc hactive hfixed hok hmtu, htx, hrx]; rfl

theorem silModify_outOfRange
    (hslot : s.tenSlot (s.cnTenant c) (recAt r 12 4) = false ∨ s.tenSlot (s.cnTenant c) (recAt r 16 4) = false) :
    exec (.silModify ch c) s = .next (s.silRes ch 4) := by
  rw [silModify_checked hidle hr hc hactive hfixed hok hmtu, Bool.and_eq_false_iff.mpr hslot]; rfl

end Modify

/-- DESTROY completes what is incomplete with FLUSHED; the context is FREE at once where no packet of it is in the device (R340). -/
theorem silDestroy_flushed (hidle : s.get .SIL_CH_busy 0 ch = 0) (hc : c < backendCtx) (hused : s.get .CN_state 0 c ≠ 0)
    (hliving : s.get .CN_dying 0 c = 0) (hu : u = ((s.cnFlush c msFLUSHED).set .CN_state 2 0 c).set .CN_dying (ch + 1) 0 c) :
    exec (.silDestroy ch c) s = .next (if u.cnPackets c then u.set .SIL_CH_busy 1 0 ch else u.cnFree c) := by
  have hstate : ¬ (s.get .CN_state 0 c = 0 ∨ s.get .CN_dying 0 c ≠ 0) := by simp [hused, hliving]
  subst hu
  simp only [exec_silDestroy, execSilDestroy, hidle, Nat.zero_ne_one, if_false, if_neg (Nat.not_le.mpr hc), if_neg hstate]

/-- The last packet of a destroyed connection frees it (R340). -/
theorem connectionRelease_last (hdying : s.get .CN_dying 0 c ≠ 0) (hnone : s.cnPackets c = false) :
    exec (.connectionRelease c) s = .next (s.cnFree c) := by
  rw [exec_connectionRelease, execConnectionRelease, if_pos ⟨hdying, by rw [hnone]; rfl⟩]

theorem silQuery_shows (hidle : s.get .SIL_CH_busy 0 ch = 0)
    (hu : u = (s.chShow .SIL_CH_record ch 24 (s.get .CN_rec 0 c)).set .SIL_CH_state (s.get .CN_state 0 c) 0 ch) :
    exec (.silQuery ch c) s =
      .next (((u.set .SIL_CH_active_paths (u.actPaths c 255).length 0 ch).set .SIL_CH_conn_id (u.cnId c) 0 ch).silRes ch 0) := by
  subst hu
  simp only [exec_silQuery, execSilQuery, hidle, Nat.zero_ne_one, if_false]

end Channel

section ContextCache
variable {s : State} {n c : Nat}

/-- With fewer than 8,192 contexts in the cache, a loaded one joins them (R320). -/
theorem contextCacheFill_room (hfill : s.get .CACHE_fill n c ≠ 0)
    (hroom : ((s.keysOf .CACHE_in).filter (fun k => decide (k.1 = n))).length < 8192) :
    exec (.contextCacheFill n c) s = .next (((s.set .CACHE_fill 0 n c).set .CACHE_in 1 n c).cacheTouch n c) := by
  rw [exec_contextCacheFill, execContextCacheFill, if_neg hfill]
  dsimp only
  rw [List.length_map, if_pos hroom]

end ContextCache

/-- Settles O38, by the checks of each command. -/
theorem connections : Obligations.Connections := by
  refine ⟨?create, ?modify, ?destroy, fun s c => connectionRelease_last, fun s u ch c => silQuery_shows, fun s n c => contextCacheFill_room⟩
  case create =>
    exact fun s u ch c r hidle hr hc hport hroce hfree hten hok honline hown hu =>
      silCreate_accepted hidle hr hc hport hroce hfree hten hok honline hown hu
  case modify =>
    exact fun s ch c r hidle hr hc hactive hfixed hok hmtu _ =>
      ⟨silModify_applied hidle hr hc hactive hfixed hok hmtu, silModify_outOfRange hidle hr hc hactive hfixed hok hmtu⟩
  case destroy =>
    intro s u ch c hidle hc hused hliving hu
    rw [silDestroy_flushed hidle hc hused hliving hu]
    exact ⟨fun hsome => by rw [if_pos hsome], fun hnone => by rw [hnone]; rfl⟩

end Sys2Proof.Machine
end

section
/-! SUPPORT. Laws of Sillage and RoCE packets (R320, R323, R328, R332, R333, R340, R343, R344, R348): what the transport block of a connection's
region sends and asks for, and what it makes of each packet that it takes; and the statement that rests on them. A packet that is not of the
transport passes on (log entry 49), and the IP version of a RoCE packet must be its connection's (log entry 162). -/

namespace Sys2Proof.Machine

section PacketCommands
variable (s : State) (c t n h : Nat) (agree : Bool)

theorem exec_sillagePacketSend : exec (.sillagePacketSend c t agree) s = execSillagePacketSend c t agree s := rfl
theorem exec_sillagePacketReceive : exec (.sillagePacketReceive n h agree) s = execSillagePacketReceive n h agree s := rfl
theorem exec_ackReceive : exec (.ackReceive n h agree) s = execAckReceive n h agree s := rfl
theorem exec_nakReceive : exec (.nakReceive n h agree) s = execNakReceive n h agree s := rfl
theorem exec_rocePacketReceive : exec (.rocePacketReceive n h) s = execRocePacketReceive n h s := rfl

end PacketCommands

section Sending
variable {s u v : State} {c t n st : Nat} {agree : Bool}

/-- A connection sends: it is ACTIVE and not held, its region is online, and its protocol is allowed (R323, R343). -/
structure ConnSends (s : State) (c : Nat) : Prop where
  active : s.get .CN_state 0 c = 1
  notFatal : s.fatal = false
  running : s.get .CN_stop 0 c = 0
  online : s.online (s.cnRegion c) = true
  roce : s.cnFlag c 2 = true → s.get .SIL_CFG_roce_en ≠ 0

theorem ConnSends.not_held (hs : ConnSends s c) : ¬ (s.get .CN_state 0 c ≠ 1 ∨ s.fatal = true ∨ s.get .CN_stop 0 c = 1 ∨
    (!s.online (s.cnRegion c)) = true ∨ (s.cnFlag c 2 = true ∧ s.get .SIL_CFG_roce_en = 0)) := by
  have hroce : ¬ (s.cnFlag c 2 = true ∧ s.get .SIL_CFG_roce_en = 0) := fun h => hs.roce h.1 h.2
  simp [hs.active, hs.notFatal, hs.running, hs.online, hroce]

/-- The command at a connection that sends, from its instant on. -/
theorem sillagePacketSend_sends (hs : ConnSends s c) (hn : n = s.cnRegion c) (hu : u = s.advanceTo t) :
    (u.get .CACHE_in n c = 0 → exec (.sillagePacketSend c t agree) s = .next (u.cacheMiss n c)) ∧
    (u.get .CACHE_in n c ≠ 0 → (u.cacheTouch n c).cnFlag c 2 = true →
      exec (.sillagePacketSend c t agree) s = .next ((u.cacheTouch n c).roceStep n c)) ∧
    (u.get .CACHE_in n c ≠ 0 → (u.cacheTouch n c).cnFlag c 2 = false → (u.cacheTouch n c).get .SIL_CFG_udp_port ≠ 0 →
      (u.cacheTouch n c).txKey n c agree = (v, st) → st ≠ 1 → exec (.sillagePacketSend c t agree) s = .next (v.silStep n c st)) := by
  subst hn hu
  rw [exec_sillagePacketSend, execSillagePacketSend]
  dsimp only
  rw [if_neg hs.not_held]
  refine ⟨fun hmiss => ?_, fun hhit hroce => ?_, fun hhit hsil hport hkey hready => ?_⟩
  · rw [if_pos hmiss]
  · rw [if_neg hhit, if_pos hroce]
  · simp only [if_neg hhit, hsil, Bool.false_eq_true, if_false, if_neg hport, hkey]

end Sending

section Receiving
variable {s u : State} {n h c st d : Nat} {agree : Bool} {y : Udp} {x : SilHdr} {pl : List Nat}

theorem sillagePacketReceive_data (hat : s.atEngine n h 6 = true) (hudp : udpOf (s.lget .pktBytes 0 h) = some y) (hsil : s.isSil y = true)
    (htake : s.silTake n h agree (fun op => decide (op ≠ 0x10 ∧ op ≠ 0x11)) = (u, some (c, st, x, pl))) :
    exec (.sillagePacketReceive n h agree) s = .next (u.silData n c h st x pl) := by
  simp only [exec_sillagePacketReceive, execSillagePacketReceive, hat, hudp, hsil, Bool.not_true, Bool.false_and, Bool.false_eq_true, if_false,
    htake]

/-- A packet that is no UDP datagram passes the block. -/
theorem sillagePacketReceive_other (hat : s.atEngine n h 6 = true) (hudp : udpOf (s.lget .pktBytes 0 h) = none) :
    exec (.sillagePacketReceive n h agree) s = .next (s.stageNext h) := by
  simp only [exec_sillagePacketReceive, execSillagePacketReceive, hat, hudp, Bool.not_true, Bool.false_eq_true, if_false, if_true]

theorem ackReceive_taken (hat : s.atEngine n h 6 = true)
    (htake : s.silTake n h agree (fun op => decide (op = 0x10)) = (u, some (c, st, x, pl))) :
    exec (.ackReceive n h agree) s = .next (u.ackTaken n c h x) := by
  simp only [exec_ackReceive, execAckReceive, hat, Bool.not_true, Bool.false_eq_true, if_false, htake]

theorem nakReceive_taken (hat : s.atEngine n h 6 = true)
    (htake : s.silTake n h agree (fun op => decide (op = 0x11)) = (u, some (c, st, x, pl))) :
    exec (.nakReceive n h agree) s = .next (u.nakTaken c h x) := by
  simp only [exec_nakReceive, execNakReceive, hat, Bool.not_true, Bool.false_eq_true, if_false, htake]

section Window
variable (hd : d = (x.psn + 2 ^ 32 - s.get .CN_rlow 0 c) % 2 ^ 32)
include hd

/-- A PSN beyond the window (R328). -/
theorem silData_beyond (hpast : 256 ≤ d) (hahead : d < 2 ^ 31) :
    s.silData n c h st x pl = (s.bump .SIL_RX_CNT0_oow_drops n).engineTake h := by
  have hnew : ¬ (2 ^ 31 ≤ d ∨ (d < 256 ∧ (s.get .CN_rmap 0 c).testBit d = true)) := by omega
  rw [State.silData, ← hd]
  dsimp only
  rw [if_neg hnew, if_pos hpast]

/-- A PSN below the window is a duplicate, which is answered; no kept atomic answer is sought for a packet that is no atomic (R331, R332). -/
theorem silData_duplicate (hold : 2 ^ 31 ≤ d) (hop : x.op < 5) : s.silData n c h st x pl =
    ((((s.bump .SIL_RX_CNT0_dup_pkts n).ackNote c x.path x.ts (s.ingressTuple h))).ackSend n c st).engineTake h := by
  have hplain : decide (x.op = 5 ∨ x.op = 6) = false := decide_eq_false (by omega)
  rw [State.silData, ← hd]
  simp only [if_pos (Or.inl hold), hplain, Bool.false_and, when_false]

theorem silData_new (hin : d < 256) (hnew : (s.get .CN_rmap 0 c).testBit d = false) :
    s.silData n c h st x pl = s.silAccept n c h st x pl := by
  have hfresh : ¬ (2 ^ 31 ≤ d ∨ (d < 256 ∧ (s.get .CN_rmap 0 c).testBit d = true)) := by rw [hnew]; simp; omega
  rw [State.silData, ← hd]
  dsimp only
  rw [if_neg hfresh, if_neg (Nat.not_le.mpr hin)]

end Window

section Refused
variable (hgone : s.get .RT_st 0 (rtIx c x.sack) = 0)
include hgone

/-- A NAK of a packet that the store no longer holds speaks of the message it names (Table SILL-8). -/
theorem nakTaken_accessRevoked (hsyn : x.ext.getD 0 0 = 2) : s.nakTaken c h x = (s.msFail c x.msg msACCESS_REVOKED).engineTake h := by
  simp only [State.nakTaken, hgone, hsyn, ne_eq, not_true, false_and, decide_false, Bool.false_eq_true, if_false]

theorem nakTaken_accessErr (hsyn : x.ext.getD 0 0 = 3) : s.nakTaken c h x = (s.msFail c x.msg msACCESS_ERR).engineTake h := by
  simp only [State.nakTaken, hgone, hsyn, ne_eq, not_true, false_and, decide_false, Bool.false_eq_true, if_false]

/-- RETRY_AFTER holds back the rest of the message and starts the wait of its refused packets anew (R355). -/
theorem nakTaken_retryAfter (hsyn : x.ext.getD 0 0 = 1) : s.nakTaken c h x = ((s.each (s.rtWhere c (fun s k =>
    decide (s.get .RT_st 0 k = 4 ∧ s.get .RT_msg 0 k = x.msg ∧ s.get .RT_resp 0 k = 0))) (fun k q =>
      q.set .RT_at (s.now + beAt x.ext 2 2 * usUnits) 0 k)).set .MS_hold (s.now + beAt x.ext 2 2 * usUnits) 0 (msIx c x.msg)).engineTake h := by
  simp only [State.nakTaken, hgone, hsyn, ne_eq, not_true, false_and, decide_false, Bool.false_eq_true, if_false, when_false, b2n]

end Refused

section Roce
variable (hat : s.atEngine n h 6 = true) (hudp : udpOf (s.lget .pktBytes 0 h) = some y) (hen : s.get .SIL_CFG_roce_en = 1)
  (hport : y.dport = rocePort) (hother : s.isSil y = false) (hok : y.ok = true)
include hat hudp hen hport hother hok

/-- A RoCE packet with a wrong invariant CRC is counted and taken (R344). -/
theorem rocePacketReceive_badIcrc (hbad : icrcHas (s.lget .pktBytes 0 h) ≠ icrcOf (s.lget .pktBytes 0 h)) :
    exec (.rocePacketReceive n h) s = .next ((s.bump .SIL_RX_CNT1_tag_fail n).engineTake h) := by
  simp only [exec_rocePacketReceive, execRocePacketReceive, hat, hudp, hen, hport, hother, hok, Bool.not_true, Bool.false_eq_true, if_false,
    Nat.one_ne_zero, ne_eq, not_true, or_self, if_pos (Or.inr hbad)]

/-- A CNP of a cached RoCE connection halves the rate (Table SILL-11). -/
theorem rocePacketReceive_cnp (hlen : 16 + y.pay.getD 1 0 / 16 % 4 ≤ y.pay.length)
    (hgood : icrcHas (s.lget .pktBytes 0 h) = icrcOf (s.lget .pktBytes 0 h))
    (hc : c = beAt y.pay 5 3 % 2 ^ 21) (hactive : s.get .CN_state 0 c = 1) (hroce : s.cnFlag c 2 = true) (hhome : s.cnHome c = beAt y.pay 5 3 / 2 ^ 21)
    (hv6 : y.v6 = s.cnFlag c 1) (hcached : s.get .CACHE_in n c ≠ 0) (hcnp : y.pay.getD 0 0 = 0x81) :
    exec (.rocePacketReceive n h) s = .next ((((s.cacheTouch n c).set .CN_used 1 0 c).halve c 0).engineTake h) := by
  have hsound : ¬ (y.pay.length < 16 + y.pay.getD 1 0 / 16 % 4 ∨ icrcHas (s.lget .pktBytes 0 h) ≠ icrcOf (s.lget .pktBytes 0 h)) := by
    simp only [hgood, ne_eq, not_true, or_false, Nat.not_lt, hlen]
  subst hc
  simp only [exec_rocePacketReceive, execRocePacketReceive, hat, hudp, hen, hport, hother, hok, Bool.not_true, Bool.false_eq_true, if_false,
    Nat.one_ne_zero, ne_eq, not_true, or_self, if_neg hsound, hactive, hroce, hhome, hv6, hcached, hcnp, and_false, decide_false, when_false]

end Roce

end Receiving

/-- Settles O39, by the direction and the kind of the packet. -/
theorem sillagePackets : Obligations.SillagePackets := by
  refine ⟨?send, ?receive, fun s n h agree => sillagePacketReceive_other, ?window, ?nak, ?roce⟩
  case send =>
    exact fun s u v c t n st agree hn hactive hfatal hrun honline hroce hu =>
      sillagePacketSend_sends ⟨hactive, hfatal, hrun, hn ▸ honline, hroce⟩ hn hu
  case receive =>
    exact fun s u n h c st agree y x pl hat hudp hsil =>
      ⟨sillagePacketReceive_data hat hudp hsil, ackReceive_taken hat, nakReceive_taken hat⟩
  case window => exact fun s n c h st d x pl hd => ⟨silData_beyond hd, silData_duplicate hd, silData_new hd⟩
  case nak => exact fun s c h x hgone => ⟨nakTaken_accessRevoked hgone, nakTaken_accessErr hgone, nakTaken_retryAfter hgone⟩
  case roce =>
    exact fun s n h c y hat hudp hen hport hother hok hlen =>
      ⟨rocePacketReceive_badIcrc hat hudp hen hport hother hok, rocePacketReceive_cnp hat hudp hen hport hother hok hlen⟩

end Sys2Proof.Machine
end

section
/-! SUPPORT. Laws of a connection's timers (R332, R333, R335, R336, R355): what each of them comes to when it expires; and the statement that rests
on them. The msg_id of a PROBE is a free value (log entry 44). -/

namespace Sys2Proof.Machine

section TimerCommands
variable (s : State) (c k psn : Nat) (agree : Bool)

theorem exec_ackDelayExpiry : exec (.ackDelayExpiry c) s = execAckDelayExpiry c s := rfl
theorem exec_retransmitTimeout : exec (.retransmitTimeout c k) s = execRetransmitTimeout c k s := rfl
theorem exec_retryAfterResend : exec (.retryAfterResend c psn) s = execRetryAfterResend c psn s := rfl
theorem exec_probe : exec (.probe c k agree) s = execProbe c k agree s := rfl
theorem exec_baseWindowRoll : exec (.baseWindowRoll c) s = execBaseWindowRoll c s := rfl

end TimerCommands

section Timers
variable {s u v : State} {c k n st age psn : Nat} {agree : Bool} {l : List Nat}

/-- The delayed ACK leaves once the transmit key is there (R332). -/
theorem ackDelayExpiry_sent (hn : n = s.cnRegion c) (hactive : s.get .CN_state 0 c = 1) (hdue : s.get .CN_ack_at 0 c ≠ 0)
    (hfatal : s.fatal = false) (hport : s.get .SIL_CFG_udp_port ≠ 0)
    (hu : u = s.advanceTo (s.get .CN_ack_at 0 c + max 1 (s.get .SIL_ACK_CFG_ack_delay) * 400)) (hkey : u.txKey n c true = (v, st))
    (hready : st ≠ 1) : exec (.ackDelayExpiry c) s = .next (v.ackSend n c st) := by
  have hsends : ¬ (s.get .CN_state 0 c ≠ 1 ∨ s.get .CN_ack_at 0 c = 0 ∨ s.fatal = true ∨ s.get .SIL_CFG_udp_port = 0) := by
    simp [hactive, hdue, hfatal, hport]
  subst hn hu
  simp only [exec_ackDelayExpiry, execAckDelayExpiry, if_neg hsends, hkey]

/-- A timeout marks what is outstanding on the path lost and halves its rate; the last of retire_count in a row retires it (R333, R335). -/
theorem retransmitTimeout_lost (hn : n = s.cnRegion c) (hactive : s.get .CN_state 0 c = 1)
    (hl : l = s.rtWhere c (fun s i => decide (s.get .RT_st 0 i = 1 ∧ s.get .RT_path 0 i = k ∧ s.get .RT_exempt 0 i = 0))) (hsome : l ≠ [])
    (hage : age = l.foldl (fun m i => max m (s.repNow (regDie n) - s.get .RT_ts 0 i)) 0)
    (hu : u = ((s.advanceTo (s.now + (s.rto c k - age))).each l (fun i s => s.set .RT_st 2 0 i)).halve c k) (hsil : u.cnFlag c 2 = false)
    (hv : v = u.addw .PT_tos 1 0 (ptIx c k)) : exec (.retransmitTimeout c k) s =
      .next (if max 1 (v.get .SIL_PATH_CFG_retire_count) ≤ v.get .PT_tos 0 (ptIx c k) ∧ v.get .PT_retired 0 (ptIx c k) = 0
        then v.pathRetire n c k else v) := by
  have hruns : ¬ (s.get .CN_state 0 c ≠ 1 ∨ l = []) := by simp [hactive, hsome]
  subst hn
  rw [exec_retransmitTimeout, execRetransmitTimeout, ← hl]
  dsimp only
  rw [if_neg hruns, ← hage, ← hu, hsil, if_neg Bool.false_ne_true, ← hv]

/-- A packet that RETRY_AFTER holds goes back among those to be sent (R355). -/
theorem retryAfterResend_held (hactive : s.get .CN_state 0 c = 1) (hheld : s.get .RT_st 0 (rtIx c psn) = 4)
    (hpsn : s.get .RT_psn 0 (rtIx c psn) = psn) :
    exec (.retryAfterResend c psn) s = .next ((s.advanceTo (s.get .RT_at 0 (rtIx c psn))).set .RT_st 2 0 (rtIx c psn)) := by
  rw [exec_retryAfterResend, execRetryAfterResend]
  dsimp only
  rw [if_pos ⟨hactive, hheld, hpsn⟩]

/-- A retired path gets its PROBE once the transmit key is there (R333, R336). -/
theorem probe_sent (hn : n = s.cnRegion c) (hactive : s.get .CN_state 0 c = 1) (hretired : s.get .PT_retired 0 (ptIx c k) ≠ 0)
    (hrun : s.get .CN_stop 0 c = 0) (hfatal : s.fatal = false) (hwindow : s.psnOk c 0 = true) (hport : s.get .SIL_CFG_udp_port ≠ 0)
    (hu : u = s.advanceTo (s.get .PT_probe_at 0 (ptIx c k) + max 1 (s.get .SIL_PATH_CFG1_probe_ms) * msUnits))
    (hkey : u.txKey n c agree = (v, st)) (hready : st ≠ 1) : exec (.probe c k agree) s =
      .next ((v.drew.set .PT_probe_at v.now 0 (ptIx c k)).silNew n c k st 0x12 (v.freeVal 32) 0 0 [] [] true) := by
  have hsends : ¬ (s.get .CN_state 0 c ≠ 1 ∨ s.get .PT_retired 0 (ptIx c k) = 0 ∨ s.get .CN_stop 0 c = 1 ∨ s.fatal = true ∨
      (!s.psnOk c 0) = true ∨ s.get .SIL_CFG_udp_port = 0) := by simp [hactive, hretired, hrun, hfatal, hwindow, hport]
  subst hn hu
  simp only [exec_probe, execProbe, if_neg hsends, hkey]

/-- Each path's delay bases become its previous ones (R335). -/
theorem baseWindowRoll_rolls
    (hu : u = s.advanceTo (s.get .CN_bw_at 0 c + max 1 (s.get .SIL_PATH_CFG1_base_window_ms) * msUnits)) :
    exec (.baseWindowRoll c) s = .next ((u.set .CN_bw_at u.now 0 c).each ((List.range (u.nPaths c)).map (ptIx c)) (fun i s =>
      ((s.set .PT_bprev (s.get .PT_bcur 0 i) 0 i).set .PT_bcur (2 ^ 32) 0 i).set .PT_rprev (s.get .PT_rcur 0 i) 0 i
        |>.set .PT_rcur (2 ^ 32) 0 i)) := by
  rw [exec_baseWindowRoll, execBaseWindowRoll, hu]

end Timers

/-- Settles O40, timer by timer. -/
theorem sillageTimers : Obligations.SillageTimers := by
  refine ⟨?ack, ?timeout, fun s c psn => retryAfterResend_held, ?probe, fun s u c => baseWindowRoll_rolls⟩
  case ack => exact fun s u v c n st => ackDelayExpiry_sent
  case timeout => exact fun s u v c k n age l => retransmitTimeout_lost
  case probe => exact fun s u v c k n st agree => probe_sent

end Sys2Proof.Machine
end

section
/-! SUPPORT. Laws of memory keys (R345, R346, R350, R357, R359, R360): what each command of the key channel comes to, what a revocation brings about
at revoke_at and after it, and the place that a loaded record takes; and the statement that rests on them. Which record leaves a full cache is
a free value (log entry 104). -/

namespace Sys2Proof.Machine

section KeyCommands
variable (s : State) (ch k v n : Nat)

theorem exec_registerMkey : exec (.registerMkey ch k v) s = execRegisterMkey ch k v s := rfl
theorem exec_invalidateMkey : exec (.invalidateMkey ch k v) s = execInvalidateMkey ch k v s := rfl
theorem exec_revokeAt : exec (.revokeAt k) s = execRevokeAt k s := rfl
theorem exec_mkeyInvalidateComplete : exec (.mkeyInvalidateComplete k) s = execMkeyInvalidateComplete k s := rfl
theorem exec_mkyQuery : exec (.mkyQuery ch k) s = execMkyQuery ch k s := rfl
theorem exec_prefetch : exec (.prefetch ch k v) s = execPrefetch ch k v s := rfl
theorem exec_keyRecordFill : exec (.keyRecordFill n k) s = execKeyRecordFill n k s := rfl

end KeyCommands

section KeyChannel
variable {s : State} {ch k v r x a len : Nat}

/-- An accepted record is written with its variant, VALID (R350). -/
theorem registerMkey_accepted (hidle : s.get .MKY_CH_busy 0 ch = 0) (hr : r = s.chRec .MKY_CH_record ch 16) (hok : s.registerCheck k v r = 0) :
    exec (.registerMkey ch k v) s = .next ((s.mwrite (mkAddr k) ([v, 1] ++ (leBytes 64 r).drop 2)).mkyRes ch 0) := by
  rw [exec_registerMkey, execRegisterMkey, ← hr]
  simp only [hidle, Nat.zero_ne_one, if_false, hok]

theorem registerMkey_refused (hidle : s.get .MKY_CH_busy 0 ch = 0) (hbad : s.registerCheck k v (s.chRec .MKY_CH_record ch 16) = x + 1) :
    exec (.registerMkey ch k v) s = .next (s.mkyRes ch (x + 1)) := by
  simp only [exec_registerMkey, execRegisterMkey, hidle, Nat.zero_ne_one, if_false, hbad]

/-- A valid key is to be revoked 2 µs on, and its channel waits (R357, R359). -/
theorem invalidateMkey_valid (hidle : s.get .MKY_CH_busy 0 ch = 0) (hvalid : s.mkValid k v = true) :
    exec (.invalidateMkey ch k v) s = .next (((s.mkRevoke k (ch + 1)).set .MKY_CH_revoke_at
      ((s.mkRevoke k (ch + 1)).get .MK_revoke_at 0 k) 0 ch).set .MKY_CH_busy 1 0 ch) := by
  simp only [exec_invalidateMkey, execInvalidateMkey, hidle, Nat.zero_ne_one, hvalid, Bool.not_true, Bool.false_eq_true, if_false]

theorem mkyQuery_shows (hidle : s.get .MKY_CH_busy 0 ch = 0) : exec (.mkyQuery ch k) s =
    .next ((s.chShow .MKY_CH_record ch 16 (if s.mkInvalid k s.now then putBits (s.mkRec k) 8 8 2 else s.mkRec k)).mkyRes ch 0) := by
  simp only [exec_mkyQuery, execMkyQuery, hidle, Nat.zero_ne_one, if_false]

/-- A range inside a valid paged key is asked for page by page. -/
theorem prefetch_inside (hidle : s.get .MKY_CH_busy 0 ch = 0) (hvalid : s.mkValid k v = true) (hpaged : mkPaged (s.mkRec k) = true)
    (hrange : s.mkyRange ch = (a, len)) (hlow : recAt (s.mkRec k) 16 8 ≤ a)
    (hhigh : a + len ≤ recAt (s.mkRec k) 16 8 + recAt (s.mkRec k) 24 8) :
    exec (.prefetch ch k v) s = .next ((((s.set .MKY_CH_busy 1 0 ch).set .MKY_pf 1 0 ch).set .MKY_pf_key k 0 ch).pfStep ch) := by
  have hin : ¬ (a < recAt (s.mkRec k) 16 8 ∨ recAt (s.mkRec k) 16 8 + recAt (s.mkRec k) 24 8 < a + len) := by omega
  simp only [exec_prefetch, execPrefetch, hrange, hidle, Nat.zero_ne_one, hvalid, hpaged, Bool.not_true, Bool.false_eq_true, or_self,
    if_false, if_neg hin]

end KeyChannel

section Revocation
variable {s : State} {k : Nat} (hset : s.get .MK_revoke_at 0 k ≠ 0)
include hset

theorem revokeAt_comes : exec (.revokeAt k) s = .next (s.advanceTo (s.get .MK_revoke_at 0 k)) := by
  rw [exec_revokeAt, execRevokeAt, if_neg hset]

/-- From revoke_at on checks treat the key as INVALID (R357). -/
theorem mkInvalid_after {t : Nat} (ht : s.get .MK_revoke_at 0 k ≤ t) : s.mkInvalid k t = true := by
  rw [State.mkInvalid, decide_eq_true hset, decide_eq_true ht, Bool.and_self, Bool.or_true]

/-- The revocation is complete once nothing admitted under the key still reads (R359, R360). -/
theorem mkeyInvalidateComplete_due : exec (.mkeyInvalidateComplete k) s =
    .next (if (s.advanceTo (s.get .MK_revoke_at 0 k)).mkReading k then s.advanceTo (s.get .MK_revoke_at 0 k)
      else (s.advanceTo (s.get .MK_revoke_at 0 k)).mkDone k) := by
  simp only [exec_mkeyInvalidateComplete, execMkeyInvalidateComplete, if_neg hset]

end Revocation

section KeyCache
variable {s : State} {n k : Nat} (hfill : s.get .KEYC_fill n k ≠ 0)
include hfill

theorem keyRecordFill_room (hroom : (s.keyHeld n).length < 4096) :
    exec (.keyRecordFill n k) s = .next ((s.set .KEYC_fill 0 n k).set .KEYC_valid 1 n k) := by
  simp only [exec_keyRecordFill, execKeyRecordFill, if_neg hfill, if_pos hroom]

/-- With 4,096 records held, a loaded one takes the place of one of them (R346). -/
theorem keyRecordFill_full (hfull : 4096 ≤ (s.keyHeld n).length) : exec (.keyRecordFill n k) s = .next (((s.drew.set .KEYC_valid 0 n
    ((s.keyHeld n).getD (s.freeVal 32 % (s.keyHeld n).length) 0)).set .KEYC_fill 0 n k).set .KEYC_valid 1 n k) := by
  simp only [exec_keyRecordFill, execKeyRecordFill, if_neg hfill, if_neg (Nat.not_lt.mpr hfull)]

end KeyCache

/-- Settles O41, command by command. -/
theorem memoryKeys : Obligations.MemoryKeys := by
  refine ⟨fun s ch k v r => registerMkey_accepted, fun s ch k v x => registerMkey_refused, fun s ch k v => invalidateMkey_valid, ?revoke,
    fun s ch k => mkyQuery_shows, fun s ch k v a len => prefetch_inside, fun s n k hfill => ⟨keyRecordFill_room hfill, keyRecordFill_full hfill⟩⟩
  case revoke =>
    intro s k hset
    refine ⟨revokeAt_comes hset, fun t => mkInvalid_after hset, fun hquiet => ?_, fun hreads => ?_⟩
    · rw [mkeyInvalidateComplete_due hset, hquiet]; rfl
    · rw [mkeyInvalidateComplete_due hset, hreads]; rfl

end Sys2Proof.Machine
end

section
/-! SUPPORT. Laws of paging (R352, R353, R356, R359): what the answer to a translation request, an invalidation, the answer to a page request and
its timeout come to; and the statement that rests on them. What a full translation cache does is `State.atcRoom` (log entry 151). -/

namespace Sys2Proof.Machine

section PagingEvents
variable (s : State) (e f pasid page addr perm n code : Nat)

theorem exec_atsTranslationComplete :
    exec (.atsTranslationComplete e f pasid page addr perm) s = execAtsTranslationComplete e f pasid page addr perm s := rfl
theorem exec_atsInvalidation : exec (.atsInvalidation e f pasid page n) s = execAtsInvalidation e f pasid page n s := rfl
theorem exec_priResponse : exec (.priResponse e f pasid page code) s = execPriResponse e f pasid page code s := rfl
theorem exec_priTimeout : exec (.priTimeout e f pasid page) s = execPriTimeout e f pasid page s := rfl

end PagingEvents

section Translations
variable {s u : State} {e f pasid page addr perm i n : Nat}

section Asked
variable (hi : i = atcIx f pasid page) (hasked : s.get .ATC_st e i = 1)
include hi hasked

/-- A page without a permission is asked of the host (R353). -/
theorem atsTranslationComplete_absent (hnone : perm % 4 = 0) :
    exec (.atsTranslationComplete e f pasid page addr perm) s = .next (((s.set .ATC_st 3 e i).priAsk e i).pfAll) := by
  rw [exec_atsTranslationComplete, execAtsTranslationComplete, ← hi]
  simp only [hasked, ne_eq, not_true, if_false, if_pos hnone]

/-- A translation with a permission is kept; whether it can be read decides what becomes of the stalls on its page (R352, R356). -/
theorem atsTranslationComplete_kept (hsome : perm % 4 ≠ 0)
    (hu : u = (((s.atcRoom e).set .ATC_st 2 e i).set .ATC_addr (addr * 4096) e i).set .ATC_perm perm e i) :
    exec (.atsTranslationComplete e f pasid page addr perm) s = .next (if perm.testBit 0
      then (u.each (u.stalledOn e i) (fun c s => s.set .CN_stall 0 0 c)).pfAll
      else (u.when (decide (u.stalledOn e i ≠ [])) (·.priAsk e i)).pfAll) := by
  rw [exec_atsTranslationComplete, execAtsTranslationComplete, ← hi]
  simp only [hasked, ne_eq, not_true, if_false, if_neg hsome, ← hu]
  rw [apply_ite State.pfAll]

theorem atsTranslationComplete_readable (hread : perm.testBit 0 = true)
    (hu : u = (((s.atcRoom e).set .ATC_st 2 e i).set .ATC_addr (addr * 4096) e i).set .ATC_perm perm e i) :
    exec (.atsTranslationComplete e f pasid page addr perm) s =
      .next ((u.each (u.stalledOn e i) (fun c s => s.set .CN_stall 0 0 c)).pfAll) := by
  have hodd : perm % 2 = 1 := by simpa using hread
  rw [atsTranslationComplete_kept hi hasked (by omega) hu, if_pos hread]

/-- A page that can be written and not read leaves a stall on it waiting, for a page request (R353, R356). -/
theorem atsTranslationComplete_unreadable (hwrite : perm % 4 = 2)
    (hu : u = (((s.atcRoom e).set .ATC_st 2 e i).set .ATC_addr (addr * 4096) e i).set .ATC_perm perm e i) :
    exec (.atsTranslationComplete e f pasid page addr perm) s =
      .next ((if u.stalledOn e i ≠ [] then u.priAsk e i else u).pfAll) := by
  have hread : ¬ perm.testBit 0 = true := by simp; omega
  rw [atsTranslationComplete_kept hi hasked (by omega) hu, if_neg hread]
  simp only [State.when, decide_eq_true_eq]

end Asked

/-- An invalidation drops the translations of its range, and is completed where nothing that used one waits (R352). -/
theorem atsInvalidation_drops : exec (.atsInvalidation e f pasid page n) s =
    .next (((s.atcDrop e (fun i => decide (i / 2 ^ 52 = f * 2 ^ 21 + pasid ∧ s.get .ATC_st e i = 2) && within (i % 2 ^ 52) page n)).addw
      .ATS_inv 1 e f).atsInvDone e f) := rfl

end Translations

section PageRequests
variable {s u : State} {e f pasid page code i : Nat} (hi : i = atcIx f pasid page) (hout : s.get .PRI_out e i ≠ 0)
include hi hout

/-- After a page request that succeeds, the translation is asked for again (R353). -/
theorem priResponse_success (hheld : (s.priEnd e i).get .ATC_st e i ≠ 0) :
    exec (.priResponse e f pasid page 0) s = .next (((s.priEnd e i).set .ATC_st 0 e i).atsAsk e f pasid page) := by
  rw [exec_priResponse, execPriResponse, ← hi]
  simp only [if_neg hout, if_true, if_neg hheld]

/-- A page request that fails is counted, and fails what waits on the page; after a Response Failure the function asks no more (R353). -/
theorem priResponse_failure (hcode : code ≠ 0) : exec (.priResponse e f pasid page code) s =
    .next ((((s.when (decide (code = 15)) (·.set .PRI_stop 1 e f)).bump .MKY_PRI_STAT_pri_fail e).priEnd e i).priFail e i) := by
  rw [exec_priResponse, execPriResponse, ← hi]
  simp only [if_neg hout, if_neg hcode]

theorem priTimeout_fails (hu : u = s.advanceTo (s.get .PRI_at e i + max 1 (s.get .MKY_CFG_pri_timeout_ms) * msUnits)) :
    exec (.priTimeout e f pasid page) s = .next (((u.bump .MKY_PRI_STAT_pri_fail e).priEnd e i).priFail e i) := by
  rw [exec_priTimeout, execPriTimeout, ← hi]
  simp only [if_neg hout, hu]

end PageRequests

/-- Settles O42, by the permission of a translation and by the answer to a page request. -/
theorem paging : Obligations.Paging := by
  refine ⟨?translation, fun s e f pasid page n => atsInvalidation_drops, ?request⟩
  case translation =>
    exact fun s u e f pasid page addr perm i hi hasked hu => ⟨atsTranslationComplete_absent hi hasked,
      fun hread => atsTranslationComplete_readable hi hasked hread hu, fun hwrite => atsTranslationComplete_unreadable hi hasked hwrite hu⟩
  case request =>
    intro s e f pasid page i hi hout
    refine ⟨priResponse_success hi hout, fun code hcode hother => ?_, ?_, fun u => priTimeout_fails hi hout⟩
    · rw [priResponse_failure hi hout hcode, decide_eq_false hother, when_false]
    · rw [priResponse_failure hi hout (by decide), decide_eq_true rfl, when_true]

end Sys2Proof.Machine
end

section
/-! SUPPORT. Laws of the storage channel (R365 to R367, R369, R370, R470; Table STOR-2): what each command on a backend or a namespace comes to; and
the statement that rests on them. Which record QUERY shows is a free value (log entry 54). -/

namespace Sys2Proof.Machine

section StorageCommands
variable (s : State) (ch b n : Nat)

theorem exec_beCreate : exec (.beCreate ch b) s = execBeCreate ch b s := rfl
theorem exec_beDestroy : exec (.beDestroy ch b) s = execBeDestroy ch b s := rfl
theorem exec_nsCreate : exec (.nsCreate ch n) s = execNsCreate ch n s := rfl
theorem exec_nsDelete : exec (.nsDelete ch n) s = execNsDelete ch n s := rfl
theorem exec_nsAttach : exec (.nsAttach ch n) s = execNsAttach ch n s := rfl
theorem exec_nsDetach : exec (.nsDetach ch n) s = execNsDetach ch n s := rfl
theorem exec_nveQuery : exec (.nveQuery ch n) s = execNveQuery ch n s := rfl

end StorageCommands

section Backends
variable {s u : State} {ch b r : Nat} (hidle : s.get .NVE_CH_busy 0 ch = 0) (hb : b < 4096)
include hidle hb

/-- A free backend with a valid record is made; the queues of a Sillage backend are connected (R365, R367). -/
theorem beCreate_free (hr : r = s.chRec .NVE_CH_record ch 32) (hok : beRecOk b r = true) (hfree : s.get .BE_on 0 b ≠ 1)
    (hqueues : ∀ q, q < 64 → s.get .CN_state 0 (beCtx b q) = 0) (hu : u = (s.set .BE_on 1 0 b).set .BE_rec r 0 b) :
    exec (.beCreate ch b) s =
      .next ((if recAt r 0 1 = 2 then u.each (List.range (recAt r 1 1)) (fun q s => s.beConnect b q) else u).nveRes ch 0) := by
  have hrec : ¬ (4096 ≤ b ∨ (!beRecOk b r) = true) := by rw [hok]; simpa using hb
  have hunused : ¬ (s.get .BE_on 0 b = 1 ∨ (List.range 64).any (fun q => decide (s.get .CN_state 0 (beCtx b q) ≠ 0)) = true) := by
    simpa [hfree] using hqueues
  rw [exec_beCreate, execBeCreate, ← hr]
  simp only [hidle, Nat.zero_ne_one, if_false, if_neg hrec, if_neg hunused, hu]

/-- A backend to which no namespace maps is freed with its queues. -/
theorem beDestroy_unmapped (hon : s.get .BE_on 0 b ≠ 0) (hnone : ∀ x ∈ s.keysOf .NS_on, s.get .NS_on 0 x.2 ≠ 1 ∨ s.nsAt x.2 4 2 ≠ b) :
    exec (.beDestroy ch b) s = .next (((((s.each (List.range 64) (fun q s => s.beqFree b q)).set .NVE_BE_STAT_connected 0 0 b).set
      .BE_on 0 0 b).set .BE_rec 0 0 b).nveRes ch 0) := by
  have hmade : ¬ (4096 ≤ b ∨ s.get .BE_on 0 b = 0) := by omega
  have hunmapped : ¬ (s.keysOf .NS_on).any (fun x => decide (s.get .NS_on 0 x.2 = 1 ∧ s.nsAt x.2 4 2 = b)) = true := by
    simp only [List.any_eq_true, decide_eq_true_eq, not_exists, not_and_or]
    exact fun x => or_iff_not_imp_left.mpr fun hx => hnone x (not_not.mp hx)
  simp only [exec_beDestroy, execBeDestroy, hidle, Nat.zero_ne_one, if_false, if_neg hmade, if_neg hunmapped]

end Backends

section Namespaces
variable {s : State} {ch n r k nsid : Nat} (hidle : s.get .NVE_CH_busy 0 ch = 0)
include hidle

/-- A free namespace with a valid record of an ACTIVE tenant is written (R369, R470). -/
theorem nsCreate_free (hr : r = s.chRec .NVE_CH_record ch 32 % 2 ^ 512) (hfree : s.get .NS_on 0 n ≠ 1)
    (hten : s.tenActive (recAt r 28 1) = true) (hok : nsRecOk r = true) (hmask : (s.affMask (recAt r 28 1)).testBit (recAt r 29 1) = true)
    (hslot : (recAt r 7 1).testBit 0 = true → s.tenSlot (recAt r 28 1) (recAt r 24 4 % 2 ^ 24) = true) :
    exec (.nsCreate ch n) s = .next (((s.set .NS_on 1 0 n).set .NS_rec r 0 n).nveRes ch 0) := by
  have hstate : ¬ (s.get .NS_on 0 n = 1 ∨ (!s.tenActive (recAt r 28 1)) = true) := by simp [hfree, hten]
  have hown : ¬ ((!(s.affMask (recAt r 28 1)).testBit (recAt r 29 1)) = true ∨
      ((recAt r 7 1).testBit 0 = true ∧ (!s.tenSlot (recAt r 28 1) (recAt r 24 4 % 2 ^ 24)) = true)) := by
    rw [hmask]
    rintro (hout | ⟨hkey, hout⟩)
    · cases hout
    · rw [hslot hkey] at hout; cases hout
  rw [exec_nsCreate, execNsCreate, ← hr]
  simp only [hidle, Nat.zero_ne_one, if_false, if_neg hstate, hok, Bool.not_true, Bool.false_eq_true, if_neg hown]

/-- A namespace attached to no controller is freed. -/
theorem nsDelete_made (hon : s.get .NS_on 0 n ≠ 0) : exec (.nsDelete ch n) s =
    .next (if s.nsAttached n then s.nveRes ch 5 else ((s.set .NS_on 0 0 n).set .NS_rec 0 0 n).nveRes ch 0) := by
  simp only [exec_nsDelete, execNsDelete, hidle, Nat.zero_ne_one, if_false, if_neg hon]

section Attachment
variable (hk : k = s.get .NVE_CH_ctrl 0 ch) (hnsid : nsid = s.get .NVE_CH_nsid 0 ch) (hlow : 1 ≤ nsid) (hhigh : nsid ≤ 256)
include hk hnsid hlow hhigh

/-- A namespace of the controller's own ACTIVE tenant is attached under a free nsid, and the controller is told (R365, R370, R470). -/
theorem nsAttach_free (hon : s.get .NS_on 0 n ≠ 0) (hctrl : s.get .NVE_CTRL_CFG_enable 0 k ≠ 0) (hfree : s.get .NSA 0 (k * 257 + nsid) = 0)
    (hold : s.get .NSA_old 0 (k * 257 + nsid) = 0) (hten : s.tenActive (s.nsAt n 28 1) = true) (hown : s.nsAt n 28 1 = s.ctrlTenant k) :
    exec (.nsAttach ch n) s = .next (((s.set .NSA (n + 1) 0 (k * 257 + nsid)).nsEvent k nsid).nveRes ch 0) := by
  have hrange : ¬ (nsid = 0 ∨ 256 < nsid) := by omega
  have hstate : ¬ (s.get .NS_on 0 n = 0 ∨ s.get .NVE_CTRL_CFG_enable 0 k = 0 ∨ s.get .NSA 0 (k * 257 + nsid) ≠ 0 ∨
      s.get .NSA_old 0 (k * 257 + nsid) ≠ 0 ∨ (!s.tenActive (s.nsAt n 28 1)) = true) := by simp [hon, hctrl, hfree, hold, hten]
  rw [exec_nsAttach, execNsAttach, ← hk, ← hnsid]
  simp only [hidle, Nat.zero_ne_one, if_false, if_neg hrange, if_neg hstate, if_neg (not_not_intro hown)]

/-- From acceptance on a detached nsid is not attached; the command ends after the commands that were fetched before (R370). -/
theorem nsDetach_attached (hattached : s.get .NSA 0 (k * 257 + nsid) = n + 1) : exec (.nsDetach ch n) s =
    .next ((((((s.set .NSA 0 0 (k * 257 + nsid)).set .NSA_old (n + 1) 0 (k * 257 + nsid)).set .NSA_seq (s.get .NC_seq 0 k) 0
      (k * 257 + nsid)).set .NSA_det (ch + 1) 0 (k * 257 + nsid)).set .NVE_CH_busy 1 0 ch).detachStep k) := by
  have hrange : ¬ (nsid = 0 ∨ 256 < nsid) := by omega
  rw [exec_nsDetach, execNsDetach, ← hk, ← hnsid]
  simp only [hidle, Nat.zero_ne_one, if_false, if_neg hrange, hattached, ne_eq, not_true]

end Attachment

theorem nveQuery_shows : exec (.nveQuery ch n) s = .next ((s.drew.chShow .NVE_CH_record ch 32
    (if s.freeVal 1 = 0 then s.get .NS_rec 0 n else if n < 4096 then s.get .BE_rec 0 n else 0)).nveRes ch 0) := by
  simp only [exec_nveQuery, execNveQuery, hidle, Nat.zero_ne_one, if_false]

end Namespaces

/-- Settles O43, command by command. -/
theorem storageChannels : Obligations.StorageChannels := by
  refine ⟨?beCreate, fun s ch b => beDestroy_unmapped, fun s ch n r => nsCreate_free, ?nsDelete, ?attachment, fun s ch n => nveQuery_shows⟩
  case beCreate =>
    intro s u ch b r hidle hr hb hok hfree hqueues hu
    rw [beCreate_free hidle hb hr hok hfree hqueues hu]
    exact ⟨fun hsil => by rw [if_pos hsil], fun hother => by rw [if_neg hother]; rfl⟩
  case nsDelete =>
    intro s ch n hidle hon
    rw [nsDelete_made hidle hon]
    exact ⟨fun hnone => by rw [hnone]; rfl, fun hsome => by rw [hsome]; rfl⟩
  case attachment =>
    exact fun s ch n k nsid hidle hk hnsid hlow hhigh =>
      ⟨nsAttach_free hidle hk hnsid hlow hhigh, nsDetach_attached hidle hk hnsid hlow hhigh⟩

end Sys2Proof.Machine
end

section
/-! SUPPORT. Laws of NVMe controllers (R362, R363, R371, R379, R382): what a write of Controller Configuration comes to as EN is set, is cleared or SHN
is written, what the limit of a reset or a shutdown ends, which entry is fetched, and what the queue commands set up and take away; and the
statement that rests on them. The layouts of the queue commands are those of NVM Express (log entry 53). -/

namespace Sys2Proof.Machine

section ControllerCommands
variable (s : State) (k cc n id : Nat)

theorem exec_controllerEnable : exec (.controllerEnable k cc) s = .next (s.ctrlCc k (putBits cc 0 1 1)) := rfl
theorem exec_controllerReset : exec (.controllerReset k) s = .next (s.ctrlCc k (putBits (s.get .NC_cc 0 k) 0 1 0)) := rfl
theorem exec_controllerShutdown : exec (.controllerShutdown k n) s = .next (s.ctrlCc k (putBits (s.get .NC_cc 0 k) 14 2 n)) := rfl
theorem exec_resetLimitExpiry : exec (.resetLimitExpiry k) s = execResetLimitExpiry k s := rfl
theorem exec_nvmeFetch : exec (.nvmeFetch k) s = .next (if s.ctrlEligible k then s.nvmeFetch1 k else s) := rfl
theorem exec_createIoCq : exec (.createIoCq id) s = execCreateIoCq id s := rfl
theorem exec_createIoSq : exec (.createIoSq id) s = execCreateIoSq id s := rfl
theorem exec_deleteIoSq : exec (.deleteIoSq id) s = execDeleteIoSq id s := rfl
theorem exec_deleteIoCq : exec (.deleteIoCq id) s = execDeleteIoCq id s := rfl

end ControllerCommands

section Configuration
variable {s : State} {k v n : Nat}

/-- EN from 0 to 1 without a shutdown notification enables the controller, unless it is being reset (R363). -/
theorem ctrlCc_enable (hctrl : s.get .NVE_CTRL_CFG_enable 0 k ≠ 0) (hold : s.get .NC_cc 0 k % 2 = 0)
    (hstate : s.get .NVE_CTRL_STAT_state 0 k ≠ 2) (hnew : v % 2 = 1) (hshn : bitsOf v 14 2 = 0) :
    s.ctrlCc k v = (s.set .NC_cc v 0 k).ctrlEnable k := by
  have hset : v % 2 = 1 ∧ s.get .NC_cc 0 k % 2 = 0 ∧ (s.set .NC_cc v 0 k).get .NVE_CTRL_STAT_state 0 k ≠ 2 := by
    rw [get_set_field _ _ _ _ _ _ _ _ (by decide)]; exact ⟨hnew, hold, hstate⟩
  simp only [State.ctrlCc, if_neg hctrl, if_pos hset, hshn, ne_eq, not_true, false_and, and_false, if_false]

/-- EN from 1 to 0 resets the controller (R379). -/
theorem ctrlCc_reset (hctrl : s.get .NVE_CTRL_CFG_enable 0 k ≠ 0) (hold : s.get .NC_cc 0 k % 2 = 1) (hnew : v % 2 = 0) :
    s.ctrlCc k v = (s.set .NC_cc v 0 k).ctrlReset k true := by
  simp only [State.ctrlCc, if_neg hctrl, hnew, hold, Nat.zero_ne_one, false_and, and_self, if_false, if_true]

/-- SHN written on a ready controller that stays enabled begins a shutdown (R382). -/
theorem ctrlCc_shutdown (hctrl : s.get .NVE_CTRL_CFG_enable 0 k ≠ 0) (hold : s.get .NC_cc 0 k % 2 = 1) (hnew : v % 2 = 1)
    (hshn : bitsOf v 14 2 = n) (hn : n = 1 ∨ n = 2) (hnone : bitsOf (s.get .NC_cc 0 k) 14 2 = 0) (hready : s.get .NC_csts 0 k % 2 = 1) :
    s.ctrlCc k v = (s.set .NC_cc v 0 k).ctrlShutdown k n := by
  have hnotice : n ≠ 0 ∧ n ≠ 3 := by omega
  have hcsts : (s.set .NC_cc v 0 k).get .NC_csts 0 k % 2 = 1 := by rwa [get_set_field _ _ _ _ _ _ _ _ (by decide)]
  simp only [State.ctrlCc, if_neg hctrl, hnew, hold, Nat.one_ne_zero, false_and, and_false, if_false, hshn, hnone, hcsts, hnotice, ne_eq,
    not_false_eq_true, and_self, if_true]

/-- An enabled controller is ready at once where the device is (R363). -/
theorem ctrlEnable_deviceReady (hdevice : s.get .BOOT_STATUS_device_ready = 1) (hctrl : s.get .NVE_CTRL_CFG_enable 0 k = 1) :
    s.ctrlEnable k = (s.set .NC_en_at (max 1 s.now) 0 k).ctrlReady k := by
  have hboth : (s.set .NC_en_at (max 1 s.now) 0 k).get .BOOT_STATUS_device_ready = 1 ∧
      (s.set .NC_en_at (max 1 s.now) 0 k).get .NVE_CTRL_CFG_enable 0 k = 1 := by
    rw [get_set_field _ _ _ _ _ _ _ _ (by decide), get_set_field _ _ _ _ _ _ _ _ (by decide)]; exact ⟨hdevice, hctrl⟩
  simp only [State.ctrlEnable, if_pos hboth]

/-- At reset_limit_ms a reset ends (R379). -/
theorem resetLimitExpiry_reset (hstate : s.get .NVE_CTRL_STAT_state 0 k = 2) : exec (.resetLimitExpiry k) s =
    .next ((s.advanceTo (s.get .NC_reset_at 0 k + min 30000 (max 1 (s.get .NVE_CFG_reset_limit_ms)) * msUnits)).ctrlResetEnd k) := by
  simp only [exec_resetLimitExpiry, execResetLimitExpiry, hstate, if_true]

/-- At reset_limit_ms a shutdown discards what remains (R382). -/
theorem resetLimitExpiry_shutdown {u : State}
    (hu : u = s.advanceTo (s.get .NC_reset_at 0 k + min 30000 (max 1 (s.get .NVE_CFG_reset_limit_ms)) * msUnits))
    (hstate : s.get .NVE_CTRL_STAT_state 0 k = 3) (hshn : s.get .NC_shn 0 k = 1 ∨ s.get .NC_shn 0 k = 2) :
    exec (.resetLimitExpiry k) s = .next ((u.each (u.lget .ctrlCmds 0 k) (fun id s => s.cmdDrop id)).ctrlAfter k) := by
  subst hu
  simp only [exec_resetLimitExpiry, execResetLimitExpiry, hstate, hshn, Nat.reduceEqDiff, true_and, if_false, if_true]

end Configuration

section Queues
variable {s : State} {id op k q sz cq i : Nat}

/-- A fetched admin command whose shared fields are right does what its opcode says. -/
theorem adminRun_ready {f : Nat → State → State} (hready : s.adminReady id op k) : s.adminRun id op f = f k s := by
  obtain ⟨hadmin, hfields, rfl⟩ := hready
  simp only [State.adminRun, hadmin, hfields, Bool.not_true, Bool.false_eq_true, ne_eq, not_true, if_false]

theorem createIoCq_valid (hready : s.adminReady id 0x05 k) (hq : q = s.sq4 id 40 2) (hsz : sz = s.sq4 id 42 2) (hi : i = qIx k q)
    (hlow : 1 ≤ q) (hmax : q ≤ s.ioqMax k) (hnew : s.get .CQ_on 0 i ≠ 1) (hsize : sz ≠ 0) (hcontiguous : s.sq4 id 44 2 % 2 = 1)
    (hvector : s.sq4 id 46 2 < 65) (hpage : s.sq4 id 24 8 % 4096 = 0) : exec (.createIoCq id) s =
      .next (((((((((s.set .CQ_on 1 0 i).set .CQ_base (s.sq4 id 24 8) 0 i).set .CQ_size (sz + 1) 0 i).set .CQ_head 0 0 i).set .CQ_tail 0 0
        i).set .CQ_phase 1 0 i).set .CQ_iv (s.sq4 id 46 2) 0 i).set .CQ_ien (s.sq4 id 44 2 / 2) 0 i).cmdOver id 0 0) := by
  have hqueue : ¬ (q = 0 ∨ s.ioqMax k < q ∨ s.get .CQ_on 0 i = 1) := by omega
  subst hi
  rw [exec_createIoCq, execCreateIoCq, adminRun_ready hready, ← hq, ← hsz]
  simp only [if_neg hqueue, if_neg hsize, hcontiguous, Nat.one_ne_zero, if_false, if_neg (Nat.not_le.mpr hvector), hpage, ne_eq, not_true]

theorem createIoSq_valid (hready : s.adminReady id 0x01 k) (hq : q = s.sq4 id 40 2) (hsz : sz = s.sq4 id 42 2) (hcq : cq = s.sq4 id 46 2)
    (hi : i = qIx k q) (hlow : 1 ≤ q) (hmax : q ≤ s.ioqMax k) (hnew : s.get .SQ_on 0 i ≠ 1) (hcqLow : 1 ≤ cq) (hcqHigh : cq < 65)
    (hcqOn : s.get .CQ_on 0 (qIx k cq) ≠ 0) (hsize : sz ≠ 0) (hcontiguous : s.sq4 id 44 1 % 2 ≠ 0) (hpage : s.sq4 id 24 8 % 4096 = 0) :
    exec (.createIoSq id) s =
      .next ((((((((s.set .SQ_on 1 0 i).set .SQ_base (s.sq4 id 24 8) 0 i).set .SQ_size (sz + 1) 0 i).set .SQ_head 0 0 i).set .SQ_tail 0 0
        i).set .SQ_cq cq 0 i).set .SQ_block 0 0 i).cmdOver id 0 0) := by
  have hqueue : ¬ (q = 0 ∨ s.ioqMax k < q ∨ s.get .SQ_on 0 i = 1) := by omega
  have hcompletion : ¬ (cq = 0 ∨ 65 ≤ cq ∨ s.get .CQ_on 0 (qIx k cq) = 0) := by omega
  subst hi
  rw [exec_createIoSq, execCreateIoSq, adminRun_ready hready, ← hq, ← hsz, ← hcq]
  simp only [if_neg hqueue, if_neg hcompletion, if_neg hsize, if_neg hcontiguous, hpage, ne_eq, not_true, if_false]

/-- The commands of a deleted submission queue that have not completed are discarded with it (log entry 53). -/
theorem deleteIoSq_on (hready : s.adminReady id 0x00 k) (hq : q = s.sq4 id 40 2) (hi : i = qIx k q) (hlow : 1 ≤ q) (hhigh : q < 65)
    (hon : s.get .SQ_on 0 i ≠ 0) : exec (.deleteIoSq id) s =
      .next (((((s.each ((s.lget .ctrlCmds 0 k).filter (fun j => decide (s.get .CM_sq 0 j = q))) (fun j s => s.cmdDrop j)).set .SQ_on 0 0
        i).set .SQ_tail 0 0 i).set .SQ_head 0 0 i).cmdOver id 0 0) := by
  have hqueue : ¬ (q = 0 ∨ 65 ≤ q ∨ s.get .SQ_on 0 i = 0) := by omega
  subst hi
  rw [exec_deleteIoSq, execDeleteIoSq, adminRun_ready hready, ← hq]
  simp only [if_neg hqueue]

theorem deleteIoCq_unused (hready : s.adminReady id 0x04 k) (hq : q = s.sq4 id 40 2) (hi : i = qIx k q) (hlow : 1 ≤ q) (hhigh : q < 65)
    (hon : s.get .CQ_on 0 i ≠ 0) (hunused : ∀ j, j < 65 → s.get .SQ_on 0 (qIx k j) ≠ 1 ∨ s.get .SQ_cq 0 (qIx k j) ≠ q) :
    exec (.deleteIoCq id) s = .next ((((s.set .CQ_on 0 0 i).set .CQ_tail 0 0 i).set .CQ_head 0 0 i).cmdOver id 0 0) := by
  have hqueue : ¬ (q = 0 ∨ 65 ≤ q ∨ s.get .CQ_on 0 i = 0) := by omega
  have hnone : ¬ (List.range 65).any (fun j => decide (s.get .SQ_on 0 (qIx k j) = 1 ∧ s.get .SQ_cq 0 (qIx k j) = q)) = true := by
    simpa [imp_iff_not_or] using hunused
  subst hi
  rw [exec_deleteIoCq, execDeleteIoCq, adminRun_ready hready, ← hq]
  simp only [if_neg hqueue, if_neg hnone]

end Queues

/-- Settles O44, by the bits of CC that change, then command by command. -/
theorem controllers : Obligations.Controllers := by
  refine ⟨?enable, fun s k => ctrlEnable_deviceReady, ?reset, ?shutdown, ?limit, ?fetch, fun s id k q sz i => createIoCq_valid,
    fun s id k q sz cq i => createIoSq_valid, fun s id k q i => deleteIoSq_on, fun s id k q i => deleteIoCq_unused⟩
  case enable =>
    intro s u k cc hctrl hold hstate hshn hnew hu
    rw [exec_controllerEnable, ctrlCc_enable hctrl hold hstate hnew hshn, hu]
  case reset =>
    intro s k v hctrl hold hv hnew
    rw [exec_controllerReset, ← hv, ctrlCc_reset hctrl hold hnew]
  case shutdown =>
    intro s k n v hctrl hold hv hnew hshn hn hnone hready
    rw [exec_controllerShutdown, ← hv, ctrlCc_shutdown hctrl hold hnew hshn hn hnone hready]
  case limit =>
    intro s u k hu
    exact ⟨fun hstate => by rw [hu, resetLimitExpiry_reset hstate], resetLimitExpiry_shutdown hu⟩
  case fetch =>
    intro s k heligible
    rw [exec_nvmeFetch, if_pos heligible]

end Sys2Proof.Machine
end

section
/-! SUPPORT. Laws of the admin commands that report, set and load (R364, R378, R383, R520, R522; Table STOR-1): what each of them comes to, and how the
drain of an activation ends; and the statement that rests on them. The layouts of log pages, Identify data and features and the statuses
0x105, 0x107 and 0x109 are those of NVM Express (log entry 53). -/

namespace Sys2Proof.Machine

section AdminOpcodes
variable (s : State) (id : Nat)

theorem exec_getLogPage : exec (.getLogPage id) s = execGetLogPage id s := rfl
theorem exec_identify : exec (.identify id) s = execIdentify id s := rfl
theorem exec_nvmeAbort : exec (.nvmeAbort id) s = execNvmeAbort id s := rfl
theorem exec_setFeatures : exec (.setFeatures id) s = execSetFeatures id s := rfl
theorem exec_getFeatures : exec (.getFeatures id) s = execGetFeatures id s := rfl
theorem exec_asynchronousEventRequest : exec (.asynchronousEventRequest id) s = execAsynchronousEventRequest id s := rfl
theorem exec_firmwareImageDownload : exec (.firmwareImageDownload id) s = execFirmwareImageDownload id s := rfl
theorem exec_firmwareCommit : exec (.firmwareCommit id) s = execFirmwareCommit id s := rfl
theorem exec_activationDrainDone : exec .activationDrainDone s = execActivationDrainDone s := rfl
theorem exec_activationDrainTimeout : exec .activationDrainTimeout s = execActivationDrainTimeout s := rfl

end AdminOpcodes

section Reports
variable {s u : State} {id k nsid j : Nat} {d : List Nat}

/-- Log page 05h is the Commands Supported and Effects log. -/
theorem getLogPage_effects (hready : s.adminReady id 0x02 k) (hpage : s.sq4 id 40 1 = 5) :
    exec (.getLogPage id) s = .next (s.adminData id (s.sq4 id 48 8) ((s.sq4 id 42 2 + s.sq4 id 44 2 * 65536 + 1) * 4)
      (effectsLog (decide (k % 512 = 0)))) := by
  simp only [exec_getLogPage, execGetLogPage, adminRun_ready hready, hpage]

theorem getLogPage_none (hready : s.adminReady id 0x02 k) (hpage : s.sq4 id 40 1 = 0) :
    exec (.getLogPage id) s = .next (s.cmdOver id 0x109 0) := by
  simp only [exec_getLogPage, execGetLogPage, adminRun_ready hready, hpage]

/-- CNS 00h of an attached nsid answers the namespace's data. -/
theorem identify_namespace (hready : s.adminReady id 0x06 k) (hnsid : nsid = s.sq4 id 4 4) (hcns : s.sq4 id 40 1 = 0) (hlow : 1 ≤ nsid)
    (hhigh : nsid ≤ 256) (hattached : s.nsOf k nsid ≠ 0) :
    exec (.identify id) s = .next (s.adminData id 0 4096 (s.identNs (s.nsOf k nsid - 1))) := by
  have hrange : ¬ (nsid = 0 ∨ 256 < nsid) := by omega
  rw [exec_identify, execIdentify, adminRun_ready hready, ← hnsid]
  simp only [hcns, if_neg hrange, if_neg hattached]

theorem identify_controller (hready : s.adminReady id 0x06 k) (hcns : s.sq4 id 40 1 = 1) (hdata : s.identCtrl k = (u, d)) :
    exec (.identify id) s = .next (u.adminData id 0 4096 d) := by
  simp only [exec_identify, execIdentify, adminRun_ready hready, hcns, hdata]

/-- Whether Abort `id` of controller `k` catches command `j`: it names the queue and the identifier, and the command has not been sent
(R378). -/
def State.abortCatches (s : State) (id j : Nat) : Bool :=
  decide (j ≠ id ∧ s.get .CM_sq 0 j = s.sq4 id 40 2 ∧ s.cmdCid j = s.sq4 id 42 2 ∧ 2 ≤ s.get .CM_st 0 j ∧ s.get .CM_st 0 j ≤ 4 ∧
    s.lget .flushLeft 0 j = [])

/-- An Abort completes the command it catches as aborted, and itself with 0; one that catches none answers 1 (R378). -/
theorem nvmeAbort_ready (hready : s.adminReady id 0x08 k) : exec (.nvmeAbort id) s = .next (
    match (s.lget .ctrlCmds 0 k).find? (s.abortCatches id) with
    | some j => ((s.bump .NVE_REGION_CNT0_aborts_caught (s.get .CM_region 0 j)).cmdOver j 0x07 0).cmdOver id 0 0
    | none => s.cmdOver id 0 1) := by
  rw [exec_nvmeAbort, execNvmeAbort, adminRun_ready hready]
  rfl

end Reports

section Features
variable {s u : State} {id k : Nat}

section Set
variable (hready : s.adminReady id 0x09 k) (hvolatile : (s.sq4 id 43 1).testBit 7 = false)
include hready hvolatile

theorem setFeatures_arbitration (hfid : s.sq4 id 40 1 = 0x01) :
    exec (.setFeatures id) s = .next ((s.set .NC_feat_arb (s.sq4 id 44 4) 0 k).cmdOver id 0 0) := by
  simp only [exec_setFeatures, execSetFeatures, adminRun_ready hready, hvolatile, Bool.false_eq_true, if_false, hfid]

theorem setFeatures_asyncEvents (hfid : s.sq4 id 40 1 = 0x0B) :
    exec (.setFeatures id) s = .next ((s.set .NC_feat_aec (s.sq4 id 44 4) 0 k).cmdOver id 0 0) := by
  simp only [exec_setFeatures, execSetFeatures, adminRun_ready hready, hvolatile, Bool.false_eq_true, if_false, hfid]

end Set

section Get
variable (hready : s.adminReady id 0x0A k)
include hready

theorem getFeatures_arbitration (hfid : s.sq4 id 40 1 = 0x01) :
    exec (.getFeatures id) s = .next (s.cmdOver id 0 (s.get .NC_feat_arb 0 k)) := by
  simp only [exec_getFeatures, execGetFeatures, adminRun_ready hready, hfid]

theorem getFeatures_asyncEvents (hfid : s.sq4 id 40 1 = 0x0B) :
    exec (.getFeatures id) s = .next (s.cmdOver id 0 (s.get .NC_feat_aec 0 k)) := by
  simp only [exec_getFeatures, execGetFeatures, adminRun_ready hready, hfid]

end Get

section Events
variable (hready : s.adminReady id 0x0C k)
include hready

/-- One of up to four requests waits while no event does. -/
theorem asynchronousEventRequest_waits (hu : u = (s.cmdDrop id).lpush .aerCids (s.cmdCid id) 0 k)
    (hroom : (s.lget .aerCids 0 k).length < 4) (hnone : u.lget .aerWait 0 k = []) :
    exec (.asynchronousEventRequest id) s = .next (u.ctrlAfter k) := by
  subst hu
  simp only [exec_asynchronousEventRequest, execAsynchronousEventRequest, adminRun_ready hready, if_neg (Nat.not_le.mpr hroom), hnone]

theorem asynchronousEventRequest_tooMany (hfull : 4 ≤ (s.lget .aerCids 0 k).length) :
    exec (.asynchronousEventRequest id) s = .next (s.cmdOver id 0x105 0) := by
  simp only [exec_asynchronousEventRequest, execAsynchronousEventRequest, adminRun_ready hready, if_pos hfull]

end Events

end Features

section Firmware
variable {s u : State} {id k j : Nat} {man img : List Nat}

/-- On a PF1 controller part of an image is fetched, within the 8 MiB of an image (R364, R520). -/
theorem firmwareImageDownload_pf (hready : s.adminReady id 0x11 k) (hpf : k % 512 = 0)
    (hfits : s.sq4 id 44 4 * 4 + (s.sq4 id 40 4 + 1) * 4 ≤ 0x800000) :
    exec (.firmwareImageDownload id) s = .next (s.dptrStart id 1 ((s.sq4 id 40 4 + 1) * 4)) := by
  simp only [exec_firmwareImageDownload, execFirmwareImageDownload, adminRun_ready hready, hpf, ne_eq, not_true, if_false,
    if_neg (Nat.not_lt.mpr hfits)]

theorem firmwareImageDownload_vf (hready : s.adminReady id 0x11 k) (hvf : k % 512 ≠ 0) :
    exec (.firmwareImageDownload id) s = .next (s.cmdOver id 0x01 0) := by
  simp only [exec_firmwareImageDownload, execFirmwareImageDownload, adminRun_ready hready, if_pos hvf]

/-- A commit to the slot that does not run with action 011b stores a valid image there and begins the drain of its activation (R383,
R520). -/
theorem firmwareCommit_activates (hready : s.adminReady id 0x10 k) (hpf : k % 512 = 0) (haction : bitsOf (s.sq4 id 40 4) 3 3 = 3)
    (hslot : s.sq4 id 40 4 % 8 = j + 1) (hj : j < 2) (hother : j ≠ s.get .BOOT_STATUS_s2_slot) (hpower : s.get .PWR_fail = 0)
    (hidle : s.get .ACT_on = 0) (hman : man = (s.lget .fwImage 0 k).take 65536)
    (himg : img = ((s.lget .fwImage 0 k).drop 65536).take (leAt man 16 4))
    (hu : u = ((s.lset .stage2Slot (fixLen 65536 man ++ img) 0 j).imgShow (2 + j) man (s.imageValid man img 2 (imgSpace 2))).lset
      .fwImage [] 0 k) :
    exec (.firmwareCommit id) s = .next (if (s.imageValid man img 2 (imgSpace 2)).1 ≠ 0 then s.cmdOver id 0x107 0 else
      (((u.set .ACT_on 1).set .ACT_at u.now).set .ACT_cmd (id + 1)).set .ACT_slot j) := by
  have hfree : ¬ (2 < j + 1 ∨ j = s.get .BOOT_STATUS_s2_slot) := by omega
  have hquiet : ¬ (s.get .PWR_fail = 1 ∨ s.get .ACT_on = 1) := by omega
  subst hu himg hman
  simp only [exec_firmwareCommit, execFirmwareCommit, adminRun_ready hready, hpf, ne_eq, not_true, if_false, haction, Nat.reduceEqDiff,
    Nat.lt_irrefl, or_self, hslot, Nat.add_eq_zero_iff, Nat.one_ne_zero, and_false, Nat.add_sub_cancel, if_neg hfree,
    if_neg hquiet, if_true]

/-- Once every command has completed within 600 ms, stage 2 is activated and the SPDM sessions end (R383, R522). -/
theorem activationDrainDone_drained (hon : s.get .ACT_on ≠ 0) (hdrained : s.actLeft = false) (hin : s.now ≤ s.get .ACT_at + 600 * msUnits)
    (hj : j = s.get .ACT_slot) (hu : u = s.set .BOOT_STATUS_s2_slot j) :
    exec .activationDrainDone s = .next ((u.lset .attestKey (s.attestOf (s.s2Image j).1)).spdmEnd.actEnd 0) := by
  have hends : ¬ (s.get .ACT_on = 0 ∨ s.actLeft = true ∨ s.get .ACT_at + 600 * msUnits < s.now) := by
    simp only [hdrained, Bool.false_eq_true, false_or]; omega
  subst hu hj
  simp only [exec_activationDrainDone, execActivationDrainDone, if_neg hends]

/-- At 600 ms with commands still outstanding nothing is activated (R383). -/
theorem activationDrainTimeout_left (hon : s.get .ACT_on ≠ 0) (hleft : s.actLeft = true) :
    exec .activationDrainTimeout s = .next ((s.advanceTo (s.get .ACT_at + 600 * msUnits)).actEnd 0x12) := by
  simp only [exec_activationDrainTimeout, execActivationDrainTimeout, hon, hleft, Bool.not_true, Bool.false_eq_true, or_self, if_false]

end Firmware

/-- Settles O45, command by command. -/
theorem adminCommands : Obligations.AdminCommands := by
  refine ⟨fun s id k hready => ⟨getLogPage_effects hready, getLogPage_none hready⟩, ?identify, ?abort,
    fun s id k hready hvolatile => ⟨setFeatures_arbitration hready hvolatile, setFeatures_asyncEvents hready hvolatile⟩,
    fun s id k hready => ⟨getFeatures_arbitration hready, getFeatures_asyncEvents hready⟩,
    fun s u id k hready hu => ⟨asynchronousEventRequest_waits hready hu, asynchronousEventRequest_tooMany hready⟩,
    fun s id k hready => ⟨firmwareImageDownload_pf hready, firmwareImageDownload_vf hready⟩, ?commit,
    fun s u j => activationDrainDone_drained, fun s => activationDrainTimeout_left⟩
  case identify =>
    exact fun s id k nsid hready hnsid => ⟨identify_namespace hready hnsid, fun hcns u d => identify_controller hready hcns⟩
  case abort =>
    intro s id k r hready hr
    have hfound : (s.lget .ctrlCmds 0 k).find? (s.abortCatches id) = r := hr.symm
    rw [nvmeAbort_ready hready, hfound]
    exact ⟨fun hnone => by rw [hnone], fun j hsome => by rw [hsome]⟩
  case commit =>
    exact fun s id k j man img hready hpf haction hslot hj hother hpower hidle hman himg =>
      firmwareCommit_activates hready hpf haction hslot hj hother hpower hidle hman himg rfl

end Sys2Proof.Machine
end

section
/-! SUPPORT. Laws of I/O commands (R371 to R377, R384, R385, R392): what a fetched command that passes its checks, or fails one, comes to, what its
admission to its serving region turns on, and how a command whose data is staged goes on; and the statement that rests on them. The order of
the checks is log entry 53, the wait of a Flush for commands not yet read log entry 152. -/

namespace Sys2Proof.Machine

section IoOpcodes
variable (s : State) (id : Nat) (agree : Bool)

theorem exec_nvmeWrite : exec (.nvmeWrite id) s = execNvmeWrite id s := rfl
theorem exec_nvmeRead : exec (.nvmeRead id) s = execNvmeRead id s := rfl
theorem exec_writeZeroes : exec (.writeZeroes id) s = execWriteZeroes id s := rfl
theorem exec_datasetManagement : exec (.datasetManagement id) s = execDatasetManagement id s := rfl
theorem exec_nvmeFlush : exec (.nvmeFlush id) s = execNvmeFlush id s := rfl
theorem exec_commandStaged : exec (.commandStaged id agree) s = execCommandStaged id agree s := rfl

end IoOpcodes

section Checked
variable {s : State} {id x : Nat}

theorem nvmeWrite_ready (hready : s.ioReady id 1 (s.ioBlocks id) true) :
    exec (.nvmeWrite id) s = .next (s.ioAdmit id (s.ioBlocks id) 1 (s.ioBytes id (s.ioBlocks id))) := by
  obtain ⟨hio, hok⟩ := hready
  simp only [exec_nvmeWrite, execNvmeWrite, hio, Bool.not_true, Bool.false_eq_true, if_false, hok]

/-- A Write that fails a check ends with that check's status (Table STOR-6). -/
theorem nvmeWrite_failed (hio : s.isIo id 1 = true) (hbad : s.ioStatus id (s.ioBlocks id) true = x + 1) :
    exec (.nvmeWrite id) s = .next (s.cmdOver id (x + 1) 0) := by
  simp only [exec_nvmeWrite, execNvmeWrite, hio, Bool.not_true, Bool.false_eq_true, if_false, hbad]

theorem nvmeRead_ready (hready : s.ioReady id 2 (s.ioBlocks id) true) :
    exec (.nvmeRead id) s = .next (s.ioAdmit id (s.ioBlocks id) 2 (s.ioBytes id (s.ioBlocks id))) := by
  obtain ⟨hio, hok⟩ := hready
  simp only [exec_nvmeRead, execNvmeRead, hio, Bool.not_true, Bool.false_eq_true, if_false, hok]

/-- Without xts a Write Zeroes moves no data (R385). -/
theorem writeZeroes_ready (hready : s.ioReady id 8 (s.ioBlocks id) false) (hplain : (s.nsAt (s.cmdNs id - 1) 7 1).testBit 0 = false) :
    exec (.writeZeroes id) s = .next (s.ioAdmit id (s.ioBlocks id) 0 0) := by
  obtain ⟨hio, hok⟩ := hready
  simp only [exec_writeZeroes, execWriteZeroes, hio, Bool.not_true, Bool.false_eq_true, if_false, hok, hplain, Bool.false_and, when_false]

/-- Deallocation reads its ranges; without it the command is a hint with no effect (Table STOR-1). -/
theorem datasetManagement_ready (hready : s.ioReady id 9 0 false) : exec (.datasetManagement id) s =
    .next (if !(s.sq4 id 44 1).testBit 2 then s.cmdOver id 0 0 else s.ioAdmit id 0 1 ((s.sq4 id 40 1 + 1) * 16)) := by
  obtain ⟨hio, hok⟩ := hready
  simp only [exec_datasetManagement, execDatasetManagement, hio, Bool.not_true, Bool.false_eq_true, if_false, hok]

end Checked

section Admission
variable {s : State} {id blocks dir len k n : Nat} (hk : k = s.get .CM_ctrl 0 id) (hregion : s.nsRegion (s.cmdNs id - 1) = some n)
include hk hregion

/-- Without credit of its region a command holds its queue (R371). -/
theorem ioAdmit_noCredit (hcredit : s.creditOk n (s.ctrlTenant k) = false) : s.ioAdmit id blocks dir len =
    (s.set .CM_region n 0 id).set .SQ_block (id + 1) 0 (qIx k (s.get .CM_sq 0 id)) := by
  subst hk
  simp only [State.ioAdmit, hregion, hcredit, Bool.not_false, if_true]

/-- Without staging space it waits in FETCHED (R373). -/
theorem ioAdmit_noStaging (hcredit : s.creditOk n (s.ctrlTenant k) = true) (hfull : 2 ^ 29 < s.stagingUsed n + len) :
    s.ioAdmit id blocks dir len = s := by
  subst hk
  simp only [State.ioAdmit, hregion, hcredit, Bool.not_true, Bool.false_eq_true, if_false, if_pos hfull]

end Admission

section Flush
variable {s u : State} {id k nsid x n : Nat}

/-- What a Flush of one namespace covers, when no command fetched before it is still being read (R377). -/
theorem nvmeFlush_covers (hio : s.isIo id 0 = true) (hfields : s.dw0Status id = 0) (hk : k = s.get .CM_ctrl 0 id) (hnsid : nsid = s.sq4 id 4 4)
    (hone : nsid ≠ 0xFFFFFFFF) (hx : x = s.cmdNs id) (hattached : x ≠ 0) (hregion : s.nsRegion (x - 1) = some n)
    (hcredit : s.creditOk n (s.ctrlTenant k) = true)
    (hread : ∀ j ∈ s.lget .ctrlCmds 0 k, ¬ (s.get .CM_st 0 j = 1 ∧ s.get .CM_sq 0 j ≠ 0 ∧ s.get .CM_seq 0 j < s.get .CM_seq 0 id))
    (hu : u = ((s.sqFree id).set .CM_region n 0 id).set .CM_ns x 0 id) {v : State}
    (hv : v = (((u.set .CM_nsid nsid 0 id).lset .flushCover (u.coverOf id) 0 id).set .CM_st 4 0 id).flushTry id) :
    exec (.nvmeFlush id) s = .next (if v.get .CM_st 0 id = 6 then v.ctrlAfter k else v) := by
  have hnone : ¬ (s.lget .ctrlCmds 0 k).any (fun j => decide (s.get .CM_st 0 j = 1 ∧ s.get .CM_sq 0 j ≠ 0 ∧
      s.get .CM_seq 0 j < s.get .CM_seq 0 id)) = true := by
    simpa only [List.any_eq_true, decide_eq_true_eq, not_exists, not_and] using hread
  rw [exec_nvmeFlush, execNvmeFlush, ← hk, ← hnsid, ← hx]
  simp only [hio, hfields, decide_eq_false hone, hattached, if_neg hnone, hregion, hcredit, Bool.not_true, Bool.not_false, Bool.false_eq_true,
    ne_eq, not_true, and_false, if_false, ← hu, ← hv]

end Flush

section Staged
variable {s u : State} {id q st : Nat} {agree : Bool}

/-- A command in ORDER_WAIT is tried again. -/
theorem commandStaged_again (hst : s.get .CM_st 0 id = 4) : exec (.commandStaged id agree) s = .next (s.cmdGo id) := by
  simp only [exec_commandStaged, execCommandStaged, if_pos hst]

/-- A command whose data is staged, and is not a Write, enters the overlap check (R375, R384). -/
theorem commandStaged_staged (hst : s.get .CM_st 0 id = 3) (hio : s.cmdAdmin id = false) (hall : s.get .CM_want 0 id = 0)
    (hdata : s.get .CM_dir 0 id = 0 ∨ s.get .CM_desc 0 id = s.get .CM_dlen 0 id) (hop : s.opSent id ≠ 1) :
    exec (.commandStaged id agree) s = .next ((s.set .CM_st 4 0 id).cmdGo id) := by
  have hstaged : ¬ (s.get .CM_st 0 id ≠ 3 ∨ s.cmdAdmin id = true ∨ s.get .CM_want 0 id ≠ 0 ∨
      (s.get .CM_dir 0 id ≠ 0 ∧ s.get .CM_desc 0 id ≠ s.get .CM_dlen 0 id)) := by
    simp only [hst, hio, hall, ne_eq, not_true, Bool.false_eq_true, false_or]; omega
  have hfirst : ¬ s.get .CM_st 0 id = 4 := by omega
  simp only [exec_commandStaged, execCommandStaged, if_neg hfirst, if_neg hstaged, if_neg hop]

theorem cmdGo_noQueue (hnone : s.pickQueue (s.cmdBackend id) (s.get .CM_avoid 0 id) = none) :
    s.cmdGo id = (s.cmdTry id).flushTry id := by
  simp only [State.cmdGo, hnone]

section Queue
variable (hq : s.pickQueue (s.cmdBackend id) (s.get .CM_avoid 0 id) = some q) (hkey : s.tlsUse id q = (u, st))
include hq hkey

/-- A command whose queue has no TLS key ends with Internal Error (R392). -/
theorem cmdGo_keyFails (hst : st = 3) : s.cmdGo id = u.cmdOver id 0x06 0 := by
  simp only [State.cmdGo, hq, hkey, hst]

theorem cmdGo_tried (hst : st ≠ 3) : s.cmdGo id = (u.cmdTry id).flushTry id := by
  simp only [State.cmdGo, hq, hkey]

end Queue

end Staged

/-- Settles O46, by the commands of Table STOR-1 and then by the steps of a command that was admitted. -/
theorem ioCommands : Obligations.IoCommands := by
  refine ⟨fun s id => nvmeWrite_ready, fun s id => nvmeRead_ready, fun s id x => nvmeWrite_failed, fun s id => writeZeroes_ready, ?dataset,
    fun s id blocks dir len k n hk hregion => ⟨ioAdmit_noCredit hk hregion, ioAdmit_noStaging hk hregion⟩, ?flush,
    fun s id agree => ⟨commandStaged_again, commandStaged_staged⟩, fun s id => cmdGo_noQueue,
    fun s u id q st hq hkey => ⟨cmdGo_keyFails hq hkey, cmdGo_tried hq hkey⟩⟩
  case dataset =>
    intro s id hready
    rw [datasetManagement_ready hready]
    exact ⟨fun hdealloc => by rw [hdealloc]; rfl, fun hhint => by rw [hhint]; rfl⟩
  case flush =>
    exact fun s u id k nsid x n hio hfields hk hnsid hone hx hattached hregion hcredit hread hu v hv =>
      nvmeFlush_covers hio hfields hk hnsid hone hx hattached hregion hcredit hread hu hv

end Sys2Proof.Machine
end

section
/-! SUPPORT. Laws of backend queues (R365, R368, R369, R374, R379; Table STOR-6): what a queue's connection and its loss, a response, a command without
one, an R2T and the retransmission timer come to; and the statement that rests on them. What a response acknowledges and how the timer backs
off are log entry 53. -/

namespace Sys2Proof.Machine

section QueueEvents
variable (s : State) (b q incap maxh2c tag status dw0 id ttag off len : Nat) (agree : Bool) (d : List Nat)

theorem exec_backendQueueConnect : exec (.backendQueueConnect b q incap maxh2c) s = execBackendQueueConnect b q incap maxh2c s := rfl
theorem exec_backendQueueDisconnect : exec (.backendQueueDisconnect b q) s = execBackendQueueDisconnect b q s := rfl
theorem exec_backendResponse :
    exec (.backendResponse b q tag status dw0 agree d) s = execBackendResponse b q tag status dw0 agree d s := rfl
theorem exec_backendTimeout : exec (.backendTimeout id) s = execBackendTimeout id s := rfl
theorem exec_readyToTransferPdu :
    exec (.readyToTransferPdu b q tag ttag off len) s = execReadyToTransferPdu b q tag ttag off len s := rfl
theorem exec_tcpRetransmitTimeout : exec (.tcpRetransmitTimeout b q) s = execTcpRetransmitTimeout b q s := rfl

end QueueEvents

section Connection
variable {s u v : State} {b q incap maxh2c j : Nat} (hj : j = b * 64 + q)
include hj

/-- The first connection of a TCP backend's queue takes its target's limits, and waiting commands go on (R365, R368, R374). -/
theorem backendQueueConnect_first (hmade : s.get .BE_on 0 b ≠ 0) (hq : q < s.beField b 1 1) (hoff : s.get .BEQ_on 0 j ≠ 1)
    (hnew : s.get .BEQ_was 0 j ≠ 1) (htcp : s.beField b 0 1 ≠ 2) (hu : u = ((((((s.set .BEQ_on 1 0 j).set .BEQ_was 1 0 j).set .BEQ_ioccsz
      incap 0 j).set .BEQ_maxh2c maxh2c 0 j).set .BEQ_rto secUnits 0 j).set .BEQ_rec 0 0 j).lset .beUna [] 0 j) :
    exec (.backendQueueConnect b q incap maxh2c) s = .next ((u.set .NVE_BE_STAT_connected (u.beConnected b) 0 b).storeKick) := by
  have hconnects : ¬ (s.get .BE_on 0 b = 0 ∨ s.beField b 1 1 ≤ q ∨ s.get .BEQ_on 0 j = 1) := by omega
  subst hj
  simp only [exec_backendQueueConnect, execBackendQueueConnect, if_neg hconnects, decide_eq_false hnew, htcp, false_and, decide_false,
    when_false, ← hu]

/-- The outstanding commands of a lost queue are sent again, but those of a controller that is being reset (R374, R379). -/
theorem backendQueueDisconnect_lost (hon : s.get .BEQ_on 0 j ≠ 0) (hu : u = (s.set .BEQ_on 0 0 j).lset .beUna [] 0 j)
    (hv : v = u.set .NVE_BE_STAT_connected (u.beConnected b) 0 b) : exec (.backendQueueDisconnect b q) s =
      .next (v.each (((v.keysOf .CM_sent_at).map (·.2)).filter (fun id => decide (v.get .CM_st 0 id = 5 ∧ v.get .CM_be 0 id = b ∧
        v.get .CM_q 0 id = q))) (fun id s => if s.get .NVE_CTRL_STAT_state 0 (s.get .CM_ctrl 0 id) = 2 then s else s.cmdResend id)) := by
  subst hj
  simp only [exec_backendQueueDisconnect, execBackendQueueDisconnect, if_neg hon, ← hu, ← hv]

end Connection

section Responses
variable {s u : State} {b q tag status dw0 id j : Nat} {agree : Bool} {d : List Nat} (hmade : s.get .BE_on 0 b ≠ 0)
  (htcp : s.beField b 0 1 ≠ 2) (hnone : s.sentAs b q tag 7 = none)
include hmade htcp hnone

/-- A response to an outstanding command answers and finishes it (R368, R369). -/
theorem backendResponse_answers (hj : j = b * 64 + q) (hsent : s.sentAs b q tag 5 = some id)
    (hu : u = (s.lset .beUna (unaDrop id (s.lget .beUna 0 j).length (s.lget .beUna 0 j)) 0 j).set .BEQ_rto secUnits 0 j) :
    exec (.backendResponse b q tag status dw0 agree d) s = .next ((u.beAnswer id status dw0 d).beFinish id agree) := by
  subst hj
  simp only [exec_backendResponse, execBackendResponse, if_neg hmade, if_neg htcp, State.beTake, hnone, hsent, ← hu]

/-- A response that answers no command outstanding is counted late (R379). -/
theorem backendResponse_late (hfree : s.sentAs b q tag 5 = none) :
    exec (.backendResponse b q tag status dw0 agree d) s = .next (s.lateResp b q tag) := by
  simp only [exec_backendResponse, execBackendResponse, if_neg hmade, if_neg htcp, State.beTake, hnone, hfree]

end Responses

section Timeouts
variable {s u : State} {b q id n j : Nat} {r : List Nat}

/-- A command without a response in io_timeout is counted and sent again (Table STOR-6). -/
theorem backendTimeout_resends (hsent : s.get .CM_st 0 id = 5) (hruns : s.get .NVE_CTRL_STAT_state 0 (s.get .CM_ctrl 0 id) ≠ 2)
    (hu : u = s.advanceTo (s.get .CM_sent_at 0 id + max 1 (s.get .NVE_CFG_io_timeout_100ms) * 100 * msUnits)) :
    exec (.backendTimeout id) s = .next ((u.bump .NVE_BE_STAT_timeouts 0 (u.get .CM_be 0 id)).cmdResend id) := by
  have hwaits : ¬ (s.get .CM_st 0 id ≠ 5 ∨ s.get .NVE_CTRL_STAT_state 0 (s.get .CM_ctrl 0 id) = 2) := by omega
  simp only [exec_backendTimeout, execBackendTimeout, if_neg hwaits, hu]

/-- The oldest unacknowledged bytes are sent again, and the timer doubles, to 60 s at most (R368; log entry 53). -/
theorem tcpRetransmitTimeout_resends (hj : j = b * 64 + q) (huna : s.lget .beUna 0 j = id :: n :: r) (hon : s.get .BEQ_on 0 j ≠ 0)
    (htcp : s.beField b 0 1 ≠ 2) (hu : u = s.advanceTo (s.now + s.get .BEQ_rto 0 j)) : exec (.tcpRetransmitTimeout b q) s =
      .next ((u.emit .backend [b, q, n] (r.take n)).set .BEQ_rto (min (60 * secUnits) (2 * u.get .BEQ_rto 0 j)) 0 j) := by
  subst hj hu
  simp only [exec_tcpRetransmitTimeout, execTcpRetransmitTimeout, huna, hon, htcp, or_self, if_false]

end Timeouts

section ReadyToTransfer
variable {s u : State} {b q tag ttag off len id d : Nat}

/-- The range that an R2T asks for, cut to the command's data, is sent once the TLS key is there (R368). -/
theorem readyToTransferPdu_range (hsent : s.sentAs b q tag 5 = some id) (htcp : s.beField b 0 1 ≠ 2)
    (hd : d = (s.lget .cmdData 0 id).length) (hoff : off < d) {have_ : Bool} (hkey : s.tlsHave id = (u, have_)) :
    exec (.readyToTransferPdu b q tag ttag off len) s =
      .next (if have_ then u.h2cSend b q id ttag off (min len (d - off)) (min len (d - off)) else u) := by
  have hrange : ¬ (s.beField b 0 1 = 2 ∨ d ≤ off) := by omega
  subst hd
  simp only [exec_readyToTransferPdu, execReadyToTransferPdu, hsent, if_neg hrange, hkey]
  cases have_ <;> rfl

end ReadyToTransfer

/-- Settles O47, event by event. -/
theorem backendQueues : Obligations.BackendQueues := by
  refine ⟨fun s u b q incap maxh2c j => backendQueueConnect_first, fun s u v b q j => backendQueueDisconnect_lost, ?response,
    fun s u id => backendTimeout_resends, ?range, fun s u b q j id n r => tcpRetransmitTimeout_resends⟩
  case response =>
    exact fun s u b q tag status dw0 id j agree d hmade htcp hj hnone =>
      ⟨backendResponse_answers hmade htcp hnone hj, backendResponse_late hmade htcp hnone⟩
  case range =>
    intro s b q tag ttag off len id d hsent htcp hd hoff
    refine ⟨fun u hkey => ?_, fun u hkey => ?_⟩
    · rw [readyToTransferPdu_range hsent htcp hd hoff hkey, if_pos rfl]
    · rw [readyToTransferPdu_range hsent htcp hd hoff hkey, if_neg Bool.false_ne_true]

end Sys2Proof.Machine
end

section
/-! SUPPORT. Laws of the key store (R390, R394 to R396, R399 to R402, R528; Tables CIPH-6 and CIPH-7): what each command of the key channel comes to
once its checks pass, and who may zeroise a tenant's keys; and the statements that rest on them. Keys, MACs and the DRBG's output are opaque
values (log entry 4); the order of the checks is log entry 55. -/

namespace Sys2Proof.Machine

section KeyStoreCommands
variable (s : State) (ch t : Nat) (gate : Bool)

theorem exec_generate : exec (.generate ch t) s = execGenerate ch t s := rfl
theorem exec_unwrap : exec (.unwrap ch t) s = execUnwrap ch t s := rfl
theorem exec_derive : exec (.derive ch t) s = execDerive ch t s := rfl
theorem exec_keyDestroy : exec (.keyDestroy ch t) s = execKeyDestroy ch t s := rfl
theorem exec_keyQuery : exec (.keyQuery ch t) s = execKeyQuery ch t s := rfl
theorem exec_keyMac : exec (.keyMac ch t) s = execKeyMac ch t s := rfl
theorem exec_drbgReseed : exec .drbgReseed s = execDrbgReseed s := rfl
theorem exec_keyZeroiseTenant : exec (.keyZeroiseTenant ch t gate) s = execKeyZeroiseTenant ch t gate s := rfl

end KeyStoreCommands

section Creating
variable {s : State} {ch t : Nat} (hidle : s.get .KEY_CH_busy 0 ch = 0) (htarget : s.targetCheck ch t = 0)
include hidle htarget

/-- A target that passes its checks is filled from the DRBG if it is empty (R390). -/
theorem generate_checked : exec (.generate ch t) s = .next (if !s.targetEmpty ch then s.keyRes ch 2 else
    (s.addw .DRBG_ctr 1).targetPut ch (Config.crypto algDrbg [leBytes 48 (s.get .DRBG_seed), leBytes 8 (s.get .DRBG_ctr)])) := by
  simp only [exec_generate, execGenerate, hidle, Nat.zero_ne_one, if_false, htarget]

variable (hempty : s.targetEmpty ch = true)
include hempty

/-- A wrapped key of the right length under a source that passes its checks is stored if it verifies (R400). -/
theorem unwrap_checked {la lb src : Nat} {d : List Nat} (hla : la = s.get .KEY_CH_len_a 0 ch) (hlb : lb = s.get .KEY_CH_len_b 0 ch)
    (hsrc : src = s.get .KEY_CH_src_slot 0 ch) (hd : d = s.keyData ch) (hmin : 24 ≤ la) (hmax : la ≤ 72) (hwords : la % 8 = 0)
    (hsalt : lb ≤ 12) (hlen : la - 8 + lb = attrLen (s.get .KEY_CH_attr 0 ch)) (hsource : s.sourceCheck t src 5 = (s, 0)) :
    exec (.unwrap ch t) s = .next (if !Config.verifies algUnwrap [s.slotKey src, d.take la] then s.keyRes ch 7 else
      s.targetPut ch ((Config.crypto algUnwrap [s.slotKey src, d.take la] ++ List.replicate 72 0).take (la - 8) ++ slice d la lb)) := by
  have hfields : ¬ (la < 24 ∨ 72 < la ∨ la % 8 ≠ 0 ∨ 12 < lb ∨ la - 8 + lb ≠ attrLen (s.get .KEY_CH_attr 0 ch)) := by omega
  rw [exec_unwrap, execUnwrap, ← hla, ← hlb, ← hsrc, ← hd]
  simp only [hidle, Nat.zero_ne_one, htarget, if_neg hfields, hsource, hempty, Bool.not_true, Bool.false_eq_true, if_false]

/-- HKDF-Expand, as kdf 1 or 2, of a SECRET that passes its checks fills the key bytes from info_key and the salt bytes from info_salt
(Table CIPH-7). -/
theorem derive_expand {kdf la lb src a : Nat} {d : List Nat} (hkdf : kdf = s.get .KEY_CH_kdf 0 ch) (hla : la = s.get .KEY_CH_len_a 0 ch)
    (hlb : lb = s.get .KEY_CH_len_b 0 ch) (hsrc : src = s.get .KEY_CH_src_slot 0 ch) (ha : a = s.get .KEY_CH_attr 0 ch)
    (hd : d = s.keyData ch) (hexpand : kdf = 1 ∨ kdf = 2) (hkey : la ≤ 64) (hsalt : lb ≤ 64) (hsecret : attrKind (s.slotAttr src) = 5)
    (hsource : s.sourceCheck t src 6 = (s, 0)) : exec (.derive ch t) s = .next (s.targetPut ch
      ((Config.crypto (algKdf + kdf) [s.slotKey src, d.take la, leBytes 1 (attrKeyLen a)] ++ List.replicate (attrKeyLen a) 0).take
          (attrKeyLen a) ++
        (Config.crypto (algKdf + kdf) [s.slotKey src, slice d la lb, leBytes 1 (attrLen a - attrKeyLen a)] ++
          List.replicate (attrLen a - attrKeyLen a) 0).take (attrLen a - attrKeyLen a))) := by
  have hextract : decide (kdf = 3 ∨ kdf = 4) = false := decide_eq_false (by omega)
  have hfields : ¬ (kdf = 0 ∨ 5 < kdf ∨ 64 < la ∨ 64 < lb) := by omega
  have hkind : ¬ kdf = 5 := by omega
  rw [exec_derive, execDerive, ← hkdf, ← hla, ← hlb, ← hsrc, ← ha, ← hd]
  simp only [hextract, hidle, Nat.zero_ne_one, htarget, Bool.false_eq_true, false_and, or_false, if_neg hfields, hsource, if_neg hkind,
    hsecret, ne_eq, not_true, decide_false, hempty, Bool.not_true, if_false]

end Creating

section Slots
variable {s : State} {ch t k : Nat} (hidle : s.get .KEY_CH_busy 0 ch = 0) (hk : k = s.get .KEY_CH_slot 0 ch) (hslot : s.slotCheck t k = 0)
include hidle hk hslot

/-- The slot is cleared and its key leaves every engine (R401). -/
theorem keyDestroy_checked : exec (.keyDestroy ch t) s = .next ((s.keyDestroy k).keyRes ch 0) := by
  subst hk
  simp only [exec_keyDestroy, execKeyDestroy, hidle, Nat.zero_ne_one, if_false, hslot]

theorem keyQuery_empty (hempty : attrValid (s.slotAttr k) = false) :
    exec (.keyQuery ch t) s = .next ((s.set .KEY_CH_attr (s.slotAttr k) 0 ch).keyRes ch 0) := by
  subst hk
  simp only [exec_keyQuery, execKeyQuery, hidle, Nat.zero_ne_one, hslot, hempty, Bool.false_eq_true, false_and, if_false]

end Slots

section Mac
variable {s : State} {ch t src addr len : Nat}

/-- MAC of bytes inside one window of the tenant, under a source that passes its checks, answers their CMAC (R465). -/
theorem keyMac_checked (hidle : s.get .KEY_CH_busy 0 ch = 0) (hsrc : src = s.get .KEY_CH_src_slot 0 ch)
    (haddr : addr = s.get .KEY_CH_src_addr 0 ch) (hlen : len = s.get .KEY_CH_length 0 ch) (hmin : 0 < len) (hmax : len ≤ 65536)
    (hwindow : s.inWindow t addr len = true) (hsource : s.sourceCheck t src 7 = (s, 0)) :
    exec (.keyMac ch t) s = .next ((s.each (List.range 4) (fun j s => s.set .KEY_CH_data
      (leNat (slice ((Config.crypto algCmac [s.slotKey src, s.mread addr len] ++ List.replicate 16 0).take 16) (4 * j) 4)) 0
        (ch * 32 + j))).keyRes ch 0) := by
  have hrange : ¬ (len = 0 ∨ 65536 < len) := by omega
  rw [exec_keyMac, execKeyMac, ← hsrc, ← haddr, ← hlen]
  simp only [hidle, Nat.zero_ne_one, if_neg hrange, hwindow, hsource, Bool.not_true, Bool.false_eq_true, if_false]
  rfl

end Mac

/-- At the next millisecond of DTS the DRBG is reseeded from the entropy source (R390). -/
theorem drbgReseed_next {s u : State} (hu : u = s.advanceTo ((s.now / msUnits + 1) * msUnits)) :
    exec .drbgReseed s = .next (((u.set .DRBG_seed (u.freeVal 384)).set .DRBG_ctr 0).drew) := by
  rw [exec_drbgReseed, execDrbgReseed, hu]

/-- Settles O48, command by command; where a source is read, its checks decide what the command came to. -/
theorem keyStore : Obligations.KeyStore := by
  refine ⟨?creating, ?slots, ?mac, fun s u => drbgReseed_next⟩
  case creating =>
    intro s ch t hidle htarget
    refine ⟨fun hempty => ?_, fun hfull => ?_, ?unwrap, ?derive⟩
    · rw [generate_checked hidle htarget, hempty]; rfl
    · rw [generate_checked hidle htarget, hfull]; rfl
    case unwrap =>
      intro la lb src d hla hlb hsrc hd hmin hmax hwords hsalt hlen hempty
      refine exec_completes fun u hu hsource => ?_
      have hstored := exec_unique hu (unwrap_checked hidle htarget hempty hla hlb hsrc hd hmin hmax hwords hsalt hlen hsource)
      exact ⟨fun hgood => by rw [hstored, hgood]; rfl, fun hbad => by rw [hstored, hbad]; rfl⟩
    case derive =>
      intro kdf la lb src a d hkdf hla hlb hsrc ha hd hexpand hkey hsalt hempty hsecret
      exact exec_completes fun u hu hsource =>
        exec_unique hu (derive_expand hidle htarget hempty hkdf hla hlb hsrc ha hd hexpand hkey hsalt hsecret hsource)
  case slots => exact fun s ch t k hidle hk hslot => ⟨keyDestroy_checked hidle hk hslot, keyQuery_empty hidle hk hslot⟩
  case mac =>
    exact fun s ch t src addr len hidle hsrc haddr hlen hmin hmax hwindow =>
      exec_completes fun u hu hsource => exec_unique hu (keyMac_checked hidle hsrc haddr hlen hmin hmax hwindow hsource)

section Zeroise
variable {s : State} {path a sc ch t v : Nat} {r : RegRow} (hidle : s.get .KEY_CH_busy 0 ch = 0)
include hidle

theorem keyZeroiseTenant_gate : exec (.keyZeroiseTenant ch t true) s = .next ((s.keyZeroise t).keyRes ch 0) := by
  simp only [exec_keyZeroiseTenant, execKeyZeroiseTenant, hidle, Nat.zero_ne_one, if_false, if_true]

theorem keyZeroiseTenant_other : exec (.keyZeroiseTenant ch t false) s = .next (s.keyRes ch 9) := by
  simp only [exec_keyZeroiseTenant, execKeyZeroiseTenant, hidle, Nat.zero_ne_one, Bool.false_eq_true, if_false]

/-- Over the channel's word op 0x7 is issued by something else than the gate (R402). -/
theorem keyCommand_zeroise (hop : v % 16 = 7) : s.keyCommand ch v = s.keyRes ch 9 := by
  have hrun : execKeyZeroiseTenant ch (bitsOf v 8 8) false s = .next (s.keyRes ch 9) := keyZeroiseTenant_other hidle
  simp only [State.keyCommand, hop, State.run, hrun]

/-- A write of op 0x7 to a key channel is refused with PRESENCE from every access path (R528). -/
theorem registerWrite_zeroise (hreaches : s.reaches path a r sc ch) (hreg : r.reg = .KEY_CH_W00) (hop : v % 16 = 7) :
    exec (.registerWrite path a v) s = .next (s.keyRes ch 9) := by
  have heffect : s.regEffect path a r sc ch v = s.keyCommand ch v := by rw [State.regEffect, hreg]
  rw [exec_registerWrite, writeAt_reaches hreaches, heffect, keyCommand_zeroise hidle hop]

end Zeroise

/-- Settles O50, by the issuer of the command. -/
theorem zeroiseIssuer : Obligations.ZeroiseIssuer :=
  ⟨fun _ _ _ hidle => ⟨keyZeroiseTenant_gate hidle, keyZeroiseTenant_other hidle⟩,
    fun _ _ _ _ _ _ _ hreaches hreg hidle hop => registerWrite_zeroise hidle hreaches hreg hop⟩

end Sys2Proof.Machine
end

section
/-! SUPPORT. Laws of the region cipher blocks (R388, R391, R392, R397, R398): what a key transfer and a packet at the cipher stage come to; and the
statement that rests on them. Slot, range and nonce are operands of the operation (log entry 56), and what sealing makes of the bytes is
opaque (log entry 4). -/

namespace Sys2Proof.Machine

section CipherCommands
variable (s : State) (n k h slot off len : Nat) (ok enc agree : Bool) (nonce aad : List Nat)

theorem exec_keyLoad : exec (.keyLoad n k ok) s = execKeyLoad n k ok s := rfl
theorem exec_cipherOperation :
    exec (.cipherOperation n h slot enc off len nonce aad agree) s = execCipherOperation n h slot enc off len nonce aad agree s := rfl

end CipherCommands

section KeyTransfers
variable {s : State} {n k : Nat} (hloading : s.get .CIPC_st n k = 1)
include hloading

theorem keyLoad_good : exec (.keyLoad n k true) s = .next (s.cipLoad n k) := by
  simp only [exec_keyLoad, execKeyLoad, hloading, ne_eq, not_true, if_false, if_true]

/-- A transfer whose repetition fails the integrity check too leaves the key absent (R397). -/
theorem keyLoad_bad : exec (.keyLoad n k false) s = .next ((s.set .CIPC_st 3 n k).lset .cipKey [] n k) := by
  simp only [exec_keyLoad, execKeyLoad, hloading, ne_eq, not_true, Bool.false_eq_true, if_false]

end KeyTransfers

section Packets
variable {s u : State} {n h slot off len : Nat} {nonce aad b : List Nat} {enc agree : Bool} (hat : s.atEngine n h 5 = true)
include hat

/-- A packet whose key the block holds is sealed and goes on (R388). -/
theorem cipherOperation_sealed (hkind : attrKind (s.slotAttr slot) ≤ 1 ∨ attrKind (s.slotAttr slot) = 4)
    (hkey : s.cipUse n slot (s.pktTenant h) agree = (u, 2))
    (hseal : espBytes (attrKind (s.slotAttr slot)) true (u.cipKeyBytes n slot) (((u.cipMat n slot).drop (attrKeyLen (u.slotAttr slot)) ++
      List.replicate 12 0).take (12 - nonce.length) ++ nonce) aad (u.lget .pktBytes 0 h) off len = some b) :
    exec (.cipherOperation n h slot true off len nonce aad agree) s = .next ((u.lset .pktBytes b 0 h).stageNext h) := by
  have hpacket : ¬ (attrKind (s.slotAttr slot) = 2 ∨ attrKind (s.slotAttr slot) = 3 ∨ 4 < attrKind (s.slotAttr slot)) := by omega
  simp only [exec_cipherOperation, execCipherOperation, hat, Bool.not_true, Bool.false_eq_true, if_false, if_neg hpacket, hkey, hseal]

/-- A key of no packet kind fails the operation, which is counted and drops the packet (R392). -/
theorem cipherOperation_noPacketKind
    (hkind : attrKind (s.slotAttr slot) = 2 ∨ attrKind (s.slotAttr slot) = 3 ∨ 4 < attrKind (s.slotAttr slot)) :
    exec (.cipherOperation n h slot enc off len nonce aad agree) s = .next ((s.cipFail n).dropPkt h reasonCIPHER_FAIL) := by
  simp only [exec_cipherOperation, execCipherOperation, hat, Bool.not_true, Bool.false_eq_true, if_false, if_pos hkind]

end Packets

/-- Settles O49, by the outcome of the transfer and by the key's kind. -/
theorem cipherBlocks : Obligations.CipherBlocks :=
  ⟨fun _ _ _ hloading => ⟨keyLoad_good hloading, keyLoad_bad hloading⟩,
    fun _ _ _ _ _ _ _ _ _ _ _ hat hkind hkey hseal => cipherOperation_sealed hat hkind hkey hseal,
    fun _ _ _ _ _ _ _ _ _ _ hat hkind => cipherOperation_noPacketKind hat hkind⟩

end Sys2Proof.Machine
end

section
/-! SUPPORT. Laws of the service cores (R403, R408 to R410, R413 to R417): what an interrupt between cores, a write of a queue's cons, an allocation of
a span, the descriptor at the front of an injection ring, a core's run, halt and reset and its timers come to; and the statement that rests on
them. Which free handle an allocation takes is a free value (log entry 18); the value of a supervisor's compare register is an operand (log
entry 164). -/

namespace Sys2Proof.Machine

section CoreCommands
variable (s : State) (h f id n q v i k : Nat)

theorem exec_corIpi : exec (.corIpi h f id) s = .next (s.coreMsi h f id) := rfl
theorem exec_queueConsWrite : exec (.queueConsWrite n q v) s = .next (s.queueCons n q (v % 0x10000) (v.testBit 31)) := rfl
theorem exec_corPktAlloc : exec (.corPktAlloc n) s = .next (s.pktAlloc n) := rfl
theorem exec_inject : exec (.inject n i) s = .next (s.injConsume n i 1) := rfl
theorem exec_injSend : exec (.injSend n i) s = .next (s.injConsume n i 2) := rfl
theorem exec_injFree : exec (.injFree n i) s = .next (s.injConsume n i 3) := rfl
theorem exec_scanDone : exec (.scanDone n i) s = .next (s.injConsume n i 4) := rfl
theorem exec_coreRun : exec (.coreRun n i) s = execCoreRun n i s := rfl
theorem exec_haltReq : exec (.haltReq n i) s = execHaltReq n i s := rfl
theorem exec_coreHalted : exec (.coreHalted n i) s = execCoreHalted n i s := rfl
theorem exec_coreReset : exec (.coreReset n i) s = execCoreReset n i s := rfl
theorem exec_timerInterrupt : exec (.timerInterrupt h k v) s = execTimerInterrupt h k v s := rfl

end CoreCommands

section Interrupts
variable {s : State} {h f id : Nat}

/-- An identity of a file that the hart has becomes pending (R409, R410). -/
theorem coreMsi_present (hlow : 0 < id) (hhigh : id < 256) (hhart : h < 53) (hfile : h < 48 ∨ f = 0) (hf : f < 7) :
    s.coreMsi h f id = s.set .IMSIC_pend (setBit (s.get .IMSIC_pend h f) id true) h f := by
  rw [State.coreMsi, if_pos ⟨hlow, hhigh, hhart, hfile, hf⟩, State.setb]

theorem coreMsi_absent (hnone : id = 0 ∨ (48 ≤ h ∧ f ≠ 0)) : s.coreMsi h f id = s := by
  rw [State.coreMsi, if_neg]; omega

end Interrupts

section Queues
variable {s : State} {n q cons held : Nat} {arm : Bool} (hheld : held = (s.get .COR_Q_prod n q + 0x10000 - cons % 0x10000) % 0x10000)
include hheld

/-- A cons that passes prod is ignored (R413). -/
theorem queueCons_past (hpast : s.queueHeld n q < held) : s.queueCons n q cons arm = s.set .COR_Q_cons_err 1 n q := by
  rw [State.queueCons, ← hheld]
  exact if_pos hpast

/-- Any other is taken; with arm it arms the interrupt, which is sent at once while entries remain (R413, R414). -/
theorem queueCons_taken (hin : held ≤ s.queueHeld n q) : s.queueCons n q cons arm =
    if arm then ((s.set .COR_Q_cons cons n q).set .COR_Q_armed 1 n q).when (decide (0 < held)) (·.queueMsi n q)
    else s.set .COR_Q_cons cons n q := by
  rw [State.queueCons, ← hheld]
  exact if_neg (Nat.not_lt.mpr hin)

end Queues

section Spans
variable {s : State} {n h : Nat}

theorem pktAlloc_some (hpick : s.spanPick n 154 0 = some h) : s.pktAlloc n =
    (((s.set .SPAN_units 154 n h).set .SPAN_fw 1 n h).set .SPAN_saved 0 n h).drew.answer [h + 2 ^ 31] := by
  simp only [State.pktAlloc, hpick]; rfl

theorem pktAlloc_none (hpick : s.spanPick n 154 0 = none) : s.pktAlloc n = s.answer [0] := by
  simp only [State.pktAlloc, hpick]

end Spans

section Injection
variable {s : State} {n i act : Nat} {d : List Nat} (hen : s.get .COR_CORE_inj_enable n i ≠ 0) (hwaits : s.injWaiting n i ≠ 0)
  (hd : d = s.injDesc n i)
include hen hwaits hd

/-- The well-formed descriptor of the awaited action is consumed; all but FREE need the credit of its tenant (R416, R485). -/
theorem injConsume_ok (hok : s.injOk n d = true) (hact : d.getD 0 0 = act) (hcredit : act ≠ 3 → s.creditOk n (s.injTenant n d) = true) :
    s.injConsume n i act = (s.addw .COR_CORE_inj_cons 1 n i).injDo n d := by
  have hruns : ¬ (s.get .COR_CORE_inj_enable n i = 0 ∨ s.injWaiting n i = 0) := not_or.mpr ⟨hen, hwaits⟩
  have hpays : ¬ (act ≠ 3 ∧ (!s.creditOk n (s.injTenant n d)) = true) := by
    rintro ⟨hother, hpoor⟩
    rw [hcredit hother] at hpoor
    cases hpoor
  rw [State.injConsume, ← hd]
  simp only [if_neg hruns, hok, hact, Bool.not_true, Bool.false_eq_true, if_neg hpays, ne_eq, not_true, if_false]

/-- One that is not well formed is skipped and counted (R416). -/
theorem injConsume_bad (hbad : s.injOk n d = false) :
    s.injConsume n i act = (s.addw .COR_CORE_inj_cons 1 n i).bump .COR_CORE_bad_desc n i := by
  have hruns : ¬ (s.get .COR_CORE_inj_enable n i = 0 ∨ s.injWaiting n i = 0) := not_or.mpr ⟨hen, hwaits⟩
  rw [State.injConsume, ← hd]
  simp only [if_neg hruns, hbad, Bool.not_false, if_true]

end Injection

/-- FREE frees the span that the descriptor names. -/
theorem injDo_free {s : State} {n : Nat} {d : List Nat} (hact : d.getD 0 0 = 3) :
    s.injDo n d = (s.set .SPAN_units 0 n (leNat (slice d 4 4))).set .SPAN_fw 0 n (leNat (slice d 4 4)) := by
  simp only [State.injDo, hact]

section Cores
variable {s : State} {n i h : Nat} (hh : h = 6 * n + i)
include hh

/-- A core in RESET starts in M-mode at entry, with its hart number and arg (R417). -/
theorem coreRun_reset (hstate : s.get .COR_CORE_state n i = 0) : exec (.coreRun n i) s =
    .next (((((((s.set .COR_CORE_run 1 n i).set .COR_CORE_state 1 n i).set .CORE_pc (s.get .COR_CORE_entry n i) 0 h).set .CORE_a0 h 0 h).set
      .CORE_a1 (s.get .COR_CORE_arg n i) 0 h).set .CORE_mode 3 0 h).set .CORE_iaf (b2n (!entryOk (s.get .COR_CORE_entry n i))) 0 h) := by
  subst hh
  simp [exec_coreRun, execCoreRun, hstate, hartOf]

theorem haltReq_running (hstate : s.get .COR_CORE_state n i = 1) : exec (.haltReq n i) s = .next (s.set .CORE_halting 1 0 h) := by
  subst hh
  rw [exec_haltReq, execHaltReq, if_pos hstate, hartOf]

theorem coreHalted_stopping (hstate : s.get .COR_CORE_state n i = 1) (hhalting : s.get .CORE_halting 0 h = 1) :
    exec (.coreHalted n i) s = .next ((s.set .COR_CORE_state 2 n i).set .CORE_halting 0 0 h) := by
  subst hh
  rw [exec_coreHalted, execCoreHalted, hartOf, if_pos ⟨hhalting, hstate⟩]

/-- A HALTED core is cleared to RESET (R417). -/
theorem coreReset_halted (hstate : s.get .COR_CORE_state n i = 2) :
    exec (.coreReset n i) s = .next (((s.set .COR_CORE_run 0 n i).set .COR_CORE_state 0 n i).hartClear h) := by
  subst hh
  simp [exec_coreReset, execCoreReset, hstate, hartOf]

end Cores

section Timers
variable {s t u : State} {h k v : Nat}

/-- mtimecmp's interrupt is pending just while time has reached it (R408). -/
theorem timerInterrupt_machine (hset : s.get .CORE_cmp_set h 0 ≠ 0) (hu : u = s.advanceTo (s.get .CORE_cmp h 0)) :
    exec (.timerInterrupt h 0 v) s = .next (u.set .CORE_tip (b2n (decide (u.get .CORE_cmp h 0 ≤ u.coreTime h))) h 0) := by
  subst hu
  simp only [exec_timerInterrupt, execTimerInterrupt, ne_eq, not_true, false_and, if_false, if_true, if_neg hset, State.timerTest]

/-- An application core's stimecmp or vstimecmp takes its value and is tested (R408). -/
theorem timerInterrupt_supervisor (hk : k ≠ 0) (hh : h < 48) (ht : t = (s.set .CORE_cmp v h k).set .CORE_cmp_set 1 h k)
    (hu : u = t.advanceTo (t.get .CORE_cmp h k)) :
    exec (.timerInterrupt h k v) s = .next (u.set .CORE_tip (b2n (decide (u.get .CORE_cmp h k ≤ u.coreTime h))) h k) := by
  have happ : ¬ (k ≠ 0 ∧ 48 ≤ h) := by omega
  have hset : ¬ t.get .CORE_cmp_set h k = 0 := by rw [ht, get_set_same]; decide
  subst hu
  simp only [exec_timerInterrupt, execTimerInterrupt, if_neg happ, if_neg hk, ← ht, if_neg hset, State.timerTest]

end Timers

/-- Settles O51, by the commands of each unit. -/
theorem serviceCores : Obligations.ServiceCores := by
  refine ⟨?ipi, ?cons, ?alloc, ?injection, ?core, fun s u h v => timerInterrupt_machine, fun s t u h k v => timerInterrupt_supervisor⟩
  case ipi =>
    intro s h f id
    rw [exec_corIpi]
    exact ⟨fun hlow hhigh hhart hfile hf => by rw [coreMsi_present hlow hhigh hhart hfile hf], fun hnone => by rw [coreMsi_absent hnone]⟩
  case cons =>
    intro s n q v held hheld
    rw [exec_queueConsWrite]
    refine ⟨fun hpast => ?_, fun hin harm => ?_, fun hin harm hnone => ?_, fun hin harm hsome => ?_⟩
    · rw [queueCons_past hheld hpast]
    · rw [queueCons_taken hheld hin, harm]; rfl
    · rw [queueCons_taken hheld hin, harm, hnone]; rfl
    · rw [queueCons_taken hheld hin, harm, decide_eq_true hsome]; rfl
  case alloc =>
    intro s n
    rw [exec_corPktAlloc]
    exact ⟨fun h hpick => by rw [pktAlloc_some hpick], fun hpick => by rw [pktAlloc_none hpick]⟩
  case injection =>
    intro s n i d hen hwaits hd
    refine ⟨fun hok => ⟨fun hact hcredit => ?_, fun hact hcredit => ?_, fun hact => ?_, fun hact hcredit => ?_⟩, fun hbad => ?_⟩
    · rw [exec_inject, injConsume_ok hen hwaits hd hok hact fun _ => hcredit]
    · rw [exec_injSend, injConsume_ok hen hwaits hd hok hact fun _ => hcredit]
    · rw [exec_injFree, injConsume_ok hen hwaits hd hok hact fun hother => absurd rfl hother, injDo_free hact]
    · rw [exec_scanDone, injConsume_ok hen hwaits hd hok hact fun _ => hcredit]
    · rw [exec_inject, injConsume_bad hen hwaits hd hbad]
  case core => exact fun s n i h hh => ⟨coreRun_reset hh, haltReq_running hh, coreHalted_stopping hh, coreReset_halted hh⟩

end Sys2Proof.Machine
end

section
/-! SUPPORT. Laws of the host's requests (R420, R423, R427, R428, R438): what a configuration request, a memory request to a BAR and a read of the
expansion ROM come to; and the statement that rests on them. What a word of a capability holds is `State.cfgWord` (log entry 72). -/

namespace Sys2Proof.Machine

section Requests
variable (s : State) (e f off v be bus rid b o len : Nat) (w : Bool) (data : List Nat)

theorem exec_configRequest : exec (.configRequest e f off w v be bus) s = execConfigRequest e f off w v be bus s := rfl
theorem exec_barRequest : exec (.barRequest e rid f b w o len data) s = execBarRequest e rid f b w o len data s := rfl
theorem exec_expansionRomRead : exec (.expansionRomRead e f off len) s = execExpansionRomRead e f off len s := rfl

end Requests

/-- Requests reach an endpoint while its link is up and the dies are out of reset. -/
theorem link_serves {s : State} {e : Nat} (hup : s.get .PCI_EP_CFG_link_up e ≠ 0) (hrun : s.get .PWR_reset ≠ 1) :
    ¬ (s.get .PCI_EP_CFG_link_up e = 0 ∨ s.get .PWR_reset = 1) := not_or.mpr ⟨hup, hrun⟩

section Configuration
variable {s : State} {e f off v be bus k free : Nat} {w : Bool} (hup : s.get .PCI_EP_CFG_link_up e ≠ 0) (hrun : s.get .PWR_reset ≠ 1)
include hup hrun

/-- Before cfg_ready and during FLR the answer is Request Retry Status (R423, R438). -/
theorem configRequest_retry (hnot : s.get .PCI_EP_CFG_cfg_ready e = 0 ∨ s.get .PCI_FN_STAT_flr_active e f = 1) :
    exec (.configRequest e f off w v be bus) s = .next ((s.answer []).emit .cpl [e, 2]) := by
  simp only [exec_configRequest, execConfigRequest, if_neg (link_serves hup hrun), if_pos hnot]

variable (hcfg : s.get .PCI_EP_CFG_cfg_ready e ≠ 0) (hflr : s.get .PCI_FN_STAT_flr_active e f ≠ 1)
include hcfg hflr

/-- An absent function is answered with Unsupported Request (R420). -/
theorem configRequest_absent (habsent : s.get .PCI_FN_STAT_present e f = 0) :
    exec (.configRequest e f off w v be bus) s = .next ((s.answer []).emit .cpl [e, 1]) := by
  simp only [exec_configRequest, execConfigRequest, if_neg (link_serves hup hrun), if_neg (not_or.mpr ⟨hcfg, hflr⟩), if_pos habsent]

variable (hpresent : s.get .PCI_FN_STAT_present e f ≠ 0) (hword : s.cfgWord e f off = (k, free))
include hpresent hword

/-- A read answers the word; bits that no source states are free. -/
theorem configRequest_read : exec (.configRequest e f off false v be bus) s =
    .next (((s.when (decide (free ≠ 0)) (·.drew)).answer [if free = 0 then k else k + (s.freeVal 32 &&& free)]).emit .cpl [e, 0]
      (leBytes 4 (if free = 0 then k else k + (s.freeVal 32 &&& free)))) := by
  simp only [exec_configRequest, execConfigRequest, if_neg (link_serves hup hrun), if_neg (not_or.mpr ⟨hcfg, hflr⟩), if_neg hpresent, hword,
    Bool.false_eq_true, if_false]

/-- A write captures the bus number and takes the enabled bytes (R423). -/
theorem configRequest_write : exec (.configRequest e f off true v be bus) s =
    .next (((if off < 0x100 then (s.set .FN_bus bus e f).cfgLowWrite e f off (mergeBytes be k v) (mergeBytes be 0 v)
      else (s.set .FN_bus bus e f).cfgHighWrite e f off (mergeBytes be k v) (mergeBytes be 0 v)).answer []).emit .cpl [e, 0]) := by
  simp only [exec_configRequest, execConfigRequest, if_neg (link_serves hup hrun), if_neg (not_or.mpr ⟨hcfg, hflr⟩), if_neg hpresent, hword,
    if_true]

end Configuration

/-- The first word is the vendor and the device ID, all of it stated. -/
theorem cfgWord_ids {s : State} {e f : Nat} : s.cfgWord e f 0 = (0xB7E5 + (s.fnKind e f).devId * 65536, 0) := rfl

section Memory
variable {s u : State} {e rid f b o len : Nat} {w : Bool} {data : List Nat} (hup : s.get .PCI_EP_CFG_link_up e ≠ 0)
  (hrun : s.get .PWR_reset ≠ 1) (hu : u = s.set .PATH_rid rid 0 (pathEp e))
include hup hrun hu

/-- A request to a BAR that is open and decoded takes effect (R428). -/
theorem barRequest_open (hopen : u.barOpen e f = true) (hdecodes : u.barDecodes e f b o len = true) :
    exec (.barRequest e rid f b w o len data) s = .next (if w then u.barWrite e f b o (fixLen len data) else u.barRead e f b o len) := by
  subst hu
  simp only [exec_barRequest, execBarRequest, if_neg (link_serves hup hrun), hopen, hdecodes, Bool.not_true, Bool.false_eq_true, or_self,
    if_false]

theorem barRequest_unsupported (hshut : u.barOpen e f = false ∨ u.barDecodes e f b o len = false) :
    exec (.barRequest e rid f b w o len data) s = .next (u.unsupported e f w) := by
  have hno : (!u.barOpen e f) = true ∨ (!u.barDecodes e f b o len) = true := by simpa only [Bool.not_eq_true'] using hshut
  subst hu
  simp only [exec_barRequest, execBarRequest, if_neg (link_serves hup hrun), if_pos hno]

end Memory

/-- An unsupported request to an absent function is reported by no function; a read completes as unsupported. -/
theorem unsupported_absent {u : State} {e f : Nat} {w : Bool} (habsent : u.get .PCI_FN_STAT_present e f ≠ 1) :
    u.unsupported e f w = if w then u else (u.answer []).emit .cpl [e, 1] := by
  simp only [State.unsupported, decide_eq_false habsent, when_false]

section Rom
variable {s : State} {e f off len : Nat} {d : List Nat}

/-- The expansion ROM answers its image while ROM Enable and Memory Space Enable are 1 (R427). -/
theorem expansionRomRead_enabled (hd : d = (List.range len).map (fun i => (s.lget .romBytes 0 f).getD (off + i) 0))
    (hrom : s.get .FN_rom e f % 2 = 1) (hmem : s.getb .FN_cmd 1 e f = true) (hd0 : s.get .PCI_FN_STAT_dstate e f = 0)
    (hflr : s.get .PCI_FN_STAT_flr_active e f = 0) (hup : s.get .PCI_EP_CFG_link_up e = 1) :
    exec (.expansionRomRead e f off len) s = .next ((s.answer d).emit .cpl [e, 0] d) := by
  subst hd
  rw [exec_expansionRomRead, execExpansionRomRead, if_pos ⟨hrom, hmem, hd0, hflr, hup⟩]

theorem expansionRomRead_disabled (hoff : s.get .FN_rom e f % 2 ≠ 1 ∨ s.getb .FN_cmd 1 e f = false) :
    exec (.expansionRomRead e f off len) s = .next ((s.answer []).emit .cpl [e, 1]) := by
  rw [exec_expansionRomRead, execExpansionRomRead, if_neg]
  rintro ⟨hrom, hmem, -⟩
  exact hoff.elim (fun hnot => hnot hrom) (fun hnot => Bool.false_ne_true (hnot.symm.trans hmem))

end Rom

/-- Settles O52, by the kind of request. -/
theorem hostRequests : Obligations.HostRequests := by
  refine ⟨?config, fun s e f => cfgWord_ids, ?memory, fun s e f off len d hd => ⟨expansionRomRead_enabled hd, expansionRomRead_disabled⟩⟩
  case config =>
    intro s e f off v be bus k free hup hrun
    refine ⟨fun hnot w => configRequest_retry hup hrun hnot, fun hcfg hflr habsent w => configRequest_absent hup hrun hcfg hflr habsent, ?_⟩
    intro hcfg hflr hpresent hword
    rw [configRequest_read hup hrun hcfg hflr hpresent hword, configRequest_write hup hrun hcfg hflr hpresent hword]
    refine ⟨fun hstated => ?_, fun hopen r hr => ?_, fun hlow => ?_, fun hhigh => ?_⟩
    · simp only [hstated, ne_eq, not_true, decide_false, when_false, if_true]
    · simp only [hr, hopen, ne_eq, not_false_eq_true, decide_true, when_true, if_false]
    · rw [if_pos hlow]
    · rw [if_neg (Nat.not_lt.mpr hhigh)]
  case memory =>
    intro s u e rid f b o len data hup hrun hu
    refine ⟨fun hopen hdecodes => ⟨?_, ?_⟩, fun hshut habsent => ⟨?_, ?_⟩⟩
    · rw [barRequest_open hup hrun hu hopen hdecodes, if_pos rfl]
    · rw [barRequest_open hup hrun hu hopen hdecodes, if_neg Bool.false_ne_true]
    · rw [barRequest_unsupported hup hrun hu hshut, unsupported_absent habsent, if_pos rfl]
    · rw [barRequest_unsupported hup hrun hu hshut, unsupported_absent habsent, if_neg Bool.false_ne_true]

end Sys2Proof.Machine
end

section
/-! SUPPORT. Laws of a function's bus mastering, resets and power states, of a link and of the completions of device reads (R432 to R441, R444);
and the statement that rests on them. A completion for a free tag is an Unexpected Completion of PF0, and a read that its function's stop flushed
times out without a report (log entry 129); the numbers of AER's bits are log entry 59. -/

namespace Sys2Proof.Machine

section Requests
variable (s : State) (e f tag st k speed width : Nat) (flit drs poison : Bool) (data : List Nat)

theorem exec_bmeClear : exec (.bmeClear e f) s = execBmeClear e f s := rfl
theorem exec_bmeSet : exec (.bmeSet e f) s = execBmeSet e f s := rfl
theorem exec_flr : exec (.flr e f) s = execFlr e f s := rfl
theorem exec_flrComplete : exec (.flrComplete e f) s = execFlrComplete e f s := rfl
theorem exec_vfEnableClear : exec (.vfEnableClear e f) s = execVfEnableClear e f s := rfl
theorem exec_d3hotEntry : exec (.d3hotEntry e f) s = execD3hotEntry e f s := rfl
theorem exec_d0Return : exec (.d0Return e f) s = execD0Return e f s := rfl
theorem exec_dlDown : exec (.dlDown e) s = execDlDown e s := rfl
theorem exec_perstAssert : exec (.perstAssert e) s = execPerstAssert e s := rfl
theorem exec_perstDeassert : exec (.perstDeassert e) s = execPerstDeassert e s := rfl
theorem exec_dlUp : exec (.dlUp e speed width flit drs) s = execDlUp e speed width flit drs s := rfl
theorem exec_ideCheckFailed : exec (.ideCheckFailed e k) s = execIdeCheckFailed e k s := rfl
theorem exec_completionReceive : exec (.completionReceive e tag st poison data) s = execCompletionReceive e tag st poison data s := rfl
theorem exec_completionTimeout : exec (.completionTimeout e tag) s = execCompletionTimeout e tag s := rfl
theorem exec_tagQuarantineExpiry : exec (.tagQuarantineExpiry e tag) s = execTagQuarantineExpiry e tag s := rfl

end Requests

section Mastering
variable {s : State} {e f : Nat}

/-- Bus Master Enable cleared stops a function (R436). -/
theorem bmeClear_set (hbme : s.get .PCI_FN_STAT_bme e f ≠ 0) :
    exec (.bmeClear e f) s = .next ((s.set .PCI_FN_STAT_bme 0 e f).fnStop e f) := by
  rw [exec_bmeClear, execBmeClear, if_neg hbme]

section Reachable
variable (hpresent : s.get .PCI_FN_STAT_present e f ≠ 0) (hup : s.get .PCI_EP_CFG_link_up e ≠ 0)
  (hflr : s.get .PCI_FN_STAT_flr_active e f ≠ 1)
include hpresent hup hflr

/-- Bus Master Enable set resumes a function (R436). -/
theorem bmeSet_reachable : exec (.bmeSet e f) s = .next ((s.set .PCI_FN_STAT_bme 1 e f).fnResume e f) := by
  rw [exec_bmeSet, execBmeSet, if_neg (not_or.mpr ⟨hpresent, not_or.mpr ⟨hup, hflr⟩⟩)]

/-- FLR acts on a function and, for a PF, its VFs (R438, R439). -/
theorem flr_reachable : exec (.flr e f) s = .next (((s.each (if f < 4 then s.vfsOf e f else [])
    (fun v s => (s.set .PCI_FN_STAT_flr_active 1 e v).fnReset e v)).set .PCI_FN_STAT_flr_active 1 e f).fnReset e f) := by
  rw [exec_flr, execFlr, if_neg (not_or.mpr ⟨hpresent, not_or.mpr ⟨hup, hflr⟩⟩)]

end Reachable

theorem flrComplete_active (hflr : s.get .PCI_FN_STAT_flr_active e f ≠ 0) :
    exec (.flrComplete e f) s = .next (((if f < 4 then s.vfsGone e f else s).fnResetEnd e f).frs e f) := by
  rw [exec_flrComplete, execFlrComplete, if_neg hflr]

/-- D3hot stops a PF and its VFs (R440). -/
theorem d3hotEntry_present (hpresent : s.get .PCI_FN_STAT_present e f ≠ 0) (hstate : s.get .PCI_FN_STAT_dstate e f ≠ 3) :
    exec (.d3hotEntry e f) s =
      .next ((s.set .PCI_FN_STAT_dstate 3 e f).each (f :: s.vfsOf e f) (fun g s => s.fnStop e g)) := by
  rw [exec_d3hotEntry, execD3hotEntry, if_neg (not_or.mpr ⟨hpresent, hstate⟩)]

/-- D0 resumes those that may run (R440). -/
theorem d0Return_d3hot (hstate : s.get .PCI_FN_STAT_dstate e f = 3) : exec (.d0Return e f) s =
    .next (((s.set .PCI_FN_STAT_dstate 0 e f).each (f :: s.vfsOf e f) (fun g s => if s.fnRuns e g then s.fnResume e g else s)).frs e f) := by
  rw [exec_d0Return, execD0Return, if_neg (not_not_intro hstate)]

end Mastering

section Links
variable {s u : State} {e k speed width : Nat} {flit drs : Bool}

theorem dlDown_up (hup : s.get .PCI_EP_CFG_link_up e ≠ 0) : exec (.dlDown e) s = .next (s.linkDown e) := by
  rw [exec_dlDown, execDlDown, if_neg hup]

theorem perstAssert_new (hperst : s.get .PCI_perst e ≠ 1) : exec (.perstAssert e) s = .next ((s.linkDown e).set .PCI_perst 1 e) := by
  rw [exec_perstAssert, execPerstAssert, if_neg hperst]

/-- A link comes up where neither reset is asserted and its clock is present (R441). -/
theorem dlUp_clocked (hdown : s.get .PCI_EP_CFG_link_up e ≠ 1) (hperst : s.get .PCI_perst e ≠ 1) (hrun : s.get .PWR_reset ≠ 1)
    (hclock : s.getb .XD_CLK_DIE_PRESENT_present (7 + e) 0 (2 + e) = true)
    (hu : u = ((((((s.set .PCI_EP_CFG_link_up 1 e).set .PCI_EP_CFG_speed speed e).set .PCI_EP_CFG_width width e).set .PCI_EP_CFG_flit (b2n flit) e).set
      .PCI_drs (b2n drs) e).set .PTM_count 0 e).readiness e) :
    exec (.dlUp e speed width flit drs) s =
      .next (if u.get .PME_st e = 1 ∧ u.get .PME_en e = 1 then u.emit .pcieMsg [e, 0, 6, 0, 0] else u) := by
  have htrains : ¬ (s.get .PCI_EP_CFG_link_up e = 1 ∨ s.get .PCI_perst e = 1 ∨ s.get .PWR_reset = 1 ∨
      s.getb .XD_CLK_DIE_PRESENT_present (7 + e) 0 (2 + e) = false) := by
    simp only [hdown, hperst, hrun, hclock, Bool.true_eq_false, or_self, not_false_eq_true]
  subst hu
  rw [exec_dlUp, execDlUp, if_neg htrains]

/-- A stream that fails IDE goes Insecure (R444). -/
theorem ideCheckFailed_secure (hstate : s.get .IDE_state e k = 2) : exec (.ideCheckFailed e k) s =
    .next (((((s.set .IDE_state 0 e k).set .IDE_bad 1 e k).set .IDE_go 0 e k).set .IDE_prog 0 e k).aerU e 0 28) := by
  rw [exec_ideCheckFailed, execIdeCheckFailed, if_neg (not_not_intro hstate)]

end Links

section Completions
variable {s : State} {e tag st : Nat} {poison : Bool} {d got : List Nat} (hup : s.get .PCI_EP_CFG_link_up e ≠ 0)
include hup

section Awaited
variable (hstate : s.get .TAG_state e tag = 1) (hflush : s.get .TAG_flush e tag ≠ 1) (hide : s.ideBad e (s.get .TAG_fn e tag) = false)
  (hgot : got = (s.lget .tagData e tag ++ d).take (s.get .TAG_len e tag))
include hstate hflush hide hgot

/-- The completion with a read's last bytes ends it (R433). -/
theorem completionReceive_last (hlast : s.get .TAG_len e tag ≤ got.length) : exec (.completionReceive e tag 0 false d) s =
    .next ((s.tagFree e tag).readEnd e (s.get .TAG_kind e tag) (s.get .TAG_a e tag) (s.get .TAG_b e tag) (some got)) := by
  subst hgot
  simp only [exec_completionReceive, execCompletionReceive, if_neg hup, hstate, if_neg hflush, hide, ne_eq, not_true, decide_false,
    Bool.or_self, Bool.false_or, Bool.false_eq_true, if_false, decide_eq_true hlast, if_true]

theorem completionReceive_part (hmore : got.length < s.get .TAG_len e tag) :
    exec (.completionReceive e tag 0 false d) s = .next (s.lset .tagData got e tag) := by
  subst hgot
  simp only [exec_completionReceive, execCompletionReceive, if_neg hup, hstate, if_neg hflush, hide, ne_eq, not_true, decide_false,
    Bool.or_self, Bool.false_eq_true, if_false, decide_eq_false (Nat.not_le.mpr hmore)]

end Awaited

/-- A completion in the tag's quarantine is late (R434). -/
theorem completionReceive_late (hstate : s.get .TAG_state e tag = 2) : exec (.completionReceive e tag st poison d) s =
    .next (((s.bump .PCI_CPL_STAT0_late_cpls e).aerU e (s.get .TAG_fn e tag) 16 true).readErr e (s.get .TAG_fn e tag)) := by
  simp only [exec_completionReceive, execCompletionReceive, if_neg hup, hstate]

theorem completionReceive_unexpected (hstate : s.get .TAG_state e tag = 0) :
    exec (.completionReceive e tag st poison d) s = .next (s.aerU e 0 16 true) := by
  simp only [exec_completionReceive, execCompletionReceive, if_neg hup, hstate]

end Completions

section Timeouts
variable {s u v : State} {e tag f : Nat}

/-- A read without its completion times out and its tag waits out its quarantine (R432, R434, R435). -/
theorem completionTimeout_awaited (hstate : s.get .TAG_state e tag = 1) (hf : f = s.get .TAG_fn e tag)
    (hu : u = (s.advanceTo (s.get .TAG_at e tag + timeoutOf (s.get .FN_cpl_timeout e f))).bump .PCI_CPL_STAT0_timeouts e)
    (hv : v = (((u.set .TAG_state 2 e tag).set .TAG_free_at (u.now + u.quarantine e) e tag).quarantineCount e).lset .tagData [] e tag) :
    exec (.completionTimeout e tag) s = .next (if v.get .TAG_flush e tag = 1 then v else
      ((v.aerU e f 14).readErr e f).readEnd e (u.get .TAG_kind e tag) (u.get .TAG_a e tag) (u.get .TAG_b e tag) none) := by
  simp only [exec_completionTimeout, execCompletionTimeout, if_neg (not_not_intro hstate), ← hf, ← hu, ← hv]

theorem tagQuarantineExpiry_quarantined (hstate : s.get .TAG_state e tag = 2) : exec (.tagQuarantineExpiry e tag) s =
    .next (((s.advanceTo (s.get .TAG_free_at e tag)).tagFree e tag).quarantineCount e) := by
  rw [exec_tagQuarantineExpiry, execTagQuarantineExpiry, if_neg (not_not_intro hstate)]

end Timeouts

/-- Settles O53, by what a function, a link, a stream and a tag can meet. -/
theorem functions : Obligations.Functions := by
  refine ⟨?mastering, ?links, fun s e k => ideCheckFailed_secure, ?completions, fun s u v e tag f => completionTimeout_awaited,
    fun s e tag => tagQuarantineExpiry_quarantined⟩
  case mastering =>
    exact fun s e f => ⟨bmeClear_set, fun hpresent hup hflr => ⟨bmeSet_reachable hpresent hup hflr, flr_reachable hpresent hup hflr⟩,
      flrComplete_active, exec_vfEnableClear s e f, d3hotEntry_present, d0Return_d3hot⟩
  case links => exact fun s u e speed width flit drs => ⟨dlDown_up, perstAssert_new, exec_perstDeassert s e, dlUp_clocked⟩
  case completions =>
    exact fun s e tag st poison d got hup =>
      ⟨fun hstate hflush hide hgot =>
        ⟨completionReceive_last hup hstate hflush hide hgot, completionReceive_part hup hstate hflush hide hgot⟩,
      completionReceive_late hup, completionReceive_unexpected hup⟩

end Sys2Proof.Machine
end

section
/-! SUPPORT. Laws of the SPDM responder and of IDE key management (R443, R444, R521, R523): a request of the mailbox is answered by its meaning, or
with UnexpectedRequest out of its order; what each request completes with; and the statement that rests on them. The layouts of the messages and the
error codes are log entry 68; whether a MAC verifies is log entry 4. -/

namespace Sys2Proof.Machine

section Requests
variable (s : State) (e ss p1 p2 k sub dir ix : Nat) (go : Bool) (d key : List Nat)

theorem exec_getVersion : exec (.getVersion e) s = execGetVersion e s := rfl
theorem exec_getCapabilities : exec (.getCapabilities e p1 p2 d) s = execGetCapabilities e p1 p2 d s := rfl
theorem exec_negotiateAlgorithms : exec (.negotiateAlgorithms e p1 p2 d) s = execNegotiateAlgorithms e p1 p2 d s := rfl
theorem exec_getDigests : exec (.getDigests e ss) s = execGetDigests e ss s := rfl
theorem exec_getCertificate : exec (.getCertificate e ss p1 p2 d) s = execGetCertificate e ss p1 p2 d s := rfl
theorem exec_challenge : exec (.challenge e p1 p2 d) s = execChallenge e p1 p2 d s := rfl
theorem exec_getMeasurements : exec (.getMeasurements e ss p1 p2 d) s = execGetMeasurements e ss p1 p2 d s := rfl
theorem exec_keyExchange : exec (.keyExchange e p1 p2 d) s = execKeyExchange e p1 p2 d s := rfl
theorem exec_spdmFinish : exec (.spdmFinish e ss p1 p2 d) s = execSpdmFinish e ss p1 p2 d s := rfl
theorem exec_heartbeat : exec (.heartbeat e ss) s = execHeartbeat e ss s := rfl
theorem exec_keyUpdate : exec (.keyUpdate e ss p1 p2) s = execKeyUpdate e ss p1 p2 s := rfl
theorem exec_endSession : exec (.endSession e ss) s = execEndSession e ss s := rfl
theorem exec_ideKmKeyProgram : exec (.ideKmKeyProgram e ss k sub dir go key) s = execIdeKmKeyProgram e ss k sub dir go key s := rfl
theorem exec_doeDiscovery : exec (.doeDiscovery e ix) s = execDoeDiscovery e ix s := rfl

end Requests

section Responder
variable {s : State} {e ss st : Nat} {ok : Bool} {f : State → State}

theorem spdmUp_iff : s.spdmUp e = true ↔
    s.get .PCI_EP_CFG_link_up e = 1 ∧ s.get .PCI_EP_CFG_cfg_ready e = 1 ∧ s.get .BOOT_STATUS_stage ≠ 0 := decide_eq_true_iff

theorem spdmIn_clear : s.spdmIn e 0 st = true ↔ s.get .SPDM_st e = 3 := by
  rw [State.spdmIn, if_pos rfl, decide_eq_true_iff]

theorem spdmIn_session (hss : ss ≠ 0) : s.spdmIn e ss st = true ↔ s.get .SPDM_sess e (ss - 1) = st := by
  rw [State.spdmIn, if_neg hss, decide_eq_true_iff]

/-- With the mailbox up a request in its order is answered by its meaning. -/
theorem spdmRun_inOrder (hup : s.spdmUp e = true) (hok : ok = true) : s.spdmRun e ss ok f = f s := by
  rw [State.spdmRun, hup, Bool.not_true, if_neg Bool.false_ne_true, if_pos hok]

/-- One out of its order is answered with UnexpectedRequest. -/
theorem spdmRun_outOfOrder (hup : s.spdmUp e = true) (hok : ok = false) : s.spdmRun e ss ok f = s.spdmSend e ss [0x13, 0x7F, 4, 0] := by
  rw [State.spdmRun, hup, hok, Bool.not_true, if_neg Bool.false_ne_true, if_neg Bool.false_ne_true, State.spdmErr]

/-- A request of a session is in its order while its session is in the state that it needs. -/
theorem sessionOrder_true (hss : ss ≠ 0) (hin : s.spdmIn e ss st = true) : (decide (ss ≠ 0) && s.spdmIn e ss st) = true := by
  rw [decide_eq_true hss, hin, Bool.and_self]

theorem sessionOrder_false (hout : ss = 0 ∨ s.spdmIn e ss st = false) : (decide (ss ≠ 0) && s.spdmIn e ss st) = false := by
  rcases hout with rfl | hout
  · rfl
  · rw [hout, Bool.and_false]

/-- A response changes no sequence of the state: it moves a session's sequence number and leaves the device. -/
theorem lget_spdmSend {b : List Nat} {n : LName} {sc i : Nat} : (s.spdmSend e ss b).lget n sc i = s.lget n sc i := by
  rw [State.spdmSend]
  split
  · rw [lget_emit]
  · rw [lget_emit, State.addw, lget_set]

end Responder

section Connection
variable {s u : State} {e p1 p2 : Nat} {d r : List Nat} (hup : s.spdmUp e = true)
include hup

theorem getVersion_up (hr : r = [0x10, 0x04, 0, 0, 0, 1, 0, 0x13])
    (hu : u = s.each [0, 1] (fun k s => (s.set .SPDM_sess 0 e k).lset .spdmKey [] e k)) : exec (.getVersion e) s =
    .next ((((((u.set .SPDM_st 1 e).lset .spdmVca ([0x10, 0x84, 0, 0] ++ r) e).lset .spdmM1 [] e).lset .spdmL1 [] e 0).spdmSend e 0 r)) := by
  rw [exec_getVersion, execGetVersion, spdmRun_inOrder hup rfl, hu, hr]
  rfl

theorem getCapabilities_inOrder (hst : s.get .SPDM_st e = 1)
    (hr : r = [0x13, 0x61, 0, 0, 0, s.freeVal 8, 0, 0] ++ [0xD6, 0x62, 0, 0] ++ [0, 0x80, 0, 0] ++ [0, 0x80, 0, 0]) :
    exec (.getCapabilities e p1 p2 d) s = .next (((s.drew.set .SPDM_st 2 e).lset .spdmVca
      (s.lget .spdmVca e ++ [0x13, 0xE1, p1, p2] ++ d ++ r) e).spdmSend e 0 r) := by
  rw [exec_getCapabilities, execGetCapabilities, spdmRun_inOrder hup (decide_eq_true hst), hr]
  rfl

theorem negotiateAlgorithms_inOrder (hst : s.get .SPDM_st e = 2)
    (hr : r = [0x13, 0x63, 4, 0, 52, 0, 1, 2, 4, 0, 0, 0, 0x80, 0, 0, 0, 2, 0, 0, 0] ++ List.replicate 16 0 ++
      [2, 0x20, 0x10, 0, 3, 0x20, 2, 0, 4, 0x20, 0, 0, 5, 0x20, 1, 0]) :
    exec (.negotiateAlgorithms e p1 p2 d) s = .next (((s.set .SPDM_st 3 e).lset .spdmVca
      (s.lget .spdmVca e ++ [0x13, 0xE3, p1, p2] ++ d ++ r) e).spdmSend e 0 r) := by
  rw [exec_negotiateAlgorithms, execNegotiateAlgorithms, spdmRun_inOrder hup (decide_eq_true hst), hr]
  rfl

theorem getCapabilities_outOfOrder (hst : s.get .SPDM_st e ≠ 1) :
    exec (.getCapabilities e p1 p2 d) s = .next (s.spdmSend e 0 [0x13, 0x7F, 4, 0]) := by
  rw [exec_getCapabilities, execGetCapabilities, spdmRun_outOfOrder hup (decide_eq_false hst)]

theorem negotiateAlgorithms_outOfOrder (hst : s.get .SPDM_st e ≠ 2) :
    exec (.negotiateAlgorithms e p1 p2 d) s = .next (s.spdmSend e 0 [0x13, 0x7F, 4, 0]) := by
  rw [exec_negotiateAlgorithms, execNegotiateAlgorithms, spdmRun_outOfOrder hup (decide_eq_false hst)]

end Connection

section Attestation
variable {s u : State} {e ss p1 p2 n : Nat} {d c nonce r t : List Nat} (hup : s.spdmUp e = true)
include hup

section Agreed
variable (hin : s.spdmIn e ss 2 = true) (hc : c = s.certChain)
include hin hc

theorem getDigests_inOrder (hr : r = [0x13, 0x01, 1, 1] ++ sha384 c) : exec (.getDigests e ss) s =
    .next ((s.lset .spdmM1 (s.lget .spdmM1 e ++ [0x13, 0x81, 0, 0] ++ r) e).spdmSend e ss r) := by
  rw [exec_getDigests, execGetDigests, spdmRun_inOrder hup hin, hr, hc]

/-- A portion of slot 0's chain that begins inside it. -/
theorem getCertificate_inOrder (hslot : p1 % 16 = 0) (hoff : leAt d 0 2 < c.length) (hn : n = min (leAt d 2 2) (c.length - leAt d 0 2))
    (hr : r = [0x13, 0x02, 0, 0] ++ leBytes 2 n ++ leBytes 2 (c.length - leAt d 0 2 - n) ++ slice c (leAt d 0 2) n) :
    exec (.getCertificate e ss p1 p2 d) s = .next ((s.lset .spdmM1 (s.lget .spdmM1 e ++ [0x13, 0x82, p1, p2] ++ d ++ r) e).spdmSend e ss r) := by
  have hvalid : ¬ (p1 % 16 ≠ 0 ∨ c.length ≤ leAt d 0 2) := not_or.mpr ⟨not_not_intro hslot, Nat.not_le.mpr hoff⟩
  rw [exec_getCertificate, execGetCertificate, spdmRun_inOrder hup hin]
  simp only [← hc, ← hn, ← hr, if_neg hvalid]

end Agreed

/-- A challenge is answered over the whole transcript, with a drawn nonce (R521). -/
theorem challenge_inOrder (hin : s.spdmIn e 0 2 = true) (hslot : p1 = 0) (hlen : 40 ≤ d.length) (hfree : s.freeBytes 32 = (u, nonce))
    (hr : r = [0x13, 0x03, 0, 1] ++ sha384 u.certChain ++ nonce ++ u.measSummary p2 ++ [0, 0] ++ slice d 32 8)
    (ht : t = u.lget .spdmVca e ++ u.lget .spdmM1 e ++ [0x13, 0x83, p1, p2] ++ d ++ r) :
    exec (.challenge e p1 p2 d) s = .next ((u.lset .spdmM1 [] e).spdmSend e 0 (r ++ u.spdmSign t)) := by
  have hvalid : ¬ (p1 ≠ 0 ∨ d.length < 40) := not_or.mpr ⟨not_not_intro hslot, Nat.not_lt.mpr hlen⟩
  rw [exec_challenge, execChallenge, spdmRun_inOrder hup hin]
  simp only [if_neg hvalid, hfree, ← hr, ← ht]

theorem challenge_outOfOrder (hout : s.spdmIn e 0 2 = false) : exec (.challenge e p1 p2 d) s = .next (s.spdmSend e 0 [0x13, 0x7F, 4, 0]) := by
  rw [exec_challenge, execChallenge, spdmRun_outOfOrder hup hout]

theorem getDigests_outOfOrder (hout : s.spdmIn e ss 2 = false) : exec (.getDigests e ss) s = .next (s.spdmSend e ss [0x13, 0x7F, 4, 0]) := by
  rw [exec_getDigests, execGetDigests, spdmRun_outOfOrder hup hout]

theorem getCertificate_outOfOrder (hout : s.spdmIn e ss 2 = false) :
    exec (.getCertificate e ss p1 p2 d) s = .next (s.spdmSend e ss [0x13, 0x7F, 4, 0]) := by
  rw [exec_getCertificate, execGetCertificate, spdmRun_outOfOrder hup hout]

theorem getMeasurements_outOfOrder (hout : s.spdmIn e ss 2 = false) :
    exec (.getMeasurements e ss p1 p2 d) s = .next (s.spdmSend e ss [0x13, 0x7F, 4, 0]) := by
  rw [exec_getMeasurements, execGetMeasurements, spdmRun_outOfOrder hup hout]

end Attestation

/-- The measurement blocks that a request asks for: none, one of the six, or all of them (R523). -/
theorem measBlocks_asked {p2 : Nat} {l : List Nat} (hl : p2 = 0 ∧ l = [] ∨ 1 ≤ p2 ∧ p2 ≤ 6 ∧ l = [p2] ∨ p2 = 0xFF ∧ l = [1, 2, 3, 4, 5, 6]) :
    ¬ (6 < p2 ∧ p2 ≠ 0xFF) ∧ (if p2 = 0 then [] else if p2 = 0xFF then [1, 2, 3, 4, 5, 6] else [p2]) = l := by
  rcases hl with ⟨rfl, rfl⟩ | ⟨hlow, hhigh, rfl⟩ | ⟨rfl, rfl⟩
  · exact ⟨fun h => absurd h.1 (by decide), rfl⟩
  · exact ⟨fun h => absurd h.1 (Nat.not_lt.mpr hhigh), by rw [if_neg (by omega), if_neg (by omega)]⟩
  · exact ⟨fun h => h.2 rfl, rfl⟩

section Measurements
variable {s u : State} {e ss p1 p2 : Nat} {l d nonce rec_ r t : List Nat} (hup : s.spdmUp e = true) (hin : s.spdmIn e ss 2 = true)
  (hl : p2 = 0 ∧ l = [] ∨ 1 ≤ p2 ∧ p2 ≤ 6 ∧ l = [p2] ∨ p2 = 0xFF ∧ l = [1, 2, 3, 4, 5, 6])
  (hrec : rec_ = l.flatMap (fun i => s.measRecord i)) (hfree : s.freeBytes 32 = (u, nonce))
  (hr : r = [0x13, 0x60, (if p2 = 0 then 6 else 0), 0, l.length] ++ leBytes 3 rec_.length ++ rec_ ++ nonce ++ [0, 0] ++
    slice d (if p1 % 2 = 1 then 33 else 0) 8)
  (ht : t = u.lget .spdmL1 e ss ++ [0x13, 0xE0, p1, p2] ++ d ++ r)
include hup hin hl hrec hfree hr ht

theorem getMeasurements_unsigned (hsign : p1 % 2 ≠ 1) : exec (.getMeasurements e ss p1 p2 d) s = .next ((u.lset .spdmL1 t e ss).spdmSend e ss r) := by
  obtain ⟨hblock, hasked⟩ := measBlocks_asked hl
  have hvalid : ¬ ((6 < p2 ∧ p2 ≠ 0xFF) ∨ (p1 % 2 = 1 ∧ (d.length < 41 ∨ d.getD 32 0 % 16 ≠ 0))) := not_or.mpr ⟨hblock, fun h => hsign h.1⟩
  subst ht hr hrec
  rw [exec_getMeasurements, execGetMeasurements, spdmRun_inOrder hup hin]
  simp only [if_neg hvalid, hasked, hfree, if_neg hsign]

/-- A signed answer names slot 0 and carries the requester's nonce; the transcript begins anew (R521). -/
theorem getMeasurements_signed (hsign : p1 % 2 = 1) (hlen : 41 ≤ d.length) (hslot : d.getD 32 0 % 16 = 0) :
    exec (.getMeasurements e ss p1 p2 d) s = .next ((u.lset .spdmL1 [] e ss).spdmSend e ss (r ++ u.spdmSign (u.lget .spdmVca e ++ t))) := by
  obtain ⟨hblock, hasked⟩ := measBlocks_asked hl
  have hvalid : ¬ ((6 < p2 ∧ p2 ≠ 0xFF) ∨ (p1 % 2 = 1 ∧ (d.length < 41 ∨ d.getD 32 0 % 16 ≠ 0))) :=
    not_or.mpr ⟨hblock, fun h => h.2.elim (Nat.not_lt.mpr hlen) (fun hother => hother hslot)⟩
  subst ht hr hrec
  rw [exec_getMeasurements, execGetMeasurements, spdmRun_inOrder hup hin]
  simp only [if_neg hvalid, hasked, hfree, if_pos hsign]

end Measurements

section KeyExchange
variable {s u : State} {e p1 p2 sid k : Nat} {d eph r t key mac : List Nat} (hup : s.spdmUp e = true)
include hup

theorem keyExchange_outOfOrder (hout : s.spdmIn e 0 2 = false) : exec (.keyExchange e p1 p2 d) s = .next (s.spdmSend e 0 [0x13, 0x7F, 4, 0]) := by
  rw [exec_keyExchange, execKeyExchange, spdmRun_outOfOrder hup hout]

variable (hin : s.spdmIn e 0 2 = true) (hslot : p2 = 0) (hlen : 132 ≤ d.length)
include hin hslot hlen

/-- A key exchange takes the first free session (Table HOST-9). -/
theorem keyExchange_free (hk : [0, 1].find? (fun k => decide (s.get .SPDM_sess e k = 0)) = some k) (hsid : sid = s.freeVal 16)
    (hfree : s.drew.freeBytes 128 = (u, eph))
    (hr : r = [0x13, 0x64, 0, 0] ++ leBytes 2 sid ++ [0, 0] ++ eph ++ u.measSummary p1 ++ [0, 0])
    (ht : t = u.lget .spdmVca e ++ sha384 u.certChain ++ [0x13, 0xE4, p1, p2] ++ d ++ r)
    (hkey : key = Config.crypto algSpdmKey [slice d 36 96, eph, t ++ u.spdmSign t])
    (hmac : mac = fixLen 48 (Config.crypto algHmac [key, t ++ u.spdmSign t])) :
    exec (.keyExchange e p1 p2 d) s = .next ((((((u.set .SPDM_sess 1 e k).set .SPDM_sid (leAt d 0 2 + sid * 65536) e k).set .SPDM_seq 0 e k).lset
      .spdmTh (t ++ u.spdmSign t ++ mac) e k).lset .spdmKey key e k).spdmSend e 0 (r ++ u.spdmSign t ++ mac)) := by
  have hvalid : ¬ (p2 ≠ 0 ∨ d.length < 132) := not_or.mpr ⟨not_not_intro hslot, Nat.not_lt.mpr hlen⟩
  rw [exec_keyExchange, execKeyExchange, spdmRun_inOrder hup hin]
  simp only [if_neg hvalid, hk, ← hsid, hfree, ← hr, ← ht, ← hkey, ← hmac]

theorem keyExchange_full (hfirst : s.get .SPDM_sess e 0 ≠ 0) (hsecond : s.get .SPDM_sess e 1 ≠ 0) :
    exec (.keyExchange e p1 p2 d) s = .next (s.spdmErr e 0 0x0A) := by
  have hvalid : ¬ (p2 ≠ 0 ∨ d.length < 132) := not_or.mpr ⟨not_not_intro hslot, Nat.not_lt.mpr hlen⟩
  have htaken : [0, 1].find? (fun k => decide (s.get .SPDM_sess e k = 0)) = none := by
    simp only [List.find?_cons, decide_eq_false hfirst, decide_eq_false hsecond, List.find?_nil]
  rw [exec_keyExchange, execKeyExchange, spdmRun_inOrder hup hin]
  simp only [if_neg hvalid, htaken]

end KeyExchange

section Sessions
variable {s : State} {e ss p1 p2 : Nat} {d : List Nat} (hup : s.spdmUp e = true)
include hup

section Handshake
variable (hss : ss ≠ 0) (hin : s.spdmIn e ss 1 = true)
include hss hin

/-- FINISH establishes the session when its MAC verifies, and else ends it. -/
theorem spdmFinish_verified (hp : p1 = 0)
    (hmac : Config.verifies algHmac [s.lget .spdmKey e (ss - 1), s.lget .spdmTh e (ss - 1) ++ [0x13, 0xE5, p1, p2], d.take 48] = true) :
    exec (.spdmFinish e ss p1 p2 d) s = .next (((((s.spdmSend e ss [0x13, 0x65, 0, 0]).set .SPDM_sess 2 e (ss - 1)).lset .spdmKey
      (Config.crypto algSpdmKey [s.lget .spdmKey e (ss - 1), s.lget .spdmTh e (ss - 1) ++ [0x13, 0xE5, p1, p2] ++ d ++ [0x13, 0x65, 0, 0]])
        e (ss - 1)).set .SPDM_seq 0 e (ss - 1)).lset .spdmTh [] e (ss - 1)) := by
  rw [exec_spdmFinish, execSpdmFinish, spdmRun_inOrder hup (sessionOrder_true hss hin)]
  simp only [if_pos (And.intro hp hmac)]

theorem spdmFinish_refused
    (hmac : Config.verifies algHmac [s.lget .spdmKey e (ss - 1), s.lget .spdmTh e (ss - 1) ++ [0x13, 0xE5, p1, p2], d.take 48] = false) :
    exec (.spdmFinish e ss p1 p2 d) s = .next (((s.spdmErr e ss 6).set .SPDM_sess 0 e (ss - 1)).lset .spdmKey [] e (ss - 1)) := by
  rw [exec_spdmFinish, execSpdmFinish, spdmRun_inOrder hup (sessionOrder_true hss hin)]
  simp only [hmac, Bool.false_eq_true, and_false, if_false]

end Handshake

theorem spdmFinish_outOfOrder (hout : ss = 0 ∨ s.spdmIn e ss 1 = false) :
    exec (.spdmFinish e ss p1 p2 d) s = .next (s.spdmSend e ss [0x13, 0x7F, 4, 0]) := by
  rw [exec_spdmFinish, execSpdmFinish, spdmRun_outOfOrder hup (sessionOrder_false hout)]

section Established
variable (hss : ss ≠ 0) (hin : s.spdmIn e ss 2 = true)
include hss hin

theorem heartbeat_established : exec (.heartbeat e ss) s = .next (s.spdmSend e ss [0x13, 0x68, 0, 0]) := by
  rw [exec_heartbeat, execHeartbeat, spdmRun_inOrder hup (sessionOrder_true hss hin)]

theorem keyUpdate_verify : exec (.keyUpdate e ss 3 p2) s = .next (s.spdmSend e ss [0x13, 0x69, 3, p2]) := by
  rw [exec_keyUpdate, execKeyUpdate, spdmRun_inOrder hup (sessionOrder_true hss hin)]
  rfl

/-- The answer leaves under the old key; the next key is made from it. -/
theorem keyUpdate_update (hop : p1 = 1 ∨ p1 = 2) : exec (.keyUpdate e ss p1 p2) s = .next ((((s.spdmSend e ss [0x13, 0x69, p1, p2]).lset .spdmKey
    (Config.crypto algSpdmKey [s.lget .spdmKey e (ss - 1), [p1]]) e (ss - 1)).set .SPDM_seq 0 e (ss - 1))) := by
  have hvalid : ¬ (p1 = 0 ∨ 3 < p1) := by omega
  have hupdates : p1 ≠ 3 := by omega
  rw [exec_keyUpdate, execKeyUpdate, spdmRun_inOrder hup (sessionOrder_true hss hin)]
  simp only [if_neg hvalid, if_neg hupdates, lget_spdmSend]

theorem endSession_established : exec (.endSession e ss) s =
    .next (((s.spdmSend e ss [0x13, 0x6C, 0, 0]).set .SPDM_sess 0 e (ss - 1)).lset .spdmKey [] e (ss - 1)) := by
  rw [exec_endSession, execEndSession, spdmRun_inOrder hup (sessionOrder_true hss hin)]

end Established

section NotEstablished
variable (hout : ss = 0 ∨ s.spdmIn e ss 2 = false)
include hout

theorem heartbeat_outOfOrder : exec (.heartbeat e ss) s = .next (s.spdmSend e ss [0x13, 0x7F, 4, 0]) := by
  rw [exec_heartbeat, execHeartbeat, spdmRun_outOfOrder hup (sessionOrder_false hout)]

theorem keyUpdate_outOfOrder : exec (.keyUpdate e ss p1 p2) s = .next (s.spdmSend e ss [0x13, 0x7F, 4, 0]) := by
  rw [exec_keyUpdate, execKeyUpdate, spdmRun_outOfOrder hup (sessionOrder_false hout)]

theorem endSession_outOfOrder : exec (.endSession e ss) s = .next (s.spdmSend e ss [0x13, 0x7F, 4, 0]) := by
  rw [exec_endSession, execEndSession, spdmRun_outOfOrder hup (sessionOrder_false hout)]

theorem ideKmKeyProgram_outOfOrder {k sub dir : Nat} {go : Bool} :
    exec (.ideKmKeyProgram e ss k sub dir go d) s = .next (s.spdmSend e ss [0x13, 0x7F, 4, 0]) := by
  rw [exec_ideKmKeyProgram, execIdeKmKeyProgram, spdmRun_outOfOrder hup (sessionOrder_false hout)]

end NotEstablished

end Sessions

section IdeKeys
variable {s u : State} {e ss k sub dir b : Nat} {key : List Nat} (hup : s.spdmUp e = true) (hss : ss ≠ 0) (hin : s.spdmIn e ss 2 = true)
  (hb : b = sub * 2 + dir)
include hup hss hin hb

theorem ideKmKeyProgram_program : exec (.ideKmKeyProgram e ss k sub dir false key) s =
    .next (((s.lset .ideKey (key.take 40) e (k * 6 + b)).setb .IDE_prog b true e k).spdmSend e ss
      [0x13, 0x7E, 0, 0, 3, 0, 2, 1, 0, 8, 0, 0, 3, 0, 0, k, 0, sub * 16 + dir * 2, 0]) := by
  rw [exec_ideKmKeyProgram, execIdeKmKeyProgram, spdmRun_inOrder hup (sessionOrder_true hss hin)]
  simp only [← hb, Bool.false_eq_true, if_false]

/-- With the last of its six keys in use a stream is Secure again (R444). -/
theorem ideKmKeyProgram_go (hu : u = (if s.getb .IDE_prog b e k = true then s.setb .IDE_go b true e k else s)) :
    exec (.ideKmKeyProgram e ss k sub dir true key) s =
      .next ((if u.get .IDE_go e k = 63 then (u.set .IDE_state 2 e k).set .IDE_bad 0 e k else u).spdmSend e ss
        [0x13, 0x7E, 0, 0, 3, 0, 2, 1, 0, 8, 0, 0, 6, 0, 0, k, 0, sub * 16 + dir * 2, 0]) := by
  have hwhen : s.when (s.getb .IDE_prog b e k) (·.setb .IDE_go b true e k) = u := hu.symm
  rw [exec_ideKmKeyProgram, execIdeKmKeyProgram, spdmRun_inOrder hup (sessionOrder_true hss hin)]
  simp only [← hb, hwhen, if_true]

end IdeKeys

/-- The mailbox lists its protocols by index (R443). -/
theorem doeDiscovery_up {s : State} {e ix : Nat} (hup : s.get .PCI_EP_CFG_link_up e = 1) (hcfg : s.get .PCI_EP_CFG_cfg_ready e = 1) :
    exec (.doeDiscovery e ix) s =
      .next (s.emit .msg [2, e, 0] (doeObject 0 (if ix < 3 then leBytes 2 1 ++ [ix, if ix < 2 then ix + 1 else 0] else [0xFF, 0xFF, 0, 0]))) := by
  rw [exec_doeDiscovery, execDoeDiscovery, if_pos ⟨hup, hcfg⟩]

/-- Settles O54, request by request: in its order by its meaning, out of it by `spdmRun_outOfOrder`. -/
theorem spdmResponder : Obligations.SpdmResponder := by
  refine ⟨fun s e ss st => ⟨spdmUp_iff, spdmIn_clear, spdmIn_session⟩, fun s u e r => getVersion_up, ?agree, ?chain, ?challenge, ?measure, ?exchange,
    ?session, ?ide, ?order, fun s e ix => doeDiscovery_up⟩
  case agree => exact fun s e p1 p2 d r hup => ⟨getCapabilities_inOrder hup, negotiateAlgorithms_inOrder hup⟩
  case chain => exact fun s e ss p1 p2 n d c r hup hin hc => ⟨getDigests_inOrder hup hin hc, getCertificate_inOrder hup hin hc⟩
  case challenge => exact fun s u e p1 p2 d nonce r t => challenge_inOrder
  case measure =>
    exact fun s u e ss p1 p2 l d nonce rec_ r t hup hin hl hrec hfree hr ht =>
      ⟨getMeasurements_unsigned hup hin hl hrec hfree hr ht, getMeasurements_signed hup hin hl hrec hfree hr ht⟩
  case exchange =>
    exact fun s u e p1 p2 sid d eph r t key mac hup hin hslot hlen =>
      ⟨fun k => keyExchange_free hup hin hslot hlen, keyExchange_full hup hin hslot hlen⟩
  case session =>
    exact fun s e ss p1 p2 d hup hss =>
      ⟨fun hin hp => ⟨spdmFinish_verified hup hss hin hp, spdmFinish_refused hup hss hin⟩,
      fun hin => ⟨heartbeat_established hup hss hin, keyUpdate_verify hup hss hin, keyUpdate_update hup hss hin, endSession_established hup hss hin⟩⟩
  case ide =>
    exact fun s e ss k sub dir b key hup hss hin hb =>
      ⟨ideKmKeyProgram_program hup hss hin hb, fun u => ideKmKeyProgram_go hup hss hin hb⟩
  case order =>
    exact fun s e ss p1 p2 k sub dir d go hup =>
      ⟨getCapabilities_outOfOrder hup, negotiateAlgorithms_outOfOrder hup,
      fun hout => ⟨challenge_outOfOrder hup hout, keyExchange_outOfOrder hup hout⟩,
      fun hout => ⟨getDigests_outOfOrder hup hout, getCertificate_outOfOrder hup hout, getMeasurements_outOfOrder hup hout⟩,
      spdmFinish_outOfOrder hup,
      fun hout => ⟨heartbeat_outOfOrder hup hout, keyUpdate_outOfOrder hup hout, endSession_outOfOrder hup hout, ideKmKeyProgram_outOfOrder hup hout⟩⟩

end Sys2Proof.Machine
end

section
/-! SUPPORT. Laws of the rings (R446 to R462, Table RING-9): enabling and ring ranges, doorbells, fetching and starting descriptors, placing a frame
and completing work, and the two timers; and the statement that rests on them. A doorbell whose bits [30:17] are not 0 is ignored (log entry 166);
head after a disable is the index of the first descriptor not started (log entry 15). -/

namespace Sys2Proof.Machine

section Requests
variable (s : State) (e r f base n v h : Nat)

theorem exec_ringEnable : exec (.ringEnable e r) s = execRingEnable e r s := rfl
theorem exec_ringDisable : exec (.ringDisable e r) s = execRingDisable e r s := rfl
theorem exec_fnMapWrite : exec (.fnMapWrite e f base n) s = execFnMapWrite e f base n s := rfl
theorem exec_doorbellTail : exec (.doorbellTail e r v) s = execDoorbellTail e r v s := rfl
theorem exec_doorbellCons : exec (.doorbellCons e r v) s = execDoorbellCons e r v s := rfl
theorem exec_ringFetch : exec (.ringFetch e) s = execRingFetch e s := rfl
theorem exec_descriptorStart : exec (.descriptorStart e r) s = execDescriptorStart e r s := rfl
theorem exec_hostRxPlace : exec (.hostRxPlace h) s = execHostRxPlace h s := rfl
theorem exec_completionPost : exec (.completionPost e r) s = execCompletionPost e r s := rfl
theorem exec_completionStallTimeout : exec (.completionStallTimeout e r) s = execCompletionStallTimeout e r s := rfl
theorem exec_moderationTimer : exec (.moderationTimer e r) s = execModerationTimer e r s := rfl

end Requests

section Enabling
variable {s u v : State} {e r : Nat}

section Disabled
variable (hst : s.get .RNG_RING_state e r = 0)
include hst

/-- A consistent ring is enabled; a work ring fetches from its head (R447). -/
theorem ringEnable_consistent (hu : u = (if s.isWork e r then s.set .RNG_fetch (s.get .RNG_RING_head e r) e r else s))
    (hok : s.ringOk e r = true) : exec (.ringEnable e r) s =
      .next (((u.set .RNG_RING_state 1 e r).set .RNG_RING_enable 1 e r).set .RNG_target (u.ringTarget e r) e r) := by
  subst hu
  rw [exec_ringEnable, execRingEnable, if_pos hst, if_pos hok]
  rfl

theorem ringEnable_inconsistent (hok : s.ringOk e r = false) : exec (.ringEnable e r) s = .next (s.set .RNG_RING_cfg_err 1 e r) := by
  simp only [exec_ringEnable, execRingEnable, if_pos hst, hok, Bool.false_eq_true, if_false]

end Disabled

/-- Any ring is disabled: what a work ring fetched and did not start is discarded, and what a completion ring holds (R460). -/
theorem ringDisable_any (hu : u = (if (s.get .RNG_RING_state e r = 1 ∨ s.get .RNG_RING_state e r = 2) ∧ s.isWork e r = true then
      s.ringUnfetch e r else s)) (hv : v = (if s.get .RNG_RING_state e r ≠ 0 ∧ u.get .RNG_RING_kind e r = 4 then u.cplDiscard e r else u)) :
    exec (.ringDisable e r) s = .next ((v.set .RNG_RING_enable 0 e r).set .RNG_RING_state 0 e r) := by
  subst hv hu
  simp only [exec_ringDisable, execRingDisable, State.when, Bool.and_eq_true, decide_eq_true_eq]

end Enabling

section RingRanges
variable {s : State} {e f base n : Nat}

/-- A ring range inside the limits and the owner's, apart from every other function's, is written (R446, R470). -/
theorem fnMapWrite_inRange (hnet : isNetFn f = true) (hlim : n ≤ (if f < 4 then 32768 else 1024)) (hall : base + n ≤ 32768)
    (hapart : ∀ k ∈ s.keysOf .RNG_FN_MAP_ring_count, ¬ (k.1 = e ∧ k.2 ≠ f ∧ base < s.get .RNG_FN_MAP_ring_base e k.2 +
      s.get .RNG_FN_MAP_ring_count e k.2 ∧ s.get .RNG_FN_MAP_ring_base e k.2 < base + n ∧ n ≠ 0 ∧ s.get .RNG_FN_MAP_ring_count e k.2 ≠ 0))
    (hlow : (recRings (s.get .TREC 0 (s.ownerOf e f)) e).1 ≤ base)
    (hhigh : base + n ≤ (recRings (s.get .TREC 0 (s.ownerOf e f)) e).1 + (recRings (s.get .TREC 0 (s.ownerOf e f)) e).2) :
    exec (.fnMapWrite e f base n) s = .next ((s.set .RNG_FN_MAP_ring_base base e f).set .RNG_FN_MAP_ring_count n e f) := by
  have hpast : ((s.keysOf .RNG_FN_MAP_ring_count).any fun k => decide (k.1 = e ∧ k.2 ≠ f ∧ base < s.get .RNG_FN_MAP_ring_base e k.2 +
      s.get .RNG_FN_MAP_ring_count e k.2 ∧ s.get .RNG_FN_MAP_ring_base e k.2 < base + n ∧ n ≠ 0 ∧
      s.get .RNG_FN_MAP_ring_count e k.2 ≠ 0)) = false :=
    List.any_eq_false.mpr fun k hk => by rw [decide_eq_true_iff]; exact hapart k hk
  rw [exec_fnMapWrite, execFnMapWrite]
  simp only [hnet, hpast, Bool.not_true, Bool.false_eq_true, Nat.not_lt.mpr hlim, Nat.not_lt.mpr hall, Nat.not_lt.mpr hlow,
    Nat.not_lt.mpr hhigh, or_self, and_false, if_false]

theorem fnMapWrite_outside (hout : isNetFn f = false ∨ 32768 < base + n) : exec (.fnMapWrite e f base n) s = .next (s.set .RNG_CFG_map_err 1 e) := by
  rw [exec_fnMapWrite, execFnMapWrite, if_pos]
  rcases hout with hnet | hall
  · exact .inl (by rw [hnet, Bool.not_false])
  · exact .inr (.inr (.inl hall))

end RingRanges

section Doorbells
variable {s u : State} {e r v h f : Nat} (hopen : s.ringOpen e r = true)
include hopen

section Work
variable (hwork : s.isWork e r = true) (hh : h = s.get .RNG_RING_head e r)
include hwork hh

/-- A tail that moves forward inside its ring is taken (R449). -/
theorem doorbellTail_inRange (hbits : bitsOf v 17 14 = 0) (hroom : cnt17 v h ≤ s.ringSize e r)
    (hforward : cnt17 (s.get .RNG_RING_tail e r) h ≤ cnt17 (v % 2 ^ 17) h) : exec (.doorbellTail e r v) s = .next (s.set .RNG_RING_tail v e r) := by
  subst hh
  simp only [exec_doorbellTail, execDoorbellTail, hwork, hopen, hbits, Bool.not_true, Bool.false_eq_true, or_self, if_false, ne_eq,
    not_true, Nat.not_lt.mpr hroom, Nat.not_lt.mpr hforward]

theorem doorbellTail_outOfRange (hbad : bitsOf v 17 14 ≠ 0 ∨ s.ringSize e r < cnt17 v h) :
    exec (.doorbellTail e r v) s = .next (s.set .RNG_RING_doorbell_err 1 e r) := by
  subst hh
  simp only [exec_doorbellTail, execDoorbellTail, hwork, hopen, Bool.not_true, Bool.false_eq_true, or_self, if_false,
    if_pos (hbad.imp_right Or.inl), State.doorbellErr]

end Work

section Completion
variable (hwork : s.isWork e r = false)
include hwork

/-- A cons is taken, with bit 31 arms, and lets what waited for it go on (R449, R459, R461, R462). -/
theorem doorbellCons_inRange (hbits : bitsOf v 17 14 = 0) (hheld : cnt17 (s.get .RNG_RING_head e r) (v % 2 ^ 17) ≤ s.ringHeld e r)
    (hu : u = (if v.testBit 31 then (s.set .RNG_RING_tail v e r).set .RNG_RING_armed 1 e r else s.set .RNG_RING_tail v e r))
    (hf : u.ringFn e r = some f) :
    exec (.doorbellCons e r v) s = .next (((u.cplDrain e f r (u.lget .cplOver e r)).cqResume e f r).ringIrq e f r) := by
  have hwhen : (s.set .RNG_RING_tail v e r).when (v.testBit 31) (·.set .RNG_RING_armed 1 e r) = u := hu.symm
  rw [exec_doorbellCons, execDoorbellCons]
  simp only [hwork, hopen, hbits, Bool.not_true, Bool.false_eq_true, or_self, if_false, ne_eq, not_true, Nat.not_lt.mpr hheld, hwhen, hf]

theorem doorbellCons_past (hheld : s.ringHeld e r < cnt17 (s.get .RNG_RING_head e r) (v % 2 ^ 17)) :
    exec (.doorbellCons e r v) s = .next (s.set .RNG_RING_doorbell_err 1 e r) := by
  simp only [exec_doorbellCons, execDoorbellCons, hwork, hopen, Bool.not_true, Bool.false_eq_true, or_self, if_false, hheld, or_true,
    if_true, State.doorbellErr]

end Completion

end Doorbells

section Descriptors
variable {s u : State} {e r f c : Nat} {d rest : List Nat}

/-- A round serves the participants by their weights, up to 256 passes (R451). -/
theorem ringFetch_running (hcold : s.get .STR_cold ≠ 1) (hfatal : s.fatal = false)
    (hu : u = s.each (s.participants e) (fun p s => if p < 2 ^ 15 ∧ s.get .RNG_RING_kind e p = 0 then (s.ringRegion e p).1 else s)) :
    exec (.ringFetch e) s = .next (u.fetchRound e 256 ((u.participants e).map (fun p => (p, u.partWeight e p)))) := by
  have hstop : ¬ (s.get .STR_cold = 1 ∨ s.fatal = true) := not_or.mpr ⟨hcold, by rw [hfatal]; exact Bool.false_ne_true⟩
  simp only [exec_ringFetch, execRingFetch, if_neg hstop, ← hu]

section Next
variable (hf : s.ringFn e r = some f) (hc : s.ringCq e r = some c) (hd : s.headDesc e r = (some d, rest))
  (hst : s.get .RNG_RING_state e r = 1) (hcold : s.get .STR_cold ≠ 1) (hwork : s.isWork e r = true)
include hf hc hd hst hcold hwork

theorem descriptorStart_next : exec (.descriptorStart e r) s =
    .next (if s.cqFree e c = true then (s.lset .ringFetched rest e r).descStart e f r c d else s.workPause e f r c) := by
  have hruns : ¬ (s.get .RNG_RING_state e r ≠ 1 ∨ s.get .STR_cold = 1 ∨ (!s.isWork e r) = true) := by
    simp only [hst, hcold, hwork, ne_eq, not_true, Bool.not_true, Bool.false_eq_true, or_self, not_false_eq_true]
  rw [exec_descriptorStart, execDescriptorStart]
  simp only [hf, hc, hd, if_neg hruns]
  cases s.cqFree e c <;> rfl

/-- With a free reservation the next fetched descriptor is started (R452). -/
theorem descriptorStart_free (hfree : s.cqFree e c = true) :
    exec (.descriptorStart e r) s = .next ((s.lset .ringFetched rest e r).descStart e f r c d) := by
  rw [descriptorStart_next hf hc hd hst hcold hwork, if_pos hfree]

/-- Without one its ring waits with the completion ring (R461, Table RING-9). -/
theorem descriptorStart_waits (hfull : s.cqFree e c = false) : exec (.descriptorStart e r) s = .next (s.workPause e f r c) := by
  rw [descriptorStart_next hf hc hd hst hcold hwork, hfull, if_neg Bool.false_ne_true]

end Next

theorem workPause_enabled (hst : (s.cqPause e f c).get .RNG_RING_state e r = 1) :
    s.workPause e f r c = (s.cqPause e f c).set .RNG_RING_state 2 e r := by
  rw [State.workPause, decide_eq_true hst, when_true]

theorem workPause_other (hst : (s.cqPause e f c).get .RNG_RING_state e r ≠ 1) : s.workPause e f r c = s.cqPause e f c := by
  rw [State.workPause, decide_eq_false hst, when_false]

end Descriptors

section Receive
variable {s u v x : State} {h e r f c w : Nat} {b ws : List Nat} (hlive : s.get .PKT_live 0 h ≠ 0) (hhost : s.get .PKT_hostring 0 h ≠ 0)
  (hring : ringNo (s.get .PKT_hostring 0 h - 1) = (e, r))
include hlive hhost hring

/-- A frame is written to the posted buffers that it needs, and its ring's work is done (R455, R457). -/
theorem hostRxPlace_placed (hb : b = s.lget .pktBytes 0 h) (hup : s.get .PCI_EP_CFG_link_up e ≠ 0) (hf : s.ringFn e r = some f)
    (hc : s.ringCq e r = some c) (hws : s.bufsFor b.length 8 (s.lget .rxBufs e r) = some ws) (hst : s.get .RNG_RING_state e r = 1)
    (hkind : s.get .RNG_RING_kind e r = 1) (hmay : s.mayIssue e f = true) (hfree : s.cqFree e c = true) (hw : w = ws.headD 0)
    (hu : u = (s.reserve e c w).bufsWrite e f (s.ringPasid e r) ws b)
    (hv : v = (u.lset .rxBufs ((u.lget .rxBufs e r).drop ws.length) e r).lset .ringOrder
      ((u.lget .ringOrder e r).filter (fun x => !(ws.drop 1).contains x)) e r)
    (hx : x = (((v.set .WRK_ts (v.meta_ h 416 64 + v.meta_ h 480 32 * 2 ^ 64) 0 w).set .WRK_bytes b.length 0 w).set .WRK_nbufs ws.length 0 w).set
      .WRK_detail (v.pktInPort h) 0 w) :
    exec (.hostRxPlace h) s = .next ((((((x.set .WRK_hash (x.meta_ h 16 32) 0 w).set .WRK_class (x.meta_ h 96 64) 0 w).workDone w 0).txDiverted
      h).freePkt h).cqPause e f c) := by
  have hready : ¬ (s.get .RNG_RING_state e r ≠ 1 ∨ s.get .RNG_RING_kind e r ≠ 1 ∨ (!s.mayIssue e f) = true ∨ (!s.cqFree e c) = true) := by
    simp only [hst, hkind, hmay, hfree, ne_eq, not_true, Bool.not_true, Bool.false_eq_true, or_self, not_false_eq_true]
  rw [exec_hostRxPlace, execHostRxPlace]
  simp only [if_neg (not_or.mpr ⟨hlive, hhost⟩), hring, if_neg hup, ← hb, hf, hc, hws, if_neg hready, ← hw, ← hu, ← hv, ← hx]

theorem hostRxPlace_down (hdown : s.get .PCI_EP_CFG_link_up e = 0) :
    exec (.hostRxPlace h) s = .next ((s.hostDown e).dropPkt h reasonHOST_DOWN) := by
  rw [exec_hostRxPlace, execHostRxPlace]
  simp only [if_neg (not_or.mpr ⟨hlive, hhost⟩), hring, if_pos hdown]

/-- A frame without room in the posted buffers is dropped and counted (R455). -/
theorem hostRxPlace_full (hb : b = s.lget .pktBytes 0 h) (hup : s.get .PCI_EP_CFG_link_up e ≠ 0)
    (hws : s.bufsFor b.length 8 (s.lget .rxBufs e r) = none) :
    exec (.hostRxPlace h) s = .next ((s.bump .RNG_RING_drops e r).dropPkt h reasonRX_RING) := by
  rw [exec_hostRxPlace, execHostRxPlace]
  simp only [if_neg (not_or.mpr ⟨hlive, hhost⟩), hring, if_neg hup, ← hb, hws]
  cases s.ringFn e r <;> cases s.ringCq e r <;> rfl

end Receive

section Completions
variable {s u v : State} {e r w f c : Nat} {rest : List Nat}

/-- The oldest finished work of a ring is completed (R456); the buffer that a connection's SEND will take stays posted (R328). -/
theorem completionPost_oldest (horder : s.lget .ringOrder e r = w :: rest) (hf : s.ringFn e r = some f) (hc : s.ringCq e r = some c)
    (hdone : s.get .WRK_done 0 w ≠ 0) (hu : u = (s.lset .ringOrder rest e r).lateTake w)
    (hv : v = (if u.get .WRK_conn 0 w ≠ 0 ∧ u.get .CN_state 0 (u.get .WRK_conn 0 w - 1) = 1 then u
      else u.lset .rxBufs ((u.lget .rxBufs e r).erase w) e r)) :
    exec (.completionPost e r) s = .next (((if v.get .WRK_resv 0 w = 0 then v.reserve e c w else v).cplPost e f c w).cqResume e f c) := by
  subst hv
  rw [exec_completionPost, execCompletionPost]
  simp only [horder, hf, hc, if_neg hdone, ← hu, decide_eq_true_eq, State.when]

/-- A completion ring that stalls loses what it holds, and it and the work rings that name it enter ERROR (Table RING-9). -/
theorem completionStallTimeout_paused (hf : s.ringFn e c = some f) (hst : s.get .RNG_RING_state e c = 2) (hkind : s.get .RNG_RING_kind e c = 4)
    (hu : u = s.advanceTo (s.get .RNG_stall_at e c + max 1 (s.get .RNG_CFG_stall_ms e) * msUnits))
    (hv : v = (u.cplDiscard e c).set .RNG_RING_state 4 e c) : exec (.completionStallTimeout e c) s =
      .next ((v.ringsNaming e f c 1 ++ v.ringsNaming e f c 2).foldl (fun s r => s.ringError e r 2) v) := by
  have hpaused : ¬ (s.get .RNG_RING_state e c ≠ 2 ∨ s.get .RNG_RING_kind e c ≠ 4) := not_or.mpr ⟨not_not_intro hst, not_not_intro hkind⟩
  rw [exec_completionStallTimeout, execCompletionStallTimeout]
  simp only [hf, if_neg hpaused, ← hu, ← hv]

/-- An armed ring's interrupt is sent when its moderation ends (R462). -/
theorem moderationTimer_armed (hf : s.ringFn e r = some f) (hwork : s.isWork e r = false) (harmed : s.get .RNG_RING_armed e r ≠ 0)
    (hcnt : s.get .RNG_irq_cnt e r ≠ 0) (htime : s.get .RNG_RING_mod_time e r ≠ 0) : exec (.moderationTimer e r) s =
      .next ((s.advanceTo (s.get .RNG_irq_at e r + s.get .RNG_RING_mod_time e r * 1024)).ringIrq e f r) := by
  rw [exec_moderationTimer, execModerationTimer]
  simp only [hf, hwork, harmed, hcnt, htime, Bool.false_eq_true, or_self, if_false]

end Completions

/-- Settles O55, command by command, in the order of a ring's life. -/
theorem rings : Obligations.Rings := by
  refine ⟨?enable, fun s u v e r => ringDisable_any, ?range, ?tail, ?cons, fun s u e => ringFetch_running, ?start, ?place,
    fun s u v e r w f c rest => completionPost_oldest, fun s u v e c f => completionStallTimeout_paused, fun s e r f => moderationTimer_armed⟩
  case enable => exact fun s u e r hst hu => ⟨ringEnable_consistent hst hu, ringEnable_inconsistent hst⟩
  case range => exact fun s e f base n => ⟨fnMapWrite_inRange, fnMapWrite_outside⟩
  case tail => exact fun s e r v h hwork hopen hh => ⟨doorbellTail_inRange hopen hwork hh, doorbellTail_outOfRange hopen hwork hh⟩
  case cons => exact fun s u e r v f hwork hopen => ⟨doorbellCons_inRange hopen hwork, doorbellCons_past hopen hwork⟩
  case start =>
    intro s e r f c d rest hf hc hd hst hcold hwork
    refine ⟨descriptorStart_free hf hc hd hst hcold hwork, fun hfull hon => ?_, fun hfull hother => ?_⟩
    · rw [descriptorStart_waits hf hc hd hst hcold hwork hfull, workPause_enabled hon]
    · rw [descriptorStart_waits hf hc hd hst hcold hwork hfull, workPause_other hother]
  case place =>
    exact fun s u v x h e r f c w b ws hlive hhost hring hb =>
      ⟨hostRxPlace_placed hlive hhost hring hb, hostRxPlace_down hlive hhost hring, hostRxPlace_full hlive hhost hring hb⟩

end Sys2Proof.Machine
end

section
/-! SUPPORT. Laws of the tenant commands and of a function's owner (R421, R470 to R476, Tables TEN-5 to TEN-7; log entry 60): what each comes to, with
the checks that refuse it; and the statement that rests on them. -/

namespace Sys2Proof.Machine

section Requests
variable (s : State) (t e f v : Nat)

theorem exec_tenCreate : exec (.tenCreate t) s = execTenCreate t s := rfl
theorem exec_tenModify : exec (.tenModify t) s = execTenModify t s := rfl
theorem exec_tenDestroy : exec (.tenDestroy t) s = execTenDestroy t s := rfl
theorem exec_tenResume : exec (.tenResume t) s = execTenResume t s := rfl
theorem exec_forceFatal : exec (.forceFatal t) s = execForceFatal t s := rfl
theorem exec_tenQuery : exec (.tenQuery t) s = execTenQuery t s := rfl
theorem exec_fnOwnerWrite : exec (.fnOwnerWrite e f v) s = execFnOwnerWrite e f v s := rfl

end Requests

section Records
variable {s : State} {t r x : Nat} (hidle : s.get .TEN_CMD_STATUS_busy ≠ 1)
include hidle

section Writing
variable (hr : r = s.tenNew)
include hr

/-- A free tenant with a record that passes its checks is made, its windows zeroed (R472, R473). -/
theorem tenCreate_free (hst : s.get .TEN_STATE_state 0 t = 0) (hcheck : s.recCheck t r = 0) : exec (.tenCreate t) s =
    .next (((((s.windowZero 0 r).set .TREC r 0 t).set .TEN_STATE_state 1 0 t).set .TEN_STATE_forced 0 0 t).tenRes 0) := by
  rw [exec_tenCreate, execTenCreate]
  simp only [← hr, if_neg hidle, if_neg (not_not_intro hst), hcheck]

theorem tenCreate_badRecord (hst : s.get .TEN_STATE_state 0 t = 0) (hcheck : s.recCheck t r = x + 1) :
    exec (.tenCreate t) s = .next (s.tenRes (x + 1)) := by
  rw [exec_tenCreate, execTenCreate]
  simp only [← hr, if_neg hidle, if_neg (not_not_intro hst), hcheck]

/-- The record of an active tenant is replaced unless something of it would lie outside (R474). -/
theorem tenModify_active (hst : s.get .TEN_STATE_state 0 t = 1) (hcheck : s.recCheck t r = 0) : exec (.tenModify t) s =
    .next (if s.recInUse t r then s.tenRes 5 else ((s.windowZero (s.get .TREC 0 t) r).set .TREC r 0 t).tenRes 0) := by
  rw [exec_tenModify, execTenModify]
  simp only [← hr, if_neg hidle, if_neg (not_not_intro hst), hcheck]

end Writing

theorem tenCreate_taken (hst : s.get .TEN_STATE_state 0 t ≠ 0) : exec (.tenCreate t) s = .next (s.tenRes 2) := by
  simp only [exec_tenCreate, execTenCreate, if_neg hidle, if_pos hst]

theorem tenQuery_idle : exec (.tenQuery t) s =
    .next ((s.each (List.range 12) (fun k s => s.set .TEN_REC (recAt (s.get .TREC 0 t) (4 * k) 4) 0 k)).tenRes 0) := by
  rw [exec_tenQuery, execTenQuery, if_neg hidle]

end Records

section Lifetimes
variable {s : State} {t : Nat} (hidle : s.get .TEN_CMD_STATUS_busy ≠ 1)
include hidle

section Destroying
variable (ht : t ≠ 0) (hst : s.get .TEN_STATE_state 0 t ≠ 0)
include ht hst

/-- A tenant that owns no function, key slot, connection or namespace is freed (R472). -/
theorem tenDestroy_unowning (hfns : s.fnsOf t = []) (hslots : ∀ k ∈ s.validSlots, s.tenSlot t k = false) (hcn : s.cnOfTenant t = false)
    (hns : ∀ k ∈ s.keysOf .NS_on, s.nsAt k.2 28 1 ≠ t) : exec (.tenDestroy t) s =
      .next (((((s.windowZero (s.get .TREC 0 t) 0).set .TREC 0 0 t).set .TEN_STATE_state 0 0 t).accountsClear t).tenRes 0) := by
  have hkeys : (s.validSlots.any fun k => s.tenSlot t k) = false :=
    List.any_eq_false.mpr fun k hk => by rw [hslots k hk]; exact Bool.false_ne_true
  have hspaces : ((s.keysOf .NS_on).any fun k => decide (s.nsAt k.2 28 1 = t)) = false :=
    List.any_eq_false.mpr fun k hk => by rw [decide_eq_true_iff]; exact hns k hk
  simp only [exec_tenDestroy, execTenDestroy, if_neg hidle, if_neg ht, if_neg hst, hfns, hkeys, hcn, hspaces, ne_eq, not_true,
    Bool.false_eq_true, or_self, if_false]

theorem tenDestroy_ownsFunctions (hfns : s.fnsOf t ≠ []) : exec (.tenDestroy t) s = .next (s.tenRes 5) := by
  rw [exec_tenDestroy, execTenDestroy, if_neg hidle, if_neg ht, if_neg hst, if_pos (.inl hfns)]

end Destroying

/-- Tenant 0 is protected (R476). -/
theorem tenDestroy_zero : exec (.tenDestroy 0) s = .next (s.tenRes 6) := by
  rw [exec_tenDestroy, execTenDestroy, if_neg hidle, if_pos rfl]

theorem forceFatal_zero : exec (.forceFatal 0) s = .next (s.tenRes 6) := by
  rw [exec_forceFatal, execForceFatal, if_neg hidle, if_pos rfl]

/-- An active tenant is contained (R475). -/
theorem forceFatal_active (ht : t ≠ 0) (hst : s.get .TEN_STATE_state 0 t = 1) : exec (.forceFatal t) s =
    .next ((s.tenantFatal { src := 0x1B, cls := .tenantFatal, tenant := t } true).tenRes 0) := by
  rw [exec_forceFatal, execForceFatal, if_neg hidle, if_neg ht, if_neg (not_not_intro hst)]

/-- A FATAL tenant with every ring disabled and every connection free is ACTIVE again (Table TEN-5). -/
theorem tenResume_quiet (hst : s.get .TEN_STATE_state 0 t = 2) (hcn : s.cnOfTenant t = false)
    (hrings : ∀ k ∈ s.keysOf .RNG_RING_state, s.ringTenant k.1 k.2 ≠ some t) :
    exec (.tenResume t) s = .next ((s.set .TEN_STATE_state 1 0 t).tenRes 0) := by
  have hnone : ((s.keysOf .RNG_RING_state).any fun k => decide (s.ringTenant k.1 k.2 = some t)) = false :=
    List.any_eq_false.mpr fun k hk => by rw [decide_eq_true_iff]; exact hrings k hk
  simp only [exec_tenResume, execTenResume, if_neg hidle, hst, hcn, hnone, ne_eq, not_true, Bool.false_eq_true, or_self, if_false]

end Lifetimes

section Owners
variable {s : State} {e f v : Nat}

/-- A quiet function's owner is changed to an active tenant (R471). -/
theorem fnOwnerWrite_quiet (hf : f ≠ 2) (hquiet : s.fnQuiet e f = true) (hactive : s.tenActive (v % 256) = true) :
    exec (.fnOwnerWrite e f v) s =
      .next ((if v.testBit 8 then s.set .TEN_FN_OWNER_own_err 0 e f else s).set .TEN_FN_OWNER_tenant (v % 256) e f) := by
  rw [exec_fnOwnerWrite, execFnOwnerWrite, if_pos ⟨hf, hquiet, hactive⟩, State.when]

theorem fnOwnerWrite_refused (hno : f = 2 ∨ s.fnQuiet e f = false ∨ s.tenActive (v % 256) = false) :
    exec (.fnOwnerWrite e f v) s = .next (s.set .TEN_FN_OWNER_own_err 1 e f) := by
  rw [exec_fnOwnerWrite, execFnOwnerWrite, if_neg]
  rintro ⟨hf, hquiet, hactive⟩
  rcases hno with htwo | hbusy | hgone
  · exact hf htwo
  · exact Bool.false_ne_true (hbusy.symm.trans hquiet)
  · exact Bool.false_ne_true (hgone.symm.trans hactive)

end Owners

/-- Settles O56, command by command. -/
theorem tenants : Obligations.Tenants :=
  ⟨fun _ _ _ hidle hr =>
    ⟨tenCreate_free hidle hr, fun hst _ => tenCreate_badRecord hidle hr hst, tenCreate_taken hidle, tenModify_active hidle hr,
    tenDestroy_unowning hidle, tenDestroy_ownsFunctions hidle, tenDestroy_zero hidle, tenResume_quiet hidle, forceFatal_active hidle,
    forceFatal_zero hidle, tenQuery_idle hidle⟩,
  fun _ _ _ _ => ⟨fnOwnerWrite_quiet, fnOwnerWrite_refused⟩⟩

end Sys2Proof.Machine
end

section
/-! SUPPORT. Laws of the energy ledger, of the planner and of ageing (R479, R483, R484, R488 to R491, R496, R497, R500): what each command comes to; and
the statement that rests on them. k is in units of 1/4096 and the overhead an operand (log entry 134); the index is rounded as log entry 62 says. -/

namespace Sys2Proof.Machine

section Requests
variable (s : State) (n t good k fixed : Nat) (rx : Bool) (l d0 d : List Nat)

theorem exec_chargePost : exec (.chargePost n t l rx) s = execChargePost n t l rx s := rfl
theorem exec_pmbusRead : exec (.pmbusRead good l) s = execPmbusRead good l s := rfl
theorem exec_meterStale : exec (.meterStale k) s = execMeterStale k s := rfl
theorem exec_plannerEpoch : exec (.plannerEpoch fixed) s = execPlannerEpoch fixed s := rfl
theorem exec_ageingMeasure : exec (.ageingMeasure n d0 d) s = execAgeingMeasure n d0 d s := rfl
theorem exec_ageingForcedIdle : exec (.ageingForcedIdle n) s = execAgeingForcedIdle n s := rfl
theorem exec_persistentStateWrite : exec .persistentStateWrite s = execPersistentStateWrite s := rfl

end Requests

section Charging
variable {s u : State} {n t e : Nat} {l : List Nat}
  (he : e = ((l.take 9).zipIdx.map (fun x => x.1 * s.get .NRL_EPE_e_fpj n x.2)).sum * s.get .ISLAND_mv 0 n ^ 2)
  (hu : u = s.charge n t (e * s.get .NRL_K_k) (e * 4096))
include he hu

/-- A charge is the counted events at fused energy, voltage squared and k (R479). -/
theorem chargePost_events : exec (.chargePost n t l false) s = .next u := by
  simp only [exec_chargePost, execChargePost, ← he, ← hu, when_false]

theorem chargePost_received : exec (.chargePost n t l true) s = .next (u.addw .NRL_rx_uj (u.get .NRL_chg n t - s.get .NRL_chg n t) n) := by
  simp only [exec_chargePost, execChargePost, ← he, ← hu, when_true]

end Charging

section Rails
variable {s t : State}

/-- How many rails are read is one scalar's. -/
theorem nRails_congr (h : t.get .NRL_PMBUS_CFG_n_rails = s.get .NRL_PMBUS_CFG_n_rails) : t.nRails = s.nRails := by
  rw [State.nRails, State.nRails, h]

theorem get_railAsk {k : Nat} {f : Field} {sc i : Nat} : (s.railAsk k).get f sc i = s.get f sc i := by
  rw [State.railAsk, get_emit, State.when]
  split
  · rw [get_emit]
  · rfl

theorem nRails_asked {l : List Nat} : ((s.each l (fun k s => s.railAsk k)).set .NRL_pm_done 1).nRails = s.nRails :=
  nRails_congr ((get_set_field _ _ _ _ _ _ _ _ (by decide)).trans (get_each_keep fun _ _ => get_railAsk))

/-- The readings `w` of the rails of `l` are recorded with their time (R483). -/
def State.railsRead (s : State) (l w : List Nat) : State :=
  s.each l (fun j s => (s.set .NRL_rail_mw (linear11 (w.getD j 0)) 0 j).set .NRL_rail_at s.now 0 j)

theorem nRails_railsRead {l w : List Nat} : (s.railsRead l w).nRails = s.nRails :=
  nRails_congr (get_each_keep fun _ _ =>
    (get_set_field _ _ _ _ _ _ _ _ (by decide)).trans (get_set_field _ _ _ _ _ _ _ _ (by decide)))

theorem nRails_fresh : (s.set .NRL_CFG_meas_stale 0).nRails = s.nRails :=
  nRails_congr (get_set_field _ _ _ _ _ _ _ _ (by decide))

/-- With every rail of `l` good, none counts an error. -/
theorem railsRead_good {l w : List Nat} {good : Nat} (hgood : ∀ j ∈ l, good.testBit j = true) :
    s.each l (fun j s => if good.testBit j then (s.set .NRL_rail_mw (linear11 (w.getD j 0)) 0 j).set .NRL_rail_at s.now 0 j
      else s.bump .NRL_PMBUS_ADDR_pmbus_err 0 j) = s.railsRead l w :=
  each_congr s l _ _ fun j hj _ => if_pos (hgood j hj)

end Rails

section Metering
variable {s a u v : State} {good m est k : Nat} {l : List Nat}

/-- Good readings of every rail set the measured power and move k by a sixty-fourth towards it (R483, R484). -/
theorem pmbusRead_good (hrails : s.nRails ≠ 0) (hdone : s.get .NRL_pm_done ≠ 1) (hfail : s.get .PWR_fail ≠ 1)
    (hgood : ∀ j, j < s.nRails → good.testBit j = true) (ha : a = (s.each (List.range s.nRails) (fun k s => s.railAsk k)).set .NRL_pm_done 1)
    (hu : u = (a.railsRead (List.range s.nRails) l).set .NRL_CFG_meas_stale 0)
    (hm : m = ((List.range s.nRails).map (fun j => u.get .NRL_rail_mw 0 j)).sum)
    (hv : v = u.set .NRL_MEAS_meas_mw (min m (2 ^ 20 - 1))) (hest : est = v.get .NRL_EST_est_mw) (hsome : est ≠ 0)
    (hk : k = (63 * v.get .NRL_K_k * est + 4096 * m) / (64 * est)) (hlow : 3277 < k) (hhigh : k < 5120) :
    exec (.pmbusRead good l) s = .next (v.set .NRL_K_k k) := by
  have hreads : ¬ (s.nRails = 0 ∨ s.get .NRL_pm_done = 1 ∨ s.get .PWR_fail = 1) := not_or.mpr ⟨hrails, not_or.mpr ⟨hdone, hfail⟩⟩
  have hasked : a.nRails = s.nRails := by rw [ha, nRails_asked]
  have hevery : ∀ j ∈ List.range s.nRails, good.testBit j = true := fun j hj => hgood j (List.mem_range.mp hj)
  have hall : ((List.range s.nRails).all fun j => good.testBit j) = true := List.all_eq_true.mpr hevery
  have hafter : u.nRails = s.nRails := by rw [hu, nRails_fresh, nRails_railsRead, hasked]
  have hfresh : v.get .NRL_CFG_meas_stale = 0 := by rw [hv, get_set_field _ _ _ _ _ _ _ _ (by decide), hu, get_set_same]; rfl
  have hmoves : ¬ (v.get .NRL_CFG_meas_stale = 1 ∨ est = 0) := not_or.mpr ⟨by rw [hfresh]; decide, hsome⟩
  have hinside : ¬ (k ≤ 3277 ∨ 5120 ≤ k) := by omega
  have hclamp : max 3277 (min 5120 k) = k := by omega
  rw [exec_pmbusRead, execPmbusRead]
  simp only [if_neg hreads, ← ha, hasked, railsRead_good hevery, nRails_railsRead, hall, when_true, ← hu, hafter, ← hm, ← hv, ← hest, ← hk,
    if_neg hmoves, decide_eq_false hinside, when_false, hclamp]

/-- A rail without a good read for 100 ms makes the measurement stale (R484). -/
theorem meterStale_rail (hrail : k < s.nRails) : exec (.meterStale k) s =
    .next ((s.advanceTo (s.get .NRL_rail_at 0 k + 100 * msUnits)).set .NRL_CFG_meas_stale 1) := by
  rw [exec_meterStale, execMeterStale, if_neg (Nat.not_le.mpr hrail)]

end Metering

section Planning
variable {s u : State} {fixed rx d : Nat} {p : List Plan}

/-- The planner's epoch closes the ledger, sets voltages, guard band and credit and starts new counts (R488 to R491). -/
theorem plannerEpoch_plans (hu : u = s.planTick.planClose fixed) (hrx : rx = u.planRx) (hp : p = u.plans fixed rx)
    (hd : d = u.planAvail - (u.overhead fixed (p.map (·.v)) + rx)) :
    exec (.plannerEpoch fixed) s = .next ((((u.planVolts p).planWide).noteHeld.planCredit d p).planRoll) := by
  simp only [exec_plannerEpoch, execPlannerEpoch, ← hu, ← hrx, ← hp, ← hd]

/-- A scalar that is 0 stays so when 0 is written anywhere. -/
theorem get_set_zero {f g : Field} {sc i sc' i' : Nat} (h : s.get g sc' i' = 0) : (s.set f 0 sc i).get g sc' i' = 0 := by
  rw [get_set]
  split
  · exact Nat.zero_mod _
  · exact h

/-- Each count of a region's epoch starts anew. -/
theorem planRoll_counts {f : Field} {n : Nat} (hf : f = .NRL_rx_uj ∨ f = .NRL_adm ∨ f = .NRL_rxf) (hn : n < 8) : s.planRoll.get f n = 0 := by
  have hlast : Field.NRL_rx_last ≠ f := by rcases hf with rfl | rfl | rfl <;> decide
  refine each_reaches (P := fun t => t.get f n = 0) _ _ _ (List.mem_range.mpr hn) (fun t => ?here) (fun a _ t ht => ?other)
  case here =>
    rcases hf with rfl | rfl | rfl
    · exact get_set_zero (get_set_zero (get_set_same ..))
    · exact get_set_zero (get_set_same ..)
    · exact get_set_same ..
  case other => exact get_set_zero (get_set_zero (get_set_zero ((get_set_field _ _ _ _ _ _ _ _ hlast).trans ht)))

end Planning

section Ageing
variable {s u v : State} {n a : Nat} {d0 d l : List Nat}

/-- An idle region's sentinels move its index, which never falls (R496, R497). -/
theorem ageingMeasure_idle (hhigh : s.get .REG_pop n 0 = 0) (hlow : s.get .REG_pop n 1 = 0)
    (hu : u = (s.advanceTo (s.ageFrom n + 10 * usUnits)).set .AGE_sec (s.ageFrom n / secUnits + 1) n) (hv : v = u.set .AGE_at u.now n)
    (ha : a = (sortUp ((d0.zip d).map (fun x => sentinelA x.1 x.2))).reverse.getD 3 0) (hl : l = (a :: v.lget .ageMeas 0 n).take 64) :
    exec (.ageingMeasure n d0 d) s =
      .next (((v.lset .ageMeas l 0 n).set .AGE_REGION_index (max (v.get .AGE_REGION_index 0 n) (median l)) 0 n).ageDerive n) := by
  have hidle : ¬ (s.get .REG_pop n 0 ≠ 0 ∨ s.get .REG_pop n 1 ≠ 0) := not_or.mpr ⟨not_not_intro hhigh, not_not_intro hlow⟩
  simp only [exec_ageingMeasure, execAgeingMeasure, if_neg hidle, ← hu, ← hv, ← ha, ← hl]

/-- A forced idle holds admission for 20 µs (R496). -/
theorem ageingForcedIdle_holds (hu : u = s.advanceTo (s.get .AGE_at n + 86400 * secUnits)) : exec (.ageingForcedIdle n) s =
    .next (((u.bump .AGE_CFG_forced).set .NRL_hold_until (u.now + 20 * usUnits) n).set .AGE_at u.now n) := by
  rw [hu]
  rfl

variable (hu : u = s.advanceTo (s.get .FL_at + 3600 * secUnits))
include hu

theorem persistentStateWrite_clocked (hok : u.embFlashOk = true) : exec .persistentStateWrite s = .next (u.persist.set .FL_at u.now) := by
  simp only [exec_persistentStateWrite, execPersistentStateWrite, ← hu, hok, if_true]

theorem persistentStateWrite_unclocked (hok : u.embFlashOk = false) :
    exec .persistentStateWrite s = .next ((u.bump .BOOT_FLASH_STAT_flash_err).set .FL_at u.now) := by
  simp only [exec_persistentStateWrite, execPersistentStateWrite, ← hu, hok, Bool.false_eq_true, if_false]

end Ageing

/-- Settles O57, command by command. -/
theorem energy : Obligations.Energy := by
  refine ⟨fun s u n t e l he hu => ⟨chargePost_events he hu, chargePost_received he hu⟩, ?meter, fun s k => meterStale_rail,
    fun s u fixed rx d p => plannerEpoch_plans, ?counts, fun s u v n a d0 d l => ageingMeasure_idle, fun s u n => ageingForcedIdle_holds,
    fun s u hu => ⟨persistentStateWrite_clocked hu, persistentStateWrite_unclocked hu⟩⟩
  case meter => exact fun s a u v good m est k l => pmbusRead_good
  case counts => exact fun s n hn => ⟨planRoll_counts (.inl rfl) hn, planRoll_counts (.inr (.inl rfl)) hn, planRoll_counts (.inr (.inr rfl)) hn⟩

end Sys2Proof.Machine
end

section
/-! SUPPORT. Laws of boot, recovery and firmware update (R420, R504, R506, R507, R516, R518, R519): what each command comes to; and the statement that
rests on them. Whether an image verifies is log entry 4; ABORT erases the slot (log entry 138), PREVIOUS and ACTIVE exchange their slots when it is
applied (log entry 135), and which slot an update takes is log entry 65. -/

namespace Sys2Proof.Machine

section Requests
variable (s : State) (k h v kind comp : Nat) (image : List Nat)

theorem exec_stage1Boot : exec .stage1Boot s = execStage1Boot s := rfl
theorem exec_hbmTrained : exec (.hbmTrained k) s = execHbmTrained k s := rfl
theorem exec_structureImageApplied : exec .structureImageApplied s = execStructureImageApplied s := rfl
theorem exec_fwAlive : exec (.fwAlive h) s = execFwAlive h s := rfl
theorem exec_deviceReady : exec .deviceReady s = execDeviceReady s := rfl
theorem exec_stage2Watchdog : exec .stage2Watchdog s = execStage2Watchdog s := rfl
theorem exec_bootArb : exec (.bootArb v) s = execBootArb v s := rfl
theorem exec_arbProgramDone : exec .arbProgramDone s = execArbProgramDone s := rfl
theorem exec_recoveryBegin : exec (.recoveryBegin kind) s = execRecoveryBegin kind s := rfl
theorem exec_recoveryChunk : exec .recoveryChunk s = execRecoveryChunk s := rfl
theorem exec_recoveryFinish : exec .recoveryFinish s = execRecoveryFinish s := rfl
theorem exec_recoveryAbort : exec .recoveryAbort s = execRecoveryAbort s := rfl
theorem exec_pldmUpdate : exec (.pldmUpdate comp image) s = execPldmUpdate comp image s := rfl

end Requests

section Stages
variable {s u v : State} {p k h : Nat}

/-- Stage 1 reads the directory and PF3's presence, answers configuration and goes to stage 2 (R420, R504). -/
theorem stage1Boot_runs (hst : s.get .BOOT_STATUS_stage = 1) (hrec : s.get .BOOT_STATUS_recovery ≠ 1) (hu : u = s.dirRead) (hp : p = u.pf3Of) :
    exec .stage1Boot s = .next ((u.each [0, 1] (fun e s => (s.set .PCI_EP_CFG_pf3_present (b2n (p.testBit e)) e).set .PCI_FN_STAT_present
      (b2n (p.testBit e)) e 3)).cfgReady.s2Boot) := by
  simp only [exec_stage1Boot, execStage1Boot, if_neg (not_or.mpr ⟨not_not_intro hst, hrec⟩), ← hu, ← hp]

theorem hbmTrained_stage (hst : s.get .BOOT_STATUS_stage ≠ 0) : exec (.hbmTrained k) s = .next (s.set .PKG_DIE_INFO_hbm_trained 1 (5 + k)) := by
  rw [exec_hbmTrained, execHbmTrained, if_neg hst]

/-- A running management core says that its firmware lives (R504). -/
theorem fwAlive_core (hlow : 48 ≤ h) (hhigh : h < 52) (hst : s.get .BOOT_STATUS_stage = 2) (hon : s.get .MGT_on 0 (h - 48) = 1) :
    exec (.fwAlive h) s = .next (s.set .BOOT_CTRL_fw_alive 1) := by
  rw [exec_fwAlive, execFwAlive, if_pos ⟨hlow, hhigh, hst, hon⟩]

theorem fwAlive_other (hout : h < 48 ∨ 52 ≤ h) : exec (.fwAlive h) s = .next s := by
  rw [exec_fwAlive, execFwAlive, if_neg (by omega)]

/-- The device is ready when everything is (R504); controllers that wait for it become ready. -/
theorem deviceReady_all (hst : s.get .BOOT_STATUS_stage = 2) (hrec : s.get .BOOT_STATUS_recovery = 0) (hfw : s.get .BOOT_CTRL_fw_alive = 1)
    (hfirst : s.get .PKG_DIE_INFO_hbm_trained 5 = 1) (hsecond : s.get .PKG_DIE_INFO_hbm_trained 6 = 1)
    (hstr : s.get .STR_loaded = 1 ∨ s.get .BOOT_STATUS_struct_none = 1) (hnot : s.get .BOOT_STATUS_device_ready = 0)
    (hu : u = s.set .BOOT_STATUS_device_ready 1) : exec .deviceReady s = .next (u.each (u.keysOf .NC_en_at)
      (fun k s => if s.get .NVE_CTRL_CFG_enable 0 k.2 = 1 ∧ s.get .NC_csts 0 k.2 % 2 = 0 then s.ctrlReady k.2 else s)) := by
  rw [exec_deviceReady, execDeviceReady, if_pos ⟨hst, hrec, hfw, hfirst, hsecond, hstr, hnot⟩, hu]

/-- Without a sign of life the slot is given up for this boot (R506). -/
theorem stage2Watchdog_dead (hst : s.get .BOOT_STATUS_stage = 2) (hfw : s.get .BOOT_CTRL_fw_alive ≠ 1) (hrec : s.get .BOOT_STATUS_recovery ≠ 1)
    (hu : u = (s.advanceTo (s.get .BOOT_s2_at + 2 * secUnits)).mgtHold.set .BOOT_EVENTS_s2_wdog 1)
    (hv : v = u.setb .BOOT_s2_bad (u.get .BOOT_STATUS_s2_slot) true) : exec .stage2Watchdog s = .next (v.set .BOOT_STATUS_stage 1).s2Boot := by
  have hslot : u.get .BOOT_STATUS_s2_slot = (s.advanceTo (s.get .BOOT_s2_at + 2 * secUnits)).mgtHold.get .BOOT_STATUS_s2_slot := by
    rw [hu, get_set_field _ _ _ _ _ _ _ _ (by decide)]
  simp only [exec_stage2Watchdog, execStage2Watchdog, if_neg (not_or.mpr ⟨not_not_intro hst, not_or.mpr ⟨hfw, hrec⟩⟩), ← hu, ← hslot, ← hv]

end Stages

section StructureImages
variable {s u v : State} {a p : Nat} (hst : s.get .BOOT_STATUS_stage = 2) (hloaded : s.get .STR_loaded ≠ 1)
  (hnone : s.get .BOOT_STATUS_struct_none ≠ 1)
include hst hloaded hnone

theorem structureImageApplied_active (hactive : s.bootLoad 0 = some u) :
    exec .structureImageApplied s = .next (((u.slotShow 0).slotShow 1).slotShow 2).pf3Check := by
  rw [exec_structureImageApplied, execStructureImageApplied, if_neg (not_or.mpr ⟨not_not_intro hst, not_or.mpr ⟨hloaded, hnone⟩⟩), hactive]

/-- PREVIOUS is applied in place of ACTIVE and takes its slot (R507). -/
theorem structureImageApplied_previous (hactive : s.bootLoad 0 = none) (hprevious : s.bootLoad 1 = some u) (ha : a = u.slotPart 0)
    (hp : p = u.slotPart 1) (hv : v = ((u.set .STR_SLOT_partition p 0 0).set .STR_SLOT_partition a 0 1).set .STR_SLOT_empty 0 0 0) :
    exec .structureImageApplied s =
      .next ((((v.slotShow 0).slotShow 1).slotShow 2).dirWrite.set .BOOT_EVENTS_struct_fallback 1).pf3Check := by
  subst ha hp hv
  rw [exec_structureImageApplied, execStructureImageApplied, if_neg (not_or.mpr ⟨not_not_intro hst, not_or.mpr ⟨hloaded, hnone⟩⟩), hactive]
  simp only [hprevious]

theorem structureImageApplied_none (hactive : s.bootLoad 0 = none) (hprevious : s.bootLoad 1 = none) :
    exec .structureImageApplied s = .next (s.set .BOOT_STATUS_struct_none 1).pf3Check := by
  rw [exec_structureImageApplied, execStructureImageApplied, if_neg (not_or.mpr ⟨not_not_intro hst, not_or.mpr ⟨hloaded, hnone⟩⟩), hactive]
  simp only [hprevious]

end StructureImages

section RollbackCounter
variable {s : State} {v : Nat}

/-- The counter rises to a target that both running stages allow (R516). -/
theorem bootArb_allowed (hrise : s.get .BOOT_ARB_counter < v) (hmax : v ≤ 64) (hlim : v ≤ s.arbLimit) (hidle : s.get .BOOT_ARB_busy = 0)
    (hfail : s.get .PWR_fail = 0) : exec (.bootArb v) s = .next ((s.set .BOOT_ARB_target v).set .BOOT_ARB_busy 1) := by
  rw [exec_bootArb, execBootArb, if_pos ⟨hrise, hmax, hlim, hidle, hfail⟩]

theorem bootArb_rejected (hbad : v ≤ s.get .BOOT_ARB_counter ∨ 64 < v ∨ s.arbLimit < v) :
    exec (.bootArb v) s = .next (s.set .BOOT_EVENTS_arb_rejected 1) := by
  rw [exec_bootArb, execBootArb, if_neg]
  rintro ⟨hrise, hmax, hlim, -⟩
  omega

theorem arbProgramDone_busy (hbusy : s.get .BOOT_ARB_busy ≠ 0) : exec .arbProgramDone s =
    .next ((s.set .BOOT_ARB_counter (s.get .BOOT_ARB_target)).set .BOOT_ARB_busy 0) := by
  rw [exec_arbProgramDone, execArbProgramDone, if_neg hbusy]

end RollbackCounter

section Recovery
variable {s u : State} {kind o n j : Nat} {m b : List Nat} {r : Nat × Nat}

/-- Recovery selects an invalid slot, A before B, and erases it (R518). -/
theorem recoveryBegin_slot (hrec : s.get .BOOT_STATUS_recovery ≠ 0) (hopen : s.get .BOOT_RCV_STATUS_open ≠ 1) (hfail : s.get .PWR_fail ≠ 1)
    (hkind : kind = 1 ∨ kind = 2) (hslot : [0, 1].find? (fun j => s.slotInvalid kind j) = some j) : exec (.recoveryBegin kind) s =
      .next ((((((s.slotErase kind j).set .BOOT_RCV_STATUS_open 1).set .BOOT_RCV_STATUS_target j).set .BOOT_rcv_kind kind).set
        .BOOT_rcv_next 0).rcvRes 0) := by
  have hbegins : ¬ (s.get .BOOT_STATUS_recovery = 0 ∨ s.get .BOOT_RCV_STATUS_open = 1 ∨ s.get .PWR_fail = 1 ∨ (kind ≠ 1 ∧ kind ≠ 2)) := by
    rintro (h | h | h | h)
    exacts [hrec h, hopen h, hfail h, hkind.elim h.1 h.2]
  rw [exec_recoveryBegin, execRecoveryBegin, if_neg hbegins, hslot]

section Chunks
variable (ho : o = s.get .BOOT_RCV_OFFSET) (hn : n = s.get .BOOT_RCV_LEN) (hj : j = s.get .BOOT_RCV_STATUS_target)
  (hopen : s.get .BOOT_RCV_STATUS_open ≠ 0) (hfail : s.get .PWR_fail ≠ 1) (haligned : o % 65536 = 0) (hnext : s.get .BOOT_rcv_next ≤ o)
  (hfirst : s.get .BOOT_rcv_next = 0 → o = 0) (hsome : n ≠ 0) (hlen : n ≤ 0x200000)
include ho hn hj hopen hfail haligned hnext hfirst hsome hlen

/-- Chunks of stage 1 fill its flash slot at rising multiples of 64 KiB (R518). -/
theorem recoveryChunk_stage1 (hkind : s.get .BOOT_rcv_kind = 1) (hroom : o + n ≤ 0x200000) : exec .recoveryChunk s =
    .next (((s.mwrite (s1Slot j + o) (fixLen n (s.lget .rcvBuf))).set .BOOT_rcv_next (o + 1)).rcvRes 0) := by
  have hfits : ¬ (o % 65536 ≠ 0 ∨ o < s.get .BOOT_rcv_next ∨ (s.get .BOOT_rcv_next = 0 ∧ o ≠ 0) ∨ n = 0 ∨ 0x200000 < n ∨ 0x200000 < o + n) := by
    omega
  rw [exec_recoveryChunk, execRecoveryChunk]
  simp only [← ho, ← hn, ← hj, if_neg (not_or.mpr ⟨hopen, hfail⟩), if_pos hkind, if_neg hfits]

theorem recoveryChunk_stage2 (hkind : s.get .BOOT_rcv_kind ≠ 1) (hroom : o + n ≤ 0x800000) : exec .recoveryChunk s =
    .next (((s.lset .stage2Slot (splice (s.lget .stage2Slot 0 j ++ List.replicate (o - (s.lget .stage2Slot 0 j).length) 0) o
      (fixLen n (s.lget .rcvBuf))) 0 j).set .BOOT_rcv_next (o + 1)).rcvRes 0) := by
  have hfits : ¬ (o % 65536 ≠ 0 ∨ o < s.get .BOOT_rcv_next ∨ (s.get .BOOT_rcv_next = 0 ∧ o ≠ 0) ∨ n = 0 ∨ 0x200000 < n ∨ 0x800000 < o + n) := by
    omega
  rw [exec_recoveryChunk, execRecoveryChunk]
  simp only [← ho, ← hn, ← hj, if_neg (not_or.mpr ⟨hopen, hfail⟩), if_neg hkind, if_neg hfits]

end Chunks

/-- A stage 1 that verifies resets the device (R518). -/
theorem recoveryFinish_stage1 (hopen : s.get .BOOT_RCV_STATUS_open ≠ 0) (hj : j = s.get .BOOT_RCV_STATUS_target)
    (hkind : s.get .BOOT_rcv_kind = 1) (himage : s.s1Image j = (m, b)) (hr : r = s.imageValid m b 1 (imgSpace 1))
    (hu : u = ((s.set .BOOT_RCV_STATUS_open 0).imgShow (0 + j) m r).rcvRes (bootResult r.1)) :
    exec .recoveryFinish s = .next (if r.1 ≠ 0 then u else u.deviceReset) := by
  rw [exec_recoveryFinish, execRecoveryFinish, if_neg hopen]
  simp only [hkind, if_true, ← hj, himage, ← hr, ← hu]

theorem recoveryAbort_open (hopen : s.get .BOOT_RCV_STATUS_open ≠ 0) (hj : j = s.get .BOOT_RCV_STATUS_target) : exec .recoveryAbort s =
    .next (((s.slotErase (s.get .BOOT_rcv_kind) j).set .BOOT_RCV_STATUS_open 0).rcvRes 0) := by
  rw [exec_recoveryAbort, execRecoveryAbort, if_neg hopen, hj]

end Recovery

section Updates
variable {s : State} {comp : Nat} {image man img : List Nat} {r : Nat × Nat}

/-- A PLDM component of a stage that is valid is written to the slot that the update takes, and answered 0 (R519). -/
theorem pldmUpdate_stage (hcomp : comp = 1 ∨ comp = 2) (hfail : s.get .PWR_fail ≠ 1)
    (hstage : s.get .BOOT_STATUS_recovery = 0 → s.get .BOOT_STATUS_stage = 2) (hman : man = image.take 65536)
    (himg : img = (image.drop 65536).take (leAt man 16 4)) (hr : r = s.imageValid man img comp (imgSpace comp)) :
    exec (.pldmUpdate comp image) s = .next (if r.1 ≠ 0 then s.answer [bootResult r.1] else
      if comp = 1 then (((s.mzero (s1Slot (s.updSlot 1)) 0x200000).mwrite (s1Slot (s.updSlot 1)) (fixLen 65536 man ++ img)).imgShow (s.updSlot 1)
        man r).answer [0]
      else ((s.lset .stage2Slot (fixLen 65536 man ++ img) 0 (s.updSlot 2)).imgShow (2 + s.updSlot 2) man r).answer [0]) := by
  have hoffered : ¬ (comp = 0 ∨ 3 < comp ∨ (comp = 3 ∧ s.get .BOOT_STATUS_recovery = 1) ∨ s.get .PWR_fail = 1 ∨
      (s.get .BOOT_STATUS_recovery = 0 ∧ s.get .BOOT_STATUS_stage ≠ 2)) := by
    rintro (h | h | h | h | h)
    exacts [by omega, by omega, by omega, hfail h, h.2 (hstage h.1)]
  rw [exec_pldmUpdate, execPldmUpdate]
  simp only [← hman, ← himg, if_neg hoffered, ← hr]
  rcases hcomp with rfl | rfl <;> rfl

end Updates

/-- Settles O58, from the stages of boot to recovery and update. -/
theorem bootAndUpdate : Obligations.BootAndUpdate := by
  refine ⟨fun s u p => stage1Boot_runs, fun s k => hbmTrained_stage, ?slots, fun s h => ⟨fwAlive_core, fwAlive_other⟩, fun s u => deviceReady_all,
    fun s u v => stage2Watchdog_dead, fun s v => ⟨bootArb_allowed, bootArb_rejected, arbProgramDone_busy⟩, fun s kind j => rfl, ?select, ?chunk, ?finish,
    fun s comp image man img r => pldmUpdate_stage⟩
  case slots =>
    exact fun s hst hloaded hnone => exec_completes fun t ht =>
      ⟨fun u hactive => exec_unique ht (structureImageApplied_active hst hloaded hnone hactive),
      fun u a p v hactive hprevious ha hp hv =>
        exec_unique ht (structureImageApplied_previous hst hloaded hnone hactive hprevious ha hp hv),
      fun hactive hprevious => exec_unique ht (structureImageApplied_none hst hloaded hnone hactive hprevious)⟩
  case select => exact fun s kind j => recoveryBegin_slot
  case chunk =>
    exact fun s o n j ho hn hj hopen hfail haligned hnext hfirst hsome hlen =>
      ⟨recoveryChunk_stage1 ho hn hj hopen hfail haligned hnext hfirst hsome hlen,
      recoveryChunk_stage2 ho hn hj hopen hfail haligned hnext hfirst hsome hlen⟩
  case finish => exact fun s u j m b r hopen hj => ⟨recoveryFinish_stage1 hopen hj, recoveryAbort_open hopen hj⟩

end Sys2Proof.Machine
end

section
/-! SUPPORT. Laws of the Onyx gate, of power and of temperature (R524 to R527, R559 to R562, R565, R567, R568, R573, Tables BOOT-11 to BOOT-13 and
PINS-9): what each command comes to; and the statement that rests on them. Whether a signature verifies is log entry 4; the gate's rows run only while
a command is held for it (log entry 67); fuses and recovery writes that power loss cuts short are log entries 137 and 167. -/

namespace Sys2Proof.Machine

section Requests
variable (s : State) (k blown rail size d tj : Nat) (j b p lg sv clk : Bool)

theorem exec_onyxSubmit : exec .onyxSubmit s = execOnyxSubmit s := rfl
theorem exec_onyxCancel : exec .onyxCancel s = execOnyxCancel s := rfl
theorem exec_onyxWindowExpiry : exec .onyxWindowExpiry s = execOnyxWindowExpiry s := rfl
theorem exec_presenceEvent : exec (.presenceEvent j b p) s = execPresenceEvent j b p s := rfl
theorem exec_debugUnlock : exec .debugUnlock s = execDebugUnlock s := rfl
theorem exec_revokeKey : exec (.revokeKey k) s = execRevokeKey k s := rfl
theorem exec_transferOwner : exec .transferOwner s = execTransferOwner s := rfl
theorem exec_fuseProvision : exec (.fuseProvision k) s = execFuseProvision k s := rfl
theorem exec_onyxZeroiseTenant : exec (.onyxZeroiseTenant k) s = execOnyxZeroiseTenant k s := rfl
theorem exec_sealBreak : exec .sealBreak s = execSealBreak s := rfl
theorem exec_powerFailWarning : exec (.powerFailWarning blown) s = execPowerFailWarning blown s := rfl
theorem exec_railDrop : exec (.railDrop rail lg sv blown) s = execRailDrop rail lg sv blown s := rfl
theorem exec_mainRailsRemoved : exec .mainRailsRemoved s = execMainRailsRemoved s := rfl
theorem exec_powerOnResetAssert : exec .powerOnResetAssert s = execPowerOnResetAssert s := rfl
theorem exec_powerOnReset : exec (.powerOnReset clk size) s = execPowerOnReset clk size s := rfl
theorem exec_mainRailsGood : exec .mainRailsGood s = execMainRailsGood s := rfl
theorem exec_vauxUp : exec .vauxUp s = execVauxUp s := rfl
theorem exec_vauxLoss : exec .vauxLoss s = execVauxLoss s := rfl
theorem exec_thermalWarn : exec (.thermalWarn d tj) s = execThermalWarn d tj s := rfl
theorem exec_thermalWarnClear : exec (.thermalWarnClear d tj) s = execThermalWarnClear d tj s := rfl
theorem exec_thermtrip : exec (.thermtrip d tj) s = execThermtrip d tj s := rfl

end Requests

section Mailbox
variable {s u : State} {b : List Nat} {r : Nat} (hidle : s.get .ONX_STATUS_wait ≠ 1) (hb : b = s.onxBytes)
  (hu : u = s.set .ONX_STATUS_last_cmd (b.getD 6 0))
include hidle hb hu

/-- A command that fails a check ends with that check's result (R525). -/
theorem onyxSubmit_refused (hcheck : u.onxCheck b = r + 1) : exec .onyxSubmit s = .next (u.onxEnd (r + 1)) := by
  simp only [exec_onyxSubmit, execOnyxSubmit, if_neg hidle, ← hb, ← hu, hcheck]

/-- One that passes runs at once with the jumper fitted, else its window opens (R526, Table BOOT-11). -/
theorem onyxSubmit_passed (hcheck : u.onxCheck b = 0) : exec .onyxSubmit s = .next (if u.get .ONX_STATUS_jumper = 1 then u.onxRun b
    else (((u.set .ONX_STATUS_wait 1).set .ONX_STATUS_window_s 60).set .ONX_wait_at u.now).lset .onxHeld (b.take 96)) := by
  simp only [exec_onyxSubmit, execOnyxSubmit, if_neg hidle, ← hb, ← hu, hcheck]

end Mailbox

section Windows
variable {s u : State} {j b p : Bool}

theorem onyxCancel_waiting (hwait : s.get .ONX_STATUS_wait ≠ 0) : exec .onyxCancel s = .next (s.onxEnd 8) := by
  rw [exec_onyxCancel, execOnyxCancel, if_neg hwait]

theorem onyxWindowExpiry_waiting (hwait : s.get .ONX_STATUS_wait ≠ 0) :
    exec .onyxWindowExpiry s = .next ((s.advanceTo (s.get .ONX_wait_at + 60 * secUnits)).onxEnd 7) := by
  rw [exec_onyxWindowExpiry, execOnyxWindowExpiry, if_neg hwait]

section Presence
variable (hvaux : s.get .PWR_vaux ≠ 0) (hu : u = (s.set .ONX_STATUS_jumper (b2n j)).set .ONX_STATUS_button (b2n b))
include hvaux hu

/-- Presence shown runs the command that waits (R526). -/
theorem presenceEvent_shown (hwait : u.get .ONX_STATUS_wait = 1) (hshown : j = true ∨ p = true) :
    exec (.presenceEvent j b p) s = .next (u.onxRun (u.lget .onxHeld)) := by
  simp only [exec_presenceEvent, execPresenceEvent, if_neg hvaux, ← hu, if_pos (And.intro hwait hshown)]

theorem presenceEvent_idle (hwait : u.get .ONX_STATUS_wait ≠ 1) : exec (.presenceEvent j b p) s = .next u := by
  simp only [exec_presenceEvent, execPresenceEvent, if_neg hvaux, ← hu, hwait, false_and, if_false]

end Presence

end Windows

section Commands
variable {s : State} {c a k : Nat}

/-- The gate executes a command while it is the held one, its first argument agrees, and no fuse would be programmed after a power-fail warning
(R530). -/
theorem onxMay_iff : s.onxMay c a = true ↔ s.onxReady.getD 6 0 = c ∧ ((c = 1 ∨ c = 3) ∨ s.onxReady.getD 32 0 = a) ∧
    ((c = 1 ∨ c = 5) ∨ s.get .PWR_fail = 0) := by
  simp only [State.onxMay, Bool.and_eq_true, Bool.or_eq_true, decide_eq_true_eq, and_assoc]

/-- What the gate runs when it may run command `c`. -/
theorem onxStep_may (hmay : s.onxMay c a = true) : s.onxStep c a = s.onxRun s.onxReady := by
  rw [State.onxStep, if_pos hmay]

/-- Naming the command leaves the power-fail warning as it was. -/
theorem noFail_named (hfail : s.get .PWR_fail = 0) : ¬ (s.set .ONX_STATUS_last_cmd c).get .PWR_fail = 1 := by
  rw [get_set_field _ _ _ _ _ _ _ _ (by decide), hfail]
  decide

theorem debugUnlock_ready (hmay : s.onxMay 1 0 = true) : exec .debugUnlock s = .next (s.set .ONX_STATUS_last_cmd 1).doUnlock := by
  obtain ⟨hcmd, -, -⟩ := onxMay_iff.mp hmay
  rw [exec_debugUnlock, execDebugUnlock, onxStep_may hmay, State.onxRun]
  simp only [hcmd]

theorem revokeKey_ready (hmay : s.onxMay 2 k = true) : exec (.revokeKey k) s = .next ((s.set .ONX_STATUS_last_cmd 2).doRevoke k) := by
  obtain ⟨hcmd, harg, hfail⟩ := onxMay_iff.mp hmay
  have hfirst : s.onxReady.getD 32 0 = k := harg.resolve_left (by decide)
  rw [exec_revokeKey, execRevokeKey, onxStep_may hmay, State.onxRun]
  simp only [hcmd, hfirst, if_neg (noFail_named (hfail.resolve_left (by decide))), if_true]

theorem transferOwner_ready (hmay : s.onxMay 3 0 = true) :
    exec .transferOwner s = .next ((s.set .ONX_STATUS_last_cmd 3).doTransfer (slice s.onxReady 32 48)) := by
  obtain ⟨hcmd, -, hfail⟩ := onxMay_iff.mp hmay
  rw [exec_transferOwner, execTransferOwner, onxStep_may hmay, State.onxRun]
  simp only [hcmd, if_neg (noFail_named (hfail.resolve_left (by decide)))]
  rfl

theorem fuseProvision_ready (hmay : s.onxMay 4 k = true) :
    exec (.fuseProvision k) s = .next ((s.set .ONX_STATUS_last_cmd 4).doProvision k (slice s.onxReady 48 48)) := by
  obtain ⟨hcmd, harg, hfail⟩ := onxMay_iff.mp hmay
  have hfirst : s.onxReady.getD 32 0 = k := harg.resolve_left (by decide)
  rw [exec_fuseProvision, execFuseProvision, onxStep_may hmay, State.onxRun]
  simp only [hcmd, hfirst, if_neg (noFail_named (hfail.resolve_left (by decide)))]
  rfl

theorem onyxZeroiseTenant_ready (hmay : s.onxMay 5 k = true) :
    exec (.onyxZeroiseTenant k) s = .next ((s.set .ONX_STATUS_last_cmd 5).doZeroise k) := by
  obtain ⟨hcmd, harg, -⟩ := onxMay_iff.mp hmay
  have hfirst : s.onxReady.getD 32 0 = k := harg.resolve_left (by decide)
  rw [exec_onyxZeroiseTenant, execOnyxZeroiseTenant, onxStep_may hmay, State.onxRun]
  simp only [hcmd, hfirst]

/-- A broken seal is seen while VAUX is up (R524). -/
theorem sealBreak_vaux (hvaux : s.get .PWR_vaux ≠ 0) : exec .sealBreak s = .next (s.set .ONX_STATUS_seal_broken 1) := by
  rw [exec_sealBreak, execSealBreak, if_neg hvaux]

theorem sealBreak_unpowered (hvaux : s.get .PWR_vaux = 0) : exec .sealBreak s = .next s := by
  rw [exec_sealBreak, execSealBreak, if_pos hvaux]

end Commands

section PowerLoss
variable {s u v : State} {blown rail size : Nat} {lg sv clk : Bool}

section Warned
variable (hfail : s.get .PWR_fail ≠ 1) (hrun : s.get .PWR_reset ≠ 1)
include hfail hrun

/-- A warning parks the outputs and stores what is to be stored (R561). -/
theorem powerFailWarning_first (hu : u = ((s.set .PKG_PWR_EVENTS_pwr_fail 1).set .PWR_fail 1).park)
    (hv : v = (u.amberLast.persistLast.arbCut blown).rcvCut) : exec (.powerFailWarning blown) s =
      .next ((v.advanceTo (v.now + 159 * usUnits)).set .PKG_PWR_EVENTS_pwr_fail_done 1) := by
  simp only [exec_powerFailWarning, execPowerFailWarning, if_neg (not_or.mpr ⟨hfail, hrun⟩), ← hu, ← hv]

/-- A rail that drops without one leaves what still completes (R562). -/
theorem railDrop_unwarned (hmain : s.get .PWR_main ≠ 0) (hu : u = ((s.set .PKG_PWR_EVENTS_rail_drop 1).set .PKG_PWR_EVENTS_rail rail).park)
    (hv : v = (if lg then u.amberLast else u.amberTorn)) : exec (.railDrop rail lg sv blown) s =
      .next ((((if sv then v.persistLast else v).arbCut blown).rcvCut.holdReset).set .PWR_main 0) := by
  simp only [exec_railDrop, execRailDrop, if_neg hmain, if_neg (not_or.mpr ⟨hfail, hrun⟩), ← hu, ← hv]

end Warned

section MainUp
variable (hmain : s.get .PWR_main ≠ 0)
include hmain

theorem mainRailsRemoved_up : exec .mainRailsRemoved s = .next (s.rcvCut.holdReset.set .PWR_main 0) := by
  rw [exec_mainRailsRemoved, execMainRailsRemoved, if_neg hmain]

theorem powerOnResetAssert_up : exec .powerOnResetAssert s = .next s.holdReset := by
  rw [exec_powerOnResetAssert, execPowerOnResetAssert, if_neg hmain]

/-- Power-on reset runs stage 0 (R502, R573). -/
theorem powerOnReset_up : exec (.powerOnReset clk size) s =
    .next ((s.holdReset.set .BOOT_density (if size = 0 then 0x10000000 else size)).porRelease clk) := by
  rw [exec_powerOnReset, execPowerOnReset, if_neg hmain]

end MainUp

/-- With the main rails good the wake pins are released and PME_Status set (R559). -/
theorem mainRailsGood_down (hmain : s.get .PWR_main ≠ 1) : exec .mainRailsGood s = .next ((s.set .PWR_main 1).each [0, 1] (fun e s =>
    if s.get .PIN_wake e = 1 then ((s.set .PIN_wake 0 e).set .PME_st 1 e).emit .pin [16 + e, 1] else s)) := by
  rw [exec_mainRailsGood, execMainRailsGood, if_neg hmain]

theorem vauxUp_down (hvaux : s.get .PWR_vaux ≠ 1) : exec .vauxUp s = .next (s.vauxReset.set .PWR_vaux 1) := by
  rw [exec_vauxUp, execVauxUp, if_neg hvaux]

theorem vauxLoss_up (hvaux : s.get .PWR_vaux ≠ 0) : exec .vauxLoss s = .next (s.vauxReset.set .PWR_vaux 0) := by
  rw [exec_vauxLoss, execVauxLoss, if_neg hvaux]

end PowerLoss

section Temperature
variable {s u w : State} {d tj : Nat}

section Read
variable (hu : u = (s.set .PKG_THERM_tj_qc tj d).set .PKG_THERM_peak_qc
    (if sgn 10 (s.get .PKG_THERM_peak_qc d) < sgn 10 tj then tj else s.get .PKG_THERM_peak_qc d) d)
  (hw : w = (if 440 < sgn 10 tj then u.set .PKG_THERM_warn 1 d else if sgn 10 tj < 400 then u.set .PKG_THERM_warn 0 d else u))
include hu hw

/-- A die's temperature moves its peak and sets or clears its warning (R567). -/
theorem thermRead_eq : s.thermRead d tj = w := by
  subst hw hu
  rfl

end Read

variable (hread : s.thermRead d tj = w)
include hread

theorem thermalWarn_read : exec (.thermalWarn d tj) s = .next w := by
  rw [exec_thermalWarn, execThermalWarn, hread]

theorem thermalWarnClear_read : exec (.thermalWarnClear d tj) s = .next w := by
  rw [exec_thermalWarnClear, execThermalWarnClear, hread]

/-- Beyond 120 °C the die trips once (R568). -/
theorem thermtrip_hot (hhot : 480 < sgn 10 tj) (hfirst : w.get .PKG_THERM_trip d ≠ 1) : exec (.thermtrip d tj) s =
    .next ((((w.set .PKG_THERM_trip 1 d).set .PKG_PWR_EVENTS_thermtrip 1).emit .pin [18, 0]).report
      { src := 0x1C, cls := .deviceFatal, die := d, detail := some d }) := by
  simp only [exec_thermtrip, execThermtrip, hread, if_neg (not_or.mpr ⟨Int.not_le.mpr hhot, hfirst⟩)]

theorem thermtrip_cool (hcool : sgn 10 tj ≤ 480) : exec (.thermtrip d tj) s = .next w := by
  simp only [exec_thermtrip, execThermtrip, hread, if_pos (Or.inl hcool)]

end Temperature

/-- Settles O59: the gate, then power, then temperature. -/
theorem onyxAndPower : Obligations.OnyxAndPower := by
  refine ⟨?submit, fun s hwait => ⟨onyxCancel_waiting hwait, onyxWindowExpiry_waiting hwait⟩, ?presence, ?commands, ?warning, ?drop, ?rails,
    fun s => ⟨mainRailsGood_down, vauxUp_down, vauxLoss_up⟩, ?temperature⟩
  case submit =>
    intro s u b hidle hb hu
    refine exec_completes fun t ht => ⟨fun r hcheck => exec_unique ht (onyxSubmit_refused hidle hb hu hcheck), fun hcheck hjumper => ?_,
      fun hcheck hjumper => ?_⟩
    · rw [exec_unique ht (onyxSubmit_passed hidle hb hu hcheck), if_pos hjumper]
    · rw [exec_unique ht (onyxSubmit_passed hidle hb hu hcheck), if_neg hjumper]
  case presence => exact fun s u j b p hvaux hu => ⟨presenceEvent_shown hvaux hu, presenceEvent_idle hvaux hu⟩
  case commands =>
    exact fun s k => ⟨debugUnlock_ready, revokeKey_ready, transferOwner_ready, fuseProvision_ready, onyxZeroiseTenant_ready, sealBreak_vaux,
      sealBreak_unpowered⟩
  case warning => exact fun s u v blown => powerFailWarning_first
  case drop => exact fun s u v rail blown lg sv hmain hfail hrun => railDrop_unwarned hfail hrun hmain
  case rails => exact fun s clk size hmain => ⟨mainRailsRemoved_up hmain, powerOnResetAssert_up hmain, powerOnReset_up hmain⟩
  case temperature =>
    intro s u w d tj hu hw
    have hread : s.thermRead d tj = w := thermRead_eq hu hw
    exact ⟨thermalWarn_read hread, thermalWarnClear_read hread, thermtrip_hot hread, thermtrip_cool hread⟩

end Sys2Proof.Machine
end

section
/-! SUPPORT. Laws of the service of regions, of background tests and scrubs, of pseudo-channels and of the test access port (R536 to R548); and the
statement that rests on them. ERR_REGION_CMD stays busy until the region settles (log entry 69), both channels of a copy read COPYING (log entry 77),
and the bits that the boundary register captures are free values (log entry 70). -/

namespace Sys2Proof.Machine

section Requests
variable (s : State) (n k pc d o found kind x y : Nat) (l : List Nat) (b : Bool)

theorem exec_regionOffline : exec (.regionOffline n b) s = execRegionOffline n b s := rfl
theorem exec_regionOnline : exec (.regionOnline n) s = execRegionOnline n s := rfl
theorem exec_regionOfflineEffective : exec (.regionOfflineEffective n) s = execRegionOfflineEffective n s := rfl
theorem exec_regionDrainDone : exec (.regionDrainDone n l) s = execRegionDrainDone n l s := rfl
theorem exec_regionBistEnd : exec (.regionBistEnd n l) s = execRegionBistEnd n l s := rfl
theorem exec_regionReturnComplete : exec (.regionReturnComplete n) s = execRegionReturnComplete n s := rfl
theorem exec_tcamBankTest : exec (.tcamBankTest n b l) s = execTcamBankTest n b l s := rfl
theorem exec_cipherKat : exec (.cipherKat k b) s = execCipherKat k b s := rfl
theorem exec_sramScrub : exec (.sramScrub d o found kind x y) s = execSramScrub d o found kind x y s := rfl
theorem exec_hbmScrub : exec (.hbmScrub k o found kind x y) s = execHbmScrub k o found kind x y s := rfl
theorem exec_hbmPcRetire : exec (.hbmPcRetire k pc) s = execHbmPcRetire k pc s := rfl
theorem exec_hbmPcSubstituteDone : exec .hbmPcSubstituteDone s = execHbmPcSubstituteDone s := rfl
theorem exec_bypass : exec .bypass s = execBypass s := rfl
theorem exec_idcode : exec .idcode s = execIdcode s := rfl
theorem exec_samplePreload : exec (.samplePreload l) s = execSamplePreload l s := rfl
theorem exec_extest : exec .extest s = execExtest s := rfl
theorem exec_clamp : exec .clamp s = execClamp s := rfl
theorem exec_highz : exec .highz s = execHighz s := rfl

end Requests

section RegionCommands
variable {s u : State} {n r : Nat} {f : Bool}

section Offline
variable (hr : r = s.srvCheck n false f)
include hr

/-- An accepted OFFLINE begins to drain, its time taken at acceptance (R536, R541). -/
theorem regionOffline_accepted (hok : r = 0) (hu : u = ((((s.set .ERR_REGION_CMD_result 0).set .ERR_REGION_STATE_state 1 0 n).set
      .ERR_REGION_STATE_bist_pass 0 0 n).set .SRV_fault 0 0 n).set .SRV_accept_at s.now 0 n) : exec (.regionOffline n f) s =
    .next (((u.set .SRV_limit (u.get .ERR_REGION_CMD_drain_limit_us) 0 n).set .SRV_effective 0 0 n).srvBusy) := by
  subst hu
  simp only [exec_regionOffline, execRegionOffline, ← hr, hok, ne_eq, not_true, if_false, srvDRAINING,
    now_set _ _ _ (by decide : Field.ERR_REGION_CMD_result ≠ .TS_NOW), now_set _ _ _ (by decide : Field.ERR_REGION_STATE_state ≠ .TS_NOW),
    now_set _ _ _ (by decide : Field.ERR_REGION_STATE_bist_pass ≠ .TS_NOW), now_set _ _ _ (by decide : Field.SRV_fault ≠ .TS_NOW),
    get_set_field _ _ _ _ _ _ _ _ (by decide : Field.SRV_accept_at ≠ .ERR_REGION_CMD_drain_limit_us)]

theorem regionOffline_refused (hbad : r ≠ 0) : exec (.regionOffline n f) s = .next (s.set .ERR_REGION_CMD_result r) := by
  simp only [exec_regionOffline, execRegionOffline, ← hr, if_pos hbad]

end Offline

section Online
variable (hr : r = s.srvCheck n true false)
include hr

/-- ONLINE of a tested region begins its return (R540, R541). -/
theorem regionOnline_accepted (hok : r = 0) : exec (.regionOnline n) s =
    .next ((((s.set .ERR_REGION_CMD_result 0).set .ERR_REGION_STATE_state 4 0 n).set .SRV_fault 0 0 n).srvBusy) := by
  simp only [exec_regionOnline, execRegionOnline, ← hr, hok, ne_eq, not_true, if_false, srvRETURNING]

theorem regionOnline_refused (hbad : r ≠ 0) : exec (.regionOnline n) s = .next (s.set .ERR_REGION_CMD_result r) := by
  simp only [exec_regionOnline, execRegionOnline, ← hr, if_pos hbad]

end Online

end RegionCommands

section RegionService
variable {s u v w : State} {n m : Nat} {l bad : List Nat}

/-- 10 µs after acceptance a region counts as offline: its connections move to the lowest online region (R537). -/
theorem regionOfflineEffective_draining (hst : s.srv n = 1) (heff : s.get .SRV_effective 0 n ≠ 1)
    (hu : u = (s.advanceTo (s.get .SRV_accept_at 0 n + 10 * usUnits)).set .SRV_effective 1 0 n) (hm : u.onlineRegions = m :: l)
    (hv : v = (((u.set .SIL_REDIRECT_region m 0 n).coresDiscard n).fragLost n).accountsDiscard n)
    (hw : w = v.each (v.tablesIn n) (fun t s => s.setb .EXM_TABLE_STAT_shard_down n true 0 t)) :
    exec (.regionOfflineEffective n) s = .next w.ringsRetarget := by
  have hdrains : ¬ (s.srv n ≠ srvDRAINING ∨ s.get .SRV_effective 0 n = 1) := not_or.mpr ⟨not_not_intro hst, heff⟩
  simp only [exec_regionOfflineEffective, execRegionOfflineEffective, if_neg hdrains, ← hu, hm, ← hv, ← hw]

section Drained
variable (hst : s.srv n = 1) (heff : s.get .SRV_effective 0 n ≠ 0)
  (hu : u = (if s.regionPkts n = [] ∧ s.regionQueued n = [] ∧ s.regionCmds n = [] then s.fragLost n else
    ((s.advanceTo (s.get .SRV_accept_at 0 n + 10 * usUnits + s.get .SRV_limit 0 n * usUnits)).regionPktsLost n).storeRegionLost n))
include hst heff hu

/-- A drained region goes to test with its cached contexts written back (R537, R538). -/
theorem regionDrainDone_sound (hfault : u.get .SRV_fault 0 n ≠ 1) :
    exec (.regionDrainDone n l) s = .next ((u.cacheWriteBack n).set .ERR_REGION_STATE_state 2 0 n) := by
  have hdrains : ¬ (s.srv n ≠ srvDRAINING ∨ s.get .SRV_effective 0 n = 0) := not_or.mpr ⟨not_not_intro hst, heff⟩
  simp only [exec_regionDrainDone, execRegionDrainDone, if_neg hdrains, ← hu, if_neg hfault, srvTESTING]

/-- After a fault the lost contexts enter ERROR (R538). -/
theorem regionDrainDone_fault (hfault : u.get .SRV_fault 0 n = 1) :
    exec (.regionDrainDone n l) s = .next (((u.each l (fun c s => if s.get .CACHE_in n c = 1 then
      (s.set .CACHE_in 0 n c).cnError c else s)).cacheWriteBack n).set .ERR_REGION_STATE_state 2 0 n) := by
  have hdrains : ¬ (s.srv n ≠ srvDRAINING ∨ s.get .SRV_effective 0 n = 0) := not_or.mpr ⟨not_not_intro hst, heff⟩
  simp only [exec_regionDrainDone, execRegionDrainDone, if_neg hdrains, ← hu, if_pos hfault, srvTESTING]

end Drained

section Tested
variable (hst : s.srv n = 2) (hu : u = (s.each (List.range 16) (fun b s => s.blockBist n b l)).sramBist n)
  (hbad : bad = (List.range 16).filter (fun b => decide (2 ≤ (blockFails l b).length)))
  (hv : v = (u.set .ERR_REGION_STATE_spares_used (((List.range 16).filter (fun b => decide (u.get .CELL_spare_used n b = 1))).length) 0 n).set
    .ERR_REGION_STATE_failed_blocks (bad.foldl (fun m b => m + 2 ^ b) 0) 0 n)
include hst hu hbad hv

/-- A BIST that finds no block beyond its spare ends OFFLINE, else FAILED (R539). -/
theorem regionBistEnd_testing : exec (.regionBistEnd n l) s =
    .next (if bad = [] then ((v.set .ERR_REGION_STATE_bist_pass 1 0 n).set .ERR_REGION_STATE_state 3 0 n).srvBusy
      else ((v.set .ERR_REGION_STATE_state 5 0 n).srvBusy).report
        { src := 0x18, cls := .contained, level := some 2, die := 4 + n / 2, region := n }) := by
  have htests : ¬ s.srv n ≠ srvTESTING := not_not_intro hst
  simp only [exec_regionBistEnd, execRegionBistEnd, if_neg htests, ← hu, ← hbad, ← hv, srvOFFLINE, srvFAILED]

end Tested

/-- A return ends with the region's shards, contexts and steering as in service (R540, R541). -/
theorem regionReturnComplete_returning (hst : s.srv n = 4) (hu : u = (s.tcReturn n).patReturn n)
    (hv : v = u.each (u.tablesIn n) (fun t s => (s.setb .EXM_TABLE_STAT_shard_down n false 0 t).exmEvent 7 n t 0 0 0 0))
    (hw : w = v.each (v.keysOf .CACHE_in) (fun k s => if s.cnHome k.2 = n then s.set .CACHE_in 0 k.1 k.2 else s)) :
    exec (.regionReturnComplete n) s =
      .next ((((w.set .SIL_REDIRECT_region n 0 n).set .SRV_effective 0 0 n).set .ERR_REGION_STATE_state 0 0 n).srvBusy) := by
  have hreturns : ¬ s.srv n ≠ srvRETURNING := not_not_intro hst
  simp only [exec_regionReturnComplete, execRegionReturnComplete, if_neg hreturns, ← hu, ← hv, ← hw]

end RegionService

section BackgroundTests
variable {s u : State} {n b k d o kind x y : Nat} {l : List Nat}

section TcamBanks
variable (hshadow : s.get .SRV_tcam_shadow n = 0)
  (hu : u = s.advanceTo (s.get .SRV_tcam_at n + max 1 (s.get .ERR_TEST_CFG_tcam_period_s) * secUnits))
include hshadow hu

/-- While no bank stands replaced by the shadow, the bank named is the next one. -/
theorem tcamBank_next : (if u.get .SRV_tcam_shadow n = b + 1 then (b + 1) % 4 else b) = b := by
  have hfree : u.get .SRV_tcam_shadow n = 0 := by rw [hu, get_advanceTo _ _ (by decide) (by decide), hshadow]
  rw [hfree, if_neg (Nat.succ_ne_zero b).symm]

variable (hon : s.online n = true) (hb : b = u.get .SRV_tcam_bank n)
include hon hb

/-- A bank that passes changes only its own record (R542). -/
theorem tcamBankTest_pass : exec (.tcamBankTest n true l) s =
    .next ((u.set .SRV_tcam_at u.now n).set .SRV_tcam_bank (b + 1) n) := by
  simp only [exec_tcamBankTest, execTcamBankTest, hon, Bool.not_true, Bool.false_eq_true, if_false, ← hu, ← hb, if_true,
    tcamBank_next hshadow hu]

/-- The first one that fails stays replaced by the shadow, and is reported (R542). -/
theorem tcamBankTest_fail : exec (.tcamBankTest n false l) s =
    .next ((((u.set .SRV_tcam_at u.now n).set .SRV_tcam_bank (b + 1) n).set .SRV_tcam_shadow (b + 1) n).report
      { src := 0x0D, cls := .corrected, level := some 1, die := 4 + n / 2, region := n }) := by
  have hfree : ((u.set .SRV_tcam_at u.now n).set .SRV_tcam_bank (b + 1) n).get .SRV_tcam_shadow n = 0 := by
    rw [get_set_field _ _ _ _ _ _ _ _ (by decide), get_set_field _ _ _ _ _ _ _ _ (by decide), hu, get_advanceTo _ _ (by decide) (by decide),
      hshadow]
  simp only [exec_tcamBankTest, execTcamBankTest, hon, Bool.not_true, Bool.false_eq_true, if_false, ← hu, ← hb,
    tcamBank_next hshadow hu, if_pos hfree]

end TcamBanks

/-- A known answer that agrees changes nothing (R543). -/
theorem cipherKat_pass : exec (.cipherKat k true) s = .next s := by
  rw [exec_cipherKat, execCipherKat, if_pos rfl]

theorem cipherKat_region (hk : k < 8) (hserves : s.offlineForTest k = false) : exec (.cipherKat k false) s =
    .next ((s.report { src := 0x10, cls := .contained, level := some 1, die := 4 + k / 2, region := k }).regionFault k) := by
  rw [exec_cipherKat, execCipherKat, if_neg Bool.false_ne_true, if_pos hk, hserves, if_neg Bool.false_ne_true]

theorem cipherKat_macsec (hk : 8 ≤ k) : exec (.cipherKat k false) s =
    .next ((s.report { src := 0x10, cls := .contained, die := k - 6, region := k }).set .ETH_kat_fail 1 (k - 8)) := by
  rw [exec_cipherKat, execCipherKat, if_neg Bool.false_ne_true, if_neg (Nat.not_lt.mpr hk)]

/-- A pass that finds nothing changes nothing else; a single error is corrected and reported (R544). -/
theorem scrub_clean {a : Nat} : s.scrub a 0 kind x y = s := rfl

theorem scrub_single {a : Nat} : s.scrub a 1 kind x y =
    s.report { src := 0x14, cls := .corrected, die := a / 2 ^ 44, region := sramRegion a, addr := a } := rfl

section Scrubs
variable (hu : u = s.advanceTo (s.get .SRV_sram_at 0 d + max 1 (s.get .ERR_TEST_CFG_sram_scrub_s) * secUnits))
include hu

theorem sramScrub_clean : exec (.sramScrub d o 0 kind x y) s = .next (u.set .SRV_sram_at u.now 0 d) := by
  simp only [exec_sramScrub, execSramScrub, ← hu, scrub_clean]

theorem sramScrub_single : exec (.sramScrub d o 1 kind x y) s = .next ((u.set .SRV_sram_at u.now 0 d).report
    { src := 0x14, cls := .corrected, die := (d * 2 ^ 44 + o) / 2 ^ 44, region := sramRegion (d * 2 ^ 44 + o), addr := d * 2 ^ 44 + o }) := by
  simp only [exec_sramScrub, execSramScrub, ← hu, scrub_single]

end Scrubs

theorem hbmScrub_clean (hu : u = s.advanceTo (s.get .SRV_hbm_at 0 k + max 1 (s.get .ERR_TEST_CFG_hbm_scrub_h) * 3600 * secUnits)) :
    exec (.hbmScrub k o 0 kind x y) s = .next (u.set .SRV_hbm_at u.now 0 k) := by
  simp only [exec_hbmScrub, execHbmScrub, ← hu, scrub_clean]

end BackgroundTests

section PseudoChannels
variable {s u : State} {k pc i j : Nat}

section Retiring
variable (hst : s.get .ERR_HBM_PC_state 0 (k * 32 + pc) = 0) (hidle : s.get .ERR_HBM_CMD_busy ≠ 1)
include hst hidle

/-- A tenant-pool channel is retired at once (R546). -/
theorem hbmPcRetire_pool (hpc : 16 ≤ pc) : exec (.hbmPcRetire k pc) s =
    .next ((s.set .ERR_HBM_PC_state 2 0 (k * 32 + pc)).report { src := 0x16, cls := .contained, die := 5 + k }) := by
  simp only [exec_hbmPcRetire, execHbmPcRetire, State.hbmRetire, if_neg (not_not_intro hst), if_neg hidle, if_pos hpc, hbmRetired]

/-- Another is copied to its substitute (R547). -/
theorem hbmPcRetire_substituted (hpc : pc < 16) (hj : s.substituteOf k = some j) : exec (.hbmPcRetire k pc) s =
    .next (((((s.set .ERR_HBM_PC_state 1 0 (k * 32 + pc)).set .ERR_HBM_PC_partner j 0 (k * 32 + pc)).set .ERR_HBM_CMD_busy 1).set .ERR_HBM_PC_state
      1 0 (k * 32 + j)).set .ERR_HBM_PC_partner pc 0 (k * 32 + j)) := by
  simp only [exec_hbmPcRetire, execHbmPcRetire, State.hbmRetire, if_neg (not_not_intro hst), if_neg hidle, if_neg (Nat.not_le.mpr hpc), hj]

end Retiring

/-- The copy complete, the channel is remapped and the next retirement that waits begins (R547). -/
theorem hbmPcSubstituteDone_copying (hi : (List.range 64).find? (fun i => decide (i % 32 < 16 ∧ s.get .ERR_HBM_PC_state 0 i = 1)) = some i)
    (hj : j = i / 32 * 32 + s.get .ERR_HBM_PC_partner 0 i)
    (hu : u = ((s.set .ERR_HBM_PC_state 2 0 i).set .ERR_HBM_PC_state 3 0 j).set .ERR_HBM_CMD_busy 0) : exec .hbmPcSubstituteDone s =
    .next ((u.report { src := 0x16, cls := .corrected, die := 5 + i / 32 }).hbmNext (u.lget .hbmWait)) := by
  simp only [exec_hbmPcSubstituteDone, execHbmPcSubstituteDone, hi, ← hj, ← hu, hbmRetired]

end PseudoChannels

section TestAccessPort
variable {s u : State} {b d : List Nat}

/-- SAMPLE/PRELOAD loads the boundary register and shows the pins (R548). -/
theorem samplePreload_shifts (hfree : (((s.set .JTAG_inst 2).set .JTAG_pins 0).lset .bscan b).freeBytes b.length = (u, d)) :
    exec (.samplePreload b) s = .next (u.answer (d.map (· % 2))) := by
  simp only [exec_samplePreload, execSamplePreload, State.tap, hfree]

section BelowStage2
variable (hst : s.get .BOOT_STATUS_stage < 2)
include hst

theorem clamp_below : exec .clamp s = .next (((s.set .JTAG_inst 4).set .JTAG_pins 1).answer [0]) := by
  rw [exec_clamp, execClamp, State.tapBelow2, if_pos hst, State.tap]

theorem highz_below : exec .highz s = .next (((s.set .JTAG_inst 5).set .JTAG_pins 2).answer [0]) := by
  rw [exec_highz, execHighz, State.tapBelow2, if_pos hst, State.tap]

theorem extest_below (hfree : ((s.set .JTAG_inst 3).set .JTAG_pins 1).freeBytes (s.lget .bscan).length = (u, d)) :
    exec .extest s = .next (u.answer (d.map (· % 2))) := by
  simp only [exec_extest, execExtest, if_pos hst, State.tap, hfree]

end BelowStage2

/-- From stage 2 on the instructions that drive the pins are BYPASS (R548). -/
theorem drivers_bypassed (hst : 2 ≤ s.get .BOOT_STATUS_stage) :
    exec .extest s = exec .bypass s ∧ exec .clamp s = exec .bypass s ∧ exec .highz s = exec .bypass s := by
  have hrun : ¬ s.get .BOOT_STATUS_stage < 2 := Nat.not_lt.mpr hst
  simp only [exec_extest, execExtest, exec_clamp, execClamp, exec_highz, execHighz, exec_bypass, execBypass, State.tapBelow2, if_neg hrun, and_self]

end TestAccessPort

/-- Settles O60: the service of regions, then tests and scrubs, pseudo-channels and the port. -/
theorem serviceAndTap : Obligations.ServiceAndTap := by
  refine ⟨fun s u n r f hr => ⟨regionOffline_accepted hr, regionOffline_refused hr⟩, fun s n r hr => ⟨regionOnline_accepted hr, regionOnline_refused hr⟩,
    fun s u v w n m l => regionOfflineEffective_draining, ?drained, ?tested, fun s u v w n => regionReturnComplete_returning, ?tcam,
    fun s k => ⟨cipherKat_pass, cipherKat_region, cipherKat_macsec⟩, fun s u d o kind x y hu => ⟨sramScrub_clean hu, sramScrub_single hu⟩,
    fun s u k o kind x y => hbmScrub_clean, fun s k pc j hst hidle => ⟨hbmPcRetire_pool hst hidle, hbmPcRetire_substituted hst hidle⟩,
    fun s u i j => hbmPcSubstituteDone_copying, ?port⟩
  case drained => exact fun s u n l hst heff hu => ⟨regionDrainDone_sound hst heff hu, regionDrainDone_fault hst heff hu⟩
  case tested =>
    intro s u v n l bad hst hu hbad hv
    rw [regionBistEnd_testing hst hu hbad hv]
    exact ⟨fun hnone => by rw [if_pos hnone], fun hsome => by rw [if_neg hsome]⟩
  case tcam => exact fun s u n b l hon hshadow hu hb _ => ⟨tcamBankTest_pass hshadow hu hon hb, tcamBankTest_fail hshadow hu hon hb⟩
  case port =>
    exact fun s u b d => ⟨exec_bypass s, exec_idcode s, samplePreload_shifts, fun hst => ⟨clamp_below hst, highz_below hst, extest_below hst⟩,
      drivers_bypassed⟩

end Sys2Proof.Machine
end
